-- ==== Sys2Proof/Word.lean ====
section
/-! DEFINITION. The word and byte types, little-endian packing (R9), bit fields [msb:lsb] (R9), the
sparse maps in which the state keeps numbered units, and serial arithmetic (R97, R222). -/

namespace Sys2Proof

/-- One byte of memory, of a record or of a frame. -/
abbrev Byte := BitVec 8
/-- An IEEE 754 binary32 bit pattern (R170, R171). -/
abbrev F32 := BitVec 32
/-- An F32P pair: value and compensation (R173). -/
abbrev F32P := BitVec 32 × BitVec 32

/-- Bits [hi:lo] of `w` (R9). -/
def bits (w hi lo : Nat) : Nat := (w >>> lo) % 2 ^ (hi + 1 - lo)

/-- Bit `i` of `w`. -/
def bit (w i : Nat) : Bool := w.testBit i

/-- `w` with its field of `width` bits from bit `lo` replaced by `v`. -/
def setField (w lo width v : Nat) : Nat :=
  w - bits w (lo + width - 1) lo * 2 ^ lo + (v % 2 ^ width) * 2 ^ lo

/-- The numeric value of a flag. -/
def b2n (b : Bool) : Nat := if b then 1 else 0

/-- `n` little-endian bytes of `v` (R9). -/
def leBytes : Nat → Nat → List Byte
  | 0, _ => []
  | n + 1, v => BitVec.ofNat 8 v :: leBytes n (v / 256)

/-- The number that little-endian bytes spell (R9). -/
def leNat : List Byte → Nat
  | [] => 0
  | b :: bs => b.toNat + 256 * leNat bs

/-- The `n`-byte little-endian number at offset `off` of a record. -/
def getLE (bs : List Byte) (off n : Nat) : Nat := leNat ((bs.drop off).take n)

/-- `n` zero bytes. -/
def zeros (n : Nat) : List Byte := List.replicate n 0

/-- `bs` padded with zeros, or cut, to `n` bytes. -/
def padTo (n : Nat) (bs : List Byte) : List Byte := (bs ++ zeros (n - bs.length)).take n

/-- `⌈a / b⌉`. -/
def ceilDiv (a b : Nat) : Nat := (a + b - 1) / b

/-- Addition that stops at the top of a 64-bit counter (R70, R128, R151). -/
def satAdd64 (a b : Nat) : Nat := min (a + b) (2 ^ 64 - 1)

/-- `a` is newer than `b` in serial arithmetic modulo `2^k` (R97, R222, R115). -/
def serialNewer (k a b : Nat) : Bool :=
  let d := (a + 2 ^ k - b % 2 ^ k) % 2 ^ k
  0 < d && d < 2 ^ (k - 1)

/-- A sparse map from unit numbers: keys strictly rising. -/
abbrev NMap (α : Type) := List (Nat × α)

namespace NMap

/-- The value at `k`, if one is held. -/
def get? {α : Type} : NMap α → Nat → Option α
  | [], _ => none
  | (k', v) :: m, k => if k' = k then some v else get? m k

/-- The value at `k`, or `d`. -/
def getD {α : Type} (m : NMap α) (k : Nat) (d : α) : α := (get? m k).getD d

/-- `m` with `v` at `k`. -/
def set {α : Type} : NMap α → Nat → α → NMap α
  | [], k, v => [(k, v)]
  | (k', v') :: m, k, v =>
    if k < k' then (k, v) :: (k', v') :: m
    else if k = k' then (k, v) :: m
    else (k', v') :: set m k v

/-- `m` without a value at `k`. -/
def erase {α : Type} : NMap α → Nat → NMap α
  | [], _ => []
  | (k', v') :: m, k => if k' = k then erase m k else (k', v') :: erase m k

/-- `m` with the value at `k` (or the default `d`) changed by `f`. -/
def upd {α : Type} (m : NMap α) (k : Nat) (d : α) (f : α → α) : NMap α := set m k (f (getD m k d))

/-- Every value changed by `f`, which also sees its key. -/
def mapV {α : Type} (m : NMap α) (f : Nat → α → α) : NMap α := m.map fun kv => (kv.1, f kv.1 kv.2)

/-- The keys, rising. -/
def keys {α : Type} (m : NMap α) : List Nat := m.map Prod.fst

/-- The values, in key order. -/
def vals {α : Type} (m : NMap α) : List α := m.map Prod.snd

end NMap

/-- A list with the element at `i` changed by `f`. -/
def modAt {α : Type} (l : List α) (i : Nat) (f : α → α) : List α := l.modify i f

/-- The first `n` naturals from `a`. -/
def rangeFrom (a n : Nat) : List Nat := (List.range n).map (a + ·)

/-- `0 … n-1` rotated to start at `a`: the ascending order that wraps (R25, R156, R159). -/
def rotated (n a : Nat) : List Nat := (List.range n).map fun i => (a + i) % n

/-- The members of a bitmap held as a number, below `n`. -/
def bitMembers (n w : Nat) : List Nat := (List.range n).filter fun i => w.testBit i

/-- The number of set bits of `w` below `n`. -/
def popCount (n w : Nat) : Nat := (bitMembers n w).length

/-! CRC-32C, the Castagnoli CRC that R43, R65, R87, R90, R108, R113 and R120 name by its name. -/

/-- One bit of the reflected CRC-32C division. -/
def crcStep (c : Nat) : Nat := if c % 2 = 1 then (c / 2) ^^^ 0x82F63B78 else c / 2

/-- One byte of the CRC-32C division. -/
def crcByte (c : Nat) (b : Byte) : Nat :=
  crcStep (crcStep (crcStep (crcStep (crcStep (crcStep (crcStep (crcStep (c ^^^ b.toNat))))))))

/-- CRC-32C of a byte string (initial value and final inversion all ones). -/
def crc32c (bs : List Byte) : Nat := (bs.foldl crcByte 0xFFFFFFFF) ^^^ 0xFFFFFFFF

/-- CRC-32C of a record with the four bytes at `off` taken as zero (R108, R223, R252, R262, R320). -/
def crcZeroAt (bs : List Byte) (off : Nat) : Nat :=
  crc32c (bs.take off ++ zeros 4 ++ bs.drop (off + 4))

end Sys2Proof
end

