-- ==== Sys2Proof/Syntax.lean ====
section
/-! DEFINITION. The commands and events the module takes: one constructor of `Instr` for each row of
spec/opcode_table.json, in the table's order, and the operand records they carry. -/

namespace Sys2Proof

/-- A host buffer as RDMA READ finds it: key, address, contents (R317). -/
structure HostBuf where
  key : Nat
  addr : Nat
  bytes : List Byte
  deriving DecidableEq, Repr

/-- A buffer reference (R317). -/
structure Ref where
  addr : Nat := 0
  key : Nat := 0
  len : Nat := 0
  deriving DecidableEq, Repr

/-- The path on which a command came (R308, R314–R316). -/
inductive Path where
  /-- Mailbox 0–63. -/
  | mailbox (m : Nat)
  /-- The I3C sideband. -/
  | sideband
  /-- An MGMT frame of a job from (node, endpoint), with its class and op_id (R316). -/
  | fabric (job node ep cls opId : Nat)
  deriving DecidableEq, Repr

/-- What a command carries beside its arguments: path, number and flags of its slot (Table 13.3), whether
fewer than 16 cycles of the block's clock are left before the next strobe (R39), and what the host's side of
the transport answers: the buffers that reads find, and whether writes succeed (R317). -/
structure CmdHdr where
  path : Path := .mailbox 0
  number : Nat := 0
  fence : Bool := false
  devFence : Bool := false
  effTick : Nat := 0
  late : Bool := false
  reads : List HostBuf := []
  writable : Bool := true
  deriving DecidableEq, Repr

/-- A frame header (Table 4.3). `rsv` is non-zero when a reserved field is. -/
structure Hdr where
  version : Nat := 1
  ext : Bool := false
  retx : Bool := false
  opcode : Nat := 0
  cls : Nat := 0
  vc : Nat := 0
  colour : Nat := 0
  ttl : Nat := 63
  phase : Nat := 0
  cong : Bool := false
  dstNode : Nat := 0
  dstEp : Nat := 0
  srcNode : Nat := 0
  srcEp : Nat := 0
  via : Nat := 0xFFFF
  job : Nat := 0
  sys : Bool := false
  units : Nat := 1
  last : Bool := false
  srcRank : Nat := 0
  seq : Nat := 0
  opId : Nat := 0
  position : Nat := 0
  rsv : Nat := 0
  deriving DecidableEq, Repr

/-- A frame extension (Table 4.4). -/
structure Ext where
  checkSum : F32 := 0
  checkMag : F32 := 0
  member : Nat := 0xFFFF
  contributors : Nat := 1
  format : Nat := 0
  flags : Nat := 0
  flushed : Nat := 0
  deriving DecidableEq, Repr

/-- A frame (R88). -/
structure Frame where
  hdr : Hdr := {}
  extn : Option Ext := none
  payload : List Byte := []
  deriving DecidableEq, Repr

/-- A committed delivery: the frame, and the port on which it entered this module (none for a frame of this
module's own internal endpoints). -/
structure Delivery where
  frame : Frame := {}
  port : Option Nat := none
  deriving DecidableEq, Repr

/-- What a unit of the device asks of the pool arbiters (R159): 1 allocate (`size`, `tile`, `spill`), 2 free, 3 give (`other` the
recipient), 4 reference, 5 release (`other` the count). -/
structure PoolAsk where
  op : Nat
  addr : Nat := 0
  size : Nat := 0
  tile : Nat := 0
  spill : Bool := false
  other : Nat := 0
  deriving DecidableEq, Repr

/-- An operation that a unit puts to the arbiters: its master ID (R28), its requester ID, and what it asks. -/
structure PoolOp extends PoolAsk where
  unit : Nat
  requester : Nat
  deriving DecidableEq, Repr

/-- A capability set (Table 3.5) as one lane receives it (R65). -/
structure CapSet where
  version : Nat := 1
  kind : Nat := 0
  period : Nat := 1
  id : Nat := 0
  port : Nat := 0
  nominal : Nat := 8
  lane : Nat := 0
  usable : Nat := 0xFF
  widthAck : Nat := 0
  tickState : Nat := 0
  vcs : Nat := 8
  maxPayload : Nat := 128
  planId : Nat := 0
  deriving DecidableEq, Repr

/-- A capability set as it comes in: the lane, whether its CRC is good, what it says. -/
structure CapHeard where
  lane : Nat
  crcOk : Bool
  caps : CapSet
  deriving DecidableEq, Repr

/-- A tick-announce payload (Table 2.4). -/
structure Announce where
  rootNode : Nat := 0
  rootPriority : Nat := 255
  depth : Nat := 0
  rootSeq : Nat := 0
  sender : Nat := 0
  state : Nat := 0
  period : Nat := 1
  rootSince : Nat := 0
  deriving DecidableEq, Repr

/-- A DISCOVERY payload (Table 5.5a), its stamp left out (nothing in the module depends on it). -/
structure Disc where
  kind : Nat := 1
  portState : Nat := 0
  node : Nat := 0
  port : Nat := 0
  trunk : Nat := 0xFFFF
  planId : Nat := 0
  epoch : Nat := 0
  coord : List Nat := [0, 0, 0]
  event : Nat := 0
  originNode : Nat := 0
  originTrunk : Nat := 0
  lsSeq : Nat := 0
  digest : Nat := 0
  portReason : Nat := 0
  deriving DecidableEq, Repr

/-- Input power as the power controller finds it in a tick, in W and mW: measured power, the activity
estimate, the mean power of one busy engine, and each compute tile's estimated engine power (R359, R360). -/
structure PowerSample where
  meas : Nat := 0
  est : Nat := 0
  engine : Nat := 519
  tiles : List Nat := []
  late : Bool := false
  deriving DecidableEq, Repr

/-- What one lane's FEC decoder counted since the last boundary (R70). -/
structure FecCount where
  lane : Nat
  cw : Nat := 0
  corrCw : Nat := 0
  corrSym : Nat := 0
  uncorr : Nat := 0
  maxSym : Nat := 0
  deriving DecidableEq, Repr

/-- What the physical side answers at a boundary: the power sample; where the plan of the tick that starts is late, how many
of its matching rounds are complete (R52); ports whose tick-sync ordered set cannot be sent before the next boundary (R52);
and the FEC counts of the tick (R70). -/
structure BoundaryIn where
  power : PowerSample := {}
  planLate : Option Nat := none
  /-- The tiles whose captures arrive late (R141). -/
  capturesLate : List Nat := []
  tsosLate : List Nat := []
  fec : List FecCount := []
  deriving DecidableEq, Repr

/-- One laser's reading (R76): LSM, laser 0–4, power in 0.01 dBm (as an offset binary of 32768), bias in 0.1 mA. -/
structure LaserRead where
  lsm : Nat
  laser : Nat
  power : Nat
  bias : Nat
  deriving DecidableEq, Repr

/-- What the device learns of a laser source module as its latch closes (R76, R78, R80): its wavelength grid in nm, the set point of each laser in the unit of its power, the limit of each bias. -/
structure LsmIdent where
  grid : List Nat := [1271, 1291, 1311, 1331]
  setPoints : List Nat
  limits : List Nat
  deriving DecidableEq, Repr

/-- What a RoCEv2 or other host-port frame is (R298, R299). -/
inductive HostFrame where
  /-- A RoCEv2 packet of a device QP; ECN-CE marked or not. -/
  | roce (qp : Nat) (ce : Bool)
  /-- ARP or neighbour discovery for the port's own address. -/
  | resolution
  /-- A QP1 packet of the communication manager. -/
  | qp1
  /-- Any other frame. -/
  | other
  deriving DecidableEq, Repr

/-- What a fault checker reports (R371, Table 16.4): class, master ID, address, access type, detail. -/
structure FaultRep where
  cls : Nat
  master : Nat := 0
  addr : Nat := 0
  access : Nat := 0
  detail : Nat := 0
  deriving DecidableEq, Repr

/-- An engine's answer about a finished tick job. -/
inductive JobEnd where
  /-- Every check of R201 passed. -/
  | good
  /-- A check failed (R213). -/
  | checkFailed
  deriving DecidableEq, Repr

/-- One command or event: one row of the table of operations and events. Operands named `h` are command
headers; units are named by their numbers (R8). -/
inductive Instr where
  | setupCarve (h : CmdHdr) (packet reduction staging stozil : Nat)
  | resetModule (h : CmdHdr)
  | moduleResetShutdown
  | resetDataPlane (h : CmdHdr)
  | resetTile (h : CmdHdr) (tile : Nat)
  | tileResetComplete (tile : Nat) (failed : List Nat)
  | resetPort (h : CmdHdr) (port : Nat)
  | tickRejoin (h : CmdHdr)
  | linkEnable (h : CmdHdr) (port : Nat)
  | linkDisable (h : CmdHdr) (port : Nat)
  | linkHedge (h : CmdHdr) (scope port job node ep : Nat)
  | linkLift (h : CmdHdr) (scope port job node ep : Nat)
  | laneRetire (h : CmdHdr) (lane : Nat)
  | laneRestore (h : CmdHdr) (lane : Nat)
  | laneTest (h : CmdHdr) (lane retireAfter ticks : Nat) (out : Ref)
  | laneTestEnd (lane : Nat)
  | laneLsmRelease (h : CmdHdr) (lsm : Nat)
  | lsmReleaseDrained (lsm : Nat)
  | topoLoad (h : CmdHdr) (plan : Ref)
  | topoReadmit (h : CmdHdr) (node : Nat)
  | routeReseed (h : CmdHdr) (seed : Nat)
  | schedReserve (h : CmdHdr) (port reserve : Nat)
  | poolSetup (h : CmdHdr) (p1 p2 p3 modes p4count p4base : Nat)
  | poolQuota (h : CmdHdr) (requester pool minSetts maxSetts : Nat)
  | poolBind (h : CmdHdr) (requester job : Nat)
  | poolAlloc (h : CmdHdr) (requester tile spill size : Nat)
  | poolFree (h : CmdHdr) (requester addr : Nat)
  | poolGive (h : CmdHdr) (requester recipient addr : Nat)
  | poolRef (h : CmdHdr) (n : Int) (addr : Nat)
  | poolStatus (h : CmdHdr) (pool requester : Nat) (out : Ref)
  | settRequest (unit requester : Nat) (ask : PoolAsk) (beside : List PoolOp)
  | settRelease (unit requester : Nat) (ask : PoolAsk) (beside : List PoolOp)
  | engLoad (h : CmdHdr) (job : Nat) (image : Ref)
  | engUnload (h : CmdHdr) (opId : Nat)
  | engRun (h : CmdHdr) (opId : Nat)
  | engAbort (h : CmdHdr) (opId : Nat)
  | engKernel (h : CmdHdr) (kernel : Nat) (image streams : Ref)
  | engRetire (h : CmdHdr) (engine : Nat)
  | engRestore (h : CmdHdr) (engine : Nat)
  | engTest (h : CmdHdr) (engine : Nat)
  | collOpen (h : CmdHdr) (job firstGen context : Nat) (image : Ref)
  | collClose (h : CmdHdr) (context : Nat)
  | collAbort (h : CmdHdr) (opId : Nat)
  | collStatus (h : CmdHdr) (context : Nat) (out : Ref)
  | collBarrier (h : CmdHdr) (job group context members : Nat) (table : Ref)
  | paramDeclare (h : CmdHdr) (image : Ref)
  | paramInit (h : CmdHdr) (block job region zeroFill : Nat) (data : Ref)
  | paramRead (h : CmdHdr) (block job region : Nat) (data : Ref)
  | paramOptimizer (h : CmdHdr) (image : Ref)
  | paramProgram (h : CmdHdr) (block job slot opId : Nat)
  | paramPublish (h : CmdHdr) (block job : Nat)
  | paramClose (h : CmdHdr) (block job : Nat)
  | paramUpdate (h : CmdHdr) (block job : Nat)
  | paramDiscard (h : CmdHdr) (block job : Nat)
  | paramEvict (h : CmdHdr) (block job : Nat)
  | paramSpoil (h : CmdHdr) (block job : Nat) (mask : Ref)
  | paramHyper (h : CmdHdr) (block job : Nat) (multiplier : F32)
  | paramStatus (h : CmdHdr) (block job : Nat) (out : Ref)
  | paramRetire (h : CmdHdr) (block job : Nat)
  | stashReserve (h : CmdHdr) (job extentLog2 maxEntries reservedBytes limitBytes : Nat)
  | stashRelease (h : CmdHdr) (job : Nat)
  | stashReleaseDrainTimeout (job : Nat)
  | stashPurge (h : CmdHdr) (job rank tag mask : Nat)
  | stashStatus (h : CmdHdr) (job : Nat) (out : Ref)
  | stashEntry (h : CmdHdr) (job rank tag : Nat) (out : Ref)
  | pwrPhase (h : CmdHdr) (phase tileMask : Nat)
  | pwrCap (h : CmdHdr) (limitW : Nat)
  | fltSeverity (h : CmdHdr) (source level : Nat)
  | fltInject (h : CmdHdr) (source : Nat)
  | fltInjectTimeout
  | fltClear (h : CmdHdr) (mask : Nat)
  | mgtImageWrite (h : CmdHdr) (slot offset : Nat) (data : Ref) (inlined : List Byte)
  | mgtImageActivate (h : CmdHdr) (slot : Nat)
  | mgtAttest (h : CmdHdr) (nonce : List Byte) (out : Ref)
  | mgtLogRead (h : CmdHdr) (first count : Nat) (out : Ref)
  | mboxBind (h : CmdHdr) (mailbox priority events qp dataQp : Nat) (ring : Ref)
  | mboxUnbind (h : CmdHdr) (mailbox : Nat)
  | mboxCancel (h : CmdHdr) (mailbox number : Nat)
  | mboxNop (h : CmdHdr)
  | mboxStatus (h : CmdHdr) (mailbox : Nat)
  | hostPortConfig (h : CmdHdr) (port flags pfcPriority vlan ipv4 ipv6 : Nat)
  | hostQpOpen (h : CmdHdr) (port dscp mtu hostQpn hostPsn dstMac hostGid : Nat)
  | hostQpClose (h : CmdHdr) (qp : Nat)
  | jobAdmit (h : CmdHdr) (rcd : Ref)
  | jobEnd (h : CmdHdr) (job : Nat)
  | jobEndComplete (job : Nat)
  | jobStatus (h : CmdHdr) (job : Nat) (out : Ref)
  | funcDisable (h : CmdHdr) (function job drainTicks : Nat)
  | funcDisableDrained (function job : Nat)
  | drainTimeout (function job : Nat)
  | funcEnable (h : CmdHdr) (function job : Nat)
  | funcStatus (h : CmdHdr) (function job : Nat)
  | regRead (h : CmdHdr) (addr words : Nat) (out : Ref)
  | regWrite (h : CmdHdr) (addr value : Nat)
  | tickEnableWrite (h : CmdHdr)
  | tickPeriodWrite (h : CmdHdr) (period : Nat)
  | tickCountRead (h : CmdHdr)
  | poolLowWaterRead (h : CmdHdr) (pool : Nat)
  | memarbShareWrite (h : CmdHdr) (value : Nat)
  | engSrSeedWrite (h : CmdHdr) (seed : Nat)
  | fltStatusClear (h : CmdHdr) (mask : Nat)
  | fltMcRetire (h : CmdHdr) (channel : Nat)
  | fltMcTest (h : CmdHdr) (channel : Nat)
  | mcMarchDone (channel : Nat) (failed : Bool)
  | fltMcRestore (h : CmdHdr) (channel : Nat)
  | mgtSensorClearPeaks (h : CmdHdr)
  | doorbell (mailbox qp key d : Nat) (reads : List HostBuf)
  | mailboxSend (mailbox qp : Nat) (slots : List (List Byte)) (reads : List HostBuf)
  | hostRdmaAccess (qp key addr : Nat) (write : Option (List Byte)) (len : Nat)
  | commandAged (mailbox number : Nat)
  | effectiveTickReached
  | sidebandSlotWrite (slot : List Byte)
  | sidebandStatusRead
  | hostFrameReceived (port : Nat) (frame : HostFrame)
  | cnpReceived (qp : Nat)
  | rateRecoveryTimer (qp : Nat)
  | qpRetryExhausted (qp : Nat)
  | losAssert (lane : Nat)
  | losClear (lane : Nat)
  | lolAssert (lane : Nat)
  | lolClear (lane : Nat)
  | detectLightQualified (lane : Nat)
  | trainComplete (port : Nat)
  | trainTimeout (port : Nat)
  | lockAchieved (port : Nat)
  | lockTimeout (port : Nat)
  | capabilitySet (port : Nat) (heard : CapHeard)
  | exchangeTimeout (port : Nat)
  | widthRequest (port usable : Nat)
  | widthAck (port usable width : Nat)
  | widthStepSwitch (port : Nat)
  | widthMarker (port : Nat)
  | widthAckTimeout (port : Nat)
  | laneRestoreHoldElapsed (lane : Nat)
  | laneAutoRetire (lane : Nat)
  | retirementWindowEnd
  | creditUpdate (port : Nat) (granted : List Nat)
  | laserSample (reads : List LaserRead)
  | spareLaserSwitched (lsm : Nat)
  | lsmLatchOpen (lsm : Nat)
  | lsmLatchClose (lsm : Nat) (idOk : Bool) (ident : LsmIdent)
  | lsmLasersLit (lsm : Nat)
  | tickBoundary (inp : BoundaryIn)
  | tsosReceived (port : Nat) (crcOk : Bool) (seq tTx echoSeq echoTx echoRx arrival : Nat)
  | parentLost
  | tickAnnounce (port : Nat) (announce : Announce)
  | announceTimer
  | joinTimeout
  | rootSeqStale
  | holdLimitExpired
  | hello (port : Nat) (disc : Disc)
  | helloReply (port : Nat) (disc : Disc)
  | helloNoReplyTimeout (port : Nat)
  | pendingLimitExpired
  | linkState (port : Nat) (disc : Disc)
  | digestTimer
  | digest (port : Nat) (disc : Disc)
  | groupSetup (d : Delivery)
  | frameHeaderReceived (port : Nat) (firstByte : Nat) (hdr : Hdr) (extn : Option Ext)
  | frameEndReceived (port : Nat) (payload : List Byte) (e2eCrc : Nat) (hopCrc : Option Nat)
  | frameTransmitted (port tile cls : Nat)
  | ack (d : Delivery)
  | retransmitTimeout (src dst : Nat × Nat) (job : Nat) (sys : Bool) (seq : Nat)
  | fence (d : Delivery)
  | barrierArrive (d : Delivery)
  | barrierMemberTimeout (context : Nat)
  | redContrib (d : Delivery)
  | redPartial (d : Delivery)
  | benchSeal (context generation chunk : Nat)
  | collData (d : Delivery)
  | collAbortFrame (d : Delivery)
  | memberIdleTimeout (context : Nat)
  | weightFetch (d : Delivery)
  | versionRelease (d : Delivery)
  | stashPut (d : Delivery)
  | stashGet (d : Delivery)
  | stashDrop (d : Delivery)
  | putTimeout (job holder tag : Nat)
  | engJobIn (d : Delivery)
  | mgmt (d : Delivery)
  | stozilOp (d : Delivery)
  | assignmentPoint
  | tickJobComplete (engine : Nat) (result : JobEnd)
  | engineTestStart (tile : Nat)
  | engineTestComplete (engine : Nat) (pass : Bool)
  | ncuKernelStepComplete (channel : Nat) (late : Bool)
  | nextStepOpen (block job : Nat)
  | pieceCommit (block job unit : Nat)
  | pieceRetry
  | holdWaitEnd (block job : Nat)
  | holdTimeout (block job : Nat)
  | updateStart (block job : Nat)
  | estimateDisagreeLimit
  | estimateRetrust
  | droopAssert (domain : Nat)
  | droopClear (domain : Nat)
  | slewComplete (tile : Nat)
  | freqSwitch (tile : Nat)
  | demandRaiseRelease (tile : Nat)
  | thermalSample (sensors : List (Nat × Int))
  | thermalPointStep (tile : Nat)
  | thermalTrip (sensor : Nat)
  | coolantOutOfRange (inlet : Int) (flow : Nat)
  | coolantHoldRelease (inlet : Int) (flow : Nat)
  | vinQualified (inlet : Int) (flow : Nat) (junctions : List (Nat × Int))
  | railStepGood (step : Nat)
  | poweringTimeout
  | sequencingFault (rail : Nat)
  | railFault (rail : Nat)
  | inputExcursion (centivolts : Int)
  | inputUndervoltage (centivolts : Nat)
  | auxLoss
  | resetNLow
  | resetNHigh
  | bootImageChecked (slot : Nat)
  | bootTimeout
  | memoryPhaseDone (failedChannels : List Nat) (sramFailed : Bool) (failedEngines : List Nat)
  | faultRaised (rep : FaultRep)
  | dualRailStuck (master : Nat)
  | safeStateDpReset
  | safeStateModuleReset
  | injectionRound
  | injectionNotSeen (master : Nat)
  | channelMigrationDone (channel : Nat) (unreadable : List Nat)
  | mgtWatchdogExpired
  | headlessTimeout
  | sensorSample (values : List (Nat × Option Nat))
  | aux3v3InRange
  | refclkPresent
  | downOrderStep (step : Nat)
  | hostPortLinkChange (port : Nat) (up : Bool)
  | localAckTimeout (qp : Nat)
  | powerControlInternalPeriod (sample : PowerSample)
  | dynamicAddressAssignment (addr : Nat) (static : Bool)
  | tapInstruction (code : Nat)
  deriving DecidableEq, Repr

end Sys2Proof
end

