-- ==== Sys2Proof/Machine/State.lean ====
section
/-! DEFINITION. The state of the module as plain data: one record for each part of the spec, and the state after
reset. Numbers of units are `Nat`; contents of memory, records and registers' bit patterns are bit vectors. A field
marked MODEL is the model's own bookkeeping and no state of the spec. -/

namespace Sys2Proof.Machine

/-- Why a command stops the machine. -/
inductive Fault where
  /-- Raised by every meaning of a physical event whose unit number (lane, port, tile, channel, rail, sensor, laser
  source module, host port) the module does not have (R6, R8). Safe: no such event exists. -/
  | noSuchUnit
  deriving DecidableEq, Repr

/-- Why a command has no meaning. -/
inductive Refusal where
  /-- A command whose meaning is not written, by its mnemonic. Safe. -/
  | notModelled (mnemonic : String)
  deriving DecidableEq, Repr

/-! ## Stamps, events, captures -/

/-- A timestamp (R38). `draw` names the free value that is its sub-tick (`Config.freeSub`), none in a record that nothing
has written; `flags` are bits 79:76 of Table 2.3: synced, holdover, period. -/
structure Stamp where
  tick : Nat := 0
  draw : Option Nat := none
  flags : Nat := 0
  deriving DecidableEq, Repr

/-- An event record (Table 17.2); `data` is its 32 B data field without trailing zeros. -/
structure Event where
  seq : Nat
  stamp : Stamp := {}
  severity : Nat
  source : Nat
  code : Nat
  status : Nat := 0
  master : Nat := 0
  epoch : Nat := 0
  data : List Byte := []
  deriving DecidableEq, Repr

/-- A first-error capture (Table 16.4). -/
structure Capture where
  address : Nat := 0
  master : Nat := 0
  access : Nat := 0
  cls : Nat
  detail : Nat := 0
  injected : Bool := false
  overflow : Bool := false
  safe : Bool := false
  further : Nat := 0
  stamp : Stamp := {}
  deriving DecidableEq, Repr

/-! ## What leaves the module -/

/-- One thing that the module has sent or written outside. -/
inductive Out where
  /-- A frame on a port's link, its 32 B units striped over the lanes named, in their order (R55), with its trailer (R90). -/
  | frame (port : Nat) (lanes : List Nat) (f : Frame) (e2e hop : Nat)
  /-- A completion (Table 13.4) written to a mailbox's ring, answered on the sideband, or framed (R308, R316). -/
  | completion (path : Path) (number code status detail : Nat) (stamp : Stamp) (result : List Byte)
  /-- An RDMA WRITE of output data through a reference (R309). -/
  | rdmaWrite (path : Path) (ref : Ref) (bytes : List Byte)
  /-- An event record sent on a mailbox's QP (R310). -/
  | eventSend (mailbox : Nat) (e : Event)
  /-- An I3C in-band interrupt with its data byte (R315, R411). -/
  | inBand (byte : Nat)
  /-- A congestion notification packet (R300). -/
  | cnp (qp : Nat)
  /-- A remote access error NAK (R302). -/
  | accessNak (qp : Nat)
  /-- A receiver-not-ready NAK (R306). -/
  | rnrNak (qp : Nat)
  /-- A retransmission on a QP (R299). -/
  | qpRetry (qp : Nat)
  /-- An answer to an ARP or neighbour discovery request on a host port (R298). -/
  | resolved (port : Nat)
  /-- A status byte read on the sideband (R315). -/
  | statusByte (b : Nat)
  /-- A tick-sync ordered set (Table 2.6) on a port's lowest lane in use. -/
  | tsos (port : Nat) (bytes : List Byte)
  /-- A capability set (Table 3.5) sent on one locked lane of a port (R65). -/
  | capability (port lane : Nat) (bytes : List Byte)
  /-- A width request or acknowledgement (R86) on the lowest lane in use of a port (R71). -/
  | widthBlock (port lane : Nat) (bytes : List Byte)
  /-- Width markers on every lane of the new set (R71). -/
  | widthMarker (port : Nat) (lanes : List Nat) (bytes : List Byte)
  /-- A credit block with the cumulative credit of every virtual channel (Table 4.2). -/
  | credit (port : Nat) (bytes : List Byte)
  /-- The in-band request for PRBS31Q on one lane (R75). -/
  | laneTestAsk (lane ticks : Nat)
  /-- An arbiter's answer to a unit (R155, R160): the unit's master ID, the requester, the operation, the sett's address and
  pool, the status. -/
  | sett (unit requester op addr pool status : Nat)
  /-- What an RDMA READ of a device region returned (R302). -/
  | readReturn (qp : Nat) (bytes : List Byte)
  deriving DecidableEq, Repr

/-! ## The tick keeper (chapter 2) -/

/-- One tick-sync exchange's stamps as the last set received on a port left them (R43). -/
structure TsosSeen where
  seq : Nat
  tTx : Nat
  arrival : Nat
  deriving DecidableEq, Repr

/-- The tick keeper (R35–R51). -/
structure TickSt where
  /-- The 64-bit tick counter (R35). -/
  counter : Nat := 0
  /-- State code of Table 2.8. -/
  state : Nat := 0
  depth : Nat := 0
  parent : Option Nat := none
  unsyncReason : Nat := 0
  rootNode : Nat := 0
  rootPriority : Nat := 255
  rootSeq : Nat := 0
  rootSince : Nat := 0
  /-- Word 1 of TICK_COUNT as the last read of word 0 latched it (R37): draw of the sub-tick, flags; none at reset. -/
  latch : Option Stamp := none
  /-- The latest announce committed from the neighbour on each port (R42). -/
  nbrs : NMap Announce := []
  /-- The servo's filter: the last offsets to the parent, newest first, at most five (R45). -/
  offsets : List Int := []
  /-- The first correction under the present parent is done (R45). -/
  stepped : Bool := true
  /-- Consecutive exchanges within the lock criterion since the step (R45). -/
  good : Nat := 0
  /-- Filtered parent offset, in sixteenths of a sub-tick (R49). -/
  offset : Int := 0
  /-- How far the own counter is ahead and still to be made up by lengthened ticks (R50, R335). -/
  lengthen : Nat := 0
  /-- The last offsets measured on each link, newest first, at most five, and the last delay (R44, R45). -/
  measured : NMap (List Int × Int) := []
  /-- The last set received on each port (R43). -/
  seen : NMap TsosSeen := []
  /-- Consecutive missing sets on each port (R48). -/
  miss : NMap Nat := []
  /-- Ports whose set has arrived since the last boundary. -/
  arrived : List Nat := []
  /-- Own set's sequence on each link (R43). -/
  seqTx : NMap Nat := []
  /-- Ticks since root_seq last advanced (R48, R50). -/
  seqAge : Nat := 0
  /-- Ticks since the present state was entered (R48). -/
  inState : Nat := 0
  /-- Ticks since the last periodic announce (R41). -/
  announceAge : Nat := 0
  /-- The announced root, depth or state has changed since the last announce (R41). -/
  announceDue : Bool := false
  /-- The newest root_seq seen of the present root (R48). -/
  seqTop : Nat := 0
  /-- The tick that the last boundary started: a forward step (R45) raises the counter without a boundary. -/
  issued : Nat := 0
  deriving DecidableEq, Repr

/-! ## Lanes, ports and laser source modules (chapter 3) -/

/-- A LANE.TEST in progress (R75): ticks of the pattern left, whether the peer has been asked for it, which waits until the
lane has left its port, whether to retire afterwards, and what the four counters have counted since. -/
structure LaneTest where
  ticks : Nat
  left : Nat
  asked : Bool := false
  retireAfter : Bool
  counts : List Nat := [0, 0, 0, 0]
  out : Ref := {}
  deriving DecidableEq, Repr

/-- One lane (R68–R75). -/
structure LaneSt where
  los : Bool := true
  lol : Bool := true
  inUse : Bool := false
  retired : Bool := false
  test : Option LaneTest := none
  /-- The capability set last received on the lane with a good CRC, and how often in a row (R65). -/
  caps : Option (CapSet × Nat) := none
  /-- Ticks for which a lane outside its port has held lock (R73). -/
  lockTicks : Nat := 0
  /-- Corrected symbols, uncorrectable codewords and LOS or LOL assertions of the window (R70). -/
  winSym : Nat := 0
  winUncorr : Nat := 0
  winFlap : Nat := 0
  deriving DecidableEq, Repr

/-- A width step in progress (R71). -/
structure WidthStep where
  /-- Whether this end started the step. -/
  own : Bool
  usable : Nat
  width : Nat := 0
  acked : Bool := false
  /-- Ticks since the request (before the acknowledgement) or since the acknowledgement. -/
  age : Nat := 0
  /-- Whether this end has sent its markers, and whether the peer's have arrived. -/
  sent : Bool := false
  followed : Bool := false
  deriving DecidableEq, Repr

/-- One fabric port's link (R63–R73, R87). -/
structure PortSt where
  /-- State code of Table 3.4. -/
  state : Nat := 0
  width : Nat := 0
  refusal : Nat := 0
  attempts : Nat := 0
  /-- The peer's capability set, once accepted (R65). -/
  peer : Option CapSet := none
  /-- The width this end has computed and acknowledges (R66). -/
  ownAck : Nat := 0
  step : Option WidthStep := none
  /-- A further width step is wanted when the present one ends (R73). -/
  stepWanted : Bool := false
  /-- Cumulative credit granted by the peer, and used, per virtual channel (R87). -/
  txGranted : List Nat := [0, 0, 0, 0, 0, 0, 0, 0]
  txUsed : List Nat := [0, 0, 0, 0, 0, 0, 0, 0]
  /-- Cumulative credit granted to the peer, and used, per virtual channel (R87). -/
  rxGranted : List Nat := [0, 0, 0, 0, 0, 0, 0, 0]
  rxUsed : List Nat := [0, 0, 0, 0, 0, 0, 0, 0]
  /-- The peer's first credit block since ACTIVE has come, and what it granted on virtual channels 6 and 7 (R145). -/
  firstGrant : Option (Nat × Nat) := none
  /-- A framing error: units are discarded until the next idle unit or control block (R85). -/
  discarding : Bool := false
  deriving DecidableEq, Repr

/-- One laser source module's slot (R76–R80). -/
structure LsmSt where
  /-- The lasers are lit. -/
  lit : Bool := false
  /-- Working lasers and the spare (4) declared failed (R76). -/
  failed : List Nat := []
  /-- The wavelength that the spare serves (R77), and whether it has been switched in. -/
  spare : Option Nat := none
  switched : Bool := false
  latchOpen : Bool := false
  /-- The slot's release indicator (R78). -/
  indicator : Bool := false
  /-- The identity record read from the module (R76, R78); none for the one the slot was fitted with. -/
  ident : Option LsmIdent := none
  /-- A replacement has been refused (R80): 1 identity, 2 grid. -/
  refused : Nat := 0
  /-- A LANE.LSM_RELEASE is draining: ticks waited (R78). -/
  draining : Option Nat := none
  /-- A replacement's lasers are being brought to their set points (R78). -/
  warming : Bool := false
  deriving DecidableEq, Repr

/-- Lanes, ports and laser source modules. -/
structure LinkSt where
  lanes : NMap LaneSt := []
  ports : NMap PortSt := []
  lsms : NMap LsmSt := []
  /-- Ticks of the retirement window gone (R70). -/
  window : Nat := 0
  /-- Some lane has been enabled since the last module or data-plane reset (R60; DESIGN CHOICE, log entry 63). -/
  enabled : Bool := false
  deriving DecidableEq, Repr

/-! ## Phases, resets, carving (chapter 14), pins and rails (chapters 15 and 19) -/

/-- The carving arguments (R331). -/
structure Carving where
  packet : Nat
  reduction : Nat
  staging : Nat
  stozil : Bool
  deriving DecidableEq, Repr

/-- Phase, resets in progress, pins and the sequencer (R327–R342, R345–R351, R407, R434, R435). -/
structure BootSt where
  /-- Phase code of Table 14.1. -/
  phase : Nat := 0
  failReason : Nat := 0
  /-- Running image slot: 0 A, 1 B. -/
  slot : Nat := 0
  refclkMissing : Bool := false
  channelsFailed : Nat := 0
  /-- boot_epoch, in the persistent state (R111, R329). -/
  epoch : Nat := 0
  /-- The phase that a data-plane reset keeps (R339); none outside one. -/
  kept : Option Nat := none
  /-- A RESET.MODULE's completion is written and its shutdown has not begun (R342). -/
  shutdownDue : Bool := false
  /-- The reason for a module reset whose down order runs: 1 command or reaction; 2 RESET_N; 3 thermal trip. -/
  moduleReset : Nat := 0
  carving : Option Carving := none
  /-- Pins: AUX_3V3 in range, RESET_N high, REFCLK present, 44 V qualified (R327, R434). -/
  aux : Bool := false
  resetN : Bool := false
  refclk : Bool := false
  vin : Bool := false
  /-- The 44 V contacts carry a reversed polarity (R428). -/
  reversed : Bool := false
  /-- The coolant and the junctions met R348 when the 44 V input was last qualified. -/
  coolOk : Bool := true
  /-- POWER_GOOD (R337). -/
  powerGood : Bool := false
  /-- Sequencing steps good in the up order, 0 to 11 (R347). -/
  upStep : Nat := 0
  /-- The down order's next step, none when it does not run (R349), and where it leads: phase code. -/
  downStep : Option Nat := none
  downTo : Nat := 0
  /-- Engine rails switched off alone (R351). -/
  railsOff : List Nat := []
  /-- The TAP instruction in force: 0 BYPASS, 1 IDCODE, 2 SAMPLE/PRELOAD, 3 EXTEST (R407). -/
  tap : Nat := 1
  /-- Host ports are powered (R330). -/
  hostPowered : Bool := false
  deriving DecidableEq, Repr

/-! ## Faults (chapter 16) -/

/-- One memory channel (R383–R385). -/
structure ChannelSt where
  retired : Bool := false
  migrating : Bool := false
  testDone : Bool := false
  testFail : Bool := false
  restorePending : Bool := false
  unmoved : Nat := 0
  marching : Bool := false
  /-- Corrected and uncorrectable errors in the window of 65,536 ticks. -/
  winCe : Nat := 0
  winUe : Nat := 0
  deriving DecidableEq, Repr

/-- A host injection under way (R381). -/
structure Injection where
  cls : Nat
  master : Nat
  live : Bool
  age : Nat := 0
  deriving DecidableEq, Repr

/-- Fault collection (R370–R388). -/
structure FltSt where
  /-- FLT_STATUS class bits. -/
  status : Nat := 0
  /-- Class bits of collectors CT0–CT7 (0–7) and BT0–BT7 (8–15). -/
  tile : NMap Nat := []
  /-- The top capture and the tile collectors' (R376). -/
  top : Option Capture := none
  captures : NMap Capture := []
  /-- The class that called for the safe state in force (R374). -/
  safe : Option Nat := none
  /-- The level of the safe state's class, for the resets of levels 4 and 5. -/
  safeLevel : Nat := 0
  headless : Bool := false
  /-- A thermal trip holds the FAULT pair until AUX loss or RESET (R377). -/
  tripped : Bool := false
  /-- The tick of the last logged event of class × 32 + collector (Table 16.2). -/
  logged : NMap Nat := []
  injection : Option Injection := none
  /-- Class, unit, outcome and mode of the last host injection (R381). -/
  resClass : Nat := 0
  resMaster : Nat := 0
  resOutcome : Nat := 0
  resLive : Bool := false
  /-- The next unit of each class in rotation (R381). -/
  rotation : NMap Nat := []
  /-- Ticks of the self-injection round gone (R380). -/
  round : Nat := 0
  channels : NMap ChannelSt := []
  /-- The remap table: substitute channel of each 512 KiB region (R383). -/
  remap : NMap Nat := []
  /-- Tick at which the window of 65,536 ticks began (R383). -/
  window : Nat := 0
  /-- Faults reported to the collectors and not yet reacted to, oldest first: the reactions run at the end of the
  command that raised them. MODEL. -/
  todo : List (FaultRep × Bool) := []
  deriving DecidableEq, Repr

/-! ## Management (chapter 17) -/

/-- What the device knows of an image (R398). -/
structure ImgHdr where
  keyIndex : Nat := 0
  revoke : Nat := 0
  version : Nat := 0
  major : Nat := 0
  minor : Nat := 0
  build : Nat := 0
  digest : List Byte := []
  deriving DecidableEq, Repr

/-- One image slot (R402–R406): its mark (0 none, 1 superseded, 2 rollback, 3 invalid), pending, and the bytes
written since manufacture (none: the image it left the factory with). -/
structure SlotSt where
  mark : Nat := 0
  pending : Bool := false
  bytes : Option (List Byte) := none
  deriving DecidableEq, Repr

/-- A write session (R404). -/
structure Session where
  slot : Nat
  path : Path
  ptr : Nat
  deriving DecidableEq, Repr

/-- One sensor (R391). -/
structure SensorSt where
  value : Nat := 0
  peak : Nat := 0
  deriving DecidableEq, Repr

/-- The management subsystem and the persistent state (R389–R412). -/
structure MgtSt where
  /-- On-chip log, oldest first (R395). -/
  log : List Event := []
  /-- Persistent event ring, oldest first (R396, R397). -/
  plog : List Event := []
  /-- seq of the next event, in the persistent state. -/
  seq : Nat := 1
  /-- Records that the persistent rate still admits, and its clock in 1.28 µs (R396). -/
  tokens : Nat := 256
  tokenClock : Nat := 0
  slotA : SlotSt := {}
  slotB : SlotSt := {}
  session : Option Session := none
  /-- The running slot is on trial (R403), or the slot on trial in the persistent state. -/
  trial : Option Nat := none
  /-- Rollback floor and revoked key slots in the fuses. -/
  floor : Nat := 0
  revoked : Nat := 0
  /-- The running image (R412). -/
  running : ImgHdr := {}
  sensors : NMap SensorSt := []
  /-- Persistent state: retired lanes, engines (tile × 256 + index), channels, restorations marked. -/
  lanes : List Nat := []
  engines : List Nat := []
  /-- Of those, the ones retired for a fault. -/
  engineFaults : List Nat := []
  channels : List Nat := []
  restores : List Nat := []
  /-- AUX flags: rails up, so that AUX loss is found as an uncontrolled power-down at boot (R346); a thermal trip
  (R364): sensor and value. -/
  auxRails : Bool := false
  auxTrip : Option (Nat × Nat) := none
  deriving DecidableEq, Repr

/-! ## Hosts, mailboxes and jobs (chapter 13) -/

/-- A host port's configuration (R298). -/
structure HostPortSt where
  up : Bool := false
  flags : Nat := 0
  pfcPriority : Nat := 0
  vlan : Nat := 0
  ipv4 : Nat := 0
  ipv6 : Nat := 0
  deriving DecidableEq, Repr

/-- A queue pair (R299–R301). -/
structure QpSt where
  port : Nat
  dscp : Nat := 0
  mtu : Nat := 0
  hostQpn : Nat := 0
  hostPsn : Nat := 0
  dstMac : Nat := 0
  hostGid : Nat := 0
  /-- Draw of the device's start PSN. -/
  psnDraw : Nat := 0
  /-- Rate in Mb/s (R300). -/
  rate : Nat := 200000
  retries : Nat := 0
  error : Bool := false
  /-- Tick of the last congestion notification sent (R300). -/
  cnpAt : Option Nat := none
  deriving DecidableEq, Repr

/-- What a started command waits for. -/
inductive WaitKey where
  /-- Its effective tick (R53, R313). -/
  | tick (t : Nat)
  /-- The next tick boundary, or the one after it when the strobe came too early (R39). -/
  | boundary (late : Bool)
  /-- The data-plane reset's return (R339). -/
  | dpReset
  /-- A tile's reset (R340). -/
  | tile (k : Nat)
  /-- A lane's test (R75). -/
  | lane (n : Nat)
  /-- A laser source module's release (R78). -/
  | lsm (j : Nat)
  /-- An injection's outcome (R381). -/
  | inject
  /-- The end of a job (R322). -/
  | job (j : Nat)
  /-- A function's drain (R323): function, scope. -/
  | func (f j : Nat)
  /-- A stash reservation's drain (R292). -/
  | stash (j : Nat)
  /-- A multicast group's set-up: (home, group) entries to be acknowledged (R123). -/
  | group (home id : Nat)
  /-- A test of the engine of this index (R212). -/
  | engine (k : Nat)
  /-- A block's production (R267) or state change. -/
  | block (job b : Nat)
  /-- The end of a program's run (R207), by context. -/
  | run (ctx : Nat)
  /-- An earlier command that names the same object (R313); whether its effective tick has come. -/
  | object (fired : Bool)
  /-- What it waited for is gone in a reset: it completes with a status (R339, R342). MODEL. -/
  | lost (status : Nat)
  deriving DecidableEq, Repr

/-- What has become of a command context (R311). -/
inductive CtxState where
  /-- Waiting to be started. -/
  | waiting
  /-- Started and held, or executing. -/
  | started (k : WaitKey)
  deriving DecidableEq, Repr

/-- A command context: a fetched command without a completion (R305, R311). -/
structure Ctx where
  id : Nat
  cmd : Instr
  hdr : CmdHdr
  code : Nat
  /-- Its slot's count differed (R307), its code is unknown, or its reserved bits are not zero: a status. -/
  bad : Nat := 0
  /-- Ticks waited for dispatch, and whether it is treated as priority 3 (R311). -/
  waited : Nat := 0
  aged : Bool := false
  state : CtxState := .waiting
  /-- What it will return, and the context index it has opened, while it waits. MODEL. -/
  result : List Byte := []
  made : Option Nat := none
  deriving DecidableEq, Repr

/-- A completion held while its mailbox is unbound (R310). -/
structure HeldDone where
  number : Nat
  code : Nat
  status : Nat
  detail : Nat
  stamp : Stamp
  result : List Byte
  deriving DecidableEq, Repr

/-- One mailbox (R302–R310). -/
structure MboxSt where
  /-- The bound device QP. -/
  qp : Option Nat := none
  dataQp : Nat := 0
  priority : Nat := 0
  events : Bool := false
  /-- The completion ring in host memory. -/
  ring : Ref := {}
  /-- Draws of the two keys. -/
  ringKey : Nat := 0
  doorKey : Nat := 0
  /-- Last accepted command number P (R305). -/
  p : Nat := 0
  /-- P has been set by a first bind (R310). -/
  everBound : Bool := false
  /-- The command ring's slots. -/
  slots : NMap (List Byte) := []
  /-- Completions held while unbound. -/
  held : List HeldDone := []
  deriving DecidableEq, Repr

/-- The I3C target (R315). -/
structure SidebandSt where
  busy : Bool := false
  ready : Bool := false
  refused : Bool := false
  count : Nat := 0
  /-- Dynamic address, once assigned. -/
  address : Option Nat := none
  deriving DecidableEq, Repr

/-- An admitted job (Table 13.9). -/
structure JobSt where
  stozil : Bool := false
  mgmtFabric : Bool := false
  viaScope : Bool := false
  services : Nat := 0
  /-- The translation table: (node, endpoint) of each rank. -/
  table : List (Nat × Nat) := []
  ctxBase : Nat := 0
  ctxCount : Nat := 0
  rto : Nat := 64
  memberTimeout : Nat := 4096
  sliceLo : List Nat := [0, 0, 0]
  sliceExt : List Nat := [1, 1, 1]
  wrapGrant : Nat := 0
  dateline : List Nat := [0, 0, 0]
  /-- The record as admitted. -/
  record : List Byte := []
  deriving DecidableEq, Repr

/-- A disable of a function in a scope (R323); `job` 65535 is the device. -/
structure DisableSt where
  func : Nat
  job : Nat
  /-- In effect (from the boundary after it started). -/
  inEffect : Bool := false
  done : Bool := false
  drainTicks : Nat := 4096
  /-- Ticks since it took effect. -/
  age : Nat := 0
  timedOut : Bool := false
  finished : Nat := 0
  drained : Nat := 0
  deriving DecidableEq, Repr

/-- Host ports, queue pairs, mailboxes, contexts, jobs, disables. -/
structure HostSt where
  ports : NMap HostPortSt := []
  qps : NMap QpSt := []
  mboxes : NMap MboxSt := []
  side : SidebandSt := {}
  ctxs : List Ctx := []
  /-- Identity of the next context, in dispatch order. MODEL. -/
  nextId : Nat := 0
  /-- The mailbox after which the rotation among equal priorities starts (R311). -/
  rotate : Nat := 0
  jobs : NMap JobSt := []
  /-- Jobs whose JOB.END has taken effect and whose resources are not all free. -/
  ending : List Nat := []
  /-- Tick at which the last JOB.END of a job completed (R97, R322). -/
  ended : NMap Nat := []
  disables : List DisableSt := []
  deriving DecidableEq, Repr

/-! ## Topology, routing, groups and hedges (chapter 5) -/

/-- A node entry of the plan (Table 5.3). -/
structure NodeEntry where
  node : Nat
  coord : List Nat
  priority : Nat
  deriving DecidableEq, Repr

/-- A port entry of the plan (Table 5.4). -/
structure PortEntry where
  role : Nat := 0
  trunk : Nat := 0xFFFF
  c7 : Nat := 0
  peer : Nat := 0xFFFF
  peerPort : Nat := 0xFFFF
  deriving DecidableEq, Repr

/-- A loaded topology plan (R108). -/
structure Plan where
  planId : Nat
  shape : Nat
  dims : Nat
  wrap : Nat
  maxHops : Nat
  extent : List Nat
  this : Nat
  portMode : Nat
  seed : Nat
  pendingLimit : Nat
  nodes : List NodeEntry
  ports : List PortEntry
  /-- The record's bytes (Table 17.6). -/
  record : List Byte
  deriving DecidableEq, Repr

/-- One port's routing state (Table 5.5). -/
structure RouteSt where
  /-- State code. -/
  state : Nat := 0
  reason : Nat := 0
  /-- Peer node or endpoint, and port, from discovery. -/
  peer : Nat := 0
  peerPort : Nat := 0
  /-- The last HELLO or HELLO_REPLY committed since ACTIVE. -/
  hello : Option Disc := none
  /-- The far end's state of this port as its last DISCOVERY frame reported it (R110). -/
  peerState : Nat := 0
  replied : Bool := false
  /-- Ticks since ACTIVE (R109). -/
  helloAge : Nat := 0
  /-- Consecutive digest mismatches (R118). -/
  mismatch : Nat := 0
  deriving DecidableEq, Repr

/-- One LINK_STATE notice (R114, R115), the port it came on, the ticks in which it is still to be sent, and the tick in which
it was sent last. -/
structure Notice where
  origin : Nat
  trunk : Nat
  event : Nat
  seq : Nat
  arrived : Option Nat := none
  repeats : Nat := 0
  sentAt : Nat := 0
  deriving DecidableEq, Repr

/-- What a module holds of one node in its link-state table (R113). -/
structure NodeLs where
  /-- Trunks reported missing by the node itself, as a 512-bit number. -/
  missing : Nat := 0
  lost : Bool := false
  /-- Latest ls_seq committed from the node (R115). -/
  seq : Option Nat := none
  /-- A notice of event 2 has named the node since it was last reported missing or lost (R123, R127). -/
  back : Bool := false
  deriving DecidableEq, Repr

/-- A multicast group entry on this module (R123). -/
structure GroupSt where
  home : Nat
  group : Nat
  job : Nat := 0
  /-- Downstream modules. -/
  down : List Nat := []
  /-- Local member endpoints. -/
  locals : List Nat := []
  /-- On the home node: every member as (node, endpoint). -/
  members : List (Nat × Nat) := []
  /-- On the home node: member modules whose GROUP_SETUP is not yet acknowledged. -/
  unacked : List Nat := []
  /-- On the home node: users of the group (contexts or blocks). -/
  users : Nat := 0
  deriving DecidableEq, Repr

/-- A hedge (R126): scope 0 port, 1 destination, 2 job; `since` is the tick of its boundary. -/
structure Hedge where
  scope : Nat
  port : Nat := 0
  job : Nat := 0
  node : Nat := 0
  ep : Nat := 0
  since : Nat := 0
  deriving DecidableEq, Repr

/-- Topology and routing. -/
structure TopoSt where
  plan : Option Plan := none
  seed : Nat := 0
  ports : NMap RouteSt := []
  /-- Ticks since the plan was loaded or the tick joined, for pending_limit; none once it has passed. -/
  pendingAge : Option Nat := none
  /-- The bring-up summary has been logged (R334). -/
  summary : Bool := false
  /-- boot_epoch recorded of each peer node (R111). -/
  epochs : NMap Nat := []
  /-- Last announced tick state of each peer node (R127) and whether a matching HELLO came from it. -/
  nodes : NMap NodeLs := []
  /-- Notices held, and being sent. -/
  notices : List Notice := []
  /-- Own ls_seq (R115). -/
  lsSeq : Nat := 0
  /-- Own trunks that are missing as last judged, and those of them not yet reported since the plan was loaded, as bitmaps
  (R112, R114). -/
  ownMissing : Nat := 0
  unreported : Nat := 0
  groups : List GroupSt := []
  hedges : List Hedge := []
  /-- Ticks since the last digests (R109). -/
  digestAge : Nat := 0
  /-- Notices to be sent again on a port whose digests differ (R118), four a tick. -/
  resend : NMap (List Notice) := []
  /-- Nodes newly marked lost, of which the open operations are still to be told (R117). MODEL. -/
  lostDue : List Nat := []
  deriving DecidableEq, Repr

/-! ## Flows (chapter 4) -/

/-- The tuple of a flow (R97); for a multicast opcode the destination is (home, group) and `mc` is set. -/
structure FlowKey where
  srcNode : Nat
  srcEp : Nat
  dstNode : Nat
  dstEp : Nat
  job : Nat
  sys : Bool
  mc : Bool := false
  deriving DecidableEq, Repr

/-- The operation that owns a sent frame, told when the frame is settled or its destination is lost (R100). -/
inductive Owner where
  | none
  /-- A chunk's result frames of a collective instance; for its COLL_COMPLETE frames the chunk is 2^24. -/
  | coll (ctx gen chunk : Nat)
  /-- A partial sum of a non-root bench. -/
  | merge (ctx gen chunk : Nat)
  /-- A multicast group's set-up towards a module. -/
  | group (home id node : Nat)
  /-- A push of a version of a block, by the block's context. -/
  | push (ctx version : Nat)
  /-- A frame of a stash get: STASH_DATA or the STASH_REPLY, and the tile it leaves from (R287). -/
  | stash (getId tile : Nat) (reply : Bool)
  /-- A program run's output. -/
  | run (op : Nat)
  /-- A frame of a Stozil operation to a member: a chunk's result; its completion. -/
  | stozil (op chunk rank : Nat)
  | stozilEnd (op rank : Nat)
  deriving DecidableEq, Repr

/-- What a sender learns of a frame it sent (R99–R101). -/
inductive Note where
  /-- Committed by its receiver, or by every member that counts. -/
  | acked
  /-- Absorbed into a bench on the way. -/
  | absorbed
  /-- Refused, with a status. -/
  | refused (status : Nat)
  /-- Its destination is declared lost; for a multicast frame the members that did not answer. -/
  | lost (members : List (Nat × Nat))
  /-- A member of a multicast frame has refused it, or no longer counts; whether that settles the frame. -/
  | memberRefused (node ep status : Nat) (settled : Bool)
  deriving DecidableEq, Repr

/-- A frame sent and not settled (R99–R101). -/
structure Unsettled where
  seq : Nat
  frame : Frame
  owner : Owner
  sends : Nat := 1
  /-- Ticks since its last transmission. -/
  age : Nat := 0
  /-- For a multicast frame: members that have not acknowledged, (node, endpoint). -/
  waiting : List (Nat × Nat) := []
  deriving DecidableEq, Repr

/-- The sending side of a flow of an internal endpoint. -/
structure TxFlow where
  key : FlowKey
  next : Nat := 0
  open_ : List Unsettled := []
  /-- Frames that wait for room in the window of 1,024 (R99). -/
  queue : List (Frame × Owner) := []
  deriving DecidableEq, Repr

/-- The receiving side of a flow (R99): everything up to and including `through - 1` is settled; `window` lists the
seqs committed above. -/
structure RxFlow where
  key : FlowKey
  /-- The seq after the cumulative point. -/
  next : Nat := 0
  window : List Nat := []
  /-- Seqs refused and not yet passed, with the status. -/
  refused : List (Nat × Nat) := []
  deriving DecidableEq, Repr

/-- Flow state of the internal endpoints. -/
structure FlowSt where
  tx : List TxFlow := []
  rx : List RxFlow := []
  /-- The tick of the last rate-limited refusal of each flow (R96, R99). -/
  refusedAt : List (FlowKey × Nat) := []
  /-- Fences waiting for an answer: flow, position, reply class (R103). -/
  fences : List (FlowKey × Nat × Nat) := []
  /-- What the operations are still to be told of their frames, oldest first. MODEL. -/
  notes : List (Owner × Note) := []
  deriving DecidableEq, Repr

/-! ## The switch core (chapter 6) -/

/-- The verdict on a frame in reception: what is to happen at its end (R131). -/
inductive Verdict where
  /-- Admitted: VOQ copies (port, phase, via, destination node of a detoured copy) or internal delivery. -/
  | taken
  /-- Dropped; the counter is a register and its index; a refusal status, or none, follows. -/
  | drop (refusal : Option Nat)
  deriving DecidableEq, Repr

/-- One copy of a frame to be queued: output port, or none for the internal endpoints of this module. -/
structure Copy where
  port : Option Nat
  vc : Nat := 0
  phase : Nat := 1
  via : Nat := 0xFFFF
  /-- A detoured copy's destination (R123). -/
  dst : Option Nat := none
  deriving DecidableEq, Repr

/-- A frame being received on a port (R130). -/
structure RxFrame where
  hdr : Hdr
  extn : Option Ext
  verdict : Verdict
  copies : List Copy := []
  /-- Its cells' addresses, and whether they come from the shared part (R134). -/
  cells : List Nat := []
  shared : Bool := false
  colour : Nat := 0
  cong : Bool := false
  /-- Credit covered the frame. -/
  covered : Bool := true
  /-- The counters that its end commits: register code, index, amount (R131). -/
  counts : List (Nat × Nat × Nat) := []
  deriving DecidableEq, Repr

/-- A frame stored in a tile's packet buffer (R132, R147): the addresses of its cells, and the copies left. -/
structure Stored where
  id : Nat
  tile : Nat
  cls : Nat
  cells : List Nat
  shared : Bool := false
  refs : Nat
  frame : Frame
  /-- Port it came in on, none for a frame of this module. -/
  port : Option Nat := none
  /-- This module has set cong (R138). -/
  marked : Bool := false
  deriving DecidableEq, Repr

/-- An entry of a queue (R132). -/
structure Entry where
  stored : Nat
  copy : Copy
  deriving DecidableEq, Repr

/-- A grant of the plan: output port, class, tile, cells left (R139). -/
structure Grant where
  port : Nat
  cls : Nat
  tile : Nat
  cells : Nat
  deriving DecidableEq, Repr

/-- The switch core. -/
structure SwSt where
  /-- The frame in reception on each port. -/
  rx : NMap RxFrame := []
  stored : NMap Stored := []
  /-- Identity of the next stored frame. MODEL. -/
  nextId : Nat := 0
  /-- VOQs: key (tile × 512 + port) × 8 + class, oldest first. -/
  voqs : NMap (List Entry) := []
  /-- Internal queues: key (source tile × 8 + destination tile) × 8 + class; and the source tile from which the rotation
  towards each destination tile starts (R141). -/
  internal : NMap (List Entry) := []
  innerPtr : NMap Nat := []
  /-- Occupancy in cells of (tile × 8 + class), and cells of each tile's shared part in use (R134). -/
  occ : NMap Nat := []
  shared : NMap Nat := []
  /-- Meter buckets of (port × 8 + class): committed, peak (R137). -/
  meters : NMap (Nat × Nat) := []
  /-- The plan in force and the plan being made for the next tick (R139). -/
  plan : List Grant := []
  nextPlan : List Grant := []
  /-- The last captures of each tile: (port, class, tile, cells) (R139, R141). -/
  captured : List (Nat × Nat × Nat × Nat) := []
  /-- Grant pointers of (port × 8 + class) and accept pointers of tiles (R139). -/
  grantPtr : NMap Nat := []
  acceptPtr : NMap Nat := []
  /-- Class-7 budget left of each port (R143), and where its opportunistic rotation goes on (R140): (6 − class) × 8 + tile. -/
  budget : NMap Nat := []
  fill : NMap Nat := []
  /-- Ports on which SCHED_C7_EXCESS or SCHED_C7_OVERSIZE rose in the running tick and the last one, and ports whose
  class-7 arrivals passed the reservation: bit 0 this tick, bit 1 the tick before (R146). -/
  broken : NMap Nat := []
  /-- Class-7 cells that became eligible for each port in this tick (R144). -/
  c7In : NMap Nat := []
  /-- Reservations r (SCHED_C7_RESERVE). -/
  reserve : NMap Nat := []
  deriving DecidableEq, Repr

/-! ## Buffer pools (chapter 7) -/

/-- An allocated sett of P1–P4 (R162). -/
structure Sett where
  pool : Nat
  owner : Nat
  /-- Count of a refcount pool; 1 in the other mode. -/
  count : Nat := 1
  deriving DecidableEq, Repr

/-- The pool manager (R152–R169). -/
structure PoolSt where
  /-- MiB of each tile's staging in P1, P2, P3 (R154). -/
  p1 : Nat := 0
  p2 : Nat := 0
  p3 : Nat := 0
  p4count : Nat := 0
  p4base : Nat := 0
  /-- Bit k − 1 set: Pk in refcount mode (R162). -/
  modes : Nat := 0
  /-- Allocated setts by device address. -/
  setts : NMap Sett := []
  /-- Quotas set, key requester × 8 + pool: minimum, maximum (R158). -/
  quotas : NMap (Nat × Nat) := []
  binds : NMap Nat := []
  /-- Rotating pointer of each arbiter (R159). -/
  pointer : NMap Nat := []
  /-- Fewest free setts since the last read (R168). -/
  low : NMap Nat := []
  deriving DecidableEq, Repr

/-! ## Arithmetic exceptions (chapter 8), engines and NCUs (chapter 9) -/

/-- The exception record of an operation (Table 8.9). -/
structure ExcRec where
  /-- Kind of the first exception, 1–4; 0 none. -/
  kind : Nat := 0
  seen : Nat := 0
  master : Nat := 0
  row : Nat := 0
  col : Nat := 0
  kblock : Nat := 0
  stamp : Stamp := {}
  count : Nat := 0
  /-- Kinds raised at a severity of 1 or more: they decide the completion status (R193, R196). -/
  graded : Nat := 0
  deriving DecidableEq, Repr

/-- The stochastic-rounding generator of a unit and the exceptions raised, carried through a computation. -/
structure ArithCtx where
  seed : BitVec 64 := 0
  draws : Nat := 0
  /-- Exceptions raised: (kinds as a bitmap, element row, column, group). -/
  raised : List (Nat × Nat × Nat × Nat) := []
  flushed : Nat := 0
  deriving DecidableEq, Repr

/-- A buffer entry of a tick program (Table 9.2). -/
structure BufEntry where
  address : Nat := 0
  size : Nat := 0
  pitch : Nat := 0
  kind : Nat := 0
  format : Nat := 0
  scaleOf : Nat := 0xFF
  /-- The reserved bytes. -/
  reserved : Nat := 0
  deriving DecidableEq, Repr

/-- A step entry. -/
structure StepEntry where
  firstJob : Nat
  jobCount : Nat
  flags : Nat
  ioBuffer : Nat
  /-- The reserved bytes. -/
  reserved : Nat := 0
  deriving DecidableEq, Repr

/-- A tick job descriptor (Table 9.3). -/
structure JobDesc where
  kind : Nat
  fmtA : Nat
  fmtB : Nat
  fmtOut : Nat
  rmode : Nat
  flags : Nat
  mTiles : Nat
  nTiles : Nat
  kGroups : Nat
  alpha : F32
  beta : F32
  aRef : Nat
  aScale : Nat
  bRef : Nat
  bScale : Nat
  cIn : Nat
  cOut : Nat
  row0 : Nat
  col0 : Nat
  kblock0 : Nat
  cycles : Nat
  step : Nat
  seq : Nat
  tile : Nat
  /-- The reserved bits and bytes. -/
  reserved : Nat := 0
  deriving DecidableEq, Repr

/-- A run of a program (R206, R207). -/
structure RunSt where
  /-- The step issued, and the tick of its issue. -/
  step : Nat := 0
  issuedAt : Nat := 0
  /-- Jobs of the step not yet issued into a full queue, and jobs not complete. -/
  unissued : List Nat := []
  remaining : Nat := 0
  /-- The step waits for its input (R206). -/
  waiting : Bool := false
  /-- Output frames unacknowledged, and whether the output of the step at hand has been sent (R206). -/
  sending : Nat := 0
  sent : Bool := false
  /-- The bench set: (tile, slot). -/
  benches : List (Nat × Nat) := []
  exc : ExcRec := {}
  /-- Jobs returned once after a failed check (R213). -/
  returned : List Nat := []
  /-- No further step is issued: the ending status. -/
  stopping : Option Nat := none
  /-- The block stage that started the run, if one did (R264): job, block. -/
  block : Option (Nat × Nat) := none
  deriving DecidableEq, Repr

/-- A loaded tick program (R202–R205). -/
structure ProgSt where
  job : Nat
  programId : Nat
  homeTile : Nat
  flags : Nat
  engclk : Nat
  benchCount : Nat
  fallback : Nat
  outNode : Nat
  outEp : Nat
  buffers : List BufEntry
  steps : List StepEntry
  jobs : List JobDesc
  /-- Setts of each kind-2 and kind-4 buffer, in order. -/
  setts : NMap (List Nat) := []
  /-- Bytes of committed input in each buffer. -/
  input : NMap Nat := []
  run : Option RunSt := none
  /-- Status and record of the last run that ended. -/
  lastStatus : Option Nat := none
  lastExc : ExcRec := {}
  deriving DecidableEq, Repr

/-- A job in a tile's queue or on an engine: program context, descriptor index, and the tick of its issue. -/
structure QJob where
  ctx : Nat
  idx : Nat
  at_ : Nat := 0
  deriving DecidableEq, Repr

/-- What a half of an engine's scratch holds for a job (R200): the rows of A, its scales, B, its scales, C_in and its scales,
as bytes. -/
structure Scratch where
  a : List (List Byte) := []
  aScale : List (List Byte) := []
  b : List (List Byte) := []
  bScale : List (List Byte) := []
  c : List (List Byte) := []
  cScale : List (List Byte) := []
  deriving DecidableEq, Repr

/-- One engine (Table 9.5). -/
structure EngSt where
  state : Nat := 0
  fault : Bool := false
  /-- RETIRING towards a test. -/
  forTest : Bool := false
  assigned : Option QJob := none
  running : Option QJob := none
  /-- The running job's outputs are suppressed (R207, R340). -/
  suppressed : Bool := false
  /-- The running job has overrun (R210). -/
  late : Bool := false
  /-- The scratch halves: which one is active, what it holds for the running job, and what the next one holds for the assigned
  job (R200). -/
  half : Bool := false
  active : Scratch := {}
  next : Scratch := {}
  /-- Ticks of the last overruns (R210). -/
  overruns : List Nat := []
  bubbled : Bool := false
  deriving DecidableEq, Repr

/-- A kernel loaded into every NCU, and its stream table (R214, R215). -/
structure KernelSt where
  image : List Byte
  table : List Byte
  deriving DecidableEq, Repr

/-- Engines, tile queues, programs, NCUs. -/
structure EngsSt where
  /-- Engines by tile × 136 + index. -/
  engines : NMap EngSt := []
  /-- Tile queues (R208). -/
  queues : NMap (List QJob) := []
  grantPtr : NMap Nat := []
  /-- Next engine in test turn of each tile, and engines that ENG.TEST has named, in order (R212). -/
  testTurn : NMap Nat := []
  testAsked : List Nat := []
  /-- Programs by context index, and generation of each context (op_id). -/
  progs : NMap ProgSt := []
  kernels : NMap KernelSt := []
  /-- Tiles held in a tile reset (R340). -/
  inReset : List Nat := []
  /-- The SR generators (R181): the seed that ENG_SR_SEED has loaded, draws made by each unit since, reseedings. -/
  seed : Option (BitVec 64) := none
  draws : NMap Nat := []
  reseeds : Nat := 0
  /-- The tick in which each NCU's next step issues (R216), and its vector registers, key channel × 32 + register: 32 F32 lanes
  each (R214). -/
  ncuNext : NMap Nat := []
  vregs : NMap (List F32) := []
  /-- Benches taken (R25): key tile × 128 + slot; the user's kind, 0 root bench, 1 merge bench, 2 run. -/
  benches : NMap Nat := []
  /-- Runs that have ended, of which their commands and blocks are still to be told: context, status. MODEL. -/
  ended : List (Nat × Nat) := []
  deriving DecidableEq, Repr

/-! ## Collectives (chapter 10) -/

/-- An open operation's descriptor (Tables 10.3 and 10.4). -/
structure CollDesc where
  kind : Nat := 0
  fmt : Nat := 0
  pfmt : Nat := 4
  rfmt : Nat := 0
  ring : Bool := false
  replay : Bool := false
  pathMerge : Bool := false
  rmode : Nat := 0
  cls : Nat := 0
  elements : Nat := 0
  chunkLog2 : Nat := 16
  window : Nat := 1
  mergeWindow : Nat := 0
  replayLimit : Nat := 0
  root : Nat := 0
  special : Nat := 0xFFFF
  group : Nat := 0
  timeout : Nat := 0
  /-- Ranks in member index order. -/
  ranks : List Nat := []
  /-- Tensors: elements, block. -/
  tensors : List (Nat × Nat) := []
  deriving DecidableEq, Repr

/-- One slice of a chunk being summed (R230, R231, R235). -/
structure SliceSt where
  bitmap : Nat := 0
  sum : F32 := 0
  mag : F32 := 0
  flushed : Nat := 0
  passed : Bool := false
  deriving DecidableEq, Repr

/-- What a module claims for a chunk (R229): chunk context, benches, the sett of the bitmaps and its requester. For
types 5 and 6 the sett holds the chunk's segments (R233). -/
structure ChunkSt where
  chunk : Nat
  ctx : Nat
  benches : List (Nat × Nat) := []
  sett : Nat := 0
  req : Nat := 0
  slices : List SliceSt := []
  deriving DecidableEq, Repr

/-- A slot at the root (R233). -/
structure SlotRec where
  c : ChunkSt
  /-- Types 5 and 6: segments held, with their extensions. -/
  held : NMap Ext := []
  finished : Bool := false
  /-- Result segments not settled, or pieces not committed. -/
  unacked : Nat := 0
  deriving DecidableEq, Repr

/-- A running instance at the root (R222, R239). -/
structure InstSt where
  gen : Nat
  slots : List SlotRec := []
  /-- Idle counter of each member. -/
  idle : List Nat := []
  hedged : List Nat := []
  /-- Type 7: members whose sent-all marker is committed. -/
  sentAll : List Nat := []
  flushed : Nat := 0
  exc : ExcRec := {}
  /-- Type 4: blocks to whose open step the instance is attributed: context of the block, step (R254). -/
  blocks : List (Nat × Nat) := []
  deriving DecidableEq, Repr

/-- An ended instance whose COLL_COMPLETE frames are not all settled: it keeps its slots (R244). -/
structure ClosingSt where
  gen : Nat
  slots : List SlotRec
  unacked : Nat
  /-- Members marked HEDGED (R243). -/
  hedged : List Nat := []
  deriving DecidableEq, Repr

/-- A non-root bench (R229–R232). -/
structure MergeSt where
  gen : Nat
  c : ChunkSt
  /-- Tick at which it opened. -/
  opened : Nat
  sealed_ : Bool := false
  unacked : Nat := 0
  deriving DecidableEq, Repr

/-- An open collective context (R221, R222, Table 10.11). -/
structure CollSt where
  job : Nat
  desc : CollDesc
  /-- next_gen of the root. -/
  next : Nat
  /-- The last ended instance: generation, final status. -/
  last : Option (Nat × Nat) := none
  inst : Option InstSt := none
  closing : List ClosingSt := []
  replays : Nat := 0
  timedOut : Nat := 0xFFFF
  lostNode : Nat := 0xFFFF
  chunks : Nat := 0
  hedgedMembers : Nat := 0
  stamp : Stamp := {}
  exc : ExcRec := {}
  merges : List MergeSt := []
  /-- The highest generation seen by a non-root module. -/
  high : Option Nat := none
  /-- Type 4: chunks committed to every block they touch, kept over replays (R257). -/
  committed : List Nat := []
  /-- Type 4: blocks and steps to which a replayed instance's successor is attributed (R254). -/
  attributed : List (Nat × Nat) := []
  /-- The image as loaded. -/
  image : List Byte := []
  deriving DecidableEq, Repr

/-- A barrier context at its root (R104). -/
structure BarrierSt where
  job : Nat
  group : Nat
  ranks : List Nat
  gen : Nat := 0
  arrived : Nat := 0
  /-- Tick of the first arrival of the generation. -/
  since : Nat := 0
  /-- Status and stamp of the last release. -/
  last : Option (Nat × Stamp) := none
  deriving DecidableEq, Repr

/-- Collective and barrier contexts, by context index. -/
structure CollsSt where
  ops : NMap CollSt := []
  barriers : NMap BarrierSt := []
  /-- Finished chunks of type 4 operations still to be handed to their blocks: context, generation, chunk. MODEL. -/
  finished : List (Nat × Nat × Nat) := []
  /-- Instances of type 4 that have ended and whose blocks are still to be told: blocks and steps, status. MODEL. -/
  ended : List (List (Nat × Nat) × Nat) := []
  deriving DecidableEq, Repr

/-! ## Parameter blocks (chapter 11) -/

/-- A stage of an optimizer record (Table 11.5). -/
structure OptStage where
  kind : Nat
  commit : Bool
  kernel : Nat
  slot : Nat
  units : Nat
  streams : List Nat
  deriving DecidableEq, Repr

/-- An optimizer record (R262). -/
structure OptSt where
  params : List F32
  stages : List OptStage
  deriving DecidableEq, Repr

/-- A parameter block (R249–R270). -/
structure BlockSt where
  job : Nat
  id : Nat
  kind : Nat
  comp : Bool := false
  noTrans : Bool := false
  spoilGrad : Bool := false
  onPartial : Bool := false
  push : Bool := false
  rows : Nat := 0
  cols : Nat := 0
  pubFmt : Nat := 0
  pubRound : Nat := 0
  window : Nat := 2
  stateFmts : List Nat := []
  workSlots : Nat := 0
  optimizer : Nat := 0
  primary : Nat := 0
  microBatches : Nat := 0
  holdTimeout : Nat := 4096
  group : Nat := 0
  /-- Ranks by subscriber index. -/
  subs : List Nat := []
  /-- Storage elements Ep. -/
  ep : Nat := 0
  base : Nat := 0
  size : Nat := 0
  /-- Code of Table 11.4. -/
  state : Nat := 1
  step : Nat := 0
  version : Nat := 0
  /-- Version 0 has been published. -/
  published : Bool := false
  started : Nat := 0
  failed : Nat := 0
  good : Nat := 0
  /-- Subscriber bitmaps of the versions kept, by version. -/
  holds : NMap Nat := []
  /-- Program contexts by slot. -/
  progs : NMap Nat := []
  multiplier : F32 := 0x3F800000
  lastStatus : Nat := 0
  kept : Nat := 0
  exc : ExcRec := {}
  stamp : Stamp := {}
  /-- Tick at which HOLD_WAIT was entered. -/
  holdSince : Nat := 0
  /-- A PARAM.PUBLISH is being carried out: no stages (R267). -/
  publishing : Bool := false
  /-- The version whose copies are being produced, and its transposition jobs not issued and not complete. -/
  producing : Option Nat := none
  unissued : List Nat := []
  jobsLeft : Nat := 0
  /-- Transposition jobs returned once after a failed check (R213). -/
  returned : List Nat := []
  /-- UPDATING: the tie pass runs; the stage; units done at each position of the interleave; the commit is complete since a
  tick. -/
  tiePass : Bool := false
  stage : Nat := 0
  done : NMap Nat := []
  committedAt : Option Nat := none
  /-- An engine stage's run: program context. -/
  run : Option Nat := none
  /-- Segments of the push not settled. -/
  pushing : Nat := 0
  /-- The spoil mask of the update under way (R266). -/
  mask : List Byte := []
  /-- The job has ended during the commit stage (R322). -/
  doomed : Bool := false
  deriving DecidableEq, Repr

/-- A piece of a finished chunk (R258): operation, generation, chunk; block context, unit, first element in the unit,
elements, first element in the chunk; its sett and requester, once granted. -/
structure Piece where
  ctx : Nat
  gen : Nat
  chunk : Nat
  block : Nat
  unit : Nat
  lo : Nat
  n : Nat
  at_ : Nat
  sett : Option (Nat × Nat) := none
  deriving DecidableEq, Repr

/-- Training state. -/
structure ParamSt where
  /-- Blocks by context index. -/
  blocks : NMap BlockSt := []
  /-- Optimizer records by job × 2^32 + optimizer_id. -/
  opts : NMap OptSt := []
  /-- Pieces in the order in which they were offered (R258, R259). -/
  pieces : List Piece := []
  /-- Drained blocks in the order in which they drained (R260). -/
  ready : List Nat := []
  /-- The block last served by each NCU (R262). -/
  served : NMap Nat := []
  /-- Publications that have ended, of which their commands are still to be told: job, block, status. MODEL. -/
  told : List (Nat × Nat × Nat) := []
  deriving DecidableEq, Repr

/-! ## The activation stash (chapter 12) -/

/-- A stash entry (Table 12.1). -/
structure StashEnt where
  job : Nat
  holder : Nat
  tag : Nat
  /-- 1 FILLING, 2 COMPLETE, 3 DROPPING. -/
  state : Nat := 1
  dropPending : Bool := false
  dropAfter : Bool := false
  borrowed : Bool := false
  damaged : Bool := false
  bytes : Nat
  /-- Put segments committed. -/
  committed : Nat := 1
  stamp : Stamp := {}
  /-- Device addresses of its extents. -/
  extents : List Nat := []
  /-- Ticks since the last commit (R282). -/
  age : Nat := 0
  deriving DecidableEq, Repr

/-- A get in flight (R287, R288). -/
structure StashGet where
  id : Nat
  job : Nat
  holder : Nat
  tag : Nat
  /-- get_seq. -/
  seq : Nat
  node : Nat
  ep : Nat
  cls : Nat
  opId : Nat
  /-- Frames not settled, its STASH_REPLY included. -/
  left : Nat
  /-- The first segment it returns, and how many it returns. -/
  first : Nat := 0
  segments : Nat
  replied : Bool := false
  dropAfter : Bool := false
  deriving DecidableEq, Repr

/-- A reservation (R274, R275). -/
structure StashRes where
  reserved : Nat
  limit : Nat
  maxEntries : Nat
  extentLog2 : Nat
  opId : Nat
  /-- Flow contexts held, as runs (first, count). -/
  ctxs : List (Nat × Nat) := []
  /-- Reserved spans of 16 MiB, as runs (number of the first, count). -/
  spans : List (Nat × Nat) := []
  /-- Borrowed spans, by number. -/
  borrowed : List Nat := []
  /-- The last channel group used by a creation (R283). -/
  lastGroup : Nat := 0
  /-- Extents lost with retired channels (R295). -/
  gone : List Nat := []
  full : Nat := 0
  releasing : Bool := false
  /-- Ticks since STASH.RELEASE. -/
  drain : Nat := 0
  deriving DecidableEq, Repr

/-- The stash unit. -/
structure StashSt where
  /-- Reservations by job. -/
  res : NMap StashRes := []
  /-- Entries in the order of their creation. -/
  ents : List StashEnt := []
  gets : List StashGet := []
  nextGet : Nat := 0
  deriving DecidableEq, Repr

/-! ## Stozil mode (chapter 18) -/

/-- A chunk in a slot of a bench pair: bitmaps of both segments; unsettled result segments, once sent (R421, R422). -/
structure StzChunk where
  chunk : Nat
  low : Nat := 0
  high : Nat := 0
  sent : Bool := false
  unacked : Nat := 0
  deriving DecidableEq, Repr

/-- A Stozil operation at its root (R420–R423). -/
structure StzOp where
  job : Nat
  tag : Nat
  /-- The descriptor of the first contribution. -/
  desc : List Byte
  /-- Flow context, bench pair (tile, 0 or 1), sett and its requester; none once the claim failed. -/
  ctx : Option Nat := none
  pair : Option (Nat × Nat) := none
  sett : Option (Nat × Nat) := none
  chunks : List StzChunk := []
  /-- The chunk that each slot serves, where one has been freed. -/
  cur : NMap Nat := []
  freed : Nat := 0
  /-- Idle counters of the members (R423). -/
  idle : NMap Nat := []
  /-- Members whose results a hedge dropped. -/
  hedged : List Nat := []
  exc : ExcRec := {}
  /-- The final status, once it has ended, and completions not settled. -/
  status : Option Nat := none
  unacked : Nat := 0
  deriving DecidableEq, Repr

/-- What the entry module keeps of an operation of a job on a down port (R419). -/
structure StzEntry where
  job : Nat
  port : Nat
  tag : Nat
  root : Nat
  /-- Contributions seen, by seq. -/
  sent : List Nat := []
  isOpen : Bool := false
  /-- seq of the completion. -/
  done : Option Nat := none
  deriving DecidableEq, Repr

/-- The Stozil unit. -/
structure StzSt where
  /-- Operations by number. MODEL: the number. -/
  ops : NMap StzOp := []
  nextOp : Nat := 0
  entries : List StzEntry := []
  deriving DecidableEq, Repr

/-! ## Power and heat (chapter 15) -/

/-- A compute tile's power state (Table 15.5). -/
structure TilePwr where
  op : Nat := 5
  target : Nat := 5
  phase : Nat := 5
  thermal : Nat := 0
  /-- A change is in progress: its voltage slew and synthesiser are done. -/
  changing : Bool := false
  ready : Bool := false
  /-- Consecutive deferrals of the switch (R358). -/
  deferred : Nat := 0
  railOff : Bool := false
  /-- Its rail has been powered again after a fault (R351). -/
  railAgain : Bool := false
  /-- Bubbles of the running tick and of the next. -/
  bubbles : Nat := 0
  next : Nat := 0
  /-- The demand point is raised (R355): to which point, and ticks since the queue last held such a job. -/
  raised : Option Nat := none
  quiet : Nat := 0
  /-- A sensor of the pair has read 95 °C or more and not every sensor below 92 °C since (R363); ticks hot and cool. -/
  hot : Bool := false
  cool : Bool := false
  hotAge : Nat := 0
  coolAge : Nat := 0
  /-- BTk's NCUs run at half clock (R363). -/
  ncuHalf : Bool := false
  deriving DecidableEq, Repr

/-- The power controller. -/
structure PwrSt where
  tiles : NMap TilePwr := []
  /-- ENGCLK domains whose droop response is active. -/
  droops : List Nat := []
  trusted : Bool := true
  disagree : Nat := 0
  agree : Nat := 0
  /-- Bubbles decided for the next tick. -/
  n : Nat := 0
  unmet : Bool := false
  unmetRun : Nat := 0
  meas : Nat := 0
  /-- P_meas of the sample before. -/
  measBefore : Nat := 0
  est : Nat := 0
  /-- The tile at which the rotation of remainders starts (R360). -/
  rotate : Nat := 0
  coolantLow : Bool := false
  hubHot : Bool := false
  /-- The last readings of the junction sensors, and how many in a row were 110 °C or above. -/
  junction : NMap Int := []
  trips : NMap Nat := []
  deriving DecidableEq, Repr


/-! ## The state -/

/-- The module's state. -/
structure State where
  /-- Commands that are waiting, first in, first out. -/
  pending : List Instr := []
  /-- How many free values have been drawn. MODEL. -/
  fresh : Nat := 0
  /-- Register words the device stores, where they differ from reset: key (register × 8192 + word). -/
  regs : NMap Nat := []
  tick : TickSt := {}
  link : LinkSt := {}
  boot : BootSt := {}
  flt : FltSt := {}
  mgt : MgtSt := {}
  host : HostSt := {}
  topo : TopoSt := {}
  flow : FlowSt := {}
  sw : SwSt := {}
  pool : PoolSt := {}
  eng : EngsSt := {}
  coll : CollsSt := {}
  parm : ParamSt := {}
  stash : StashSt := {}
  stz : StzSt := {}
  pwr : PwrSt := {}
  /-- Flow contexts the device has open, by index: what holds them (R19, R321), and every context's generation. -/
  ctxUse : NMap Nat := []
  ctxGen : NMap Nat := []
  /-- Device memory and base SRAM: bytes that differ from zero, addresses rising (R27). -/
  mem : List Host.Cell := []
  /-- Ranges whose bytes the spec calls undefined (R207, R251), as (address, length, draw): what they read is
  `Config.freeByte` of the draw and the address until something is written there. -/
  undef : List (Nat × Nat × Nat) := []
  /-- What has left the module, newest first. MODEL. -/
  out : List Out := []
  deriving DecidableEq, Repr

/-- The module right after reset: phase RESET, nothing lit, nothing listed in memory, every register at its reset
value. -/
def State.reset : State := {}

end Sys2Proof.Machine
end

