-- ==== Sys2Proof/Config.lean ====
section
/-! DEFINITION. What one module fixes (Tables 0.1, 1.3, 2.1) and the free values: constants with no
body, so that no proof can see what they are. Each names the rule that leaves it open. -/

namespace Sys2Proof

/-- An operand of an NCU instruction: a vector register 0–31, or a parameter 0–63 in every lane (R214). -/
inductive NcuSrc where
  | reg (n : Nat)
  | param (n : Nat)
  deriving DecidableEq, Repr

/-- An instruction of an NCU kernel (R214): the operations of R192, and LD, ST, ADDP and SEL. `d` is the register written. -/
inductive NcuOp where
  | fma (d : Nat) (a b c : NcuSrc)
  | add (d : Nat) (a b : NcuSrc)
  | sub (d : Nat) (a b : NcuSrc)
  | mul (d : Nat) (a b : NcuSrc)
  | min (d : Nat) (a b : NcuSrc)
  | max (d : Nat) (a b : NcuSrc)
  | abs (d : Nat) (a : NcuSrc)
  | sqrt (d : Nat) (a : NcuSrc)
  | rsqrt (d : Nat) (a : NcuSrc)
  /-- A conversion to BF16 and back, in the kernel's rounding mode. -/
  | round (d : Nat) (a : NcuSrc)
  /-- A stream read into a register; an F32P stream fills `d` with hi and `d + 1` with lo. -/
  | ld (d stream : Nat)
  /-- A register written into a stream; an F32P stream takes hi from `a` and lo from `a + 1`. -/
  | st (stream a : Nat)
  /-- ADD_F32 of `x` into the register pair `d`, `d + 1`. -/
  | addp (d : Nat) (x : NcuSrc)
  /-- In each lane `a` where the mask register's lane is not zero, else `b`. -/
  | sel (d mask : Nat) (a b : NcuSrc)
  deriving DecidableEq, Repr

end Sys2Proof

namespace Sys2Proof.Config

/-- FREE VALUE: the sub-tick at which the `n`-th stamped action falls (R38 gives its place within the
tick, which no command states). Log entry 3. -/
opaque freeSub : Nat → BitVec 12
/-- FREE VALUE: the low four bits of a 40-bit stamp (R43). Log entry 3. -/
opaque freeFine : Nat → BitVec 4
/-- FREE VALUE: the `n`-th 32-bit value the device draws: drop-profile draws (R138), mailbox keys
(R302) and the device's start PSN (R301). Log entries 4 and 5. -/
opaque freeWord : Nat → BitVec 32
/-- FREE VALUE: the 16-bit draw of a stochastic rounding (R181), from the seed of the converting unit's generator
and the number of draws it has made. Log entry 6. -/
opaque srDraw : BitVec 64 → Nat → BitVec 16
/-- FREE VALUE: the seed that the hardware random source gives the generator of a unit at the `n`-th data-plane reset
(R181). Log entry 6. -/
opaque srReseed : Nat → Nat → BitVec 64
/-- FREE VALUE: the instructions that a kernel image spells (R214 names the operations and gives no encoding of them).
Log entry 7. -/
opaque kernelOps : List Byte → List NcuOp
/-- FREE VALUE: the rounding mode of a kernel, a code of Table 8.4 (R214 gives it no place in the image). Log entry 7. -/
opaque kernelMode : List Byte → Nat
/-- FREE VALUE: the stream bases that a kernel's stream table spells (R215 states no layout of it). Log entry 41. -/
opaque streamBases : List Byte → List Nat
/-- FREE VALUE: severity, code and data of the event that R196 has logged for an arithmetic exception of a kind (Table 17.2a gives it no
code). Log entry 17. -/
opaque arithEvent : Nat → Nat × Nat × List Byte
/-- FREE VALUE: whether the host has posted a receive for the `n`-th event SEND (R310). Log entry 9. -/
opaque recvPosted : Nat → Bool
/-- FREE VALUE: the image with which slot `k` left the factory (R1, R398 fix its format, not its bytes). Log entry 10. -/
opaque factoryImage : Nat → List Byte
/-- FREE VALUE: the byte at an address that the spec calls undefined: what a master or state region holds before PARAM.INIT
(R251), what an aborted run leaves in its output buffers (R207); draw, address. Log entry 50. -/
opaque freeByte : Nat → Nat → BitVec 8
/-- FREE VALUE: the set points of the five lasers and the limits of their bias in the laser source module fitted at slot `j`
(R76 gives no values). Log entry 64. -/
opaque lsmSetPoints : Nat → List Nat
opaque lsmLimits : Nat → List Nat
/-- FREE VALUE: the lanes that an LD of a scale stream fills from its bytes, or of an unused stream from none (R214 states no decoding
of scales alone, and no value for a stream without a region). Log entry 65. -/
opaque scaleLanes : List Byte → List (BitVec 32)
/-- SHAKE256 of a byte string, output of the given length (R400, R408, R409); named by its standard.
Log entry 8. -/
opaque shake256 : List Byte → Nat → List Byte
/-- Ed448 and Ed448ph verification (RFC 8032, R400): context, public key, message, signature.
Log entry 8. -/
opaque ed448Verify : List Byte → List Byte → List Byte → List Byte → Bool
/-- Ed448 signing (RFC 8032, R408, R409): context, private key, message. Log entry 8. -/
opaque ed448Sign : List Byte → List Byte → List Byte → List Byte
/-- The Ed448 public key of a private key (R408). Log entry 8. -/
opaque ed448Public : List Byte → List Byte
/-- FUSE: the 448-bit identity secret, unique to the module (R408). -/
opaque identitySecret : List Byte
/-- FUSE: the digest fused in key slot `k` (R400). -/
opaque keyDigest : Nat → List Byte
/-- FUSE: the voltage in mV of operating point `p` of ENGCLK domain `d` (CT0–CT7, BT0–BT7)
(R352, R368). -/
opaque fuseVolt : Nat → Nat → BitVec 10
/-- FUSE: PWR_EST_COEF of term `t`, an F32 pattern (R368). -/
opaque fuseCoef : Nat → BitVec 32
/-- The module's serial number, MAC base and manufacturing signature in the identity record
(R408; the spec gives no values). -/
opaque identitySerial : List Byte
/-- Low 48 bits: mac_base of Table 17.5. -/
opaque macBase : BitVec 48
/-- mfg_signature of Table 17.5. -/
opaque mfgSignature : List Byte

/-- Usable LPDDR5X bytes with every channel in service (R17: 128 × 11.25 GB). -/
def usableBytes : Nat := 1440000000000
/-- Usable bytes of one channel (R17). -/
def channelBytes : Nat := 11250000000
/-- The flow context table (R19). -/
def contextBytes : Nat := 268435456
/-- What blocks, stash and P4 share (R19). -/
def remainderBytes : Nat := usableBytes - contextBytes
/-- Flow contexts (R19). -/
def contexts : Nat := 1048576
/-- Contexts that job ranges may take together (Table 13.10). -/
def jobContexts : Nat := 262144
/-- Lanes of the module (R6). -/
def lanes : Nat := 1024
/-- Engines built per tile (R6). -/
def enginesPerTile : Nat := 136
/-- This module's stepping code (R1: B1) in the coding of Table 17.4. -/
def stepping : Nat := 3

/-- CORECLK cycles of a tick (Table 2.1). -/
def coreCycles : Nat → Nat
  | 0 => 1920
  | 2 => 7680
  | _ => 3840
/-- Cell times of a P8 port in a tick (Table 6.3). -/
def slotsP8 : Nat → Nat
  | 0 => 500
  | 2 => 2000
  | _ => 1000
/-- ENGCLK cycles of a tick at 1.7 GHz (Table 2.1). -/
def engCycles : Nat → Nat
  | 0 => 2176
  | 2 => 8704
  | _ => 4352
/-- hold_ticks loaded with each period (R49). -/
def holdTicks : Nat → Nat
  | 0 => 15360
  | 2 => 3840
  | _ => 7680
/-- Sixteenths of a sub-tick in a tick: the unit of TICK_OFFSET (R43, R49). -/
def tickFine : Nat := 65536
/-- `ps` picoseconds in sixteenths of a sub-tick at a period (sub-tick units of Table 2.1). -/
def fineOfPs (period ps : Nat) : Nat :=
  match period with
  | 0 => ps * 16 * 10000 / 3125000
  | 2 => ps * 16 * 10000 / 12500000
  | _ => ps * 16 * 10000 / 6250000

end Sys2Proof.Config
end

