-- ==== Sys2Proof/Machine/RegMap.lean ====
section
/-! DEFINITION. The register maps of every chapter, in the order of their first appearance (R325): each register's
window, the instances it reserves, and its fields with their places, access codes (R10) and reset values. -/

namespace Sys2Proof.Machine

/-- The access codes of Table 0.3 (R10). -/
inductive Access where
  /-- Read only. -/
  | ro
  /-- Stores the value. -/
  | rw
  /-- Each bit written 1 clears that bit. -/
  | w1c
  /-- Reads zero, a write acts. -/
  | wo
  /-- A read clears the field. -/
  | rc
  /-- A read restarts the field. -/
  | rr
  deriving DecidableEq, Repr

/-- One field of a register map. -/
structure FieldDef where
  lo : Nat
  width : Nat
  access : Access
  rst : Nat
  deriving DecidableEq, Repr

/-- One register: its window (R325), the instances reserved, its fields. -/
structure RegInfo where
  window : Nat
  count : Nat
  fields : List FieldDef
  deriving DecidableEq, Repr

/-- The registers of the module. -/
inductive Reg where
  | mgtMemarbShare
  | tickConfig
  | tickCount
  | tickStatus
  | tickOffset
  | tickHoldLimit
  | tickTsosMiss
  | tickParentChanges
  | portMode
  | laneStatus
  | laneFecCw
  | laneFecCorrCw
  | laneFecCorrSym
  | laneFecUncorrCw
  | laneFecMaxSym
  | laneLossEvents
  | portLinkStatus
  | laneRetireCfg
  | routeSeed
  | routePlanId
  | routeStatus
  | routePortState
  | routeTrunkStatus
  | routeCapacity
  | routeViaRedraw
  | routeViaNone
  | routeUnroutable
  | routeC7Detour
  | routeHeldDrop
  | routeHedgeDrop
  | routeLateDrop
  | routeLsNotices
  | portBufClass
  | schedConfig
  | schedC7Reserve
  | schedClassWeight
  | portClassProfile
  | portDropProfile
  | portMeter
  | portRxFrames
  | portTxFrames
  | portTxCells
  | portFrameErr
  | portCreditViol
  | portHdrDrop
  | portCheckDrop
  | portHopCrcDrop
  | portE2eCrcDrop
  | portRedDrop
  | portTailDrop
  | portPoolDrop
  | portMarked
  | portCreditStall
  | portFlushDrop
  | schedPlanLate
  | schedC7Excess
  | schedC7Oversize
  | poolConfig
  | poolFree
  | poolLowWater
  | poolQuota
  | poolBind
  | poolAllocOk
  | poolEmptyFail
  | poolQuotaFail
  | poolSpilled
  | poolFreeOk
  | poolBadPointer
  | poolFreeNotAlloc
  | poolFreeNotOwner
  | poolUnderflow
  | poolOverflow
  | poolReclaimed
  | engArithSeverity
  | engExcCount
  | engFlushCount
  | engSrSeed
  | engState
  | engTileStatus
  | engStealCfg
  | engOverrunCfg
  | engJobsDone
  | engStolenIn
  | engStolenOut
  | engOverrun
  | engBubbleDefer
  | engCheckErr
  | engTestFail
  | engNcuLate
  | engBenchFallback
  | collBenchCfg
  | collBenchStatus
  | collInstancesDone
  | collAbsorbed
  | collMergeSkip
  | collDupDrop
  | collWindowDrop
  | collContribBad
  | collOverlap
  | collCheckFail
  | collNoBench
  | collFallback
  | collTimeout
  | collAborted
  | collReplayed
  | collMemberLost
  | collHedgedMember
  | paramUpdateCfg
  | paramBlocks
  | paramPieces
  | paramLateInstance
  | paramStepDiscarded
  | paramUpdates
  | paramUpdateFailed
  | paramPublished
  | paramFetchServed
  | paramFetchRefused
  | paramHoldDropped
  | paramReleaseUnheld
  | stashCfg
  | stashMark
  | stashSpans
  | stashEntries
  | stashCreated
  | stashDropped
  | stashPutSegments
  | stashGetSegments
  | stashFullCount
  | stashPutExpired
  | stashGetEnded
  | stashHolderLost
  | stashDamagedCount
  | stashReclaimed
  | stashMarked
  | mgtMboxState
  | mgtMboxCommands
  | mgtMboxDbBad
  | mgtMboxBadSlot
  | mgtMboxAccessBad
  | mgtEventDrop
  | mgtHostDrop
  | mgtBringupStatus
  | mgtBringupCfg
  | pwrStatus
  | pwrCap
  | pwrCapCfg
  | pwrEstCfg
  | pwrEstCoef
  | pwrCfg
  | pwrPhaseOp
  | pwrVtable
  | pwrTileStatus
  | pwrBubbles
  | pwrCapUnmet
  | pwrUntrusted
  | pwrDroopEvents
  | pwrFreqChanges
  | pwrFreqDefer
  | pwrThermalSteps
  | pwrRailFault
  | fltStatus
  | fltTileStatus
  | fltSeverity0
  | fltSeverity1
  | fltTopCapture
  | fltTileCapture
  | fltSafe
  | fltHeadless
  | fltInjectTarget
  | fltInjectResult
  | fltMcCfg
  | fltMcCtrl
  | fltMcStatus
  | fltEvents
  | fltLogSuppressed
  | fltSramCe
  | fltMcCe
  | fltInjectRounds
  | fltInjectFail
  | fltSafeEntries
  | mgtFwStatus
  | mgtLogCfg
  | mgtEventThresh
  | mgtEventSeq
  | mgtSensor
  | mgtSensorCtrl
  | mgtEventsLogged
  | mgtEventOverwritten
  | mgtPlogWritten
  | mgtPlogSuppressed
  | mgtImageRefused
  | mgtAttests
  | collStozilStatus
  | collStozilDone
  | collStozilNoPair
  | collStozilDupDrop
  | collStozilSerialRefused
  | collStozilPortRefused
  deriving DecidableEq, Repr

/-- A lone 64-bit counter that a read clears. -/
def rc64 : List FieldDef := [⟨0, 64, .rc, 0⟩]

/-- The map of each register. A reset value that the maps state by instance or by table stands in `Reg.resetWord`. -/
def Reg.info : Reg → RegInfo
  | .mgtMemarbShare => ⟨12, 1, [⟨0, 6, .rw, 3⟩, ⟨6, 6, .rw, 10⟩, ⟨12, 6, .rw, 10⟩, ⟨18, 6, .rw, 3⟩, ⟨24, 6, .rw, 6⟩]⟩
  | .tickConfig => ⟨0, 1, [⟨0, 2, .rw, 1⟩, ⟨2, 8, .rw, 255⟩, ⟨10, 1, .rw, 0⟩]⟩
  | .tickCount => ⟨0, 2, []⟩
  | .tickStatus => ⟨0, 1, [⟨0, 3, .ro, 0⟩, ⟨3, 6, .ro, 0⟩, ⟨9, 9, .ro, 0⟩, ⟨18, 3, .ro, 0⟩, ⟨32, 16, .ro, 0⟩, ⟨48, 8, .ro, 255⟩]⟩
  | .tickOffset => ⟨0, 1, [⟨0, 24, .ro, 0⟩]⟩
  | .tickHoldLimit => ⟨0, 1, [⟨0, 16, .rw, 7680⟩]⟩
  | .tickTsosMiss => ⟨0, 1, [⟨0, 32, .rc, 0⟩]⟩
  | .tickParentChanges => ⟨0, 1, [⟨0, 32, .rc, 0⟩]⟩
  | .portMode => ⟨2, 1, [⟨0, 2, .rw, 0⟩]⟩
  | .laneStatus => ⟨1, 1024, [⟨0, 1, .ro, 1⟩, ⟨1, 1, .ro, 1⟩, ⟨2, 1, .ro, 0⟩, ⟨3, 1, .ro, 0⟩, ⟨4, 1, .ro, 0⟩]⟩
  | .laneFecCw => ⟨1, 1024, rc64⟩
  | .laneFecCorrCw => ⟨1, 1024, rc64⟩
  | .laneFecCorrSym => ⟨1, 1024, rc64⟩
  | .laneFecUncorrCw => ⟨1, 1024, rc64⟩
  | .laneFecMaxSym => ⟨1, 1024, [⟨0, 4, .rc, 0⟩]⟩
  | .laneLossEvents => ⟨1, 1024, rc64⟩
  | .portLinkStatus => ⟨2, 512, [⟨0, 3, .ro, 0⟩, ⟨3, 4, .ro, 0⟩, ⟨7, 3, .ro, 0⟩, ⟨10, 5, .ro, 0⟩, ⟨15, 1, .ro, 0⟩, ⟨16, 16, .ro, 0⟩]⟩
  | .laneRetireCfg => ⟨1, 1, [⟨0, 26, .rw, 8192⟩, ⟨26, 8, .rw, 4⟩, ⟨34, 1, .rw, 1⟩, ⟨35, 13, .rw, 128⟩, ⟨48, 8, .rw, 8⟩]⟩
  | .routeSeed => ⟨3, 1, [⟨0, 32, .ro, 0⟩]⟩
  | .routePlanId => ⟨3, 1, [⟨0, 32, .ro, 0⟩]⟩
  | .routeStatus => ⟨3, 1, [⟨0, 1, .ro, 0⟩, ⟨1, 1, .ro, 0⟩, ⟨2, 1, .ro, 0⟩, ⟨16, 13, .ro, 0⟩]⟩
  | .routePortState => ⟨3, 512, [⟨0, 3, .ro, 0⟩, ⟨3, 3, .ro, 0⟩, ⟨6, 1, .ro, 0⟩, ⟨7, 1, .ro, 0⟩, ⟨8, 9, .ro, 0⟩, ⟨32, 16, .ro, 0⟩, ⟨48, 16, .ro, 0⟩]⟩
  | .routeTrunkStatus => ⟨3, 512, [⟨0, 10, .ro, 0⟩, ⟨10, 10, .ro, 0⟩, ⟨20, 11, .ro, 0⟩, ⟨31, 1, .ro, 1⟩]⟩
  | .routeCapacity => ⟨3, 1, [⟨0, 11, .ro, 0⟩, ⟨11, 11, .ro, 0⟩]⟩
  | .routeViaRedraw => ⟨3, 1, rc64⟩
  | .routeViaNone => ⟨3, 1, rc64⟩
  | .routeUnroutable => ⟨3, 1, rc64⟩
  | .routeC7Detour => ⟨3, 1, rc64⟩
  | .routeHeldDrop => ⟨3, 1, rc64⟩
  | .routeHedgeDrop => ⟨3, 1, rc64⟩
  | .routeLateDrop => ⟨3, 1, rc64⟩
  | .routeLsNotices => ⟨3, 1, rc64⟩
  | .portBufClass => ⟨2, 64, [⟨0, 18, .rw, 0⟩, ⟨18, 18, .rw, 0⟩, ⟨36, 18, .ro, 0⟩]⟩
  | .schedConfig => ⟨4, 1, [⟨0, 3, .rw, 3⟩, ⟨3, 1, .rw, 1⟩]⟩
  | .schedC7Reserve => ⟨4, 512, [⟨0, 8, .ro, 0⟩, ⟨8, 8, .ro, 0⟩, ⟨16, 1, .ro, 0⟩, ⟨17, 1, .ro, 0⟩]⟩
  | .schedClassWeight => ⟨4, 512, [⟨0, 28, .rw, 0⟩]⟩
  | .portClassProfile => ⟨2, 512, [⟨0, 32, .rw, 0⟩]⟩
  | .portDropProfile => ⟨2, 64, [⟨0, 18, .rw, 262143⟩, ⟨18, 18, .rw, 262143⟩, ⟨36, 8, .rw, 0⟩]⟩
  | .portMeter => ⟨2, 4096, [⟨0, 16, .rw, 0⟩, ⟨16, 16, .rw, 0⟩, ⟨32, 16, .rw, 0⟩, ⟨48, 16, .rw, 0⟩]⟩
  | .portRxFrames => ⟨2, 512, rc64⟩
  | .portTxFrames => ⟨2, 512, rc64⟩
  | .portTxCells => ⟨2, 4096, rc64⟩
  | .portFrameErr => ⟨2, 512, rc64⟩
  | .portCreditViol => ⟨2, 512, rc64⟩
  | .portHdrDrop => ⟨2, 512, rc64⟩
  | .portCheckDrop => ⟨2, 512, rc64⟩
  | .portHopCrcDrop => ⟨2, 512, rc64⟩
  | .portE2eCrcDrop => ⟨2, 512, rc64⟩
  | .portRedDrop => ⟨2, 1536, rc64⟩
  | .portTailDrop => ⟨2, 512, rc64⟩
  | .portPoolDrop => ⟨2, 512, rc64⟩
  | .portMarked => ⟨2, 512, rc64⟩
  | .portCreditStall => ⟨2, 512, rc64⟩
  | .portFlushDrop => ⟨2, 512, rc64⟩
  | .schedPlanLate => ⟨4, 1, rc64⟩
  | .schedC7Excess => ⟨4, 512, rc64⟩
  | .schedC7Oversize => ⟨4, 512, rc64⟩
  | .poolConfig => ⟨5, 5, [⟨0, 1, .ro, 0⟩, ⟨1, 21, .ro, 0⟩]⟩
  | .poolFree => ⟨5, 5, [⟨0, 21, .ro, 0⟩]⟩
  | .poolLowWater => ⟨5, 5, [⟨0, 21, .rr, 0⟩]⟩
  | .poolQuota => ⟨5, 5120, [⟨0, 21, .rw, 0⟩, ⟨21, 21, .rw, 0⟩, ⟨42, 21, .ro, 0⟩]⟩
  | .poolBind => ⟨5, 1024, [⟨0, 12, .ro, 0⟩, ⟨12, 1, .ro, 0⟩]⟩
  | .poolAllocOk => ⟨5, 5, rc64⟩
  | .poolEmptyFail => ⟨5, 5, rc64⟩
  | .poolQuotaFail => ⟨5, 5, rc64⟩
  | .poolSpilled => ⟨5, 5, rc64⟩
  | .poolFreeOk => ⟨5, 5, rc64⟩
  | .poolBadPointer => ⟨5, 5, rc64⟩
  | .poolFreeNotAlloc => ⟨5, 5, rc64⟩
  | .poolFreeNotOwner => ⟨5, 5, rc64⟩
  | .poolUnderflow => ⟨5, 5, rc64⟩
  | .poolOverflow => ⟨5, 5, rc64⟩
  | .poolReclaimed => ⟨5, 5, rc64⟩
  | .engArithSeverity => ⟨9, 1, [⟨0, 2, .rw, 2⟩, ⟨2, 2, .rw, 2⟩, ⟨4, 2, .rw, 1⟩, ⟨6, 2, .rw, 0⟩]⟩
  | .engExcCount => ⟨9, 4, rc64⟩
  | .engFlushCount => ⟨9, 1, rc64⟩
  | .engSrSeed => ⟨9, 1, [⟨0, 64, .wo, 0⟩]⟩
  | .engState => ⟨9, 1088, [⟨0, 3, .ro, 0⟩, ⟨3, 1, .ro, 0⟩]⟩
  | .engTileStatus => ⟨9, 8, [⟨0, 8, .ro, 128⟩, ⟨8, 4, .ro, 8⟩, ⟨12, 8, .ro, 0⟩, ⟨20, 14, .ro, 0⟩]⟩
  | .engStealCfg => ⟨9, 1, [⟨0, 12, .rw, 256⟩, ⟨12, 8, .rw, 16⟩, ⟨20, 8, .rw, 16⟩]⟩
  | .engOverrunCfg => ⟨9, 1, [⟨0, 8, .rw, 4⟩, ⟨8, 16, .rw, 1024⟩]⟩
  | .engJobsDone => ⟨9, 8, rc64⟩
  | .engStolenIn => ⟨9, 8, rc64⟩
  | .engStolenOut => ⟨9, 8, rc64⟩
  | .engOverrun => ⟨9, 8, rc64⟩
  | .engBubbleDefer => ⟨9, 8, rc64⟩
  | .engCheckErr => ⟨9, 8, rc64⟩
  | .engTestFail => ⟨9, 8, rc64⟩
  | .engNcuLate => ⟨9, 8, rc64⟩
  | .engBenchFallback => ⟨9, 1, rc64⟩
  | .collBenchCfg => ⟨6, 1, [⟨0, 10, .rw, 64⟩, ⟨10, 7, .rw, 64⟩]⟩
  | .collBenchStatus => ⟨6, 1, [⟨0, 10, .ro, 0⟩, ⟨10, 10, .ro, 0⟩, ⟨20, 10, .ro, 0⟩, ⟨32, 10, .ro, 0⟩]⟩
  | .collInstancesDone => ⟨6, 1, rc64⟩
  | .collAbsorbed => ⟨6, 1, rc64⟩
  | .collMergeSkip => ⟨6, 1, rc64⟩
  | .collDupDrop => ⟨6, 1, rc64⟩
  | .collWindowDrop => ⟨6, 1, rc64⟩
  | .collContribBad => ⟨6, 1, rc64⟩
  | .collOverlap => ⟨6, 1, rc64⟩
  | .collCheckFail => ⟨6, 1, rc64⟩
  | .collNoBench => ⟨6, 1, rc64⟩
  | .collFallback => ⟨6, 1, rc64⟩
  | .collTimeout => ⟨6, 1, rc64⟩
  | .collAborted => ⟨6, 1, rc64⟩
  | .collReplayed => ⟨6, 1, rc64⟩
  | .collMemberLost => ⟨6, 1, rc64⟩
  | .collHedgedMember => ⟨6, 1, rc64⟩
  | .paramUpdateCfg => ⟨7, 1, [⟨0, 7, .rw, 16⟩]⟩
  | .paramBlocks => ⟨7, 1, [⟨0, 19, .ro, 0⟩]⟩
  | .paramPieces => ⟨7, 1, rc64⟩
  | .paramLateInstance => ⟨7, 1, rc64⟩
  | .paramStepDiscarded => ⟨7, 1, rc64⟩
  | .paramUpdates => ⟨7, 1, rc64⟩
  | .paramUpdateFailed => ⟨7, 1, rc64⟩
  | .paramPublished => ⟨7, 1, rc64⟩
  | .paramFetchServed => ⟨7, 1, rc64⟩
  | .paramFetchRefused => ⟨7, 1, rc64⟩
  | .paramHoldDropped => ⟨7, 1, rc64⟩
  | .paramReleaseUnheld => ⟨7, 1, rc64⟩
  | .stashCfg => ⟨8, 1, [⟨0, 16, .rw, 4096⟩, ⟨16, 16, .rw, 4096⟩, ⟨32, 16, .rw, 64⟩, ⟨48, 1, .rw, 0⟩]⟩
  | .stashMark => ⟨8, 1, [⟨0, 18, .rw, 16384⟩]⟩
  | .stashSpans => ⟨8, 1, [⟨0, 17, .ro, 0⟩, ⟨17, 17, .ro, 0⟩]⟩
  | .stashEntries => ⟨8, 1, [⟨0, 21, .ro, 0⟩]⟩
  | .stashCreated => ⟨8, 1, rc64⟩
  | .stashDropped => ⟨8, 1, rc64⟩
  | .stashPutSegments => ⟨8, 1, rc64⟩
  | .stashGetSegments => ⟨8, 1, rc64⟩
  | .stashFullCount => ⟨8, 1, rc64⟩
  | .stashPutExpired => ⟨8, 1, rc64⟩
  | .stashGetEnded => ⟨8, 1, rc64⟩
  | .stashHolderLost => ⟨8, 1, rc64⟩
  | .stashDamagedCount => ⟨8, 1, rc64⟩
  | .stashReclaimed => ⟨8, 1, rc64⟩
  | .stashMarked => ⟨8, 1, rc64⟩
  | .mgtMboxState => ⟨12, 64, [⟨0, 1, .ro, 0⟩, ⟨1, 2, .ro, 0⟩, ⟨3, 1, .ro, 0⟩, ⟨16, 16, .ro, 0⟩, ⟨32, 32, .ro, 0⟩]⟩
  | .mgtMboxCommands => ⟨12, 1, rc64⟩
  | .mgtMboxDbBad => ⟨12, 1, rc64⟩
  | .mgtMboxBadSlot => ⟨12, 1, rc64⟩
  | .mgtMboxAccessBad => ⟨12, 1, rc64⟩
  | .mgtEventDrop => ⟨12, 1, rc64⟩
  | .mgtHostDrop => ⟨12, 4, rc64⟩
  | .mgtBringupStatus => ⟨12, 1, [⟨0, 4, .ro, 0⟩, ⟨4, 4, .ro, 0⟩, ⟨8, 1, .ro, 0⟩, ⟨9, 1, .ro, 0⟩, ⟨16, 8, .ro, 0⟩, ⟨24, 8, .ro, 0⟩, ⟨32, 32, .ro, 0⟩]⟩
  | .mgtBringupCfg => ⟨12, 1, [⟨0, 5, .rw, 4⟩]⟩
  | .pwrStatus => ⟨10, 1, [⟨0, 1, .ro, 1⟩, ⟨1, 1, .ro, 0⟩, ⟨2, 1, .ro, 0⟩, ⟨3, 1, .ro, 0⟩, ⟨16, 12, .ro, 0⟩, ⟨32, 12, .ro, 0⟩]⟩
  | .pwrCap => ⟨10, 1, [⟨0, 11, .rw, 2000⟩, ⟨16, 11, .ro, 2000⟩]⟩
  | .pwrCapCfg => ⟨10, 1, [⟨0, 10, .rw, 256⟩, ⟨10, 7, .rw, 20⟩, ⟨17, 8, .rw, 20⟩, ⟨25, 8, .rw, 150⟩]⟩
  | .pwrEstCfg => ⟨10, 1, [⟨0, 7, .rw, 25⟩, ⟨7, 8, .rw, 16⟩, ⟨15, 2, .rw, 1⟩, ⟨17, 11, .rw, 1024⟩]⟩
  | .pwrEstCoef => ⟨10, 16, [⟨0, 32, .rw, 0⟩]⟩
  | .pwrCfg => ⟨10, 1, [⟨0, 1, .rw, 1⟩, ⟨1, 7, .rw, 40⟩, ⟨8, 4, .rw, 5⟩]⟩
  | .pwrPhaseOp => ⟨10, 8, [⟨0, 3, .rw, 0⟩]⟩
  | .pwrVtable => ⟨10, 128, [⟨0, 10, .ro, 0⟩]⟩
  | .pwrTileStatus => ⟨10, 8, [⟨0, 3, .ro, 5⟩, ⟨3, 3, .ro, 5⟩, ⟨6, 1, .ro, 0⟩, ⟨7, 1, .ro, 0⟩, ⟨8, 1, .ro, 0⟩, ⟨9, 3, .ro, 0⟩, ⟨12, 3, .ro, 5⟩, ⟨15, 1, .ro, 0⟩, ⟨16, 8, .ro, 0⟩]⟩
  | .pwrBubbles => ⟨10, 8, rc64⟩
  | .pwrCapUnmet => ⟨10, 1, rc64⟩
  | .pwrUntrusted => ⟨10, 1, rc64⟩
  | .pwrDroopEvents => ⟨10, 16, rc64⟩
  | .pwrFreqChanges => ⟨10, 8, rc64⟩
  | .pwrFreqDefer => ⟨10, 8, rc64⟩
  | .pwrThermalSteps => ⟨10, 8, rc64⟩
  | .pwrRailFault => ⟨10, 43, rc64⟩
  | .fltStatus => ⟨11, 1, [⟨0, 28, .w1c, 0⟩]⟩
  | .fltTileStatus => ⟨11, 8, [⟨0, 28, .w1c, 0⟩]⟩
  | .fltSeverity0 => ⟨11, 1, [⟨0, 63, .rw, 0⟩]⟩
  | .fltSeverity1 => ⟨11, 1, [⟨0, 21, .rw, 0⟩]⟩
  | .fltTopCapture => ⟨11, 4, [⟨0, 64, .ro, 0⟩]⟩
  | .fltTileCapture => ⟨11, 64, [⟨0, 64, .ro, 0⟩]⟩
  | .fltSafe => ⟨11, 1, [⟨0, 1, .ro, 0⟩, ⟨1, 5, .ro, 0⟩]⟩
  | .fltHeadless => ⟨11, 1, [⟨0, 1, .ro, 0⟩, ⟨1, 6, .ro, 0⟩]⟩
  | .fltInjectTarget => ⟨11, 1, [⟨0, 16, .rw, 65535⟩]⟩
  | .fltInjectResult => ⟨11, 1, [⟨0, 5, .ro, 0⟩, ⟨5, 16, .ro, 0⟩, ⟨21, 2, .ro, 0⟩, ⟨23, 1, .ro, 0⟩]⟩
  | .fltMcCfg => ⟨11, 1, [⟨0, 16, .rw, 1024⟩]⟩
  | .fltMcCtrl => ⟨11, 128, [⟨0, 1, .wo, 0⟩, ⟨1, 1, .wo, 0⟩, ⟨2, 1, .wo, 0⟩]⟩
  | .fltMcStatus => ⟨11, 128, [⟨0, 1, .ro, 0⟩, ⟨1, 1, .ro, 0⟩, ⟨2, 1, .ro, 0⟩, ⟨3, 1, .ro, 0⟩, ⟨4, 1, .ro, 0⟩, ⟨8, 32, .ro, 0⟩]⟩
  | .fltEvents => ⟨11, 1, rc64⟩
  | .fltLogSuppressed => ⟨11, 1, rc64⟩
  | .fltSramCe => ⟨11, 8, rc64⟩
  | .fltMcCe => ⟨11, 128, rc64⟩
  | .fltInjectRounds => ⟨11, 1, rc64⟩
  | .fltInjectFail => ⟨11, 1, rc64⟩
  | .fltSafeEntries => ⟨11, 1, rc64⟩
  | .mgtFwStatus => ⟨12, 1, [⟨0, 1, .ro, 0⟩, ⟨1, 2, .ro, 0⟩, ⟨3, 2, .ro, 0⟩, ⟨5, 1, .ro, 0⟩, ⟨6, 1, .ro, 0⟩, ⟨7, 1, .ro, 0⟩, ⟨8, 7, .ro, 0⟩, ⟨15, 1, .ro, 0⟩, ⟨16, 7, .ro, 0⟩, ⟨23, 4, .ro, 0⟩, ⟨32, 8, .ro, 0⟩, ⟨40, 8, .ro, 0⟩, ⟨48, 16, .ro, 0⟩]⟩
  | .mgtLogCfg => ⟨12, 1, [⟨0, 3, .rw, 2⟩]⟩
  | .mgtEventThresh => ⟨12, 64, [⟨0, 3, .rw, 2⟩]⟩
  | .mgtEventSeq => ⟨12, 1, [⟨0, 64, .ro, 0⟩]⟩
  | .mgtSensor => ⟨12, 338, [⟨0, 16, .ro, 0⟩, ⟨16, 16, .ro, 0⟩]⟩
  | .mgtSensorCtrl => ⟨12, 1, [⟨0, 1, .wo, 0⟩]⟩
  | .mgtEventsLogged => ⟨12, 1, rc64⟩
  | .mgtEventOverwritten => ⟨12, 1, rc64⟩
  | .mgtPlogWritten => ⟨12, 1, rc64⟩
  | .mgtPlogSuppressed => ⟨12, 1, rc64⟩
  | .mgtImageRefused => ⟨12, 1, rc64⟩
  | .mgtAttests => ⟨12, 1, rc64⟩
  | .collStozilStatus => ⟨6, 1, [⟨0, 5, .ro, 0⟩, ⟨5, 5, .ro, 0⟩]⟩
  | .collStozilDone => ⟨6, 1, rc64⟩
  | .collStozilNoPair => ⟨6, 1, rc64⟩
  | .collStozilDupDrop => ⟨6, 1, rc64⟩
  | .collStozilSerialRefused => ⟨6, 1, rc64⟩
  | .collStozilPortRefused => ⟨6, 1, rc64⟩

/-- The registers of every window, in the order of first appearance. -/
def Reg.all : List Reg :=
  [Reg.mgtMemarbShare, Reg.tickConfig, Reg.tickCount, Reg.tickStatus, Reg.tickOffset, Reg.tickHoldLimit, Reg.tickTsosMiss, Reg.tickParentChanges] ++
  [Reg.portMode, Reg.laneStatus, Reg.laneFecCw, Reg.laneFecCorrCw, Reg.laneFecCorrSym, Reg.laneFecUncorrCw, Reg.laneFecMaxSym, Reg.laneLossEvents] ++
  [Reg.portLinkStatus, Reg.laneRetireCfg, Reg.routeSeed, Reg.routePlanId, Reg.routeStatus, Reg.routePortState, Reg.routeTrunkStatus, Reg.routeCapacity] ++
  [Reg.routeViaRedraw, Reg.routeViaNone, Reg.routeUnroutable, Reg.routeC7Detour, Reg.routeHeldDrop, Reg.routeHedgeDrop, Reg.routeLateDrop, Reg.routeLsNotices] ++
  [Reg.portBufClass, Reg.schedConfig, Reg.schedC7Reserve, Reg.schedClassWeight, Reg.portClassProfile, Reg.portDropProfile, Reg.portMeter, Reg.portRxFrames] ++
  [Reg.portTxFrames, Reg.portTxCells, Reg.portFrameErr, Reg.portCreditViol, Reg.portHdrDrop, Reg.portCheckDrop, Reg.portHopCrcDrop, Reg.portE2eCrcDrop] ++
  [Reg.portRedDrop, Reg.portTailDrop, Reg.portPoolDrop, Reg.portMarked, Reg.portCreditStall, Reg.portFlushDrop, Reg.schedPlanLate, Reg.schedC7Excess] ++
  [Reg.schedC7Oversize, Reg.poolConfig, Reg.poolFree, Reg.poolLowWater, Reg.poolQuota, Reg.poolBind, Reg.poolAllocOk, Reg.poolEmptyFail] ++
  [Reg.poolQuotaFail, Reg.poolSpilled, Reg.poolFreeOk, Reg.poolBadPointer, Reg.poolFreeNotAlloc, Reg.poolFreeNotOwner, Reg.poolUnderflow, Reg.poolOverflow] ++
  [Reg.poolReclaimed, Reg.engArithSeverity, Reg.engExcCount, Reg.engFlushCount, Reg.engSrSeed, Reg.engState, Reg.engTileStatus, Reg.engStealCfg] ++
  [Reg.engOverrunCfg, Reg.engJobsDone, Reg.engStolenIn, Reg.engStolenOut, Reg.engOverrun, Reg.engBubbleDefer, Reg.engCheckErr, Reg.engTestFail] ++
  [Reg.engNcuLate, Reg.engBenchFallback, Reg.collBenchCfg, Reg.collBenchStatus, Reg.collInstancesDone, Reg.collAbsorbed, Reg.collMergeSkip, Reg.collDupDrop] ++
  [Reg.collWindowDrop, Reg.collContribBad, Reg.collOverlap, Reg.collCheckFail, Reg.collNoBench, Reg.collFallback, Reg.collTimeout, Reg.collAborted] ++
  [Reg.collReplayed, Reg.collMemberLost, Reg.collHedgedMember, Reg.paramUpdateCfg, Reg.paramBlocks, Reg.paramPieces, Reg.paramLateInstance, Reg.paramStepDiscarded] ++
  [Reg.paramUpdates, Reg.paramUpdateFailed, Reg.paramPublished, Reg.paramFetchServed, Reg.paramFetchRefused, Reg.paramHoldDropped, Reg.paramReleaseUnheld, Reg.stashCfg] ++
  [Reg.stashMark, Reg.stashSpans, Reg.stashEntries, Reg.stashCreated, Reg.stashDropped, Reg.stashPutSegments, Reg.stashGetSegments, Reg.stashFullCount] ++
  [Reg.stashPutExpired, Reg.stashGetEnded, Reg.stashHolderLost, Reg.stashDamagedCount, Reg.stashReclaimed, Reg.stashMarked, Reg.mgtMboxState, Reg.mgtMboxCommands] ++
  [Reg.mgtMboxDbBad, Reg.mgtMboxBadSlot, Reg.mgtMboxAccessBad, Reg.mgtEventDrop, Reg.mgtHostDrop, Reg.mgtBringupStatus, Reg.mgtBringupCfg, Reg.pwrStatus] ++
  [Reg.pwrCap, Reg.pwrCapCfg, Reg.pwrEstCfg, Reg.pwrEstCoef, Reg.pwrCfg, Reg.pwrPhaseOp, Reg.pwrVtable, Reg.pwrTileStatus] ++
  [Reg.pwrBubbles, Reg.pwrCapUnmet, Reg.pwrUntrusted, Reg.pwrDroopEvents, Reg.pwrFreqChanges, Reg.pwrFreqDefer, Reg.pwrThermalSteps, Reg.pwrRailFault] ++
  [Reg.fltStatus, Reg.fltTileStatus, Reg.fltSeverity0, Reg.fltSeverity1, Reg.fltTopCapture, Reg.fltTileCapture, Reg.fltSafe, Reg.fltHeadless] ++
  [Reg.fltInjectTarget, Reg.fltInjectResult, Reg.fltMcCfg, Reg.fltMcCtrl, Reg.fltMcStatus, Reg.fltEvents, Reg.fltLogSuppressed, Reg.fltSramCe] ++
  [Reg.fltMcCe, Reg.fltInjectRounds, Reg.fltInjectFail, Reg.fltSafeEntries, Reg.mgtFwStatus, Reg.mgtLogCfg, Reg.mgtEventThresh, Reg.mgtEventSeq] ++
  [Reg.mgtSensor, Reg.mgtSensorCtrl, Reg.mgtEventsLogged, Reg.mgtEventOverwritten, Reg.mgtPlogWritten, Reg.mgtPlogSuppressed, Reg.mgtImageRefused, Reg.mgtAttests] ++
  [Reg.collStozilStatus, Reg.collStozilDone, Reg.collStozilNoPair, Reg.collStozilDupDrop, Reg.collStozilSerialRefused, Reg.collStozilPortRefused]

/-- The default levels of classes 0 to 27 (Table 16.1). -/
def defaultLevels : List Nat :=
  [1, 1, 2, 2, 2, 1, 1, 2, 3, 1, 3, 1, 1, 2, 2, 1, 3, 1, 3, 2, 3, 2, 1, 1, 2, 2, 1, 2]

/-- The lowest levels of classes 0 to 27 (Table 16.1). -/
def minimumLevels : List Nat :=
  [0, 0, 1, 1, 1, 0, 0, 1, 3, 0, 3, 0, 0, 1, 1, 0, 3, 0, 3, 1, 3, 1, 0, 0, 2, 1, 0, 2]

/-- The word that 3-bit levels make, from bit 0. -/
def levelWord (ls : List Nat) : Nat := ls.foldr (fun l w => l + 8 * w) 0

/-- The phase points of R354. -/
def defaultPhaseOps : List Nat := [7, 6, 6, 0, 4, 0, 0, 0]

/-- The word made of the reset values of the fields. -/
def fieldsReset (fs : List FieldDef) : Nat := fs.foldl (fun w f => w + f.rst * 2 ^ f.lo) 0

/-- The fields of one word of a register: word 3 of a drop profile and the two words of TICK_COUNT have maps
of their own (Table 6.6, Table 2.9). -/
def Reg.fieldsAt (r : Reg) (inst : Nat) : List FieldDef :=
  match r with
  | .portDropProfile => if inst % 4 = 3 then [⟨0, 18, .rw, 262143⟩, ⟨18, 1, .rw, 0⟩] else r.info.fields
  | .tickCount =>
    if inst = 0 then [⟨0, 64, .ro, 0⟩] else [⟨0, 12, .ro, 0⟩, ⟨12, 1, .ro, 0⟩, ⟨13, 1, .ro, 0⟩, ⟨14, 2, .ro, 1⟩]
  | r => r.info.fields

/-- The reset value of one word of a register, where the device stores it. -/
def Reg.resetWord (r : Reg) (inst : Nat) : Nat :=
  match r with
  | .portBufClass => if inst % 8 = 7 then 8192 + 16384 * 262144 else 4096 + 65536 * 262144
  | .portDropProfile => if inst % 4 = 3 then 262143 else 68719476735
  | .schedClassWeight => 0x4444444
  | .pwrPhaseOp => defaultPhaseOps.getD inst 0
  | .fltSeverity0 => levelWord (defaultLevels.take 21)
  | .fltSeverity1 => levelWord (defaultLevels.drop 21)
  | r => fieldsReset (r.fieldsAt inst)

end Sys2Proof.Machine
end

