-- ==== Sys2Proof/Machine/Ops.lean ====
section
/-! DEFINITION. The operations that every family shares: register words, free values and stamps, device memory, what
leaves the module, events and fault reports. -/

namespace Sys2Proof.Machine

/-- `n` rounded up to a multiple of `k`. -/
def roundUp (n k : Nat) : Nat := ceilDiv n k * k

/-! ## Register words -/

/-- The key under which a register word is stored. -/
def Reg.key (r : Reg) (i : Nat) : Nat := r.ctorIdx * 8192 + i

/-- The word last written, or the reset value (R10). -/
def State.reg (s : State) (r : Reg) (i : Nat := 0) : Nat := (s.regs.get? (r.key i)).getD (r.resetWord i)

/-- A field of the word in force. -/
def State.cfg (s : State) (r : Reg) (i lo width : Nat) : Nat := bits (s.reg r i) (lo + width - 1) lo

/-- A word stored. -/
def State.setReg (s : State) (r : Reg) (i v : Nat) : State := { s with regs := s.regs.set (r.key i) v }

/-- The width of a counter. -/
def Reg.counterWidth (r : Reg) : Nat := (r.info.fields.head?.map FieldDef.width).getD 64

/-- A counter raised by `n`; it saturates at its width (R70, R128, R151, R169). -/
def State.bump (s : State) (r : Reg) (i : Nat := 0) (n : Nat := 1) : State :=
  s.setReg r i (min (s.reg r i + n) (2 ^ r.counterWidth - 1))

/-- The tick keeper runs (R36). -/
def State.ticking (s : State) : Bool := s.tick.state != 0

/-! ## Configuration read from registers -/

/-- Period code in force (R33). -/
def State.period (s : State) : Nat := bits (s.reg .tickConfig) 1 0
/-- Picoseconds of a tick (Table 2.1). -/
def State.tickPs (s : State) : Nat := match s.period with | 0 => 1280000 | 2 => 5120000 | _ => 2560000
/-- root_priority (R36). -/
def State.rootPriority (s : State) : Nat := bits (s.reg .tickConfig) 9 2
/-- tick_enable (R36). -/
def State.tickEnable (s : State) : Bool := bit (s.reg .tickConfig) 10
/-- Port mode: 0 P8, 1 P4, 2 P2 (R60). -/
def State.portMode (s : State) : Nat := bits (s.reg .portMode) 1 0
/-- Lanes per port (Table 3.3). -/
def State.nominal (s : State) : Nat := match s.portMode with | 0 => 8 | 1 => 4 | _ => 2
/-- Ports of the module in its mode (R8). -/
def State.portCount (s : State) : Nat := Config.lanes / s.nominal
/-- The port of a lane (R14). -/
def State.portOf (s : State) (lane : Nat) : Nat := lane / s.nominal
/-- The lanes of a port (R14). -/
def State.lanesOf (s : State) (p : Nat) : List Nat := rangeFrom (p * s.nominal) s.nominal
/-- The base tile of a port (R14). -/
def State.tileOf (s : State) (p : Nat) : Nat := p * s.nominal / 128
/-- This module's node ID in the loaded plan. -/
def State.me (s : State) : Nat := (s.topo.plan.map Plan.this).getD 0xFFFF
/-- The tick keeper is in SYNCED, SLEWING or ROOT. -/
def State.live (s : State) : Bool := s.tick.state == 3 || s.tick.state == 4 || s.tick.state == 7
/-- The safe state is in force (R374). -/
def State.isSafe (s : State) : Bool := s.flt.safe.isSome

/-! ## Free values and stamps -/

/-- The number of the next free value, and the state after drawing it. -/
def State.draw (s : State) : Nat × State := (s.fresh, { s with fresh := s.fresh + 1 })

/-- Bits 79:76 of a timestamp now (Table 2.3). -/
def State.stampFlags (s : State) : Nat := b2n s.live + 2 * b2n (s.tick.state == 5) + 4 * s.period

/-- The timestamp of the present moment (R38). Its sub-tick is a free value. -/
def State.stamp (s : State) : Stamp := ⟨s.tick.counter, some s.fresh, s.stampFlags⟩

/-- The moment's free sub-tick has been used. -/
def State.stamped (s : State) : State := { s with fresh := s.fresh + 1 }

/-- The sub-tick of a stamp. -/
def Stamp.sub (t : Stamp) : Nat := (t.draw.map fun d => (Config.freeSub d).toNat).getD 0

/-- The ten bytes of a stamp (R38). -/
def Stamp.bytes (t : Stamp) : List Byte := leBytes 8 t.tick ++ leBytes 2 (t.sub + t.flags * 4096)

/-! ## What leaves the module -/

/-- `o` leaves the module. -/
def State.emit (s : State) (o : Out) : State := { s with out := o :: s.out }

/-! ## Device memory and base SRAM -/

/-- The canonical form: addresses strictly rising and no listed byte zero. -/
abbrev Memory.wf (m : List Host.Cell) : Prop :=
  (m.map Prod.fst).Pairwise (· < ·) ∧ ∀ c ∈ m, c.2 ≠ 0

/-- The byte at an address; an unlisted address reads zero (DESIGN CHOICE, log entry 2). -/
def Memory.read (m : List Host.Cell) (a : Nat) : Byte := (NMap.get? m a).getD 0

/-- One byte written: a zero removes the entry. -/
def Memory.write (m : List Host.Cell) (a : Nat) (b : Byte) : List Host.Cell :=
  if b = 0 then NMap.erase m a else NMap.set m a b

/-- Bytes written from an address up. -/
def Memory.writes (m : List Host.Cell) : Nat → List Byte → List Host.Cell
  | _, [] => m
  | a, b :: bs => Memory.writes (Memory.write m a b) (a + 1) bs

/-- What is left of an undefined range when `n` bytes from `a` have been written. -/
def cutRange (a n : Nat) (r : Nat × Nat × Nat) : List (Nat × Nat × Nat) :=
  if n = 0 ∨ a + n ≤ r.1 ∨ r.1 + r.2.1 ≤ a then [r]
  else
    (if r.1 < a then [(r.1, a - r.1, r.2.2)] else []) ++
    (if a + n < r.1 + r.2.1 then [(a + n, r.1 + r.2.1 - (a + n), r.2.2)] else [])

/-- The address lies in a range. -/
def rangeHas (a : Nat) (r : Nat × Nat × Nat) : Bool := decide (r.1 ≤ a) && decide (a < r.1 + r.2.1)

/-- The byte that a read of an address gives: a free value where the spec calls it undefined (R207, R251). -/
def State.byte (s : State) (a : Nat) : Byte :=
  match s.undef.find? (rangeHas a) with
  | some r => Config.freeByte r.2.2 a
  | none => Memory.read s.mem a

/-- The bytes at `n` addresses from `a`. -/
def State.readMem (s : State) (a n : Nat) : List Byte := (rangeFrom a n).map s.byte

/-- Bytes written to device memory or base SRAM; in the safe state the write gates are closed (R374, R375). -/
def State.writeMem (s : State) (a : Nat) (bs : List Byte) : State :=
  if s.isSafe then s
  else { s with mem := Memory.writes s.mem a bs, undef := s.undef.flatMap (cutRange a bs.length) }

/-- A range cleared. -/
def State.clearMem (s : State) (a n : Nat) : State :=
  { s with mem := s.mem.filter fun c => c.1 < a || a + n ≤ c.1
           undef := s.undef.flatMap (cutRange a n) }

/-- A range whose bytes the spec calls undefined from now on (R207, R251). -/
def State.undefine (s : State) (a n : Nat) : State :=
  { s with fresh := s.fresh + 1, undef := (a, n, s.fresh) :: s.undef.flatMap (cutRange a n) }

/-- All that a read of device memory or base SRAM can depend on. -/
def State.memory (s : State) : List Host.Cell × List (Nat × Nat × Nat) := (s.mem, s.undef)

/-- Base SRAM of tile `k` (Table 1.5). -/
def sramBase (k : Nat) : Nat := 0x4000000000000000 + k * 0x08000000

/-- Memory channels in service. -/
def State.channel (s : State) (c : Nat) : ChannelSt := s.flt.channels.getD c {}

/-- Channels retired in all (R330). -/
def State.channelsRetired (s : State) : Nat := s.mgt.channels.length

/-- Usable LPDDR5X bytes (R17, R330). -/
def State.usable (s : State) : Nat := Config.usableBytes - s.channelsRetired * Config.channelBytes

/-- An address range lies inside one row of Table 1.5 (R27). -/
def State.addrOk (s : State) (a n : Nat) : Bool :=
  a + n ≤ s.usable ||
  (0x4000000000000000 ≤ a && a + n ≤ 0x4000000000000000 + 8 * 0x08000000) ||
  (0x5000000000000000 ≤ a && a + n ≤ 0x5000000000000000 + 0x800000) ||
  (0x5000000001000000 ≤ a && a + n ≤ 0x5000000001000000 + 0x100000) ||
  (0x6000000000000000 ≤ a && a + n ≤ 0x6000000000000000 + 0x10000000) ||
  (0x7000000000000000 ≤ a && a + n ≤ 0x7000000000000000 + 0x10000000)

/-! ## Events -/

/-- An event is sent on one mailbox whose events flag is set and whose threshold it reaches; without a posted receive
it is dropped and counted (R310). -/
def State.sendEvent (s : State) (e : Event) (m : Nat) : State :=
  let mb := s.host.mboxes.getD m {}
  if mb.qp.isSome && mb.events && decide (bits (s.reg .mgtEventThresh m) 2 0 ≤ e.severity) then
    let s' := s.stamped
    if Config.recvPosted s.fresh then s'.emit (.eventSend m e) else s'.bump .mgtEventDrop
  else s

/-- A record entered in the on-chip ring (R395). -/
def State.logOnChip (s : State) (e : Event) : State :=
  let full := decide (65536 ≤ s.mgt.log.length)
  let s := if full then s.bump .mgtEventOverwritten else s
  let kept := if full then s.mgt.log.drop 1 else s.mgt.log
  { s with mgt := { s.mgt with log := kept ++ [e] } }.bump .mgtEventsLogged

/-- A record written to the persistent ring, whatever the rate (R397). -/
def State.logPersist (s : State) (e : Event) : State :=
  let kept := if 245760 ≤ s.mgt.plog.length then s.mgt.plog.drop 1 else s.mgt.plog
  { s with mgt := { s.mgt with plog := kept ++ [e] } }.bump .mgtPlogWritten

/-- A record at or above persist_threshold goes to the persistent ring within its rate (R396). -/
def State.logPersistRated (s : State) (e : Event) : State :=
  if e.severity < bits (s.reg .mgtLogCfg) 2 0 then s
  else if s.mgt.tokens = 0 then s.bump .mgtPlogSuppressed
  else { s with mgt := { s.mgt with tokens := s.mgt.tokens - 1 } }.logPersist e

/-- The management pair runs Varmon: from STANDBY, not headless, not FAILED with reason 1 (R329, R411). -/
def State.managed (s : State) : Bool :=
  decide (2 ≤ s.boot.phase) && !s.flt.headless && !(s.boot.phase == 15 && s.boot.failReason == 1)

/-- An event raised (R392–R396, R310). Nothing is logged while the management pair does not run. -/
def State.event (s : State) (severity source code : Nat) (data : List Byte) (status : Nat := 0) (master : Nat := 0) :
    State :=
  if s.managed then
    let e : Event := { seq := s.mgt.seq, stamp := s.stamp, severity := severity, source := source, code := code,
                       status := status, master := master, epoch := s.boot.epoch % 2 ^ 32, data := data }
    let s := s.stamped
    let s := { s with mgt := { s.mgt with seq := s.mgt.seq + 1 } }
    let s := (s.logOnChip e).logPersistRated e
    (s.host.mboxes.keys).foldl (fun s m => s.sendEvent e m) s
  else s

/-! ## Fault reports -/

/-- A checker reports to its collector; the collectors react when the command's own effect is complete (R370). -/
def State.report (s : State) (rep : FaultRep) (injected : Bool := false) : State :=
  { s with flt := { s.flt with todo := s.flt.todo ++ [(rep, injected)] } }

/-- Master ID of a unit (R28). -/
def masterId (cls die unit : Nat) : Nat := cls * 4096 + die * 256 + unit

/-- The class of a master ID (R28). -/
def masterClass (m : Nat) : Nat := m / 4096

/-! ## Outcomes -/

/-- The outcome of a physical event of a unit: a fault where the module has no such unit. -/
def onUnit (ok : Bool) (s : State) : Host.Outcome State Fault Refusal :=
  if ok then .next s else .fault .noSuchUnit

end Sys2Proof.Machine
end

