-- ==== Sys2Proof/Machine/Operands.lean ====
section
/-! DEFINITION. Status codes (Table 13.8), opcodes and their properties (Table 4.6), the bytes of frames, and the
reading of commands' references. -/

namespace Sys2Proof.Machine

/-! ## Status catalogue (Table 13.8) -/

/-- OK -/
abbrev Status.ok : Nat := 0x0000
/-- UNKNOWN_COMMAND -/
abbrev Status.unknownCommand : Nat := 0x0001
/-- BAD_SLOT -/
abbrev Status.badSlot : Nat := 0x0002
/-- DESC_INVALID -/
abbrev Status.descInvalid : Nat := 0x0003
/-- NOT_PERMITTED -/
abbrev Status.notPermitted : Nat := 0x0004
/-- OP_BUSY -/
abbrev Status.opBusy : Nat := 0x0005
/-- CAPACITY_EXCEEDED -/
abbrev Status.capacityExceeded : Nat := 0x0006
/-- CONTEXT_FULL -/
abbrev Status.contextFull : Nat := 0x0007
/-- CONTEXT_STALE -/
abbrev Status.contextStale : Nat := 0x0008
/-- JOBS_ACTIVE -/
abbrev Status.jobsActive : Nat := 0x0009
/-- JOB_UNKNOWN -/
abbrev Status.jobUnknown : Nat := 0x000A
/-- FUNCTION_DISABLED -/
abbrev Status.functionDisabled : Nat := 0x000B
/-- DRAINED -/
abbrev Status.drained : Nat := 0x000C
/-- CANCELLED -/
abbrev Status.cancelled : Nat := 0x000D
/-- NOT_CANCELLABLE -/
abbrev Status.notCancellable : Nat := 0x000E
/-- REG_REFUSED -/
abbrev Status.regRefused : Nat := 0x000F
/-- NOT_READY -/
abbrev Status.notReady : Nat := 0x0010
/-- ABORTED -/
abbrev Status.aborted : Nat := 0x0011
/-- ALREADY_COMPLETE -/
abbrev Status.alreadyComplete : Nat := 0x0012
/-- HEDGED -/
abbrev Status.hedged : Nat := 0x0013
/-- REF_FAILED -/
abbrev Status.refFailed : Nat := 0x0014
/-- TICK_PASSED -/
abbrev Status.tickPassed : Nat := 0x0100
/-- TICK_UNSYNCED -/
abbrev Status.tickUnsynced : Nat := 0x0101
/-- TICK_TOO_FAR -/
abbrev Status.tickTooFar : Nat := 0x0102
/-- PLAN_INVALID -/
abbrev Status.planInvalid : Nat := 0x0103
/-- WRAP_CONFLICT -/
abbrev Status.wrapConflict : Nat := 0x0104
/-- NOT_DISCOVERED -/
abbrev Status.notDiscovered : Nat := 0x0105
/-- POOL_EMPTY -/
abbrev Status.poolEmpty : Nat := 0x0200
/-- QUOTA_EXCEEDED -/
abbrev Status.quotaExceeded : Nat := 0x0201
/-- SIZE_UNSUPPORTED -/
abbrev Status.sizeUnsupported : Nat := 0x0202
/-- BAD_POINTER -/
abbrev Status.badPointer : Nat := 0x0203
/-- FREE_NOT_ALLOCATED -/
abbrev Status.freeNotAllocated : Nat := 0x0204
/-- FREE_NOT_OWNER -/
abbrev Status.freeNotOwner : Nat := 0x0205
/-- REFCOUNT_UNDERFLOW -/
abbrev Status.refcountUnderflow : Nat := 0x0206
/-- REFCOUNT_OVERFLOW -/
abbrev Status.refcountOverflow : Nat := 0x0207
/-- QUOTA_INVALID -/
abbrev Status.quotaInvalid : Nat := 0x0208
/-- POOL_BUSY -/
abbrev Status.poolBusy : Nat := 0x0209
/-- INVALID_PRODUCT -/
abbrev Status.invalidProduct : Nat := 0x0300
/-- INVALID_SUM -/
abbrev Status.invalidSum : Nat := 0x0301
/-- ARITH_OVERFLOW -/
abbrev Status.arithOverflow : Nat := 0x0302
/-- NAN_INPUT -/
abbrev Status.nanInput : Nat := 0x0303
/-- PROGRAM_INVALID -/
abbrev Status.programInvalid : Nat := 0x0400
/-- PROGRAM_BUSY -/
abbrev Status.programBusy : Nat := 0x0401
/-- ENGINE_FAULT -/
abbrev Status.engineFault : Nat := 0x0402
/-- NO_BENCH -/
abbrev Status.noBench : Nat := 0x0500
/-- MEMBER_TIMEOUT -/
abbrev Status.memberTimeout : Nat := 0x0501
/-- MEMBER_LOST -/
abbrev Status.memberLost : Nat := 0x0502
/-- CHECK_MISMATCH -/
abbrev Status.checkMismatch : Nat := 0x0503
/-- CONTRIB_OVERLAP -/
abbrev Status.contribOverlap : Nat := 0x0504
/-- REPLAYED -/
abbrev Status.replayed : Nat := 0x0505
/-- STOZIL_DISABLED -/
abbrev Status.stozilDisabled : Nat := 0x0506
/-- STOZIL_MIXED -/
abbrev Status.stozilMixed : Nat := 0x0507
/-- BLOCK_UNKNOWN -/
abbrev Status.blockUnknown : Nat := 0x0600
/-- BLOCK_STATE -/
abbrev Status.blockState : Nat := 0x0601
/-- VERSION_HELD -/
abbrev Status.versionHeld : Nat := 0x0602
/-- VERSION_GONE -/
abbrev Status.versionGone : Nat := 0x0603
/-- VERSION_NOT_READY -/
abbrev Status.versionNotReady : Nat := 0x0604
/-- STEP_DISCARDED -/
abbrev Status.stepDiscarded : Nat := 0x0605
/-- STASH_NOT_RESERVED -/
abbrev Status.stashNotReserved : Nat := 0x0700
/-- STASH_FULL -/
abbrev Status.stashFull : Nat := 0x0701
/-- STASH_EXISTS -/
abbrev Status.stashExists : Nat := 0x0702
/-- STASH_NO_ENTRY -/
abbrev Status.stashNoEntry : Nat := 0x0703
/-- STASH_NOT_READY -/
abbrev Status.stashNotReady : Nat := 0x0704
/-- STASH_TOO_LARGE -/
abbrev Status.stashTooLarge : Nat := 0x0705
/-- STASH_MISMATCH -/
abbrev Status.stashMismatch : Nat := 0x0706
/-- STASH_DAMAGED -/
abbrev Status.stashDamaged : Nat := 0x0707
/-- IMAGE_INVALID -/
abbrev Status.imageInvalid : Nat := 0x0800
/-- SIGNATURE_BAD -/
abbrev Status.signatureBad : Nat := 0x0801
/-- ROLLBACK_REFUSED -/
abbrev Status.rollbackRefused : Nat := 0x0802

/-! ## Opcodes (Table 4.6) -/

abbrev Op.ack : Nat := 0x01
abbrev Op.redContrib : Nat := 0x10
abbrev Op.redPartial : Nat := 0x11
abbrev Op.redResult : Nat := 0x12
abbrev Op.collData : Nat := 0x13
abbrev Op.collComplete : Nat := 0x14
abbrev Op.collAbort : Nat := 0x15
abbrev Op.collMcast : Nat := 0x16
abbrev Op.weightFetch : Nat := 0x20
abbrev Op.weightData : Nat := 0x21
abbrev Op.weightMcast : Nat := 0x22
abbrev Op.versionRelease : Nat := 0x23
abbrev Op.stashPut : Nat := 0x30
abbrev Op.stashGet : Nat := 0x31
abbrev Op.stashData : Nat := 0x32
abbrev Op.stashDrop : Nat := 0x33
abbrev Op.stashReply : Nat := 0x34
abbrev Op.engJobIn : Nat := 0x40
abbrev Op.engJobOut : Nat := 0x41
abbrev Op.fence : Nat := 0x50
abbrev Op.fenceDone : Nat := 0x51
abbrev Op.barrierArrive : Nat := 0x52
abbrev Op.barrierRelease : Nat := 0x53
abbrev Op.mgmt : Nat := 0x60
abbrev Op.discovery : Nat := 0x61
abbrev Op.tickAnnounce : Nat := 0x62
abbrev Op.groupSetup : Nat := 0x63
abbrev Op.stozil : Nat := 0x70

/-- The opcodes that are not reserved. -/
def opcodes : List Nat :=
  [0x01, 0x10, 0x11, 0x12, 0x13, 0x14, 0x15, 0x16, 0x20, 0x21, 0x22, 0x23, 0x30, 0x31, 0x32, 0x33, 0x34,
   0x40, 0x41, 0x50, 0x51, 0x52, 0x53, 0x60, 0x61, 0x62, 0x63, 0x70]
/-- Opcodes that carry the extension (R89). -/
def extOpcodes : List Nat := [0x10, 0x11, 0x12, 0x13, 0x16]
/-- Opcodes that may use class 7. -/
def class7Opcodes : List Nat := [0x01, 0x50, 0x51, 0x52, 0x53, 0x61, 0x62]
/-- Opcodes that their receiver does not acknowledge. -/
def unackedOpcodes : List Nat := [0x01, 0x50, 0x51, 0x53, 0x61, 0x62]
/-- Opcodes that only a module's internal endpoints send. -/
def nodeOpcodes : List Nat := [0x11, 0x12, 0x14, 0x16, 0x21, 0x22, 0x32, 0x34, 0x41, 0x53, 0x61, 0x62, 0x63]
/-- Multicast opcodes. -/
def mcastOpcodes : List Nat := [0x16, 0x22, 0x53]
/-- The opcode is acknowledged. -/
def acked (op : Nat) : Bool := !unackedOpcodes.contains op

/-- The internal endpoints' base ID (R29). -/
abbrev epBase : Nat := 0xFFF0
/-- An endpoint ID is internal. -/
def internalEp (ep : Nat) : Bool := decide (0xFFF0 ≤ ep)

/-! ## A frame's bytes -/

/-- The header's 32 bytes (Table 4.3). -/
def hdrBytes (h : Hdr) : List Byte :=
  leBytes 1 (h.version % 16 + 16 * b2n h.ext + 32 * b2n h.retx + 64 * (h.rsv % 4)) ++
  leBytes 1 h.opcode ++
  leBytes 1 (h.cls % 8 + 8 * (h.vc % 8) + 64 * (h.colour % 4)) ++
  leBytes 1 (h.ttl % 64 + 64 * (h.phase % 2) + 128 * b2n h.cong) ++
  leBytes 2 h.dstNode ++ leBytes 2 h.dstEp ++ leBytes 2 h.srcNode ++ leBytes 2 h.srcEp ++ leBytes 2 h.via ++
  leBytes 2 (h.job % 4096 + 4096 * b2n h.sys + 8192 * (h.rsv / 4 % 8)) ++
  leBytes 1 h.units ++ leBytes 1 (b2n h.last + 2 * (h.rsv / 32)) ++
  leBytes 2 h.srcRank ++ leBytes 4 h.seq ++ leBytes 4 h.opId ++ leBytes 4 h.position

/-- The extension's 16 bytes (Table 4.4). -/
def extensionBytes (e : Ext) : List Byte :=
  leBytes 4 e.checkSum.toNat ++ leBytes 4 e.checkMag.toNat ++ leBytes 2 e.member ++ leBytes 2 e.contributors ++
  leBytes 1 e.format ++ leBytes 1 e.flags ++ leBytes 2 e.flushed

/-- The bytes of an extension that may be absent. -/
def extBytes : Option Ext → List Byte
  | none => []
  | some e => extensionBytes e

/-- The header with every mutable field zero (R90). -/
def hdrFixed (h : Hdr) : Hdr := { h with vc := 0, colour := 0, ttl := 0, phase := 0, cong := false, via := 0 }

/-- e2e_crc (R90). -/
def e2eCrc (h : Hdr) (e : Option Ext) (payload : List Byte) : Nat := crc32c (hdrBytes (hdrFixed h) ++ extBytes e ++ payload)

/-- hop_crc (R90). -/
def hopCrc (h : Hdr) (e : Option Ext) (payload : List Byte) (e2e : Nat) : Nat :=
  crc32c (hdrBytes h ++ extBytes e ++ payload ++ leBytes 4 e2e)

/-- A frame's length in bytes (R88). -/
def frameLength (h : Hdr) : Nat := 32 + (if h.ext then 16 else 0) + h.units * 64 + 8
/-- Cells of 512 B (R130). -/
def frameCells (h : Hdr) : Nat := ceilDiv (frameLength h) 512
/-- Credit in 64 B units (R87). -/
def frameCredit (h : Hdr) : Nat := ceilDiv (frameLength h) 64

/-- The rank's address in a job's translation table (R96). -/
def JobSt.addr (j : JobSt) (rank : Nat) : Option (Nat × Nat) := j.table[rank]?
/-- The first rank that lives at an address. -/
def JobSt.rankOf (j : JobSt) (node ep : Nat) : Option Nat := j.table.findIdx? (· == (node, ep))

/-- A member, as (node, endpoint), that is an external endpoint of this module. -/
def State.isLocal (s : State) (node ep : Nat) : Bool := node == s.me && !internalEp ep

end Sys2Proof.Machine
end

