-- ==== Sys2Proof/Machine/Work.lean ====
section
/-! DEFINITION. Flow contexts (R19, R221, R321), device memory taken by blocks, stash and P4 (R19, R31), and the work that a
disable of a function waits for (R323, R324). -/

namespace Sys2Proof.Machine

/-! ## Flow contexts -/

/-- Kinds of holder of a flow context. -/
abbrev Use.chunk : Nat := 1
abbrev Use.coll : Nat := 2
abbrev Use.barrier : Nat := 3
abbrev Use.program : Nat := 4
abbrev Use.block : Nat := 5
abbrev Use.stash : Nat := 6
abbrev Use.stozil : Nat := 7

/-- The free runs (first, length) between obstacles (first, length) in rising order, from `a` up to `limit`. -/
def gaps (limit : Nat) : Nat → List (Nat × Nat) → List (Nat × Nat)
  | a, [] => if a < limit then [(a, limit - a)] else []
  | a, o :: os =>
    let rest := gaps limit (max a (o.1 + o.2)) os
    if a < o.1 then (a, min o.1 limit - a) :: rest else rest

/-- `n` units taken from the front of free runs; none where there are too few. -/
def takeRuns : Nat → List (Nat × Nat) → Option (List (Nat × Nat))
  | 0, _ => some []
  | _ + 1, [] => none
  | n + 1, r :: rs =>
    if n + 1 ≤ r.2 then some [(r.1, n + 1)]
    else (takeRuns (n + 1 - r.2) rs).map fun l => r :: l

/-- Every unit of a list of runs. -/
def runsList (rs : List (Nat × Nat)) : List Nat := rs.flatMap fun r => rangeFrom r.1 r.2

/-- Runs in rising order. -/
def sortRuns (rs : List (Nat × Nat)) : List (Nat × Nat) := rs.mergeSort fun a b => decide (a.1 ≤ b.1)

/-- Flow contexts that are free and in no job's range, as runs (R321). -/
def State.freeCtxs (s : State) : List (Nat × Nat) :=
  gaps Config.contexts 0 (sortRuns ((s.host.jobs.vals.map fun j => (j.ctxBase, j.ctxCount)) ++
    (s.stash.res.vals.flatMap StashRes.ctxs) ++ (s.ctxUse.keys.map fun n => (n, 1))))

/-- A free context for the device's own use (R321): the lowest (DESIGN CHOICE, log entry 20). -/
def State.freeCtx (s : State) : Option Nat := s.freeCtxs.head?.map Prod.fst

/-- A context taken. -/
def State.useCtx (s : State) (n kind : Nat) : State := { s with ctxUse := s.ctxUse.set n kind }

/-- A context freed. -/
def State.dropCtx (s : State) (n : Nat) : State := { s with ctxUse := s.ctxUse.erase n }

/-- A context opened again: its generation advances. -/
def State.newGen (s : State) (n : Nat) : State :=
  { s with ctxGen := s.ctxGen.set n ((s.ctxGen.getD n 0 + 1) % 4096) }

/-- The op_id of a context's present generation (R88). -/
def State.opId (s : State) (n : Nat) : Nat := n + 1048576 * (s.ctxGen.getD n 0)

/-- The context index lies in the job's range (Table 10.5). -/
def JobSt.inRange (j : JobSt) (n : Nat) : Bool := decide (j.ctxBase ≤ n) && decide (n < j.ctxBase + j.ctxCount)

/-! ## Device memory (R19, R251) -/

/-- 512 KiB: the grain of blocks' regions and of the remap table. -/
abbrev grain : Nat := 524288

/-- 16 MiB: a span of the stash and a P4 sett. -/
abbrev span : Nat := 16777216

/-- Device memory taken: (address, bytes) of the context table, P4, the parameter blocks and the stash. -/
def State.taken (s : State) : List (Nat × Nat) :=
  (0, Config.contextBytes) ::
  (if s.pool.p4count = 0 then [] else [(s.pool.p4base, s.pool.p4count * span)]) ++
  (s.parm.blocks.vals.map fun b => (b.base, b.size)) ++
  (s.stash.res.vals.flatMap fun r =>
    (r.spans.map fun x => (x.1 * span, x.2 * span)) ++ r.borrowed.map fun n => (n * span, span))

/-- A row of Table 1.5 covers an address range (R27). A region placed before a channel retired in service stays covered (DEDUCED,
log entry 77). -/
def State.mapped (s : State) (a n : Nat) : Bool :=
  s.addrOk a n || s.taken.any fun r => decide (r.1 ≤ a) && decide (a + n ≤ r.1 + r.2)

/-- Free device memory in whole units of `u` bytes, as runs of unit numbers. -/
def State.freeUnits (s : State) (u : Nat) : List (Nat × Nat) :=
  gaps (s.usable / u) 0 (sortRuns (s.taken.map fun r => (r.1 / u, ceilDiv (r.1 + r.2) u - r.1 / u)))

/-- The lowest address, on a boundary of 512 KiB, from which `n` bytes are free (DESIGN CHOICE, log entry 21). -/
def State.findRoom (s : State) (n : Nat) : Option Nat :=
  ((s.freeUnits grain).find? fun r => decide (ceilDiv n grain ≤ r.2)).map fun r => r.1 * grain

/-- Device memory that a reservation takes: its spans less the extents lost with channels (R275, R278, R295). -/
def StashRes.bytes (r : StashRes) : Nat :=
  ((r.spans.map Prod.snd).sum + r.borrowed.length) * span - r.gone.length * 2 ^ r.extentLog2

/-- Device memory taken of what P4, blocks and the stash share (R19, R31). -/
def State.capacityTaken (s : State) : Nat :=
  s.pool.p4count * span + (s.parm.blocks.vals.map BlockSt.size).sum + (s.stash.res.vals.map StashRes.bytes).sum

/-- Capacity not yet taken of the R19 remainder. -/
def State.capacityLeft (s : State) : Nat := s.usable - Config.contextBytes - s.capacityTaken

/-! ## The interleave and its substitutes (R18, R383) -/

/-- The channel of interleave position `p`, the granule's number modulo 128, while every channel is in service: the order
alternates between base tiles (DESIGN CHOICE, log entry 28). -/
def naturalChannel (p : Nat) : Nat := 16 * (p % 8) + p / 8 % 16

/-- A channel's state changed. -/
def State.setChannel (s : State) (c : Nat) (f : ChannelSt → ChannelSt) : State :=
  { s with flt := { s.flt with channels := s.flt.channels.upd c {} f } }

/-- What shares one substitute: (first region, regions) of the context table, each P4 sett, each block, each reservation
(R383). -/
def State.backedUnits (s : State) : List (Nat × Nat) :=
  (0, Config.contextBytes / grain) ::
  ((List.range s.pool.p4count).map fun i => ((s.pool.p4base + i * span) / grain, span / grain)) ++
  (s.parm.blocks.vals.map fun b => (b.base / grain, ceilDiv b.size grain)) ++
  (s.stash.res.vals.filterMap fun r => r.spans.head?.map fun x =>
    (x.1 * span / grain, ((r.spans.map Prod.snd).sum + r.borrowed.length) * (span / grain)))

/-- Spill slots that a channel fills: one for each region that it backs and each retired channel (R383). -/
def State.spillOn (s : State) (c : Nat) : Nat :=
  ((s.backedUnits.filter fun u => s.flt.remap.get? u.1 == some c).map Prod.snd).sum * s.channelsRetired

/-- The channel in service with the most free spill slots, the lowest on a tie (R383). -/
def State.substitute (s : State) : Nat :=
  ((List.range 128).filter fun c => !s.mgt.channels.contains c).foldl (fun b c =>
    match b with
    | none => some c
    | some x => if s.spillOn c < s.spillOn x then some c else b) none |>.getD 0

/-- Every unit with a granule on a retired channel gets a substitute or keeps the one it has (R383); one whose substitute is
itself retired gets another (DESIGN CHOICE, log entry 56). -/
def State.assignSubstitutes (s : State) : State :=
  if s.mgt.channels.isEmpty then s
  else
    let units := s.backedUnits
    let kept : NMap Nat := s.flt.remap.filter fun kv =>
      units.any (fun u => u.1 == kv.1) && !s.mgt.channels.contains kv.2
    units.foldl (fun (s : State) u =>
      if (s.flt.remap.get? u.1).isSome then s
      else { s with flt := { s.flt with remap := s.flt.remap.set u.1 s.substitute } })
      { s with flt := { s.flt with remap := kept } }

/-- The channel on which interleave position `p` of the unit of storage that begins at `base` lies: the unit's substitute
where the position's own channel is retired (R18, R383). -/
def State.channelAt (s : State) (base p : Nat) : Nat :=
  let c := naturalChannel p
  if s.mgt.channels.contains c then (s.flt.remap.get? (base / grain)).getD s.substitute else c

/-- The base tile of a channel (R14), and the master ID of its NCU (R28). -/
def channelTile (c : Nat) : Nat := c / 16
def ncuMaster (c : Nat) : Nat := masterId 1 (c / 16) (c % 16)

/-! ## Functions (R323) -/

/-- The function is disabled for the job, or for the device. -/
def State.disabled (s : State) (f job : Nat) : Bool :=
  s.host.disables.any fun d => d.func == f && d.inEffect && (d.job == job || d.job == 65535)

/-- Work of a function in a job has ended while a disable drains: it finished, or was ended with DRAINED. -/
def State.workEnded (s : State) (f job : Nat) (drained : Bool) : State :=
  { s with host := { s.host with disables := s.host.disables.map fun d =>
      if d.func == f && d.inEffect && !d.done && (d.job == job || d.job == 65535) then
        (if drained then { d with drained := d.drained + 1 } else { d with finished := d.finished + 1 })
      else d } }

end Sys2Proof.Machine
end

