-- ==== Sys2Proof/Machine/Pools.lean ====
section
/-! DEFINITION. The buffer pool manager (chapter 7): layout of P0–P4, quotas, allocation with spill, the arbiters' cycle, free,
give and reference, and reclaiming at a job's end. -/

namespace Sys2Proof.Machine

/-- Bytes of a MiB. -/
abbrev mib : Nat := 1048576

/-- Sett size of a pool (Table 7.1). -/
def settSize : Nat → Nat
  | 0 => 512
  | 1 => 8192
  | 2 => 65536
  | 3 => 1048576
  | _ => 16777216

/-- MiB of each tile's staging in a pool P1–P3. -/
def PoolSt.mibOf (p : PoolSt) : Nat → Nat
  | 1 => p.p1
  | 2 => p.p2
  | 3 => p.p3
  | _ => 0

/-- Setts of P1–P3 on one tile. -/
def PoolSt.perTile (p : PoolSt) (k : Nat) : Nat := p.mibOf k * mib / settSize k

/-- Setts in a pool P1–P4. -/
def PoolSt.total (p : PoolSt) (k : Nat) : Nat := if k = 4 then p.p4count else 8 * p.perTile k

/-! ## P0: the cells of each tile's packet buffer (R134, R153) -/

/-- Cells of a tile's packet buffer (R134): 16 MiB units of 32,768 cells. -/
def State.bufCells (s : State) : Nat := ((s.boot.carving.map Carving.packet).getD 0) * 32768

/-- The allocated cells of a tile. -/
def State.tileCells (s : State) (tile : Nat) : NMap Sett :=
  s.pool.setts.filter fun x => x.2.pool == 0 && decide (sramBase tile ≤ x.1) &&
    decide (x.1 < sramBase tile + s.bufCells * 512)

/-- Free cells of a tile. -/
def State.cellsFree (s : State) (tile : Nat) : Nat := s.bufCells - (s.tileCells tile).length

/-- Free setts of P0 over the tiles (R168). -/
def State.p0Free (s : State) : Nat := ((List.range 8).map s.cellsFree).sum

/-- The addresses of `n` free cells of a tile, the lowest ones (DESIGN CHOICE, log entry 14); none where it has fewer. -/
def State.pickCells (s : State) (tile n : Nat) : Option (List Nat) :=
  (takeRuns n (gaps s.bufCells 0 ((s.tileCells tile).map fun x => ((x.1 - sramBase tile) / 512, 1)))).map fun rs =>
    (runsList rs).map fun i => sramBase tile + i * 512

/-- The fewest free setts of a pool noted. -/
def State.noteLow (s : State) (k free : Nat) (total : Nat) : State :=
  { s with pool := { s.pool with low := s.pool.low.set k (min (s.pool.low.getD k total) free) } }

/-- Cells handed to the switch datapath, each with a count (R147, R164). -/
def State.giveCells (s : State) (as : List Nat) (count : Nat) : State :=
  let s := { s with pool := { s.pool with
    setts := as.foldl (fun m a => NMap.set m a { pool := 0, owner := 0, count := count }) s.pool.setts } }
  (s.noteLow 0 s.p0Free (8 * s.bufCells)).bump .poolAllocOk 0 as.length

/-- Setts at default in a pool (Table 7.1), which the registers of Table 7.4 hold until SETUP.CARVE (R168). -/
def defaultSetts : Nat → Nat
  | 0 => 786432
  | 1 => 4096
  | 2 => 512
  | 3 => 64
  | _ => 1024

/-- The staging of a tile begins behind packet buffer and reduction memory (R22, Table 1.5). -/
def State.stagingBase (s : State) (tile : Nat) : Nat :=
  sramBase tile + (match s.boot.carving with
    | some c => (c.packet + c.reduction) * 16 * mib
    | none => 0)

/-- Where a pool's part of a tile begins (R154); P4 has one region. -/
def State.poolBase (s : State) (k tile : Nat) : Nat :=
  match k with
  | 1 => s.stagingBase tile
  | 2 => s.stagingBase tile + s.pool.p1 * mib
  | 3 => s.stagingBase tile + (s.pool.p1 + s.pool.p2) * mib
  | _ => s.pool.p4base

/-- The pool is in refcount mode (R162). -/
def State.refcount (s : State) (k : Nat) : Bool := k == 0 || bit s.pool.modes (k - 1)

/-- Allocated setts of a pool. -/
def State.allocated (s : State) (k : Nat) : Nat := (s.pool.setts.vals.filter fun x => x.pool == k).length

/-- Free setts of P1–P4. -/
def State.freeSetts (s : State) (k : Nat) : Nat := s.pool.total k - s.allocated k

/-- Setts of a pool charged to a requester. -/
def State.held (s : State) (r k : Nat) : Nat :=
  (s.pool.setts.vals.filter fun x => x.pool == k && x.owner == r).length

/-- min_setts and max_setts (R158); a requester without a quota has 0 and the whole pool. -/
def State.quota (s : State) (r k : Nat) : Nat × Nat :=
  s.pool.quotas.getD (r * 8 + k) (0, if s.boot.carving.isNone then defaultSetts k else s.pool.total k)

/-- The pool's reserve: what is still guaranteed (R158). -/
def State.reserveOf (s : State) (k : Nat) : Nat :=
  ((s.pool.quotas.filter fun q => q.1 % 8 == k).map fun q => q.2.1 - s.held (q.1 / 8) k).sum

/-- The quota rule for one more sett of a pool (R158): none where it is served. -/
def State.quotaRefusal (s : State) (r k : Nat) : Option Nat :=
  let q := s.quota r k
  let held := s.held r k
  if held < q.1 then none
  else if q.2 ≤ held then some Status.quotaExceeded
  else if s.reserveOf k < s.freeSetts k then none
  else some Status.poolEmpty

/-- The setts of one tile's part, or of P4, by address. -/
def State.settAddrs (s : State) (k tile : Nat) : List Nat :=
  (List.range (if k = 4 then s.pool.p4count else s.pool.perTile k)).map fun i => s.poolBase k tile + i * settSize k

/-- The free sett a request is served from: the preferred tile first, then the others rising and wrapping (R156); the
lowest address of the part (DESIGN CHOICE, log entry 14). -/
def State.pickSett (s : State) (k tile : Nat) : Option Nat :=
  let free := fun t => (s.settAddrs k t).find? fun a => (s.pool.setts.get? a).isNone
  if k = 4 then free 0 else (rotated 8 (tile % 8)).findSome? free

/-- The arbiter input of a unit, by its master ID (R159): its tile's, the RoCEv2 engine's, the management subsystem's. -/
def arbiterInput (m : Nat) : Nat :=
  if masterClass m = 8 then 8 else if masterClass m = 9 then 9 else m / 256 % 16 % 8

/-- The management subsystem and the switch datapath of a tile, as master IDs (R28). -/
def managementMaster : Nat := masterId 9 15 0
def switchMaster (tile : Nat) : Nat := masterId 2 tile 0

/-- A refused operation of unit `m`: an event, and a pool-integrity report (R165). -/
def State.poolRefused (s : State) (m op k r status addr : Nat) : State :=
  let s := s.event 1 0x05 0x0010
    (leBytes 1 op ++ leBytes 1 k ++ leBytes 2 r ++ leBytes 2 status ++ zeros 2 ++ leBytes 8 addr) status
  if r ≤ 25 ∧ [Status.freeNotAllocated, Status.freeNotOwner, Status.refcountUnderflow].contains status then
    s.report { cls := 13, master := m, addr := addr }
  else s

/-- The counter of a failure (Table 7.5). -/
def State.poolFail (s : State) (m op k r status addr : Nat) : State :=
  let s :=
    if status = Status.poolEmpty then s.bump .poolEmptyFail k
    else if status = Status.quotaExceeded then s.bump .poolQuotaFail k
    else if status = Status.badPointer then s.bump .poolBadPointer k
    else if status = Status.freeNotAllocated then s.bump .poolFreeNotAlloc k
    else if status = Status.freeNotOwner then s.bump .poolFreeNotOwner k
    else if status = Status.refcountUnderflow then s.bump .poolUnderflow k
    else if status = Status.refcountOverflow then s.bump .poolOverflow k
    else s
  s.poolRefused m op k r status addr

/-- The pools a request tries: the smallest fitting one, then the larger ones under spill (R155). -/
def poolsFor (size : Nat) (spill : Bool) : List Nat :=
  let fit := [1, 2, 3, 4].filter fun k => decide (size ≤ settSize k)
  if spill then fit else fit.take 1

/-- One pool serves or fails. -/
def State.serve (s : State) (r k tile : Nat) : Option Nat × Nat :=
  match s.quotaRefusal r k with
  | some st => (none, st)
  | none =>
    match s.pickSett k tile with
    | some a => (some a, Status.ok)
    | none => (none, Status.poolEmpty)

/-- The first pool that serves, or the failure of the last one tried, with that pool. -/
def State.tryPools (s : State) (r tile : Nat) : List Nat → Option (Nat × Nat) × Nat × Nat
  | [] => (none, Status.sizeUnsupported, 0)
  | k :: ks =>
    match s.serve r k tile with
    | (some a, _) => (some (a, k), Status.ok, k)
    | (none, st) => if ks.isEmpty then (none, st, k) else s.tryPools r tile ks

/-- A sett handed out to requester `r`, whose unit is `m`. -/
def State.grantSett (s : State) (m r k a : Nat) (spilled : Bool) : State :=
  let s := { s with pool := { s.pool with setts := s.pool.setts.set a { pool := k, owner := r },
                                          pointer := s.pool.pointer.set k ((arbiterInput m + 1) % 10) } }
  let s := (s.noteLow k (s.freeSetts k) (s.pool.total k)).bump .poolAllocOk k
  if spilled then s.bump .poolSpilled k else s

/-- The requester may hold setts of P1–P4 (Table 7.2). -/
def requesterOk (r : Nat) : Bool := decide (1 ≤ r) && decide (r ≤ 1023) && !(decide (27 ≤ r) && decide (r ≤ 63))

/-- A request for a cell of a tile (R153, R160). -/
def State.allocCell (s : State) (m tile : Nat) : Option (Nat × Nat) × Nat × State :=
  match s.pickCells tile 1 with
  | some (a :: _) => (some (a, 0), Status.ok, s.giveCells [a] 1)
  | _ => (none, Status.poolEmpty, s.poolFail m 1 0 0 Status.poolEmpty 0)

/-- An allocation request of unit `m` (R153, R155–R160): the address and pool, or a failure. -/
def State.alloc (s : State) (m r size tile : Nat) (spill : Bool) : Option (Nat × Nat) × Nat × State :=
  if r = 0 ∧ 0 < size ∧ size ≤ settSize 0 then s.allocCell m tile
  else if !requesterOk r || size = 0 || 16 * mib < size then
    (none, Status.sizeUnsupported, s.poolFail m 1 0 r Status.sizeUnsupported 0)
  else
    match s.tryPools r tile (poolsFor size spill) with
    | (some (a, k), _, _) => (some (a, k), Status.ok, s.grantSett m r k a (decide (poolsFor size spill ≠ []) &&
        k != (poolsFor size spill).headD 0))
    | (none, st, k) => (none, st, s.poolFail m 1 k r st 0)

/-- The base and the setts of a pool's part on a tile (R161). -/
def State.poolPart (s : State) (k tile : Nat) : Nat × Nat :=
  match k with
  | 0 => (sramBase tile, s.bufCells)
  | 4 => (s.pool.p4base, s.pool.p4count)
  | _ => (s.poolBase k tile, s.pool.perTile k)

/-- The pool in whose region an address lies, and whether it is a sett's address (R161). -/
def State.settAt (s : State) (a : Nat) : Option Nat × Bool :=
  let inPart := fun k t =>
    let r := s.poolPart k t
    decide (r.1 ≤ a) && decide (a < r.1 + r.2 * settSize k)
  match [0, 1, 2, 3, 4].findSome? fun k => ((List.range 8).find? (inPart k)).map fun t => (k, t) with
  | some (k, t) => (some k, (a - (s.poolPart k t).1) % settSize k == 0)
  | none => (none, false)

/-- A sett returned to its pool. -/
def State.returnSett (s : State) (a k : Nat) : State :=
  { s with pool := { s.pool with setts := s.pool.setts.erase a } }.bump .poolFreeOk k

/-- A failed operation on a sett. -/
def State.opFail (s : State) (m op k r st a : Nat) : Nat × State := (st, s.poolFail m op k r st a)

/-- A count changed. -/
def State.setCount (s : State) (a : Nat) (x : Sett) (n : Nat) : State :=
  { s with pool := { s.pool with setts := s.pool.setts.set a { x with count := n } } }

/-- A free by a requester, or in a refcount pool a release by 1 (R163, R164). -/
def State.free (s : State) (m r a : Nat) : Nat × State :=
  match s.settAt a with
  | (none, _) => s.opFail m 2 0 r Status.badPointer a
  | (some k, false) => s.opFail m 2 k r Status.badPointer a
  | (some k, true) =>
    match s.pool.setts.get? a with
    | none => if s.refcount k then s.opFail m 5 k r Status.refcountUnderflow a
              else s.opFail m 2 k r Status.freeNotAllocated a
    | some x =>
      if s.refcount k then
        if x.count ≤ 1 then (Status.ok, s.returnSett a k) else (Status.ok, s.setCount a x (x.count - 1))
      else if x.owner != r then s.opFail m 2 k r Status.freeNotOwner a
      else (Status.ok, s.returnSett a k)

/-- The recipient of a give may hold setts (R163). -/
def State.recipientOk (s : State) (r : Nat) : Bool :=
  requesterOk r && (decide (r < 64) || (s.pool.binds.get? r).isSome)

/-- A give (R163). -/
def State.give (s : State) (m r rcp a : Nat) : Nat × State :=
  match s.settAt a with
  | (none, _) => s.opFail m 3 0 r Status.badPointer a
  | (some k, false) => s.opFail m 3 k r Status.badPointer a
  | (some k, true) =>
    if s.refcount k then s.opFail m 3 k r Status.descInvalid a
    else if 1023 < rcp then s.opFail m 3 k r Status.descInvalid a
    else
      match s.pool.setts.get? a with
      | none => s.opFail m 3 k r Status.freeNotAllocated a
      | some x =>
        if x.owner != r then s.opFail m 3 k r Status.freeNotOwner a
        else if !s.recipientOk rcp then s.opFail m 3 k r Status.sizeUnsupported a
        else
          match s.quotaRefusal rcp k with
          | some st => s.opFail m 3 k r st a
          | none =>
            (Status.ok, { s with pool := { s.pool with setts := s.pool.setts.set a { x with owner := rcp } } })

/-- A reference or release by `n` (R164): status, count, state. -/
def State.reference (s : State) (n : Int) (m r a : Nat) : Nat × Nat × State :=
  let fail := fun k op st => ((s.opFail m op k r st a).1, 0, (s.opFail m op k r st a).2)
  match s.settAt a with
  | (none, _) => fail 0 4 Status.badPointer
  | (some k, false) => fail k 4 Status.badPointer
  | (some k, true) =>
    if !s.refcount k then fail k 4 Status.descInvalid
    else
      match s.pool.setts.get? a with
      | none => if n < 0 then fail k 5 Status.refcountUnderflow else fail k 4 Status.freeNotAllocated
      | some x =>
        let c : Int := x.count + n
        if 4095 < c then fail k 4 Status.refcountOverflow
        else if c < 0 then fail k 5 Status.refcountUnderflow
        else if c = 0 then (Status.ok, 0, s.returnSett a k)
        else (Status.ok, c.toNat, s.setCount a x c.toNat)

/-! ## The arbiters' cycle (R159, R160) -/

/-- The arbiter that takes an operation: that of the pool the address lies in, or of the smallest fitting pool. -/
def State.arbiterOf (s : State) (o : PoolOp) : Nat :=
  if o.op = 1 then (if o.requester = 0 then 0 else (poolsFor o.size false).headD 0) else ((s.settAt o.addr).1).getD 0

/-- The first operation of each input of each arbiter, and those left for a later cycle. -/
def State.oneEach (s : State) : List PoolOp → List (Nat × Nat) → List PoolOp × List PoolOp
  | [], _ => ([], [])
  | o :: os, taken =>
    let k := (s.arbiterOf o, arbiterInput o.unit)
    let r := s.oneEach os (k :: taken)
    if taken.contains k && k.1 != 0 then (r.1, o :: r.2) else (o :: r.1, r.2)

/-- Operations in the rotating order of an arbiter's inputs. -/
def inputOrder (pointer : Nat) (ops : List PoolOp) : List PoolOp :=
  (rotated 10 pointer).flatMap fun i => ops.filter fun o => arbiterInput o.unit == i

/-- One operation applied, and its answer to the unit. -/
def State.poolOp (s : State) (o : PoolOp) : State :=
  let answer := fun (addr pool status : Nat) (s : State) =>
    s.emit (.sett o.unit o.requester o.op addr pool status)
  match o.op with
  | 1 =>
    match s.alloc o.unit o.requester o.size o.tile o.spill with
    | (some (a, k), st, s) => answer a k st s
    | (none, st, s) => answer 0 0 st s
  | 2 => let r := s.free o.unit o.requester o.addr; answer o.addr 0 r.1 r.2
  | 3 => let r := s.give o.unit o.requester o.other o.addr; answer o.addr 0 r.1 r.2
  | 4 => let r := s.reference o.other o.unit o.requester o.addr; answer o.addr 0 r.1 r.2.2
  | _ => let r := s.reference (-(o.other : Int)) o.unit o.requester o.addr; answer o.addr 0 r.1 r.2.2

/-- One cycle: frees, gives and references of every arbiter in its rotating order, then the allocations. -/
def State.arbiterCycle (s : State) (ops : List PoolOp) : State :=
  let order := (List.range 5).flatMap fun k =>
    inputOrder (s.pool.pointer.getD k 0) (ops.filter fun o => s.arbiterOf o == k)
  let s := (order.filter fun o => o.op != 1).foldl State.poolOp s
  (order.filter fun o => o.op == 1).foldl State.poolOp s

/-- Operations in as many cycles as one operation of an input in each takes; at most `n`. -/
def State.arbitrate : Nat → List PoolOp → State → State
  | 0, _, s => s
  | n + 1, ops, s =>
    if ops.isEmpty then s
    else
      let r := s.oneEach ops []
      State.arbitrate n r.2 (s.arbiterCycle r.1)

/-! ## Jobs -/

/-- The requester ID bound to a job (R157), the lowest where several are (DESIGN CHOICE, log entry 59). -/
def State.boundId (s : State) (job : Nat) : Option Nat :=
  (s.pool.binds.find? fun kv => kv.2 == job).map Prod.fst

/-- The ID under which a unit requests for a job (R157). -/
def State.requesterFor (s : State) (job unit : Nat) : Nat := (s.boundId job).getD unit

/-- Setts freed by their unit without a command's answer. -/
def State.freeAll (s : State) (m r : Nat) (as : List Nat) : State := as.foldl (fun s a => (s.free m r a).2) s

/-- At a job's end every sett charged to an ID bound to it is freed and the ID unbound (R166). -/
def State.reclaim (s : State) (job : Nat) : State :=
  let ids := (s.pool.binds.filter fun kv => kv.2 == job).map Prod.fst
  let mine := s.pool.setts.filter fun kv => ids.contains kv.2.owner
  let s := mine.foldl (fun (s : State) kv =>
    ({ s with pool := { s.pool with setts := s.pool.setts.erase kv.1 } }.bump .poolFreeOk kv.2.pool).bump
      .poolReclaimed kv.2.pool) s
  { s with pool := { s.pool with binds := s.pool.binds.filter fun kv => kv.2 != job } }

/-- A quota in force (R158); none where it is refused. -/
def State.quotaBad (s : State) (r k mn mx : Nat) : Bool :=
  let others := ((s.pool.quotas.filter fun q => q.1 % 8 == k && q.1 / 8 != r).map fun q => q.2.1).sum
  decide (s.pool.total k < others + mn) || decide (mx < mn)

end Sys2Proof.Machine
end

