-- ==== Sys2Proof/Machine/Route.lean ====
section
/-! DEFINITION. Routes (R105, R106, R113, R119–R125): trunks present and missing, legs in dimension order, the random
intermediate, the port within a trunk, the virtual channel, copy sets of multicast groups. -/

namespace Sys2Proof.Machine

/-! ## The plan's entries -/

/-- The node entry of a node ID (Table 5.3). -/
def Plan.node? (pl : Plan) (n : Nat) : Option NodeEntry := pl.nodes.find? fun e => e.node == n

/-- The coordinates of a node. -/
def Plan.coord (pl : Plan) (n : Nat) : List Nat := ((pl.node? n).map NodeEntry.coord).getD [0, 0, 0]

/-- The node at coordinates. -/
def Plan.nodeAt (pl : Plan) (c : List Nat) : Option Nat := (pl.nodes.find? fun e => e.coord == c).map NodeEntry.node

/-- The extent of a dimension. -/
def Plan.ext (pl : Plan) (d : Nat) : Nat := pl.extent.getD d 1

/-- Dimension `d` is a ring. -/
def Plan.wrapped (pl : Plan) (d : Nat) : Bool := pl.shape == 0 && bit pl.wrap d

/-- This module's plan entry of a port. -/
def State.portEntry (s : State) (p : Nat) : PortEntry :=
  match s.topo.plan with
  | none => {}
  | some pl => pl.ports.getD p {}

/-- Role of a port: 0 unused, 1 down, 2 fabric (R105). -/
def State.role (s : State) (p : Nat) : Nat := (s.portEntry p).role

/-- Routing state of a port (Table 5.5). -/
def State.route (s : State) (p : Nat) : RouteSt := s.topo.ports.getD p {}

/-- Link state of a port (Table 3.4). -/
def State.port (s : State) (p : Nat) : PortSt := s.link.ports.getD p {}

/-- One lane. -/
def State.lane (s : State) (n : Nat) : LaneSt := s.link.lanes.getD n {}

/-- A port hedge is in force (R126). -/
def State.portHedged (s : State) (p : Nat) : Bool := s.topo.hedges.any fun h => h.scope == 0 && h.port == p

/-- The port's link is in service: both ends report IN_SERVICE; an endpoint reports nothing (R110). -/
def State.inService (s : State) (p : Nat) : Bool :=
  (s.route p).state == 2 && (s.role p != 2 || (s.route p).peerState == 2)

/-- The port is in service and unhedged (R106). -/
def State.serving (s : State) (p : Nat) : Bool := s.inService p && !s.portHedged p

/-- The ports that the plan gives a trunk, rising. -/
def State.trunkPorts (s : State) (t : Nat) : List Nat :=
  match s.topo.plan with
  | none => []
  | some pl => (List.range pl.ports.length).filter fun p =>
      let e := pl.ports.getD p {}
      e.role == 2 && e.trunk == t

/-- The IN_SERVICE unhedged ports of a trunk, rising (R121). -/
def State.presentPorts (s : State) (t : Nat) : List Nat := (s.trunkPorts t).filter s.serving

/-- The trunks that the plan gives this module, rising. -/
def State.ownTrunks (s : State) : List Nat :=
  (List.range 512).filter fun t => !(s.trunkPorts t).isEmpty

/-- An own trunk is missing at this end (R106). -/
def State.ownTrunkMissing (s : State) (t : Nat) : Bool := (s.presentPorts t).isEmpty

/-! ## Neighbours and the link-state table -/

/-- Link-state entry of a node (R113). -/
def State.ls (s : State) (n : Nat) : NodeLs := s.topo.nodes.getD n {}

/-- One step along dimension `d` from `c`. -/
def stepCoord (pl : Plan) (c : List Nat) (d : Nat) (positive : Bool) : List Nat :=
  let k := pl.ext d
  let x := c.getD d 0
  c.set d (if positive then (x + 1) % k else (x + k - 1) % k)

/-- The node at the far end of a node's trunk, and the reverse trunk there (R106). -/
def Plan.far (pl : Plan) (n t : Nat) : Option (Nat × Nat) :=
  let c := pl.coord n
  if pl.shape = 0 then
    let d := t / 2
    let pos := t % 2 == 0
    let x := c.getD d 0
    if d < pl.dims && 1 < pl.ext d &&
        (pl.wrapped d || (if pos then decide (x + 1 < pl.ext d) else decide (0 < x))) then
      (pl.nodeAt (stepCoord pl c d pos)).map fun m => (m, if pos then t + 1 else t - 1)
    else none
  else if c.getD 0 0 = 0 then (pl.nodeAt [1, t, c.getD 2 0]).map fun m => (m, c.getD 1 0)
  else (pl.nodeAt [0, t, c.getD 2 0]).map fun m => (m, c.getD 1 0)

/-- Node `n` reports its trunk `t` missing; this module's own trunks are judged by its ports (R113). -/
def State.reported (s : State) (n t : Nat) : Bool :=
  if n = s.me then s.ownTrunkMissing t else bit (s.ls n).missing t

/-- A trunk of a node is missing for routing: reported so at either end (R113). -/
def State.trunkMissing (s : State) (n t : Nat) : Bool :=
  match s.topo.plan with
  | none => true
  | some pl =>
    match pl.far n t with
    | none => true
    | some (m, r) => s.reported n t || s.reported m r

/-- A node is marked lost (R117). -/
def State.isLost (s : State) (n : Nat) : Bool := (s.ls n).lost

/-! ## Dimension order (R119) -/

/-- The trunk that leads in dimension order from one place towards another, in a torus or mesh. -/
def dirTrunk (pl : Plan) (a b : List Nat) : Nat → Option Nat
  | 0 => none
  | n + 1 =>
    let d := pl.dims - (n + 1)
    let x := a.getD d 0
    let y := b.getD d 0
    if x = y then dirTrunk pl a b n
    else if pl.wrapped d then
      let k := pl.ext d
      let fwd := (y + k - x) % k
      some (if 2 * fwd ≤ k then 2 * d else 2 * d + 1)
    else some (if x < y then 2 * d else 2 * d + 1)

/-- The lowest spine whose trunks to both leaves are present (R119). -/
def State.spineFor (s : State) (pl : Plan) (a b : Nat) : List Nat :=
  (List.range (pl.ext 1)).filter fun k =>
    match pl.nodeAt [1, k, 0] with
    | none => false
    | some sp => !s.trunkMissing a k && !s.trunkMissing sp ((pl.coord b).getD 1 0)

/-- The next trunk from a node towards a target (R119). -/
def State.nextTrunk (s : State) (pl : Plan) (n target : Nat) : Option Nat :=
  let a := pl.coord n
  let b := pl.coord target
  if pl.shape = 0 then dirTrunk pl a b pl.dims
  else if a.getD 0 0 = 1 then
    if b.getD 0 0 = 0 then some (b.getD 1 0) else none
  else if b.getD 0 0 = 1 then some (b.getD 1 0)
  else (s.spineFor pl n target).head?

/-- The hops of a leg: (node, trunk) of each, none where no leg exists. -/
def State.leg (s : State) (pl : Plan) : Nat → Nat → Nat → Option (List (Nat × Nat))
  | 0, n, target => if n = target then some [] else none
  | fuel + 1, n, target =>
    if n = target then some []
    else
      match s.nextTrunk pl n target with
      | none => none
      | some t =>
        match pl.far n t with
        | none => none
        | some (m, _) => (s.leg pl fuel m target).map fun l => (n, t) :: l

/-- A leg exists and crosses no missing trunk. -/
def State.legClear (s : State) (pl : Plan) (a b : Nat) : Bool :=
  match s.leg pl 64 a b with
  | none => false
  | some l => l.all fun nt => !s.trunkMissing nt.1 nt.2

/-! ## The random intermediate (R120) -/

/-- The 24 B key of Table 5.6. -/
def viaKey (seed : Nat) (h : Hdr) (attempt : Nat) : List Byte :=
  leBytes 4 seed ++ leBytes 2 h.srcNode ++ leBytes 2 h.dstNode ++ leBytes 2 h.dstEp ++
  leBytes 2 (h.job + 4096 * b2n h.sys) ++ leBytes 4 h.opId ++ leBytes 4 (h.position / 256 * 256) ++
  leBytes 1 attempt ++ zeros 3

/-- h2 of R121: the key with attempt 0, then the full position, src_ep and seq (DEDUCED, log entry 11). -/
def portHash (seed : Nat) (h : Hdr) : Nat :=
  crc32c (viaKey seed h 0 ++ leBytes 4 h.position ++ leBytes 2 h.srcEp ++ leBytes 4 h.seq)

/-- The via scope of a frame: origin and extent per dimension (R120, R125). -/
def State.scope (s : State) (pl : Plan) (h : Hdr) (d : Nat) : Nat × Nat :=
  match (if h.sys then none else s.host.jobs.get? h.job) with
  | some j => if j.viaScope then (0, pl.ext d) else (j.sliceLo.getD d 0, j.sliceExt.getD d 1)
  | none => (0, pl.ext d)

/-- The candidate intermediate of one attempt. -/
def State.candidate (s : State) (pl : Plan) (h : Hdr) (attempt : Nat) : Option Nat :=
  let k := crc32c (viaKey s.topo.seed h attempt)
  if pl.shape = 0 then
    pl.nodeAt ((List.range 3).map fun d =>
      let (lo, ex) := s.scope pl h d
      lo + (k / 2 ^ (10 * d) % 1024 * ex) / 1024)
  else
    let sp := s.spineFor pl s.me h.dstNode
    match sp[k * sp.length / 2 ^ 32]? with
    | none => none
    | some i => pl.nodeAt [1, i, 0]

/-- A candidate is accepted. -/
def State.viaOk (s : State) (pl : Plan) (h : Hdr) (c : Nat) : Bool :=
  !s.isLost c && s.legClear pl s.me c && s.legClear pl c h.dstNode

/-- The intermediate of up to `n` attempts from attempt `a`: it and the number of redraws. -/
def State.drawVia (s : State) (pl : Plan) (h : Hdr) : Nat → Nat → Option Nat × Nat
  | 0, _ => (none, 0)
  | n + 1, a =>
    match s.candidate pl h a with
    | some c => if s.viaOk pl h c then (some c, 0) else let r := s.drawVia pl h n (a + 1); (r.1, r.2 + 1)
    | none => let r := s.drawVia pl h n (a + 1); (r.1, r.2 + 1)

/-- A frame that this module sends first takes a random intermediate (R120). -/
def State.wantsVia (s : State) (h : Hdr) (first : Bool) : Bool :=
  first && decide (h.cls ≤ 6) && !h.sys && h.opcode != Op.ack && h.opcode != Op.redPartial && h.dstNode != s.me

/-! ## Ports and virtual channels -/

/-- The port of a trunk that a frame takes (R121). -/
def State.pickPort (s : State) (t : Nat) (h : Hdr) : Option Nat :=
  let ps := s.presentPorts t
  ps[portHash s.topo.seed h * ps.length / 2 ^ 32]?

/-- A hop of dimension `d` from coordinate `x` crosses the link between `g − 1` and `g` (R124). -/
def crosses (k x : Nat) (positive : Bool) (g : Nat) : Bool :=
  if positive then (x + 1) % k == g % k else x == g % k

/-- The virtual channel of a frame on a fabric port (Table 5.7): its phase on this hop, its trunk, and the trunk and
channel on which it came. -/
def State.vcFor (s : State) (pl : Plan) (h : Hdr) (phase t : Nat) (arrived : Option (Nat × Nat)) (detour : Bool) :
    Nat :=
  let seven := h.cls == 7 && !detour
  if pl.shape != 0 then
    let up := (pl.coord s.me).getD 0 0 == 0
    if seven then (if up then 6 else 7) else (if up then 0 else 4)
  else
    let d := t / 2
    let job := if h.sys then none else s.host.jobs.get? h.job
    let granted := match job with
      | some j => bit j.wrapGrant d
      | none => false
    let jobSet := !seven && phase == 1 && granted
    let base := if seven then 6 else if phase = 0 then 0 else if jobSet then 2 else 4
    let g := if jobSet then (job.map fun j => j.dateline.getD d 0).getD 0 else 0
    let c := (pl.coord s.me).getD d 0
    let now := pl.wrapped d && crosses (pl.ext d) c (t % 2 == 0) g
    let before := match arrived with
      | some (t', vc) => t' / 2 == d && vc == base + 1
      | none => false
    if pl.wrapped d && (now || before) then base + 1 else base

/-! ## Where a frame goes -/

/-- The down port at which an external endpoint of this module sits: a down port whose peer has its id (R66, R110). -/
def State.downPort (s : State) (ep : Nat) : Option Nat :=
  (List.range s.portCount).find? fun p =>
    s.role p == 1 && (match (s.port p).peer with
      | some c => c.kind == 1 && c.id == ep
      | none => false)

/-- Where step 7 of Table 6.1 sends a frame. -/
inductive Way where
  /-- To an internal endpoint of this module. -/
  | deliver
  /-- Out on a port, with the header fields of the hop. -/
  | out (c : Copy)
  /-- Out on a down port under a port hedge: dropped (R126). -/
  | hedged
  /-- No route. -/
  | none
  deriving DecidableEq, Repr

/-- What is left of the route crosses no missing trunk: the leg to `target`, and in phase 0 the leg from there (R121). -/
def State.wayClear (s : State) (pl : Plan) (h : Hdr) (phase target : Nat) : Bool :=
  s.legClear pl s.me target && (phase == 1 || s.legClear pl target h.dstNode)

/-- A fabric hop towards `target` in a phase; none where no route avoids every missing trunk (R121). -/
def State.hop (s : State) (pl : Plan) (h : Hdr) (phase via target : Nat) (arrived : Option (Nat × Nat))
    (detour : Bool) : Way :=
  match s.nextTrunk pl s.me target with
  | none => .none
  | some t =>
    if !s.wayClear pl h phase target then .none
    else
      match s.pickPort t h with
      | none => .none
      | some p => .out { port := some p, phase := phase, via := via,
                         vc := s.vcFor pl h phase t arrived detour }

/-- The route of a unicast frame, with the redraws and whether it went without an intermediate after four rejections,
and whether a class-7 frame was detoured (R119–R122). `first`: it entered from a down port or an internal endpoint;
`arrived`: the trunk and channel on which it came. -/
def State.routeOf (s : State) (h : Hdr) (first : Bool) (arrived : Option (Nat × Nat)) : Way × Nat × Bool × Bool :=
  if h.dstNode = 0xFFFF then (if internalEp h.dstEp then .deliver else .none, 0, false, false)
  else if h.dstNode = s.me && (h.phase == 1 || first || h.via == s.me || h.via == 0xFFFF) then
    if internalEp h.dstEp then (.deliver, 0, false, false)
    else
      match s.downPort h.dstEp with
      | none => (.none, 0, false, false)
      | some p => if (s.route p).state ≠ 2 then (.none, 0, false, false)
                  else if s.portHedged p then (.hedged, 0, false, false)
                  else (.out { port := some p, vc := h.cls, phase := 1 }, 0, false, false)
  else
    match s.topo.plan with
    | none => (.none, 0, false, false)
    | some pl =>
      if s.wantsVia h first then
        match s.drawVia pl h 4 0 with
        | (some c, n) =>
          if c = s.me then (s.hop pl h 1 c h.dstNode none false, n, false, false)
          else (s.hop pl h 0 c c none false, n, false, false)
        | (none, n) =>
          let w := s.hop pl h 1 0xFFFF h.dstNode none false
          (w, n, w != .none, false)
      else if first then
        if h.cls = 7 && !s.legClear pl s.me h.dstNode then
          match s.drawVia pl h 4 0 with
          | (some c, n) =>
            if c = s.me then (s.hop pl h 1 c h.dstNode none false, n, false, true)
            else (s.hop pl h 0 c c none true, n, false, true)
          | (none, n) => (.none, n, false, false)
        else (s.hop pl h 1 0xFFFF h.dstNode none false, 0, false, false)
      else if h.phase = 0 && h.via != s.me && h.via != 0xFFFF then
        (s.hop pl h 0 h.via h.via arrived (h.cls == 7), 0, false, false)
      else
        (s.hop pl h 1 h.via h.dstNode (if h.phase = 0 then none else arrived) false, 0, false, false)

/-! ## Multicast groups (R122, R123) -/

/-- The group entry of (home, group ID). -/
def State.group? (s : State) (home id : Nat) : Option GroupSt :=
  s.topo.groups.find? fun g => g.home == home && g.group == id

/-- The group entry changed, or made. -/
def State.setGroup (s : State) (g : GroupSt) : State :=
  { s with topo := { s.topo with groups :=
      g :: (s.topo.groups.filter (fun x => !(x.home == g.home && x.group == g.group))) } }

/-- The group entry removed. -/
def State.dropGroup (s : State) (home id : Nat) : State :=
  { s with topo := { s.topo with groups := s.topo.groups.filter (fun x => !(x.home == home && x.group == id)) } }

/-- A detoured copy for member module `m`, and the redraws (R122, R123); none where it has no route. -/
def State.detourCopy (s : State) (pl : Plan) (h : Hdr) (m : Nat) : Option Copy × Nat :=
  let h := { h with dstNode := m }
  match s.drawVia pl h 4 0 with
  | (some c, n) =>
    match s.hop pl h (if c = s.me then 1 else 0) c (if c = s.me then m else c) none (h.cls == 7) with
    | .out cp => (some { cp with dst := some m }, n)
    | _ => (none, n)
  | (none, n) => (none, n)

/-- Counters that a route decision raises: (register, index, amount). -/
abbrev Counts : Type := List (Reg × Nat × Nat)

/-- The routing counters of a decision (R120, R122). -/
def routeCounts (redraws : Nat) (none_ detour : Bool) : Counts :=
  (if redraws = 0 then [] else [(Reg.routeViaRedraw, 0, redraws)]) ++
  (if none_ then [(.routeViaNone, 0, 1)] else []) ++ (if detour then [(.routeC7Detour, 0, 1)] else [])

/-- A detour's copy, if there is one, and its counters. -/
def detourCounts (h : Hdr) (x : Option Copy × Nat) : Counts :=
  routeCounts x.2 false (h.cls == 7 && x.1.isSome) ++ (if x.1.isSome then [] else [(Reg.routeUnroutable, 0, 1)])

/-- Copies towards downstream modules: one for each trunk towards modules whose direct route is clear, and on the home node a
detoured copy for each other module that is not lost; with the counters. A trunk that carries no copy because it is missing
is counted once (R116, R122, R123). -/
def State.fabricCopies (s : State) (pl : Plan) (h : Hdr) (g : GroupSt) (atHome : Bool)
    (arrived : Option (Nat × Nat)) : List Copy × Counts :=
  let down := g.down.filter fun m => !s.isLost m
  let clear := down.filter fun m => s.legClear pl s.me m
  let rest := down.filter fun m => !s.legClear pl s.me m
  let straight := (clear.filterMap (s.nextTrunk pl s.me)).dedup.filterMap fun t =>
    (s.pickPort t h).map fun p =>
      ({ port := some p, phase := 1, via := 0xFFFF, vc := s.vcFor pl h 1 t arrived false } : Copy)
  if atHome then
    let det := rest.map (s.detourCopy pl h)
    (straight ++ det.filterMap Prod.fst, det.flatMap (detourCounts h))
  else
    let gone := (rest.filterMap (s.nextTrunk pl s.me)).dedup.filter fun t => s.trunkMissing s.me t
    (straight, if gone.isEmpty then [] else [(.routeUnroutable, 0, gone.length)])

/-- Copies to the local members of a group: to a down port, or to this module's internal endpoints; none for a member that no
down port leads to. -/
def State.localCopies (s : State) (h : Hdr) (g : GroupSt) : List (Nat × Option Copy) :=
  g.locals.map fun ep =>
    if internalEp ep then (ep, some { port := none })
    else (ep, (s.downPort ep).map fun p => { port := some p, vc := h.cls, phase := 1 })

/-! ## Trunk status -/

/-- Running lanes of a trunk (Table 5.9). -/
def State.trunkLanes (s : State) (t : Nat) : Nat := ((s.presentPorts t).map fun p => (s.port p).width).sum

/-- The running lanes of a port towards ROUTE_CAPACITY: those of present trunks. -/
def State.portLanes (s : State) (p : Nat) : Nat :=
  if s.serving p && !s.trunkMissing s.me (s.portEntry p).trunk then (s.port p).width else 0

/-- ROUTE_CAPACITY (Table 5.9). -/
def State.capacity (s : State) : Nat :=
  let ports := match s.topo.plan with
    | none => []
    | some pl => (List.range pl.ports.length).filter fun p => (pl.ports.getD p {}).role == 2
  let planned := ports.length * s.nominal
  let running := (ports.map s.portLanes).sum
  planned % 2048 + 2048 * (running % 2048)

end Sys2Proof.Machine
end

