-- ==== Sys2Proof/Machine/Frames.lean ====
section
/-! DEFINITION. Frames in the packet buffer and the flows of the internal endpoints: admission of cells (R134, R135),
queues (R132), originating a frame, acknowledgements (R98, R99, R444), settling and retransmission (R100, R101). -/

namespace Sys2Proof.Machine

/-! ## Cells and queues -/

/-- Cells that a class holds on a tile. -/
def State.occ (s : State) (tile cls : Nat) : Nat := s.sw.occ.getD (tile * 8 + cls) 0

/-- min_cells and max_cells in force (Table 6.2). -/
def State.minCells (s : State) (tile cls : Nat) : Nat := s.cfg .portBufClass (tile * 8 + cls) 0 18
def State.maxCells (s : State) (tile cls : Nat) : Nat := s.cfg .portBufClass (tile * 8 + cls) 18 18

/-- The sum of a tile's minima. -/
def State.sumMin (s : State) (tile : Nat) : Nat := ((List.range 8).map (s.minCells tile)).sum

/-- Cells of the shared part in use. -/
def State.sharedUsed (s : State) (tile : Nat) : Nat := s.sw.shared.getD tile 0

/-- `n` more cells stay within the class's guarantee, or fit in the shared part (R134). -/
def State.fitsMin (s : State) (tile cls n : Nat) : Bool := decide (s.occ tile cls + n ≤ s.minCells tile cls)
def State.fitsShared (s : State) (tile cls n : Nat) : Bool :=
  decide (s.sharedUsed tile + n ≤ s.bufCells - s.sumMin tile) && decide (s.occ tile cls + n ≤ s.maxCells tile cls)

/-- The class limits allow `n` more cells (R134). -/
def State.classAdmits (s : State) (tile cls n : Nat) : Bool := s.fitsMin tile cls n || s.fitsShared tile cls n

/-- Cells charged to a class of a tile, from its guarantee or from the shared part. -/
def State.charge (s : State) (tile cls n : Nat) (shared : Bool) : State :=
  { s with sw := { s.sw with
      occ := s.sw.occ.set (tile * 8 + cls) (s.occ tile cls + n)
      shared := if shared then s.sw.shared.set tile (s.sharedUsed tile + n) else s.sw.shared } }

/-- Cells no longer charged. -/
def State.uncharge (s : State) (tile cls n : Nat) (shared : Bool) : State :=
  { s with sw := { s.sw with
      occ := s.sw.occ.set (tile * 8 + cls) (s.occ tile cls - n)
      shared := if shared then s.sw.shared.set tile (s.sharedUsed tile - n) else s.sw.shared } }

/-- Step 10 of Table 6.1: the class limits, then P0 (R134, R135). The counter of the drop, or the cells' addresses and whether
they come from the shared part; each cell's count is the number of copies (R147). -/
def State.takeCells (s : State) (tile cls n count : Nat) : (Reg ⊕ (List Nat × Bool)) × State :=
  if !s.classAdmits tile cls n then (.inl .portTailDrop, s)
  else
    match s.pickCells tile n with
    | none => (.inl .portPoolDrop, s.poolFail (switchMaster tile) 1 0 0 Status.poolEmpty 0)
    | some as =>
      let shared := !s.fitsMin tile cls n
      (.inr (as, shared), (s.charge tile cls n shared).giveCells as count)

/-- A frame's cells returned whatever their counts (R131). -/
def State.returnCells (s : State) (tile cls : Nat) (as : List Nat) (shared : Bool) : State :=
  as.foldl (fun s a => s.returnSett a 0) (s.uncharge tile cls as.length shared)

/-- The count of each of a frame's cells falls by one (R149, R164). -/
def State.releaseCells (s : State) (tile : Nat) (as : List Nat) : State := s.freeAll (switchMaster tile) 0 as

/-! ## Counters of a decision -/

/-- Counters raised. -/
def State.count (s : State) (cs : Counts) : State := cs.foldl (fun s c => s.bump c.1 c.2.1 c.2.2) s

/-- The class in which a copy is scheduled: a class-7 frame on the phase-0 channels goes at class 6 (R146). -/
def schedClass (cls : Nat) (c : Copy) : Nat := if cls = 7 ∧ c.vc < 6 then 6 else cls

/-- Key of a VOQ. -/
def voqKey (tile port cls : Nat) : Nat := (tile * 512 + port) * 8 + cls

/-- The tile of an internal endpoint's context, at which its frames enter the switch and to which frames for it go (DESIGN
CHOICE, log entry 12). -/
def originTile (h : Hdr) : Nat := h.opId % 1048576 % 8

/-- Key of an internal queue. -/
def internalKey (src dst cls : Nat) : Nat := (src * 8 + dst) * 8 + cls

/-- One copy put in its queue. -/
def State.enqueue (s : State) (id tile cls cells : Nat) (h : Hdr) (c : Copy) : State :=
  match c.port with
  | none =>
    { s with sw := { s.sw with
        internal := s.sw.internal.upd (internalKey tile (originTile h) cls) [] (fun q => q ++ [⟨id, c⟩]) } }
  | some p =>
    let k := schedClass cls c
    { s with sw := { s.sw with
        voqs := s.sw.voqs.upd (voqKey tile p k) [] (fun q => q ++ [⟨id, c⟩])
        c7In := if k = 7 then s.sw.c7In.upd p 0 (· + cells) else s.sw.c7In } }

/-! ## ACK payloads -/

/-- A seq is at or before another in serial arithmetic. -/
def seqLe (a b : Nat) : Bool := a == b || serialNewer 32 b a

/-- What an ACK payload says (Table 4.8). -/
structure AckInfo where
  through : Nat
  selective : Nat
  status : Nat
  scope : Nat
  multicast : Bool
  based : Bool
  refusedSeq : Nat
  group : Nat
  selBase : Nat
  deriving DecidableEq, Repr

/-- The fields of an ACK payload. -/
def ackInfo (p : List Byte) : AckInfo :=
  { through := getLE p 0 4, selective := getLE p 4 32, status := getLE p 36 2, scope := getLE p 38 1,
    multicast := bit (getLE p 39 1) 0, based := bit (getLE p 39 1) 1, refusedSeq := getLE p 40 4,
    group := getLE p 44 2, selBase := getLE p 48 4 }

/-- The bytes of an ACK payload. -/
def ackBytes (a : AckInfo) : List Byte :=
  leBytes 4 a.through ++ leBytes 32 a.selective ++ leBytes 2 a.status ++ leBytes 1 a.scope ++
  leBytes 1 (b2n a.multicast + 2 * b2n a.based) ++ leBytes 4 a.refusedSeq ++ leBytes 2 a.group ++ zeros 2 ++
  leBytes 4 a.selBase ++ zeros 12

/-- The seq is settled by the counts of an ACK. -/
def AckInfo.covers (a : AckInfo) (seq : Nat) : Bool :=
  seqLe seq a.through ||
  (let base := if a.based then a.selBase else (a.through + 2) % 2 ^ 32
   let d := (seq + 2 ^ 32 - base) % 2 ^ 32
   decide (d < 256) && bit a.selective d)

/-! ## What the entry module sees of Stozil operations (R419) -/

/-- An entry changed; the entry of an operation that is new is made by the first contribution. -/
def State.setStzEntries (s : State) (f : List StzEntry → List StzEntry) : State :=
  { s with stz := { s.stz with entries := f s.stz.entries } }

/-- A frame of (job, root, tag) at a down port. -/
def StzEntry.at_ (e : StzEntry) (job port root : Nat) : Bool := e.job == job && e.port == port && e.root == root

/-- A contribution has come in on a down port. -/
def State.stzContribution (s : State) (p : Nat) (h : Hdr) : State :=
  let tag := h.opId % 65536
  if s.stz.entries.any fun e => e.at_ h.job p h.dstNode && e.tag == tag then
    s.setStzEntries fun l => l.map fun e =>
      if e.at_ h.job p h.dstNode && e.tag == tag then { e with sent := h.seq :: e.sent.filter (· != h.seq) } else e
  else s.setStzEntries fun l => l ++ [{ job := h.job, port := p, tag := tag, root := h.dstNode, sent := [h.seq] }]

/-- The endpoint of a down port acknowledges: an operation whose completion the ACK covers closes. -/
def State.stzClose (s : State) (p : Nat) (h : Hdr) (a : AckInfo) : State :=
  s.setStzEntries fun l => l.filter fun e =>
    !(e.at_ h.job p h.dstNode && (match e.done with
      | some q => a.covers q
      | none => false))

/-- An ACK of a root goes out to a down port: an operation of which it commits a contribution opens. -/
def State.stzOpen (s : State) (p : Nat) (h : Hdr) (a : AckInfo) : State :=
  s.setStzEntries fun l => l.filterMap fun e =>
    if e.at_ h.job p h.srcNode then
      (let rest := if a.scope = 2 then e.sent.filter (· != a.refusedSeq) else e.sent
       if e.isOpen then some e
       else if rest.any a.covers then some { e with sent := [], isOpen := true }
       else if rest.isEmpty then none
       else some { e with sent := rest })
    else some e

/-- A completion goes out to a down port. -/
def State.stzCompletion (s : State) (p : Nat) (h : Hdr) : State :=
  s.setStzEntries fun l => l.map fun e =>
    if e.at_ h.job p h.srcNode && e.tag == h.opId % 65536 then { e with done := some h.seq } else e

/-- What the entry module notes of a frame that it stores for its outputs. -/
def State.stzWatch (s : State) (f : Frame) (port : Option Nat) (copies : List Copy) : State :=
  let h := f.hdr
  if h.opcode != Op.stozil && (s.stz.entries.isEmpty || h.opcode != Op.ack) then s
  else
    let s := match port with
      | some p =>
        if s.role p != 1 then s
        else if h.opcode = Op.stozil then (if h.dstEp = 0xFFF1 then s.stzContribution p h else s)
        else s.stzClose p h (ackInfo f.payload)
      | none => s
    copies.foldl (fun s c => match c.port with
      | some o =>
        if s.role o != 1 || h.srcEp != 0xFFF1 then s
        else if h.opcode = Op.stozil then (if getLE f.payload 16 1 = 2 then s.stzCompletion o h else s)
        else s.stzOpen o h (ackInfo f.payload)
      | none => s) s

/-- A frame whose cells are taken becomes eligible: one entry for each copy (R132, R147). -/
def State.storeFrame (s : State) (f : Frame) (port : Option Nat) (tile cls : Nat) (cells : List Nat × Bool) (marked : Bool)
    (copies : List Copy) : State :=
  if copies.isEmpty then s.returnCells tile cls cells.1 cells.2
  else
    let s := s.stzWatch f port copies
    let id := s.sw.nextId
    let st : Stored := ⟨id, tile, cls, cells.1, cells.2, copies.length, f, port, marked⟩
    let s := { s with sw := { s.sw with nextId := id + 1, stored := s.sw.stored.set id st } }
    copies.foldl (fun s c => s.enqueue id tile cls cells.1.length f.hdr c) s

/-- A copy has left or is removed: the counts of the frame's cells fall by one (R149). -/
def State.releaseCopy (s : State) (id : Nat) : State :=
  match s.sw.stored.get? id with
  | none => s
  | some st =>
    if st.refs ≤ 1 then
      ({ s with sw := { s.sw with stored := s.sw.stored.erase id } }.uncharge st.tile st.cls st.cells.length
        st.shared).releaseCells st.tile st.cells
    else
      { s with sw := { s.sw with stored := s.sw.stored.set id { st with refs := st.refs - 1 } } }.releaseCells st.tile
        st.cells

/-! ## Hedges (R126) -/

/-- A destination hedge covers (node, endpoint). -/
def State.destHedged (s : State) (node ep : Nat) : Bool :=
  s.topo.hedges.any fun h => h.scope == 1 && h.node == node && h.ep == ep

/-- A job hedge covers the job. -/
def State.jobHedged (s : State) (job : Nat) : Bool := s.topo.hedges.any fun h => h.scope == 2 && h.job == job

/-- The hedges of Table 5.8 stop the frame where it enters or is originated; ACKs are never stopped, and a destination hedge
stops a multicast frame only at the copy of the member it names. -/
def State.hedgeStops (s : State) (h : Hdr) : Bool :=
  h.opcode != Op.ack &&
  ((!mcastOpcodes.contains h.opcode && s.destHedged h.dstNode h.dstEp) || (!h.sys && s.jobHedged h.job))

/-- A hedge is in force for 256 ticks or more over the frame's scope: the delivering module drops it (R126). -/
def State.lateHedged (s : State) (h : Hdr) : Bool :=
  h.opcode != Op.ack && s.topo.hedges.any fun g =>
    decide (g.since + 256 ≤ s.tick.counter) &&
    ((g.scope == 1 && !mcastOpcodes.contains h.opcode && g.node == h.dstNode && g.ep == h.dstEp) ||
     (g.scope == 2 && !h.sys && g.job == h.job))

/-- A member's copy is under a hedge (R126, R147). -/
def State.copyHedged (s : State) (h : Hdr) (x : Nat × Option Copy) : Bool :=
  s.destHedged s.me x.1 || (!h.sys && s.jobHedged h.job) || ((x.2.bind Copy.port).map s.portHedged).getD false

/-- A member's copy has an output: an internal queue, or a down port IN_SERVICE (R121). -/
def State.copyRouted (s : State) (x : Nat × Option Copy) : Bool :=
  match x.2 with
  | none => false
  | some c => (c.port.map fun p => (s.route p).state == 2).getD true

/-- The copy set of a multicast frame: hedged copies and copies without an output are removed and counted (R147). -/
def State.mcCopies (s : State) (h : Hdr) (atHome : Bool) (arrived : Option (Nat × Nat)) : List Copy × Counts :=
  match s.group? h.srcNode h.dstEp, s.topo.plan with
  | some g, some pl =>
    let all := s.localCopies h g
    let free := all.filter fun x => !s.copyHedged h x
    let ok := free.filter s.copyRouted
    let fabric := if h.dstNode = h.srcNode then s.fabricCopies pl h g atHome arrived else ([], [])
    ((ok.filterMap Prod.snd) ++ fabric.1,
      [(.routeHedgeDrop, 0, all.length - free.length), (.routeUnroutable, 0, free.length - ok.length)] ++ fabric.2)
  | _, _ => ([], [])

/-! ## Originating a frame -/

/-- The output port of a copy accepts the payload (R91). -/
def State.payloadOk (s : State) (h : Hdr) (c : Copy) : Bool :=
  match c.port with
  | none => true
  | some p => decide (h.units ≤ ((s.port p).peer.map CapSet.maxPayload).getD 128)

/-- The copies that their outputs' peers can take, and the count of those that they cannot, at `p` or at each output. -/
def State.fitCopies (s : State) (h : Hdr) (p : Option Nat) (cs : List Copy) : List Copy × Counts :=
  (cs.filter (s.payloadOk h),
    (cs.filter fun c => !s.payloadOk h c).map fun c => (.portHdrDrop, (p.orElse fun _ => c.port).getD 0, 1))

/-- The tile that a frame's owner names: a segment of the stash leaves from the base tile of its channel (R287). -/
def Owner.tile : Owner → Option Nat
  | .stash _ tile false => some tile
  | _ => Option.none

/-- The frame's cells are taken on `tile` and its copies queued, where the limits allow it. -/
def State.admitOwn (s : State) (f : Frame) (copies : List Copy) (tile : Nat) : State :=
  match s.takeCells tile f.hdr.cls (frameCells f.hdr) copies.length with
  | (.inr cells, s) => s.storeFrame f none tile f.hdr.cls cells false copies
  | (.inl _, s) => s

/-- An internal endpoint's frame put into the switch (R30); whether a port hedge has dropped it. In the safe state nothing is
sent (R374). -/
def State.inject (s : State) (f : Frame) (at_ : Option Nat) : Bool × State :=
  let tile := at_.getD (originTile f.hdr)
  if s.isSafe then (false, s)
  else if mcastOpcodes.contains f.hdr.opcode then
    let (cs, n) := s.mcCopies f.hdr true none
    let (ok, bad) := s.fitCopies f.hdr none cs
    let s := s.count (n ++ bad)
    (false, if ok.isEmpty then s else s.admitOwn f ok tile)
  else
    match s.routeOf f.hdr true none with
    | (.deliver, _, _, _) => (false, s.admitOwn f [{ port := none }] tile)
    | (.out c, n, v, d) =>
      let s := s.count (routeCounts n v d)
      (false, if s.payloadOk f.hdr c then s.admitOwn f [c] tile else s.bump .portHdrDrop (c.port.getD 0))
    | (.hedged, _, _, _) => (true, s.bump .routeHedgeDrop)
    | (.none, n, v, d) => (false, (s.count (routeCounts n v d)).bump .routeUnroutable)

/-! ## Flows: receiving (R98, R99) -/

/-- The flow of a header (R97); a detoured multicast copy belongs to the group's flow. -/
def flowOf (h : Hdr) : FlowKey :=
  if mcastOpcodes.contains h.opcode then ⟨h.srcNode, h.srcEp, h.srcNode, h.dstEp, h.job, h.sys, true⟩
  else ⟨h.srcNode, h.srcEp, h.dstNode, h.dstEp, h.job, h.sys, false⟩

/-- The receiving side of a flow. -/
def State.rxFlow (s : State) (k : FlowKey) : RxFlow := (s.flow.rx.find? fun f => f.key == k).getD { key := k }

/-- The receiving side stored. -/
def State.setRx (s : State) (f : RxFlow) : State :=
  { s with flow := { s.flow with rx := f :: (s.flow.rx.filter (fun x => x.key != f.key)) } }

/-- The cumulative point carried over every committed seq above it. -/
def RxFlow.advance (f : RxFlow) : Nat → RxFlow
  | 0 => f
  | n + 1 =>
    if f.window.contains f.next then
      RxFlow.advance { f with next := (f.next + 1) % 2 ^ 32, window := f.window.filter (· != f.next) } n
    else f

/-- A frame arrives with seq `q`: more than 1,024 above the cumulative point moves the point to `q − 1,024` first. -/
def RxFlow.arrive (f : RxFlow) (q : Nat) : RxFlow :=
  let d := (q + 2 ^ 32 - f.next) % 2 ^ 32
  if 1024 ≤ d ∧ d < 2 ^ 31 then
    let n := (q + 2 ^ 32 - 1023) % 2 ^ 32
    RxFlow.advance { f with next := n, window := f.window.filter (fun w => decide ((w + 2 ^ 32 - n) % 2 ^ 32 < 2 ^ 31)),
                            refused := f.refused.filter (fun w => decide ((w.1 + 2 ^ 32 - n) % 2 ^ 32 < 2 ^ 31)) } 1024
  else f

/-- The seq was settled before: at or below the point, or committed in the window. -/
def RxFlow.seen (f : RxFlow) (q : Nat) : Bool :=
  decide (2 ^ 31 ≤ (q + 2 ^ 32 - f.next) % 2 ^ 32) || f.window.contains q

/-- The seq is committed. -/
def RxFlow.commit (f : RxFlow) (q : Nat) : RxFlow :=
  RxFlow.advance { f with window := q :: f.window, refused := f.refused.filter (·.1 != q) } 1025

/-- The address of an ACK for a frame of a flow: source, destination (R444). -/
def ackHdr (h : Hdr) (srcNode srcEp : Nat) : Hdr :=
  { opcode := Op.ack, cls := h.cls, dstNode := h.srcNode, dstEp := h.srcEp, srcNode := srcNode, srcEp := srcEp,
    job := h.job, sys := h.sys, units := 1, last := true }

/-- The source that an ACK names: the flow's destination; for a multicast flow the acknowledging member. -/
def State.ackSource (s : State) (h : Hdr) (ep : Nat) : Nat × Nat :=
  if mcastOpcodes.contains h.opcode then (s.me, ep) else (h.dstNode, h.dstEp)

/-- An ACK frame sent back along the frame's flow. The stash unit's ACKs carry cong while its write backlog, here none,
is at or above mark_cells (R290; DEDUCED, log entry 27). -/
def State.sendAck (s : State) (h : Hdr) (ep : Nat) (a : AckInfo) : State :=
  let mc := mcastOpcodes.contains h.opcode
  let src := s.ackSource h ep
  let cong := ep == 0xFFF2 && h.dstEp == 0xFFF2 && h.dstNode == s.me && s.cfg .stashMark 0 0 18 == 0
  ((if cong then s.bump .stashMarked else s).inject
              { hdr := { ackHdr h src.1 src.2 with cong := cong },
                payload := ackBytes { a with multicast := mc, group := if mc then h.dstEp else 0 } } none).2

/-- The plain fields of an ACK of a receiver: its cumulative point, and the seq in selective when it lies above. -/
def RxFlow.ackInfo (f : RxFlow) (q : Nat) : AckInfo :=
  { through := (f.next + 2 ^ 32 - 1) % 2 ^ 32, selective := b2n (f.window.contains q), status := 0, scope := 0,
    multicast := false, based := f.window.contains q, refusedSeq := 0, group := 0,
    selBase := if f.window.contains q then q else 0 }

/-- The delivered frame is committed and acknowledged (R98). -/
def State.commitFrame (s : State) (h : Hdr) (ep : Nat) : State :=
  let f := ((s.rxFlow (flowOf h)).arrive h.seq).commit h.seq
  (s.setRx f).sendAck h ep (f.ackInfo h.seq)

/-- The delivered frame was settled before: it is dropped and acknowledged again, with the scope it was settled with
(R98, Table 4.8). -/
def State.ackAgain (s : State) (h : Hdr) (ep : Nat) (scope : Nat := 0) : State :=
  let f := (s.rxFlow (flowOf h)).arrive h.seq
  (s.setRx f).sendAck h ep { f.ackInfo h.seq with scope := scope }

/-- The delivered frame is refused with a status (R99). -/
def State.refuseFrame (s : State) (h : Hdr) (ep status : Nat) : State :=
  let f := (s.rxFlow (flowOf h)).arrive h.seq
  let f := { f with refused := (h.seq, status) :: f.refused.filter (·.1 != h.seq) }
  (s.setRx f).sendAck h ep { f.ackInfo h.seq with
    status := status, scope := 2, refusedSeq := h.seq, selective := 0, based := false, selBase := 0 }

/-- A node that is not the flow's destination answers a frame: scope 1 absorbed, scope 2 refused (R444). -/
def State.transitAck (s : State) (h : Hdr) (scope status : Nat) : State :=
  s.sendAck h (if internalEp h.dstEp then h.dstEp else 0xFFF3)
    { through := (h.seq + 2 ^ 32 - 1024) % 2 ^ 32, selective := if scope = 1 then 1 else 0,
      status := status, scope := scope, multicast := false, based := scope == 1,
      refusedSeq := if scope = 2 then h.seq else 0, group := 0, selBase := if scope = 1 then h.seq else 0 }

/-- A refusal sent at most once per flow per 256 ticks (R96, R99). -/
def State.ratedRefusal (s : State) (h : Hdr) (status : Nat) : State :=
  if !acked h.opcode then s
  else
    let k := flowOf h
    match s.flow.refusedAt.find? fun x => x.1 == k && decide (s.tick.counter < x.2 + 256) with
    | some _ => s
    | none =>
      { s with flow := { s.flow with refusedAt :=
          (k, s.tick.counter) :: (s.flow.refusedAt.filter (fun x => x.1 != k)) } }.transitAck h 2 status

/-- The delivery of an acked frame to an internal endpoint of this module: settled before, or to be judged. -/
def State.duplicate (s : State) (h : Hdr) : Bool := ((s.rxFlow (flowOf h)).arrive h.seq).seen h.seq

/-- The status with which the delivered frame's seq was refused before and not passed since: it is refused again (R99). -/
def State.refusedBefore (s : State) (h : Hdr) : Option Nat :=
  if acked h.opcode then (((s.rxFlow (flowOf h)).arrive h.seq).refused.find? fun w => w.1 == h.seq).map Prod.snd else none

/-- An internal endpoint sends a frame into the switch. An acked frame that a port hedge drops is refused to it (R126). -/
def State.originate (s : State) (f : Frame) (at_ : Option Nat := none) : State :=
  let r := s.inject f at_
  if r.1 then r.2.ratedRefusal f.hdr Status.hedged else r.2

/-! ## Flows: sending (R97–R101) -/

/-- The sending side of a flow. -/
def State.txFlow (s : State) (k : FlowKey) : TxFlow := (s.flow.tx.find? fun f => f.key == k).getD { key := k }

/-- The sending side stored. -/
def State.setTx (s : State) (f : TxFlow) : State :=
  { s with flow := { s.flow with tx := f :: (s.flow.tx.filter (fun x => x.key != f.key)) } }

/-- The sender may send its next seq: fewer than 1,024 unsettled, none as old as next − 1,024 (R99). -/
def TxFlow.room (f : TxFlow) : Bool :=
  decide (f.open_.length < 1024) && f.open_.all fun u => decide ((f.next + 2 ^ 32 - u.seq) % 2 ^ 32 < 1024)

/-- An operation is to be told of its frame. -/
def State.note (s : State) (o : Owner) (n : Note) : State :=
  match o with
  | .none => s
  | o => { s with flow := { s.flow with notes := s.flow.notes ++ [(o, n)] } }

/-- The members marked HEDGED in the running instance of a frame's operation: they no longer count towards any acknowledgement,
even once the hedge is lifted (R243). -/
def State.instHedged (s : State) (h : Hdr) : List (Nat × Nat) :=
  match s.coll.ops.get? (h.opId % 1048576) with
  | some c =>
    match c.inst, s.host.jobs.get? c.job with
    | some i, some j => if h.opcode = Op.collMcast ∧ i.gen = h.opId / 1048576 then
        i.hedged.filterMap fun m => (c.desc.ranks[m]?).bind j.addr else []
    | _, _ => []
  | none => []

/-- Members of a multicast frame that have to acknowledge it: neither hedged, nor marked so, nor on a lost node (R101, R243,
R270). -/
def State.mcWaiting (s : State) (h : Hdr) : List (Nat × Nat) :=
  if mcastOpcodes.contains h.opcode then
    match s.group? h.srcNode h.dstEp with
    | some g => g.members.filter fun m =>
        !(s.destHedged m.1 m.2 || (!h.sys && s.jobHedged h.job) || s.isLost m.1 || (s.instHedged h).contains m)
    | none => []
  else []

/-- The hedged members of a multicast frame's group, whose completion is marked HEDGED (R101). -/
def State.mcHedged (s : State) (h : Hdr) : List (Nat × Nat) :=
  match s.group? h.srcNode h.dstEp with
  | some g => g.members.filter fun m => s.destHedged m.1 m.2
  | none => []

/-- An acked frame sent in its flow: numbered and originated, or queued behind the window or a job hedge; stopped by a
destination hedge it is refused at once (R99, R126). -/
def State.send (s : State) (f : Frame) (o : Owner) : State :=
  let k := flowOf f.hdr
  let t := s.txFlow k
  if !f.hdr.sys && s.jobHedged f.hdr.job then s.setTx { t with queue := t.queue ++ [(f, o)] }
  else if !k.mc && s.destHedged f.hdr.dstNode f.hdr.dstEp then
    (s.bump .routeHedgeDrop).note o (.refused Status.hedged)
  else if t.room && t.queue.isEmpty then
    let f := { f with hdr := { f.hdr with seq := t.next } }
    let w := s.mcWaiting f.hdr
    let u : Unsettled := { seq := t.next, frame := f, owner := o, waiting := w }
    let s := if k.mc then (s.mcHedged f.hdr).foldl (fun s m =>
        s.note o (.memberRefused m.1 m.2 Status.hedged false)) s else s
    if k.mc && w.isEmpty then
      ((s.setTx { t with next := (t.next + 1) % 2 ^ 32 }).originate f o.tile).note o .acked
    else (s.setTx { t with next := (t.next + 1) % 2 ^ 32, open_ := t.open_ ++ [u] }).originate f o.tile
  else s.setTx { t with queue := t.queue ++ [(f, o)] }

/-- A frame whose opcode is not acknowledged (R97). -/
def State.sendPlain (s : State) (f : Frame) : State :=
  if s.hedgeStops f.hdr then s.bump .routeHedgeDrop else s.originate { f with hdr := { f.hdr with seq := 0 } }

/-- Queued frames of a flow that its window now has room for; at most `n`. -/
def State.flushFlow (s : State) (k : FlowKey) : Nat → State
  | 0 => s
  | n + 1 =>
    let t := s.txFlow k
    match t.queue with
    | [] => s
    | (f, o) :: rest =>
      if t.room && !(!f.hdr.sys && s.jobHedged f.hdr.job) then
        let s1 := (s.setTx { t with queue := [] }).send f o
        State.flushFlow (s1.setTx { s1.txFlow k with queue := rest }) k n
      else s

/-! ## Flows: settling -/

/-- One unsettled frame judged by a unicast ACK: what is left of it, and what its owner is told. -/
def settleOne (a : AckInfo) (u : Unsettled) : Option Unsettled × Option Note :=
  if a.scope = 2 ∧ a.refusedSeq = u.seq then (none, some (.refused a.status))
  else if a.covers u.seq then (none, some (if a.scope = 1 then .absorbed else .acked))
  else (some u, none)

/-- One unsettled multicast frame judged by a member's ACK (R101, R444). -/
def settleMember (a : AckInfo) (m : Nat × Nat) (u : Unsettled) : Option Unsettled × Option Note :=
  let rest := u.waiting.filter (· != m)
  if a.scope = 2 ∧ a.refusedSeq = u.seq then
    (if rest.isEmpty then none else some { u with waiting := rest }, some (.memberRefused m.1 m.2 a.status rest.isEmpty))
  else if a.covers u.seq then
    (if rest.isEmpty then none else some { u with waiting := rest }, if rest.isEmpty then some .acked else none)
  else (some u, none)

/-- An ACK reaches its flow: frames are settled and their owners told (R99, R444). -/
def State.settleAck (s : State) (h : Hdr) (a : AckInfo) : State :=
  let k : FlowKey :=
    if a.multicast then ⟨h.dstNode, h.dstEp, h.dstNode, a.group, h.job, h.sys, true⟩
    else ⟨h.dstNode, h.dstEp, h.srcNode, h.srcEp, h.job, h.sys, false⟩
  match s.flow.tx.find? (fun f => f.key == k) with
  | none => s
  | some t =>
    let judged := t.open_.map fun u =>
      (u.owner, if a.multicast then settleMember a (h.srcNode, h.srcEp) u else settleOne a u)
    let s := s.setTx { t with open_ := judged.filterMap fun x => x.2.1 }
    let s := judged.foldl (fun s x => match x.2.2 with
      | none => s
      | some n => s.note x.1 n) s
    s.flushFlow k 1024

/-! ## Retransmission (R100, R101) -/

/-- rto of a flow: the job's, or 64 ticks for device traffic (R100, R123). -/
def State.rto (s : State) (k : FlowKey) : Nat :=
  if k.sys then 64 else ((s.host.jobs.get? k.job).map JobSt.rto).getD 64

/-- The timers of the unsettled frames advance by a tick; a job hedge pauses them (R126). -/
def State.ageFlows (s : State) : State :=
  { s with flow := { s.flow with tx := s.flow.tx.map fun t =>
      if !t.key.sys && s.jobHedged t.key.job then t
      else { t with open_ := t.open_.map fun u => { u with age := u.age + 1 } } } }

/-- A frame's timer has reached rto: it is sent again with retx, or after the eighth send its destination is lost
(R100, R101). -/
def State.retransmit (s : State) (k : FlowKey) (seq : Nat) : State :=
  let t := s.txFlow k
  match t.open_.find? fun u => u.seq == seq with
  | none => s
  | some u =>
    if u.age < s.rto k || (!k.sys && s.jobHedged k.job) then s
    else if !k.mc && s.destHedged k.dstNode k.dstEp then
      (((s.setTx { t with open_ := t.open_.filter fun x => x.seq != seq }).bump .routeHedgeDrop).note u.owner
        (.refused Status.hedged)).flushFlow k 1024
    else if u.sends < 8 then
      let f := { u.frame with hdr := { u.frame.hdr with retx := true } }
      (s.setTx { t with open_ := t.open_.map fun x =>
        if x.seq == seq then { x with sends := x.sends + 1, age := 0 } else x }).originate f u.owner.tile
    else
      ((s.setTx { t with open_ := t.open_.filter fun x => x.seq != seq }).note u.owner (.lost u.waiting)).flushFlow k
        1024

/-- Members that have come under a destination hedge, or whose node is lost, no longer count for the multicast frames
that wait for them (R101, R270). -/
def State.pruneWaiting (s : State) : State :=
  (s.flow.tx.filter fun t => t.key.mc).foldl (fun s t =>
    let judged := t.open_.map fun u => (u, u.waiting.filter fun m => s.destHedged m.1 m.2 || s.isLost m.1)
    let s := s.setTx { t with open_ := judged.filterMap fun x =>
      let rest := x.1.waiting.filter fun m => !x.2.contains m
      if rest.isEmpty then none else some { x.1 with waiting := rest } }
    judged.foldl (fun s x =>
      let done := x.2.length == x.1.waiting.length
      let s := (x.2.filter fun m => s.destHedged m.1 m.2).foldl (fun s m =>
        s.note x.1.owner (.memberRefused m.1 m.2 Status.hedged false)) s
      if done then s.note x.1.owner .acked else s) s) s

/-- The flows of a job are discarded (R97). -/
def State.dropFlows (s : State) (job : Nat) : State :=
  { s with flow := { s.flow with
      tx := s.flow.tx.filter (fun f => f.key.sys || f.key.job != job)
      rx := s.flow.rx.filter (fun f => f.key.sys || f.key.job != job)
      fences := s.flow.fences.filter (fun f => f.1.sys || f.1.job != job) } }

/-- Open frames of an owner test are withdrawn: the sender stops them. -/
def State.withdraw (s : State) (p : Owner → Bool) : State :=
  { s with flow := { s.flow with tx := s.flow.tx.map fun t =>
      { t with open_ := t.open_.filter (fun u => !p u.owner), queue := t.queue.filter (fun x => !p x.2) } } }

/-! ## Internal deliveries -/

/-- The queue and the entry of a delivered frame, and whether the entry is the queue's head. -/
def State.internalEntry (s : State) (d : Delivery) : Option (Nat × Entry × Bool) :=
  s.sw.internal.findSome? fun kv =>
    (kv.2.find? fun e =>
      match s.sw.stored.get? e.stored with
      | some st => st.frame == d.frame && st.port == d.port
      | none => false).map fun e => (kv.1, e, kv.2.head? == some e)

/-- The source tile whose internal queues towards a tile are next in the rotation (R141). -/
def State.innerTurn (s : State) (dst : Nat) : Option Nat :=
  (rotated 8 (s.sw.innerPtr.getD dst 0)).find? fun t =>
    (List.range 8).any fun c => !(s.sw.internal.getD (internalKey t dst c) []).isEmpty

/-- The frame can be delivered now: it stands in no internal queue, or at the head of one whose source tile is next (R132,
R141). -/
def State.deliverable (s : State) (d : Delivery) : Bool :=
  match s.internalEntry d with
  | none => true
  | some (k, _, head) => head && s.innerTurn (k / 8 % 8) == some (k / 64)

/-- The internal queue entry of a delivered frame leaves its queue, and its cells' counts fall (R141, R149). -/
def State.takeInternal (s : State) (d : Delivery) : State :=
  match s.internalEntry d with
  | none => s
  | some (k, e, _) =>
    ({ s with sw := { s.sw with
        internal := s.sw.internal.upd k [] (fun q => q.erase e)
        innerPtr := s.sw.innerPtr.set (k / 8 % 8) ((k / 64 + 1) % 8) } }).releaseCopy e.stored

/-- A frame that the switch delivers to an internal endpoint leaves its queue, in the order of the queues, and is judged
there; one that the endpoint has refused before is refused again (R99). -/
def State.receive (s : State) (d : Delivery) (f : State → State) : State :=
  if !s.deliverable d then s
  else
    let s := s.takeInternal d
    match s.refusedBefore d.frame.hdr with
    | some st => s.refuseFrame d.frame.hdr d.frame.hdr.dstEp st
    | none => f s

/-- A link-local frame that came in on port `p` leaves its internal queue: its opcode, and the first byte of its payload where
that is given. -/
def State.takeLocal (s : State) (p op : Nat) (kind : Option Nat) : State :=
  let found := s.sw.internal.findSome? fun kv =>
    match kv.2 with
    | [] => none
    | e :: _ =>
      match s.sw.stored.get? e.stored with
      | some st =>
        if st.port == some p && st.frame.hdr.opcode == op && (kind.isNone || kind == some (getLE st.frame.payload 0 1)) then
          some ({ frame := st.frame, port := st.port } : Delivery)
        else none
      | none => none
  match found with
  | some d => s.takeInternal d
  | none => s

end Sys2Proof.Machine
end

