-- ==== Sys2Proof/Machine/Switch.lean ====
section
/-! DEFINITION. The switch core (chapter 6): the frame check in the order of Table 6.1, meters and drop profiles, the
central scheduler's plan, class 7, transmission, and ports leaving service. -/

namespace Sys2Proof.Machine

/-! ## Class 7 (R142, R143) -/

/-- The credit block (Table 4.2). -/
def creditBytes (granted : List Nat) : List Byte :=
  let b := leBytes 1 0x5A ++ zeros 1 ++ granted.flatMap (fun n => leBytes 3 (n % 2 ^ 24)) ++ zeros 2
  b ++ leBytes 4 (crc32c b)

/-- Cell times of a port at its running width (Table 6.3). -/
def State.cellTimes (s : State) (p : Nat) : Nat := Config.slotsP8 s.period * (s.port p).width / 8
/-- ⌊C / 8⌋ at the nominal width: the most a reservation may be (R142). -/
def State.c7Limit (s : State) : Nat := Config.slotsP8 s.period * s.nominal / 8 / 8
/-- The reservation r of a port. -/
def State.c7Reserve (s : State) (p : Nat) : Nat := s.sw.reserve.getD p 0
/-- The effective reservation r_o. -/
def State.c7Effective (s : State) (p : Nat) : Nat := min (s.c7Reserve p) (s.cellTimes p / 8)
/-- Class-7 budget left in the tick (R143). -/
def State.c7Budget (s : State) (p : Nat) : Nat := s.sw.budget.getD p 0

/-- A port's counter rose that breaks its promise of the hop bound in this tick (R146). -/
def State.breakBound (s : State) (p : Nat) : State :=
  { s with sw := { s.sw with broken := s.sw.broken.upd p 0 (fun b => b ||| 1) } }

/-- The first credit that the peer granted on virtual channels 6 and 7 meets R145: 32 KiB from a module, 16 KiB from an
endpoint. -/
def PortSt.grantOk (P : PortSt) : Bool :=
  let need := if (P.peer.map CapSet.kind) = some 1 then 256 else 512
  match P.firstGrant with
  | some g => decide (need ≤ g.1) && decide (need ≤ g.2)
  | none => false

/-- The class-7 frames that wait for a port on a tile. -/
def State.sevens (s : State) (p tile : Nat) : List Stored :=
  (s.sw.voqs.getD (voqKey tile p 7) []).filterMap fun e => s.sw.stored.get? e.stored

/-- The port promises the class-7 hop bound (R51, R144–R146): it is ACTIVE, the module is not in UNSYNC, neither counter of
R146 rose in this tick, the preceding tick's arrivals met the reservation, no oversize frame waits, the peer's first grant
was large enough, and class 7 stays within its minimum on every tile that feeds the port. -/
def State.boundHeld (s : State) (p : Nat) : Bool :=
  (s.port p).state == 5 && s.tick.state != 6 && s.sw.broken.getD p 0 == 0 && (s.port p).grantOk &&
  (List.range 8).all fun t =>
    ((s.sevens p t).isEmpty || decide (s.occ t 7 ≤ s.minCells t 7)) &&
    (s.sevens p t).all fun st => decide (st.frame.hdr.units ≤ 32)

/-! ## Credit (R87) -/

/-- Credit left of a cumulative pair. -/
def creditLeft (granted used : Nat) : Nat := (granted + 2 ^ 24 - used) % 2 ^ 24

/-- A port's link state changed. -/
def State.setPort (s : State) (p : Nat) (f : PortSt → PortSt) : State :=
  { s with link := { s.link with ports := s.link.ports.upd p {} f } }

/-- The receiver frees a frame's buffer: the credit is granted again and a credit block sent (R87). -/
def State.returnCredit (s : State) (p vc n : Nat) : State :=
  let s := s.setPort p fun P => { P with rxGranted := P.rxGranted.modify vc fun g => (g + n) % 2 ^ 24 }
  s.emit (.credit p (creditBytes (s.port p).rxGranted))

/-! ## The frame check (Table 6.1) -/

/-- The header rules of R91 that are judged at step 3. -/
def headerOk (h : Hdr) : Bool :=
  h.version == 1 && h.rsv == 0 && decide (1 ≤ h.units) && decide (h.units ≤ 128) && opcodes.contains h.opcode &&
  h.ext == extOpcodes.contains h.opcode && h.ttl != 0 && (h.cls != 7 || class7Opcodes.contains h.opcode)

/-- What an opcode asks of Stozil mode and of its job on the down port where it enters (R413, R414, R416, R419, R423): a
refusal status, if it breaks a rule. -/
def State.stozilRefusal (s : State) (p : Nat) (h : Hdr) (j : JobSt) : Option Nat :=
  if h.opcode = Op.stozil then
    let mine := s.stz.entries.filter fun e => e.job == h.job && e.port == p && e.isOpen
    let known := mine.any fun e => e.tag == h.opId % 65536 && e.root == h.dstNode
    if !((s.boot.carving.map Carving.stozil).getD false) then some Status.stozilDisabled
    else if !j.stozil then some Status.stozilMixed
    else if 64 ≤ p ∨ h.cls ≠ 3 then some Status.notPermitted
    else if h.dstEp ≠ 0xFFF1 then none
    else if known then none
    else if s.disabled 5 h.job then some Status.functionDisabled
    else if mine.isEmpty then none
    else some Status.opBusy
  else if j.stozil then some Status.stozilMixed
  else none

/-- The counters of a refusal by the down-port checks: for a STOZIL_OP one beside PORT_CHECK_DROP (R416, R419). -/
def checkCounts (p : Nat) (h : Hdr) (st : Nat) : Counts :=
  (.portCheckDrop, p, 1) ::
  (if h.opcode != Op.stozil then []
   else if st = Status.notPermitted then [(.collStozilPortRefused, 0, 1)]
   else if st = Status.opBusy then [(.collStozilSerialRefused, 0, 1)]
   else [])

/-- Verdict of the down-port checks of R96 and R92: passed, or dropped with perhaps a refusal. -/
inductive DownCheck where
  | pass
  | drop (refusal : Option (Nat × Bool))
  deriving DecidableEq, Repr

/-- The destination of a frame belongs to its job (R96). -/
def dstOk (h : Hdr) (j : JobSt) : Bool :=
  if mcastOpcodes.contains h.opcode then false
  else if internalEp h.dstEp then decide (h.dstEp - epBase < 4) && bit j.services (h.dstEp - epBase)
  else (j.rankOf h.dstNode h.dstEp).isSome

/-- The down-port checks (R96, R92, R413, R414). -/
def State.downCheck (s : State) (p : Nat) (h : Hdr) : DownCheck :=
  let peerId := ((s.port p).peer.map CapSet.id).getD 0xFFFF
  if h.srcNode != s.me || h.srcEp != peerId then .drop none
  else if h.sys || nodeOpcodes.contains h.opcode then .drop none
  else
    match s.host.jobs.get? h.job with
    | none =>
      let since := s.host.ending.contains h.job || (match s.host.ended.get? h.job with
        | some t => decide (s.tick.counter < t + 4096)
        | none => false)
      .drop (if since && acked h.opcode then some (Status.jobUnknown, true) else none)
    | some j =>
      if j.addr h.srcRank != some (h.srcNode, h.srcEp) then .drop none
      else
        match (if acked h.opcode then s.stozilRefusal p h j else none) with
        | some st => .drop (some (st, false))
        | none => if dstOk h j then .pass else .drop none

/-- The colour that a down port's meter gives a frame of `n` cells, and the buckets after it (R137). -/
def State.meter (s : State) (p cls n colour : Nat) : Nat × State :=
  let k := p * 8 + cls
  if s.cfg .portMeter k 0 16 = 0 then (colour, s)
  else
    let b := s.sw.meters.getD k (0, 0)
    if n ≤ b.1 && n ≤ b.2 then
      (colour, { s with sw := { s.sw with meters := s.sw.meters.set k (b.1 - n, b.2 - n) } })
    else if n ≤ b.2 then
      (max colour 1, { s with sw := { s.sw with meters := s.sw.meters.set k (b.1, b.2 - n) } })
    else (2, s)

/-- Cells in a VOQ (R138). -/
def State.voqCells (s : State) (tile port cls : Nat) : Nat :=
  ((s.sw.voqs.getD (voqKey tile port cls) []).map fun e =>
    ((s.sw.stored.get? e.stored).map fun x => x.cells.length).getD 0).sum

/-- Step 9: whether the profile drops the frame, and whether it is marked; one draw of the tile's generator (R138). -/
def State.profile (s : State) (port cls colour q : Nat) : Bool × Bool × State :=
  let pr := bits (s.reg .portClassProfile port) (4 * cls + 3) (4 * cls)
  let lo := s.cfg .portDropProfile (pr * 4 + min colour 2) 0 18
  let hi := s.cfg .portDropProfile (pr * 4 + min colour 2) 18 18
  let pm := s.cfg .portDropProfile (pr * 4 + min colour 2) 36 8
  let mark := s.cfg .portDropProfile (pr * 4 + 3) 0 18
  let markOn := s.cfg .portDropProfile (pr * 4 + 3) 18 1 = 1
  let n := s.fresh
  let drops :=
    if q < lo then false
    else if hi ≤ q then true
    else decide ((Config.freeWord n).toNat * (256 * (hi - lo)) < pm * (q - lo) * 2 ^ 32)
  (drops, markOn && decide (mark ≤ q), { s with fresh := n + 1 })

/-- A frame in reception recorded. -/
def State.setRxFrame (s : State) (p : Nat) (f : RxFrame) : State :=
  { s with sw := { s.sw with rx := s.sw.rx.set p f } }

/-- Reception into a discard window: nothing is allocated; the counters and the refusal are committed at the frame's end
(R131). -/
def State.discard (s : State) (p : Nat) (h : Hdr) (e : Option Ext) (counts : Counts) (refusal : Option Nat)
    (covered : Bool := true) : State :=
  s.setRxFrame p { hdr := h, extn := e, verdict := .drop refusal, covered := covered,
                   counts := counts.map fun c => (c.1.ctorIdx, c.2) }

/-- Steps 8 to 10 for a frame whose copies are known; `counts` are those of step 7. Copies to internal queues alone skip steps
8 and 9. -/
def State.admitRx (s : State) (p : Nat) (h : Hdr) (e : Option Ext) (copies : List Copy) (counts : Counts) : State :=
  let tile := s.tileOf p
  let n := frameCells h
  let outs := copies.filterMap fun c => c.port.map fun o => (o, s.voqCells tile o (schedClass h.cls c))
  let (colour, s) := if s.role p = 1 && !outs.isEmpty then s.meter p h.cls n h.colour else (h.colour, s)
  let worst := outs.foldl (fun a x => if a.2 < x.2 then x else a) ((outs.head?).getD (0, 0))
  let (drops, mark, s) :=
    if outs.isEmpty || h.cls = 7 then (false, false, s) else s.profile worst.1 h.cls colour worst.2
  if drops then s.discard p h e (counts ++ [(.portRedDrop, p * 3 + min colour 2, 1)]) none
  else if copies.isEmpty then
    s.setRxFrame p { hdr := h, extn := e, verdict := .taken, counts := counts.map fun c => (c.1.ctorIdx, c.2) }
  else
    match s.takeCells tile h.cls n copies.length with
    | (.inl r, s) => s.discard p h e (counts ++ [(r, p, 1)]) none
    | (.inr cells, s) =>
      s.setRxFrame p
        { hdr := h, extn := e, verdict := .taken, copies := copies, cells := cells.1, shared := cells.2, colour := colour,
          cong := mark, counts := counts.map fun c => (c.1.ctorIdx, c.2) }

/-- The trunk on which a frame came in, and its channel. -/
def State.arrivedOn (s : State) (p vc : Nat) : Option (Nat × Nat) :=
  if s.role p = 2 then some ((s.portEntry p).trunk, vc) else none

/-- A multicast frame is copied here: on the group's tree, or a detoured copy at its member module once its intermediate is
passed (R122, R123). -/
def State.copiesHere (s : State) (h : Hdr) : Bool :=
  mcastOpcodes.contains h.opcode &&
  (h.dstNode == h.srcNode || (h.dstNode == s.me && (h.phase == 1 || h.via == s.me || h.via == 0xFFFF)))

/-- Step 7, then steps 8 to 10. `handoff`: a reduction unit of this node takes the frame (R130, R228). -/
def State.routeRx (s : State) (p : Nat) (h : Hdr) (e : Option Ext) (handoff : Bool) : State :=
  let first := s.role p == 1
  if handoff then s.admitRx p h e [{ port := none }] []
  else if s.copiesHere h then
    let (cs, n) := s.mcCopies h false (s.arrivedOn p h.vc)
    let (ok, bad) := s.fitCopies h (some p) cs
    s.admitRx p h e ok (n ++ bad)
  else
    match s.routeOf h first (s.arrivedOn p h.vc) with
    | (.none, n, v, d) => s.discard p h e (routeCounts n v d ++ [(.routeUnroutable, 0, 1)]) none
    | (.hedged, _, _, _) => s.discard p h e [(.routeHedgeDrop, 0, 1)] (some (Status.hedged + 65536))
    | (.deliver, n, v, d) => s.admitRx p h e [{ port := none }] (routeCounts n v d)
    | (.out c, n, v, d) =>
      if s.payloadOk h c then s.admitRx p h e [c] (routeCounts n v d)
      else s.discard p h e (routeCounts n v d ++ [(.portHdrDrop, p, 1)]) none

/-- Steps 4 to 10. -/
def State.checkRx (s : State) (p : Nat) (h : Hdr) (e : Option Ext) (handoff : Bool) : State :=
  let free := h.opcode == Op.discovery || h.opcode == Op.tickAnnounce
  let hedgedDrop := s.discard p h e [(.routeHedgeDrop, 0, 1)] (some (Status.hedged + 65536))
  if (s.route p).state != 2 && !free then s.discard p h e [(.routeHeldDrop, 0, 1)] none
  else
    match (if s.role p = 1 then s.downCheck p h else .pass) with
    | .drop none => s.discard p h e [(.portCheckDrop, p, 1)] none
    | .drop (some (st, rated)) => s.discard p h e (checkCounts p h st) (some (if rated then st + 65536 else st))
    | .pass =>
      if !free && s.portHedged p then hedgedDrop
      else if s.role p == 1 && s.hedgeStops h then hedgedDrop
      else if h.dstNode == s.me && s.lateHedged h then
        s.discard p h e [(.routeLateDrop, 0, 1)] (some (Status.hedged + 65536))
      else s.routeRx p h e handoff

/-- What a unit's first byte says (R85). -/
inductive UnitKind where
  | idle
  | control
  | reserved
  | start
  | error
  deriving DecidableEq, Repr

/-- The classification of R85; the control blocks are those of Table 4.1. -/
def unitKind (b : Nat) : UnitKind :=
  if b = 0x00 then .idle
  else if [0x58, 0x59, 0x5A, 0x5C, 0x5E].contains b then .control
  else if 0x58 ≤ b ∧ b ≤ 0x5F then .reserved
  else if [0x01, 0x11, 0x21, 0x31].contains b then .start
  else .error

/-- The receiver of a port begins or ends discarding units (R85). -/
def State.setDiscarding (s : State) (p : Nat) (b : Bool) : State := s.setPort p fun P => { P with discarding := b }

/-- A unit has arrived on a port (R85, R130): after a framing error everything is discarded until the next idle unit or
control block; the start of a frame runs steps 1 to 10 of Table 6.1. -/
def State.headerReceived (s : State) (p firstByte : Nat) (h : Hdr) (e : Option Ext) (handoff : Bool) : State :=
  if (s.port p).state != 5 || s.isSafe then s
  else
    match unitKind firstByte with
    | .idle | .control => s.setDiscarding p false
    | .reserved => (s.setDiscarding p false).bump .portFrameErr p
    | .error => if (s.port p).discarding then s else (s.setDiscarding p true).bump .portFrameErr p
    | .start =>
      if (s.port p).discarding then s
      else
        let P := s.port p
        let n := frameCredit h
        if creditLeft (P.rxGranted.getD h.vc 0) (P.rxUsed.getD h.vc 0) < n then
          s.discard p h e [(.portCreditViol, p, 1)] none false
        else
          let s := s.setPort p fun P => { P with rxUsed := P.rxUsed.modify h.vc fun u => (u + n) % 2 ^ 24 }
          if !headerOk h then s.discard p h e [(.portHdrDrop, p, 1)] none else s.checkRx p h e handoff

/-- The register of a drop counter. -/
def Reg.ofIdx (n : Nat) : Reg := (Reg.all.find? fun r => r.ctorIdx == n).getD .portHdrDrop

/-- The refusal of a committed drop: a status, plus 65,536 where it is sent at most once per flow per 256 ticks. -/
def State.sendRefusal (s : State) (h : Hdr) (st : Option Nat) : State :=
  match st with
  | none => s
  | some n =>
    if !acked h.opcode then s
    else if 65536 ≤ n then s.ratedRefusal h (n - 65536) else s.transitAck h 2 n

/-! ## Ports leaving service (R150) -/

/-- The port may hold entries of frames other than link-local ones: its link is ACTIVE and it is IN_SERVICE. -/
def State.portOpen (s : State) (p : Nat) : Bool := (s.port p).state == 5 && (s.route p).state == 2

/-- A stored frame is dropped: every entry of it leaves its queue, and its cells are freed (Table 16.1, class 7). -/
def State.dropStored (s : State) (id : Nat) : State :=
  let cut := fun (_ : Nat) (q : List Entry) => q.filter fun e => e.stored != id
  let n := ((s.sw.stored.get? id).map Stored.refs).getD 0
  let s := { s with sw := { s.sw with voqs := NMap.mapV s.sw.voqs cut, internal := NMap.mapV s.sw.internal cut } }
  (List.range n).foldl (fun (s : State) _ => s.releaseCopy id) s

/-- One entry of a port that leaves service: a link-local frame stays on an ACTIVE link (R112); a frame whose trunk is present
is re-hashed to another of its ports; any other entry is dropped. `drain`: nothing is re-hashed (R78). -/
def State.moveEntry (s : State) (p tile cls : Nat) (drain : Bool) (e : Entry) : State :=
  match s.sw.stored.get? e.stored with
  | none => s
  | some st =>
    let h := st.frame.hdr
    if h.dstNode = 0xFFFF && (s.port p).state = 5 && !drain then
      { s with sw := { s.sw with voqs := s.sw.voqs.upd (voqKey tile p cls) [] (fun q => q ++ [e]) } }
    else
      match (if s.role p = 2 && h.dstNode != 0xFFFF && !drain then s.pickPort (s.portEntry p).trunk h else none) with
      | some q => s.enqueue e.stored tile st.cls 0 h { e.copy with port := some q }
      | none => (s.bump .portFlushDrop p).releaseCopy e.stored

/-- Every entry of a port's queues is moved or dropped, and its grants lapse. -/
def State.flushPort (s : State) (p : Nat) (drain : Bool := false) : State :=
  let keys := (List.range 8).flatMap fun t => (List.range 8).map fun c => (t, c)
  let s := keys.foldl (fun (s : State) tc =>
    let k := voqKey tc.1 p tc.2
    match s.sw.voqs.get? k with
    | none => s
    | some q =>
      q.foldl (fun s e => s.moveEntry p tc.1 tc.2 drain e) { s with sw := { s.sw with voqs := s.sw.voqs.erase k } }) s
  { s with sw := { s.sw with plan := s.sw.plan.filter (fun g => g.port != p)
                             nextPlan := s.sw.nextPlan.filter (fun g => g.port != p) } }

/-! ## The frame's end -/

/-- The frame that is stored: its colour and mark as this node leaves them. -/
def RxFrame.frame (f : RxFrame) (payload : List Byte) : Frame :=
  { hdr := { f.hdr with colour := f.colour, cong := f.hdr.cong || f.cong }, extn := f.extn, payload := payload }

/-- A frame given up after its cells were taken (R131). -/
def State.dropRx (s : State) (p : Nat) (f : RxFrame) : State :=
  if f.copies.isEmpty then s else s.returnCells (s.tileOf p) f.hdr.cls f.cells f.shared

/-- The counters that a frame's header decided are committed (R131). -/
def State.commitCounts (s : State) (f : RxFrame) : State :=
  s.count (f.counts.map fun c => (Reg.ofIdx c.1, c.2))

/-- A frame's last unit has arrived (R131): steps 11 and 12; a drop is committed, or the frame becomes eligible. The hop CRC
is absent where an uncorrectable codeword touched the frame, which is then lost (R56, R87). -/
def State.frameEnd (s : State) (p : Nat) (payload : List Byte) (e2e : Nat) (hop : Option Nat) : State :=
  match s.sw.rx.get? p with
  | none => s
  | some f =>
    let s := { s with sw := { s.sw with rx := s.sw.rx.erase p } }
    let s := if f.covered then s.returnCredit p f.hdr.vc (frameCredit f.hdr) else s
    if some (hopCrc f.hdr f.extn payload e2e) != hop || payload.length != f.hdr.units * 64 then
      (s.dropRx p f).bump .portHopCrcDrop p
    else
      let s := (s.bump .portRxFrames p).commitCounts f
      match f.verdict with
      | .drop refusal => s.sendRefusal f.hdr refusal
      | .taken =>
        if e2eCrc f.hdr f.extn payload != e2e then
          ((s.dropRx p f).bump .portE2eCrcDrop p).report
            { cls := 5, master := switchMaster (s.tileOf p), access := 5, detail := p }
        else if f.copies.isEmpty then s
        else
          let s := s.storeFrame (f.frame payload) (some p) (s.tileOf p) f.hdr.cls (f.cells, f.shared) f.cong f.copies
          ((f.copies.filterMap Copy.port).filter fun o => !s.portOpen o).foldl (fun s o => s.flushPort o) s

/-! ## The plan (R139) -/

/-- Demand of the captures: (port, class 0–6, tile, cells). -/
def State.captures (s : State) : List (Nat × Nat × Nat × Nat) :=
  s.sw.voqs.filterMap fun kv =>
    let cls := kv.1 % 8
    let port := kv.1 / 8 % 512
    let tile := kv.1 / 4096
    let n := s.voqCells tile port cls
    if cls = 7 ∨ n = 0 ∨ (s.port port).state ≠ 5 then none else some (port, cls, tile, n)

/-- Amounts of (name, weight, demand) served from `u`: a demand within its share is kept, the excess divided again;
what does not divide goes one each in the order given. -/
def shareOut (order : List Nat) : Nat → Nat → List (Nat × Nat × Nat) → List (Nat × Nat)
  | 0, _, _ => []
  | fuel + 1, u, ds =>
    let w := (ds.map fun d => d.2.1).sum
    if w = 0 then []
    else
      let small := ds.filter fun d => decide (d.2.2 * w ≤ u * d.2.1)
      if small.isEmpty then
        let base := ds.map fun d => (d.1, u * d.2.1 / w)
        let left := u - (base.map Prod.snd).sum
        let lucky := (order.filter fun n => ds.any fun d => d.1 == n).take left
        base.map fun b => (b.1, b.2 + if lucky.contains b.1 then 1 else 0)
      else
        let rest := ds.filter fun d => !(decide (d.2.2 * w ≤ u * d.2.1))
        (small.map fun d => (d.1, d.2.2)) ++
          shareOut order fuel (u - (small.map fun d => d.2.2).sum) rest

/-- Class allocations of a port (step 2): leftover cells from class 6 downwards. -/
def State.classAlloc (s : State) (p u : Nat) (ds : List (Nat × Nat × Nat × Nat)) : List (Nat × Nat) :=
  let w := s.reg .schedClassWeight p
  let byClass := (List.range 7).filterMap fun c =>
    let d := ((ds.filter fun x => x.2.1 == c).map fun x => x.2.2.2).sum
    if d = 0 then none else some (c, bits w (4 * c + 3) (4 * c), d)
  shareOut [6, 5, 4, 3, 2, 1, 0] 8 u byClass

/-- Tile grants of a class allocation (step 3): leftover cells in rotating order from the grant pointer. -/
def State.tileGrants (s : State) (p c a : Nat) (ds : List (Nat × Nat × Nat × Nat)) : List Grant :=
  let byTile := (ds.filter fun x => x.2.1 == c).map fun x => (x.2.2.1, 1, x.2.2.2)
  (shareOut (rotated 8 (s.sw.grantPtr.getD (p * 8 + c) 0)) 9 a byTile).filterMap fun tn =>
    if tn.2 = 0 then none else some ⟨p, c, tn.1, tn.2⟩

/-- The grants offered in one round: to each port its cells to offer. -/
def State.offers (s : State) (us : List (Nat × Nat)) (ds : List (Nat × Nat × Nat × Nat)) : List Grant :=
  us.flatMap fun pu =>
    let mine := ds.filter fun x => x.1 == pu.1
    (s.classAlloc pu.1 pu.2 mine).flatMap fun ca => s.tileGrants pu.1 ca.1 ca.2 mine

/-- One tile accepts grants in rotating order of output port until its budget is reached. -/
def acceptTile (budget : Nat) : List Grant → List Grant
  | [] => []
  | g :: gs =>
    let n := min g.cells budget
    if n = 0 then acceptTile (budget - n) gs else { g with cells := n } :: acceptTile (budget - n) gs

/-- The ports from a pointer onwards, wrapping. -/
def rotateBy (ptr : Nat) (gs : List Grant) : List Grant :=
  (gs.filter fun g => decide (ptr ≤ g.port)) ++ (gs.filter fun g => decide (g.port < ptr))

/-- Accepted grants of a round: tile by tile, with the budget each tile has left. -/
def State.accepts (s : State) (spent : Nat → Nat) (offered : List Grant) : List Grant :=
  (List.range 8).flatMap fun t =>
    acceptTile (16 * Config.slotsP8 s.period - spent t)
      (rotateBy (s.sw.acceptPtr.getD t 0) (offered.filter fun g => g.tile == t))

/-- Cells that a list of grants gives a (port, class, tile). -/
def grantedTo (gs : List Grant) (p c t : Nat) : Nat :=
  ((gs.filter fun g => g.port == p && g.cls == c && g.tile == t).map Grant.cells).sum

/-- Cells that a list of grants gives a tile, or a port. -/
def grantedTile (gs : List Grant) (t : Nat) : Nat := ((gs.filter fun g => g.tile == t).map Grant.cells).sum
def grantedPort (gs : List Grant) (p : Nat) : Nat := ((gs.filter fun g => g.port == p).map Grant.cells).sum

/-- The matching rounds: offers, accepts, then the unmet demand and the refused cells again. -/
def State.rounds (s : State) (ds : List (Nat × Nat × Nat × Nat)) :
    Nat → List (Nat × Nat) → List Grant → List Grant
  | 0, _, acc => acc
  | n + 1, us, acc =>
    let budget := 16 * Config.slotsP8 s.period
    let open_ := (ds.map fun d => (d.1, d.2.1, d.2.2.1, d.2.2.2 - grantedTo acc d.1 d.2.1 d.2.2.1)).filter
      fun d => decide (0 < d.2.2.2) && decide (grantedTile acc d.2.2.1 < budget)
    let offered := s.offers us open_
    let got := s.accepts (grantedTile acc) offered
    let us' := (us.map fun pu => (pu.1, grantedPort offered pu.1 - grantedPort got pu.1)).filter
      fun pu => decide (0 < pu.2)
    s.rounds ds n us' (acc ++ got)

/-- The grant pointers and accept pointers after the first round's accepts. -/
def State.movePointers (s : State) (first : List Grant) : State :=
  let keys := (first.map fun g => (g.port, g.cls)).dedup
  let gp := keys.foldl (fun m k =>
    let ptr := m.getD (k.1 * 8 + k.2) 0
    match (rotated 8 ptr).find? fun t => first.any fun g => g.port == k.1 && g.cls == k.2 && g.tile == t with
    | some t => NMap.set m (k.1 * 8 + k.2) ((t + 1) % 8)
    | none => m) s.sw.grantPtr
  let ap := (List.range 8).foldl (fun m t =>
    match first.find? fun g => g.tile == t with
    | some g => NMap.set m t (g.port + 1)
    | none => m) s.sw.acceptPtr
  { s with sw := { s.sw with grantPtr := gp, acceptPtr := ap } }

/-- The captures from which a tick is planned: a tile of `lateTiles` is planned from its previous one (R141). -/
def State.capturesFor (s : State) (lateTiles : List Nat) : List (Nat × Nat × Nat × Nat) :=
  (s.captures.filter fun d => !lateTiles.contains d.2.2.1) ++ (s.sw.captured.filter fun d => lateTiles.contains d.2.2.1)

/-- The scheduler at a boundary: the plan made in the last tick comes into force, and the next one is made from the
captures; a late plan is what the rounds completed so far have granted (R139, R141, R52). -/
def State.scheduleTick (s : State) (late : Option Nat) (lateTiles : List Nat) : State :=
  let ds := s.capturesFor lateTiles
  let us := (ds.map fun d => d.1).dedup.map fun p => (p, s.cellTimes p - s.c7Effective p)
  let iters := s.cfg .schedConfig 0 0 3
  let n := min iters (late.getD iters)
  let first := s.accepts (fun _ => 0) (s.offers us ds)
  let s := if late.isSome then s.bump .schedPlanLate else s
  let s' := if n = 0 then s else s.movePointers first
  { s' with sw := { s'.sw with plan := s.sw.nextPlan, nextPlan := s.rounds ds n us [], captured := ds } }

/-- The per-tick work of the ports: budgets, meters, and the promise of the hop bound (R137, R143, R146). -/
def State.switchTick (s : State) : State :=
  let ports := s.sw.c7In.keys
  let broken : NMap Nat := ports.filterMap fun p =>
    if s.c7Effective p < s.sw.c7In.getD p 0 then some (p, 2) else none
  let lo := Reg.portMeter.key 0
  let meters := s.regs.foldl (fun (m : NMap (Nat × Nat)) kv =>
    if lo ≤ kv.1 ∧ kv.1 < lo + 4096 ∧ bits kv.2 15 0 ≠ 0 then
      let b := m.getD (kv.1 - lo) (0, 0)
      NMap.set m (kv.1 - lo) (min (b.1 + bits kv.2 15 0) (bits kv.2 47 32),
                              min (b.2 + bits kv.2 31 16) (bits kv.2 63 48))
    else m) s.sw.meters
  let budget : NMap Nat := s.sw.reserve.keys.filterMap fun p =>
    if s.c7Effective p = 0 then none else some (p, s.c7Effective p)
  { s with sw := { s.sw with budget := budget, c7In := [], broken := broken, meters := meters } }

/-- A port's effective class-7 reservation has come to lie below its reservation: an event (R142). -/
def State.scaleEvent (s : State) (p old : Nat) : State :=
  let r := s.c7Effective p
  if r < s.c7Reserve p && r != old then
    s.event 2 0x04 0x0010 (leBytes 2 p ++ leBytes 1 (s.c7Reserve p) ++ leBytes 1 r)
  else s

/-! ## Transmission (R133, R140, R143, R149) -/

/-- The header of a copy as it leaves: channel, phase and intermediate of the hop, a hop less where it is forwarded. -/
def copyHdr (st : Stored) (c : Copy) : Hdr :=
  let h := st.frame.hdr
  { h with vc := c.vc, phase := c.phase, via := c.via, dstNode := c.dst.getD h.dstNode,
           ttl := if st.port.isSome then h.ttl - 1 else h.ttl }

/-- A planned grant spent by `n` cells. -/
def spendGrant (p c t : Nat) : Nat → List Grant → List Grant
  | _, [] => []
  | 0, gs => gs
  | n, g :: gs =>
    if g.port = p ∧ g.cls = c ∧ g.tile = t then
      if g.cells ≤ n then spendGrant p c t (n - g.cells) gs else { g with cells := g.cells - n } :: gs
    else g :: spendGrant p c t n gs

/-- The head of a queue: its entry and its frame. -/
def State.headOf (s : State) (p tile cls : Nat) : Option (Entry × Stored) :=
  match s.sw.voqs.getD (voqKey tile p cls) [] with
  | [] => none
  | e :: _ => (s.sw.stored.get? e.stored).map fun st => (e, st)

/-- The peer's credit covers a queue's head (R133). -/
def State.covered (s : State) (p tile cls : Nat) : Bool :=
  match s.headOf p tile cls with
  | none => false
  | some (e, st) =>
    let P := s.port p
    decide (frameCredit st.frame.hdr ≤ creditLeft (P.txGranted.getD e.copy.vc 0) (P.txUsed.getD e.copy.vc 0))

/-- Why a port serves a queue (R140, R143). -/
inductive Serve where
  /-- Class 7 within the budget. -/
  | seven
  /-- A grant of the plan. -/
  | planned
  /-- Opportunistic fill. -/
  | fill
  /-- Class 7 beyond the budget, where the port would be idle. -/
  | beyond
  deriving DecidableEq, Repr

/-- A queue's head fits in the class-7 budget. -/
def State.inBudget (s : State) (p tile : Nat) : Bool :=
  match s.headOf p tile 7 with
  | none => false
  | some (_, st) => decide (st.cells.length ≤ s.c7Budget p)

/-- The queues of classes 6 to 0 in the order of the opportunistic rotation, by (6 − class) × 8 + tile (R140). -/
def fillOrder (ptr : Nat) : List Nat := rotated 56 ptr

/-- Why the port serves queue (tile, class) next, among the queues that `ready` allows; none where another goes first:
class 7 within its budget, then the grants in the order they were made, then the opportunistic rotation, then class 7
beyond its budget (R140, R143). -/
def State.serves (s : State) (p tile cls : Nat) (ready : Nat → Nat → Bool) : Option Serve :=
  let tiles := List.range 8
  let seven := fun t => ready t 7 && s.inBudget p t
  if cls = 7 ∧ seven tile = true then some .seven
  else if tiles.any seven then none
  else
    match s.sw.plan.find? fun g => g.port == p && ready g.tile g.cls with
    | some g => if g.tile = tile ∧ g.cls = cls then some .planned else none
    | none =>
      let next := if s.cfg .schedConfig 0 3 1 = 0 then none else
        (fillOrder (s.sw.fill.getD p 0)).find? fun i => ready (i % 8) (6 - i / 8)
      match next with
      | some i => if i % 8 = tile ∧ 6 - i / 8 = cls ∧ cls ≠ 7 then some .fill else none
      | none => if cls = 7 ∧ ready tile 7 = true then some .beyond else none

/-- The grants, the budget and the rotation after a copy of `n` cells has been served. -/
def State.spend (s : State) (p tile cls n : Nat) (w : Serve) : State :=
  match w with
  | .planned => { s with sw := { s.sw with plan := spendGrant p cls tile n s.sw.plan } }
  | .fill => { s with sw := { s.sw with fill := s.sw.fill.set p (((6 - cls) * 8 + tile + 1) % 56) } }
  | .seven => { s with sw := { s.sw with budget := s.sw.budget.set p (s.c7Budget p - n) } }
  | .beyond => ({ s with sw := { s.sw with budget := s.sw.budget.set p (s.c7Budget p - n) } }.bump .schedC7Excess p).breakBound p

/-- The lanes of a port that are in use, rising: its 32 B units go to them in turn (R55). -/
def State.lanesInUse (s : State) (p : Nat) : List Nat :=
  (rangeFrom (p * s.nominal) s.nominal).filter fun n => (s.lane n).inUse

/-- A copy goes out on its port: credit, counters, the frame with its trailer, and its cells (R90, R149). -/
def State.sendCopy (s : State) (p : Nat) (e : Entry) (st : Stored) : State :=
  let h := copyHdr st e.copy
  let f := { st.frame with hdr := h }
  let credit := frameCredit h
  let s := if schedClass st.cls e.copy = 7 && decide (32 < h.units) then (s.bump .schedC7Oversize p).breakBound p else s
  let s := s.setPort p fun P => { P with txUsed := P.txUsed.modify e.copy.vc fun u => (u + credit) % 2 ^ 24 }
  let s := (s.bump .portTxFrames p).bump .portTxCells (p * 8 + st.cls) st.cells.length
  let s := if st.marked then s.bump .portMarked p else s
  let e2e := e2eCrc h f.extn f.payload
  (s.emit (.frame p (s.lanesInUse p) f e2e (hopCrc h f.extn f.payload e2e))).releaseCopy e.stored

/-- The last cell of a queue's head copy has left the port (R149), where the port serves that queue next. A head that the
peer's credit does not cover is passed over when its turn comes, and counted (R133). -/
def State.transmit (s : State) (p tile cls : Nat) : State :=
  match s.headOf p tile cls with
  | none => s
  | some (e, st) =>
    if (s.port p).state != 5 || s.isSafe then s
    else
      match s.serves p tile cls fun t c => (t == tile && c == cls) || s.covered p t c with
      | none => s
      | some w =>
        if !s.covered p tile cls then s.bump .portCreditStall p
        else
          (({ s with sw := { s.sw with voqs := s.sw.voqs.upd (voqKey tile p cls) [] List.tail } }).spend p tile cls
            st.cells.length w).sendCopy p e st

/-! ## Queues of a port -/

/-- A port's queues are empty. -/
def State.portEmpty (s : State) (p : Nat) : Bool :=
  (List.range 8).all fun t => (List.range 8).all fun c => (s.sw.voqs.getD (voqKey t p c) []).isEmpty

end Sys2Proof.Machine
end

