-- ==== Sys2Proof/Machine/Stash.lean ====
section
/-! DEFINITION. The activation stash (chapter 12): reservations, entries and their extents, puts, gets and drops, and what
ends them. -/

namespace Sys2Proof.Machine

/-- The stash unit changed. -/
def State.setStash (s : State) (f : StashSt → StashSt) : State := { s with stash := f s.stash }

/-- A job's reservation changed. -/
def State.setRes (s : State) (job : Nat) (r : StashRes) : State :=
  s.setStash fun x => { x with res := x.res.set job r }

/-! ## Extents (R275, R277, R278, R283) -/

/-- Size of an extent. -/
def StashRes.extent (r : StashRes) : Nat := 2 ^ r.extentLog2

/-- Bytes of the lookup table, rounded up to a whole extent (R275). -/
def stashTable (maxEntries extentLog2 : Nat) : Nat := ceilDiv (32 * maxEntries) (2 ^ extentLog2) * 2 ^ extentLog2

/-- Spans of a reservation (R275). -/
def stashSpans (reserved maxEntries extentLog2 : Nat) : Nat :=
  ceilDiv (reserved + stashTable maxEntries extentLog2) span

/-- Addresses of the extents of a span. -/
def spanExtents (extent n : Nat) : List Nat := (List.range (span / extent)).map fun i => n * span + i * extent

/-- The reserved extents: those of the spans after the lookup table, less those lost (R275, R295). -/
def StashRes.reservedExtents (r : StashRes) : List Nat :=
  (((runsList r.spans).flatMap (spanExtents r.extent)).drop (stashTable r.maxEntries r.extentLog2 / r.extent)).filter
    fun a => !r.gone.contains a

/-- The extents of the borrowed spans. -/
def StashRes.borrowedExtents (r : StashRes) : List Nat :=
  (r.borrowed.flatMap (spanExtents r.extent)).filter fun a => !r.gone.contains a

/-- A job's entries. -/
def State.stashEnts (s : State) (job : Nat) : List StashEnt := s.stash.ents.filter fun e => e.job == job

/-- Extents that a job's entries hold of one source. -/
def State.stashUsed (s : State) (job : Nat) (borrowed : Bool) : List Nat :=
  ((s.stashEnts job).filter fun e => e.borrowed == borrowed).flatMap StashEnt.extents

/-- Channel groups G of an extent size (R283). -/
def stashGroups (extentLog2 : Nat) : Nat := 2 ^ (19 - extentLog2)

/-- The channel group of an extent. -/
def extentGroup (extentLog2 a : Nat) : Nat := a % 524288 / 2 ^ extentLog2

/-- `n` extents out of the free ones, from channel groups in rotating order after `last`; a group with none is passed over,
the lowest address first within a group (R283). -/
def pickExtents (extentLog2 : Nat) : Nat → Nat → List Nat → List Nat × Nat
  | 0, last, _ => ([], last)
  | n + 1, last, free =>
    let g := stashGroups extentLog2
    match (rotated g (last + 1)).findSome? fun x => free.find? fun a => extentGroup extentLog2 a == x with
    | none => ([], last)
    | some a =>
      let r := pickExtents extentLog2 n (extentGroup extentLog2 a) (free.filter (· != a))
      (a :: r.1, r.2)

/-- Addresses in rising order. -/
def sortNats (l : List Nat) : List Nat := l.mergeSort fun a b => decide (a ≤ b)

/-- Extents for a new entry of `n`: reserved ones under the guarantee of R277, else borrowed ones under R278; the extents,
whether they are borrowed, and the reservation after the choice. None where neither rule allows the creation. -/
def State.stashRoom (s : State) (job : Nat) (r : StashRes) (n : Nat) : Option (List Nat × Bool × StashRes) :=
  let usedR := s.stashUsed job false
  let usedB := s.stashUsed job true
  let freeR := r.reservedExtents.filter fun a => !usedR.contains a
  if r.maxEntries ≤ (s.stashEnts job).length then none
  else if n ≤ freeR.length then
    let x := pickExtents r.extentLog2 n r.lastGroup freeR
    some (x.1, false, { r with lastGroup := x.2 })
  else
    let freeB := r.borrowedExtents.filter fun a => !usedB.contains a
    let fresh := ceilDiv (n - freeB.length) (span / r.extent)
    let floor := s.cfg .stashCfg 0 32 16 * 2 ^ 30
    if r.limit < (usedR.length + usedB.length + n) * r.extent then none
    else if s.capacityLeft < fresh * span + floor + 1 then none
    else
      match takeRuns fresh (s.freeUnits span) with
      | none => none
      | some runs =>
        let r := { r with borrowed := r.borrowed ++ runsList runs }
        let x := pickExtents r.extentLog2 n r.lastGroup (sortNats (freeB ++ (runsList runs).flatMap (spanExtents r.extent)))
        some (x.1, true, { r with lastGroup := x.2 })

/-- Borrowed spans that hold no extent return to the remainder (R278). -/
def State.returnSpans (s : State) (job : Nat) : State :=
  match s.stash.res.get? job with
  | none => s
  | some r =>
    let used := s.stashUsed job true
    let keep := r.borrowed.filter fun n => used.any fun a => a / span == n
    let left := r.gone.filter fun a => !(r.borrowed.contains (a / span) && !keep.contains (a / span))
    s.setRes job { r with borrowed := keep, gone := left }

/-- An entry is freed: its extents and its context return at once (R282). -/
def State.freeEntry (s : State) (e : StashEnt) : State :=
  (s.setStash fun x => { x with ents := x.ents.filter fun y =>
    !(y.job == e.job && y.holder == e.holder && y.tag == e.tag) }).returnSpans e.job

/-- The entry of a key. -/
def State.stashEnt (s : State) (job holder tag : Nat) : Option StashEnt :=
  s.stash.ents.find? fun e => e.job == job && e.holder == holder && e.tag == tag

/-- An entry changed. -/
def State.setEnt (s : State) (e : StashEnt) : State :=
  s.setStash fun x => { x with ents := x.ents.map fun y =>
    if y.job == e.job && y.holder == e.holder && y.tag == e.tag then e else y }

/-- Segments of an entry (R281). -/
def StashEnt.segments (e : StashEnt) : Nat := ceilDiv e.bytes 4096

/-- Address of a segment (R281). -/
def StashEnt.segAddr (e : StashEnt) (extent seg : Nat) : Nat :=
  e.extents.getD (4096 * seg / extent) 0 + 4096 * seg % extent

/-- Bytes of a segment (R285). -/
def segSize (bytes seg : Nat) : Nat := min 4096 (bytes - 4096 * seg)

/-- Gets in flight on an entry. -/
def State.getsOn (s : State) (e : StashEnt) : List StashGet :=
  s.stash.gets.filter fun g => g.job == e.job && g.holder == e.holder && g.tag == e.tag

/-! ## Reservations (R274–R276) -/

/-- STASH.RESERVE: a status, or the op_id and the state with the reservation. -/
def State.stashReserve (s : State) (job extentLog2 maxEntries reserved limit : Nat) : Nat ⊕ Nat × State :=
  let most := s.usable - Config.contextBytes
  if most < reserved ∨ limit < reserved ∨ 2 ^ 40 < limit ∨ maxEntries = 0 ∨ 262144 < maxEntries ∨ extentLog2 < 16 ∨
      24 < extentLog2 then .inl Status.descInvalid
  else if (s.stash.res.get? job).isSome then .inl Status.opBusy
  else
    let n := stashSpans reserved maxEntries extentLog2
    if s.capacityLeft < n * span then .inl Status.capacityExceeded
    else
      match takeRuns n (s.freeUnits span), takeRuns maxEntries s.freeCtxs with
      | none, _ => .inl Status.capacityExceeded
      | _, none => .inl Status.contextFull
      | some spans, some ctxs =>
        let c := (ctxs.head?.map Prod.fst).getD 0
        let s := s.newGen c
        .inr (s.opId c, (s.setRes job
          { reserved := reserved, limit := limit, maxEntries := maxEntries, extentLog2 := extentLog2, opId := s.opId c,
            ctxs := ctxs, spans := spans, lastGroup := stashGroups extentLog2 - 1 }).assignSubstitutes)

/-! ## Ends of gets (R288, R293) -/

/-- A get's frames that are not settled are withdrawn. -/
def State.withdrawGet (s : State) (id : Nat) : State :=
  s.withdraw fun o => match o with
    | .stash g _ _ => g == id
    | _ => false

/-- A get is over: it leaves its entry as Table 12.2 states. -/
def State.getOver (s : State) (g : StashGet) (ok : Bool) : State :=
  let s := s.setStash fun x => { x with gets := x.gets.filter fun y => y.id != g.id }
  match s.stashEnt g.job g.holder g.tag with
  | none => s
  | some e =>
    let left := (s.getsOn e).length
    let after := if g.dropAfter then ok else e.dropAfter
    let again := g.dropAfter && !ok && !e.dropPending
    if e.state != 3 then s
    else if again then (s.setEnt { e with state := 2, dropAfter := false, stamp := s.stamp }).stamped
    else if left = 0 ∧ (e.dropPending ∨ after) then (s.freeEntry e).bump .stashDropped
    else s.setEnt { e with dropAfter := if g.dropAfter && !ok then false else e.dropAfter }

/-- The payload of a STASH_REPLY (Table 12.3). -/
def replyBytes (tag seq status segments bytes : Nat) (t : Stamp) : List Byte :=
  leBytes 8 tag ++ leBytes 4 seq ++ leBytes 2 status ++ zeros 2 ++ leBytes 4 segments ++ leBytes 4 bytes ++ t.bytes ++
  zeros 30

/-- The header of a frame that answers a get (R284). -/
def State.stashHdr (s : State) (g : StashGet) (op units position : Nat) (last : Bool) : Hdr :=
  { opcode := op, cls := g.cls, dstNode := g.node, dstEp := g.ep, srcNode := s.me, srcEp := 0xFFF2, job := g.job,
    units := units, last := last, opId := g.opId, position := position }

/-- The STASH_REPLY of a get is sent. -/
def State.sendReply (s : State) (g : StashGet) (status bytes : Nat) : State :=
  let t := s.stamp
  let s := s.stamped
  let s := s.setStash fun x => { x with gets := x.gets.map fun y =>
    if y.id == g.id then { y with replied := true } else y }
  s.send { hdr := s.stashHdr g Op.stashReply 1 0 true,
           payload := replyBytes g.tag g.seq status (if status = Status.ok then g.segments else 0) bytes t }
    (.stash g.id 0 true)

/-- A get ends with a status other than OK: it sends nothing further, save its STASH_REPLY where that is still to be sent
and its holder can be sent to (R288, R293). -/
def State.endGet (s : State) (g : StashGet) (status : Nat) (reply : Bool) : State :=
  let bytes := ((s.stashEnt g.job g.holder g.tag).map StashEnt.bytes).getD 0
  let s := s.withdrawGet g.id
  let s := if status = Status.hedged ∨ status = Status.drained then s.bump .stashGetEnded else s
  let s := if reply && !g.replied then s.sendReply g status bytes else s
  s.getOver g false

/-! ## Drains (R292, R323) -/

/-- A reservation that is being released and has no entry left is over; its STASH.RELEASE completes (R292). -/
def State.stashDone (s : State) (job : Nat) : Bool :=
  match s.stash.res.get? job with
  | some r => r.releasing && (s.stashEnts job).isEmpty
  | none => false

/-- The reservation's spans and contexts return to the module. -/
def State.dropRes (s : State) (job : Nat) : State := s.setStash fun x => { x with res := x.res.erase job }

/-- STASH.RELEASE, steps 1 and 2. -/
def State.stashRelease (s : State) (job : Nat) : State :=
  match s.stash.res.get? job with
  | none => s
  | some r =>
    let s := s.newGen ((r.ctxs.head?.map Prod.fst).getD 0)
    let s := s.setRes job { r with releasing := true, drain := 0 }
    ((s.stashEnts job).filter fun e => (s.getsOn e).isEmpty).foldl State.freeEntry s

/-- Entries of a releasing reservation whose gets have ended are freed (R292, step 4). -/
def State.stashSweep (s : State) (job : Nat) : State :=
  match s.stash.res.get? job with
  | some r =>
    if r.releasing then ((s.stashEnts job).filter fun e => (s.getsOn e).isEmpty).foldl State.freeEntry s else s
  | none => s

/-- A release's drain time is over: the gets still running end with DRAINED (R292, step 3). -/
def State.stashDrained (s : State) (job : Nat) : State :=
  match s.stash.res.get? job with
  | none => s
  | some r =>
    if r.releasing && decide (s.cfg .stashCfg 0 16 16 ≤ r.drain) then
      ((s.stash.gets.filter fun g => g.job == job).foldl (fun s g => s.endGet g Status.drained true) s).stashSweep job
    else s

/-- A job ends (R291): its entries are freed and counted, its gets end silently, its reservation returns. -/
def State.stashEnd (s : State) (job : Nat) : State :=
  let n := (s.stashEnts job).length
  let s := (s.stash.gets.filter fun g => g.job == job).foldl (fun s g => s.withdrawGet g.id) s
  let s := if n = 0 then s else s.bump .stashReclaimed 0 n
  s.setStash fun x => { x with ents := x.ents.filter (fun e => e.job != job), gets := x.gets.filter (fun g => g.job != job),
                               res := x.res.erase job }

/-- Work of the stash in a scope that a disable waits for: FILLING puts and gets (Table 13.11). -/
def State.stashWork (s : State) (inScope : Nat → Bool) : Nat :=
  (s.stash.ents.filter fun e => inScope e.job && e.state == 1).length + (s.stash.gets.filter fun g => inScope g.job).length

/-- The drain timeout of a disable of the stash: FILLING entries are freed and gets end with DRAINED (Table 13.11). -/
def State.drainStash (s : State) (inScope : Nat → Bool) : State :=
  let s := (s.stash.ents.filter fun e => inScope e.job && e.state == 1).foldl (fun (s : State) e =>
    (s.freeEntry e).workEnded 2 e.job true) s
  (s.stash.gets.filter fun g => inScope g.job).foldl (fun (s : State) g =>
    (s.endGet g Status.drained true).workEnded 2 g.job true) s

/-! ## Frames (R284–R289) -/

/-- What refuses a stash frame before its own rule does (R280, R284). -/
def State.stashRefusal (s : State) (h : Hdr) : Option Nat :=
  if internalEp h.srcEp ∨ h.sys then some Status.descInvalid
  else
    match s.stash.res.get? h.job with
    | none => some Status.stashNotReserved
    | some r =>
      if r.opId ≠ h.opId ∨ r.releasing then some Status.contextStale
      else if h.opcode ≠ Op.stashPut ∧ h.position ≠ 0 then some Status.descInvalid
      else none

/-- The refusal of a put that is not creating an entry, and of one that may not (Table 12.4, R285). -/
def State.putRefusal (s : State) (h : Hdr) (r : StashRes) (p : List Byte) : Option Nat :=
  let tag := getLE p 0 8
  let bytes := getLE p 8 4
  let seg := getLE p 12 4
  let ent := s.stashEnt h.job h.srcRank tag
  if bytes = 0 ∨ bytes % 64 ≠ 0 ∨ 48 < ceilDiv bytes r.extent then some Status.stashTooLarge
  else if seg = 0 ∧ ent.isSome then some Status.stashExists
  else if seg ≠ 0 ∧ (ent.map fun e => e.state) ≠ some 1 then some Status.stashNoEntry
  else if (match ent with
      | some e => decide (e.bytes ≠ bytes) || decide (e.segments ≤ e.committed)
      | none => false) || decide (ceilDiv bytes 4096 ≤ seg) || decide (p.length ≠ 64 + segSize bytes seg) then
    some Status.stashMismatch
  else if seg ≠ h.position then some Status.descInvalid
  else none

/-- STASH_PUT at the stash unit (R286). -/
def State.stashPut (s : State) (f : Frame) : State :=
  let h := f.hdr
  let p := f.payload
  let tag := getLE p 0 8
  let bytes := getLE p 8 4
  let seg := getLE p 12 4
  if s.duplicate h then s.ackAgain h 0xFFF2
  else
    match s.stashRefusal h, s.stash.res.get? h.job with
    | none, some r =>
      if seg = 0 ∧ s.disabled 2 h.job then s.refuseFrame h 0xFFF2 Status.functionDisabled
      else
        match s.putRefusal h r p with
        | some st => s.refuseFrame h 0xFFF2 st
        | none =>
          match s.stashEnt h.job h.srcRank tag with
          | some e =>
            let done := e.committed + 1 = e.segments
            let s := s.writeMem (e.segAddr r.extent seg) (p.drop 64)
            let e' := { e with committed := e.committed + 1, state := if done then 2 else 1, stamp := s.stamp, age := 0 }
            let s := ((s.setEnt e').stamped.bump .stashPutSegments).commitFrame h 0xFFF2
            if done then s.workEnded 2 h.job false else s
          | none =>
            match s.stashRoom h.job r (ceilDiv bytes r.extent) with
            | none =>
              ((s.setRes h.job { r with full := min (r.full + 1) (2 ^ 32 - 1) }).bump .stashFullCount).refuseFrame h 0xFFF2
                Status.stashFull
            | some (exts, borrowed, r') =>
              let done := ceilDiv bytes 4096 = 1
              let e : StashEnt := { job := h.job, holder := h.srcRank, tag := tag, state := if done then 2 else 1,
                                    borrowed := borrowed, bytes := bytes, stamp := s.stamp, extents := exts }
              let s := ((s.stamped.setRes h.job r').setStash fun x => { x with ents := x.ents ++ [e] }).writeMem
                (e.segAddr r.extent 0) (p.drop 64)
              ((s.bump .stashCreated).bump .stashPutSegments).commitFrame h 0xFFF2
    | some st, _ => s.refuseFrame h 0xFFF2 st
    | none, none => s

/-- The refusal of a get (R287). -/
def State.getRefusal (s : State) (h : Hdr) (p : List Byte) : Option Nat :=
  match s.stashEnt h.job h.srcRank (getLE p 0 8) with
  | none => some Status.stashNoEntry
  | some e =>
    let first := getLE p 8 4
    let n := getLE p 12 4
    if e.state = 3 then some Status.stashNoEntry
    else if e.state = 1 then some Status.stashNotReady
    else if e.segments ≤ first ∨ e.segments < first + n then some Status.stashMismatch
    else if e.damaged then some Status.stashDamaged
    else none

/-- The STASH_DATA frame of a segment, and the base tile it leaves from: that of the segment's channel (R18, R287). -/
def State.stashData (s : State) (g : StashGet) (e : StashEnt) (r : StashRes) (seg : Nat) : Frame × Nat :=
  let a := e.segAddr r.extent seg
  let n := segSize e.bytes seg
  ({ hdr := s.stashHdr g Op.stashData (1 + n / 64) seg (seg + 1 == g.first + g.segments),
     payload := leBytes 8 e.tag ++ leBytes 4 g.seq ++ leBytes 4 seg ++ leBytes 4 e.bytes ++ zeros 44 ++ s.readMem a n },
   channelTile (s.channelAt (((r.spans.head?.map Prod.fst).getD 0) * span) (a / 4096 % 128)))

/-- Once the last STASH_DATA of a get has been sent, its STASH_REPLY is sent (R287). -/
def State.replyCheck (s : State) (id : Nat) : State :=
  match s.stash.gets.find? fun g => g.id == id with
  | none => s
  | some g =>
    let queued := s.flow.tx.any fun t => t.queue.any fun x => match x.2 with
      | .stash i _ _ => i == id
      | _ => false
    if g.replied || queued then s
    else s.sendReply g Status.ok (((s.stashEnt g.job g.holder g.tag).map StashEnt.bytes).getD 0)

/-- STASH_GET at the stash unit (R287). -/
def State.stashGet (s : State) (f : Frame) : State :=
  let h := f.hdr
  let p := f.payload
  if s.duplicate h then s.ackAgain h 0xFFF2
  else
    match s.stashRefusal h, s.stash.res.get? h.job with
    | none, some r =>
      if s.disabled 2 h.job then s.refuseFrame h 0xFFF2 Status.functionDisabled
      else
        match s.getRefusal h p, s.stashEnt h.job h.srcRank (getLE p 0 8) with
        | none, some e =>
          let first := getLE p 8 4
          let n := if getLE p 12 4 = 0 then e.segments - first else getLE p 12 4
          let after := bit (getLE p 16 1) 0
          let id := s.stash.nextGet
          let g : StashGet := { id := id, job := h.job, holder := h.srcRank, tag := e.tag, seq := h.seq, node := h.srcNode,
                                ep := h.srcEp, cls := h.cls, opId := h.opId, left := n + 1, first := first, segments := n,
                                dropAfter := after }
          let s := s.setStash fun x => { x with gets := x.gets ++ [g], nextGet := id + 1 }
          let s := if after then (s.setEnt { e with state := 3, dropAfter := true, stamp := s.stamp }).stamped else s
          let s := s.commitFrame h 0xFFF2
          let s := (rangeFrom first n).foldl (fun (s : State) seg =>
            let d := s.stashData g e r seg
            s.send d.1 (.stash id d.2 false)) s
          s.replyCheck id
        | some st, _ => s.refuseFrame h 0xFFF2 st
        | none, none => s
    | some st, _ => s.refuseFrame h 0xFFF2 st
    | none, none => s

/-- A drop of a holder acts on each entry that it matches (R289). -/
def State.dropMatching (s : State) (job holder tag mask : Nat) : State :=
  (s.stash.ents.filter fun e => e.job == job && e.holder == holder && e.tag &&& mask == tag &&& mask).foldl
    (fun (s : State) e =>
      if e.state = 1 then ((s.freeEntry e).bump .stashDropped).workEnded 2 job false
      else if e.state = 2 ∧ (s.getsOn e).isEmpty then (s.freeEntry e).bump .stashDropped
      else if e.state = 2 then (s.setEnt { e with state := 3, dropPending := true, stamp := s.stamp }).stamped
      else s.setEnt { e with dropPending := true }) s

/-- STASH_DROP at the stash unit (R289). -/
def State.stashDrop (s : State) (f : Frame) : State :=
  let h := f.hdr
  let tag := getLE f.payload 0 8
  let mask := getLE f.payload 8 8
  if s.duplicate h then s.ackAgain h 0xFFF2
  else
    match s.stashRefusal h with
    | some st => s.refuseFrame h 0xFFF2 st
    | none =>
      if mask = 2 ^ 64 - 1 ∧ (s.stashEnt h.job h.srcRank tag).isNone then
        s.refuseFrame h 0xFFF2 Status.stashNoEntry
      else (s.dropMatching h.job h.srcRank tag mask).commitFrame h 0xFFF2

/-- What a get's frame was told (R288, R293): an acknowledgement settles it, and the last ends the get with OK; a refusal or
a lost destination ends it with HEDGED (DEDUCED for refusals of other statuses, log entry 29). -/
def State.stashNote (s : State) (id : Nat) (reply : Bool) (n : Note) : State :=
  match s.stash.gets.find? fun g => g.id == id with
  | none => s
  | some g =>
    match n with
    | .acked | .absorbed =>
      let s := if reply then s else s.bump .stashGetSegments
      if g.left ≤ 1 then ((s.getOver g true).workEnded 2 g.job false).stashSweep g.job
      else
        (s.setStash fun x => { x with gets := x.gets.map fun y =>
          if y.id == id then { y with left := y.left - 1 } else y }).replyCheck id
    | .refused _ | .lost _ => ((s.endGet g Status.hedged false).workEnded 2 g.job false).stashSweep g.job
    | .memberRefused _ _ _ _ => s

/-- Table 12.2: put_timeout ticks without a committed segment free a FILLING entry. -/
def State.putTimeout (s : State) (job holder tag : Nat) : State :=
  match s.stashEnt job holder tag with
  | some e =>
    if e.state = 1 ∧ s.cfg .stashCfg 0 0 16 ≤ e.age then
      ((s.freeEntry e).bump .stashPutExpired).workEnded 2 job false
    else s
  | none => s

/-- The timers of the stash advance by a tick; a job hedge pauses put_timeout and the gets' timers (R282, R293). -/
def State.stashTick (s : State) : State :=
  { s with stash := { s.stash with
      ents := s.stash.ents.map fun e => if e.state == 1 && !s.jobHedged e.job then { e with age := e.age + 1 } else e
      res := NMap.mapV s.stash.res fun j r =>
        if r.releasing && !s.jobHedged j then { r with drain := r.drain + 1 } else r } }

/-! ## Losses (R293–R295) -/

/-- Destination hedges end the gets of their holders at their next frame (R293). -/
def State.stashHedged (s : State) : State :=
  (s.stash.gets.filter fun g => s.destHedged g.node g.ep).foldl (fun (s : State) g =>
    ((s.endGet g Status.hedged false).workEnded 2 g.job false).stashSweep g.job) s

/-- A node is lost: unless keep_on_loss is set, the entries of every rank attached to it are freed (R293). -/
def State.stashLost (s : State) (node : Nat) : State :=
  if s.cfg .stashCfg 0 48 1 = 1 then s
  else
    let gone := s.stash.ents.filter fun e => match s.host.jobs.get? e.job with
      | some j => (j.addr e.holder).map Prod.fst == some node
      | none => false
    gone.foldl (fun (s : State) e =>
      let gs := s.getsOn e
      let s := gs.foldl (fun (s : State) g => (s.withdrawGet g.id).workEnded 2 g.job false) s
      let s := s.setStash fun x => { x with gets := x.gets.filter fun g => !gs.contains g }
      let s := if e.state = 1 then s.workEnded 2 e.job false else s
      (s.freeEntry e).bump .stashHolderLost) s

/-- The segment of an entry that lies in the granule at `g`. -/
def StashEnt.segmentAt (e : StashEnt) (extent g : Nat) : Option Nat :=
  (e.extents.zipIdx.find? fun x => decide (x.1 ≤ g) && decide (g < x.1 + extent)).map fun x =>
    (x.2 * extent + (g - x.1)) / 4096

/-- A granule is lost: the entry with a segment in it is marked damaged and counted, and the gets that return the segment end with
STASH_DAMAGED (R288, R294). -/
def State.stashDamage (s : State) (addr : Nat) : State :=
  s.stash.ents.foldl (fun (s : State) e =>
    match (s.stash.res.get? e.job).bind fun r => e.segmentAt r.extent (addr / 4096 * 4096) with
    | none => s
    | some seg =>
      let s := if e.damaged then s else (s.setEnt { e with damaged := true }).bump .stashDamagedCount
      ((s.getsOn e).filter fun g => decide (g.first ≤ seg) && decide (seg < g.first + g.segments)).foldl
        (fun (s : State) g =>
          ((s.endGet g Status.stashDamaged true).workEnded 2 g.job false).stashSweep g.job) s) s

/-- Bytes taken beyond what is left of the remainder. -/
def State.deficit (s : State) : Nat := s.capacityTaken - (s.usable - Config.contextBytes)

/-- Extents are given up while a deficit lasts, each from the reservation that has the most free ones of the kind; at most
`n` (R295, steps 2 and 4). -/
def State.giveExtents (s : State) (borrowed : Bool) : Nat → State
  | 0 => s
  | n + 1 =>
    let free := s.stash.res.map fun kv =>
      let used := s.stashUsed kv.1 borrowed
      (kv.1, kv.2, (if borrowed then kv.2.borrowedExtents else kv.2.reservedExtents).filter fun a => !used.contains a)
    match free.foldl (fun best x => match best with
        | none => if x.2.2.isEmpty then none else some x
        | some b => if b.2.2.length < x.2.2.length then some x else some b) none with
    | none => s
    | some (job, r, as) =>
      if s.deficit = 0 then s
      else State.giveExtents (s.setRes job { r with gone := as.getLastD 0 :: r.gone }) borrowed n

/-- Entries are freed, newest first, while a deficit lasts, and their extents given up (R295, steps 3 and 5). -/
def State.giveEntries (s : State) (borrowed : Bool) : List StashEnt → State
  | [] => s
  | e :: es =>
    if s.deficit = 0 then s
    else
      let gs := s.getsOn e
      let s := gs.foldl (fun (s : State) g => (s.endGet g Status.stashDamaged true).workEnded 2 g.job false) s
      let s := if e.state = 1 then s.workEnded 2 e.job false else s
      let s := (s.freeEntry e).bump .stashHolderLost
      State.giveEntries (s.giveExtents borrowed e.extents.length) borrowed es

/-- Reserved extents of every reservation. -/
def State.guarantees (s : State) : NMap Nat := s.stash.res.map fun kv => (kv.1, kv.2.reservedExtents.length)

/-- A retired channel's loss is absorbed (R295); what a guarantee yields raises an event (Table 17.2). -/
def State.stashShrink (s : State) : State :=
  let s := s.giveExtents true (Config.channelBytes / 65536 + 1)
  let s := s.giveEntries true ((s.stash.ents.filter StashEnt.borrowed).reverse)
  let before := s.guarantees
  let held := fun (s : State) j => (s.stashEnts j).length
  let s0 := s
  let s := s.giveExtents false (Config.channelBytes / 65536 + 1)
  let s := s.giveEntries false ((s.stash.ents.filter fun e => !e.borrowed).reverse)
  before.foldl (fun (s : State) kv =>
    let now := ((s.stash.res.get? kv.1).map fun r => r.reservedExtents.length).getD 0
    if now = kv.2 then s
    else s.event 3 0x08 0x0010 (leBytes 4 kv.1 ++ leBytes 4 kv.2 ++ leBytes 4 now ++
      leBytes 4 (held s0 kv.1 - held s kv.1))) s

/-! ## Records -/

/-- STASH.STATUS (Table 12.6). -/
def State.stashRecord (s : State) (job : Nat) (r : StashRes) : List Byte :=
  leBytes 4 r.opId ++ leBytes 4 r.reservedExtents.length ++ leBytes 4 (s.stashUsed job false).length ++
  leBytes 4 (s.stashUsed job true).length ++ leBytes 4 (r.spans.map Prod.snd).sum ++ leBytes 4 r.borrowed.length ++
  leBytes 4 (s.stashEnts job).length ++ leBytes 4 r.maxEntries ++ leBytes 8 r.limit ++ leBytes 1 r.extentLog2 ++
  leBytes 1 (b2n r.releasing) ++ zeros 2 ++ leBytes 4 r.full ++ s.stamp.bytes ++ zeros 6

/-- STASH.ENTRY (Table 12.1). -/
def State.entryRecord (s : State) (e : StashEnt) (extentLog2 : Nat) : List Byte :=
  leBytes 8 e.tag ++ leBytes 2 e.holder ++ leBytes 2 e.job ++ leBytes 1 e.state ++
  leBytes 1 (b2n e.dropPending + 2 * b2n e.dropAfter + 4 * b2n e.borrowed + 8 * b2n e.damaged) ++
  leBytes 1 extentLog2 ++ leBytes 1 e.extents.length ++ leBytes 4 e.bytes ++ leBytes 4 e.committed ++
  leBytes 2 (s.getsOn e).length ++ zeros 2 ++ e.stamp.bytes ++ zeros 26 ++
  padTo 192 (e.extents.flatMap fun a => leBytes 4 (a / 65536))

/-- The ranks that a STASH.PURGE names. -/
def State.purge (s : State) (job rank tag mask : Nat) : State :=
  let ranks := if rank = 0xFFFF then ((s.stashEnts job).map StashEnt.holder).dedup else [rank]
  ranks.foldl (fun (s : State) h => s.dropMatching job h tag mask) s

end Sys2Proof.Machine
end

