-- ==== Sys2Proof/Machine/Channels.lean ====
section
/-! DEFINITION. Memory channels: retirement, substitutes, migration, march and restoration (R18, R383–R385), and what an
uncorrectable error of an address does. -/

namespace Sys2Proof.Machine

/-- Granules of channel `c` that hold something: one in each region that is taken (DEDUCED, log entry 36), and those of
earlier retired channels that it backs. -/
def State.granules (s : State) (c : Nat) : Nat := (s.backedUnits.map Prod.snd).sum + s.spillOn c

/-- A channel is recorded as retired in the persistent log. -/
def State.recordChannel (s : State) (c : Nat) : State :=
  { s with mgt := { s.mgt with channels := if s.mgt.channels.contains c then s.mgt.channels else c :: s.mgt.channels } }

/-- A channel is retired in service, with a cause of Table 17.2a (R383, R384): its loss is absorbed, its granules are given
substitutes and their migration begins. -/
def State.retireChannel (s : State) (c cause : Nat) : State :=
  if s.mgt.channels.contains c then s
  else
    let n := s.granules c
    let s := (s.recordChannel c).setChannel c fun x => { x with
      retired := true, migrating := n != 0, unmoved := n, testDone := false, testFail := false, marching := false }
    let s := s.event 2 0x0B 0x0010 (leBytes 1 c ++ leBytes 1 cause ++ zeros 2 ++ leBytes 4 n)
    s.stashShrink.assignSubstitutes

/-- The channel that holds the granule of an address: its position's own, or its unit's substitute (R18, R383). -/
def State.channelOf (s : State) (a : Nat) : Nat :=
  match s.backedUnits.find? fun u => decide (u.1 ≤ a / grain) && decide (a / grain < u.1 + u.2) with
  | some u => s.channelAt (u.1 * grain) (a / 4096 % 128)
  | none => naturalChannel (a / 4096 % 128)

/-- Master ID of a channel's memory controller (R28). -/
def controllerMaster (c : Nat) : Nat := masterId 4 (c / 16) (c % 16)

/-- A granule that the controller of channel `c` could not read is lost, judged by what holds it (R294, R384); its bytes are
undefined. -/
def State.granuleLost (s : State) (c a : Nat) : State :=
  let inside := fun (r : Nat × Nat) => decide (r.1 ≤ a) && decide (a < r.1 + r.2)
  let gone := fun (s : State) => s.undefine (a / 4096 * 4096) 4096
  if s.stash.res.vals.any fun r => (r.spans.any fun x => inside (x.1 * span, x.2 * span)) ||
      r.borrowed.any fun n => inside (n * span, span) then
    let before := (s.stash.ents.filter StashEnt.damaged).length
    let s := (gone s).stashDamage a
    if (s.stash.ents.filter StashEnt.damaged).length = before then s
    else s.report { cls := 9, master := controllerMaster c, addr := a, access := 1 }
  else if a < Config.contextBytes ∨ (s.parm.blocks.vals.any fun b => inside (b.base, b.size)) = true then
    (gone s).report { cls := 10, master := controllerMaster c, addr := a, access := 1 }
  else if (s.pool.setts.get? (a / span * span)).any fun x => x.pool == 4 then
    (gone s).report { cls := 9, master := controllerMaster c, addr := a / span * span, access := 1 }
  else s

/-- Granules of channel `c` that have no spill slot, since what is taken leaves no room for all (R384): of as many regions as lack
room, the highest (DESIGN CHOICE, log entry 75). -/
def State.unbacked (s : State) (c : Nat) : List Nat :=
  if s.deficit = 0 then []
  else ((s.backedUnits.flatMap fun u => rangeFrom u.1 u.2).reverse.take (ceilDiv s.deficit grain * 127)).map fun r =>
    r * grain + 4096 * (c / 16 + 8 * (c % 16))

/-- A migration ends: the granules that could not be read, or had no slot, are lost (R384). -/
def State.migrationDone (s : State) (c : Nat) (unreadable : List Nat) : State :=
  let x := s.channel c
  if !x.migrating || s.flt.headless then s
  else
    let lost := (unreadable ++ s.unbacked c).dedup
    let s := s.setChannel c fun x => { x with migrating := false, unmoved := 0 }
    let s := s.event 1 0x0B 0x0011 (leBytes 1 c ++ leBytes 1 0 ++ zeros 2 ++
      leBytes 4 (x.unmoved - lost.length) ++ leBytes 4 lost.length)
    lost.foldl (fun (s : State) a => s.granuleLost c a) s

/-- FLT_MC_CTRL (R385): retire, test, restore. -/
def State.channelControl (s : State) (c v : Nat) : State :=
  let s := if bit v 0 then s.retireChannel c 0 else s
  let retired := s.mgt.channels.contains c
  let s := if bit v 1 && retired then
      s.setChannel c fun x => { x with marching := true, testDone := false, testFail := false } else s
  if bit v 2 && retired then
    ({ s with mgt := { s.mgt with restores := if s.mgt.restores.contains c then s.mgt.restores else c :: s.mgt.restores } }
      ).setChannel c fun x => { x with restorePending := true }
  else s

/-- A march over a retired channel ends. -/
def State.marchDone (s : State) (c : Nat) (failed : Bool) : State :=
  if (s.channel c).marching then
    s.setChannel c fun x => { x with marching := false, testDone := true, testFail := failed }
  else s

/-- The window in which a second uncorrectable error retires a channel (R383). -/
def State.uncorrectable (s : State) (c : Nat) : State :=
  let last := (s.channel c).winUe
  let now := s.tick.counter
  let s := s.setChannel c fun x => { x with winUe := now + 1 }
  if last ≠ 0 ∧ now < last - 1 + 65536 then s.retireChannel c 4 else s

end Sys2Proof.Machine
end

