-- ==== Sys2Proof/Machine/Tick.lean ====
section
/-! DEFINITION. The tick keeper (chapter 2): announces, choice of the parent, the servo, the states of Table 2.8. -/

namespace Sys2Proof.Machine

/-- The tick keeper changed. -/
def State.setTick (s : State) (f : TickSt → TickSt) : State := { s with tick := f s.tick }

/-! ## Link-local frames (R41, R91, R109) -/

/-- Ports in ACTIVE, rising. -/
def State.activePorts (s : State) : List Nat :=
  (s.link.ports.filter fun kv => kv.2.state == 5).map Prod.fst

/-- The virtual channel of a link-local frame of class 7 on a port (Table 5.7); a down port uses the class. -/
def State.localVc (s : State) (p : Nat) (h : Hdr) : Nat :=
  match s.topo.plan with
  | none => 6
  | some pl => if s.role p = 2 then s.vcFor pl h 1 (s.portEntry p).trunk none false else 7

/-- A class-7 frame to the neighbour's endpoint 0xFFF3 on one port (R41, R109). -/
def State.sendLinkLocal (s : State) (p op : Nat) (payload : List Byte) : State :=
  if s.isSafe then s
  else
    let h : Hdr := { opcode := op, cls := 7, sys := true, dstNode := 0xFFFF, dstEp := 0xFFF3, srcNode := s.me,
                     srcEp := 0xFFF3, phase := 1, units := 1, last := true }
    s.admitOwn { hdr := h, payload := padTo 64 payload } [{ port := some p, vc := s.localVc p h }] (originTile h)

/-! ## Announces (R41) -/

/-- What the module announces of its root. -/
def State.ownAnnounce (s : State) : Announce :=
  let t := s.tick
  if t.state = 7 then
    { rootNode := s.me, rootPriority := s.rootPriority, depth := 0, rootSeq := t.rootSeq, sender := s.me, state := 7,
      period := s.period, rootSince := t.rootSince }
  else if t.state = 0 ∨ t.state = 1 ∨ t.state = 6 then
    { rootNode := s.me, rootPriority := 255, depth := 0, rootSeq := 0, sender := s.me, state := t.state,
      period := s.period, rootSince := 0 }
  else
    { rootNode := t.rootNode, rootPriority := t.rootPriority, depth := t.depth, rootSeq := t.rootSeq, sender := s.me,
      state := t.state, period := s.period, rootSince := t.rootSince }

/-- Table 2.4. -/
def announceBytes (a : Announce) : List Byte :=
  leBytes 2 a.rootNode ++ leBytes 1 a.rootPriority ++ leBytes 1 a.depth ++ leBytes 4 a.rootSeq ++
  leBytes 2 a.sender ++ leBytes 1 a.state ++ leBytes 1 a.period ++ leBytes 8 a.rootSince

/-- An announce on one link. -/
def State.announceOn (s : State) (p : Nat) : State :=
  s.sendLinkLocal p Op.tickAnnounce (announceBytes s.ownAnnounce)

/-- An announce on every ACTIVE link. -/
def State.announceAll (s : State) : State := s.activePorts.foldl State.announceOn s

/-- Announces where root, depth or state has changed. -/
def State.announceChange (s : State) : State :=
  if s.tick.announceDue then (s.setTick fun t => { t with announceDue := false }).announceAll else s

/-! ## States (R48) -/

/-- A signed number in a field of 32 bits. -/
def signed32 (i : Int) : Nat := (i % 2 ^ 32).toNat

/-- The tick keeper enters a state: an event, and in UNSYNC a fault of the tick class (R51). -/
def State.tickEnter (s : State) (st : Nat) (reason : Nat := 0) : State :=
  let old := s.tick.state
  let s := s.setTick fun t => { t with state := st, inState := 0, good := 0, unsyncReason := reason,
                                       announceDue := true }
  let s := if st = 6 then s.report { cls := 19, master := masterId 10 15 0 } else s
  s.event (if st = 5 ∨ st = 6 then 2 else 1) 0x00 0x0010
    (leBytes 1 old ++ leBytes 1 st ++ leBytes 1 reason ++ zeros 1 ++ leBytes 2 (s.tick.parent.getD 0) ++
     leBytes 2 s.tick.rootNode ++ leBytes 4 (signed32 s.tick.offset))

/-- The module becomes root from its own counter (R40, R50). Its root_seq goes on from that of the root before (DESIGN CHOICE,
log entry 52). -/
def State.becomeRoot (s : State) : State :=
  (s.setTick fun t => { t with parent := none, depth := 0, rootNode := s.me, rootPriority := s.rootPriority, stepped := true,
                               rootSince := t.counter, seqAge := 0, lengthen := 0 }).tickEnter 7

/-! ## Choice of the parent (R42) -/

/-- The neighbour on a port is in SYNCED, SLEWING or ROOT, on an ACTIVE link. -/
def State.nbrLive (s : State) (p : Nat) : Bool :=
  (s.port p).state == 5 && (match s.tick.nbrs.get? p with
    | some a => a.state == 3 || a.state == 4 || a.state == 7
    | none => false)

/-- The neighbour may be a parent. -/
def State.eligible (s : State) (p : Nat) : Bool :=
  s.nbrLive p && decide (((s.tick.nbrs.get? p).map Announce.depth).getD 99 ≤ 31)

/-- Measured delay of a link in whole ns, rounded. -/
def State.delayNs (s : State) (p : Nat) : Nat :=
  let d := ((s.tick.measured.get? p).map Prod.snd).getD 0
  ((d * s.tickPs * 2 / (65536 * 1000) + 1) / 2).toNat

/-- The keys of Table 2.5. -/
def State.parentKey (s : State) (p : Nat) : List Nat :=
  let a := s.tick.nbrs.getD p {}
  [a.rootPriority, a.rootNode, a.depth, s.delayNs p, a.sender, p]

/-- The first list wins the first key that differs. -/
def keyWins : List Nat → List Nat → Bool
  | a :: as, b :: bs => decide (a < b) || (a == b && keyWins as bs)
  | _, _ => false

/-- The neighbour that wins among those eligible. -/
def State.bestParent (s : State) : Option Nat :=
  (s.tick.nbrs.keys.filter s.eligible).foldl (fun b p =>
    match b with
    | none => some p
    | some q => if keyWins (s.parentKey p) (s.parentKey q) then some p else some q) none

/-- Root and depth as the parent's last announce gives them (R41). -/
def State.hearParent (s : State) (a : Announce) : State :=
  let t := s.tick
  let changed := t.depth != a.depth + 1 || t.rootNode != a.rootNode || t.rootPriority != a.rootPriority
  s.setTick fun t => { t with
    depth := a.depth + 1, rootNode := a.rootNode, rootPriority := a.rootPriority, rootSince := a.rootSince,
    seqAge := if t.rootNode != a.rootNode || serialNewer 32 a.rootSeq t.seqTop then 0 else t.seqAge,
    seqTop := if t.rootNode != a.rootNode || serialNewer 32 a.rootSeq t.seqTop then a.rootSeq else t.seqTop,
    rootSeq := a.rootSeq, announceDue := t.announceDue || changed }

/-- A module that had no root takes a first parent and joins: root_seq counts as seen from now on (R48, R50). -/
def State.forgetRoot (s : State) : State := s.setTick fun t => { t with seqAge := 0, seqTop := 0, rootSeq := 0 }

/-- A neighbour is taken as parent; `stepped` is false where the first correction is a step (R45, R335). -/
def State.adopt (s : State) (p : Nat) (stepped : Bool) : State :=
  let s := s.setTick fun t => { t with parent := some p, offsets := [], good := 0, stepped := stepped,
                                       announceDue := true }
  (s.hearParent (s.tick.nbrs.getD p {})).bump .tickParentChanges

/-- A live neighbour is at a depth of 32 or more and none is eligible (Table 2.8). -/
def State.tooDeep (s : State) : Bool := s.bestParent.isNone && s.tick.nbrs.keys.any s.nbrLive

/-- The median of at most five offsets: the mean of the middle two where their count is even, rounded down (DESIGN CHOICE,
log entry 53). -/
def median (l : List Int) : Int :=
  let m := l.mergeSort fun a b => decide (a ≤ b)
  let n := m.length
  if n = 0 then 0
  else if n % 2 = 1 then m.getD (n / 2) 0 else (m.getD (n / 2 - 1) 0 + m.getD (n / 2) 0) / 2

/-- A module under another root for 1,024 ticks or more meets a better root (R50): with a filtered offset within ±200 ns it
slews under the new parent, else it enters UNSYNC; without a measured offset it waits for one. -/
def State.merge (s : State) (p : Nat) : State :=
  match s.tick.measured.get? p with
  | none => s
  | some (offs, _) =>
    if (median offs).natAbs ≤ Config.fineOfPs s.period 200000 then
      let s := s.adopt p s.tick.stepped
      if s.tick.state = 4 then s else s.tickEnter 4
    else (s.setTick fun t => { t with parent := none }).tickEnter 6 3

/-- The module's own root has stood for 1,024 ticks or more. -/
def State.rootOld (s : State) : Bool := decide (s.tick.rootSince + 1024 ≤ s.tick.counter)

/-- ROOT hears of a better root (Table 2.8, R335). -/
def State.reviewRoot (s : State) (p : Nat) : State :=
  if keyWins ((s.parentKey p).take 2) [s.rootPriority, s.me] then
    if s.rootOld then s.merge p else (s.adopt p false).tickEnter 4
  else s

/-- The parent is lost or another neighbour wins (R42, R48). -/
def State.reviewFollower (s : State) : State :=
  let t := s.tick
  let gone := match t.parent with
    | none => true
    | some p => !s.eligible p || decide (3 ≤ t.miss.getD p 0)
  let others := match t.parent with
    | none => s.bestParent
    | some p => if gone then
        { s with tick := { t with nbrs := t.nbrs.filter (fun kv => kv.1 != p) } }.bestParent else s.bestParent
  match others with
  | none =>
    if !gone then s
    else if t.state = 2 then s.setTick fun t => { t with parent := none }
    else (s.setTick fun t => { t with parent := none }).tickEnter 5
  | some q =>
    if gone then
      let s' := s.adopt q t.stepped
      if t.state = 2 then s' else s'.tickEnter 4
    else
      match t.parent with
      | none => s
      | some p =>
        if keyWins ((s.parentKey q).take 3) ((s.parentKey p).take 3) then
          if t.state != 2 && (s.tick.nbrs.getD q {}).rootNode != t.rootNode && s.rootOld then s.merge q
          else s.adopt q t.stepped
        else s

/-- The root that a neighbour announces has stood for 1,024 ticks or more. -/
def State.otherRootOld (s : State) (p : Nat) : Bool :=
  decide ((s.tick.nbrs.getD p {}).rootSince + 1024 ≤ s.tick.counter)

/-- HOLDOVER finds eligible parents (Table 2.8, R50). Under its own root one is taken at once. Table 2.8 has no row for parents
under another root only: once its own root is silent for 1,024 ticks the module takes the best of them, by slewing where that
root is a candidate of the re-root, by the partition merge where it has stood for 1,024 ticks (DESIGN CHOICE, log entry 54). -/
def State.reviewHoldover (s : State) : State :=
  let t := s.tick
  let same := { s with tick := { t with nbrs := t.nbrs.filter fun kv => kv.2.rootNode == t.rootNode } }
  match same.bestParent with
  | some p => (s.adopt p t.stepped).tickEnter 4
  | none =>
    match s.bestParent with
    | some p =>
      if t.seqAge < 1024 then s
      else if s.otherRootOld p then s.merge p
      else (s.adopt p t.stepped).tickEnter 4
    | none => s

/-- The choice of the parent is made again, and the state follows Table 2.8. -/
def State.tickReview (s : State) : State :=
  let t := s.tick
  if t.state = 0 ∨ t.state = 6 then s
  else if t.state = 7 then
    match s.bestParent with
    | some p => s.reviewRoot p
    | none => s
  else if s.tooDeep then (s.setTick fun t => { t with parent := none }).tickEnter 6 2
  else if t.state = 1 then
    match s.bestParent with
    | some p => (s.forgetRoot.adopt p false).tickEnter 2
    | none => s
  else if t.state = 5 then s.reviewHoldover
  else s.reviewFollower

/-- A port's link leaves ACTIVE: the neighbour's values are held no longer (R42, R48). -/
def State.tickPortLost (s : State) (p : Nat) : State :=
  (s.setTick fun t => { t with nbrs := t.nbrs.erase p, measured := t.measured.erase p, seen := t.seen.erase p,
                               miss := t.miss.erase p, seqTx := t.seqTx.erase p }).tickReview.announceChange

/-- An announce is committed (R41, R42). -/
def State.tickHear (s : State) (p : Nat) (a : Announce) : State :=
  let s := s.setTick fun t => { t with nbrs := t.nbrs.set p a }
  let follows := s.tick.parent == some p && s.eligible p && s.tick.state != 7
  (if follows then s.hearParent a else s).tickReview.announceChange

/-! ## The servo (R43–R45) -/

/-- The signed difference of two 40-bit stamps, in sixteenths of a sub-tick. -/
def stampDiff (a b : Nat) : Int :=
  let d : Nat := (a + 2 ^ 40 - b % 2 ^ 40) % 2 ^ 40
  if d < 2 ^ 39 then d else (d : Int) - 2 ^ 40

/-- The first correction under a parent (R45, R50, R335): a forward step, or lengthened ticks. -/
def State.firstCorrection (s : State) (off : Int) (arrival : Nat) : State :=
  let delta : Int := (Int.ofNat (arrival % 65536) + off) / 65536
  s.setTick fun t => { t with
    stepped := true, offsets := [], good := 0,
    counter := t.counter + delta.toNat, lengthen := (-delta).toNat }

/-- One exchange with the parent (R45). -/
def State.exchange (s : State) (off : Int) (arrival : Nat) : State :=
  let offs := (off :: s.tick.offsets).take 5
  let f := median offs
  let s := s.setTick fun t => { t with offsets := offs, offset := f }
  if !s.tick.stepped then
    if offs.length < 5 then s else s.firstCorrection f arrival
  else
    let ok := decide (f.natAbs ≤ Config.fineOfPs s.period 3125)
    let s := s.setTick fun t => { t with good := if ok then t.good + 1 else 0 }
    if (s.tick.state = 2 ∨ s.tick.state = 4) ∧ 16 ≤ s.tick.good then s.tickEnter 3
    else if s.tick.state = 3 ∧ Config.fineOfPs s.period 25000 < f.natAbs then s.tickEnter 4
    else s

/-- A tick-sync ordered set arrives with a good CRC (R43, R44). Halves of a sixteenth of a sub-tick are rounded down (DESIGN
CHOICE, log entry 53). -/
def State.tsos (s : State) (p seq tTx echoTx echoRx arrival : Nat) : State :=
  let a := stampDiff echoRx echoTx
  let b := stampDiff arrival tTx
  let off := (a - b) / 2
  let s := s.setTick fun t => { t with
    arrived := if t.arrived.contains p then t.arrived else p :: t.arrived, miss := t.miss.set p 0,
    seen := t.seen.set p ⟨seq, tTx, arrival⟩,
    measured := t.measured.set p ((off :: ((t.measured.get? p).map Prod.fst).getD []).take 5, (a + b) / 2) }
  let follows := s.tick.parent == some p && (s.tick.state == 2 || s.tick.state == 3 || s.tick.state == 4)
  (if follows then s.exchange off arrival else s).tickReview.announceChange

/-- A 40-bit stamp of the present tick (R43); its place within the tick is a free value. -/
def State.stamp40 (s : State) : Nat :=
  s.tick.counter % 2 ^ 24 * 65536 + (Config.freeSub s.fresh).toNat * 16 + (Config.freeFine s.fresh).toNat

/-- Table 2.6. -/
def tsosBytes (period state seq tTx echoTx echoRx echoSeq : Nat) : List Byte :=
  let b := leBytes 1 0x5C ++ leBytes 1 (period % 4 + 4 * (state % 8) + 32) ++ leBytes 2 seq ++ leBytes 5 tTx ++
    leBytes 5 echoTx ++ leBytes 5 echoRx ++ leBytes 2 echoSeq ++ zeros 7
  b ++ leBytes 4 (crc32c b)

/-- The set of the tick leaves on one link (R43). -/
def State.sendTsos (s : State) (p : Nat) : State :=
  if s.isSafe then s
  else
    let q := (s.tick.seqTx.getD p 0 + 1) % 65536
    let e := (s.tick.seen.get? p).getD ⟨0, 0, 0⟩
    ((s.setTick fun t => { t with seqTx := t.seqTx.set p q }).emit
      (.tsos p (tsosBytes s.period s.tick.state q s.stamp40 e.tTx e.arrival e.seq))).stamped

/-- At a boundary: sets missing since the last one are counted, and one set goes out on each ACTIVE or EXCHANGE link; one that
cannot be sent before the next boundary is skipped and counted (R43, R48, R52). -/
def State.tsosTick (s : State) (late : List Nat) : State :=
  let ports := (s.link.ports.filter fun kv => kv.2.state == 4 || kv.2.state == 5).map Prod.fst
  let missing := ports.filter fun p => !s.tick.arrived.contains p
  let skipped := ports.filter fun p => late.contains p
  let s := s.bump .tickTsosMiss 0 (missing.length + skipped.length)
  let s := s.setTick fun t => { t with
    arrived := [], miss := missing.foldl (fun m p => NMap.upd m p 0 (· + 1)) t.miss }
  (ports.filter fun p => !late.contains p).foldl State.sendTsos s

/-- The counter advances by one (R35); timers of the tick keeper. -/
def State.tickAdvance (s : State) : State :=
  s.setTick fun t => { t with
    counter := t.counter + 1, issued := t.counter + 1, inState := t.inState + 1, seqAge := t.seqAge + 1,
    announceAge := t.announceAge + 1, lengthen := t.lengthen - 1 }

/-- The root's periodic announce (R41). -/
def State.announcePeriodic (s : State) : State :=
  (s.setTick fun t => { t with
    announceAge := 0, rootSeq := if t.state = 7 then (t.rootSeq + 1) % 2 ^ 32 else t.rootSeq }).announceAll

/-- root_seq has not advanced for 1,024 ticks: HOLDOVER, and a module that may be root becomes root (R50). -/
def State.reRoot (s : State) : State :=
  let s := if s.tick.state = 5 then s else (s.setTick fun t => { t with parent := none }).tickEnter 5
  (if s.rootPriority < 255 then s.becomeRoot else s.tickReview).announceChange

/-- TICK.REJOIN (R48, R50): acts in UNSYNC only. -/
def State.rejoin (s : State) : State :=
  if s.tick.state = 6 then
    let s := (s.setTick fun t => { t with parent := none, stepped := false, offsets := [] }).forgetRoot.tickEnter 2
    (match s.bestParent with
      | some p => s.adopt p false
      | none => s).announceChange
  else s

end Sys2Proof.Machine
end

