-- ==== Sys2Proof/Machine/Topo.lean ====
section
/-! DEFINITION. The plan record (R106–R108), discovery (R109–R112), link state (R113–R118), multicast groups on their
tree (R123), hedges (R126) and readmission (R127). -/

namespace Sys2Proof.Machine

/-- The route unit's state changed. -/
def State.setTopo (s : State) (f : TopoSt → TopoSt) : State := { s with topo := f s.topo }

/-! ## The plan record (Tables 5.1 to 5.4) -/

/-- A node entry. -/
def parseNode (b : List Byte) : NodeEntry :=
  { node := getLE b 0 2, coord := [getLE b 2 1, getLE b 3 1, getLE b 4 1], priority := getLE b 5 1 }

/-- A port entry. -/
def parsePort (b : List Byte) : PortEntry :=
  { role := getLE b 0 1, trunk := getLE b 1 2, c7 := getLE b 3 1, peer := getLE b 4 2, peerPort := getLE b 6 2 }

/-- The plan that a record spells for a module of `ports` ports. -/
def parsePlan (b : List Byte) (ports : Nat) : Plan :=
  let n := getLE b 14 2
  { planId := getLE b 0 4, shape := getLE b 4 1, dims := getLE b 5 1, wrap := getLE b 6 1, maxHops := getLE b 7 1,
    extent := [getLE b 8 2, getLE b 10 2, getLE b 12 2], this := getLE b 16 2, portMode := getLE b 18 1,
    seed := getLE b 20 4, pendingLimit := if getLE b 24 2 = 0 then 32768 else getLE b 24 2,
    nodes := (List.range n).map fun i => parseNode ((b.drop (64 + 8 * i)).take 8)
    ports := (List.range ports).map fun p => parsePort ((b.drop (64 + 8 * n + 8 * p)).take 8)
    record := b }

/-- Bytes of a plan record with its node entries and the port entries of a mode. -/
def planLength (b : List Byte) (ports : Nat) : Nat := 64 + 8 * getLE b 14 2 + 8 * ports

/-- The diameter of Table 5.1. -/
def Plan.diameter (pl : Plan) : Nat :=
  if pl.shape = 1 then 2
  else ((List.range pl.dims).map fun d => if bit pl.wrap d then pl.ext d / 2 else pl.ext d - 1).sum

/-- Table 5.1 and the header rules of Table 5.2. -/
def Plan.shapeOk (pl : Plan) : Bool :=
  let n := pl.nodes.length
  decide (1 ≤ n) && decide (n ≤ 4096) && decide (pl.diameter ≤ 31) && pl.planId != 0 &&
  pl.maxHops == pl.diameter &&
  (if pl.shape = 0 then
    decide (1 ≤ pl.dims) && decide (pl.dims ≤ 3) && decide (pl.wrap < 2 ^ pl.dims) &&
    n == pl.ext 0 * pl.ext 1 * pl.ext 2 &&
    (List.range 3).all fun d => if d < pl.dims then decide (2 ≤ pl.ext d) && decide (pl.ext d ≤ 64) else pl.ext d == 1
  else
    pl.shape == 1 && pl.dims == 2 && pl.wrap == 0 && n == pl.ext 0 + pl.ext 1 &&
    decide (1 ≤ pl.ext 0) && decide (pl.ext 0 ≤ 512) && decide (1 ≤ pl.ext 1) && decide (pl.ext 1 ≤ 512) &&
    pl.ext 2 == 1)

/-- The coordinates of a node lie in the shape. -/
def Plan.coordOk (pl : Plan) (e : NodeEntry) : Bool :=
  if pl.shape = 0 then (List.range 3).all fun d => decide (e.coord.getD d 0 < pl.ext d)
  else decide (e.coord.getD 0 0 ≤ 1) && decide (e.coord.getD 1 0 < pl.ext (e.coord.getD 0 0)) &&
    e.coord.getD 2 0 == 0

/-- Node entries: IDs and coordinates appear once, this node among them (Table 5.3). -/
def Plan.nodesOk (pl : Plan) : Bool :=
  pl.nodes.all (fun e => decide (e.node < 4096) && pl.coordOk e) &&
  decide (pl.nodes.map NodeEntry.node).Nodup && decide (pl.nodes.map NodeEntry.coord).Nodup &&
  (pl.node? pl.this).isSome

/-- A port entry against Table 5.4, R106 and R142; `limit` is ⌊C / 8⌋. -/
def Plan.portOk (pl : Plan) (limit : Nat) (e : PortEntry) : Bool :=
  decide (e.role ≤ 2) && decide (e.c7 ≤ limit) &&
  (if e.role = 2 then
    decide (8 ≤ e.c7) && decide (e.trunk < 512) && (match pl.far pl.this e.trunk with
      | some (m, _) => m == e.peer
      | none => false)
  else e.trunk == 0xFFFF) &&
  (e.role != 1 || (e.peerPort == 0 && !(pl.shape == 1 && (pl.coord pl.this).getD 0 0 == 1)))

/-- On a leaf of a tree the port entries give a trunk to every spine, and on a spine one to every leaf (Table 5.1). -/
def Plan.trunksOk (pl : Plan) : Bool :=
  pl.shape != 1 ||
  (List.range (pl.ext (1 - (pl.coord pl.this).getD 0 0))).all fun t => pl.ports.any fun e => e.role == 2 && e.trunk == t

/-- TOPO.LOAD accepts the record (R107, R108, R332). -/
def State.planOk (s : State) (b : List Byte) : Bool :=
  let pl := parsePlan b s.portCount
  b.length == planLength b s.portCount && crcZeroAt b 60 == getLE b 60 4 &&
  pl.portMode == s.portMode && getLE b 19 1 == 0 && (b.drop 26).take 34 == zeros 34 &&
  pl.shapeOk && pl.nodesOk && pl.ports.all (pl.portOk s.c7Limit) && pl.trunksOk &&
  (List.range pl.nodes.length).all fun i => getLE b (64 + 8 * i + 6) 2 == 0

/-! ## Link-state table (R113) -/

/-- Trunk indices that a node of the plan can have. -/
def Plan.trunkSpan (pl : Plan) : Nat := if pl.shape = 0 then 2 * pl.dims else max (pl.ext 0) (pl.ext 1)

/-- The trunks that the plan gives a node. -/
def Plan.trunksOf (pl : Plan) (n : Nat) : List Nat := (List.range pl.trunkSpan).filter fun t => (pl.far n t).isSome

/-- The bytes of the table: 65 per node ID, rising. -/
def State.lsBytes (s : State) (pl : Plan) : List Byte :=
  ((pl.nodes.map NodeEntry.node).mergeSort fun a b => decide (a ≤ b)).flatMap fun n =>
    let w := (pl.trunksOf n).foldl (fun w t => if s.trunkMissing n t then w + 2 ^ t else w) 0
    leBytes 64 w ++ leBytes 1 (b2n (s.isLost n))

/-- The digest of DIGEST and HELLO frames. -/
def State.lsDigest (s : State) : Nat :=
  match s.topo.plan with
  | none => 0
  | some pl => crc32c (s.lsBytes pl)

/-- A node's entry changed. -/
def State.setLs (s : State) (n : Nat) (f : NodeLs → NodeLs) : State :=
  s.setTopo fun t => { t with nodes := t.nodes.upd n {} f }

/-- A node is marked lost: the open operations are to be told (R117). -/
def State.markLost (s : State) (n : Nat) : State :=
  if s.isLost n || n = s.me then s
  else (s.setLs n fun l => { l with lost := true, back := false }).setTopo fun t => { t with lostDue := t.lostDue ++ [n] }

/-- After a trunk has gone missing: its nodes are lost where every trunk of theirs is missing (R117). -/
def State.lostCheck (s : State) (n t : Nat) : State :=
  match s.topo.plan with
  | none => s
  | some pl =>
    let near := [n] ++ ((pl.far n t).map Prod.fst).toList
    near.foldl (fun s m =>
      if (pl.trunksOf m).all (s.trunkMissing m) then s.markLost m else s) s

/-! ## DISCOVERY frames (R109) -/

/-- The fields of every DISCOVERY payload of this module on a port. -/
def State.discBase (s : State) (p kind : Nat) : Disc :=
  let r := s.route p
  { kind := kind, portState := r.state, node := s.me, port := p, trunk := (s.portEntry p).trunk,
    planId := (s.topo.plan.map Plan.planId).getD 0, epoch := s.boot.epoch % 2 ^ 32,
    coord := (s.topo.plan.map fun pl => pl.coord s.me).getD [0, 0, 0],
    portReason := if r.state = 3 then r.reason else 0 }

/-- Table 5.5a. -/
def discBytes (d : Disc) (t : Stamp) : List Byte :=
  leBytes 1 d.kind ++ leBytes 1 d.portState ++ leBytes 2 d.node ++ leBytes 2 d.port ++ leBytes 2 d.trunk ++
  leBytes 4 d.planId ++ leBytes 4 d.epoch ++ (List.range 3).flatMap (fun i => leBytes 1 (d.coord.getD i 0)) ++
  leBytes 1 d.event ++ leBytes 2 d.originNode ++ leBytes 2 d.originTrunk ++ leBytes 4 d.lsSeq ++
  leBytes 4 d.digest ++ t.bytes ++ leBytes 1 d.portReason

/-- A DISCOVERY frame on one port, stamped. -/
def State.sendDisc (s : State) (p : Nat) (d : Disc) : State :=
  s.stamped.sendLinkLocal p Op.discovery (discBytes d s.stamp)

/-- A HELLO, or the answer to one. -/
def State.sendHello (s : State) (p kind : Nat) : State :=
  s.sendDisc p { s.discBase p kind with digest := if kind = 1 then s.lsDigest else 0 }

/-- A LINK_STATE frame that carries a notice, a frame of this module (R109, R115). -/
def State.sendNotice (s : State) (n : Notice) (p : Nat) : State :=
  s.sendDisc p { s.discBase p 3 with event := n.event, originNode := n.origin, originTrunk := n.trunk, lsSeq := n.seq }

/-- A notice on the lowest in-service port of every present trunk but the one it arrived on (R114, R115). -/
def State.floodNotice (s : State) (n : Notice) : State :=
  let skip := n.arrived.map fun p => (s.portEntry p).trunk
  (s.ownTrunks.filter fun t => some t != skip).foldl (fun s t =>
    match (s.presentPorts t).head? with
    | some p => s.sendNotice n p
    | none => s) s

/-- A notice is held, sent now, and due in the two ticks that follow. -/
def State.holdNotice (s : State) (n : Notice) : State :=
  (s.setTopo fun t => { t with notices :=
      (t.notices.filter fun m => m.origin != n.origin || decide (0 < m.repeats)) ++
        [{ n with repeats := 2, sentAt := s.tick.counter }] }
    ).floodNotice n

/-- A notice that this module originates for one of its trunks (R114). -/
def State.originateNotice (s : State) (trunk event : Nat) : State :=
  let q := (s.topo.lsSeq + 1) % 2 ^ 32
  (s.setTopo fun t => { t with lsSeq := q }).holdNotice { origin := s.me, trunk := trunk, event := event, seq := q }

/-- The second and third sending of the notices held, one in each tick after the first, and the resends of R118. -/
def State.noticeTick (s : State) : State :=
  let now := s.tick.counter
  let isDue := fun (n : Notice) => decide (0 < n.repeats) && n.sentAt != now
  let s := (s.topo.notices.filter isDue).foldl State.floodNotice s
  let later := fun (n : Notice) => if isDue n then { n with repeats := n.repeats - 1, sentAt := now } else n
  let s := s.setTopo fun t => { t with notices := t.notices.map later }
  let again := s.topo.resend
  let s := again.foldl (fun s kv => (kv.2.take 4).foldl (fun s n => s.sendNotice n kv.1) s) s
  s.setTopo fun t => { t with resend := (NMap.mapV t.resend fun _ l => l.drop 4).filter fun kv => !kv.2.isEmpty }

/-! ## Own trunks (R106, R114) -/

/-- The own trunks now missing, as a bitmap. -/
def State.missingNow (s : State) : Nat :=
  s.ownTrunks.foldl (fun w t => if s.ownTrunkMissing t then w + 2 ^ t else w) 0

/-- One own trunk has changed: an event, and a notice. -/
def State.trunkChanged (s : State) (t : Nat) (missing : Bool) : State :=
  let s := s.setTopo fun x => { x with unreported := if bit x.unreported t then x.unreported - 2 ^ t else x.unreported }
  let s := s.event (if missing then 2 else 1) 0x03 0x0011
    (leBytes 2 t ++ leBytes 1 (b2n (!missing)) ++ zeros 1 ++ leBytes 2 (s.presentPorts t).length)
  let s := s.originateNotice t (b2n (!missing))
  if missing then s.lostCheck s.me t else s

/-- Own trunks that have gone missing or become present since the last check (R114). -/
def State.trunkCheck (s : State) : State :=
  let old := s.topo.ownMissing
  let now := s.missingNow
  let s := s.setTopo fun t => { t with ownMissing := now }
  (s.ownTrunks.filter fun t => bit old t != bit now t).foldl (fun s t => s.trunkChanged t (bit now t)) s

/-- Own trunks that the plan gives and that discovery has never found are reported missing (R112, R114). -/
def State.reportMissing (s : State) : State :=
  (s.ownTrunks.filter fun t => bit s.topo.unreported t && s.ownTrunkMissing t).foldl (fun s t => s.trunkChanged t true) s

/-! ## Port routing states (Table 5.5) -/

/-- A port's routing state changed. -/
def State.setRoute (s : State) (p : Nat) (f : RouteSt → RouteSt) : State :=
  s.setTopo fun t => { t with ports := t.ports.upd p {} f }

/-- The peer's ID and port as capability set and HELLO give them. -/
def State.learnPeer (s : State) (p : Nat) : State :=
  let c := (s.port p).peer
  match (s.route p).hello with
  | some d => s.setRoute p fun r => { r with peer := d.node, peerPort := d.port }
  | none => s.setRoute p fun r => { r with peer := (c.map CapSet.id).getD 0,
                                           peerPort := if (c.map CapSet.kind) = some 1 then 0
                                                       else (c.map CapSet.port).getD 0 }

/-- A port is held for a reason (R110): its queues are emptied (R112, R150). -/
def State.holdPort (s : State) (p reason : Nat) : State :=
  let s := ((s.learnPeer p).setRoute p fun r => { r with state := 3, reason := reason }).flushPort p
  s.event 2 0x03 0x0010
    (leBytes 2 p ++ leBytes 1 reason ++ zeros 1 ++ leBytes 2 (s.route p).peer ++ leBytes 2 (s.route p).peerPort)

/-- A port goes in service; the peer's boot_epoch is recorded the first time (R111). -/
def State.servePort (s : State) (p : Nat) : State :=
  let s := (s.learnPeer p).setRoute p fun r => { r with state := 2, reason := 0 }
  match (s.route p).hello with
  | some d => if (s.topo.epochs.get? d.node).isSome then s
              else s.setTopo fun t => { t with epochs := t.epochs.set d.node d.epoch }
  | none => s

/-- A fabric port's HELLO against its plan entry (Table 5.5), its boot_epoch being new or unchanged. -/
def State.judgeHello (s : State) (p : Nat) (d : Disc) : State :=
  match s.topo.plan with
  | none => s
  | some pl =>
    let e := s.portEntry p
    if d.node != e.peer || (e.peerPort != 0xFFFF && d.port != e.peerPort) then s.holdPort p 2
    else if d.planId != pl.planId || d.coord != pl.coord d.node then s.holdPort p 4
    else if s.isLost d.node || (d.portState = 3 && d.portReason = 5) then s.holdPort p 5
    else s.servePort p

/-- The HELLO carries another boot_epoch than the one recorded of its sender (R111). -/
def State.epochChanged (s : State) (d : Disc) : Bool :=
  match s.topo.epochs.get? d.node with
  | some ep => ep != d.epoch
  | none => false

/-- The sender of a HELLO was reset: it is treated as lost, and every ACTIVE port that the plan leads to it is held for
readmission (R111). -/
def State.peerReset (s : State) (n : Nat) : State :=
  let mine := (List.range s.portCount).filter fun q =>
    (s.portEntry q).role == 2 && (s.portEntry q).peer == n && (s.port q).state == 5 &&
    !((s.route q).state == 3 && (s.route q).reason == 5)
  (mine.foldl (fun (s : State) q => s.holdPort q 5) s).markLost n

/-- A LANE.LSM_RELEASE is withdrawing the port (R78). -/
def State.leaving (s : State) (p : Nat) : Bool := (s.lanesOf p).any fun n => (s.link.lsms.getD (n / 64) {}).draining.isSome

/-- A port in ACTIVE is compared with its plan entry (R110); in headless mode no port is newly judged (R411), nor is one that
a release withdraws (R78). -/
def State.judgePort (s : State) (p : Nat) : State :=
  if (s.port p).state != 5 || s.flt.headless || s.leaving p then s
  else
    let kind := ((s.port p).peer.map CapSet.kind).getD 0
    let st := (s.route p).state
    match s.role p with
    | 0 => if st = 0 then s.holdPort p 1 else s
    | 1 =>
      if st = 1 || st = 4 then
        let id := ((s.port p).peer.map CapSet.id).getD 0
        if kind != 1 then s.holdPort p 3
        else if (s.portEntry p).peer = 0xFFFF || (s.portEntry p).peer = id then s.servePort p
        else s.holdPort p 2
      else s
    | _ =>
      if st = 1 || st = 4 then
        if kind != 0 then s.holdPort p 3
        else
          match (s.route p).hello with
          | some d => s.judgeHello p d
          | none => s
      else s

/-- A HELLO or HELLO_REPLY is committed on a port (R110): it is compared, and a HELLO answered; not in headless mode
(R411). -/
def State.helloHear (s : State) (p : Nat) (d : Disc) (isReply : Bool) : State :=
  if s.flt.headless then s else
  let s := s.setRoute p fun r => { r with hello := some d, replied := r.replied || isReply, peerState := d.portState }
  let s := if isReply && (s.route p).state = 3 && (s.route p).reason = 6 then
      s.setRoute p fun r => { r with state := 1, reason := 0 } else s
  let s := if s.epochChanged d then s.peerReset d.node else s
  let s := if (s.route p).state = 2 && (s.role p = 2) then
      (if d.portState = 3 && d.portReason = 5 then s.holdPort p 5 else s)
    else s.judgePort p
  let s := s.trunkCheck
  if isReply then s else s.sendHello p 2

/-- The far end's routing state of a port, as a LINK_STATE or DIGEST frame carries it (R110). -/
def State.peerReports (s : State) (p : Nat) (d : Disc) : State :=
  (s.setRoute p fun r => { r with peerState := d.portState }).trunkCheck

/-- Every planned port has left PENDING. -/
def State.noPending (s : State) : Bool :=
  (List.range s.portCount).all fun p => (s.portEntry p).role = 0 || (s.route p).state != 1

/-- The bring-up summary, once (R334). -/
def State.summary (s : State) : State :=
  let count := fun (f : RouteSt → Bool) => ((List.range s.portCount).filter fun p => f (s.route p)).length
  (s.setTopo fun t => { t with summary := true }).event 1 0x03 0x0012
    (leBytes 2 (count fun r => r.state == 2) ++
     [1, 2, 3, 4, 5, 6].flatMap (fun k => leBytes 2 (count fun r => r.state == 3 && r.reason == k)) ++
     leBytes 2 (count fun r => r.state == 4) ++ leBytes 4 s.capacity)

/-- The summary when it is due at the earlier moment of R334. -/
def State.summaryCheck (s : State) : State :=
  if s.topo.plan.isSome && s.ticking && !s.topo.summary && s.noPending then s.summary else s

/-- pending_limit ticks have passed: planned ports not in service become MISSING (R110, R334). -/
def State.pendingExpired (s : State) : State :=
  let ports := (List.range s.portCount).filter fun p => (s.portEntry p).role != 0 && (s.route p).state == 1
  let s := ports.foldl (fun s p => s.setRoute p fun r => { r with state := 4 }) s
  let s := (s.setTopo fun t => { t with pendingAge := none }).trunkCheck.reportMissing
  if s.topo.summary then s else s.summary

/-- A port's link has entered ACTIVE: discovery starts (R109). -/
def State.routeActive (s : State) (p : Nat) : State :=
  ((s.setRoute p fun r => { r with hello := none, replied := false, peerState := 0, helloAge := 0, mismatch := 0 }).judgePort
    p).trunkCheck.summaryCheck

/-- A port's link has left ACTIVE (Table 5.5). -/
def State.routeInactive (s : State) (p : Nat) : State :=
  let planned := (s.portEntry p).role != 0
  (s.setRoute p fun r => { r with
    state := if r.state = 2 then 4 else if r.state = 3 then (if planned then 1 else 0) else r.state,
    reason := 0, hello := none, replied := false, peerState := 0 }).trunkCheck

/-- HELLOs of a tick: on every ACTIVE link to a module, until a reply, in at most 16 ticks (R109). -/
def State.helloTick (s : State) : State :=
  s.activePorts.foldl (fun (s : State) p =>
    let r := s.route p
    let s := s.setRoute p fun r => { r with helloAge := r.helloAge + 1 }
    if r.replied || decide (16 ≤ r.helloAge) || ((s.port p).peer.map CapSet.kind) != some 0 ||
        s.topo.plan.isNone || s.flt.headless then s
    else s.sendHello p 1) s

/-! ## TOPO.LOAD (R108) -/

/-- The routing states of a plan's ports before any is judged: PENDING where planned (Table 5.5). -/
def Plan.startPorts (pl : Plan) (old : NMap RouteSt) : NMap RouteSt :=
  (List.range pl.ports.length).filterMap fun p =>
    if (pl.ports.getD p {}).role = 0 then none
    else some (p, { (NMap.getD old p {}) with state := 1, reason := 0, mismatch := 0 })

/-- The kept plan after a data-plane reset: its ports are PENDING again, and its trunks missing (DEDUCED, log entry 47). -/
def State.restartPlan (s : State) : State :=
  let s := s.setTopo fun t => { t with ports := (t.plan.map fun pl => pl.startPorts []).getD [] }
  s.setTopo fun t => { t with ownMissing := s.missingNow, unreported := s.missingNow }

/-- An accepted plan in force. -/
def State.loadPlan (s : State) (b : List Byte) : State :=
  let pl := parsePlan b s.portCount
  let prio := ((pl.node? pl.this).map NodeEntry.priority).getD 255
  let s := s.setReg .tickConfig 0 (setField (s.reg .tickConfig) 2 8 prio)
  let old := s.topo
  let s := s.setTopo fun t => { t with
    plan := some pl, seed := pl.seed, summary := false, epochs := [], nodes := [], notices := [], resend := []
    pendingAge := (if s.ticking then some 0 else none)
    ports := pl.startPorts old.ports }
  let s := s.setTopo fun t => { t with ownMissing := s.missingNow, unreported := s.missingNow }
  let s := old.ports.keys.foldl (fun s p => s.flushPort p) s
  let s := { s with sw := { s.sw with reserve := ((List.range pl.ports.length).filterMap fun p =>
      let c := (pl.ports.getD p {}).c7
      if c = 0 then none else some (p, c)) } }
  let s := s.sw.reserve.keys.foldl (fun (s : State) p => s.scaleEvent p 256) s
  ((s.activePorts.foldl State.judgePort s).trunkCheck).summaryCheck

/-! ## LINK_STATE and DIGEST (R115–R118) -/

/-- A notice is committed on a port; one that is not newer is dropped (R115). -/
def State.noticeHear (s : State) (p : Nat) (d : Disc) : State :=
  let newer := match (s.ls d.originNode).seq with
    | none => d.originNode != s.me
    | some q => d.originNode != s.me && serialNewer 32 d.lsSeq q
  if !newer then s
  else
    let s := s.bump .routeLsNotices
    let s := s.setLs d.originNode fun l => { l with
      seq := some d.lsSeq, back := l.back && d.event != 0
      missing := if d.event = 0 then (if bit l.missing d.originTrunk then l.missing else l.missing + 2 ^ d.originTrunk)
                 else if d.event = 1 then (if bit l.missing d.originTrunk then l.missing - 2 ^ d.originTrunk
                                           else l.missing)
                 else l.missing }
    let s := if d.event = 2 then
        (match s.topo.plan.bind fun pl => pl.far d.originNode d.originTrunk with
          | some (m, _) => s.setLs m fun l => { l with lost := false, back := true }
          | none => s)
      else if d.event = 0 then
        (match s.topo.plan.bind fun pl => pl.far d.originNode d.originTrunk with
          | some (m, _) => s.setLs m fun l => { l with back := false }
          | none => s)
      else s
    let s := s.holdNotice { origin := d.originNode, trunk := d.originTrunk, event := d.event, seq := d.lsSeq,
                            arrived := some p }
    if d.event = 0 then s.lostCheck d.originNode d.originTrunk else s

/-- The node that a notice of event 2 readmits. -/
def State.readmitted (s : State) (d : Disc) : Option Nat :=
  if d.event = 2 then (s.topo.plan.bind fun pl => pl.far d.originNode d.originTrunk).map Prod.fst else none

/-- A neighbour's digest is compared; two differences in a row send every notice held again on that link (R118). -/
def State.digestHear (s : State) (p : Nat) (d : Disc) : State :=
  let n := if d.digest = s.lsDigest then 0 else (s.route p).mismatch + 1
  if n < 2 then s.setRoute p fun r => { r with mismatch := n }
  else
    let latest := s.topo.notices.filter fun m =>
      !(s.topo.notices.any fun o => o.origin == m.origin && serialNewer 32 o.seq m.seq)
    (s.setRoute p fun r => { r with mismatch := 0 }).setTopo fun t => { t with resend := t.resend.set p latest }

/-- DIGESTs on every in-service fabric port (R109). -/
def State.sendDigests (s : State) : State :=
  let s := s.setTopo fun t => { t with digestAge := 0 }
  let w := s.lsDigest
  ((List.range s.portCount).filter fun p => s.role p = 2 && (s.route p).state = 2).foldl
    (fun s p => s.sendDisc p { s.discBase p 4 with digest := w }) s

/-! ## Hedges (R126) -/

/-- The hedge that a command names, at a boundary. -/
def hedgeOf (scope port job node ep since : Nat) : Hedge :=
  match scope with
  | 0 => { scope := 0, port := port, since := since }
  | 1 => { scope := 1, node := node, ep := ep, since := since }
  | _ => { scope := 2, job := job, since := since }

/-- Two hedges of one scope. -/
def Hedge.same (a b : Hedge) : Bool := { a with since := 0 } == { b with since := 0 }

/-- A hedge takes effect; a port hedge takes its port from its trunk. -/
def State.hedge (s : State) (h : Hedge) : State :=
  if s.topo.hedges.any h.same then s
  else (s.setTopo fun t => { t with hedges := h :: t.hedges }).trunkCheck.pruneWaiting

/-- Queued frames of flows that a lifted job hedge held back go out. -/
def State.releaseHeld (s : State) : State :=
  (s.flow.tx.map TxFlow.key).foldl (fun s k => s.flushFlow k 1024) s

/-- A hedge is lifted. -/
def State.lift (s : State) (h : Hedge) : State :=
  ((s.setTopo fun t => { t with hedges := t.hedges.filter fun g => !g.same h }).trunkCheck).releaseHeld

/-! ## Readmission (R127) -/

/-- Ports held with reason awaiting readmit that TOPO.READMIT of `n` concerns. -/
def State.heldFor (s : State) (n : Nat) : List Nat :=
  (List.range s.portCount).filter fun p =>
    s.role p == 2 && (s.route p).state == 3 && (s.route p).reason == 5 &&
    (n == s.me || (s.portEntry p).peer == n)

/-- One held port goes in service with its peer's new boot_epoch. -/
def State.readmitPort (s : State) (p : Nat) : State :=
  let s := match (s.route p).hello with
    | some d =>
      let newer := match s.topo.epochs.get? d.node with
        | some e => serialNewer 32 d.epoch e
        | none => true
      if newer then s.setTopo fun t => { t with epochs := t.epochs.set d.node d.epoch } else s
    | none => s
  s.servePort p

/-- Node `n` is readmitted here: its ports go in service, then notices of event 2, then those of event 1. -/
def State.readmit (s : State) (n : Nat) : State :=
  let ports := s.heldFor n
  let trunks := (ports.map fun p => (s.portEntry p).trunk).dedup
  let s := ports.foldl State.readmitPort s
  if n = s.me then s.trunkCheck
  else
    let s := s.setLs n fun l => { l with lost := false, back := true }
    (trunks.foldl (fun s t => s.originateNotice t 2) s).trunkCheck

/-! ## Multicast groups (R123) -/

/-- Table 5.10. -/
def groupBytes (kind group job : Nat) (eps : List Nat) : List Byte :=
  let b := leBytes 1 kind ++ zeros 1 ++ leBytes 2 group ++ leBytes 2 job ++ leBytes 2 eps.length ++
    eps.flatMap (leBytes 2)
  padTo (64 * ceilDiv b.length 64) b

/-- A GROUP_SETUP frame to a member module. -/
def State.sendGroup (s : State) (kind : Nat) (g : GroupSt) (m : Nat) : State :=
  let eps := if kind = 1 then
      ((g.members.filter fun x => x.1 == m).map Prod.snd).mergeSort fun a b => decide (a ≤ b) else []
  let b := groupBytes kind g.group g.job eps
  s.send { hdr := { opcode := Op.groupSetup, cls := 6, sys := true, dstNode := m, dstEp := 0xFFF3, srcNode := s.me,
                    srcEp := 0xFFF3, units := b.length / 64, last := true, phase := 1 }, payload := b } (.group s.me g.group m)

/-- Member modules of a group other than its home. -/
def GroupSt.modules (g : GroupSt) : List Nat := ((g.members.map Prod.fst).filter (· != g.home)).dedup

/-- The home node makes a group's entry and installs it on its member modules. -/
def State.installGroup (s : State) (job id : Nat) (members : List (Nat × Nat)) : State :=
  let g : GroupSt := { home := s.me, group := id, job := job, members := members, users := 1,
                       locals := (members.filter fun m => m.1 == s.me).map Prod.snd }
  let g := { g with unacked := g.modules, down := g.modules }
  g.modules.foldl (fun s m => s.sendGroup 1 g m) (s.setGroup g)

/-- The home node removes a group: GROUP_SETUP of kind 2 to each member module. -/
def State.removeGroup (s : State) (id : Nat) : State :=
  match s.group? s.me id with
  | none => s
  | some g => g.modules.foldl (fun s m => s.sendGroup 2 g m)
      ((s.withdraw fun o => match o with
        | .group h i _ => h == s.me && i == id
        | _ => false).dropGroup s.me id)

/-- One user of a group less; the last one's end removes it. -/
def State.leaveGroup (s : State) (id : Nat) : State :=
  match s.group? s.me id with
  | none => s
  | some g => if g.users ≤ 1 then s.removeGroup id else s.setGroup { g with users := g.users - 1 }

/-- A module can make or extend the entry of a group for a member module. -/
def State.groupRoom (s : State) (home id m : Nat) : Bool :=
  match s.group? home id with
  | none => decide (s.topo.groups.length < 65536)
  | some g => g.down.contains m || decide (g.down.length < 512)

/-- A module on the direct route takes a GROUP_SETUP that it forwards towards `m`. -/
def State.groupTransit (s : State) (home m : Nat) (b : List Byte) : State :=
  let id := getLE b 2 2
  let g := (s.group? home id).getD { home := home, group := id, job := getLE b 4 2 % 4096 }
  if getLE b 0 1 = 1 then s.setGroup { g with down := if g.down.contains m then g.down else m :: g.down }
  else
    let g := { g with down := g.down.filter (· != m) }
    if g.down.isEmpty && g.locals.isEmpty then s.dropGroup home id else s.setGroup g

/-- The member module itself takes the frame: a refusal status, or the new state. -/
def State.groupMember (s : State) (home : Nat) (b : List Byte) : Option Nat × State :=
  let id := getLE b 2 2
  let n := getLE b 6 2
  let eps := (List.range n).map fun i => getLE b (8 + 2 * i) 2
  let g := (s.group? home id).getD { home := home, group := id, job := getLE b 4 2 % 4096 }
  if getLE b 0 1 = 1 then
    if 512 < n || !((s.group? home id).isSome || decide (s.topo.groups.length < 65536)) then
      (some Status.capacityExceeded, s)
    else (none, s.setGroup { g with locals := eps })
  else
    let g := { g with locals := [] }
    (none, if g.down.isEmpty then s.dropGroup home id else s.setGroup g)

/-- At the readmission of `n`, groups whose direct route to a member passes through `n` or ends there are installed
again (R123). -/
def State.reinstallGroups (s : State) (n : Nat) : State :=
  match s.topo.plan with
  | none => s
  | some pl =>
    (s.topo.groups.filter fun g => g.home == s.me).foldl (fun s g =>
      (g.modules.filter fun m =>
        m == n || ((s.leg pl 64 s.me m).getD []).any fun nt => nt.1 == n).foldl (fun s m => s.sendGroup 1 g m) s) s

end Sys2Proof.Machine
end

