-- ==== Sys2Proof/Machine/Links.lean ====
section
/-! DEFINITION. Lanes, ports and laser source modules (chapter 3): bring-up, width steps, retirement, tests, lasers. -/

namespace Sys2Proof.Machine

/-- A lane changed. -/
def State.setLane (s : State) (n : Nat) (f : LaneSt → LaneSt) : State :=
  { s with link := { s.link with lanes := s.link.lanes.upd n {} f } }

/-- A laser source module's slot. -/
def State.lsm (s : State) (j : Nat) : LsmSt := s.link.lsms.getD j {}

/-- A laser source module changed. -/
def State.setLsm (s : State) (j : Nat) (f : LsmSt → LsmSt) : State :=
  { s with link := { s.link with lsms := s.link.lsms.upd j {} f } }

/-- The lowest lane in use of a port (R71, R43). -/
def State.lowestLane (s : State) (p : Nat) : Nat := ((s.lanesOf p).find? fun n => (s.lane n).inUse).getD (p * s.nominal)

/-- A block with its CRC-32C over the bytes before it. -/
def withCrc (b : List Byte) : List Byte := b ++ leBytes 4 (crc32c b)

/-- The width request (kind 0) or acknowledgement (kind 1) block (R86). -/
def widthBlock (kind usable width : Nat) : List Byte :=
  withCrc (leBytes 1 0x59 ++ leBytes 1 kind ++ leBytes 1 usable ++ leBytes 1 width ++ zeros 24)

/-- The width marker (R86). -/
def widthMarker : List Byte := withCrc (leBytes 1 0x58 ++ zeros 27)

/-! ## Width (R62, R66) -/

/-- The receiver has block lock on the lane and the lane may be used (R62). -/
def LaneSt.locked (l : LaneSt) : Bool := !l.los && !l.lol && !l.retired && l.test.isNone

/-- The bitmap of a port's lanes usable at this end. -/
def State.usableLanes (s : State) (p : Nat) : Nat :=
  (s.lanesOf p).zipIdx.foldl (fun w ni => if (s.lane ni.1).locked then w + 2 ^ ni.2 else w) 0

/-- The largest power of two that a count of usable lanes allows (R62). -/
def widthOf (nominal n : Nat) : Nat := ([8, 4, 2, 1].find? fun w => decide (w ≤ nominal) && decide (w ≤ n)).getD 0

/-- The running width of a bitmap on a port. -/
def State.widthFor (s : State) (bm : Nat) : Nat := widthOf s.nominal (popCount s.nominal bm)

/-- The lanes that a bitmap and a width put in use. -/
def State.setInUse (s : State) (p bm w : Nat) : State :=
  let chosen := (bitMembers s.nominal bm).take w
  (s.lanesOf p).zipIdx.foldl (fun s ni =>
    let on := chosen.contains ni.2
    if (s.lane ni.1).inUse = on then s else s.setLane ni.1 fun l => { l with inUse := on, lockTicks := 0 }) s

/-- A lane under test that has left its port: the peer is asked for its pattern, and the ticks of the test begin (R75). -/
def State.askTest (s : State) (n : Nat) : State :=
  let l := s.lane n
  match l.test with
  | some t =>
    if t.asked || l.inUse then s
    else (s.setLane n fun l => { l with test := some { t with asked := true } }).emit (.laneTestAsk n t.ticks)
  | none => s

/-- The running width of a port in ACTIVE changes. -/
def State.setWidth (s : State) (p bm w : Nat) : State :=
  let old := s.c7Effective p
  (s.lanesOf p).foldl State.askTest (((s.setInUse p bm w).setPort p fun P => { P with width := w }).scaleEvent p old)

/-- The capability sets received on a port's lanes no longer count. -/
def State.forgetCaps (s : State) (p : Nat) : State :=
  (s.lanesOf p).foldl (fun s n => if (s.lane n).caps.isNone then s else s.setLane n fun l => { l with caps := none }) s

/-! ## States of Table 3.4 -/

/-- The frame in reception on a port is lost with the link. -/
def State.dropReception (s : State) (p : Nat) : State :=
  match s.sw.rx.get? p with
  | none => s
  | some f =>
    let s := { s with sw := { s.sw with rx := s.sw.rx.erase p } }
    s.dropRx p f

/-- The port's laser source modules are lit. -/
def State.portLit (s : State) (p : Nat) : Bool := (s.lanesOf p).any fun n => (s.lsm (n / 64)).lit

/-- A port enters a state other than ACTIVE. -/
def State.portState (s : State) (p st : Nat) : State :=
  let was := (s.port p).state
  let old := s.c7Effective p
  let s := s.setPort p fun P => { P with
    state := st, width := 0, refusal := 0, step := none, stepWanted := false, firstGrant := none, discarding := false,
    peer := if st = 4 then P.peer else none, ownAck := 0 }
  let s := s.forgetCaps p
  if was = 5 then
    let s := ((s.setInUse p 0 0).dropReception p).scaleEvent p old
    let s := (s.routeInactive p).flushPort p
    s.tickPortLost p
  else s

/-- An event of a port that has FAILED or is refused in EXCHANGE. -/
def State.portEvent (s : State) (p : Nat) : State :=
  let P := s.port p
  s.event 2 0x02 0x0010
    (leBytes 2 p ++ leBytes 1 P.state ++ leBytes 1 P.refusal ++ leBytes 1 P.attempts ++ zeros 1 ++
     leBytes 2 ((P.peer.map CapSet.id).getD 0))

/-- A stage has timed out: one failed attempt; the sixteenth fails the port (R63). -/
def State.failAttempt (s : State) (p : Nat) : State :=
  let n := (s.port p).attempts + 1
  let s := (s.portState p (if 16 ≤ n then 6 else 1)).setPort p fun P => { P with attempts := min n 31 }
  if 16 ≤ n then s.portEvent p else s

/-- The receiver's first grant: 512 units of 64 B on each virtual channel (DESIGN CHOICE, log entry 13). -/
def initialGrant : List Nat := List.replicate 8 512

/-- A port enters ACTIVE at a width (R63, R66): counts from zero, an announce, discovery. -/
def State.portActive (s : State) (p bm w : Nat) : State :=
  let s := s.setPort p fun P => { P with
    state := 5, attempts := 0, refusal := 0, step := none, stepWanted := false,
    txGranted := List.replicate 8 0, txUsed := List.replicate 8 0,
    rxGranted := initialGrant, rxUsed := List.replicate 8 0 }
  let s := s.setWidth p bm w
  let s := s.emit (.credit p (creditBytes initialGrant))
  (s.announceOn p).routeActive p

/-- A port is enabled: it enters DETECT (R63, R333), its failed attempts forgotten, so that it may try sixteen times again
(DESIGN CHOICE, log entry 66). -/
def State.enablePort (s : State) (p : Nat) : State :=
  let s := { s with link := { s.link with enabled := true } }
  if (s.port p).state = 0 || (s.port p).state = 6 then
    (s.portState p 1).setPort p fun P => { P with attempts := 0 }
  else s

/-- Every laser source module that is closed, not refused and not released is lit as lanes are enabled. -/
def State.lightLsms (s : State) : State :=
  (List.range 16).foldl (fun s j =>
    let L := s.lsm j
    if L.latchOpen || L.refused != 0 || L.indicator || L.lit then s
    else s.setLsm j fun L => { L with lit := true }) s

/-- A port is disabled. -/
def State.disablePort (s : State) (p : Nat) : State := s.portState p 0

/-! ## EXCHANGE (R65, R66) -/

/-- The capability set of one lane (Table 3.5). Without a plan the node ID is 0xFFFF and plan_id 0 (DESIGN CHOICE, log
entry 67). -/
def State.capBytes (s : State) (p lane : Nat) : List Byte :=
  withCrc (leBytes 1 0x5E ++ leBytes 1 1 ++ leBytes 1 0 ++ leBytes 1 s.period ++ leBytes 2 s.me ++ leBytes 2 p ++
    leBytes 1 s.nominal ++ leBytes 1 (lane % s.nominal) ++ leBytes 1 (s.usableLanes p) ++ leBytes 1 (s.port p).ownAck ++
    leBytes 1 s.tick.state ++ leBytes 1 8 ++ leBytes 2 128 ++ leBytes 4 ((s.topo.plan.map Plan.planId).getD 0) ++ zeros 40)

/-- Capability sets go out on every locked lane (R65). -/
def State.sendCaps (s : State) (p : Nat) : State :=
  (s.lanesOf p).foldl (fun (s : State) n => if (s.lane n).locked then s.emit (.capability p n (s.capBytes p n)) else s) s

/-- A port is refused in EXCHANGE. -/
def State.refusePort (s : State) (p reason : Nat) (c : CapSet) : State :=
  if (s.port p).refusal = reason then s
  else
    let s := s.setPort p fun P => { P with refusal := reason }
    let s := if reason = 1 then
        s.event 2 0x00 0x0011 (leBytes 2 p ++ leBytes 1 s.period ++ leBytes 1 c.period) else s
    s.portEvent p

/-- A capability set is accepted in EXCHANGE. With both a different period and a different version the reason is the period
mismatch, which R34 requires (DESIGN CHOICE, log entry 68). -/
def State.exchangeCaps (s : State) (p : Nat) (c : CapSet) : State :=
  if (s.port p).state != 4 then s
  else
    let bm := s.usableLanes p &&& c.usable
    let w := s.widthFor bm
    let s := s.setPort p fun P => { P with peer := some c, ownAck := w }
    if c.kind = 0 && c.period != s.period then s.refusePort p 1 c
    else if c.version != 1 then s.refusePort p 2 c
    else
      let s := (s.setPort p fun P => { P with refusal := 0 }).sendCaps p
      if w != 0 && c.widthAck == w && (c.period == s.period || (c.kind == 1 && c.period == 0xFF)) then
        s.portActive p bm w
      else s

/-- A capability set received on a lane counts with those before it that are identical; a bad CRC breaks the row; the third in a
row is accepted, and each one after it (R65). -/
def State.hearCaps (s : State) (p n : Nat) (crcOk : Bool) (c : CapSet) : State :=
  if (s.port p).state != 4 || s.portOf n != p then s
  else if !crcOk then s.setLane n fun l => { l with caps := none }
  else
    let k := match (s.lane n).caps with
      | some (d, k) => if d = c then min (k + 1) 3 else 1
      | none => 1
    let s := s.setLane n fun l => { l with caps := some (c, k) }
    if k = 3 then s.exchangeCaps p c else s

/-! ## Width steps (R71–R73) -/

/-- The port leaves ACTIVE for DETECT. -/
def State.toDetect (s : State) (p : Nat) : State := s.portState p 1

/-- This end starts a width step, naming its own usable bitmap (DEDUCED, log entry 15), or wants one after the step in
progress. -/
def State.startStep (s : State) (p : Nat) : State :=
  let P := s.port p
  if P.state != 5 then s
  else if P.step.isSome then s.setPort p fun P => { P with stepWanted := true }
  else
    let mine := s.usableLanes p
    let bm := mine &&& ((P.peer.map CapSet.usable).getD 0)
    let w := s.widthFor bm
    if w = 0 then s.toDetect p
    else
      (s.setPort p fun P => { P with step := some { own := true, usable := bm, width := w } }).emit
        (.widthBlock p (s.lowestLane p) (widthBlock 0 mine w))

/-- The peer's request: this end computes the width again and acknowledges it. Where the requests of both ends cross, this end
gives up its own, answers, and asks again when the peer's step is done (DESIGN CHOICE, log entry 69). -/
def State.answerStep (s : State) (p usable : Nat) : State :=
  let P := s.port p
  if P.state != 5 then s
  else
    let bm := s.usableLanes p &&& usable
    let w := s.widthFor bm
    if w = 0 then s.toDetect p
    else
      let wanted := P.stepWanted || (match P.step with
        | some t => t.own
        | none => false)
      (s.setPort p fun P => { P with
        step := some { own := false, usable := bm, width := w, acked := true }, stepWanted := wanted,
        peer := P.peer.map fun c => { c with usable := usable } }).emit
        (.widthBlock p (s.lowestLane p) (widthBlock 1 (s.usableLanes p) w))

/-- The peer's acknowledgement of this end's request. -/
def State.stepAcked (s : State) (p usable w : Nat) : State :=
  match (s.port p).step with
  | some t =>
    if t.own && !t.acked then
      if w = 0 then s.toDetect p
      else s.setPort p fun P => { P with
        step := some { t with acked := true, usable := s.usableLanes p &&& usable, width := w, age := 0 }
        peer := P.peer.map fun c => { c with usable := usable } }
    else s
  | none => s

/-- A step whose markers have gone both ways is done; a further one may start. -/
def State.stepDone (s : State) (p : Nat) : State :=
  match (s.port p).step with
  | some t =>
    if t.sent && t.followed then
      let wanted := (s.port p).stepWanted
      let s := s.setPort p fun P => { P with step := none, stepWanted := false }
      if wanted then s.startStep p else s
    else s
  | none => s

/-- At the first boundary two ticks or more after the acknowledgement: markers, and frames striped over the new
set. -/
def State.stepSwitch (s : State) (p : Nat) : State :=
  match (s.port p).step with
  | some t =>
    if t.acked && !t.sent && decide (2 ≤ t.age) then
      let s := s.setPort p fun P => { P with step := some { t with sent := true } }
      let lanes := ((bitMembers s.nominal t.usable).take t.width).map fun i => p * s.nominal + i
      ((s.setWidth p t.usable t.width).emit (.widthMarker p lanes widthMarker)).stepDone p
    else s
  | none => s

/-- The receiver follows the peer's marker. -/
def State.stepMarker (s : State) (p : Nat) : State :=
  match (s.port p).step with
  | some t => (s.setPort p fun P => { P with step := some { t with followed := true } }).stepDone p
  | none => s

/-! ## LOS, LOL, retirement (R68–R75) -/

/-- A lane loses light or lock. -/
def State.laneLoss (s : State) (n : Nat) (los : Bool) : State :=
  let l := s.lane n
  if (if los then l.los else l.lol) then s
  else
    let s := s.setLane n fun l => { l with los := l.los || los, lol := l.lol || !los, winFlap := l.winFlap + 1,
                                           lockTicks := 0 }
    let s := s.bump .laneLossEvents n
    let p := s.portOf n
    if (s.port p).state != 5 then s
    else if (s.lanesOf p).all fun m => (s.lane m).los then s.toDetect p
    else if l.inUse then s.startStep p else s

/-- A lane regains light or lock. -/
def State.laneGain (s : State) (n : Nat) (los : Bool) : State :=
  s.setLane n fun l => if los then { l with los := false } else { l with lol := false, lockTicks := 0 }

/-- A lane is retired (R74), by a cause of Table 17.2a. -/
def State.retireLane (s : State) (n cause : Nat) : State :=
  let l := s.lane n
  let s := s.event 2 0x01 0x0010
    (leBytes 2 n ++ leBytes 1 cause ++ zeros 1 ++ leBytes 4 l.winSym ++ leBytes 2 l.winUncorr ++ leBytes 1 l.winFlap)
  let s := { s with mgt := { s.mgt with lanes := if s.mgt.lanes.contains n then s.mgt.lanes else n :: s.mgt.lanes } }
  let s := s.setLane n fun l => { l with retired := true }
  if l.inUse then s.startStep (s.portOf n) else s

/-- The threshold that a lane has reached in the window (R74): cause, or none. -/
def State.retireCause (s : State) (n : Nat) : Option Nat :=
  let l := s.lane n
  if s.cfg .laneRetireCfg 0 0 26 ≤ l.winSym then some 1
  else if s.cfg .laneRetireCfg 0 26 8 ≤ l.winUncorr then some 2
  else if s.cfg .laneRetireCfg 0 48 8 ≤ l.winFlap then some 3
  else none

/-- Automatic retirement of a lane (R74): with auto_retire 0 it is only logged. -/
def State.autoRetire (s : State) (n : Nat) : State :=
  match s.retireCause n with
  | none => s
  | some c =>
    if (s.lane n).retired then s
    else if s.cfg .laneRetireCfg 0 34 1 = 1 then
      (s.retireLane n c).report { cls := 11, master := masterId 2 (n / 128) 0, detail := n }
    else
      let l := s.lane n
      s.event 2 0x01 0x0010
        (leBytes 2 n ++ leBytes 1 c ++ zeros 1 ++ leBytes 4 l.winSym ++ leBytes 2 l.winUncorr ++ leBytes 1 l.winFlap)

/-- LANE.RESTORE. -/
def State.restoreLane (s : State) (n : Nat) : State :=
  if !(s.lane n).retired then s
  else
    let s := { s with mgt := { s.mgt with lanes := s.mgt.lanes.filter (· != n) } }
    (s.setLane n fun l => { l with retired := false, lockTicks := 0 }).event 1 0x01 0x0011 (leBytes 2 n)

/-- The FEC decoder's counts of a tick (R70), which count towards the lane's test while the peer's pattern runs (R75). -/
def State.fecCount (s : State) (f : FecCount) : State :=
  let s := s.bump .laneFecCw f.lane f.cw
  let s := s.bump .laneFecCorrCw f.lane f.corrCw
  let s := s.bump .laneFecCorrSym f.lane f.corrSym
  let s := s.bump .laneFecUncorrCw f.lane f.uncorr
  let s := s.setReg .laneFecMaxSym f.lane (max (s.reg .laneFecMaxSym f.lane) (min f.maxSym 15))
  s.setLane f.lane fun l => { l with
    winSym := l.winSym + f.corrSym, winUncorr := l.winUncorr + f.uncorr
    test := l.test.map fun t => if t.asked && t.left != 0 then
        { t with counts := List.zipWith (· + ·) t.counts [f.cw, f.corrCw, f.corrSym, f.uncorr] } else t }

/-- Per-tick timers of lanes and ports: width steps, restore hold, retirement window, lane tests, releases. -/
def State.linkTick (s : State) (fec : List FecCount) : State :=
  let s := fec.foldl State.fecCount s
  let lanes := NMap.mapV s.link.lanes fun _ l =>
    { l with lockTicks := if !l.inUse && l.locked then l.lockTicks + 1 else l.lockTicks
             test := l.test.map fun t => if t.asked then { t with left := t.left - 1 } else t }
  let ports := NMap.mapV s.link.ports fun _ P =>
    { P with step := P.step.map fun t => { t with age := t.age + 1 } }
  let lsms := NMap.mapV s.link.lsms fun _ L => { L with draining := L.draining.map (· + 1) }
  { s with link := { s.link with lanes := lanes, ports := ports, lsms := lsms, window := s.link.window + 1 } }

/-- The window of 1,024 ticks ends. -/
def State.windowEnd (s : State) : State :=
  if s.link.window < 1024 then s
  else { s with link := { s.link with
    window := 0
    lanes := NMap.mapV s.link.lanes fun _ l => { l with winSym := 0, winUncorr := 0, winFlap := 0 } } }

/-- A lane leaves its port for a test (R75). -/
def State.startLaneTest (s : State) (n ticks : Nat) (retireAfter : Bool) (out : Ref) : State :=
  let l := s.lane n
  let s := s.setLane n fun l => { l with
    test := some { ticks := ticks, left := ticks, retireAfter := retireAfter, out := out } }
  if l.inUse then s.startStep (s.portOf n) else s.askTest n

/-- What a test counted: 8 B values. -/
def LaneTest.result (t : LaneTest) : List Byte := t.counts.flatMap (leBytes 8)

/-- The test ends: the lane returns, or stays retired. -/
def State.endLaneTest (s : State) (n : Nat) (t : LaneTest) : State :=
  let s := s.setLane n fun l => { l with test := none, lockTicks := 0 }
  if t.retireAfter then s.retireLane n 0 else s

/-! ## Laser source modules (R76–R80) -/

/-- The ports whose lanes a laser source module feeds. -/
def State.lsmPorts (s : State) (j : Nat) : List Nat := rangeFrom (64 * j / s.nominal) (64 / s.nominal)

/-- What a slot's identity record says; the module it was fitted with is good (DESIGN CHOICE, log entry 64). -/
def State.lsmIdent (s : State) (j : Nat) : LsmIdent :=
  (s.lsm j).ident.getD { setPoints := Config.lsmSetPoints j, limits := Config.lsmLimits j }

/-- A laser's power is below 70 % of its set point, which is 1.549 dB below it (R76). -/
def State.powerLow (s : State) (r : LaserRead) : Bool :=
  decide (r.power + 155 ≤ (s.lsmIdent r.lsm).setPoints.getD r.laser 0)

/-- A laser's bias is above the limit of the identity record (R76). -/
def State.biasHigh (s : State) (r : LaserRead) : Bool := decide ((s.lsmIdent r.lsm).limits.getD r.laser 0 < r.bias)

/-- One laser's reading (R76, R77). -/
def State.laserRead (s : State) (r : LaserRead) : State :=
  let L := s.lsm r.lsm
  if !L.lit || L.failed.contains r.laser || !(s.powerLow r || s.biasHigh r) then s
  else
    let s := s.event 2 0x01 0x0020
      (leBytes 1 r.lsm ++ leBytes 1 r.laser ++ leBytes 2 ((r.power + 32768) % 65536) ++ leBytes 2 r.bias ++
       leBytes 1 (b2n (!s.powerLow r)))
    let s := s.report { cls := 12, master := masterId 2 (r.lsm / 2) 0, detail := r.lsm * 64 }
    s.setLsm r.lsm fun L =>
      let free := L.spare.isNone && !L.failed.contains 4
      { L with failed := r.laser :: L.failed
               spare := if r.laser < 4 && free then some r.laser else L.spare
               switched := if r.laser < 4 && free then false else L.switched }

/-- The spare serves the failed wavelength (R77). -/
def State.spareOn (s : State) (j : Nat) : State :=
  let L := s.lsm j
  match L.spare with
  | some w =>
    if L.switched then s
    else (s.setLsm j fun L => { L with switched := true }).event 2 0x01 0x0021 (leBytes 1 j ++ leBytes 1 w)
  | none => s

/-- A laser source module goes dark: its ports enter DETECT. -/
def State.lsmDark (s : State) (j : Nat) : State :=
  let s := s.setLsm j fun L => { L with lit := false }
  (s.lsmPorts j).foldl (fun (s : State) p =>
    if (s.port p).state = 0 || (s.port p).state = 6 then s else s.portState p 1) s

/-- A release starts (R78): the ports are withdrawn from routing. -/
def State.lsmRelease (s : State) (j : Nat) : State :=
  let s := s.setLsm j fun L => { L with draining := some 0 }
  ((s.lsmPorts j).foldl (fun (s : State) p =>
    if (s.route p).state = 2 then s.setRoute p fun r => { r with state := 4 } else s) s).trunkCheck

/-- A release is done: what is left in the queues is dropped, the lasers go off, the indicator is lit. -/
def State.lsmReleased (s : State) (j : Nat) : State :=
  let s := (s.lsmPorts j).foldl (fun (s : State) p => s.flushPort p true) s
  let s := (s.lsmDark j).setLsm j fun L => { L with draining := none, indicator := true }
  s.event 0 0x01 0x0023 (leBytes 1 j ++ leBytes 1 0)

/-- The queues of a release are empty, or 64 ticks have passed. -/
def State.lsmDrained (s : State) (j : Nat) : Bool :=
  match (s.lsm j).draining with
  | none => false
  | some n => decide (64 ≤ n) || (s.lsmPorts j).all s.portEmpty

/-- A latch closes on a module: it is refused (R80), or its lasers are brought up (R78). -/
def State.lsmClosed (s : State) (j : Nat) (idOk : Bool) (i : LsmIdent) : State :=
  let bad := if !idOk then 1 else if i.grid != [1271, 1291, 1311, 1331] then 2 else 0
  let s := s.setLsm j fun L => { L with latchOpen := false, ident := some i, refused := bad, warming := bad == 0 }
  if bad = 0 then s
  else
    (s.event 2 0x01 0x0022 (leBytes 1 j ++ leBytes 1 (bad - 1))).report
      { cls := 12, master := masterId 2 (j / 2) 0, detail := j * 64 }

/-- The lasers of a replacement are at their set points: its ports enter DETECT (R78), one that had FAILED too, its count of
attempts kept (DESIGN CHOICE, log entry 70). -/
def State.lsmLit (s : State) (j : Nat) : State :=
  let s := s.setLsm j fun L => { L with warming := false, lit := true, failed := [], spare := none, switched := false,
                                        indicator := false }
  let s := s.event 0 0x01 0x0023 (leBytes 1 j ++ leBytes 1 1)
  (s.lsmPorts j).foldl (fun (s : State) p => if (s.port p).state = 0 then s else s.portState p 1) s

/-- Lanes of a port under test, or covered by a release (R341). -/
def State.portTied (s : State) (p : Nat) : Bool :=
  (s.lanesOf p).any fun n => (s.lane n).test.isSome || (s.lsm (n / 64)).draining.isSome

end Sys2Proof.Machine
end

