-- ==== Sys2Proof/Machine/Mgt.lean ====
section
/-! DEFINITION. The management subsystem (chapter 17): event records and logs, sensors, firmware images and their slots, and
attestation. -/

namespace Sys2Proof.Machine

/-- Management state changed. -/
def State.setMgt (s : State) (f : MgtSt → MgtSt) : State := { s with mgt := f s.mgt }

/-! ## Records (R392, R376, R410) -/

/-- The 64 bytes of an event record (Table 17.2). -/
def Event.bytes (e : Event) : List Byte :=
  leBytes 8 e.seq ++ e.stamp.bytes ++ leBytes 1 e.severity ++ leBytes 1 e.source ++ leBytes 2 e.code ++
  leBytes 2 e.status ++ leBytes 2 e.master ++ zeros 2 ++ leBytes 4 e.epoch ++ padTo 32 e.data

/-- The 32 bytes of a capture (Table 16.4). -/
def Capture.bytes (c : Capture) : List Byte :=
  leBytes 8 c.address ++ leBytes 2 c.master ++ leBytes 1 (c.access % 16) ++ leBytes 1 c.cls ++ leBytes 2 c.detail ++
  leBytes 1 (1 + 2 * b2n c.injected + 4 * b2n c.overflow + 8 * b2n c.safe) ++ leBytes 1 c.further ++ c.stamp.bytes ++ zeros 6

/-- The record with a seq, on chip or in the persistent ring; 64 zero bytes where it is held in neither (R410). In FAILED
with reason 1 only the persistent ring serves. -/
def State.logRecord (s : State) (seq : Nat) : List Byte :=
  let chip := if s.boot.phase = 15 ∧ s.boot.failReason = 1 then none
              else s.mgt.log.find? fun e => e.seq == seq
  match chip with
  | some e => e.bytes
  | none =>
    match s.mgt.plog.find? fun e => e.seq == seq with
    | some e => e.bytes
    | none => zeros 64

/-- The seq whose low 32 bits are `first`: the latest not after the next event's (R410). -/
def State.seqOf (s : State) (first : Nat) : Nat :=
  let hi := s.mgt.seq / 2 ^ 32 * 2 ^ 32
  if first ≤ s.mgt.seq % 2 ^ 32 then hi + first else hi + first - 2 ^ 32

/-- MGT.LOG_READ's bytes. -/
def State.logBytes (s : State) (first n : Nat) : List Byte :=
  (rangeFrom (s.seqOf first) n).flatMap s.logRecord

/-! ## Sensors (R391) -/

/-- A sensor's values are signed (Table 17.1). -/
def sensorSigned (i : Nat) : Bool := decide (i < 86) || (decide (178 ≤ i) && (i - 178) % 2 == 0)

/-- A 16-bit value as the sensor's number. -/
def sensorVal (i v : Nat) : Int := if sensorSigned i && decide (32768 ≤ v) then (v : Int) - 65536 else v

/-- One sensor's sample: its value and peak; one that cannot be read shows 0x8000 and logs one event. -/
def State.sensorRead (s : State) (i : Nat) (v : Option Nat) : State :=
  let old := s.mgt.sensors.getD i {}
  match v with
  | none =>
    let x : SensorSt := { old with value := 0x8000 }
    let s := s.setMgt fun m => { m with sensors := m.sensors.set i x }
    if old.value = 0x8000 then s else s.event 2 0x0C 0x0014 (leBytes 2 i)
  | some x =>
    let x := x % 65536
    let y : SensorSt := { value := x, peak := if sensorVal i old.peak < sensorVal i x then x else old.peak }
    s.setMgt fun m => { m with sensors := m.sensors.set i y }

/-- Varmon's sample of every sensor (R391, R411). -/
def State.sensorSample (s : State) (vs : List (Nat × Option Nat)) : State :=
  if s.managed then vs.foldl (fun s x => s.sensorRead x.1 x.2) s else s

/-- MGT_SENSOR_CTRL clear_peaks. -/
def State.clearPeaks (s : State) : State :=
  s.setMgt fun m => { m with sensors := NMap.mapV m.sensors fun _ x => { x with peak := x.value } }

/-! ## Images (R398–R401) -/

/-- A label's bytes. -/
def asciiBytes (l : String) : List Byte := l.toList.map fun c => BitVec.ofNat 8 c.toNat

/-- A slot's state. -/
def State.slot (s : State) (k : Nat) : SlotSt := if k = 0 then s.mgt.slotA else s.mgt.slotB

/-- A slot changed. -/
def State.setSlot (s : State) (k : Nat) (f : SlotSt → SlotSt) : State :=
  s.setMgt fun m => if k = 0 then { m with slotA := f m.slotA } else { m with slotB := f m.slotB }

/-- The other slot. -/
def otherSlot (k : Nat) : Nat := 1 - k

/-- The bytes in a slot. -/
def State.slotBytes (s : State) (k : Nat) : List Byte := (s.slot k).bytes.getD (Config.factoryImage k)

/-- Erased flash. -/
def ones (n : Nat) : List Byte := List.replicate n 0xFF

/-- The image's bytes with the signature taken as zero, hashed (R400); flash never written reads as erased (DESIGN CHOICE, log
entry 78). -/
def imageDigest (b : List Byte) : List Byte :=
  let n := getLE b 8 4
  Config.shake256 (b.take 96 ++ zeros 114 ++ ((b ++ ones (n - b.length)).drop 210).take (n - 210)) 64

/-- The header of an image (Table 17.4). -/
def parseImage (b : List Byte) : ImgHdr :=
  { keyIndex := getLE b 6 1, revoke := getLE b 7 1 % 16, version := getLE b 14 2,
    major := getLE b 16 1, minor := getLE b 17 1, build := getLE b 18 2, digest := imageDigest b }

/-- Section entries: type, offset, length. -/
def imageSections (b : List Byte) : List (Nat × Nat × Nat) :=
  (List.range (getLE b 12 2)).map fun i => (getLE b (256 + 16 * i) 1, getLE b (256 + 16 * i + 4) 4, getLE b (256 + 16 * i + 8) 4)

/-- Sections lie in ascending order without overlap from `at_`. -/
def sectionsOrdered : Nat → List (Nat × Nat × Nat) → Bool
  | _, [] => true
  | at_, x :: xs => decide (at_ ≤ x.2.1) && x.2.1 % 4096 == 0 && sectionsOrdered (x.2.1 + x.2.2) xs

/-- The layout of an image keeps R398 and R399. -/
def imageLayoutOk (b : List Byte) : Bool :=
  let len := getLE b 8 4
  let n := getLE b 12 2
  let secs := imageSections b
  let count := fun t => (secs.filter fun x => x.1 == t).length
  let zero := fun off k => (b.drop off).take k == zeros k
  getLE b 0 4 == 0x49564C44 && getLE b 4 2 == 1 && len % 4096 == 0 && decide (len ≤ 117440512) && decide (4096 ≤ len) &&
  decide (1 ≤ n) && decide (n ≤ 16) && decide (getLE b 14 2 ≤ 64) &&
  secs.all (fun x => decide (1 ≤ x.1) && decide (x.1 ≤ 4) && decide (x.2.1 + x.2.2 ≤ len)) &&
  count 1 == 1 && decide (count 2 ≤ 1) && decide (count 3 ≤ 1) && decide (count 4 ≤ 1) &&
  secs.all (fun x => x.1 != 1 || decide (x.2.2 ≤ 3145728)) && sectionsOrdered 4096 secs &&
  (List.range n).all (fun i => zero (256 + 16 * i + 1) 3 && zero (256 + 16 * i + 12) 4) &&
  zero (256 + 16 * n) (256 - 16 * n) && zero 22 10 && zero 89 7 && zero 210 46 &&
  bit (getLE b 20 2) Config.stepping && decide (getLE b 6 1 < 4) && decide (getLE b 7 1 < 16) &&
  !bit (getLE b 7 1) (getLE b 6 1)

/-- The signing key is accepted and the signature verifies (R400). -/
def State.imageSigned (s : State) (b : List Byte) : Bool :=
  let k := getLE b 6 1
  let key := (b.drop 32).take 57
  Config.shake256 key 64 == Config.keyDigest k && !bit s.mgt.revoked k &&
  Config.ed448Verify (asciiBytes "DELVI-IMG-1") key (imageDigest b)
    ((b.drop 96).take 114)

/-- The checks of R401, in order: OK or the status of the first that fails. -/
def State.imageCheck (s : State) (b : List Byte) : Nat :=
  if !imageLayoutOk b then Status.imageInvalid
  else if !s.imageSigned b then Status.signatureBad
  else if getLE b 14 2 < s.mgt.floor then Status.rollbackRefused
  else Status.ok

/-! ## The update path (R404–R406) -/

/-- MGT.IMAGE_WRITE's refusal. `n` is the length of the data. -/
def State.imageWriteRefusal (s : State) (path : Path) (slot off n : Nat) : Option Nat :=
  let held := match s.mgt.session with
    | some x => x.slot == slot && x.path != path
    | none => false
  let running := decide (2 ≤ s.boot.phase) && !(s.boot.phase == 15 && s.boot.failReason == 1) && s.boot.slot == slot
  if 1 < slot then some Status.descInvalid
  else if running then some Status.opBusy
  else if held && !(path == .sideband && off == 0) then some Status.opBusy
  else if n = 0 ∨ 1048576 < n ∨ 117440512 < off + n then some Status.descInvalid
  else if off ≠ 0 ∧ (match s.mgt.session with
      | some x => !(x.slot == slot && x.path == path && x.ptr == off)
      | none => true) = true then some Status.descInvalid
  else none

/-- A slot's bytes after a write of `data` at `off`: each 64 KiB sector is erased as the pointer first enters it (R404), and what
lies in later sectors stays. -/
def State.slotAfter (s : State) (slot off : Nat) (data : List Byte) : List Byte :=
  let stop := off + data.length
  let sector := ceilDiv stop 65536 * 65536
  (s.slotBytes slot).take off ++ data ++ ones (sector - stop) ++ (s.slotBytes slot).drop sector

/-- Bytes written into a slot; offset 0 opens a session and marks the slot invalid (R404). -/
def State.imageWrite (s : State) (path : Path) (slot off : Nat) (data : List Byte) : State :=
  let bytes := s.slotAfter slot off data
  let s := s.setSlot slot fun x => { x with
    mark := if off = 0 then 3 else x.mark, pending := if off = 0 then false else x.pending, bytes := some bytes }
  s.setMgt fun m => { m with session := some ⟨slot, path, off + data.length⟩ }

/-- MGT.IMAGE_ACTIVATE: the status, and the marks that it leaves (R406). -/
def State.imageActivate (s : State) (path : Path) (slot : Nat) : Nat × State :=
  let held := match s.mgt.session with
    | some x => x.slot == slot && x.path != path
    | none => false
  let running := decide (2 ≤ s.boot.phase) && !(s.boot.phase == 15 && s.boot.failReason == 1) && s.boot.slot == slot
  if 1 < slot then (Status.descInvalid, s)
  else if running then (Status.ok, s)
  else if held then (Status.opBusy, s)
  else
    let st := s.imageCheck (s.slotBytes slot)
    let s := s.setMgt fun m => { m with session := match m.session with
      | some x => if x.slot = slot then none else some x
      | none => none }
    if st = Status.ok then
      (st, (s.setSlot slot fun x => { x with mark := 0, pending := true }).setSlot (otherSlot slot)
        fun x => { x with mark := 1, pending := false })
    else (st, (s.bump .mgtImageRefused).event 2 0x0C 0x0013 (leBytes 1 slot ++ zeros 1 ++ leBytes 2 st))

/-! ## The boot ROM (R402, R403) -/

/-- The slots that the boot ROM tries, in order (R402). -/
def State.bootOrder (s : State) : List Nat :=
  let first := if s.mgt.slotA.mark = 0 then 0 else 1
  ([first, otherSlot first]).filter fun k => decide ((s.slot k).mark < 2)

/-- A module reset fell while a slot was on trial: the slot is marked superseded, the other's mark is cleared (R403). -/
def State.endTrialAtBoot (s : State) : State :=
  match s.mgt.trial with
  | none => s
  | some k =>
    ((s.setSlot k fun x => { x with mark := 1 }).setSlot (otherSlot k) fun x =>
      { x with mark := if x.mark = 1 then 0 else x.mark }).setMgt fun m => { m with trial := none }

/-- A slot passes its checks at boot: a written image by R401; the factory's as the boot ROM reports it. -/
def State.slotStatus (s : State) (k reported : Nat) : Nat :=
  match (s.slot k).bytes with
  | some b => s.imageCheck b
  | none => if k = reported then Status.ok else Status.imageInvalid

/-- The boot ROM tries slots in order: the slot that boots, and the slots refused with their statuses (R402, R403). -/
def State.bootTry (s : State) (reported : Nat) : List Nat → Option Nat × List (Nat × Nat) × State
  | [] => (none, [], s)
  | k :: ks =>
    let st := s.slotStatus k reported
    if st = Status.ok then
      let pending := (s.slot k).pending
      (some k, [], (s.setSlot k fun x => { x with pending := false }).setMgt fun m => { m with
        trial := if pending then some k else none, running := parseImage (s.slotBytes k) })
    else
      let s := if (s.slot k).pending then
          (s.setSlot k fun x => { x with mark := 1, pending := false }).setSlot (otherSlot k) fun x =>
            { x with mark := if x.mark = 1 then 0 else x.mark }
        else s
      let r := State.bootTry s reported ks
      (r.1, (k, st) :: r.2.1, r.2.2)

/-- The first entry to UNCARVED under a trial image ends the trial: floor, revocations, the other slot's mark (R403). -/
def State.trialEnd (s : State) : State :=
  match s.mgt.trial with
  | none => s
  | some k =>
    let r := s.mgt.running
    let s := s.setMgt fun m => { m with
      trial := none, floor := max m.floor r.version, revoked := m.revoked ||| r.revoke }
    let o := otherSlot k
    if getLE (s.slotBytes o) 14 2 < s.mgt.floor then s.setSlot o fun x => { x with mark := 2 } else s

/-! ## Attestation (R408, R409) -/

/-- Private key of the identity (R408). -/
def identityPrivate : List Byte := Config.shake256 (Config.identitySecret ++ asciiBytes "DELVI-ID") 57

/-- Private alias key of the running image (R408). -/
def State.aliasPrivate (s : State) : List Byte :=
  Config.shake256 (Config.identitySecret ++ s.mgt.running.digest ++ leBytes 2 s.mgt.running.version) 57

/-- The identity record (Table 17.5). -/
def identityRecord : List Byte :=
  leBytes 4 0x44494C44 ++ padTo 16 (asciiBytes "HD-DV2048-LC") ++ asciiBytes "C" ++ leBytes 1 Config.stepping ++ zeros 2 ++
  padTo 8 Config.identitySerial ++ leBytes 6 Config.macBase.toNat ++ zeros 2 ++
  padTo 57 (Config.ed448Public identityPrivate) ++ zeros 15 ++ padTo 114 Config.mfgSignature ++ zeros 30

/-- The endorsement (R408). -/
def State.endorsement (s : State) : List Byte :=
  Config.ed448Sign (asciiBytes "DELVI-ALIAS") identityPrivate
    (Config.ed448Public s.aliasPrivate ++ s.mgt.running.digest ++ leBytes 2 s.mgt.running.version)

/-- The carving arguments: packet, reduction and staging units, and stozil. -/
def State.carvingBytes (s : State) : List Byte :=
  match s.boot.carving with
  | none => zeros 4
  | some c => leBytes 1 c.packet ++ leBytes 1 c.reduction ++ leBytes 1 c.staging ++ leBytes 1 (b2n c.stozil)

/-- config_digest: the hash of the carving arguments, PORT_MODE and the plan record; zero before CARVED. -/
def State.configDigest (s : State) : List Byte :=
  if s.boot.carving.isNone then zeros 64
  else Config.shake256 (s.carvingBytes ++ leBytes 8 (s.reg .portMode) ++ ((s.topo.plan.map Plan.record).getD [])) 64

/-- The attestation report (Table 17.6), signed with the alias key. -/
def State.attestation (s : State) (nonce : List Byte) : List Byte :=
  let body :=
    leBytes 4 0x41564C44 ++ leBytes 2 1 ++ leBytes 2 784 ++ padTo 8 Config.identitySerial ++ padTo 32 nonce ++
    s.stamp.bytes ++ leBytes 1 s.boot.slot ++ leBytes 1 s.mgt.floor ++
    leBytes 1 s.mgt.running.major ++ leBytes 1 s.mgt.running.minor ++ leBytes 2 s.mgt.running.build ++
    leBytes 2 s.mgt.running.version ++ leBytes 1 s.boot.phase ++ leBytes 1 (b2n s.mgt.trial.isSome) ++
    leBytes 4 (s.boot.epoch % 2 ^ 32) ++ padTo 64 s.mgt.running.digest ++ padTo 64 s.configDigest ++
    leBytes 4 ((s.topo.plan.map Plan.planId).getD 0) ++ s.carvingBytes ++ leBytes 1 s.channelsRetired ++ zeros 1 ++
    leBytes 2 s.mgt.engines.length ++ zeros 4 ++ padTo 57 (Config.ed448Public s.aliasPrivate) ++ zeros 7 ++
    identityRecord ++ padTo 114 s.endorsement ++ zeros 6
  body ++ padTo 114 (Config.ed448Sign (asciiBytes "DELVI-ATTEST") s.aliasPrivate body) ++ zeros 14

end Sys2Proof.Machine
end

