-- ==== Sys2Proof/Machine/Arith.lean ====
section
/-! DEFINITION. Number formats and arithmetic (chapter 8): decoding and rounding (R170–R173, R180–R183), block encoding
(R174–R179), products of the arrays (R185–R188), compensated pairs (R189, R190), exceptions (R193–R196). -/

namespace Sys2Proof.Machine

/-- A number as the device computes with it: a finite value is `±m × 2^e`, with `ex` the exponent of its format
(R171, R185). -/
inductive Num where
  | nan
  | inf (neg : Bool)
  | fin (neg : Bool) (m : Nat) (e : Int) (ex : Int)
  deriving DecidableEq, Repr

/-- +0. -/
def Num.zero : Num := .fin false 0 0 0

/-- A finite value, with the exponent of its leading bit. -/
def Num.mk (neg : Bool) (m : Nat) (e : Int) : Num := .fin neg m e (e + m.log2)

/-- An element format of Table 8.1. -/
structure FmtDef where
  expBits : Nat
  frac : Nat
  bias : Nat
  emax : Int
  hasInf : Bool
  hasNan : Bool
  /-- The largest finite value as `maxM × 2^maxE`. -/
  maxM : Nat
  maxE : Int
  deriving DecidableEq, Repr

/-- The formats by code (R170); code 5, F32P, is a pair of F32 values. -/
def fmtDef : Nat → FmtDef
  | 0 => ⟨4, 3, 7, 8, false, true, 7, 6⟩
  | 1 => ⟨5, 2, 15, 15, true, true, 7, 13⟩
  | 2 => ⟨2, 1, 1, 2, false, false, 3, 1⟩
  | 3 => ⟨8, 7, 127, 127, true, true, 255, 120⟩
  | _ => ⟨8, 23, 127, 127, true, true, 16777215, 104⟩

/-- Elements of a block (R174). -/
def blockLen (fmt : Nat) : Nat := if fmt = 2 then 16 else 32
/-- The format is a block format. -/
def isBlock (fmt : Nat) : Bool := decide (fmt ≤ 2)
/-- Bits of an element. -/
def elemBits (fmt : Nat) : Nat := match fmt with | 0 => 8 | 1 => 8 | 2 => 4 | 3 => 16 | 4 => 32 | _ => 64

/-! ## Decoding -/

/-- The number that an element's bits spell (R171, Table 8.1). -/
def decodeElem (fmt w : Nat) : Num :=
  let d := fmtDef fmt
  let neg := bit w (d.expBits + d.frac)
  let e := bits w (d.expBits + d.frac - 1) d.frac
  let f := w % 2 ^ d.frac
  let top := 2 ^ d.expBits - 1
  if d.hasInf && e == top then (if f = 0 then .inf neg else .nan)
  else if d.hasNan && !d.hasInf && e == top && f == 2 ^ d.frac - 1 then .nan
  else if e = 0 then .fin neg f (1 - (d.bias : Int) - d.frac) (1 - (d.bias : Int))
  else .fin neg (f + 2 ^ d.frac) ((e : Int) - d.bias - d.frac) ((e : Int) - d.bias)

/-- The number of an F32 pattern. -/
def f32Num (w : F32) : Num := decodeElem 4 w.toNat

/-- A number times a power of two. -/
def Num.scale (x : Num) (k : Int) : Num :=
  match x with
  | .fin n m e ex => .fin n m (e + k) (ex + k)
  | x => x

/-- `m × 2^e` and `m' × 2^e'` compared: whether the first is larger. -/
def magGt (m : Nat) (e : Int) (m' : Nat) (e' : Int) : Bool :=
  let lo := min e e'
  decide (m' * 2 ^ (e' - lo).toNat < m * 2 ^ (e - lo).toNat)

/-- The magnitude exceeds the largest finite value of a format. -/
def beyond (fmt : Nat) (m : Nat) (e : Int) : Bool := magGt m e (fmtDef fmt).maxM (fmtDef fmt).maxE

/-- A block element decoded with its scale byte (R176, R177); the second answer is an overflow. -/
def decodeScaled (fmt w scale : Nat) : Num × Bool :=
  if scale = 0 then (Num.zero, false)
  else if scale = 255 then (.nan, false)
  else
    match (decodeElem fmt w).scale ((scale : Int) - 127) with
    | .fin n m e ex => if beyond 4 m e then (.inf n, true) else (.fin n m e ex, false)
    | x => (x, false)

/-! ## Rounding (R180–R183) -/

/-- `m × 2^e` in units of `2^q`, rounded by a mode with the draw `r`; mode 4 is away from zero (ROUND_TEST of R178). -/
def roundUnits (mode r m : Nat) (e q : Int) : Nat :=
  if q ≤ e then m * 2 ^ (e - q).toNat
  else
    let k := (q - e).toNat
    let n := m / 2 ^ k
    let rest := m % 2 ^ k
    if rest = 0 then n
    else
      match mode with
      | 0 => if 2 * rest > 2 ^ k ∨ (2 * rest = 2 ^ k ∧ n % 2 = 1) then n + 1 else n
      | 1 => n
      | 2 => if r < rest * 65536 / 2 ^ k then n + 1 else n
      | _ => n + 1

/-- The exponent of a format's last place for a magnitude. -/
def lastPlace (fmt m : Nat) (e : Int) : Int :=
  max (e + m.log2) (1 - ((fmtDef fmt).bias : Int)) - (fmtDef fmt).frac

/-- A finite magnitude rounded to a format with no limit above: `n × 2^q`. -/
def roundMag (fmt mode r m : Nat) (e : Int) : Nat × Int :=
  let q := lastPlace fmt m e
  (roundUnits mode r m e q, q)

/-- The bits of a magnitude `n × 2^q` that the format represents. -/
def packMag (fmt n : Nat) (q : Int) : Nat :=
  let d := fmtDef fmt
  if n = 0 then 0
  else
    let k := q + n.log2
    if k < 1 - (d.bias : Int) then n * 2 ^ (q - (1 - (d.bias : Int) - d.frac)).toNat
    else
      let m := if d.frac ≤ n.log2 then n / 2 ^ (n.log2 - d.frac) else n * 2 ^ (d.frac - n.log2)
      (k + d.bias).toNat * 2 ^ d.frac + (m - 2 ^ d.frac)

/-- The sign bit. -/
def signBit (fmt : Nat) (neg : Bool) : Nat := if neg then 2 ^ ((fmtDef fmt).expBits + (fmtDef fmt).frac) else 0

/-- The canonical NaN (R172). -/
def canonNan : Nat → Nat
  | 0 => 0x7F
  | 1 => 0x7E
  | 3 => 0x7FC0
  | _ => 0x7FC00000

/-- Infinity's magnitude bits. -/
def infMag (fmt : Nat) : Nat := (2 ^ (fmtDef fmt).expBits - 1) * 2 ^ (fmtDef fmt).frac

/-- A number converted to BF16 or F32 (Table 8.5): its bits, and whether it was out of range. A value beyond the largest finite
one is out of range before it is rounded (R182). -/
def convert (fmt mode r : Nat) (x : Num) : Nat × Bool :=
  match x with
  | .nan => (canonNan fmt, false)
  | .inf n => (signBit fmt n + infMag fmt, false)
  | .fin n m e _ =>
    if m = 0 then (signBit fmt n, false)
    else if beyond fmt m e then (signBit fmt n + (if mode = 1 then infMag fmt - 1 else infMag fmt), true)
    else
      let (u, q) := roundMag fmt mode r m e
      (signBit fmt n + packMag fmt u q, false)

/-- The result of an F32 operation: its exact value rounded to nearest even as IEEE 754 does (R180), and whether it
overflowed. -/
def toF32 (x : Num) : F32 × Bool :=
  match x with
  | .nan => (BitVec.ofNat 32 (canonNan 4), false)
  | .inf n => (BitVec.ofNat 32 (signBit 4 n + infMag 4), false)
  | .fin n m e _ =>
    if m = 0 then (BitVec.ofNat 32 (signBit 4 n), false)
    else
      let (u, q) := roundMag 4 0 0 m e
      if beyond 4 u q then (BitVec.ofNat 32 (signBit 4 n + infMag 4), true)
      else (BitVec.ofNat 32 (signBit 4 n + packMag 4 u q), false)

/-- A number of F32 as its pattern. -/
def numF32 (x : Num) : F32 := (toF32 x).1

/-! ## F32 operations (round to nearest even) -/

/-- The exact sum of two finite numbers. -/
def sumFin (n1 : Bool) (m1 : Nat) (e1 : Int) (n2 : Bool) (m2 : Nat) (e2 : Int) : Num :=
  let lo := min e1 e2
  let a : Int := m1 * 2 ^ (e1 - lo).toNat
  let b : Int := m2 * 2 ^ (e2 - lo).toNat
  let t := (if n1 then -a else a) + (if n2 then -b else b)
  if t = 0 then .fin (n1 && n2) 0 lo lo else Num.mk (decide (t < 0)) t.natAbs lo

/-- The sum of two numbers; whether infinities of opposite sign met. -/
def addNum (x y : Num) : Num × Bool :=
  match x, y with
  | .nan, _ => (.nan, false)
  | _, .nan => (.nan, false)
  | .inf a, .inf b => if a = b then (.inf a, false) else (.nan, true)
  | .inf a, _ => (.inf a, false)
  | _, .inf b => (.inf b, false)
  | .fin n1 m1 e1 _, .fin n2 m2 e2 _ => (sumFin n1 m1 e1 n2 m2 e2, false)

/-- Exception kinds as a bitmap: bit k − 1 for kind k of Table 8.8. -/
def kindBits (product sum overflow nan : Bool) : Nat := b2n product + 2 * b2n sum + 4 * b2n overflow + 8 * b2n nan

/-- An F32 addition: the sum and the kinds INVALID_SUM and ARITH_OVERFLOW. -/
def f32Add (x y : F32) : F32 × Nat :=
  let s := addNum (f32Num x) (f32Num y)
  let r := toF32 s.1
  (r.1, kindBits false s.2 r.2 false)

/-- An F32 subtraction. -/
def f32Sub (x y : F32) : F32 × Nat := f32Add x (y ^^^ 0x80000000)

/-- The exact product of two numbers; whether zero met infinity. -/
def mulNum (x y : Num) : Num × Bool :=
  match x, y with
  | .nan, _ => (.nan, false)
  | _, .nan => (.nan, false)
  | .inf a, .inf b => (.inf (a != b), false)
  | .inf a, .fin b m _ _ => if m = 0 then (.nan, true) else (.inf (a != b), false)
  | .fin a m _ _, .inf b => if m = 0 then (.nan, true) else (.inf (a != b), false)
  | .fin a m e ex, .fin b m' e' ex' => (.fin (a != b) (m * m') (e + e') (ex + ex'), false)

/-- An F32 multiplication. -/
def f32Mul (x y : F32) : F32 × Nat :=
  let p := mulNum (f32Num x) (f32Num y)
  let r := toF32 p.1
  (r.1, kindBits p.2 false r.2 false)

/-- A fused multiply-add, rounded once (R192). -/
def f32Fma (a b c : F32) : F32 × Nat :=
  let p := mulNum (f32Num a) (f32Num b)
  let s := addNum p.1 (f32Num c)
  let r := toF32 s.1
  (r.1, kindBits p.2 s.2 r.2 false)

/-- An F32 pattern is NaN or infinite. -/
def f32Special (w : F32) : Bool := bits w.toNat 30 23 == 255
/-- An F32 pattern is NaN. -/
def f32IsNan (w : F32) : Bool := f32Special w && w.toNat % 8388608 != 0
/-- The magnitude of an F32 pattern. -/
def f32Abs (w : F32) : F32 := w &&& 0x7FFFFFFF

/-! ## The other operations of a near-channel unit (R192) -/

/-- Patterns other than NaN in the order of their values, −0 before +0. -/
def f32Order (w : F32) : Int :=
  if bit w.toNat 31 then -((f32Abs w).toNat : Int) - 1 else (w.toNat : Int)

/-- The minimum and the maximum: NaN where an operand is NaN, −0 below +0 (DESIGN CHOICE, log entry 58). -/
def f32Min (x y : F32) : F32 :=
  if f32IsNan x || f32IsNan y then BitVec.ofNat 32 (canonNan 4) else if f32Order x ≤ f32Order y then x else y
def f32Max (x y : F32) : F32 :=
  if f32IsNan x || f32IsNan y then BitVec.ofNat 32 (canonNan 4) else if f32Order x ≤ f32Order y then y else x

/-- The largest `r` with `r * r ≤ n`, of at most `k` bits, from the bits above found so far. -/
def rootBits (n : Nat) : Nat → Nat → Nat
  | 0, r => r
  | k + 1, r => rootBits n k (if (r + 2 ^ k) * (r + 2 ^ k) ≤ n then r + 2 ^ k else r)

/-- The square root of `m × 2^e` with `m` not zero, or its reciprocal: to more places than F32 has, with a last bit that says
whether more follow. -/
def rootNum (m : Nat) (e : Int) (reciprocal : Bool) : Num :=
  let odd := e % 2
  let m := m * 2 ^ odd.toNat
  let e := e - odd
  if reciprocal then
    let r := rootBits (2 ^ 160 / m) 82 0
    Num.mk false (2 * r + b2n (r * r * m != 2 ^ 160)) (-80 - e / 2 - 1)
  else
    let r := rootBits (m * 2 ^ 80) 60 0
    Num.mk false (2 * r + b2n (r * r != m * 2 ^ 80)) (e / 2 - 41)

/-- The square root, correctly rounded; of a negative non-zero value it is NaN with INVALID_SUM. -/
def f32Sqrt (x : F32) : F32 × Nat :=
  match f32Num x with
  | .nan => (BitVec.ofNat 32 (canonNan 4), 0)
  | .inf n => if n then (BitVec.ofNat 32 (canonNan 4), 2) else (x, 0)
  | .fin n m e _ =>
    if m = 0 then (x, 0) else if n then (BitVec.ofNat 32 (canonNan 4), 2) else (numF32 (rootNum m e false), 0)

/-- The reciprocal square root; of a zero it is infinity of its sign (IEEE 754). -/
def f32Rsqrt (x : F32) : F32 × Nat :=
  match f32Num x with
  | .nan => (BitVec.ofNat 32 (canonNan 4), 0)
  | .inf n => if n then (BitVec.ofNat 32 (canonNan 4), 2) else (0, 0)
  | .fin n m e _ =>
    if m = 0 then (BitVec.ofNat 32 (signBit 4 n + infMag 4), 0)
    else if n then (BitVec.ofNat 32 (canonNan 4), 2) else (numF32 (rootNum m e true), 0)

/-! ## Compensated pairs (R189, R190) -/

/-- What the two procedures answer where a special value or an overflow is met (R190): `t` is the sum of the hi
values. -/
def pairSpecial (t : F32 × Nat) : F32P × Nat := ((t.1, 0), t.2)

/-- The last three steps of both procedures: `t + e` and its error; an overflow there ends as infinity. -/
def pairClose (t e : F32) (kinds : Nat) : F32P × Nat :=
  let s' := f32Add t e
  if f32Special s'.1 then ((s'.1, 0), kinds ||| 4)
  else ((s'.1, (f32Sub e (f32Sub s'.1 t).1).1), kinds)

/-- The exact error of `t = s + x`. -/
def sumError (s x t : F32) : F32 :=
  let z := (f32Sub t s).1
  (f32Add (f32Sub s (f32Sub t z).1).1 (f32Sub x z).1).1

/-- A pair holds NaN (R190). -/
def pairHasNan (p : F32P) : Bool := f32IsNan p.1 || f32IsNan p.2

/-- ADD_F32. -/
def addF32 (p : F32P) (x : F32) : F32P × Nat :=
  let t := f32Add p.1 x
  let kinds := t.2 ||| (if f32IsNan x && !pairHasNan p then 8 else 0)
  if f32Special t.1 || f32Special p.2 then pairSpecial (t.1, kinds)
  else pairClose t.1 (f32Add p.2 (sumError p.1 x t.1)).1 kinds

/-- ADD_F32P. -/
def addF32P (p q : F32P) : F32P × Nat :=
  let t := f32Add p.1 q.1
  let kinds := t.2 ||| (if pairHasNan q && !pairHasNan p then 8 else 0)
  if f32Special t.1 || f32Special p.2 || f32Special q.2 then pairSpecial (t.1, kinds)
  else
    let e := (f32Add (sumError p.1 q.1 t.1) (f32Add p.2 q.2).1).1
    pairClose t.1 e kinds

/-- The exact value of a pair (R173); where lo is a zero it is hi, sign and all. -/
def pairNum (p : F32P) : Num :=
  if f32Abs p.2 = 0 then f32Num p.1 else (addNum (f32Num p.1) (f32Num p.2)).1

/-- The value of a pair as a conversion takes it: one that lies beyond the largest finite F32 and rounds to it counts as that
(R183; DESIGN CHOICE, log entry 57). -/
def pairValue (p : F32P) : Num :=
  match pairNum p with
  | .fin n m e ex =>
    if beyond 4 m e && !(toF32 (.fin n m e ex)).2 then Num.mk n (fmtDef 4).maxM (fmtDef 4).maxE else .fin n m e ex
  | x => x

/-- A pair as F32 under round to nearest even. -/
def pairF32 (p : F32P) : F32 := numF32 (pairValue p)

/-! ## ENCODE_BLOCK (R178) -/

/-- The next stochastic draw, where the mode asks for one (R181). -/
def ArithCtx.next (c : ArithCtx) (mode : Nat) : Nat × ArithCtx :=
  if mode = 2 then ((Config.srDraw c.seed c.draws).toNat, { c with draws := c.draws + 1 }) else (0, c)

/-- Exceptions of one result element noted. -/
def ArithCtx.raise (c : ArithCtx) (kinds row col k : Nat) : ArithCtx :=
  if kinds = 0 then c else { c with raised := c.raised ++ [(kinds, row, col, k)] }

/-- `⌊log2⌋` of the largest finite magnitude, or none where all are zero. -/
def maxMag (vs : List Num) : Option (Nat × Int) :=
  vs.foldl (fun b v =>
    match v with
    | .fin _ m e _ =>
      if m = 0 then b
      else match b with
        | none => some (m, e)
        | some (m', e') => if magGt m e m' e' then some (m, e) else b
    | _ => b) none

/-- The scale exponent X. -/
def blockExp (fmt mode : Nat) (vs : List Num) : Int :=
  match maxMag vs with
  | none => 0
  | some (m, e) =>
    let d := fmtDef fmt
    let x := e + m.log2 - d.emax
    let t := roundMag fmt (if mode = 2 then 3 else mode) 0 m (e - x)
    let x := if beyond fmt t.1 t.2 then x + 1 else x
    max (-126) (min x (127 - d.emax))

/-- One element of a block: its bits, its kinds, and whether it was flushed. -/
def encodeElem (fmt mode r : Nat) (x : Int) (v : Num) : Nat × Nat × Bool :=
  match v with
  | .nan => (canonNan fmt, 8 * b2n (fmt == 2), false)
  | .inf n => if (fmtDef fmt).hasInf then (signBit fmt n + infMag fmt, 0, false) else (canonNan fmt, 4, false)
  | .fin n m e _ =>
    if m = 0 then (signBit fmt n, 0, false)
    else
      let t := roundMag fmt mode r m (e - x)
      if beyond fmt t.1 t.2 then
        (signBit fmt n + packMag fmt (fmtDef fmt).maxM (fmtDef fmt).maxE, 4, false)
      else (signBit fmt n + packMag fmt t.1 t.2, 0, t.1 == 0)

/-- The elements of a block in order, with the draws they take; `at_` gives each element's place. -/
def encodeElems (fmt mode : Nat) (x : Int) (at_ : Nat → Nat × Nat) : Nat → ArithCtx → List Num → List Nat × ArithCtx
  | _, c, [] => ([], c)
  | i, c, v :: vs =>
    let (r, c) := c.next mode
    let q := encodeElem fmt mode r x v
    let c := c.raise q.2.1 (at_ i).1 (at_ i).2 0xFFFFFFFF
    let c := if q.2.2 then { c with flushed := c.flushed + 1 } else c
    let rest := encodeElems fmt mode x at_ (i + 1) c vs
    (q.1 :: rest.1, rest.2)

/-- The element bits are a zero of either sign. -/
def isZeroBits (fmt w : Nat) : Bool := w == 0 || w == signBit fmt true

/-- ENCODE_BLOCK: the element codes and the scale byte. -/
def encodeBlock (fmt mode : Nat) (at_ : Nat → Nat × Nat) (base : Nat) (c : ArithCtx) (vs : List Num) :
    List Nat × Nat × ArithCtx :=
  let zero := vs.map fun _ => 0
  let nans := vs.any fun v => v == .nan
  let infs := vs.any fun v => match v with | .inf _ => true | _ => false
  if fmt = 2 ∧ (nans ∨ infs) then
    let c := (vs.zipIdx base).foldl (fun c vi =>
      c.raise (match vi.1 with | .nan => 8 | .inf _ => 4 | _ => 0) (at_ vi.2).1 (at_ vi.2).2 0xFFFFFFFF) c
    (zero, 255, c)
  else if (maxMag vs).isNone && !nans && !infs then (zero, 0, c)
  else
    let x := blockExp fmt mode vs
    let (q, c) := encodeElems fmt mode x at_ base c vs
    if q.all (isZeroBits fmt) then (zero, 0, c) else (q, (x + 127).toNat, c)

/-- Bytes of element codes: one byte each, or two F4 codes per byte (R175). -/
def packElems (fmt : Nat) : List Nat → List Byte
  | [] => []
  | a :: as =>
    if fmt = 2 then
      match as with
      | [] => [BitVec.ofNat 8 a]
      | b :: bs => BitVec.ofNat 8 (a + 16 * b) :: packElems fmt bs
    else leBytes (elemBits fmt / 8) a ++ packElems fmt as

/-- Element codes from bytes. -/
def unpackElems (fmt : Nat) (bs : List Byte) : List Nat :=
  if fmt = 2 then bs.flatMap fun b => [b.toNat % 16, b.toNat / 16]
  else (List.range (bs.length / (elemBits fmt / 8))).map fun i => getLE bs (i * (elemBits fmt / 8)) (elemBits fmt / 8)

/-- A list cut into pieces of `n`. -/
def chunksOf {α : Type} (n : Nat) (l : List α) : List (List α) :=
  (List.range (ceilDiv l.length n)).map fun i => (l.drop (i * n)).take n

/-- Values encoded in a format: element bytes and scale bytes (R175). -/
def encodeVals (fmt mode : Nat) (at_ : Nat → Nat × Nat) (c : ArithCtx) (vs : List Num) :
    List Byte × List Byte × ArithCtx :=
  if isBlock fmt then
    (chunksOf (blockLen fmt) vs).zipIdx.foldl (fun acc b =>
      let r := encodeBlock fmt mode at_ (b.2 * blockLen fmt) acc.2.2 b.1
      (acc.1 ++ packElems fmt r.1, acc.2.1 ++ [BitVec.ofNat 8 r.2.1], r.2.2)) ([], [], c)
  else
    vs.zipIdx.foldl (fun acc v =>
      let (r, c) := acc.2.2.next mode
      let q := convert fmt mode r v.1
      (acc.1 ++ leBytes (elemBits fmt / 8) q.1, acc.2.1,
        c.raise (4 * b2n q.2) (at_ v.2).1 (at_ v.2).2 0xFFFFFFFF)) ([], [], c)

/-- Values decoded from element bytes and scale bytes; each with whether it overflowed (R177). F32P takes pairs. -/
def decodeVals (fmt : Nat) (elems scales : List Byte) : List (Num × Bool) :=
  if isBlock fmt then
    (unpackElems fmt elems).zipIdx.map fun wi =>
      decodeScaled fmt wi.1 ((scales.getD (wi.2 / blockLen fmt) 0).toNat)
  else if fmt = 5 then
    (List.range (elems.length / 8)).map fun i =>
      (pairValue (BitVec.ofNat 32 (getLE elems (8 * i) 4), BitVec.ofNat 32 (getLE elems (8 * i + 4) 4)), false)
  else (unpackElems fmt elems).map fun w => (decodeElem fmt w, false)

/-! ## Products in the matrix arrays (R185–R188) -/

/-- A product in a group: special, or finite with its exponent E_k. -/
def products (as bs : List Num) : List (Num × Bool × Bool) :=
  List.zipWith (fun a b => let p := mulNum a b; (p.1, p.2, a == .nan || b == .nan)) as bs

/-- The group exponent E: the largest E_k over the non-zero products. -/
def groupExp (ps : List Num) : Option Int :=
  ps.foldl (fun b p =>
    match p with
    | .fin _ m _ ex => if m = 0 then b else some (match b with | none => ex | some x => max x ex)
    | _ => b) none

/-- A finite product in units of `2^(E − 25)`, truncated toward −∞. -/
def windowInt (E : Int) (p : Num) : Int :=
  match p with
  | .fin n m e _ =>
    let v : Int := if n then -(m : Int) else m
    let k := e - (E - 25)
    if 0 ≤ k then v * 2 ^ k.toNat else v / 2 ^ (-k).toNat
  | _ => 0

/-- The sum of a group and its exception kinds (R185, R187). -/
def groupSum (as bs : List Num) : Num × Nat :=
  let ps := products as bs
  let nums := ps.map Prod.fst
  let badP := ps.any fun p => p.2.1
  let nanIn := ps.any fun p => p.2.2
  let pos := nums.any fun p => p == .inf false
  let neg := nums.any fun p => p == .inf true
  if badP || nanIn then (.nan, kindBits badP false false nanIn)
  else if pos && neg then (.nan, kindBits false true false false)
  else if pos then (.inf false, 0)
  else if neg then (.inf true, 0)
  else
    match groupExp nums with
    | none => (Num.zero, 0)
    | some E =>
      let t := (nums.map (windowInt E)).sum
      (if t = 0 then Num.zero else Num.mk (decide (t < 0)) t.natAbs (E - 25), 0)

/-- One group added into an F32 accumulator with one rounding (R185 step 6). -/
def accGroup (acc : F32) (as bs : List Num) : F32 × Nat :=
  let g := groupSum as bs
  let s := addNum (f32Num acc) g.1
  let r := toF32 s.1
  (r.1, g.2 ||| kindBits false s.2 r.2 false)

/-- The dot product of two rows in groups of 16: the accumulator, and (kinds, group) of each group that raised. -/
def dotF32 : Nat → F32 → List (List Num) → List (List Num) → F32 × List (Nat × Nat)
  | _, acc, [], _ => (acc, [])
  | _, acc, _, [] => (acc, [])
  | g, acc, a :: as, b :: bs =>
    let r := accGroup acc a b
    let rest := dotF32 (g + 1) r.1 as bs
    (rest.1, if r.2 = 0 then rest.2 else (r.2, g) :: rest.2)

/-- A pass of the F32P × F32 pair: group sums, as F32 values, added by ADD_F32 (R188; DEDUCED, log entry 16). -/
def dotPass : Nat → F32P → List (List Num) → List (List Num) → F32P × List (Nat × Nat)
  | _, acc, [], _ => (acc, [])
  | _, acc, _, [] => (acc, [])
  | g, acc, a :: as, b :: bs =>
    let s := groupSum a b
    let x := toF32 s.1
    let r := addF32 acc x.1
    let kinds := s.2 ||| (r.2 &&& 7) ||| kindBits false false x.2 false
    let rest := dotPass (g + 1) r.1 as bs
    (rest.1, if kinds = 0 then rest.2 else (kinds, g) :: rest.2)

/-! ## Exception records (R193–R196) -/

/-- Status of a kind (Table 8.8). -/
def kindStatus (k : Nat) : Nat := 0x02FF + k

/-- The level of a kind (R196). -/
def State.arithLevel (s : State) (k : Nat) : Nat := s.cfg .engArithSeverity 0 (2 * (k - 1)) 2

/-- The kinds of a bitmap, by precedence. -/
def kindsOf (w : Nat) : List Nat := [1, 2, 3, 4].filter fun k => bit w (k - 1)

/-- One offending result element entered in a record (R194, R195), with its kinds and those raised at a severity of 1 or more. -/
def ExcRec.enter (x : ExcRec) (kinds graded master row col kblock : Nat) (t : Stamp) : ExcRec :=
  match (kindsOf kinds).head? with
  | none => x
  | some k =>
    let x := { x with seen := x.seen ||| kinds, graded := x.graded ||| graded, count := min (x.count + 1) (2 ^ 32 - 1) }
    if x.kind = 0 ∨ k < x.kind then { x with kind := k, master := master, row := row, col := col, kblock := kblock,
                                             stamp := t }
    else x

/-- The 32 bytes of a record (Table 8.9). -/
def ExcRec.bytes (x : ExcRec) : List Byte :=
  leBytes 1 x.kind ++ leBytes 1 x.seen ++ leBytes 2 x.master ++ leBytes 4 x.row ++ leBytes 4 x.col ++
  leBytes 4 x.kblock ++ x.stamp.bytes ++ zeros 2 ++ leBytes 4 x.count

/-- The completion status that a record calls for (R193): the highest kind raised at a severity of 1 or more. -/
def ExcRec.status (x : ExcRec) : Nat :=
  match (kindsOf x.graded).head? with
  | some k => kindStatus k
  | none => Status.ok

/-- The kinds of a bitmap whose level is 1 or more. -/
def State.gradedKinds (s : State) (kinds : Nat) : Nat :=
  ((kindsOf kinds).filter fun k => decide (1 ≤ s.arithLevel k)).foldl (fun w k => w + 2 ^ (k - 1)) 0

/-- Levels 2 and 3, once per operation and kind (Table 8.10): an event, whose code Table 17.2a does not give (log entry 17),
and at level 3 a fault of the arithmetic class. -/
def State.excReport (s : State) (seen kinds master : Nat) : State :=
  (kindsOf kinds).foldl (fun s k =>
    if bit seen (k - 1) || decide (s.arithLevel k < 2) then s
    else
      let e := Config.arithEvent k
      let s := s.event e.1 0x09 e.2.1 e.2.2 (kindStatus k) master
      if s.arithLevel k = 3 then s.report { cls := 15, master := master, access := 7, detail := k } else s) s

/-- An element's exceptions: (kinds, row, column, group). -/
abbrev Raised : Type := Nat × Nat × Nat × Nat

/-- An element's kinds joined with those of another of its groups: the group is that of the first exception of the most
serious kind (R194, R195). -/
def Raised.join (a b : Raised) : Raised :=
  let w := a.1 ||| b.1
  let k := (kindsOf w).headD 1
  let ga := bit a.1 (k - 1)
  let gb := bit b.1 (k - 1)
  (w, a.2.1, a.2.2.1,
    if ga && gb then min a.2.2.2 b.2.2.2 else if ga then a.2.2.2 else b.2.2.2)

/-- The order of exceptions of one stamp: lower row, then column, then group (R195). -/
def Raised.before (a b : Raised) : Bool :=
  decide (a.2.1 < b.2.1) || (a.2.1 == b.2.1 && (decide (a.2.2.1 < b.2.2.1) || (a.2.2.1 == b.2.2.1 && decide (a.2.2.2 ≤ b.2.2.2))))

/-- One entry of each offending element, in order. -/
def perElement (l : List Raised) : List Raised :=
  (l.mergeSort Raised.before).foldl (fun acc r =>
    match acc.getLast? with
    | some q => if q.2.1 = r.2.1 ∧ q.2.2.1 = r.2.2.1 then acc.dropLast ++ [Raised.join q r] else acc ++ [r]
    | none => [r]) []

/-- The exceptions of a computation entered in its operation's record, one for each offending element, and counted (R194,
R195, R197). -/
def State.raiseAll (s : State) (x : ExcRec) (master : Nat) (raised : List Raised) : ExcRec × State :=
  if raised.isEmpty then (x, s)
  else
    let t := s.stamp
    (perElement raised).foldl (fun acc r =>
      let x := acc.1
      let s := acc.2.excReport x.seen r.1 master
      let s := (kindsOf r.1).foldl (fun s k => s.bump .engExcCount (k - 1)) s
      (x.enter r.1 (s.gradedKinds r.1) master r.2.1 r.2.2.1 r.2.2.2 t, s)) (x, s.stamped)

/-- Flushes counted (R179). -/
def State.countFlush (s : State) (n : Nat) : State := if n = 0 then s else s.bump .engFlushCount 0 n

/-- The generator of a converting unit, by its master ID, at the start of a computation (R181). -/
def State.arithCtx (s : State) (unit : Nat) : ArithCtx :=
  { seed := s.eng.seed.getD (Config.srReseed s.eng.reseeds unit), draws := s.eng.draws.getD unit 0 }

/-- The draws of a unit's computation taken. -/
def State.tookDraws (s : State) (unit : Nat) (c : ArithCtx) : State :=
  { s with eng := { s.eng with draws := if c.draws = s.eng.draws.getD unit 0 then s.eng.draws else s.eng.draws.set unit c.draws } }

end Sys2Proof.Machine
end

