-- ==== Sys2Proof/Machine/Engines.lean ====
section
/-! DEFINITION. Engines, tick programs, work stealing and kernels (chapter 9), and the benches of reduction memory
(R22–R25). -/

namespace Sys2Proof.Machine

/-- Engines, queues and programs changed. -/
def State.setEng (s : State) (f : EngsSt → EngsSt) : State := { s with eng := f s.eng }

/-! ## The regions of a block (R215, R250, R251) -/

/-- Unit size of a stream's format (R215): codes 0–5, 6 F8 scales, 7 F4 scales. -/
def unitSize : Nat → Nat
  | 5 => 4096
  | 4 => 2048
  | 3 => 1024
  | 2 => 256
  | 6 => 16
  | 7 => 32
  | _ => 512

/-- The device address of unit `j` of a stream in the channel-striped layout (R215). -/
def unitAddr (base b j : Nat) : Nat :=
  let k := 4096 / b
  base + 4096 * (j % 128 + 128 * (j / (128 * k))) + b * (j / 128 % k)

/-- Tiles of a matrix block. -/
def BlockSt.tiles (b : BlockSt) : Nat := b.rows * b.cols / 1024

/-- Bytes of a copy's elements and of its scales. -/
def pubBytes (fmt ep : Nat) : Nat := match fmt with | 2 => ep / 2 | 3 => 2 * ep | _ => ep

def pubScaleBytes (fmt ep : Nat) : Nat := match fmt with | 2 => ep / 16 | 3 => 0 | _ => ep / 32

/-- Bytes of the spoil mask. -/
def BlockSt.maskBytes (b : BlockSt) : Nat := if b.kind = 2 then ceilDiv b.ep 256 else ceilDiv b.rows 8

/-- The regions present, as (order of Table 11.2, bytes before rounding). -/
def BlockSt.regions (b : BlockSt) : List (Nat × Nat) :=
  let acc := [((3 : Nat), 8 * b.ep)]
  if b.kind = 3 then acc
  else
    [((1 : Nat), 4 * b.ep)] ++ (if b.comp then [((2 : Nat), 4 * b.ep)] else []) ++ acc ++
    b.stateFmts.zipIdx.map (fun f => (4 + f.2, b.ep * elemBits f.1 / 8)) ++
    (List.range b.workSlots).map (fun w => (8 + w, 4 * b.ep)) ++ [((10 : Nat), b.maskBytes)] ++
    (List.range b.window).flatMap fun k =>
      let copy := fun (o : Nat) => [(o, pubBytes b.pubFmt b.ep)] ++
        (if isBlock b.pubFmt then [(o + 1, pubScaleBytes b.pubFmt b.ep)] else [])
      copy (11 + 4 * k) ++ (if b.kind = 1 && !b.noTrans then copy (13 + 4 * k) else [])

/-- Offset and bytes of a region in a list of regions. -/
def regionIn (order : Nat) : Nat → List (Nat × Nat) → Option (Nat × Nat)
  | _, [] => none
  | off, (o, n) :: rs => if o = order then some (off, n) else regionIn order (off + roundUp n grain) rs

/-- Device address of a region. -/
def BlockSt.regionAddr (b : BlockSt) (order : Nat) : Nat := b.base + ((regionIn order 0 b.regions).map Prod.fst).getD 0

/-- The block's capacity (R251). -/
def BlockSt.capacity (b : BlockSt) : Nat := (b.regions.map fun r => roundUp r.2 grain).sum

/-- Address of unit `u` of a region with a unit format. -/
def BlockSt.unitAt (b : BlockSt) (order fmt u : Nat) : Nat := unitAddr (b.regionAddr order) (unitSize fmt) u

/-- The unit that holds the first half of tile `t`. -/
def tileUnit (t : Nat) : Nat := 256 * (t / 128) + t % 128

/-- The interleave position of unit `u` of a stream, and the tile above the base tile that holds tile `t` of a block's regions
(R215, R250). -/
def unitPosition (u : Nat) : Nat := u % 128
def State.granuleTile (s : State) (b : BlockSt) (t : Nat) : Nat := channelTile (s.channelAt b.base (t % 128))

/-! ## Benches (R22–R25) -/

/-- Stozil mode is enabled (R413). -/
def State.stozilOn (s : State) : Bool := (s.boot.carving.map Carving.stozil).getD false

/-- Benches of a base tile that may be claimed. -/
def State.benchSlots (s : State) : Nat :=
  16 * (s.boot.carving.map Carving.reduction).getD 0 - (if s.stozilOn then 4 else 0)

/-- The device address of a bench (Table 1.5). -/
def State.benchAddr (s : State) (b : Nat × Nat) : Nat :=
  sramBase b.1 + ((s.boot.carving.map Carving.packet).getD 0) * 16 * mib + b.2 * mib

/-- The first free bench of a tile: of the slots that are free, the lowest (DESIGN CHOICE, log entry 55: R25 names only the
tile). -/
def State.freeBench (s : State) (tile : Nat) : Option (Nat × Nat) :=
  ((List.range s.benchSlots).find? fun i => (s.eng.benches.get? (tile * 128 + i)).isNone).map fun i => (tile, i)

/-- Free benches of the device. -/
def State.freeBenches (s : State) : Nat := 8 * s.benchSlots - s.eng.benches.length

/-- Benches in use by a kind of user. -/
def State.benchesOf (s : State) (kind : Nat) : Nat := (s.eng.benches.vals.filter (· == kind)).length

/-- One bench, looked for from a tile on (R25); its contents start at +0. -/
def State.takeBench (s : State) (tile kind : Nat) : Option ((Nat × Nat) × State) :=
  match (rotated 8 (tile % 8)).findSome? s.freeBench with
  | none => none
  | some b =>
    some (b, (s.setEng fun e => { e with benches := e.benches.set (b.1 * 128 + b.2) kind }).clearMem (s.benchAddr b) mib)

/-- `n` benches, bench i looked for first on tile `tile + stride × i` (R207; R229 looks from one tile, stride 0); all or
none. -/
def State.takeBenches (s : State) (tile stride kind : Nat) : Nat → Option (List (Nat × Nat) × State)
  | 0 => some ([], s)
  | n + 1 =>
    match State.takeBenches s tile stride kind n with
    | none => none
    | some (bs, s') =>
      match s'.takeBench (tile + stride * n) kind with
      | none => none
      | some (b, s'') => some (bs ++ [b], s'')

/-- A bench is freed. -/
def State.dropBench (s : State) (b : Nat × Nat) : State :=
  s.setEng fun e => { e with benches := e.benches.erase (b.1 * 128 + b.2) }

/-- The pair at an index of a bench. -/
def State.benchPair (s : State) (b : Nat × Nat) (i : Nat) : F32P :=
  let m := s.readMem (s.benchAddr b + 8 * i) 8
  (BitVec.ofNat 32 (getLE m 0 4), BitVec.ofNat 32 (getLE m 4 4))

/-- The bytes of a pair (R173). -/
def pairBytes (p : F32P) : List Byte := leBytes 4 p.1.toNat ++ leBytes 4 p.2.toNat

/-- A pair stored in a bench. -/
def State.setBenchPair (s : State) (b : Nat × Nat) (i : Nat) (p : F32P) : State :=
  s.writeMem (s.benchAddr b + 8 * i) (pairBytes p)

/-! ## Engines (R211) -/

/-- Index of an engine's state from tile × 256 + index. -/
def engineKey (e : Nat) : Nat := e / 256 * 136 + e % 256

/-- An engine: where nothing else is known, the lowest 128 of a tile are IN_SERVICE (Table 9.7's reset counts). -/
def State.engine (s : State) (k : Nat) : EngSt :=
  s.eng.engines.getD k { state := if k % 136 < 128 then 1 else 0 }

/-- An engine changed. -/
def State.setEngine (s : State) (k : Nat) (f : EngSt → EngSt) : State :=
  s.setEng fun e => { e with engines := e.engines.set k (f (s.engine k)) }

/-- The engines of a tile. -/
def tileEngines (t : Nat) : List Nat := rangeFrom (t * 136) 136

/-- Engines of a tile in a state. -/
def State.enginesIn (s : State) (t st : Nat) : List Nat := (tileEngines t).filter fun k => (s.engine k).state == st

/-- tile × 256 + index of an engine. -/
def engineName (k : Nat) : Nat := k / 136 * 256 + k % 136

/-- An engine is retired, with a cause of Table 17.2a; recorded in the persistent log. -/
def State.engineRetired (s : State) (k cause : Nat) : State :=
  let n := engineName k
  let s := s.setEngine k fun e => { e with state := 4, fault := cause != 0, forTest := false }
  let s := { s with mgt := { s.mgt with
    engines := if s.mgt.engines.contains n then s.mgt.engines else n :: s.mgt.engines,
    engineFaults := if cause = 0 then s.mgt.engineFaults.filter (· != n)
      else if s.mgt.engineFaults.contains n then s.mgt.engineFaults else n :: s.mgt.engineFaults } }
  s.event 2 0x09 0x0010 (leBytes 2 n ++ leBytes 1 cause)

/-- A RETIRING engine with no job left is RETIRED; one on its way to a test waits for the boundary at which the test starts
(Table 9.5, R212). -/
def State.engineIdle (s : State) (k : Nat) : State :=
  let e := s.engine k
  if e.state = 3 && !e.forTest && e.running.isNone && e.assigned.isNone then s.engineRetired k 0 else s

/-- ENG.RETIRE. -/
def State.retireEngine (s : State) (k : Nat) : State :=
  match (s.engine k).state with
  | 1 => (s.setEngine k fun e => { e with state := 3, forTest := false }).engineIdle k
  | 3 => s.setEngine k fun e => { e with forTest := false }
  | 4 => s
  | _ => s.engineRetired k 0

/-- ENG.RESTORE: a retired engine is tested again. -/
def State.restoreEngine (s : State) (k : Nat) : State :=
  if (s.engine k).state = 4 then
    let s := { s with mgt := { s.mgt with
      engines := s.mgt.engines.filter (· != engineName k), engineFaults := s.mgt.engineFaults.filter (· != engineName k) } }
    s.setEngine k fun e => { e with state := 2, fault := false }
  else s

/-- Spares enter service while a tile has fewer than 128 IN_SERVICE, lowest index first. -/
def State.fillTile (s : State) (t : Nat) : State :=
  let n := 128 - (s.enginesIn t 1).length
  ((s.enginesIn t 0).take n).foldl (fun s k => s.setEngine k fun e => { e with state := 1 }) s

/-- An engine goes to test: a spare at once, one in service once its jobs complete, with a spare in its place (R212). -/
def State.engineToTest (s : State) (k : Nat) : State :=
  match (s.engine k).state with
  | 0 => s.setEngine k fun e => { e with state := 2 }
  | 1 =>
    let s := match (s.enginesIn (k / 136) 0).head? with
      | some j => s.setEngine j fun e => { e with state := 1 }
      | none => s
    s.setEngine k fun e => { e with state := 3, forTest := true }
  | _ => s

/-- An engine of the tile is under test or on its way there. -/
def State.testing (s : State) (t : Nat) : Bool :=
  (tileEngines t).any fun k => (s.engine k).state == 2 || ((s.engine k).state == 3 && (s.engine k).forTest)

/-- The next engine of a tile in the turn of the background test (R212). -/
def State.testTurn (s : State) (t : Nat) : State :=
  if s.testing t then s
  else
    match (rotated 136 (s.eng.testTurn.getD t 0)).find? fun i => (s.engine (t * 136 + i)).state ≤ 1 with
    | none => s
    | some i =>
      (s.setEng fun e => { e with testTurn := e.testTurn.set t ((i + 1) % 136) }).engineToTest (t * 136 + i)

/-- The tests that start at a boundary: that of an engine on its way to it whose jobs are complete, and in a tile with none
that of the next engine ENG.TEST has named (R212). -/
def State.testTick (s : State) : State :=
  let s := s.eng.engines.keys.foldl (fun (s : State) k =>
    let e := s.engine k
    if e.state = 3 && e.forTest && e.running.isNone && e.assigned.isNone then
      s.setEngine k fun e => { e with state := 2, forTest := false }
    else s) s
  (List.range 8).foldl (fun (s : State) t =>
    if s.testing t then s
    else
      match s.eng.testAsked.find? fun k => k / 136 == t with
      | none => s
      | some k => (s.setEng fun e => { e with testAsked := e.testAsked.erase k }).engineToTest k) s

/-- An engine has failed the test of R212: it is retired, counted and reported. -/
def State.engineTestFailed (s : State) (k : Nat) : State :=
  if (s.engine k).state = 4 then s
  else
    ((s.bump .engTestFail (k / 136)).engineRetired k 2).report
      { cls := 0, master := masterId 0 (k / 136) (k % 136), access := 9 }

/-- A test ends (Table 9.5). -/
def State.testEnd (s : State) (k : Nat) (pass : Bool) : State :=
  if (s.engine k).state != 2 then s
  else if pass then s.setEngine k fun e => { e with state := 0 }
  else s.engineTestFailed k

/-! ## Tick programs (R202–R205) -/

/-- A buffer entry. -/
def parseBuf (b : List Byte) : BufEntry :=
  { address := getLE b 0 8, size := getLE b 8 8, pitch := getLE b 16 4, kind := getLE b 20 1, format := getLE b 21 1,
    scaleOf := getLE b 22 1, reserved := getLE b 23 9 }

/-- A step entry. -/
def parseStep (b : List Byte) : StepEntry :=
  { firstJob := getLE b 0 4, jobCount := getLE b 4 4, flags := getLE b 8 1, ioBuffer := getLE b 9 1,
    reserved := getLE b 10 6 }

/-- A job descriptor (Table 9.3). -/
def parseJob (b : List Byte) : JobDesc :=
  { kind := getLE b 0 1, fmtA := getLE b 1 1 % 16, fmtB := getLE b 1 1 / 16, fmtOut := getLE b 2 1 % 16,
    rmode := bits (getLE b 2 1) 5 4, flags := getLE b 3 1, mTiles := getLE b 4 1, nTiles := getLE b 5 1,
    kGroups := getLE b 6 2, alpha := BitVec.ofNat 32 (getLE b 8 4), beta := BitVec.ofNat 32 (getLE b 12 4),
    aRef := getLE b 16 8, aScale := getLE b 24 8, bRef := getLE b 32 8, bScale := getLE b 40 8, cIn := getLE b 48 8,
    cOut := getLE b 56 8, row0 := getLE b 64 4, col0 := getLE b 68 4, kblock0 := getLE b 72 4, cycles := getLE b 76 2,
    step := getLE b 78 2, seq := getLE b 80 4, tile := getLE b 84 1,
    reserved := getLE b 2 1 / 64 + 4 * getLE b 85 11 }

/-- The program that an image spells. -/
def parseProg (b : List Byte) : ProgSt :=
  let steps := getLE b 8 2
  { job := getLE b 4 2 % 4096, programId := getLE b 0 4, homeTile := getLE b 6 1, flags := getLE b 7 1,
    engclk := getLE b 10 2, benchCount := getLE b 16 1, fallback := getLE b 20 4, outNode := getLE b 24 2,
    outEp := getLE b 26 2,
    buffers := (List.range 16).map fun i => parseBuf ((b.drop (64 + 32 * i)).take 32)
    steps := (List.range steps).map fun i => parseStep ((b.drop (576 + 16 * i)).take 16)
    jobs := (List.range (getLE b 12 4)).map fun i => parseJob ((b.drop (576 + 16 * steps + 96 * i)).take 96) }

/-- A reference's buffer and offset (R204). -/
def refBuf (r : Nat) : Nat := r / 2 ^ 60 % 16
def refOff (r : Nat) : Nat := r % 2 ^ 60

/-- Rows and columns of the operands of a job, as stored: (rows, columns). -/
def JobDesc.shapeA (j : JobDesc) : Nat × Nat :=
  if j.kind = 2 then (16 * j.mTiles, 16 * j.nTiles)
  else if bit j.flags 0 then (16 * j.kGroups, 16 * j.mTiles) else (16 * j.mTiles, 16 * j.kGroups)
def JobDesc.shapeB (j : JobDesc) : Nat × Nat :=
  if bit j.flags 1 then (16 * j.nTiles, 16 * j.kGroups) else (16 * j.kGroups, 16 * j.nTiles)
def JobDesc.shapeC (j : JobDesc) : Nat × Nat := (16 * j.mTiles, 16 * j.nTiles)

/-- Bytes of `n` elements of a format. -/
def elemBytes (fmt n : Nat) : Nat := ceilDiv (n * elemBits fmt) 8

/-- Cycles per group (Table 9.1), for the pairs of Table 8.6. -/
def groupCycles (a b : Nat) : Option Nat :=
  if a = 2 ∧ b = 2 then some 8
  else if a ≤ 1 ∧ b ≤ 1 then some 16
  else if a = 2 ∧ b ≤ 1 then some 16
  else if a = 3 ∧ b = 3 then some 32
  else if a = 4 ∧ b = 4 then some 256
  else if a = 5 ∧ b = 4 then some 512
  else none

/-- The cost of R199. -/
def JobDesc.cost (j : JobDesc) : Nat :=
  if j.kind = 2 then 32 + j.mTiles * j.nTiles * 16
  else 32 + j.mTiles * j.nTiles * (8 + j.kGroups * (groupCycles j.fmtA j.fmtB).getD 0)

/-- The budget of R205 in cycles. -/
def State.jobBudget (s : State) (mhz : Nat) : Nat := s.tickPs * mhz / 1000000 - 128

/-- An operand of a job: the reference, the format it is read in, its stored rows and columns. -/
structure Operand where
  ref : Nat
  fmt : Nat
  rows : Nat
  cols : Nat
  deriving DecidableEq, Repr

/-- The format of a buffer named by a reference. -/
def ProgSt.fmtOf (p : ProgSt) (r : Nat) : Nat := (p.buffers.getD (refBuf r) {}).format

/-- The scales of a block operand, as bytes: one for each block that a row begins (R175). -/
def scaleOperand (r fmt rows cols : Nat) : List Operand :=
  if isBlock fmt then [⟨r, 6, rows, ceilDiv cols (blockLen fmt)⟩] else []

/-- The format in which a buffer holds an operand: a bench set holds F32P whatever the operand is read as (R203, R204). -/
def ProgSt.storedFmt (p : ProgSt) (r fmt : Nat) : Nat := if (p.buffers.getD (refBuf r) {}).kind = 3 then 5 else fmt

/-- The scale buffer of an element buffer (Table 9.2). -/
def ProgSt.scaleBuffer (p : ProgSt) (bi : Nat) : Option Nat :=
  (List.range 16).find? fun i => (p.buffers.getD i {}).scaleOf == bi && (p.buffers.getD i {}).kind != 0

/-- The place of the scales of a tile of C, which has no scale reference of its own: in the scale buffer of its element buffer,
at the tile's row and block (DEDUCED, log entry 19). -/
def ProgSt.scaleRef (p : ProgSt) (r fmt : Nat) : Option Nat :=
  (p.scaleBuffer (refBuf r)).map fun si =>
    let pitch := max (p.buffers.getD (refBuf r) {}).pitch 1
    si * 2 ^ 60 + refOff r / pitch * (p.buffers.getD si {}).pitch + refOff r % pitch * 8 / elemBits fmt / blockLen fmt

/-- The scales of C_in or C_out. -/
def ProgSt.scalesOfC (p : ProgSt) (r fmt rows cols : Nat) : List Operand :=
  match p.scaleRef r fmt with
  | some x => scaleOperand x fmt rows cols
  | none => []

/-- A, B and their scales, and C_in, of which the scratch holds at most 128 KiB (reason 8). -/
def ProgSt.inputs (p : ProgSt) (j : JobDesc) : List Operand :=
  [⟨j.aRef, p.storedFmt j.aRef j.fmtA, j.shapeA.1, j.shapeA.2⟩] ++ scaleOperand j.aScale j.fmtA j.shapeA.1 j.shapeA.2 ++
  (if j.kind = 1 then
    [⟨j.bRef, p.storedFmt j.bRef j.fmtB, j.shapeB.1, j.shapeB.2⟩] ++ scaleOperand j.bScale j.fmtB j.shapeB.1 j.shapeB.2
   else []) ++
  (if bit j.flags 2 then [⟨j.cIn, p.storedFmt j.cIn (p.fmtOf j.cIn), j.shapeC.1, j.shapeC.2⟩] else [])

/-- Everything a job reads. -/
def ProgSt.reads (p : ProgSt) (j : JobDesc) : List Operand :=
  p.inputs j ++ (if bit j.flags 2 then p.scalesOfC j.cIn (p.fmtOf j.cIn) j.shapeC.1 j.shapeC.2 else [])

/-- The output of a job. -/
def ProgSt.output (p : ProgSt) (j : JobDesc) : Operand := ⟨j.cOut, p.storedFmt j.cOut j.fmtOut, j.shapeC.1, j.shapeC.2⟩

/-- Everything a job writes. -/
def ProgSt.writes (p : ProgSt) (j : JobDesc) : List Operand :=
  p.output j :: p.scalesOfC j.cOut j.fmtOut j.shapeC.1 j.shapeC.2

/-- Bytes of one row of an operand: code 6 stands for scale bytes. -/
def Operand.rowBytes (o : Operand) : Nat := if o.fmt = 6 then o.cols else elemBytes o.fmt o.cols

/-- The bytes of an operand. -/
def Operand.bytes (o : Operand) : Nat := o.rows * o.rowBytes

/-- An operand's rows lie inside its buffer, and no row crosses a 1 MiB boundary of a large kind-2 buffer
(reason 6). -/
def ProgSt.operandOk (p : ProgSt) (o : Operand) : Bool :=
  let b := p.buffers.getD (refBuf o.ref) {}
  let big := b.kind == 2 && decide (mib < b.size)
  b.kind != 0 && decide (refOff o.ref + (o.rows - 1) * b.pitch + o.rowBytes ≤ b.size) &&
  (!big || (b.pitch != 0 && mib % b.pitch == 0 &&
    (List.range o.rows).all fun i =>
      let a := refOff o.ref + i * b.pitch
      a / mib == (a + o.rowBytes - 1) / mib))

/-- Where an operand begins: device memory for a kind-1 buffer, else its buffer, since setts and benches belong to one buffer
each. -/
def ProgSt.place (p : ProgSt) (r : Nat) : Nat × Nat :=
  let b := p.buffers.getD (refBuf r) {}
  if b.kind = 1 then (16, b.address + refOff r) else (refBuf r, refOff r)

/-- Two operands have a byte of a row in common. -/
def ProgSt.overlap (p : ProgSt) (a b : Operand) : Bool :=
  let pa := p.place a.ref
  let pb := p.place b.ref
  let pitch := fun (r : Nat) => (p.buffers.getD (refBuf r) {}).pitch
  pa.1 == pb.1 &&
  (List.range a.rows).any fun i => (List.range b.rows).any fun k =>
    decide (pa.2 + i * pitch a.ref < pb.2 + k * pitch b.ref + b.rowBytes) &&
    decide (pb.2 + k * pitch b.ref < pa.2 + i * pitch a.ref + a.rowBytes)

/-- The reserved values of a descriptor (reason 1). -/
def JobDesc.fieldsOk (j : JobDesc) (p : ProgSt) (idx : Nat) : Bool :=
  (j.kind == 1 || j.kind == 2) && decide (j.fmtA ≤ 5) && decide (j.fmtB ≤ 5) && decide (j.fmtOut ≤ 5) &&
  j.rmode != 3 && decide (j.flags < 8) && decide (1 ≤ j.mTiles) && decide (j.mTiles ≤ 16) &&
  decide (1 ≤ j.nTiles) && decide (j.nTiles ≤ 16) &&
  (if j.kind = 1 then decide (1 ≤ j.kGroups) && decide (j.kGroups ≤ 4096) else j.kGroups == 0) &&
  decide (j.tile ≤ 7) && j.seq == idx && decide (j.step < p.steps.length) && j.reserved == 0

/-- The first reason of Table 9.4, from 1 to 9, that refuses a descriptor. -/
def State.jobRefusal (s : State) (p : ProgSt) (idx : Nat) (j : JobDesc) : Option Nat :=
  let ins := p.inputs j
  let outKind := (p.buffers.getD (refBuf j.cOut) {}).kind
  if !j.fieldsOk p idx then some 1
  else if (if j.kind = 1 then (groupCycles j.fmtA j.fmtB).isNone else isBlock j.fmtA) then some 2
  else if j.kind = 1 ∧ ((isBlock j.fmtA ∧ bit j.flags 0) ∨ (isBlock j.fmtB ∧ !bit j.flags 1)) then some 3
  else if isBlock j.fmtOut ∧ (16 * j.nTiles) % blockLen j.fmtOut ≠ 0 then some 4
  else if (j.fmtOut = 5 ∧ j.alpha ≠ 0x3F800000) ∨ (outKind = 3 ∧ j.fmtOut ≠ 4) then some 5
  else if !(ins ++ [p.output j]).all p.operandOk then some 6
  else if (p.writes j).any fun o => (p.reads j).any (p.overlap o) then some 7
  else if 131072 < (ins.map Operand.bytes).sum then some 8
  else if j.cycles ≠ j.cost ∨ s.jobBudget p.engclk < j.cycles then some 9
  else none

/-- The first descriptor refused, with its reason. -/
def State.firstRefusal (s : State) (p : ProgSt) : Option (Nat × Nat) :=
  p.jobs.zipIdx.findSome? fun ji => (s.jobRefusal p ji.2 ji.1).map fun r => (ji.2, r)

/-- The header, the buffer entries and the steps of a program (reason 1). -/
def progHeaderOk (b : List Byte) (p : ProgSt) (job : Nat) : Bool :=
  let n := getLE b 12 4
  p.programId != 0 && getLE b 4 2 == job && decide (p.homeTile ≤ 7) && decide (p.flags ≤ 1) &&
  decide (1 ≤ p.steps.length) && decide (p.steps.length ≤ 4096) && decide (400 ≤ p.engclk) &&
  decide (p.engclk ≤ 1700) && decide (1 ≤ n) && decide (n ≤ 1048576) && decide (p.benchCount ≤ 64) &&
  (b.drop 17).take 3 == zeros 3 && (b.drop 28).take 32 == zeros 32 &&
  b.length == 576 + 16 * p.steps.length + 96 * n && crcZeroAt b 60 == getLE b 60 4 &&
  p.buffers.all (fun e => decide (e.kind ≤ 4) && decide (e.format ≤ 5) && (e.kind != 3 || e.address == 0) &&
    (decide (e.scaleOf < 16) || e.scaleOf == 0xFF) && e.reserved == 0) &&
  p.steps.all (fun st => decide (st.flags < 4) && decide (st.ioBuffer < 16) && decide (st.firstJob + st.jobCount ≤ n) &&
    st.reserved == 0)

/-- Setts of a kind-2 buffer. -/
def bufferSetts (e : BufEntry) : Nat := if mib < e.size then ceilDiv e.size mib else 1

/-- Benches of a kind-3 buffer, and the first of them in the run's bench set: the buffers take the set in the order of the table
(DEDUCED, log entry 62). -/
def bufferBenches (e : BufEntry) : Nat := if e.kind = 3 then ceilDiv e.size mib else 0
def ProgSt.firstBench (p : ProgSt) (bi : Nat) : Nat := ((p.buffers.take bi).map bufferBenches).sum

/-- The buffers themselves (reason 6): a staging buffer above 1 MiB has a pitch that divides 1 MiB and at most 64 setts; the
bench set has a bench for every 1 MiB of the kind-3 buffers. -/
def ProgSt.buffersOk (p : ProgSt) : Bool :=
  (p.buffers.all fun e => !(e.kind == 2 || e.kind == 4) || (decide (bufferSetts e ≤ 64) &&
    (e.kind == 4 || decide (e.size ≤ mib) || (e.pitch != 0 && mib % e.pitch == 0)))) &&
  decide (p.firstBench 16 ≤ p.benchCount)

/-- The setts of the kind-2 and kind-4 buffers of a program, or the pool's failure. -/
def State.allocBuffers (s : State) (r home : Nat) : List (BufEntry × Nat) → Option Nat × NMap (List Nat) × State
  | [] => (none, [], s)
  | (e, i) :: rest =>
    if e.kind = 2 ∨ e.kind = 4 then
      let n := bufferSetts e
      let size := if mib < e.size then mib else e.size
      let got := (List.range n).foldl (fun (acc : Option Nat × List Nat × State) _ =>
        match acc.1 with
        | some _ => acc
        | none =>
          match acc.2.2.alloc (masterId 0 home 0) r size home false with
          | (some (a, _), _, s') => (none, acc.2.1 ++ [a], s')
          | (none, st, s') => (some st, acc.2.1, s')) (none, [], s)
      match got.1 with
      | some st => (some st, [], got.2.2.freeAll (masterId 0 home 0) r got.2.1)
      | none =>
        match State.allocBuffers got.2.2 r home rest with
        | (some st, m, s') => (some st, m, s'.freeAll (masterId 0 home 0) r got.2.1)
        | (none, m, s') => (none, NMap.set m i got.2.1, s')
    else State.allocBuffers s r home rest

/-- The requester of a program's buffers (R203). -/
def State.progRequester (s : State) (job home : Nat) : Nat := s.requesterFor job (17 + home)

/-! ## Addresses of buffers (R203) -/

/-- The device address of a byte of a buffer. -/
def State.bufAddr (s : State) (p : ProgSt) (bi off : Nat) : Nat :=
  let b := p.buffers.getD bi {}
  match b.kind with
  | 1 => b.address + off
  | 3 =>
    match (p.run.map RunSt.benches).getD [] |>.drop (p.firstBench bi + off / mib) |>.head? with
    | some bench => s.benchAddr bench + off % mib
    | none => 0
  | _ =>
    let setts := p.setts.getD bi []
    setts.getD (off / mib) 0 + off % mib

/-- `n` bytes of a buffer from an offset. -/
def State.readBuf (s : State) (p : ProgSt) (bi off n : Nat) : List Byte :=
  (List.range n).map fun i => s.byte (s.bufAddr p bi (off + i))

/-- Bytes stored in a buffer. -/
def State.writeBuf (s : State) (p : ProgSt) (bi off : Nat) (bs : List Byte) : State :=
  (bs.zipIdx).foldl (fun s b => s.writeMem (s.bufAddr p bi (off + b.2)) [b.1]) s

/-- The rows of an operand as stored, a tile of its buffer at its pitch. -/
def State.readRows (s : State) (p : ProgSt) (o : Operand) : List (List Byte) :=
  (List.range o.rows).map fun i =>
    s.readBuf p (refBuf o.ref) (refOff o.ref + i * (p.buffers.getD (refBuf o.ref) {}).pitch) o.rowBytes

/-- The rows of the first of some operands. -/
def State.readFirst (s : State) (p : ProgSt) (os : List Operand) : List (List Byte) := (os.head?.map (s.readRows p)).getD []

/-- The operands of a job as they are prefetched into scratch (R200). -/
def State.fetchJob (s : State) (p : ProgSt) (j : JobDesc) : Scratch :=
  { a := s.readRows p ⟨j.aRef, p.storedFmt j.aRef j.fmtA, j.shapeA.1, j.shapeA.2⟩
    aScale := s.readFirst p (scaleOperand j.aScale j.fmtA j.shapeA.1 j.shapeA.2)
    b := if j.kind = 1 then s.readRows p ⟨j.bRef, p.storedFmt j.bRef j.fmtB, j.shapeB.1, j.shapeB.2⟩ else []
    bScale := if j.kind = 1 then s.readFirst p (scaleOperand j.bScale j.fmtB j.shapeB.1 j.shapeB.2) else []
    c := if bit j.flags 2 then s.readRows p ⟨j.cIn, p.storedFmt j.cIn (p.fmtOf j.cIn), j.shapeC.1, j.shapeC.2⟩ else []
    cScale := if bit j.flags 2 then s.readFirst p (p.scalesOfC j.cIn (p.fmtOf j.cIn) j.shapeC.1 j.shapeC.2) else [] }

/-- Rows and columns exchanged. -/
def transposed {α : Type} (cols : Nat) (d : α) (m : List (List α)) : List (List α) :=
  (List.range cols).map fun c => m.map fun r => r.getD c d

/-! ## The results of a job (R204) -/

/-- The pairs in the bytes of a row. -/
def pairsOf (bytes : List Byte) : List F32P :=
  (List.range (bytes.length / 8)).map fun i => (BitVec.ofNat 32 (getLE bytes (8 * i) 4), BitVec.ofNat 32 (getLE bytes (8 * i + 4) 4))

/-- The values of the rows of an operand, each with whether its decoding overflowed (R177). A bench's pairs are read as F32 under
round to nearest even (R204). -/
def rowValues (bench : Bool) (fmt cols : Nat) (rows scales : List (List Byte)) : List (List (Num × Bool)) :=
  rows.zipIdx.map fun ri =>
    (if bench then (pairsOf ri.1).map fun q => (f32Num (pairF32 q), false)
     else decodeVals fmt ri.1 (scales.getD ri.2 [])).take cols

/-- The operands of a job as numbers: A by rows, the lo parts of an F32P A, B by columns, C_in. -/
structure JobNums where
  a : List (List (Num × Bool))
  aLo : List (List Num)
  b : List (List (Num × Bool))
  c : List (List (Num × Bool))
  /-- A and C_in are pairs, to be converted in the job's mode (R183). -/
  aPair : Bool
  cPair : Bool
  deriving DecidableEq, Repr

/-- A buffer is a bench set. -/
def ProgSt.inBench (p : ProgSt) (r : Nat) : Bool := (p.buffers.getD (refBuf r) {}).kind == 3

/-- What the scratch holds for a job, as numbers. -/
def ProgSt.jobNums (p : ProgSt) (j : JobDesc) (x : Scratch) : JobNums :=
  let none' := (Num.zero, false)
  let pairs := j.kind == 1 && j.fmtA == 5
  let rows := j.shapeC.1
  let cols := j.shapeC.2
  let a := if pairs then x.a.map fun r => (pairsOf r).map fun q => (f32Num q.1, false)
    else rowValues (p.inBench j.aRef) j.fmtA j.shapeA.2 x.a x.aScale
  let lo := if pairs then x.a.map fun r => (pairsOf r).map fun q => f32Num q.2 else []
  let b := rowValues (p.inBench j.bRef) j.fmtB j.shapeB.2 x.b x.bScale
  let turn := bit j.flags 0 && j.kind == 1
  { a := if turn then transposed rows none' a else a
    aLo := if turn then transposed rows Num.zero lo else lo
    b := if bit j.flags 1 then b else transposed cols none' b
    c := rowValues (p.inBench j.cIn) (p.fmtOf j.cIn) cols x.c x.cScale
    aPair := j.fmtA == 5 && !p.inBench j.aRef
    cPair := p.fmtOf j.cIn == 5 && !p.inBench j.cIn }

/-- A value as an F32 operand, with its kinds: a pair is converted in the job's mode (R180, R183). -/
def asF32 (pair : Bool) (mode : Nat) (c : ArithCtx) (v : Num × Bool) : (F32 × Nat) × ArithCtx :=
  if pair then
    let d := c.next mode
    let q := convert 4 mode d.1 v.1
    ((BitVec.ofNat 32 q.1, 4 * b2n q.2), d.2)
  else ((numF32 v.1, 4 * b2n v.2), c)

/-- The dot product of a row and a column, as a pair: the F32 accumulator with +0, or the F32P accumulator of two passes
(R188); with the kinds of each group. -/
def cellProduct (pairs : Bool) (a b aLo : List Num) : F32P × List (Nat × Nat) :=
  if pairs then
    let r1 := dotPass 0 (0, 0) (chunksOf 16 a) (chunksOf 16 b)
    let r2 := dotPass 0 r1.1 (chunksOf 16 aLo) (chunksOf 16 b)
    (r2.1, r1.2 ++ r2.2)
  else
    let r := dotF32 0 0 (chunksOf 16 a) (chunksOf 16 b)
    ((r.1, 0), r.2)

/-- The groups with a decoding overflow among their operands (R177). -/
def beyondGroups (a b : List (Num × Bool)) : List (Nat × Nat) :=
  ((List.range (ceilDiv a.length 16)).filter fun g =>
    (((a.drop (16 * g)).take 16) ++ ((b.drop (16 * g)).take 16)).any Prod.snd).map fun g => (4, g)

/-- The kinds of an epilogue's operands: NaN ones count as consumed (R193). -/
def nanKind (xs : List F32) : Nat := if xs.any f32IsNan then 8 else 0

/-- The epilogue in F32: alpha × x + beta × c, the second product rounded first (DEDUCED, log entry 18). A NaN accumulator of
an array has been raised in its group. -/
def epilogue (j : JobDesc) (x : F32) (c : Option F32) : F32 × Nat :=
  let own := if j.kind = 2 then [x] else []
  match c with
  | none =>
    let r := f32Mul j.alpha x
    (r.1, r.2 ||| nanKind (j.alpha :: own))
  | some c =>
    let t := f32Mul j.beta c
    let r := f32Fma j.alpha x t.1
    (r.1, t.2 ||| r.2 ||| nanKind (j.alpha :: j.beta :: c :: own))

/-- C_in of an element, where the job has one. -/
def jobCin (j : JobDesc) (x : JobNums) (r c : Nat) (cx : ArithCtx) : (Option F32 × Nat) × ArithCtx :=
  if bit j.flags 2 then
    let q := asF32 x.cPair j.rmode cx ((x.c.getD r []).getD c (Num.zero, false))
    ((some q.1.1, q.1.2), q.2)
  else ((none, 0), cx)

/-- One result element, as a pair, its exceptions noted at its row and column (R204, R217). -/
def jobCell (j : JobDesc) (x : JobNums) (cx : ArithCtx) (r c : Nat) : F32P × ArithCtx :=
  let row := x.a.getD r []
  let note := fun (cx : ArithCtx) (kinds g : Nat) => cx.raise kinds (j.row0 + r) (j.col0 + c) g
  if j.kind = 2 then
    let a := asF32 x.aPair j.rmode cx (row.getD c (Num.zero, false))
    let ci := jobCin j x r c a.2
    let e := epilogue j a.1.1 ci.1.1
    ((e.1, 0), note ci.2 (a.1.2 ||| ci.1.2 ||| e.2) 0xFFFFFFFF)
  else
    let col := x.b.getD c []
    let d := cellProduct (j.fmtA == 5) (row.map Prod.fst) (col.map Prod.fst) (x.aLo.getD r [])
    let cx := (d.2 ++ beyondGroups row col).foldl (fun cx kg => note cx kg.1 (j.kblock0 + kg.2)) cx
    if j.fmtOut = 5 then
      let ci := jobCin j x r c cx
      match ci.1.1 with
      | none => (d.1, ci.2)
      | some v =>
        let t := f32Mul j.beta v
        let q := addF32 d.1 t.1
        (q.1, note ci.2 (ci.1.2 ||| t.2 ||| (q.2 &&& 7) ||| nanKind [j.beta, v]) 0xFFFFFFFF)
    else
      let acc := asF32 (j.fmtA == 5) j.rmode cx (pairValue d.1, false)
      let ci := jobCin j x r c acc.2
      let e := epilogue j acc.1.1 ci.1.1
      ((e.1, 0), note ci.2 (acc.1.2 ||| ci.1.2 ||| e.2) 0xFFFFFFFF)

/-- The elements of one row. -/
def jobRow (j : JobDesc) (x : JobNums) (cx : ArithCtx) (r : Nat) : List F32P × ArithCtx :=
  (List.range j.shapeC.2).foldl (fun acc c =>
    let q := jobCell j x acc.2 r c
    (acc.1 ++ [q.1], q.2)) ([], cx)

/-- The result elements of a job, row by row. -/
def jobResult (j : JobDesc) (x : JobNums) (cx : ArithCtx) : List (List F32P) × ArithCtx :=
  (List.range j.shapeC.1).foldl (fun acc r =>
    let q := jobRow j x acc.2 r
    (acc.1 ++ [q.1], q.2)) ([], cx)

/-- A row of results stored: added into its bench by ADD_F32, or converted and written, a block's scales to their place (log
entry 19). -/
def State.storeRow (s : State) (p : ProgSt) (j : JobDesc) (c : ArithCtx) (r : Nat) (vals : List F32P) :
    ArithCtx × State :=
  let bi := refBuf j.cOut
  let b := p.buffers.getD bi {}
  let off := refOff j.cOut + r * b.pitch
  if b.kind = 3 then
    vals.zipIdx.foldl (fun acc vi =>
      let m := acc.2.readBuf p bi (off + 8 * vi.2) 8
      let q := addF32 (BitVec.ofNat 32 (getLE m 0 4), BitVec.ofNat 32 (getLE m 4 4)) vi.1.1
      (acc.1.raise q.2 (j.row0 + r) (j.col0 + vi.2) 0xFFFFFFFF, acc.2.writeBuf p bi (off + 8 * vi.2) (pairBytes q.1)))
      (c, s)
  else if j.fmtOut = 5 then (c, s.writeBuf p bi off (vals.flatMap pairBytes))
  else
    let e := encodeVals j.fmtOut j.rmode (fun i => (j.row0 + r, j.col0 + i)) c (vals.map pairNum)
    let s := s.writeBuf p bi off e.1
    match (if isBlock j.fmtOut then p.scaleRef j.cOut j.fmtOut else none) with
    | none => (e.2.2, s)
    | some x => (e.2.2, s.writeBuf p (refBuf x) (refOff x + r * (p.buffers.getD (refBuf x) {}).pitch) e.2.1)

/-- The outputs of a job written, from its operands in scratch, by the converters of a unit: the exceptions raised, the state. -/
def State.runJob (s : State) (unit : Nat) (p : ProgSt) (j : JobDesc) (x : Scratch) : List Raised × State :=
  let res := jobResult j (p.jobNums j x) (s.arithCtx unit)
  let out := res.1.zipIdx.foldl (fun acc rv => acc.2.storeRow p j acc.1 rv.2 rv.1) (res.2, s)
  (out.1.raised, (out.2.tookDraws unit out.1).countFlush out.1.flushed)

/-! ## Runs (R206, R207) -/

/-- A program. -/
def State.prog? (s : State) (ctx : Nat) : Option ProgSt := s.eng.progs.get? ctx

/-- A program stored. -/
def State.setProg (s : State) (ctx : Nat) (p : ProgSt) : State :=
  s.setEng fun e => { e with progs := e.progs.set ctx p }

/-- A run changed. -/
def State.setRun (s : State) (ctx : Nat) (f : RunSt → RunSt) : State :=
  match s.prog? ctx with
  | some p => s.setProg ctx { p with run := p.run.map f }
  | none => s

/-- A tile's queue. -/
def State.queue (s : State) (t : Nat) : List QJob := s.eng.queues.getD t []

/-- A tile's queue stored. -/
def State.setQueue (s : State) (t : Nat) (q : List QJob) : State :=
  s.setEng fun e => { e with queues := e.queues.set t q }

/-- Jobs of a step issued into their queues, in portions as space allows. -/
def State.issueJobs (s : State) (ctx : Nat) (p : ProgSt) : List Nat → List Nat × State
  | [] => ([], s)
  | i :: is =>
    let t := ((p.jobs[i]?).map JobDesc.tile).getD 0
    if (s.queue t).length < 8192 then
      State.issueJobs (s.setQueue t (s.queue t ++ [⟨ctx, i, s.tick.counter⟩])) ctx p is
    else
      let r := State.issueJobs s ctx p is
      (i :: r.1, r.2)

/-- Buffers that some job of the program stores into, with the scale buffers of those. -/
def ProgSt.outputs (p : ProgSt) : List Nat :=
  (List.range 16).filter fun bi => p.jobs.any fun j =>
    refBuf j.cOut == bi || p.scaleBuffer (refBuf j.cOut) == some bi

/-- Pieces of a buffer that lie in one piece in memory: address, bytes. -/
def State.bufPieces (s : State) (p : ProgSt) (bi : Nat) : List (Nat × Nat) :=
  let n := (p.buffers.getD bi {}).size
  if (p.buffers.getD bi {}).kind = 1 then [((p.buffers.getD bi {}).address, n)]
  else (List.range (ceilDiv n mib)).map fun i => (s.bufAddr p bi (i * mib), min mib (n - i * mib))

/-- ENG.ABORT leaves every output buffer of the run undefined (R207). -/
def State.loseOutputs (s : State) (p : ProgSt) : State :=
  (p.outputs.flatMap (s.bufPieces p)).foldl (fun (s : State) r => s.undefine r.1 r.2) s

/-- The waiting jobs of a context are removed, from the queues and from the engines they are assigned to. -/
def State.dropWaiting (s : State) (ctx : Nat) : State :=
  let s := (List.range 8).foldl (fun (s : State) t => s.setQueue t ((s.queue t).filter fun q => q.ctx != ctx)) s
  s.eng.engines.keys.foldl (fun (s : State) k =>
    if ((s.engine k).assigned.map QJob.ctx) = some ctx then
      (s.setEngine k fun e => { e with assigned := none, next := {} }).engineIdle k
    else s) s

/-- The jobs of a context end: the waiting ones are removed, the running ones suppressed. -/
def State.cancelJobs (s : State) (ctx : Nat) : State :=
  let s := s.dropWaiting ctx
  s.eng.engines.keys.foldl (fun (s : State) k =>
    if ((s.engine k).running.map QJob.ctx) = some ctx then s.setEngine k fun e => { e with suppressed := true } else s) s

/-- Running jobs of a context whose outputs stand. -/
def State.runningJobs (s : State) (ctx : Nat) : Nat :=
  (s.eng.engines.vals.filter fun e => (e.running.map QJob.ctx) == some ctx && !e.suppressed).length

/-- A run ends (R207): its queued jobs are removed, its running ones suppressed, its benches freed. -/
def State.endRun (s : State) (ctx status : Nat) : State :=
  match s.prog? ctx with
  | none => s
  | some p =>
    match p.run with
    | none => s
    | some r =>
      let s := r.benches.foldl State.dropBench (s.cancelJobs ctx)
      let s := (s.withdraw fun o => o == .run ctx).workEnded 3 p.job (status == Status.drained)
      (s.setProg ctx { p with run := none, lastStatus := some status, lastExc := r.exc }).setEng fun e =>
        { e with ended := e.ended ++ [(ctx, status)] }

/-- Bytes of an output step's buffer as ENG_JOB_OUT frames of at most 8 KiB (R206). -/
def State.sendOutput (s : State) (ctx bi : Nat) (p : ProgSt) : Nat × State :=
  let b := p.buffers.getD bi {}
  let n := ceilDiv b.size 8192
  let opId := ctx + 1048576 * (s.ctxGen.getD ctx 0)
  (n, (List.range n).foldl (fun (s : State) i =>
    let len := min 8192 (b.size - i * 8192)
    let bytes := padTo (64 * ceilDiv len 64) (s.readBuf p bi (i * 8192) len)
    s.send { hdr := { opcode := Op.engJobOut, cls := 0, dstNode := p.outNode, dstEp := p.outEp, srcNode := s.me,
                      srcEp := 0xFFF0, job := p.job, units := bytes.length / 64, last := i + 1 == n, opId := opId,
                      position := bi * 2 ^ 28 + i * 128 },
             payload := bytes } (.run ctx)) s)

/-- The step at hand is issued, or waits for its input. -/
def State.issueStep (s : State) (ctx : Nat) : State :=
  match s.prog? ctx with
  | none => s
  | some p =>
    match p.run with
    | none => s
    | some r =>
      match p.steps[r.step]? with
      | none => s.endRun ctx r.exc.status
      | some st =>
        let size := (p.buffers.getD st.ioBuffer {}).size
        if bit st.flags 0 && p.input.getD st.ioBuffer 0 != size then
          s.setProg ctx { p with run := some { r with waiting := true } }
        else
          let p := if bit st.flags 0 then { p with input := p.input.set st.ioBuffer 0 } else p
          let got := s.issueJobs ctx p (rangeFrom st.firstJob st.jobCount)
          got.2.setProg ctx { p with run := some { r with
            waiting := false, sent := false, issuedAt := s.tick.counter, unissued := got.1, remaining := st.jobCount } }

/-- A run goes on as far as it can, at most `n` moves: with the jobs of a step complete its output is sent, then, when that is
acknowledged, the next step is issued or the run ends (R206, R217). -/
def State.advanceRun (s : State) (ctx : Nat) : Nat → State
  | 0 => s
  | n + 1 =>
    match s.prog? ctx with
    | none => s
    | some p =>
      match p.run with
      | none => s
      | some r =>
        if r.waiting || r.remaining != 0 || r.sending != 0 then s
        else
          match r.stopping, p.steps[r.step]? with
          | some st, _ => s.endRun ctx st
          | none, none => s
          | none, some st =>
            if bit st.flags 1 && !r.sent then
              let o := s.sendOutput ctx st.ioBuffer p
              State.advanceRun (o.2.setRun ctx fun r => { r with sent := true, sending := o.1 }) ctx n
            else State.advanceRun ((s.setRun ctx fun r => { r with step := r.step + 1 }).issueStep ctx) ctx n

/-- A run goes on: of its 4,096 steps at most, each may send and may be empty. -/
def State.goOn (s : State) (ctx : Nat) : State := s.advanceRun ctx 8200

/-- An output frame of a run is settled. -/
def State.outputSettled (s : State) (ctx : Nat) : State :=
  (s.setRun ctx fun r => { r with sending := r.sending - 1 }).goOn ctx

/-- The program of a job with an ID. -/
def State.progOf (s : State) (job pid : Nat) : Option Nat :=
  (s.eng.progs.find? fun kv => kv.2.job == job && kv.2.programId == pid).map Prod.fst

/-- A run starts on a program with its benches claimed. -/
def State.beginRun (s : State) (ctx : Nat) (p : ProgSt) (benches : List (Nat × Nat)) (block : Option (Nat × Nat)) :
    State :=
  ((s.setProg ctx { p with run := some { benches := benches, block := block } }).issueStep ctx).goOn ctx

/-- A run starts (R207): the benches are claimed all or none; the fallback runs where the claim fails. Answers the
context that runs, or a status. -/
def State.startRun (s : State) (ctx : Nat) (block : Option (Nat × Nat)) : (Nat ⊕ Nat) × State :=
  match s.prog? ctx with
  | none => (.inr Status.contextStale, s)
  | some p =>
    if p.run.isSome then (.inr Status.programBusy, s)
    else
      match s.takeBenches p.homeTile 1 2 p.benchCount with
      | some (bs, s') => (.inl ctx, s'.beginRun ctx p bs block)
      | none =>
        match (if p.fallback = 0 then none else s.progOf p.job p.fallback) with
        | none => (.inr Status.noBench, s)
        | some c =>
          match s.prog? c with
          | none => (.inr Status.noBench, s)
          | some q =>
            if q.run.isSome then (.inr Status.programBusy, s)
            else
              match s.takeBenches q.homeTile 1 2 q.benchCount with
              | some (bs, s') => (.inl c, (s'.bump .engBenchFallback).beginRun c q bs block)
              | none => (.inr Status.noBench, s)

/-! ## Completion of jobs (R201, R213) -/

/-- An engine's job is over: the engine is free, with nothing of the job left in its scratch (R200), or leaves service. -/
def State.engineFree (s : State) (k : Nat) : State :=
  (s.setEngine k fun e => { e with running := none, suppressed := false, late := false, active := {} }).engineIdle k

/-- A completion reaches the home tile. -/
def State.jobCounted (s : State) (ctx : Nat) : State :=
  (s.setRun ctx fun r => { r with remaining := r.remaining - 1 }).goOn ctx

/-- A run whose program stops on exceptions has raised one of level 1 or more: nothing more of it starts (R217). -/
def State.stopRun (s : State) (ctx status : Nat) : State :=
  let s := s.dropWaiting ctx
  s.setRun ctx fun r => { r with stopping := some status, remaining := s.runningJobs ctx + 1, unissued := [] }

/-- A job with every check passed writes its outputs from its operands in scratch and raises its exceptions (R201, R217). -/
def State.jobGood (s : State) (k : Nat) (q : QJob) (x : Scratch) : State :=
  match s.prog? q.ctx with
  | none => s
  | some p =>
    match p.run, p.jobs[q.idx]? with
    | some r, some j =>
      let unit := masterId 0 (k / 136) (k % 136)
      let (raised, s) := s.runJob unit p j x
      let (exc, s) := s.raiseAll r.exc unit raised
      let s := s.setRun q.ctx fun r => { r with exc := exc }
      let s := if bit p.flags 0 && exc.status != Status.ok && r.stopping.isNone then s.stopRun q.ctx exc.status else s
      s.jobCounted q.ctx
    | _, _ => s

/-- The tile whose queue a job came from: that of its descriptor, or that of its master granule (R268). -/
def State.homeQueue (s : State) (q : QJob) : Nat :=
  match s.prog? q.ctx with
  | some p => ((p.jobs[q.idx]?).map JobDesc.tile).getD 0
  | none => ((s.parm.blocks.get? q.ctx).map fun b => s.granuleTile b q.idx).getD 0

/-- A job returns to the head of its tile's queue. -/
def State.requeue (s : State) (q : QJob) : State :=
  let t := s.homeQueue q
  s.setQueue t (q :: s.queue t)

/-- A check of R201 has failed: the engine is retired, and the job that was assigned to it next is returned (R213). -/
def State.engineFailed (s : State) (k : Nat) : State :=
  let t := k / 136
  let held := (s.engine k).assigned
  let s := s.bump .engCheckErr t
  let s := (s.setEngine k fun e => { e with
    running := none, suppressed := false, late := false, assigned := none, active := {}, next := {} }).engineRetired k 1
  let s := s.report { cls := 0, master := masterId 0 t (k % 136), access := 7 }
  match held with
  | some a => s.requeue a
  | none => s

/-- A job whose check has failed returns once to the head of its queue; the second time its run ends (R213). -/
def State.jobBad (s : State) (q : QJob) : State :=
  match (s.prog? q.ctx).bind ProgSt.run with
  | none => s
  | some r =>
    if r.returned.contains q.idx then s.endRun q.ctx Status.engineFault
    else (s.setRun q.ctx fun r => { r with returned := q.idx :: r.returned }).requeue q

/-- A tick job finishes on an engine. -/
def State.jobDone (s : State) (k : Nat) (good : Bool) : State :=
  let e := s.engine k
  match e.running with
  | none => s
  | some q =>
    if good then
      let s := (s.bump .engJobsDone (k / 136)).engineFree k
      if e.suppressed then s else s.jobGood k q e.active
    else
      let s := s.engineFailed k
      if e.suppressed then s else s.jobBad q

/-! ## Assignment and stealing (R208, R209) -/

/-- Engines of a tile that may be given a job. -/
def State.availableEngines (s : State) (t : Nat) : List Nat :=
  if s.eng.inReset.contains t then []
  else (tileEngines t).filter fun k =>
    let e := s.engine k
    e.state == 1 && e.assigned.isNone

/-- Jobs of a tile issued before this tick (R206). -/
def State.readyJobs (s : State) (t : Nat) : List QJob :=
  (s.queue t).filter fun q => decide (q.at_ < s.tick.counter)

/-- The operands of a job: of a program's run, or the master's tile of a transposition (R268). -/
def State.operands (s : State) (q : QJob) : Scratch :=
  match s.prog? q.ctx with
  | some p => ((p.jobs[q.idx]?).map fun j => s.fetchJob p j).getD {}
  | none => ((s.parm.blocks.get? q.ctx).map fun b =>
      ({ a := [s.readMem (b.unitAt 1 4 (tileUnit q.idx)) 4096] } : Scratch)).getD {}

/-- Jobs assigned to engines in order; each prefetches its operands at once into its next half (R200, R208). -/
def State.assign (s : State) : List Nat → List QJob → State
  | k :: ks, q :: qs =>
    State.assign (s.setEngine k fun e => { e with assigned := some q, next := s.operands q }) ks qs
  | _, _ => s

/-- A tile assigns its ready jobs to its available engines (R208). -/
def State.assignTile (s : State) (t : Nat) : State :=
  let av := s.availableEngines t
  let jobs := (s.readyJobs t).take av.length
  (s.setQueue t ((s.queue t).filter fun q => !jobs.contains q)).assign av jobs

/-- What a tile asks of its two neighbours: (neighbour, jobs) (R209 step 2). -/
def askOf (t d up down stealIn : Nat) : List (Nat × Nat) :=
  let next := (t + 1) % 8
  let prev := (t + 7) % 8
  let first := if down ≤ up then (next, up, prev, down) else (prev, down, next, up)
  let a := min d (min first.2.1 stealIn)
  let b := min (d - a) (min first.2.2.2 (stealIn - a))
  [(first.1, a), (first.2.2.1, b)]

/-- One asked tile grants its neighbours, in rotating order from its grant pointer (R209 step 3). -/
def grantsOf (surplus stealOut ptr : Nat) (asks : List (Nat × Nat)) : List (Nat × Nat) :=
  let order := rotated 8 ptr
  (order.filterMap fun t => asks.find? fun a => a.1 == t).foldl (fun acc a =>
    let left := min surplus stealOut - (acc.map Prod.snd).sum
    if a.2 = 0 ∨ left = 0 then acc else acc ++ [(a.1, min a.2 left)]) []

/-- Jobs given from the tail of a tile's queue to a neighbour's engines. -/
def State.giveJobs (s : State) (giver taker n : Nat) : State :=
  let ready := s.readyJobs giver
  let jobs := ready.drop (ready.length - n)
  let s := s.setQueue giver ((s.queue giver).filter fun q => !jobs.contains q)
  let s := (s.bump .engStolenOut giver jobs.length).bump .engStolenIn taker jobs.length
  s.assign (s.availableEngines taker) jobs

/-- The assignment point of a tick: spares enter service, steps issue in portions, tiles assign, then steal. -/
def State.assignmentPoint (s : State) : State :=
  let s := (List.range 8).foldl State.fillTile s
  let s := s.eng.progs.keys.foldl (fun (s : State) c =>
    match s.prog? c with
    | some p =>
      (match p.run with
        | some r =>
          if r.unissued.isEmpty then s
          else
            let got := s.issueJobs c p r.unissued
            got.2.setRun c fun r => { r with unissued := got.1 }
        | none => s)
    | none => s) s
  let s := (List.range 8).foldl State.assignTile s
  let surplus := (List.range 8).map fun t => (s.readyJobs t).length
  let deficit := (List.range 8).map fun t => (s.availableEngines t).length
  let cin := s.cfg .engStealCfg 0 12 8
  let cout := s.cfg .engStealCfg 0 20 8
  let asks := (List.range 8).map fun t =>
    if surplus.getD t 0 = 0 then
      askOf t (deficit.getD t 0) (surplus.getD ((t + 1) % 8) 0) (surplus.getD ((t + 7) % 8) 0) cin
    else []
  (List.range 8).foldl (fun (s : State) g =>
    let mine := asks.zipIdx.flatMap fun al => (al.1.filter fun a => a.1 == g).map fun a => (al.2, a.2)
    let grants := grantsOf (surplus.getD g 0) cout (s.eng.grantPtr.getD g 0) mine
    let s := match grants.getLast? with
      | some x => s.setEng fun e => { e with grantPtr := e.grantPtr.set g ((x.1 + 1) % 8) }
      | none => s
    grants.foldl (fun s x => s.giveJobs g x.1 x.2) s) s

/-! ## The boundary (R208, R210) -/

/-- An engine whose job overran (R210). -/
def State.overrun (s : State) (k : Nat) : State :=
  let t := k / 136
  let w := s.cfg .engOverrunCfg 0 8 16
  let n := s.cfg .engOverrunCfg 0 0 8
  let now := s.tick.counter
  let recent := now :: ((s.engine k).overruns.filter fun x => decide (now < x + w))
  let s := (s.bump .engOverrun t).setEngine k fun e => { e with overruns := recent }
  if n ≤ recent.length then
    ((s.setEngine k fun e => { e with overruns := [] }).event 2 0x09 0x0011
      (leBytes 2 (engineName k) ++ leBytes 1 recent.length ++ zeros 1 ++ leBytes 2 w)).report
      { cls := 1, master := masterId 0 t (k % 136) }
  else s

/-- Engines at a boundary: a job still running overruns, once; bubbled engines keep theirs; the others start their assigned
jobs, the halves of their scratch changing roles; then tests start. -/
def State.engineTick (s : State) : State :=
  (s.eng.engines.keys.foldl (fun (s : State) k =>
    let e := s.engine k
    if e.running.isSome then
      (if e.late then s else (s.overrun k).setEngine k fun e => { e with late := true })
    else if e.assigned.isNone then s
    else if e.bubbled then s.bump .engBubbleDefer (k / 136)
    else s.setEngine k fun e => { e with
      running := e.assigned, assigned := none, half := !e.half, active := e.next, next := {}, late := false }) s).testTick

/-! ## Kernels (R214–R216) -/

/-- The lanes of one group of 32 that a kernel works on: its vector registers, what it has stored (stream, hi lanes, lo lanes), the
converter. -/
structure Lanes where
  regs : NMap (List F32)
  stores : List (Nat × List F32 × List F32)
  cx : ArithCtx
  deriving DecidableEq, Repr

/-- Where an instruction works: the kernel's parameters and rounding mode, the lanes of each input stream with their kinds, and the
first element of the group. -/
structure LaneEnv where
  params : List F32
  mode : Nat
  inputs : List (List (F32 × F32 × Nat))
  /-- The streams that hold F32P. -/
  pairs : List Nat
  base : Nat
  deriving DecidableEq, Repr

/-- The row and column that name an element of the group (R217). -/
def LaneEnv.at_ (e : LaneEnv) (i : Nat) : Nat × Nat := (e.base + i, 0xFFFFFFFF)

/-- The lanes of a source. -/
def Lanes.get (l : Lanes) (e : LaneEnv) : NcuSrc → List F32
  | .reg n => l.regs.getD (n % 32) (List.replicate 32 0)
  | .param n => List.replicate 32 (e.params.getD (n % 64) 0)

/-- A register written, with the kinds that each lane raised. -/
def Lanes.put (l : Lanes) (e : LaneEnv) (d : Nat) (r : List (F32 × Nat)) : Lanes :=
  { l with regs := l.regs.set (d % 32) (r.map Prod.fst),
           cx := r.zipIdx.foldl (fun c q => c.raise q.1.2 (e.at_ q.2).1 (e.at_ q.2).2 0xFFFFFFFF) l.cx }

/-- An operation on each lane of one, two or three sources; a NaN operand is consumed (R193). -/
def Lanes.map1 (l : Lanes) (e : LaneEnv) (f : F32 → F32 × Nat) (a : NcuSrc) : List (F32 × Nat) :=
  (l.get e a).map fun x => let r := f x; (r.1, r.2 ||| nanKind [x])
def Lanes.map2 (l : Lanes) (e : LaneEnv) (f : F32 → F32 → F32 × Nat) (a b : NcuSrc) : List (F32 × Nat) :=
  List.zipWith (fun x y => let r := f x y; (r.1, r.2 ||| nanKind [x, y])) (l.get e a) (l.get e b)
def Lanes.map3 (l : Lanes) (e : LaneEnv) (f : F32 → F32 → F32 → F32 × Nat) (a b c : NcuSrc) : List (F32 × Nat) :=
  List.zipWith (fun x yz => let r := f x yz.1 yz.2; (r.1, r.2 ||| nanKind [x, yz.1, yz.2])) (l.get e a)
    ((l.get e b).zip (l.get e c))

/-- Each lane converted to BF16 in the kernel's mode, and read back (Table 8.5). -/
def Lanes.toBf16 (l : Lanes) (e : LaneEnv) (xs : List F32) : List (F32 × Nat) × ArithCtx :=
  xs.foldl (fun acc x =>
    let d := acc.2.next e.mode
    let q := convert 3 e.mode d.1 (f32Num x)
    (acc.1 ++ [(numF32 (decodeElem 3 q.1), 4 * b2n q.2 ||| nanKind [x])], d.2)) ([], l.cx)

/-- One instruction on a group of 32 lanes (R192, R214). -/
def Lanes.run (e : LaneEnv) (l : Lanes) : NcuOp → Lanes
  | .fma d a b c => l.put e d (l.map3 e f32Fma a b c)
  | .add d a b => l.put e d (l.map2 e f32Add a b)
  | .sub d a b => l.put e d (l.map2 e f32Sub a b)
  | .mul d a b => l.put e d (l.map2 e f32Mul a b)
  | .min d a b => l.put e d (l.map2 e (fun x y => (f32Min x y, 0)) a b)
  | .max d a b => l.put e d (l.map2 e (fun x y => (f32Max x y, 0)) a b)
  | .abs d a => l.put e d (l.map1 e (fun x => (f32Abs x, 0)) a)
  | .sqrt d a => l.put e d (l.map1 e f32Sqrt a)
  | .rsqrt d a => l.put e d (l.map1 e f32Rsqrt a)
  | .round d a =>
    let r := l.toBf16 e (l.get e a)
    { l with cx := r.2 }.put e d r.1
  | .ld d i =>
    let v := e.inputs.getD i []
    let l := l.put e d (v.map fun x => (x.1, x.2.2))
    if e.pairs.contains i then l.put e (d + 1) (v.map fun x => (x.2.1, 0)) else l
  | .st i a => { l with stores := l.stores ++ [(i, l.get e (.reg a), l.get e (.reg (a + 1)))] }
  | .addp d x =>
    let r := List.zipWith (fun p y => addF32 p y) ((l.get e (.reg d)).zip (l.get e (.reg (d + 1)))) (l.get e x)
    (l.put e d (r.map fun q => (q.1.1, q.2))).put e (d + 1) (r.map fun q => (q.1.2, 0))
  | .sel d m a b => l.put e d (List.zipWith (fun k xy => (if f32Abs k ≠ 0 then xy.1 else xy.2, 0)) (l.get e (.reg m))
      ((l.get e a).zip (l.get e b)))

/-- A kernel stores into its stream `i`. -/
def kernelWrites (image : List Byte) (i : Nat) : Bool :=
  (Config.kernelOps image).any fun x => match x with
    | .st j _ => i == j
    | _ => false

/-- The step that an NCU has under way completes: its next step issues in the next tick, or, where this one was late, in the one
after (R216, R52). None is under way before the tick in which it issues. -/
def State.ncuStep (s : State) (ch : Nat) (late : Bool) : Option State :=
  if s.tick.counter < s.eng.ncuNext.getD ch 0 then none
  else
    let s := if late then s.bump .engNcuLate (channelTile ch) else s
    some (s.setEng fun e => { e with ncuNext := e.ncuNext.set ch (s.tick.counter + (if late then 2 else 1)) })

/-! ## Tile resets (R340) -/

/-- A tile reset starts: running jobs are suppressed and return to the head of the tile's queue. -/
def State.stopTile (s : State) (t : Nat) : State :=
  let s := s.setEng fun e => { e with inReset := if e.inReset.contains t then e.inReset else t :: e.inReset }
  (tileEngines t).foldl (fun (s : State) k =>
    let e := s.engine k
    let back := e.assigned.toList ++ (if e.suppressed then [] else e.running.toList)
    if back.isEmpty && e.running.isNone then s
    else
      ((s.setEngine k fun e => { e with
        running := none, assigned := none, suppressed := false, late := false, active := {}, next := {} }).setQueue t
        (back ++ s.queue t)).engineIdle k) s

/-- A tile reset completes: engines that failed the test are retired. -/
def State.startTile (s : State) (t : Nat) (failed : List Nat) : State :=
  let s := s.setEng fun e => { e with inReset := e.inReset.filter (· != t) }
  (failed.filter (· < 136)).foldl (fun (s : State) i => s.engineTestFailed (t * 136 + i)) s

end Sys2Proof.Machine
end

