-- ==== Sys2Proof/Machine/Power.lean ====
section
/-! DEFINITION. Power and heat (chapter 15): operating points and their changes, declared phases, demand raising, droop,
capping and its estimator, the thermal points and the coolant hold. The sequencer stands in Bringup.lean. -/

namespace Sys2Proof.Machine

/-- The power controller changed. -/
def State.setPwr (s : State) (f : PwrSt → PwrSt) : State := { s with pwr := f s.pwr }

/-- A compute tile's power state. -/
def State.tilePwr (s : State) (t : Nat) : TilePwr := s.pwr.tiles.getD t {}

/-- A compute tile's power state changed. -/
def State.setTilePwr (s : State) (t : Nat) (f : TilePwr → TilePwr) : State :=
  s.setPwr fun p => { p with tiles := p.tiles.upd t {} f }

/-! ## Points (R352–R355) -/

/-- ENGCLK of an operating point in MHz (Table 15.2). -/
def pointMHz (p : Nat) : Nat := [1700, 1600, 1500, 1400, 1200, 1000, 800, 400].getD p 400

/-- The phase point of a tile (R354). -/
def State.phasePoint (s : State) (t : Nat) : Nat := s.cfg .pwrPhaseOp (s.tilePwr t).phase 0 3

/-- The fastest ENGCLK that a job in the tile's queue asks for (R355). -/
def State.queueMHz (s : State) (t : Nat) : Nat :=
  ((s.queue t).filterMap fun q => (s.prog? q.ctx).map ProgSt.engclk).foldl max 0

/-- The slowest point whose frequency is at least `mhz`. -/
def slowestFor (mhz : Nat) : Nat := ([7, 6, 5, 4, 3, 2, 1, 0].find? fun p => decide (mhz ≤ pointMHz p)).getD 0

/-- The target point: the slower of the demand point and the thermal point (R355). -/
def State.targetPoint (s : State) (t : Nat) : Nat :=
  let p := s.tilePwr t
  let demand := match p.raised with
    | some r => if s.cfg .pwrCfg 0 0 1 = 1 then min r (s.phasePoint t) else s.phasePoint t
    | none => s.phasePoint t
  max demand p.thermal

/-- A new target starts a change, replaces that of one in progress, or reverses its slew (R353). -/
def State.retarget (s : State) (t : Nat) : State :=
  let x := s.targetPoint t
  let p := s.tilePwr t
  if x = p.target then s
  else s.setTilePwr t fun p => { p with target := x, changing := true, ready := decide (p.op < x) }

/-- Every tile's target follows its phase, demand and thermal points. -/
def State.retargetAll (s : State) : State := (List.range 8).foldl State.retarget s

/-- The voltage slew and the synthesiser of a change are done (R353); a downward slew waits for its droop response to end
(R358). -/
def State.slewComplete (s : State) (t : Nat) : State :=
  let p := s.tilePwr t
  if !p.changing then s
  else if p.target = p.op then
    (if s.pwr.droops.contains t then s else s.setTilePwr t fun p => { p with changing := false, ready := false })
  else if p.target < p.op then s.setTilePwr t fun p => { p with ready := true }
  else s

/-- The boundary at which a switch is due: the clock switches, or the switch is deferred by droop (R353, R358). -/
def State.freqSwitch (s : State) (t : Nat) : State :=
  let p := s.tilePwr t
  if !p.changing || !p.ready || p.target == p.op then s
  else if s.pwr.droops.contains t then
    let n := p.deferred + 1
    let s := (s.bump .pwrFreqDefer t).setTilePwr t fun p => { p with deferred := n % 64 }
    if n = 64 then s.event 2 0x0A 0x0014 (leBytes 1 t ++ leBytes 1 p.target) else s
  else
    (s.bump .pwrFreqChanges t).setTilePwr t fun p =>
      { p with op := p.target, ready := false, deferred := 0, changing := decide (p.op < p.target) }

/-- PWR.PHASE takes effect (R354). -/
def State.setPhase (s : State) (phase mask : Nat) : State :=
  (bitMembers 8 mask).foldl (fun (s : State) t => (s.setTilePwr t fun p => { p with phase := phase }).retarget t) s

/-- Demand raising at a boundary: a queue that holds a job faster than the phase point raises the tile's demand; a queue
that holds none grows quiet (R355; DEDUCED, log entry 31). -/
def State.demandTick (s : State) : State :=
  (List.range 8).foldl (fun (s : State) t =>
    let mhz := s.queueMHz t
    if s.cfg .pwrCfg 0 0 1 = 1 ∧ pointMHz (s.phasePoint t) < mhz then
      s.setTilePwr t fun p => { p with raised := some (slowestFor mhz), quiet := 0 }
    else s.setTilePwr t fun p => { p with quiet := p.quiet + 1 }) s

/-- Sixteen ticks without a faster job: the demand point returns to the phase point. -/
def State.demandRelease (s : State) (t : Nat) : State :=
  let p := s.tilePwr t
  if p.raised.isSome && decide (16 ≤ p.quiet) then (s.setTilePwr t fun p => { p with raised := none }).retarget t else s

/-! ## Droop (R357) -/

/-- A droop response begins in an ENGCLK domain. -/
def State.droopOn (s : State) (d : Nat) : State :=
  if s.pwr.droops.contains d then s
  else (s.setPwr fun p => { p with droops := d :: p.droops }).bump .pwrDroopEvents d

/-- A droop response ends. -/
def State.droopOff (s : State) (d : Nat) : State := s.setPwr fun p => { p with droops := p.droops.filter (· != d) }

/-! ## Capping (R359–R362) -/

/-- The cap in force: the limit, or 1,500 W while a hold of R363 or R366 stands. -/
def State.effectiveW (s : State) : Nat :=
  let l := s.cfg .pwrCap 0 0 11
  if s.pwr.hubHot || s.pwr.coolantLow then min l 1500 else l

/-- Engines of a tile that hold a running job. -/
def State.busyIn (s : State) (t : Nat) : Nat := ((tileEngines t).filter fun k => (s.engine k).running.isSome).length

/-- Busy engines of the device. -/
def State.busy (s : State) : Nat := ((List.range 8).map s.busyIn).sum

/-- `n` divided in proportion to weights; the remainder goes one each to the largest remainders, in rotating order from
`from_` between equal ones (R360). -/
def apportion (n from_ : Nat) (ws : List Nat) : List Nat :=
  let total := ws.sum
  if total = 0 then ws.map fun _ => 0
  else
    let base := ws.map fun w => n * w / total
    let rems := ws.map fun w => n * w % total
    let order := (rotated ws.length from_).mergeSort fun a b => decide (rems.getD b 0 ≤ rems.getD a 0)
    let extra := order.take (n - base.sum)
    base.zipIdx.map fun bi => if extra.contains bi.2 then bi.1 + 1 else bi.1

/-- P_ctl of R360 and R361, or of R52 where the controller's work came late. -/
def State.pCtl (s : State) (x : PowerSample) : Nat :=
  let trusted := s.cfg .pwrCapCfg 0 17 8
  let untrusted := s.cfg .pwrCapCfg 0 25 8
  if x.late then (if s.pwr.trusted then s.pwr.est else s.pwr.meas) + untrusted
  else if s.pwr.trusted then x.est + trusted
  else x.meas + untrusted

/-- n(T + 1) of R360. -/
def State.bubblesFor (s : State) (ctl busy w : Nat) : Nat :=
  let eff := s.effectiveW
  let gain := s.cfg .pwrCapCfg 0 0 10
  let hyst := s.cfg .pwrCapCfg 0 10 7
  if w = 0 then (if eff < ctl then busy else 0)
  else if eff < ctl then min busy (s.pwr.n + ceilDiv (gain * (ctl - eff) * 1000) (256 * w))
  else if ctl + hyst < eff then s.pwr.n - gain * (eff - ctl) * 1000 / (256 * w)
  else s.pwr.n

/-- The comparison of estimate and measurement of one tick (R361). -/
def State.judgeEstimate (s : State) (x : PowerSample) : State :=
  let est := s.pwr.est
  let gap := max est x.meas - min est x.meas
  let off := decide (s.cfg .pwrEstCfg 0 0 7 * x.meas < gap * 100)
  let near := decide (gap * 100 ≤ 10 * x.meas)
  s.setPwr fun p => { p with disagree := if off then p.disagree + 1 else 0, agree := if near then p.agree + 1 else 0 }

/-- The power controller's work of a tick: the sample is judged and the bubbles of the next tick decided (R360). -/
def State.powerTick (s : State) (x : PowerSample) : State :=
  let ctl := s.pCtl x
  let busy := s.busy
  let n := s.bubblesFor ctl busy x.engine
  let unmet := decide (n = busy) && decide (s.effectiveW < ctl)
  let s := if x.late then s else s.judgeEstimate x
  let ws := if s.pwr.trusted then x.tiles ++ List.replicate (8 - x.tiles.length) 0
            else (List.range 8).map fun t => b2n (s.busyIn t != 0)
  let parts := apportion n s.pwr.rotate (ws.take 8)
  let s := (List.range 8).foldl (fun (s : State) t => s.setTilePwr t fun p => { p with next := parts.getD t 0 }) s
  let s := s.setPwr fun p => { p with
    n := n, rotate := (p.rotate + 1) % 8, unmet := unmet, unmetRun := if unmet then p.unmetRun + 1 else 0,
    measBefore := if x.late then p.measBefore else p.meas, meas := if x.late then p.meas else x.meas,
    est := if x.late then p.est else x.est }
  let s := if unmet then s.bump .pwrCapUnmet else s
  if s.pwr.unmetRun = 16 then
    (s.setPwr fun p => { p with unmetRun := 0 }).event 2 0x0A 0x0013
      (leBytes 2 ctl ++ leBytes 2 s.effectiveW ++ leBytes 2 n)
  else s

/-- The bubbles decided in the last tick fall on engines that hold an assigned job, the lowest first (R208, R360; DESIGN
CHOICE, log entry 32). -/
def State.applyBubbles (s : State) : State :=
  (List.range 8).foldl (fun (s : State) t =>
    let n := (s.tilePwr t).next
    let s := s.setTilePwr t fun p => { p with bubbles := n }
    let ready := (tileEngines t).filter fun k => (s.engine k).assigned.isSome && (s.engine k).running.isNone
    let hit := ready.take n
    let s := if hit.isEmpty then s else s.bump .pwrBubbles t hit.length
    ((tileEngines t).filter fun k => (s.engine k).bubbled != hit.contains k).foldl (fun (s : State) k =>
      s.setEngine k fun e => { e with bubbled := hit.contains k }) s) s

/-- More than disagree_ticks of disagreement: the estimator is marked untrusted (R361). -/
def State.distrust (s : State) : State :=
  if !s.pwr.trusted || decide (s.pwr.disagree ≤ s.cfg .pwrEstCfg 0 7 8) then s
  else
    let s := (s.setPwr fun p => { p with trusted := false, agree := 0 }).bump .pwrUntrusted
    let level := s.cfg .pwrEstCfg 0 15 2
    let s := if 1 ≤ level then
        s.event 2 0x0A 0x0012 (leBytes 1 0 ++ zeros 1 ++ leBytes 2 s.pwr.est ++ leBytes 2 s.pwr.meas) else s
    if level = 2 then s.report { cls := 21 } else s

/-- retrust_ticks of agreement: the estimate is trusted again (R361). -/
def State.retrust (s : State) : State :=
  if s.pwr.trusted || decide (s.pwr.agree < s.cfg .pwrEstCfg 0 17 11) then s
  else
    (s.setPwr fun p => { p with trusted := true, disagree := 0 }).event 1 0x0A 0x0012
      (leBytes 1 1 ++ zeros 1 ++ leBytes 2 s.pwr.est ++ leBytes 2 s.pwr.meas)

/-! ## Heat (R363–R366) -/

/-- The junction sensors of a tile pair (Table 17.1). -/
def pairSensors (t : Nat) : List Nat := rangeFrom (4 * t) 4 ++ rangeFrom (32 + 4 * t) 4

/-- The last reading of a sensor, in 1/16 °C. -/
def State.junction (s : State) (i : Nat) : Int := s.pwr.junction.getD i 0

/-- The hottest sensor of a tile pair. -/
def State.hottest (s : State) (t : Nat) : Nat :=
  (pairSensors t).foldl (fun b i => if s.junction b < s.junction i then i else b) (4 * t)

/-- Two's complement in 16 bits. -/
def word16 (i : Int) : Nat := (i % 65536).toNat

/-- The readings of a sample are kept; the pairs, the hub and the packages are judged (R363). -/
def State.thermalSample (s : State) (xs : List (Nat × Int)) : State :=
  let js := xs.filter fun x => decide (x.1 < 68)
  let s := js.foldl (fun (s : State) x => s.setPwr fun p => { p with
    junction := p.junction.set x.1 x.2
    trips := p.trips.set x.1 (if decide ((1760 : Int) ≤ x.2) then NMap.getD p.trips x.1 0 + 1 else 0) }) s
  let s := (List.range 8).foldl (fun (s : State) t =>
    let hot := (pairSensors t).any fun i => decide (95 * 16 ≤ s.junction i)
    let cool := (pairSensors t).all fun i => decide (s.junction i < 92 * 16)
    s.setTilePwr t fun p => { p with
      hot := hot, cool := cool, hotAge := if hot && p.hot then p.hotAge else 0,
      coolAge := if cool && p.cool then p.coolAge else 0, ncuHalf := if hot then true else if cool then false else p.ncuHalf }) s
  let hubHot := (rangeFrom 64 4).any fun i => decide (95 * 16 ≤ s.junction i)
  let hubCool := (rangeFrom 64 4).all fun i => decide (s.junction i < 92 * 16)
  let s := s.setPwr fun p => { p with hubHot := if hubHot then true else if hubCool then false else p.hubHot }
  (xs.filter fun x => decide (68 ≤ x.1) && decide (x.1 < 84) && decide ((105 : Int) < x.2)).foldl (fun (s : State) x =>
    s.report { cls := 9, master := masterId 4 ((x.1 - 68) / 2) ((x.1 - 68) % 2 * 8), detail := x.1 }) s

/-- A thermal point steps: slower every 256 ticks while hot, faster every 1,024 ticks while cool (R363). -/
def State.thermalStep (s : State) (t : Nat) : State :=
  let p := s.tilePwr t
  let slower := p.hot && decide (256 ≤ p.hotAge) && decide (p.thermal < 7)
  let faster := p.cool && decide (1024 ≤ p.coolAge) && decide (0 < p.thermal)
  if !slower && !faster then s
  else
    let x := if slower then p.thermal + 1 else p.thermal - 1
    let i := s.hottest t
    let s := (s.setTilePwr t fun p => { p with thermal := x, hotAge := 0, coolAge := 0 }).bump .pwrThermalSteps t
    let s := (s.event 2 0x0A 0x0015 (leBytes 1 t ++ leBytes 1 x ++ leBytes 2 i ++ leBytes 2 (word16 (s.junction i)))).retarget t
    if slower then s.report { cls := 22, detail := i } else s

/-- The thermal timers advance by a tick. -/
def State.thermalTick (s : State) : State :=
  s.setPwr fun p => { p with tiles := NMap.mapV p.tiles fun _ x => { x with
    hotAge := if x.hot then x.hotAge + 1 else 0, coolAge := if x.cool then x.coolAge + 1 else 0 } }

/-- The coolant is in range (R348, R365): inlet in 1/16 °C, flow in mL/min. -/
def coolantOk (inlet : Int) (flow : Nat) : Bool := decide (15 * 16 ≤ inlet) && decide (inlet ≤ 45 * 16) && decide (2000 ≤ flow)

/-- The coolant has been out of range for 1 s in service: the hold of R366. -/
def State.coolantHold (s : State) (inlet : Int) (flow : Nat) : State :=
  if s.boot.phase < 4 ∨ s.boot.phase = 15 ∨ s.pwr.coolantLow ∨ ¬(45 * 16 < inlet ∨ flow < 2000) then s
  else
    ((s.setPwr fun p => { p with coolantLow := true }).event 2 0x0A 0x0016
      (leBytes 1 1 ++ zeros 1 ++ leBytes 2 (word16 inlet) ++ leBytes 2 flow)).report { cls := 23 }

/-- 60 s back in range release it. -/
def State.coolantRelease (s : State) (inlet : Int) (flow : Nat) : State :=
  if !s.pwr.coolantLow || decide (45 * 16 < inlet) || decide (flow < 2000) then s
  else
    (s.setPwr fun p => { p with coolantLow := false }).event 1 0x0A 0x0016
      (leBytes 1 0 ++ zeros 1 ++ leBytes 2 (word16 inlet) ++ leBytes 2 flow)

end Sys2Proof.Machine
end

