-- ==== Sys2Proof/Machine/Bringup.lean ====
section
/-! DEFINITION. Phases, the sequencer and resets (chapters 14 and 15): what each reset keeps and loses, the up and the down
order, boot, memory, carving. -/

namespace Sys2Proof.Machine

abbrev Phase.reset : Nat := 0
abbrev Phase.boot : Nat := 1
abbrev Phase.standby : Nat := 2
abbrev Phase.powering : Nat := 3
abbrev Phase.memory : Nat := 4
abbrev Phase.uncarved : Nat := 5
abbrev Phase.carved : Nat := 6
abbrev Phase.planned : Nat := 7
abbrev Phase.linking : Nat := 8
abbrev Phase.service : Nat := 9
abbrev Phase.failed : Nat := 15

/-- Bring-up state changed. -/
def State.setBoot (s : State) (f : BootSt → BootSt) : State := { s with boot := f s.boot }

/-- A phase is entered; the change is logged (R337). -/
def State.enter (s : State) (p : Nat) (reason : Nat := 0) : State :=
  let old := s.boot.phase
  (s.setBoot fun b => { b with phase := p, failReason := reason }).event 0 0x0C 0x0010
    (leBytes 1 old ++ leBytes 1 p ++ leBytes 1 reason)

/-! ## What resets keep (Table 14.5) -/

/-- A register's words are counters that a read clears. -/
def Reg.isCounter (r : Reg) : Bool := r.info.fields.any fun f => f.access == .rc || f.access == .rr

/-- The stored words that a data-plane reset keeps: the settings, with tick_enable cleared; RC counters are cleared
(DEDUCED for settings that Table 14.5 does not name, log entry 34). -/
def State.keptRegs (s : State) : NMap Nat :=
  (s.regs.filter fun kv => !(Reg.all.any fun r => r.isCounter && r.ctorIdx == kv.1 / 8192)).map fun kv =>
    if kv.1 = Reg.tickConfig.key 0 then (kv.1, setField kv.2 10 1 0) else kv

/-- Commands in flight whose objects a data-plane reset takes away complete with ABORTED; a lower reset that it supersedes
completes with OK (R342; DESIGN CHOICE, log entry 37). -/
def lostWait (c : Ctx) : Ctx :=
  match c.state with
  | .waiting => c
  | .started (.tick _) => c
  | .started .dpReset => c
  | .started (.object _) => c
  | .started .inject => c
  | .started (.tile _) => { c with state := .started (.lost Status.ok) }
  | .started (.func _ j) => if j = 65535 then c else { c with state := .started (.lost Status.ok) }
  | .started _ => { c with state := .started (.lost Status.aborted) }

/-- The SR generators are loaded from the hardware random source (R181). -/
def State.reseed (s : State) : State :=
  { s with eng := { s.eng with
      seed := none
      draws := []
      reseeds := s.eng.reseeds + 1 } }

/-- What is left of the module when the data plane is reset (Table 14.5): the phase and boot_epoch are the caller's. Every port,
also one that had FAILED, is DISABLED until lanes are enabled again, as Table 14.5 says, where Table 3.4 says DETECT, and
PORT_MODE may be written until then (DESIGN CHOICE, log entries 63 and 72). -/
def State.withoutData (s : State) : State :=
  { State.reset with
    pending := s.pending
    fresh := s.fresh
    out := s.out
    regs := s.keptRegs
    sw := { State.reset.sw with reserve := s.sw.reserve }
    link := { State.reset.link with
      lanes := s.mgt.lanes.map (fun n => (n, { retired := true }))
      lsms := NMap.mapV s.link.lsms (fun _ l => { l with lit := false, draining := none, warming := false }) }
    boot := s.boot
    flt := { s.flt with
      todo := []
      remap := []
      injection := none
      channels := NMap.mapV s.flt.channels (fun _ c => { c with
        migrating := false, unmoved := 0, winCe := 0, winUe := 0 }) }
    mgt := s.mgt
    host := { s.host with
      jobs := []
      ending := []
      ended := []
      disables := s.host.disables.filter (fun d => d.job == 65535)
      ctxs := s.host.ctxs.map lostWait }
    topo := { State.reset.topo with plan := s.topo.plan, seed := s.topo.seed }
    pool := { s.pool with setts := [], binds := [], pointer := [], low := [] }
    eng := { State.reset.eng with
      engines := s.mgt.engines.map (fun n => (engineKey n, { state := 4, fault := s.mgt.engineFaults.contains n })),
      reseeds := s.eng.reseeds }
    pwr := { State.reset.pwr with
      junction := s.pwr.junction, trips := s.pwr.trips, coolantLow := s.pwr.coolantLow, hubHot := s.pwr.hubHot } }

/-- The latest of UNCARVED, CARVED and PLANNED whose work is kept (R339). -/
def State.keptPhase (s : State) : Nat :=
  if s.boot.carving.isNone then Phase.uncarved
  else if s.topo.plan.isNone then Phase.carved else Phase.planned

/-- A data-plane reset begins: MEMORY without retraining, boot_epoch one higher (R339). The safe state ends when the kept
phase is entered. -/
def State.dataPlaneReset (s : State) : State :=
  let k := s.keptPhase
  (s.withoutData.restartPlan.setBoot fun b => { b with kept := some k, epoch := b.epoch + 1 }).enter Phase.memory

/-! ## The down order (R349) -/

/-- The rails of the running down order are off. -/
def State.downDone (s : State) : State :=
  let s := s.setBoot fun b => { b with downStep := none, upStep := 0, railsOff := [] }
  let s := { s with mgt := { s.mgt with auxRails := false } }
  if s.boot.phase = Phase.reset ∧ s.boot.resetN ∧ s.boot.aux ∧ ¬s.boot.reversed then
    s.setBoot fun b => { b with phase := Phase.boot }
  else s

/-- POWER_GOOD falls and the down order starts from the highest step raised; with no rail up it is over at once. -/
def State.startDown (s : State) : State :=
  let s := s.setBoot fun b => { b with powerGood := false, hostPowered := false }
  if s.boot.downStep.isSome then s
  else if s.boot.upStep = 0 then s.downDone
  else s.setBoot fun b => { b with downStep := some b.upStep }

/-- The rails of one step are down (R349). -/
def State.downOrderStep (s : State) (k : Nat) : State :=
  if s.boot.downStep = some k then
    (if k ≤ 1 then s.downDone else s.setBoot fun b => { b with downStep := some (k - 1) })
  else s

/-! ## Module resets (R338, R339, R342) -/

/-- A capture written to the persistent log regardless of the rate (R376, R396). -/
def State.saveCapture (s : State) (c : Capture) : State :=
  let e : Event := { seq := s.mgt.seq, stamp := c.stamp, severity := if c.safe then 4 else 3, source := 0x0B,
                     code := 0x0100 + c.cls, master := c.master, epoch := s.boot.epoch % 2 ^ 32, data := c.bytes }
  { s with mgt := { s.mgt with seq := s.mgt.seq + 1 } }.logPersist e

/-- Every capture held. -/
def State.saveCaptures (s : State) : State := (s.flt.top.toList ++ s.flt.captures.vals).foldl State.saveCapture s

/-- What a module reset leaves: AUX-powered storage, and the pins. -/
def State.withoutModule (s : State) : State :=
  { State.reset with
    pending := s.pending
    fresh := s.fresh
    out := s.out
    boot := { State.reset.boot with
      epoch := s.boot.epoch, aux := s.boot.aux, resetN := s.boot.resetN, refclk := s.boot.refclk, vin := s.boot.vin,
      reversed := s.boot.reversed,
      coolOk := s.boot.coolOk, upStep := s.boot.upStep, downStep := s.boot.downStep, tap := s.boot.tap }
    link := { State.reset.link with
      lsms := NMap.mapV s.link.lsms (fun _ l => { latchOpen := l.latchOpen, ident := l.ident, refused := l.refused }) }
    mgt := { State.reset.mgt with
      plog := s.mgt.plog, seq := s.mgt.seq, tokens := s.mgt.tokens, slotA := s.mgt.slotA, slotB := s.mgt.slotB,
      trial := s.mgt.trial, floor := s.mgt.floor, revoked := s.mgt.revoked, lanes := s.mgt.lanes,
      engines := s.mgt.engines, engineFaults := s.mgt.engineFaults, channels := s.mgt.channels,
      restores := s.mgt.restores, auxRails := s.mgt.auxRails,
      auxTrip := s.mgt.auxTrip }
    eng := { State.reset.eng with reseeds := s.eng.reseeds } }

/-- A module reset begins: the phase change and every capture are logged, transmitters dark, POWER_GOOD low, the down
order; the module is in RESET (R337). `tripped`: a thermal trip holds the FAULT pair until AUX loss or RESET (R377). -/
def State.moduleReset (s : State) (tripped : Bool := false) : State :=
  let s := (s.event 0 0x0C 0x0010 (leBytes 1 s.boot.phase)).saveCaptures.withoutModule
  { s with flt := { s.flt with tripped := tripped } }.startDown

/-! ## STANDBY and POWERING (R327, R329, R345–R348) -/

/-- A phase of failure: the host ports are dark, and the rails go down where the reason is 2 (R350, Table 14.3). -/
def State.fail (s : State) (reason : Nat) : State :=
  let s := (s.enter Phase.failed reason).setBoot fun b => { b with hostPowered := false }
  if reason = 2 then s.startDown else s

/-- A sequencing fault in POWERING (R350). -/
def State.sequencingFault (s : State) (rail : Option Nat) : State :=
  if s.boot.phase ≠ Phase.powering then s
  else
    let s := match rail with
      | some r => s.bump .pwrRailFault r
      | none => s
    (s.fail 2).report { cls := 21, detail := rail.getD 0 }

/-- 44 V and REFCLK are there: POWERING, after the check of R348. -/
def State.qualify (s : State) : State :=
  if s.boot.phase ≠ Phase.standby ∨ ¬s.boot.vin ∨ ¬s.boot.refclk ∨ s.boot.downStep.isSome then s
  else
    let s := (s.setBoot fun b => { b with refclkMissing := false }).enter Phase.powering
    if s.boot.coolOk then { s with mgt := { s.mgt with auxRails := true } } else s.sequencingFault none

/-- STANDBY is entered: boot_epoch one higher, the AUX domain's flags reported, the wait for REFCLK (R329, R346, R364). -/
def State.standby (s : State) : State :=
  let s := (s.setBoot fun b => { b with epoch := b.epoch + 1 }).enter Phase.standby
  let s := if s.mgt.auxRails && s.boot.upStep == 0 then
      { s with mgt := { s.mgt with auxRails := false } }.event 4 0x0A 0x0011 [] else s
  let s := match s.mgt.auxTrip with
    | some x => { s with mgt := { s.mgt with auxTrip := none } }.event 4 0x0A 0x0017 (leBytes 2 x.1 ++ leBytes 2 x.2)
    | none => s
  let s := if s.boot.refclk then s
    else (s.setBoot fun b => { b with refclkMissing := true }).event 2 0x0A 0x0018 []
  s.qualify

/-- RESET is left for BOOT where RESET_N is high, AUX_3V3 in range, the 44 V polarity right (R428) and no down order runs. -/
def State.leaveReset (s : State) : State :=
  if s.boot.phase = Phase.reset ∧ s.boot.resetN ∧ s.boot.aux ∧ ¬s.boot.reversed ∧ s.boot.downStep.isNone then
    s.setBoot fun b => { b with phase := Phase.boot }
  else s

/-- RESET_N has been low for 10 µs. -/
def State.resetLow (s : State) : State := (s.setBoot fun b => { b with resetN := false }).moduleReset

/-- The polarity of the 44 V contacts is found right or reversed; once it is corrected RESET can be left (R428). -/
def State.polarity (s : State) (reversed : Bool) : State :=
  if s.boot.reversed == reversed then s else (s.setBoot fun b => { b with reversed := reversed }).leaveReset

/-- The 44 V input has been in range for 10 ms. -/
def State.vinQualified (s : State) (inlet : Int) (flow : Nat) (junctions : List (Nat × Int)) : State :=
  let ok := coolantOk inlet flow && junctions.all fun x => decide (x.2 ≤ 70 * 16)
  if !s.boot.aux then s
  else
    ((s.polarity false).setBoot fun b => { b with vin := true, coolOk := ok }).qualify

/-- The rails of an up step are good (R347); with step 11 good POWER_GOOD rises and MEMORY is entered. -/
def State.railStepGood (s : State) (k : Nat) : State :=
  if s.boot.phase ≠ Phase.powering ∨ k ≠ s.boot.upStep + 1 then s
  else
    let s := s.setBoot fun b => { b with upStep := k }
    if k = 11 then (s.setBoot fun b => { b with powerGood := true, hostPowered := true }).enter Phase.memory else s

/-- The 44 V input has left its range in or after POWERING: the data plane is lost and the module falls back to STANDBY
(R345, Table 14.1): what a data-plane reset keeps is kept (Table 14.5), but the channels are trained again. -/
def State.inputLost (s : State) (centivolts cause : Nat) : State :=
  if s.boot.phase < Phase.powering ∨ s.boot.phase = Phase.failed then
    s.setBoot fun b => { b with vin := false }
  else
    let s := s.event 3 0x0A 0x0010 (leBytes 2 centivolts ++ leBytes 1 cause)
    let s := s.withoutData.restartPlan
    let s := { s with flt := { s.flt with safe := none } }
    let s := (s.setBoot fun b => { b with vin := false, kept := none }).startDown
    s.standby

/-- The rail of a compute tile's engines (Table 15.1 in order: 15 to 22). -/
def engineRail (r : Nat) : Option Nat := if 15 ≤ r ∧ r ≤ 22 then some (r - 15) else none

/-- A rail fault in service (R351). -/
def State.railFault (s : State) (r : Nat) : State :=
  if s.boot.phase < Phase.memory ∨ s.boot.phase = Phase.failed then s
  else
    let fault := fun (s : State) => (s.bump .pwrRailFault r).report { cls := 21, detail := r }
    match engineRail r with
    | some t =>
      let s := fault s
      ((s.setBoot fun b => { b with railsOff := if b.railsOff.contains t then b.railsOff else t :: b.railsOff }
        ).setTilePwr t fun p => { p with railOff := true }).stopTile t
    | none => (fault s.withoutData).fail 2

/-- RESET.TILE powers the rail again, once (R351). -/
def State.repower (s : State) (t : Nat) : State :=
  if (s.tilePwr t).railOff then
    (s.setBoot fun b => { b with railsOff := b.railsOff.filter (· != t) }).setTilePwr t fun p =>
      { p with railOff := false, railAgain := true }
  else s

/-! ## Pins (R327, R346, R434, R435) -/

/-- RESET_N has been high for 10 µs. -/
def State.resetHigh (s : State) : State := (s.setBoot fun b => { b with resetN := true }).leaveReset

/-- AUX_3V3 comes into range. -/
def State.auxUp (s : State) : State := (s.setBoot fun b => { b with aux := true }).leaveReset

/-- AUX_3V3 is lost: everything not persistent goes; with rails up it is an uncontrolled power-down (R346). -/
def State.auxDown (s : State) : State :=
  let s := s.withoutModule
  s.setBoot fun b => { b with aux := false, vin := false, upStep := 0, downStep := none }

/-! ## Boot and memory (R329, R330, R402) -/

/-- The boot ROM's checks end. -/
def State.bootChecked (s : State) (reported : Nat) : State :=
  if s.boot.phase ≠ Phase.boot then s
  else
    let s := s.endTrialAtBoot
    let r := s.bootTry reported s.bootOrder
    match r.1 with
    | none => r.2.2.setBoot fun b => { b with phase := Phase.failed, failReason := 1 }
    | some k =>
      let s := (r.2.2.setBoot fun b => { b with slot := k }).standby
      let s := r.2.1.foldl (fun (s : State) x => s.event 2 0x0C 0x0013 (leBytes 1 x.1 ++ zeros 1 ++ leBytes 2 x.2)) s
      let m := s.mgt.running
      s.event 0 0x0C 0x0012 (leBytes 1 k ++ leBytes 1 m.major ++ leBytes 1 m.minor ++ zeros 1 ++ leBytes 2 m.build ++
        leBytes 2 m.version ++ leBytes 1 (b2n s.mgt.trial.isSome))

/-- Lane and engine retirements of the persistent log are applied again (R330 step 4). -/
def State.reapply (s : State) : State :=
  let s := s.mgt.lanes.foldl (fun (s : State) n => s.setLane n fun l => { l with retired := true }) s
  s.mgt.engines.foldl (fun (s : State) n => s.setEngine (engineKey n) fun e => { e with
    state := 4, fault := s.mgt.engineFaults.contains n }) s

/-- Channels marked for restoration are in service again. -/
def State.restoreChannels (s : State) : State :=
  let rs := s.mgt.restores
  let s := { s with mgt := { s.mgt with channels := s.mgt.channels.filter (fun c => !rs.contains c), restores := [] } }
  rs.foldl (fun (s : State) c => s.setChannel c fun x => { x with retired := false, restorePending := false }) s

/-- A channel that failed training is retired (R330 step 1). -/
def State.trainingFailed (s : State) (c : Nat) : State :=
  ((s.recordChannel c).setChannel c fun x => { x with retired := true }).event 2 0x0B 0x0010
    (leBytes 1 c ++ leBytes 1 2 ++ zeros 2 ++ leBytes 4 0)

/-- MEMORY ends (R330, R339). -/
def State.memoryDone (s : State) (failedChannels : List Nat) (sramFailed : Bool) (failedEngines : List Nat) : State :=
  if s.boot.phase ≠ Phase.memory then s
  else
    let next := s.keptPhase
    let s := s.restoreChannels
    let bad := if s.boot.kept.isSome then [] else (failedChannels.filter fun c => !s.mgt.channels.contains c).dedup
    let s := bad.foldl State.trainingFailed s
    let s := s.mgt.channels.foldl (fun (s : State) c => s.setChannel c fun x => { x with retired := true }) s
    let s := s.setBoot fun b => { b with channelsFailed := if b.kept.isSome then b.channelsFailed else bad.length }
    if bits (s.reg .mgtBringupCfg) 4 0 < bad.length then s.fail 3
    else if sramFailed then s.fail 4
    else
      let s := s.reapply
      let s := failedEngines.foldl (fun (s : State) n => s.engineTestFailed (engineKey n)) s
      let s := { s.reseed with mem := [], undef := [] }
      let s := { s with flt := { s.flt with safe := none, safeLevel := 0 } }
      let s := (s.setBoot fun b => { b with kept := none }).enter next
      let s := if next = Phase.uncarved then s.retargetAll else s.retargetAll.assignSubstitutes
      if next = Phase.uncarved then s.trialEnd else s

/-! ## Carving (R331) -/

/-- The refusal of SETUP.CARVE: status and detail. -/
def State.carveRefusal (s : State) (packet reduction staging stozil : Nat) : Option (Nat × Nat) :=
  if s.boot.phase < Phase.uncarved then some (Status.notReady, 0)
  else if packet < 2 ∨ 6 < packet ∨ 6 < reduction ∨ 4 < staging ∨ 1 < stozil then some (Status.descInvalid, 1)
  else if s.boot.phase ≠ Phase.uncarved then some (Status.opBusy, 0)
  else if packet + reduction + staging ≠ 8 then some (Status.descInvalid, 2)
  else if stozil = 1 ∧ reduction < 2 then some (Status.descInvalid, 3)
  else none

/-- The carving is laid out: default pools, P4 at the highest spans of usable memory, everything zero (R331). -/
def State.carve (s : State) (packet reduction staging stozil : Nat) : State :=
  let s := (s.setBoot fun b => { b with carving := some ⟨packet, reduction, staging, stozil == 1⟩ })
  let base := (s.usable / span - 1024) * span
  let s := { s with pool := { State.reset.pool with
    p1 := 4 * staging, p2 := 4 * staging, p3 := 8 * staging, modes := 0, p4count := 1024, p4base := base } }
  let s := (List.range 8).foldl (fun (s : State) k => s.clearMem (sramBase k) 0x08000000) s
  s.assignSubstitutes.enter Phase.carved

end Sys2Proof.Machine
end

