-- ==== Sys2Proof/Machine/Coll.lean ====
section
/-! DEFINITION. Collectives and in-network reduction (chapter 10): descriptors, chunk geometry, benches at the root and
in flight, results, endings. Barriers and fences (R103, R104). -/

namespace Sys2Proof.Machine

/-! ## Geometry (R93, R224, R226) -/

/-- Elements of a full segment (Table 4.7). -/
def segElems : Nat → Nat
  | 0 => 4096
  | 1 => 4096
  | 2 => 8192
  | 3 => 2048
  | 4 => 1024
  | _ => 512

/-- Payload bytes of a segment of `n` elements (R93). -/
def segBytes (fmt n : Nat) : Nat :=
  roundUp (elemBytes fmt n) 64 + (if isBlock fmt then roundUp (n / blockLen fmt) 64 else 0)

/-- The members' count M. -/
def CollDesc.members (d : CollDesc) : Nat := d.ranks.length

/-- Elements of a full chunk. -/
def CollDesc.chunkElems (d : CollDesc) : Nat :=
  let b := 2 ^ d.chunkLog2
  match d.fmt with
  | 2 => 2 * b
  | 3 => b / 2
  | 4 => b / 4
  | _ => b

/-- The chunk count C. -/
def CollDesc.chunks (d : CollDesc) : Nat := ceilDiv d.elements d.chunkElems

/-- Elements of chunk `c`, the last one rounded up to a multiple of 32. -/
def CollDesc.chunkLen (d : CollDesc) (c : Nat) : Nat :=
  min d.chunkElems (roundUp d.elements 32 - c * d.chunkElems)

/-- Segments of chunk `c` in a format. -/
def CollDesc.segs (d : CollDesc) (c fmt : Nat) : Nat := ceilDiv (d.chunkLen c) (segElems fmt)

/-- Elements of segment `g` of chunk `c` in a format. -/
def CollDesc.segLen (d : CollDesc) (c fmt g : Nat) : Nat := min (segElems fmt) (d.chunkLen c - g * segElems fmt)

/-- Slots of an instance: min(window, C). -/
def CollDesc.slots (d : CollDesc) : Nat := min d.window d.chunks

/-- The operation reduces (types 1 to 4). -/
def CollDesc.reduces (d : CollDesc) : Bool := decide (1 ≤ d.kind) && decide (d.kind ≤ 4)

/-- The full bitmap. -/
def CollDesc.full (d : CollDesc) : Nat := 2 ^ d.members - 1

/-- The chunks of member `j`'s shard: first and one past the last. -/
def CollDesc.shard (d : CollDesc) (j : Nat) : Nat × Nat :=
  (j * d.chunks / d.members, (j + 1) * d.chunks / d.members)

/-- The member whose shard holds chunk `c`. -/
def CollDesc.shardOwner (d : CollDesc) (c : Nat) : Nat :=
  ((List.range d.members).find? fun j => decide ((d.shard j).1 ≤ c) && decide (c < (d.shard j).2)).getD 0

/-- The element offset of each tensor (R224). -/
def tensorStarts : Nat → List (Nat × Nat) → List Nat
  | _, [] => []
  | a, t :: ts => a :: tensorStarts (a + roundUp t.1 32) ts

/-! ## Descriptors (R223–R225) -/

/-- The descriptor that an image spells. -/
def parseColl (b : List Byte) : CollDesc :=
  let m := getLE b 6 2
  let tOff := 64 + roundUp (2 * m) 64
  let flags := getLE b 4 1
  { kind := getLE b 0 1, fmt := getLE b 1 1, pfmt := getLE b 2 1, rfmt := getLE b 3 1, ring := bit flags 0,
    replay := bit flags 1, pathMerge := bit flags 2, rmode := bits flags 4 3, cls := getLE b 5 1 % 8,
    elements := getLE b 8 4, chunkLog2 := getLE b 12 1, window := getLE b 13 1, mergeWindow := getLE b 14 1,
    replayLimit := getLE b 15 1, root := getLE b 16 2, special := getLE b 18 2, group := getLE b 20 2,
    timeout := getLE b 24 4,
    ranks := (List.range m).map fun i => getLE b (64 + 2 * i) 2
    tensors := (List.range (getLE b 22 2)).map fun i => (getLE b (tOff + 16 * i) 4, getLE b (tOff + 16 * i + 4) 4) }

/-- Reason 1: the crc, the length, and every reserved field or value. -/
def collImageOk (b : List Byte) : Bool :=
  let d := parseColl b
  let m := getLE b 6 2
  let tOff := 64 + roundUp (2 * m) 64
  b.length == tOff + 16 * d.tensors.length && crcZeroAt b 60 == getLE b 60 4 &&
  decide (1 ≤ d.kind) && decide (d.kind ≤ 7) && decide (d.fmt ≤ 5) && decide (d.pfmt ≤ 5) && decide (d.rfmt ≤ 5) &&
  decide (getLE b 4 1 < 32) && d.rmode != 3 && decide (getLE b 5 1 < 8) && (b.drop 28).take 32 == zeros 32 &&
  ((b.take tOff).drop (64 + 2 * m)).all (· == 0) &&
  (List.range d.tensors.length).all (fun i => getLE b (tOff + 16 * i + 8) 8 == 0) &&
  (d.kind == 4 || d.tensors.all fun t => t.2 == 0)

/-- The block of a job with an ID on this module: its context. -/
def State.blockCtx (s : State) (job id : Nat) : Option Nat :=
  (s.parm.blocks.find? fun kv => kv.2.job == job && kv.2.id == id).map Prod.fst

/-- Reason 7 on the root of a type 4 operation (R225, R250): every block declared, with Ep elements. -/
def State.tensorsOk (s : State) (job : Nat) (d : CollDesc) : Bool :=
  d.tensors.all fun t =>
    match (s.blockCtx job t.2).bind s.parm.blocks.get? with
    | some b => b.ep == t.1 && !b.doomed
    | none => false

/-- The first reason of Table 10.5 that refuses an image. -/
def State.collRefusal (s : State) (job : Nat) (j : JobSt) (ctx : Nat) (b : List Byte) : Option Nat :=
  let d := parseColl b
  let m := d.members
  let total := (d.tensors.map fun t => roundUp t.1 32).sum
  if !collImageOk b then some 1
  else if d.fmt = 5 ∨ (d.pfmt ≠ 3 ∧ d.pfmt ≠ 4) ∨ (d.pfmt = 3 ∧ d.fmt = 4) ∨ (5 ≤ d.kind ∧ d.rfmt ≠ d.fmt) then some 2
  else if d.chunkLog2 < 12 ∨ 20 < d.chunkLog2 ∨ 256 < ceilDiv d.chunkElems (segElems d.pfmt) then some 3
  else if m = 0 ∨ 512 < m ∨ ¬ d.ranks.Nodup ∨ (d.ranks.any fun r => (j.addr r).isNone) then some 4
  else if d.tensors.length = 0 ∨ 256 < d.tensors.length ∨ 2 ^ 24 < d.chunks ∨
      (if d.kind = 7 then d.tensors.length ≠ 1 ∨ d.elements ≠ 0 else d.elements ≠ total) then some 5
  else if d.window = 0 ∨ 64 < d.window ∨ 64 < d.mergeWindow ∨ 7 < d.replayLimit then some 6
  else if ((s.topo.plan.bind fun pl => pl.node? d.root).isNone ∨
      (d.kind = 4 ∧ d.root = s.me ∧ !s.tensorsOk job d)) then some 7
  else if (if d.kind = 3 ∨ d.kind = 6 then m ≤ d.special else d.special ≠ 0xFFFF) then some 8
  else if d.kind = 7 ∧ 256 < ceilDiv ((d.tensors.headD (0, 0)).1) (segElems d.fmt) then some 9
  else if !j.inRange ctx ∨ d.cls = 7 then some 10
  else none

/-- The group's members of an operation (R225). -/
def CollDesc.receivers (d : CollDesc) (j : JobSt) : List (Nat × Nat) :=
  (d.ranks.zipIdx.filter fun ri => d.kind != 6 || ri.2 != d.special).filterMap fun ri => j.addr ri.1

/-- The operation has a multicast group. -/
def CollDesc.hasGroup (d : CollDesc) : Bool := d.kind == 1 || d.kind == 5 || d.kind == 6

/-! ## Contexts -/

/-- Collectives and barriers changed. -/
def State.setColl (s : State) (f : CollsSt → CollsSt) : State := { s with coll := f s.coll }

/-- An open operation changed. -/
def State.setOp (s : State) (ctx : Nat) (f : CollSt → CollSt) : State :=
  match s.coll.ops.get? ctx with
  | some c => s.setColl fun k => { k with ops := k.ops.set ctx (f c) }
  | none => s

/-- The running instance of an operation changed. -/
def State.setInst (s : State) (ctx : Nat) (f : InstSt → InstSt) : State :=
  s.setOp ctx fun c => { c with inst := c.inst.map f }

/-- The address of a member. -/
def State.memberAddr (s : State) (job : Nat) (d : CollDesc) (m : Nat) : Option (Nat × Nat) :=
  (s.host.jobs.get? job).bind fun j => (d.ranks[m]?).bind j.addr

/-- Member indices on a node. -/
def State.membersOn (s : State) (job : Nat) (d : CollDesc) (node : Nat) : List Nat :=
  (List.range d.members).filter fun m => ((s.memberAddr job d m).map Prod.fst) == some node

/-! ## Claims (R229, R233) -/

/-- The unit that sums a chunk, or for types 5 and 6 holds it: the reduction unit of its bench's tile. -/
def ChunkSt.master (c : ChunkSt) : Nat := masterId 3 (((c.benches.head?).map Prod.fst).getD (c.ctx % 8)) 0

/-- What a claim holds is given back. -/
def State.dropChunk (s : State) (c : ChunkSt) : State :=
  let s := (c.benches.foldl State.dropBench s).dropCtx c.ctx
  if c.req = 0 then s else (s.free c.master c.req c.sett).2

/-- Benches of a chunk. -/
def CollDesc.benches (d : CollDesc) : Nat := if d.reduces then max 1 (d.chunkElems * 8 / mib) else 0

/-- Bytes of the sett of a chunk: slice bitmaps, or the segments of types 5 and 6. -/
def CollDesc.settBytes (d : CollDesc) : Nat :=
  if d.reduces then 64 * ceilDiv d.chunkElems (segElems d.pfmt)
  else ceilDiv d.chunkElems (segElems d.fmt) * segBytes d.fmt (segElems d.fmt)

/-- The slices of a chunk, empty. -/
def CollDesc.freshSlices (d : CollDesc) (c : Nat) : List SliceSt :=
  if d.reduces then List.replicate (d.segs c d.pfmt) {} else []

/-- One chunk's claim of all three, or none with the status of the first failing part. -/
def State.claimChunk (s : State) (job : Nat) (d : CollDesc) (chunk kind : Nat) : (Nat ⊕ ChunkSt) × State :=
  let n := d.benches
  if s.freeBenches < n then (.inl Status.noBench, s)
  else
    match s.freeCtx with
    | none => (.inl Status.contextFull, s)
    | some ctx =>
      match s.takeBenches (ctx % 8) 0 kind n with
      | none => (.inl Status.noBench, s)
      | some (bs, s1) =>
        let tile := ((bs.head?).map Prod.fst).getD (ctx % 8)
        let r := s.requesterFor job (1 + tile)
        match s1.alloc (masterId 3 tile 0) r d.settBytes tile (!d.reduces) with
        | (some (a, _), _, s2) =>
          (.inr { chunk := chunk, ctx := ctx, benches := bs, sett := a, req := r, slices := d.freshSlices chunk },
           s2.useCtx ctx Use.chunk)
        | (none, st, s2) => (.inl st, bs.foldl State.dropBench s2)

/-- The claim of slot after slot: a failure gives back what the earlier ones hold. -/
def State.claimEach (s : State) (job : Nat) (d : CollDesc) : Nat → (Nat ⊕ List SlotRec) × State
  | 0 => (.inr [], s)
  | n + 1 =>
    match State.claimEach s job d n with
    | (.inl st, s1) => (.inl st, s1)
    | (.inr l, s1) =>
      match s1.claimChunk job d n 0 with
      | (.inl st, s2) => (.inl st, l.foldl (fun s x => s.dropChunk x.c) s2)
      | (.inr c, s2) => (.inr (l ++ [{ c := c }]), s2)

/-- The benches and then the contexts that a whole claim lacks (R233). -/
def State.claimLack (s : State) (d : CollDesc) (n : Nat) : Option Nat :=
  if s.freeBenches < n * d.benches then some Status.noBench
  else if (s.freeCtxs.map Prod.snd).sum < n then some Status.contextFull
  else none

/-- The root's claim for its slots, all or none: benches, then contexts, then the pool (R233). -/
def State.claimSlots (s : State) (job : Nat) (d : CollDesc) : (Nat ⊕ List SlotRec) × State :=
  match s.claimLack d d.slots with
  | some st => (.inl st, s)
  | none => s.claimEach job d d.slots

/-! ## Sums in a bench (R230, R231) -/

/-- The values that a segment's payload spells, with the decoder's overflows. -/
def decodeSeg (fmt n : Nat) (p : List Byte) : List (Num × Bool) :=
  (decodeVals fmt (p.take (elemBytes fmt n)) ((p.drop (roundUp (elemBytes fmt n) 64)).take (n / blockLen fmt))).take n

/-- check_sum and check_mag of R94: plain F32 sums from +0 in element order. -/
def plainChecks (xs : List F32) : F32 × F32 :=
  xs.foldl (fun a x => ((f32Add a.1 x).1, (f32Add a.2 (f32Abs x)).1)) (0, 0)

/-- The check pair of a part: sums by ADD_F32 rounded to F32 (R231). -/
def partChecks (xs : List F32) : F32 × F32 :=
  let r := xs.foldl (fun a x => ((addF32 a.1 x).1, (addF32 a.2 (f32Abs x)).1)) (((0, 0) : F32P), ((0, 0) : F32P))
  (pairF32 r.1, pairF32 r.2)

/-- The bench and index of an element of a chunk. -/
def ChunkSt.place (c : ChunkSt) (i : Nat) : (Nat × Nat) × Nat :=
  (c.benches.getD (8 * i / mib) (0, 0), i % (mib / 8))

/-- The pair of an element of a chunk. -/
def State.chunkPair (s : State) (c : ChunkSt) (i : Nat) : F32P := s.benchPair (c.place i).1 (c.place i).2

/-- Values added into a chunk's bench from element `at_` on, with the (kinds, row, column, group) raised. -/
def State.benchAdd (s : State) (c : ChunkSt) : Nat → List (Num × Bool) → List (Nat × Nat × Nat × Nat) × State
  | _, [] => ([], s)
  | i, v :: vs =>
    let q := addF32 (s.chunkPair c i) (numF32 v.1)
    let kinds := q.2 ||| (if v.2 then 4 else 0)
    let r := State.benchAdd (s.setBenchPair (c.place i).1 (c.place i).2 q.1) c (i + 1) vs
    (if kinds = 0 then r.1 else (kinds, c.chunk, i, 0xFFFFFFFF) :: r.1, r.2)

/-- What a frame brings to a chunk: its members, the first slice and the parts (checks and elements) of each slice in
turn. -/
structure Arrival where
  set : Nat
  first : Nat
  parts : List (F32 × F32 × List (Num × Bool))
  flushed : Nat
  deriving DecidableEq, Repr

/-- How a set stands to the bitmaps of the slices covered (R230). -/
inductive Standing where
  | disjoint
  | duplicate
  | overlap
  deriving DecidableEq, Repr

/-- The standing of a frame. -/
def ChunkSt.standing (c : ChunkSt) (a : Arrival) : Standing :=
  let maps := ((c.slices.drop a.first).take a.parts.length).map SliceSt.bitmap
  if maps.all fun b => b &&& a.set == 0 then .disjoint
  else if maps.all fun b => b &&& a.set == a.set then .duplicate
  else .overlap

/-- The slices after a frame is absorbed; its flush count goes to its first slice (DEDUCED, log entry 22). -/
def absorbSlices (a : Arrival) (slices : List SliceSt) : List SliceSt :=
  slices.zipIdx.map fun si =>
    if a.first ≤ si.2 then
      match a.parts[si.2 - a.first]? with
      | some p => { si.1 with
          bitmap := si.1.bitmap ||| a.set, sum := (f32Add si.1.sum p.1).1, mag := (f32Add si.1.mag p.2.1).1,
          flushed := si.1.flushed + (if si.2 = a.first then a.flushed else 0) }
      | none => si.1
    else si.1

/-- A frame absorbed into a chunk: what it raised, the chunk's record, the state. -/
def State.absorb (s : State) (d : CollDesc) (c : ChunkSt) (a : Arrival) :
    List (Nat × Nat × Nat × Nat) × ChunkSt × State :=
  let vals := a.parts.flatMap fun p => p.2.2
  let r := s.benchAdd c (a.first * segElems d.pfmt) vals
  (r.1, { c with slices := absorbSlices a c.slices }, r.2.bump .collAbsorbed)

/-- What a RED_CONTRIB or RED_PARTIAL holds for its chunk; none where its position, member set or length breaks the
descriptor. -/
def CollDesc.arrival (d : CollDesc) (f : Frame) : Option Arrival :=
  let chunk := f.hdr.position / 256
  let g := f.hdr.position % 256
  match f.extn with
  | none => none
  | some e =>
    if f.hdr.opcode = Op.redContrib then
      let n := d.segLen chunk d.fmt g
      if d.chunks ≤ chunk ∨ d.segs chunk d.fmt ≤ g ∨ d.members ≤ e.member ∨ e.format ≠ d.fmt ∨
          f.payload.length ≠ segBytes d.fmt n then none
      else
        let k := segElems d.pfmt
        let parts := (chunksOf k (decodeSeg d.fmt n f.payload)).map fun vs =>
          let q := partChecks (vs.map fun v => numF32 v.1)
          (q.1, q.2, vs)
        some { set := 2 ^ e.member, first := g * segElems d.fmt / k, parts := parts, flushed := e.flushed }
    else
      let n := d.segLen chunk d.pfmt g
      let set := getLE f.payload 0 64
      if d.chunks ≤ chunk ∨ d.segs chunk d.pfmt ≤ g ∨ set = 0 ∨ d.full < set ∨ e.format ≠ d.pfmt ∨
          f.payload.length ≠ 64 + segBytes d.pfmt n then none
      else some { set := set, first := g, flushed := e.flushed
                  parts := [(e.checkSum, e.checkMag, decodeSeg d.pfmt n (f.payload.drop 64))] }

/-- The checks of a contribution agree with its elements (R231); a partial's are used as received. -/
def CollDesc.checksOk (d : CollDesc) (f : Frame) : Bool :=
  f.hdr.opcode != Op.redContrib ||
  (match f.extn with
    | none => false
    | some e =>
      let n := d.segLen (f.hdr.position / 256) d.fmt (f.hdr.position % 256)
      plainChecks ((decodeSeg d.fmt n f.payload).map fun v => numF32 v.1) == (e.checkSum, e.checkMag))

/-- A contribution whose checks fail: counted, logged and reported (class 6 of Table 16.1), not acknowledged (R231). -/
def State.badContrib (s : State) (f : Frame) (master : Nat) : State :=
  ((s.bump .collContribBad).event 2 0x06 0x0010
    (leBytes 4 f.hdr.opId ++ leBytes 2 ((f.extn.map Ext.member).getD 0xFFFF) ++ leBytes 4 (f.hdr.position / 256) ++
     leBytes 1 (f.hdr.position % 256))).report { cls := 6, master := master, access := 7 }

/-! ## Encoding segments (R93–R95, R232, R236) -/

/-- Elements encoded as a segment: the payload, the F32 values that it decodes to, the generator's state. -/
def encodeSeg (fmt mode : Nat) (at_ : Nat → Nat × Nat) (c : ArithCtx) (ps : List F32P) :
    List Byte × List F32 × ArithCtx :=
  if fmt = 5 then
    (padTo (roundUp (8 * ps.length) 64) (ps.flatMap pairBytes), ps.map pairF32, c)
  else
    let r := encodeVals fmt mode at_ c (ps.map pairValue)
    let pl := padTo (roundUp r.1.length 64) r.1 ++ padTo (roundUp r.2.1.length 64) r.2.1
    (pl, (decodeVals fmt r.1 r.2.1).map fun v => numF32 v.1, r.2.2)

/-- One slice of a non-root bench as a RED_PARTIAL (R95, R232), with the exception record of the operation on this module
(R194). -/
def State.partialFrame (s : State) (ctx gen job : Nat) (d : CollDesc) (c : ChunkSt) (g : Nat) (sl : SliceSt) (x : ExcRec) :
    Frame × ExcRec × State :=
  let n := d.segLen c.chunk d.pfmt g
  let i0 := g * segElems d.pfmt
  let ps := (List.range n).map fun i => s.chunkPair c (i0 + i)
  let e := encodeSeg d.pfmt d.rmode (fun i => (c.chunk, i0 + i)) (s.arithCtx c.master) ps
  let flushed := min (sl.flushed + e.2.2.flushed) 0xFFFF
  let s := (s.tookDraws c.master e.2.2).countFlush e.2.2.flushed
  let (x, s) := s.raiseAll x c.master e.2.2.raised
  ({ hdr := { ext := true, opcode := Op.redPartial, cls := d.cls, phase := 1, dstNode := d.root, dstEp := 0xFFF1,
              srcNode := s.me, srcEp := 0xFFF1, job := job, units := (64 + e.1.length) / 64, last := g + 1 == c.slices.length,
              opId := ctx + 1048576 * gen, position := 256 * c.chunk + g },
     extn := some { checkSum := sl.sum, checkMag := sl.mag, member := 0xFFFF, contributors := popCount 512 sl.bitmap,
                    format := d.pfmt, flags := 1 + 2 * b2n (flushed != 0), flushed := flushed },
     payload := leBytes 64 sl.bitmap ++ e.1 }, x, s)

/-- One segment of a finished chunk's result, to the group or to its receiving member (R236). -/
def State.resultFrame (s : State) (ctx gen job : Nat) (d : CollDesc) (c : ChunkSt) (g : Nat) (last : Bool)
    (x : ExcRec) : Frame × ExcRec × Nat × State :=
  let n := d.segLen c.chunk d.rfmt g
  let i0 := g * segElems d.rfmt
  let ps := (List.range n).map fun i => s.chunkPair c (i0 + i)
  let e := encodeSeg d.rfmt d.rmode (fun i => (c.chunk, i0 + i)) (s.arithCtx c.master) ps
  let s := (s.tookDraws c.master e.2.2).countFlush e.2.2.flushed
  let (x, s) := s.raiseAll x c.master e.2.2.raised
  let ck := plainChecks e.2.1
  let member := if d.kind = 2 then d.shardOwner c.chunk else d.special
  let dst := (s.memberAddr job d member).getD (0xFFFE, 0)
  let h : Hdr := { ext := true, cls := d.cls, phase := 1, srcNode := s.me, srcEp := 0xFFF1, job := job,
                   units := e.1.length / 64, last := last, opId := ctx + 1048576 * gen, position := 256 * c.chunk + g }
  ({ hdr := if d.kind = 1 then { h with opcode := Op.collMcast, dstNode := s.me, dstEp := d.group }
            else { h with opcode := Op.redResult, dstNode := dst.1, dstEp := dst.2 },
     extn := some { checkSum := ck.1, checkMag := ck.2, member := 0xFFFF, contributors := d.members, format := d.rfmt,
                    flags := 2 * b2n (e.2.2.flushed != 0), flushed := min e.2.2.flushed 0xFFFF },
     payload := e.1 }, x, e.2.2.flushed, s)

/-! ## Attribution to blocks (R254, R255) -/

/-- A block has passed micro_batches: its step closes (Table 11.4). -/
def BlockSt.attribute (b : BlockSt) (t : Stamp) : BlockSt :=
  let n := b.started + 1
  if b.state = 2 ∧ b.microBatches ≠ 0 ∧ b.microBatches ≤ n then { b with started := n, state := 3, stamp := t }
  else { b with started := n }

/-- The block whose step a tensor's block takes: a tie member's primary. -/
def State.leader (s : State) (ctx : Nat) : Nat :=
  match s.parm.blocks.get? ctx with
  | some b => if b.kind = 3 then (s.blockCtx b.job b.primary).getD ctx else ctx
  | none => ctx

/-- The blocks of an ACCUMULATE instance with their steps, or the status with which it is aborted as late. -/
def State.attribution (s : State) (job : Nat) (d : CollDesc) (kept : List (Nat × Nat)) : Nat ⊕ List (Nat × Nat) :=
  if s.disabled 1 job then .inl Status.functionDisabled
  else
    let named := (d.tensors.map fun t => s.blockCtx job t.2)
    let leads := named.map fun o => o.map s.leader
    let ok := leads.all fun o =>
      match o.bind fun c => (s.parm.blocks.get? c).map fun b => (c, b) with
      | some (c, b) => !b.doomed && !b.publishing &&
          (b.state == 2 || (b.state == 3 && kept.contains (c, b.step))) && (kept.isEmpty || kept.contains (c, b.step))
      | none => false
    if !ok then .inl Status.aborted
    else .inr ((leads.filterMap fun o => o.bind fun c => (s.parm.blocks.get? c).map fun b => (c, b.step)).dedup)

/-- The open steps take the instance, unless it succeeds a replayed one (R254). -/
def State.attribute (s : State) (blocks : List (Nat × Nat)) : State :=
  let t := s.stamp
  let m := blocks.foldl (fun m cb =>
    match NMap.get? m cb.1 with
    | some b => NMap.set m cb.1 (b.attribute t)
    | none => m) s.parm.blocks
  { s.stamped with parm := { s.parm with blocks := m } }

/-! ## Endings (R237–R244) -/

/-- Result segments of a member (Table 10.8). -/
def CollDesc.resultSegments (d : CollDesc) (m : Nat) : Nat :=
  let sumOf := fun (cs : List Nat) => (cs.map fun c => d.segs c d.rfmt).sum
  match d.kind with
  | 1 | 5 => sumOf (List.range d.chunks)
  | 2 => sumOf (rangeFrom (d.shard m).1 ((d.shard m).2 - (d.shard m).1))
  | 3 => if m = d.special then sumOf (List.range d.chunks) else 0
  | 6 => if m = d.special then 0 else sumOf (List.range d.chunks)
  | 7 => (d.members - 1) * ceilDiv ((d.tensors.headD (0, 0)).1) (segElems d.fmt)
  | _ => 0

/-- Chunk numbers above every chunk's stand for the COLL_COMPLETE frames of an instance, one for each member. -/
abbrev completeChunk : Nat := 16777216

/-- COLL_COMPLETE to one member (Table 4.9, R243). A member marked HEDGED is not waited for. -/
def State.sendComplete (s : State) (ctx gen job : Nat) (d : CollDesc) (i : InstSt) (status : Nat) (t : Stamp) (m : Nat) :
    State :=
  let dst := (s.memberAddr job d m).getD (0xFFFE, 0)
  let hedged := i.hedged.contains m
  let st := if hedged then Status.hedged else status
  let opId := ctx + 1048576 * gen
  let p := leBytes 4 opId ++ leBytes 2 st ++ leBytes 2 m ++
    leBytes 4 (if st = Status.ok then d.resultSegments m else 0) ++ leBytes 4 d.chunks ++
    leBytes 4 (min i.flushed (2 ^ 32 - 1)) ++ leBytes 4 i.exc.count ++ t.bytes ++ zeros 30
  s.send { hdr := { opcode := Op.collComplete, cls := d.cls, phase := 1, dstNode := dst.1, dstEp := dst.2,
                    srcNode := s.me, srcEp := 0xFFF1, job := job, units := 1, last := true, opId := opId },
           payload := p } (if hedged then .none else .coll ctx gen (completeChunk + m))

/-- A member of an instance newly found under a destination hedge is marked HEDGED (R243). -/
def State.findHedged (s : State) (job : Nat) (d : CollDesc) (i : InstSt) : InstSt × State :=
  let found := (List.range d.members).filter fun m =>
    !i.hedged.contains m && (((s.memberAddr job d m).map fun a => s.destHedged a.1 a.2).getD false)
  ({ i with hedged := found ++ i.hedged }, if found.isEmpty then s else s.bump .collHedgedMember 0 found.length)

/-- The counter of a final status. -/
def State.countEnding (s : State) (d : CollDesc) (status : Nat) : State :=
  if status = Status.memberTimeout then s.bump .collTimeout
  else if status = Status.aborted ∨ status = Status.drained ∨ status = Status.functionDisabled then s.bump .collAborted
  else if status = Status.replayed then s.bump .collReplayed
  else if status = Status.memberLost then s.bump .collMemberLost
  else if [Status.noBench, Status.contextFull, Status.poolEmpty, Status.quotaExceeded].contains status then
    let s := s.bump .collNoBench
    if d.ring then s.bump .collFallback else s
  else s

/-- A COLL_COMPLETE is settled: with the last one the instance's slots are freed. -/
def State.completeSettled (s : State) (ctx gen : Nat) : State :=
  match s.coll.ops.get? ctx with
  | none => s
  | some c =>
    match c.closing.find? fun x => x.gen == gen with
    | none => s
    | some x =>
      let busy := s.parm.pieces.any fun p => p.ctx == ctx && p.gen == gen
      if x.unacked ≤ 1 && !busy then
        (x.slots.foldl (fun s r => s.dropChunk r.c) s).setOp ctx fun c => { c with
          closing := c.closing.filter (fun y => y.gen != gen) }
      else s.setOp ctx fun c => { c with closing := c.closing.map fun y =>
        if y.gen = gen then { y with unacked := y.unacked - 1 } else y }

/-- The root commits an instance's record with its final status: every member is told (R237, R244). -/
def State.endInstance (s : State) (ctx status : Nat) : State :=
  match s.coll.ops.get? ctx with
  | none => s
  | some c =>
    match c.inst with
    | none => s
    | some i =>
      let t := s.stamp
      let d := c.desc
      let s := (s.stamped.bump .collInstancesDone).countEnding d status
      let s := { s with ctxGen := s.ctxGen.set ctx i.gen }
      let (i, s) := s.findHedged c.job d i
      let s := s.setOp ctx fun c => { c with
        inst := none, last := some (i.gen, status), next := (i.gen + 1) % 4096, stamp := t, exc := i.exc,
        hedgedMembers := i.hedged.length, replays := (if status = Status.replayed then c.replays + 1 else 0),
        closing := c.closing ++ [{ gen := i.gen, slots := i.slots, unacked := d.members - i.hedged.length, hedged := i.hedged }],
        committed := (if status = Status.replayed then
          (c.committed ++ (i.slots.filter SlotRec.finished).map fun x => x.c.chunk).dedup else []),
        attributed := (if status = Status.replayed then i.blocks else []) }
      let s := if d.kind = 4 then s.setColl fun k => { k with ended := k.ended ++ [(i.blocks, status)] } else s
      let s := s.workEnded 0 c.job (status == Status.drained)
      let s := (List.range d.members).foldl (fun s m => s.sendComplete ctx i.gen c.job d i status t m) s
      if d.members ≤ i.hedged.length then s.completeSettled ctx i.gen else s

/-- The replay rule of R241: REPLAYED within the limit, else the status given. -/
def State.replayOr (s : State) (ctx status : Nat) : State :=
  match s.coll.ops.get? ctx with
  | some c => s.endInstance ctx
      (if c.desc.replay && decide (c.replays < c.desc.replayLimit) then Status.replayed else status)
  | none => s

/-- An instance ends with OK, or its exception's status, once every chunk is freed and every marker committed. -/
def State.checkDone (s : State) (ctx : Nat) : State :=
  match s.coll.ops.get? ctx with
  | none => s
  | some c =>
    match c.inst with
    | none => s
    | some i =>
      let d := c.desc
      let done := if d.kind = 7 then (List.range d.members).all i.sentAll.contains
                  else i.slots.all fun x => decide (d.chunks ≤ x.c.chunk)
      if done then s.endInstance ctx i.exc.status else s

/-- The next chunk that a slot serves: chunks whose bit of R257 is set are passed over. -/
def nextChunk (w total : Nat) (committed : List Nat) : Nat → Nat → Nat
  | 0, c => c
  | n + 1, c => if c < total && committed.contains c then nextChunk w total committed n (c + w) else c

/-- A slot's chunk is freed, and the slot serves its next chunk. -/
def State.freeSlot (s : State) (ctx k : Nat) : State :=
  match (s.coll.ops.get? ctx).bind fun c => c.inst.map fun i => (c, i) with
  | none => s
  | some (c, i) =>
    match i.slots[k]? with
    | none => s
    | some x =>
      let d := c.desc
      let next := nextChunk d.slots d.chunks c.committed (c.committed.length + 1) (x.c.chunk + d.slots)
      let s := x.c.benches.foldl (fun s b => s.clearMem (s.benchAddr b) mib) s
      (s.setInst ctx fun i => { i with slots := i.slots.modify k fun x =>
        { x with c := { x.c with chunk := next, slices := d.freshSlices next }, held := [], finished := false,
                 unacked := 0 } }).checkDone ctx

/-- The slot that serves a chunk, if it does. -/
def InstSt.slotOf (i : InstSt) (chunk : Nat) : Option Nat := i.slots.findIdx? fun x => x.c.chunk == chunk

/-! ## Results (R235, R236) -/

/-- A finite F32 in units of 2^−149. -/
def f32Units (x : F32) : Int :=
  match f32Num x with
  | .fin n m e _ =>
    let v : Nat := m * 2 ^ (e + 149).toNat
    if n then -(v : Int) else v
  | _ => 0

/-- The pair's magnitude. -/
def pairAbs (p : F32P) : F32P := if p.1.toNat < 2 ^ 31 then p else (p.1 ^^^ 0x80000000, p.2 ^^^ 0x80000000)

/-- The test of a full slice (R235): from its check sums S and A, R and RM. Where a value is not finite the test passes
when both sides agree, since Table 10.9 lets an instance complete with INVALID_SUM or NAN_INPUT (DEDUCED, log entry 23). -/
def sliceTest (bf16 : Bool) (m : Nat) (S A R RM : F32) : Bool :=
  if f32Special S || f32Special R || f32Special A || f32Special RM then
    ((f32IsNan S && f32IsNan R) || S == R) && (!f32Special RM || f32Special A)
  else
    let k : Int := (if bf16 then 65536 else 32) + m + 3
    let a := f32Units A
    decide (((f32Units S - f32Units R).natAbs : Int) * 16777216 ≤ a * k) &&
    decide (f32Units RM * 16777216 ≤ a * 16777216 + a * k)

/-- The test of one slice of a chunk. -/
def State.sliceOk (s : State) (d : CollDesc) (c : ChunkSt) (g : Nat) (sl : SliceSt) : Bool :=
  let i0 := g * segElems d.pfmt
  let r := (List.range (d.segLen c.chunk d.pfmt g)).foldl (fun a i =>
    let p := s.chunkPair c (i0 + i)
    ((addF32P a.1 p).1, (addF32P a.2 (pairAbs p)).1)) (((0, 0) : F32P), ((0, 0) : F32P))
  sliceTest (d.pfmt == 3) d.members sl.sum sl.mag (pairF32 r.1) (pairF32 r.2)

/-- The member to which the unicast results of a chunk go (R220). -/
def CollDesc.receiver (d : CollDesc) (chunk : Nat) : Nat := if d.kind = 2 then d.shardOwner chunk else d.special

/-- The results of a chunk wait for nobody: its one receiver has been marked HEDGED (R243). -/
def CollDesc.unawaited (d : CollDesc) (i : InstSt) (chunk : Nat) : Bool :=
  (d.kind == 2 || d.kind == 3) && i.hedged.contains (d.receiver chunk)

/-- The results of a finished chunk are sent; the exceptions and flushes of their encoding join the instance's. -/
def State.sendResults (s : State) (ctx gen job : Nat) (d : CollDesc) (c : ChunkSt) (o : Owner) : State :=
  let n := d.segs c.chunk d.rfmt
  (List.range n).foldl (fun (s : State) g =>
    let x := (((s.coll.ops.get? ctx).bind CollSt.inst).map InstSt.exc).getD {}
    let r := s.resultFrame ctx gen job d c g (g + 1 == n) x
    (r.2.2.2.setInst ctx fun i => { i with exc := r.2.1, flushed := i.flushed + r.2.2.1 }).send r.1 o) s

/-- The segments of a chunk of types 5 and 6 are multicast (R236). -/
def State.sendHeld (s : State) (ctx gen job : Nat) (d : CollDesc) (x : SlotRec) : State :=
  let n := d.segs x.c.chunk d.fmt
  let step := segBytes d.fmt (segElems d.fmt)
  (List.range n).foldl (fun (s : State) g =>
    let len := segBytes d.fmt (d.segLen x.c.chunk d.fmt g)
    s.send { hdr := { ext := true, opcode := Op.collMcast, cls := d.cls, phase := 1, dstNode := s.me, dstEp := d.group,
                      srcNode := s.me, srcEp := 0xFFF1, job := job, units := len / 64, last := g + 1 == n,
                      opId := ctx + 1048576 * gen, position := 256 * x.c.chunk + g }
             extn := some (x.held.getD g {}), payload := s.readMem (x.c.sett + g * step) len }
      (.coll ctx gen x.c.chunk)) s

/-- A chunk is finished (R236). -/
def State.finishChunk (s : State) (ctx k : Nat) : State :=
  match (s.coll.ops.get? ctx).bind fun c => c.inst.map fun i => (c, i) with
  | none => s
  | some (c, i) =>
    match i.slots[k]? with
    | none => s
    | some x =>
      let d := c.desc
      let n := if d.kind = 4 then 0 else d.segs x.c.chunk d.rfmt
      let s := s.setOp ctx fun c => { c with chunks := c.chunks + 1 }
      let s := s.setInst ctx fun i => { i with slots := i.slots.modify k fun x =>
        { x with finished := true, unacked := n } }
      if d.kind = 4 then
        s.setColl fun t => { t with finished := t.finished ++ [(ctx, i.gen, x.c.chunk)] }
      else if d.unawaited i x.c.chunk then (s.sendResults ctx i.gen c.job d x.c .none).freeSlot ctx k
      else if d.reduces then s.sendResults ctx i.gen c.job d x.c (.coll ctx i.gen x.c.chunk)
      else s.sendHeld ctx i.gen c.job d x

/-- Slices that have become full are tested; a failure ends or replays the instance (R235). -/
def State.testSlices (s : State) (ctx k : Nat) : State :=
  match (s.coll.ops.get? ctx).bind fun c => c.inst.map fun i => (c, i) with
  | none => s
  | some (c, i) =>
    match i.slots[k]? with
    | none => s
    | some x =>
      let d := c.desc
      let full := x.c.slices.zipIdx.filter fun sg => sg.1.bitmap == d.full && !sg.1.passed
      match full.find? fun sg => !s.sliceOk d x.c sg.2 sg.1 with
      | some sg =>
        let t := s.stamp
        let e := i.exc
        let e := if e.kind = 0 then { e with master := x.c.master, row := x.c.chunk, col := sg.2 * segElems d.pfmt,
                                             kblock := 0xFFFFFFFF, stamp := t, count := e.count + 1 }
                 else { e with count := e.count + 1 }
        let s := (s.stamped.bump .collCheckFail).report { cls := 4, master := x.c.master, access := 8 }
        (s.setInst ctx fun i => { i with exc := e }).replayOr ctx Status.checkMismatch
      | none =>
        let s := s.setInst ctx fun i => { i with slots := i.slots.modify k fun x =>
          { x with c := { x.c with slices := x.c.slices.map fun sl =>
            if sl.bitmap = d.full then { sl with passed := true } else sl } } }
        if x.c.slices.all (fun sl => sl.bitmap == d.full) && !x.finished then s.finishChunk ctx k else s

/-! ## Instances at the root (R222, R233) -/

/-- A fresh instance of a generation. -/
def CollDesc.fresh (d : CollDesc) (gen : Nat) (slots : List SlotRec) (blocks : List (Nat × Nat)) : InstSt :=
  { gen := gen, slots := slots, idle := List.replicate d.members 0, blocks := blocks }

/-- The root starts an instance: attribution of type 4, then the claim of R233. -/
def State.startInstance (s : State) (ctx gen : Nat) : State :=
  match s.coll.ops.get? ctx with
  | none => s
  | some c =>
    let d := c.desc
    let s := { s with ctxGen := s.ctxGen.set ctx gen }
    let begin_ := fun (s : State) (slots : List SlotRec) (blocks : List (Nat × Nat)) =>
      s.setOp ctx fun c => { c with inst := some (d.fresh gen slots blocks), chunks := 0, timedOut := 0xFFFF,
                                    lostNode := 0xFFFF, hedgedMembers := 0 }
    let att := if d.kind = 4 then s.attribution c.job d c.attributed else .inr []
    match att with
    | .inl st => ((begin_ s [] []).bump .paramLateInstance).endInstance ctx st
    | .inr blocks =>
      let s := if d.kind = 4 && c.attributed.isEmpty then s.attribute blocks else s
      if d.kind = 7 then begin_ s [] []
      else
        match s.claimSlots c.job d with
        | (.inl st, s) => (begin_ s [] blocks).endInstance ctx st
        | (.inr slots, s) =>
          let slots := slots.map fun x =>
            let n := nextChunk d.slots d.chunks c.committed (c.committed.length + 1) x.c.chunk
            { x with c := { x.c with chunk := n, slices := d.freshSlices n } }
          (begin_ s slots blocks).checkDone ctx

/-- Table 10.2: the state with the frame's instance running, or the status with which the frame is refused. -/
def State.admitGen (s : State) (h : Hdr) : Option Nat × State :=
  let ctx := h.opId % 1048576
  let gen := h.opId / 1048576
  let judge := fun (s : State) (c : CollSt) =>
    if (c.inst.map InstSt.gen) = some gen then (none, s)
    else
      match c.last with
      | some (g, st) =>
        if g = gen then (some (if st = Status.ok then Status.alreadyComplete else st), s)
        else (some Status.contextStale, s)
      | none => (some Status.contextStale, s)
  match s.coll.ops.get? ctx with
  | none => (some Status.contextStale, s)
  | some c =>
    if c.desc.root ≠ s.me then (some Status.contextStale, s)
    else if c.inst.isNone && c.next == gen then
      if s.disabled 0 c.job then (some Status.functionDisabled, s)
      else
        let s := s.startInstance ctx gen
        match s.coll.ops.get? ctx with
        | some c => judge s c
        | none => (some Status.contextStale, s)
    else judge s c

/-- A frame absorbed at the root is committed and acknowledged with scope 1 (Table 4.8). -/
def State.commitAbsorbed (s : State) (h : Hdr) (ep : Nat) : State :=
  let f := ((s.rxFlow (flowOf h)).arrive h.seq).commit h.seq
  (s.setRx f).sendAck h ep { f.ackInfo h.seq with scope := 1 }

/-- The idle counters of a set of members are cleared (R239). -/
def State.clearIdle (s : State) (ctx set : Nat) : State :=
  s.setInst ctx fun i => { i with idle := i.idle.zipIdx.map fun x => if bit set x.2 then 0 else x.1 }

/-- A contribution or partial sum of the running instance at the root (R230, R231, R234, R242, R257). -/
def State.rootSum (s : State) (f : Frame) : State :=
  let ctx := f.hdr.opId % 1048576
  match (s.coll.ops.get? ctx).bind fun c => c.inst.map fun i => (c, i) with
  | none => s
  | some (c, i) =>
    let d := c.desc
    let chunk := f.hdr.position / 256
    match (if d.reduces then d.arrival f else none) with
    | none => s.refuseFrame f.hdr 0xFFF1 Status.descInvalid
    | some a =>
      let serving := i.slots[chunk % d.slots]?
      if c.committed.contains chunk then (s.commitAbsorbed f.hdr 0xFFF1).clearIdle ctx a.set
      else
        match serving with
        | none => s.bump .collWindowDrop
        | some x =>
          if x.c.chunk < chunk then s.bump .collWindowDrop
          else if chunk < x.c.chunk then (s.bump .collDupDrop).commitAbsorbed f.hdr 0xFFF1
          else
            match x.c.standing a with
            | .duplicate => (s.bump .collDupDrop).commitAbsorbed f.hdr 0xFFF1
            | .overlap => (s.bump .collOverlap).replayOr ctx Status.contribOverlap
            | .disjoint =>
              if !d.checksOk f then s.badContrib f x.c.master
              else
                let r := s.absorb d x.c a
                let (exc, s) := r.2.2.raiseAll i.exc x.c.master r.1
                let s := s.setInst ctx fun i => { i with
                  exc := exc, flushed := i.flushed + a.flushed,
                  slots := i.slots.modify (chunk % d.slots) fun x => { x with c := r.2.1 } }
                ((s.commitAbsorbed f.hdr 0xFFF1).clearIdle ctx a.set).testSlices ctx (chunk % d.slots)

/-- A RED_CONTRIB or RED_PARTIAL delivered to the root's endpoint. -/
def State.rootReduction (s : State) (f : Frame) : State :=
  if s.duplicate f.hdr then s.ackAgain f.hdr 0xFFF1 1
  else
    match s.admitGen f.hdr with
    | (some st, s) => s.refuseFrame f.hdr 0xFFF1 st
    | (none, s) => s.rootSum f

/-! ## COLL_DATA at the root (R227, R236, R237) -/

/-- A sent-all marker. -/
def isMarker (f : Frame) : Bool := f.hdr.position == 0xFFFFFF00

/-- The member that a frame comes from. -/
def State.senderMember (s : State) (job : Nat) (d : CollDesc) (h : Hdr) : Option Nat :=
  (List.range d.members).find? fun m => s.memberAddr job d m == some (h.srcNode, h.srcEp)

/-- COLL_DATA of the running instance: a marker, or a segment for its slot's sett. -/
def State.rootData (s : State) (f : Frame) : State :=
  let ctx := f.hdr.opId % 1048576
  match (s.coll.ops.get? ctx).bind fun c => c.inst.map fun i => (c, i) with
  | none => s
  | some (c, i) =>
    let d := c.desc
    let chunk := f.hdr.position / 256
    let g := f.hdr.position % 256
    match s.senderMember c.job d f.hdr with
    | none => s.refuseFrame f.hdr 0xFFF1 Status.descInvalid
    | some m =>
      if d.kind = 7 then
        if !isMarker f then s.refuseFrame f.hdr 0xFFF1 Status.descInvalid
        else
          let s := s.setInst ctx fun i => { i with sentAll := if i.sentAll.contains m then i.sentAll else m :: i.sentAll }
          ((s.commitFrame f.hdr 0xFFF1).clearIdle ctx (2 ^ m)).checkDone ctx
      else
        let owner := if d.kind = 5 then d.shardOwner chunk else d.special
        if !(d.kind = 5 ∨ d.kind = 6) ∨ d.chunks ≤ chunk ∨ d.segs chunk d.fmt ≤ g ∨ m ≠ owner ∨
            f.payload.length ≠ segBytes d.fmt (d.segLen chunk d.fmt g) then
          s.refuseFrame f.hdr 0xFFF1 Status.descInvalid
        else
          match i.slots[chunk % d.slots]? with
          | none => s.bump .collWindowDrop
          | some x =>
            if x.c.chunk < chunk then s.bump .collWindowDrop
            else if chunk < x.c.chunk || (x.held.get? g).isSome then
              (s.bump .collDupDrop).commitFrame f.hdr 0xFFF1
            else
              let s := s.writeMem (x.c.sett + g * segBytes d.fmt (segElems d.fmt)) f.payload
              let s := s.setInst ctx fun i => { i with
                flushed := i.flushed + (f.extn.map Ext.flushed).getD 0
                slots := i.slots.modify (chunk % d.slots) fun x =>
                  { x with held := x.held.set g (f.extn.getD {}) } }
              let s := (s.commitFrame f.hdr 0xFFF1).clearIdle ctx (2 ^ m)
              if x.held.length + 1 = d.segs chunk d.fmt then s.finishChunk ctx (chunk % d.slots) else s

/-- COLL_DATA delivered to the root's endpoint. -/
def State.rootGather (s : State) (f : Frame) : State :=
  if s.duplicate f.hdr then s.ackAgain f.hdr 0xFFF1
  else
    match s.admitGen f.hdr with
    | (some st, s) => s.refuseFrame f.hdr 0xFFF1 st
    | (none, s) => s.rootData f

/-! ## Aborts (R240) -/

/-- An abort of an instance at the root: OK where it wins, else the status of its refusal. -/
def State.abortInstance (s : State) (opId status : Nat) : Nat × State :=
  let ctx := opId % 1048576
  let gen := opId / 1048576
  match s.coll.ops.get? ctx with
  | none => (Status.contextStale, s)
  | some c =>
    if c.desc.root ≠ s.me then (Status.contextStale, s)
    else
      match c.inst with
      | some i => if i.gen = gen then (Status.ok, s.endInstance ctx status)
                  else if (c.last.map Prod.fst) = some gen then
                    (if (c.last.map Prod.snd) = some Status.ok then Status.alreadyComplete
                     else (c.last.map Prod.snd).getD 0, s)
                  else (Status.contextStale, s)
      | none =>
        if c.next = gen then
          (Status.ok, (s.setOp ctx fun c => { c with
            inst := some (c.desc.fresh gen [] []), chunks := 0, timedOut := 0xFFFF, lostNode := 0xFFFF,
            hedgedMembers := 0 }).endInstance ctx status)
        else if (c.last.map Prod.fst) = some gen then
          (if (c.last.map Prod.snd) = some Status.ok then Status.alreadyComplete
           else (c.last.map Prod.snd).getD 0, s)
        else (Status.contextStale, s)

/-- COLL_ABORT from a member. -/
def State.abortFrame (s : State) (f : Frame) : State :=
  if s.duplicate f.hdr then s.ackAgain f.hdr 0xFFF1
  else
    match s.abortInstance f.hdr.opId Status.aborted with
    | (0, s) => s.commitFrame f.hdr 0xFFF1
    | (st, s) => s.refuseFrame f.hdr 0xFFF1 st

/-! ## Merging in flight (R228–R232) -/

/-- A merge bench changed. -/
def State.setMerge (s : State) (ctx gen chunk : Nat) (f : MergeSt → MergeSt) : State :=
  s.setOp ctx fun c => { c with merges := c.merges.map fun m =>
    if m.gen = gen ∧ m.c.chunk = chunk then f m else m }

/-- A merge bench is freed. -/
def State.dropMerge (s : State) (ctx gen chunk : Nat) : State :=
  match (s.coll.ops.get? ctx).bind fun c => c.merges.find? fun m => m.gen == gen && m.c.chunk == chunk with
  | none => s
  | some m => (s.dropChunk m.c).setOp ctx fun c => { c with
      merges := c.merges.filter (fun m => !(m.gen == gen && m.c.chunk == chunk)) }

/-- A module holds the frame's context and takes it before routing (R228): from a member on a down port, or on a fabric
port in phase 1. -/
def State.takesFrame (s : State) (p : Nat) (h : Hdr) : Bool :=
  (h.opcode == Op.redContrib || h.opcode == Op.redPartial) &&
  (match s.coll.ops.get? (h.opId % 1048576) with
    | some c => c.desc.root != s.me && c.job == h.job && h.dstNode == c.desc.root && h.dstEp == 0xFFF1
    | none => false) &&
  (s.role p == 1 || (s.role p == 2 && (h.phase == 1 || h.via == s.me)))

/-- Table 10.6: a frame may be absorbed at this non-root module. -/
def State.mayAbsorb (s : State) (c : CollSt) (f : Frame) (entry : Bool) : Bool :=
  !f.hdr.retx &&
  (if f.hdr.opcode = Op.redContrib then
    (if entry then decide (2 ≤ (s.membersOn c.job c.desc s.me).length) else c.desc.pathMerge)
   else !entry && c.desc.pfmt == 4 && c.desc.pathMerge)

/-- A frame that is not absorbed continues on its route. -/
def State.passOn (s : State) (d : Delivery) : State :=
  match d.port with
  | none => s
  | some p =>
    let h := d.frame.hdr
    match s.routeOf h (s.role p == 1) (s.arrivedOn p h.vc) with
    | (.out cp, n, v, dt) =>
      let s := s.count (routeCounts n v dt)
      let tile := s.tileOf p
      if s.payloadOk h cp then
        match s.takeCells tile h.cls (frameCells h) 1 with
        | (.inr cells, s) => s.storeFrame d.frame (some p) tile h.cls cells false [cp]
        | (.inl r, s) => s.bump r p
      else s.bump .portHdrDrop p
    | (.hedged, _, _, _) => (s.bump .routeHedgeDrop).ratedRefusal h Status.hedged
    | (_, n, v, dt) => (s.count (routeCounts n v dt)).bump .routeUnroutable

/-- A frame is absorbed in flight: its sender is answered by this node (R99); what it raises goes into the operation's record on
this module (R194). -/
def State.mergeInto (s : State) (ctx : Nat) (c : CollSt) (m : MergeSt) (f : Frame) (a : Arrival) : State :=
  let r := s.absorb c.desc m.c a
  let (x, s) := r.2.2.raiseAll (((s.coll.ops.get? ctx).map CollSt.exc).getD {}) m.c.master r.1
  ((s.setOp ctx fun c => { c with exc := x }).setMerge ctx m.gen m.c.chunk fun m => { m with c := r.2.1 }).transitAck f.hdr 1 0

/-- A RED_CONTRIB or RED_PARTIAL at a non-root module that holds its context. -/
def State.transitReduction (s : State) (dl : Delivery) (c : CollSt) (entry : Bool) : State :=
  let f := dl.frame
  let ctx := f.hdr.opId % 1048576
  let gen := f.hdr.opId / 1048576
  let newer := match c.high with
    | none => true
    | some g => serialNewer 12 gen g
  let s := if newer then
      { s.setOp ctx (fun c => { c with high := some gen, exc := {} }) with ctxGen := s.ctxGen.set ctx gen } else s
  if !newer && c.high != some gen then s.passOn dl
  else
    match (if c.desc.reduces then c.desc.arrival f else none) with
    | none => s.passOn dl
    | some a =>
      let chunk := f.hdr.position / 256
      match c.merges.find? fun m => m.gen == gen && m.c.chunk == chunk with
      | some m =>
        match m.c.standing a with
        | .duplicate => (s.bump .collDupDrop).transitAck f.hdr 1 0
        | .overlap => s.passOn dl
        | .disjoint =>
          if m.sealed_ || !s.mayAbsorb c f entry then s.passOn dl
          else if !c.desc.checksOk f then s.badContrib f m.c.master
          else s.mergeInto ctx c m f a
      | none =>
        if !s.mayAbsorb c f entry then s.passOn dl
        else if s.freeBenches ≤ s.cfg .collBenchCfg 0 0 10 then (s.bump .collMergeSkip).passOn dl
        else
          match s.claimChunk c.job c.desc chunk 1 with
          | (.inl _, s) => (s.bump .collMergeSkip).passOn dl
          | (.inr ck, s) =>
            if !c.desc.checksOk f then (s.dropChunk ck).badContrib f ck.master
            else
            let m : MergeSt := { gen := gen, c := ck, opened := s.tick.counter }
            (s.setOp ctx fun c => { c with merges := c.merges ++ [m] }).mergeInto ctx c m f a

/-- A reduction frame handed to a reduction unit, at the root or in flight. -/
def State.reduction (s : State) (dl : Delivery) : State := s.receive dl fun s =>
  let h := dl.frame.hdr
  match s.coll.ops.get? (h.opId % 1048576) with
  | some c =>
    if c.desc.root != s.me && h.dstNode == c.desc.root then
      s.transitReduction dl c ((dl.port.map s.role) == some 1)
    else s.rootReduction dl.frame
  | none => s.rootReduction dl.frame

/-- A merge bench may seal (R232): the ticks, and every member on this module. Of one that is alone on its module, which Table 10.6
has not absorbed here, the bit never comes, and hold_limit seals. -/
def State.maySeal (s : State) (c : CollSt) (m : MergeSt) : Bool :=
  let age := s.tick.counter - m.opened
  let set := ((s.membersOn c.job c.desc s.me).map fun i => 2 ^ i).sum
  (decide (c.desc.mergeWindow ≤ age) && m.c.slices.all fun sl => sl.bitmap &&& set == set) ||
  decide (s.cfg .collBenchCfg 0 10 7 ≤ age)

/-- A merge bench seals: its partial sums go to the root. -/
def State.sealBench (s : State) (ctx gen chunk : Nat) : State :=
  match s.coll.ops.get? ctx with
  | none => s
  | some c =>
    match c.merges.find? fun m => m.gen == gen && m.c.chunk == chunk with
    | none => s
    | some m =>
      if m.sealed_ || !s.maySeal c m then s
      else
        let out := m.c.slices.zipIdx.filter fun sg => sg.1.bitmap != 0
        let s := s.setMerge ctx gen chunk fun m => { m with sealed_ := true, unacked := out.length }
        out.foldl (fun s sg =>
          let r := s.partialFrame ctx gen c.job c.desc m.c sg.2 sg.1 (((s.coll.ops.get? ctx).map CollSt.exc).getD {})
          (r.2.2.setOp ctx fun c => { c with exc := r.2.1 }).send r.1 (.merge ctx gen chunk)) s

/-! ## What the flows tell (R100, R232, R236, R243, R244) -/

/-- A member is marked HEDGED for the running instance (R243). -/
def State.markHedged (s : State) (ctx m : Nat) : State :=
  match ((s.coll.ops.get? ctx).bind CollSt.inst) with
  | some i =>
    if i.hedged.contains m then s
    else ((s.bump .collHedgedMember).setInst ctx fun i => { i with hedged := m :: i.hedged }).setOp ctx
      fun c => { c with hedgedMembers := c.hedgedMembers + 1 }
  | none => s

/-- A member of an ended instance whose COLL_COMPLETE a hedge has dropped is marked HEDGED (R243). -/
def State.markClosing (s : State) (ctx gen m : Nat) : State :=
  match s.coll.ops.get? ctx with
  | none => s
  | some c =>
    if !(c.closing.any fun x => x.gen == gen && !x.hedged.contains m) then s
    else (s.bump .collHedgedMember).setOp ctx fun c => { c with
      hedgedMembers := c.hedgedMembers + b2n (c.inst.isNone && (c.last.map Prod.fst) == some gen)
      closing := c.closing.map fun x => if x.gen = gen then { x with hedged := m :: x.hedged } else x }

/-- A result segment is settled. -/
def State.resultSettled (s : State) (ctx gen chunk : Nat) : State :=
  match ((s.coll.ops.get? ctx).bind CollSt.inst) with
  | none => s
  | some i =>
    if i.gen ≠ gen then s
    else
      match i.slotOf chunk with
      | none => s
      | some k =>
        let n := ((i.slots[k]?).map SlotRec.unacked).getD 0
        let s := s.setInst ctx fun i => { i with slots := i.slots.modify k fun x => { x with unacked := n - 1 } }
        if n ≤ 1 then s.freeSlot ctx k else s

/-- What a collective's frame has come to. -/
def State.collNote (s : State) (ctx gen chunk : Nat) (n : Note) : State :=
  if completeChunk ≤ chunk then
    match n with
    | .memberRefused _ _ _ _ => s
    | .refused st => (if st = Status.hedged then s.markClosing ctx gen (chunk - completeChunk) else s).completeSettled ctx gen
    | _ => s.completeSettled ctx gen
  else
    match s.coll.ops.get? ctx with
    | none => s
    | some c =>
      match n with
      | .acked => s.resultSettled ctx gen chunk
      | .absorbed => s.resultSettled ctx gen chunk
      | .refused st =>
        (if st = Status.hedged then s.markHedged ctx (c.desc.receiver chunk) else s).resultSettled ctx gen chunk
      | .memberRefused node ep st settled =>
        let m := (List.range c.desc.members).find? fun m => s.memberAddr c.job c.desc m == some (node, ep)
        let s := match m with
          | some m => if st = Status.hedged && (c.inst.map InstSt.gen) == some gen then s.markHedged ctx m else s
          | none => s
        if settled then s.resultSettled ctx gen chunk else s
      | .lost _ => if (c.inst.map InstSt.gen) = some gen then s.endInstance ctx Status.memberLost else s

/-- What a partial sum's frame has come to (R232). -/
def State.mergeNote (s : State) (ctx gen chunk : Nat) (n : Note) : State :=
  match (s.coll.ops.get? ctx).bind fun c => c.merges.find? fun m => m.gen == gen && m.c.chunk == chunk with
  | none => s
  | some m =>
    match n with
    | .acked | .absorbed =>
      if m.unacked ≤ 1 then s.dropMerge ctx gen chunk
      else s.setMerge ctx gen chunk fun m => { m with unacked := m.unacked - 1 }
    | _ => (s.withdraw fun o => o == .merge ctx gen chunk).dropMerge ctx gen chunk

/-- The lost-node notice (R117, R232, R241). -/
def State.collLost (s : State) (n : Nat) : State :=
  s.coll.ops.keys.foldl (fun (s : State) ctx =>
    match s.coll.ops.get? ctx with
    | none => s
    | some c =>
      let d := c.desc
      if d.root != s.me then
        if d.root = n then c.merges.foldl (fun s m =>
          (s.withdraw fun o => o == .merge ctx m.gen m.c.chunk).dropMerge ctx m.gen m.c.chunk) s
        else s
      else
        match c.inst with
        | none => s
        | some i =>
          let s := s.setOp ctx fun c => { c with lostNode := n }
          if !(s.membersOn c.job d n).isEmpty then s.endInstance ctx Status.memberLost
          else if i.slots.any fun x => decide (x.c.chunk < d.chunks) && !x.finished then
            s.replayOr ctx Status.memberLost
          else s) s

/-! ## Timers (R239) -/

/-- A member owes something to the running instance. -/
def CollDesc.owes (d : CollDesc) (i : InstSt) (m : Nat) : Bool :=
  if d.kind = 7 then !i.sentAll.contains m
  else if d.reduces then
    i.slots.any fun x => decide (x.c.chunk < d.chunks) && x.c.slices.any fun sl => !bit sl.bitmap m
  else
    let lo := if d.kind = 5 then (d.shard m).1 else if m = d.special then 0 else d.chunks
    let hi := if d.kind = 5 then (d.shard m).2 else d.chunks
    i.slots.any fun x =>
      let c0 := if x.finished then x.c.chunk + d.slots else x.c.chunk
      -- the first chunk of this slot, from c0 on, that lies at or above lo
      let c1 := if c0 < lo then c0 + ceilDiv (lo - c0) d.slots * d.slots else c0
      decide (c1 < hi)

/-- Idle counters of an instance after a boundary. -/
def CollDesc.idleTick (d : CollDesc) (i : InstSt) : InstSt :=
  { i with idle := i.idle.zipIdx.map (fun x => if d.owes i x.2 then x.1 + 1 else x.1) }

/-- The idle counters advance at a boundary. -/
def State.collTick (s : State) : State :=
  let step := fun (_ : Nat) (c : CollSt) =>
    if s.jobHedged c.job then c else { c with inst := c.inst.map c.desc.idleTick }
  s.setColl fun k => { k with ops := NMap.mapV k.ops step }

/-- member_timeout of an operation. -/
def State.memberTimeout (s : State) (c : CollSt) : Nat :=
  if c.desc.timeout = 0 then ((s.host.jobs.get? c.job).map JobSt.memberTimeout).getD 4096 else c.desc.timeout

/-- An idle counter has reached member_timeout (R239). -/
def State.idleTimeout (s : State) (ctx : Nat) : State :=
  match s.coll.ops.get? ctx with
  | none => s
  | some c =>
    match c.inst.bind fun i => (List.range i.idle.length).find? fun m =>
        decide (s.memberTimeout c ≤ i.idle.getD m 0) with
    | some m => (s.setOp ctx fun c => { c with timedOut := m }).endInstance ctx Status.memberTimeout
    | none => s

/-! ## Opening and closing (R221, R246) -/

/-- A group ID is in use on this home node. -/
def State.groupUsed (s : State) (id : Nat) : Bool := (s.group? s.me id).isSome

/-- Another open operation has the group of a descriptor (R225). -/
def State.groupTaken (s : State) (d : CollDesc) : Bool :=
  d.hasGroup && (s.coll.ops.vals.any fun c => c.desc.hasGroup && c.desc.root == d.root && c.desc.group == d.group)

/-- COLL.OPEN: a refusal, or the operation open with its group being set up. -/
def State.collOpen (s : State) (job firstGen ctx : Nat) (b : List Byte) : (Nat × Nat) × State :=
  match s.host.jobs.get? job with
  | none => ((Status.jobUnknown, 0), s)
  | some j =>
    match s.collRefusal job j ctx b with
    | some r => ((Status.descInvalid, r), s)
    | none =>
      let d := parseColl b
      let mine := d.root == s.me && d.hasGroup
      if (s.ctxUse.get? ctx).isSome || s.groupTaken d || (mine && s.groupUsed d.group) then ((Status.opBusy, 0), s)
      else if (match s.ctxGen.get? ctx with
          | some g => !serialNewer 12 firstGen g
          | none => false) then ((Status.contextStale, 0), s)
      else if mine && decide (65536 ≤ s.topo.groups.length) then ((Status.capacityExceeded, 0), s)
      else
        let c : CollSt := { job := job, desc := d, next := firstGen, image := b }
        let s := (s.useCtx ctx Use.coll).setColl fun k => { k with ops := k.ops.set ctx c }
        ((Status.ok, 0), if mine then s.installGroup job d.group (d.receivers j) else s)

/-- A context is closed: its benches, claims and group are freed, and with the benches the pieces still in them; the generation is
kept. -/
def State.removeColl (s : State) (ctx : Nat) : State :=
  match s.coll.ops.get? ctx with
  | none =>
    match s.coll.barriers.get? ctx with
    | none => s
    | some b => ((s.setColl fun k => { k with barriers := k.barriers.erase ctx }).dropCtx ctx).removeGroup b.group
  | some c =>
    let slots := ((c.inst.map InstSt.slots).getD []) ++ c.closing.flatMap ClosingSt.slots
    let s := slots.foldl (fun s x => s.dropChunk x.c) s
    let s := c.merges.foldl (fun s m => s.dropChunk m.c) s
    let s := { s with parm := { s.parm with pieces := s.parm.pieces.filter fun p => p.ctx != ctx || p.sett.isSome } }
    let s := (s.setColl fun k => { k with ops := k.ops.erase ctx }).dropCtx ctx
    if c.desc.root == s.me && c.desc.hasGroup then s.removeGroup c.desc.group else s

/-- COLL.CLOSE. -/
def State.collClose (s : State) (ctx : Nat) : Nat × State :=
  match s.coll.ops.get? ctx with
  | some c => if c.inst.isSome || (c.closing.any fun x => x.unacked != 0) then (Status.opBusy, s)
    else (Status.ok, s.removeColl ctx)
  | none => (Status.ok, s.removeColl ctx)

/-- Table 10.11. -/
def State.collRecord (s : State) (ctx : Nat) : List Byte :=
  let kept := s.ctxGen.getD ctx 0
  match s.coll.ops.get? ctx with
  | none => leBytes 1 0 ++ zeros 1 ++ leBytes 2 kept ++ zeros 2 ++ leBytes 2 0xFFFF ++ zeros 6 ++ leBytes 2 0xFFFF ++
      zeros 48
  | some c =>
    let exc := (c.inst.map InstSt.exc).getD c.exc
    leBytes 1 (if c.inst.isSome then 2 else 1) ++ leBytes 1 c.replays ++
    leBytes 2 ((c.inst.map InstSt.gen).getD ((c.last.map Prod.fst).getD kept)) ++
    leBytes 2 ((c.last.map Prod.snd).getD 0) ++ leBytes 2 c.timedOut ++ leBytes 4 c.chunks ++
    leBytes 2 c.hedgedMembers ++ leBytes 2 c.lostNode ++ c.stamp.bytes ++ zeros 6 ++ exc.bytes

/-! ## Barriers (R104) -/

/-- COLL.BARRIER: a refusal, or the barrier with its release group being set up. -/
def State.barrierOpen (s : State) (job group ctx members : Nat) (b : List Byte) : Nat × State :=
  match s.host.jobs.get? job with
  | none => (Status.jobUnknown, s)
  | some j =>
    let ranks := (List.range members).map fun i => getLE b (2 * i) 2
    if members = 0 ∨ 512 < members ∨ ¬ ranks.Nodup ∨ (ranks.any fun r => (j.addr r).isNone) ∨ !j.inRange ctx then
      (Status.descInvalid, s)
    else if (s.ctxUse.get? ctx).isSome || s.groupUsed group then (Status.opBusy, s)
    else if 65536 ≤ s.topo.groups.length then (Status.capacityExceeded, s)
    else
      let s := (s.useCtx ctx Use.barrier).setColl fun k => { k with
        barriers := k.barriers.set ctx { job := job, group := group, ranks := ranks } }
      (Status.ok, s.installGroup job group (ranks.filterMap j.addr))

/-- Table 4.10 for a release. -/
def releaseBytes (status gen : Nat) (t : Stamp) : List Byte :=
  leBytes 2 0 ++ leBytes 2 status ++ leBytes 4 gen ++ t.bytes ++ zeros 46

/-- The header of a release. -/
def State.releaseHdr (s : State) (ctx : Nat) (b : BarrierSt) : Hdr :=
  { opcode := Op.barrierRelease, cls := 7, phase := 1, dstNode := s.me, dstEp := b.group, srcNode := s.me,
    srcEp := 0xFFF1, job := b.job, units := 1, last := true, opId := ctx }

/-- The root releases a generation. -/
def State.barrierRelease (s : State) (ctx : Nat) (b : BarrierSt) (status : Nat) : State :=
  let t := s.stamp
  let s := s.stamped.setColl fun k => { k with barriers := k.barriers.set ctx { b with
    gen := (b.gen + 1) % 2 ^ 32, arrived := 0, last := some (status, t) } }
  s.sendPlain { hdr := s.releaseHdr ctx b, payload := releaseBytes status b.gen t }

/-- A copy of the last release towards one member (DEDUCED, log entry 24), which a hedge on the member or the job stops (R126). -/
def State.releaseCopyTo (s : State) (ctx : Nat) (b : BarrierSt) (member : Nat) : State :=
  match b.last, ((s.host.jobs.get? b.job).bind fun j => (b.ranks[member]?).bind j.addr) with
  | some (st, t), some (node, ep) =>
    let f : Frame := { hdr := s.releaseHdr ctx b, payload := releaseBytes st ((b.gen + 2 ^ 32 - 1) % 2 ^ 32) t }
    if s.destHedged node ep || s.jobHedged b.job then s.bump .routeHedgeDrop
    else if node = s.me then
      match s.downPort ep with
      | some p =>
        if s.portHedged p then s.bump .routeHedgeDrop
        else if (s.route p).state ≠ 2 then s.bump .routeUnroutable
        else s.admitOwn f [{ port := some p, vc := 7, phase := 1 }] (originTile f.hdr)
      | none => s.bump .routeUnroutable
    else
      match s.topo.plan with
      | none => s.bump .routeUnroutable
      | some pl =>
        match s.hop pl { f.hdr with dstNode := node } 1 0xFFFF node none false with
        | .out c => s.admitOwn f [{ c with dst := some node }] (originTile f.hdr)
        | _ => s.bump .routeUnroutable
  | _, _ => s

/-- An arrival for the generation released last draws a copy of that release (R104). -/
def State.releaseAgain (s : State) (f : Frame) : State :=
  match s.coll.barriers.get? f.hdr.opId with
  | some b => if (getLE f.payload 4 4 + 1) % 2 ^ 32 = b.gen then s.releaseCopyTo f.hdr.opId b (getLE f.payload 0 2) else s
  | none => s

/-- BARRIER_ARRIVE at the root. -/
def State.barrierArrive (s : State) (f : Frame) : State :=
  if s.duplicate f.hdr then (s.ackAgain f.hdr 0xFFF1).releaseAgain f
  else
    let ctx := f.hdr.opId
    match s.coll.barriers.get? ctx with
    | none => s.refuseFrame f.hdr 0xFFF1 Status.contextStale
    | some b =>
      let m := getLE f.payload 0 2
      let g := getLE f.payload 4 4
      if b.ranks.length ≤ m then s.refuseFrame f.hdr 0xFFF1 Status.descInvalid
      else if serialNewer 32 g b.gen then s.refuseFrame f.hdr 0xFFF1 Status.contextStale
      else
        let s := s.commitFrame f.hdr 0xFFF1
        if g = b.gen then
          if bit b.arrived m then s
          else
            let b' := { b with arrived := b.arrived + 2 ^ m, since := if b.arrived = 0 then s.tick.counter else b.since }
            if b'.arrived + 1 = 2 ^ b.ranks.length then s.barrierRelease ctx b' Status.ok
            else s.setColl fun k => { k with barriers := k.barriers.set ctx b' }
        else s.releaseAgain f

/-- The member timeout after the first arrival of a generation. -/
def State.barrierTimeout (s : State) (ctx : Nat) : State :=
  match s.coll.barriers.get? ctx with
  | none => s
  | some b =>
    let limit := ((s.host.jobs.get? b.job).map JobSt.memberTimeout).getD 4096
    if b.arrived ≠ 0 ∧ b.since + limit ≤ s.tick.counter then s.barrierRelease ctx b Status.memberTimeout else s

/-! ## Fences (R103) -/

/-- Every seq of a flow below `q` is committed or refused. -/
def RxFlow.settledBelow (f : RxFlow) (q : Nat) : Bool :=
  let d := (q + 2 ^ 32 - f.next) % 2 ^ 32
  decide (2 ^ 31 ≤ d) || (decide (d ≤ 1024) && (List.range d).all fun i =>
    let x := (f.next + i) % 2 ^ 32
    f.window.contains x || f.refused.any fun w => w.1 == x)

/-- FENCE_DONE back along the flow. -/
def State.fenceDone (s : State) (k : FlowKey) (q cls : Nat) : State :=
  s.sendPlain { hdr := { opcode := Op.fenceDone, cls := cls, phase := 1, dstNode := k.srcNode, dstEp := k.srcEp,
                         srcNode := k.dstNode, srcEp := k.dstEp, job := k.job, sys := k.sys, units := 1, last := true,
                         position := q }, payload := zeros 64 }

/-- Fences whose earlier seqs are settled are answered. -/
def State.fenceCheck (s : State) : State :=
  let ready := s.flow.fences.filter fun x => (s.rxFlow x.1).settledBelow x.2.1
  let s := if ready.isEmpty then s else
    { s with flow := { s.flow with fences := s.flow.fences.filter fun x => !ready.contains x } }
  ready.foldl (fun s x => s.fenceDone x.1 x.2.1 x.2.2) s

/-- FENCE at an internal endpoint. -/
def State.fence (s : State) (f : Frame) : State :=
  let x := (flowOf f.hdr, f.hdr.position, f.hdr.cls)
  ({ s with flow := { s.flow with fences := if s.flow.fences.contains x then s.flow.fences else s.flow.fences ++ [x] } }
    ).fenceCheck

end Sys2Proof.Machine
end

