-- ==== Sys2Proof/Machine/Param.lean ====
section
/-! DEFINITION. Training state (chapter 11): parameter blocks, accumulation, update, versions and publication. -/

namespace Sys2Proof.Machine

/-- Training state changed. -/
def State.setParm (s : State) (f : ParamSt → ParamSt) : State := { s with parm := f s.parm }

/-- A block changed. -/
def State.setBlock (s : State) (ctx : Nat) (f : BlockSt → BlockSt) : State :=
  match s.parm.blocks.get? ctx with
  | some b => s.setParm fun p => { p with blocks := p.blocks.set ctx (f b) }
  | none => s

/-! ## Regions (R250, R251) -/

/-- The region order and the unit format of a code of Table 11.6 (6 and 7: scales), for the slot of a version. -/
def BlockSt.regionOf (b : BlockSt) (code slot : Nat) : Nat × Nat :=
  match code with
  | 0 => (1, 4)
  | 1 => (2, 4)
  | 2 => (3, 5)
  | 7 => (8, 4)
  | 8 => (9, 4)
  | 9 => (11 + 4 * slot, b.pubFmt)
  | 10 => (12 + 4 * slot, if b.pubFmt = 2 then 7 else 6)
  | c => (1 + c, b.stateFmts.getD (c - 3) 4)

/-- The block has the region of a code. -/
def BlockSt.hasRegion (b : BlockSt) (code : Nat) : Bool :=
  decide (code ≤ 10) && (regionIn (b.regionOf code 0).1 0 b.regions).isSome

/-- Units of the block. -/
def BlockSt.units (b : BlockSt) : Nat := b.ep / 512

/-- Bytes of a unit. -/
def State.unitBytes (s : State) (b : BlockSt) (order fmt u : Nat) : List Byte :=
  s.readMem (b.unitAt order fmt u) (unitSize fmt)

/-- A unit as F32 words: F32P units as hi and lo in turn. -/
def State.unitWords (s : State) (b : BlockSt) (order fmt u : Nat) : List F32 :=
  let bs := s.unitBytes b order fmt u
  if fmt = 3 then (List.range 512).map fun i => numF32 (decodeElem 3 (getLE bs (2 * i) 2))
  else (List.range (bs.length / 4)).map fun i => BitVec.ofNat 32 (getLE bs (4 * i) 4)

/-- The channel of unit `u` of a block's regions (R215, R250), its base tile, and the master ID of its NCU. -/
def State.unitChannel (s : State) (b : BlockSt) (u : Nat) : Nat := s.channelAt b.base (unitPosition u)
def State.unitTile (s : State) (b : BlockSt) (u : Nat) : Nat := channelTile (s.unitChannel b u)
def State.unitMaster (s : State) (b : BlockSt) (u : Nat) : Nat := ncuMaster (s.unitChannel b u)

/-- The mask row of row `r` (of 32 elements) of unit `u`. -/
def BlockSt.maskRow (b : BlockSt) (u r : Nat) : Nat :=
  if b.kind = 1 then
    let t := 128 * (u / 256) + u % 128
    32 * (t / (b.cols / 32)) + 16 * (u / 128 % 2) + r
  else 16 * u + r

/-- The row is spoiled in the update under way. -/
def BlockSt.spoiled (b : BlockSt) (u r : Nat) : Bool :=
  let i := b.maskRow u r
  bit ((b.mask.getD (i / 8) 0).toNat) (i % 8)

/-! ## Declaration (R249, R252) -/

/-- Storage elements of a block's shape (Table 11.1). -/
def shapeEp (kind rows cols : Nat) : Nat :=
  if kind = 1 then 131072 * ceilDiv (rows * cols / 1024) 128 else 512 * ceilDiv rows 512

/-- The block that a record spells, Ep and subscribers aside. -/
def parseBlock (b : List Byte) : BlockSt :=
  let flags := getLE b 7 1
  { job := getLE b 4 2 % 4096, id := getLE b 0 4, kind := getLE b 6 1, comp := bit flags 0, noTrans := bit flags 1,
    spoilGrad := bit flags 2, onPartial := bit flags 3, push := bit flags 4, rows := getLE b 8 4, cols := getLE b 12 4,
    pubFmt := getLE b 16 1, pubRound := getLE b 17 1, window := getLE b 18 1,
    stateFmts := (List.range (min (getLE b 19 1) 4)).map fun i => getLE b (20 + i) 1
    workSlots := getLE b 24 1, optimizer := getLE b 28 4, primary := getLE b 32 4, microBatches := getLE b 36 2,
    holdTimeout := if getLE b 38 2 = 0 then 4096 else getLE b 38 2, group := getLE b 40 2
    ep := shapeEp (getLE b 6 1) (getLE b 8 4) (getLE b 12 4) }

/-- The subscriber ranks of a record. -/
def declaredSubs (b : List Byte) : List Nat := (List.range (getLE b 42 2)).map fun i => getLE b (64 + 2 * i) 2

/-- Table 11.3: every field in range, the crc good. -/
def State.declOk (s : State) (j : JobSt) (b : List Byte) : Bool :=
  let x := parseBlock b
  let n := getLE b 42 2
  b.length == 64 + roundUp (2 * n) 64 && crcZeroAt b 60 == getLE b 60 4 && x.id != 0 && decide (getLE b 4 2 < 4096) &&
  decide (1 ≤ x.kind) && decide (x.kind ≤ 3) && decide (getLE b 7 1 < 32) && decide (getLE b 19 1 ≤ 4) &&
  x.stateFmts.all (fun f => decide (3 ≤ f) && decide (f ≤ 5)) &&
  (List.range 4).all (fun i => decide (i < getLE b 19 1) || getLE b (20 + i) 1 == 0) &&
  decide (x.workSlots ≤ 2) && (b.drop 25).take 3 == zeros 3 && (b.drop 44).take 16 == zeros 16 &&
  ((b.drop (64 + 2 * n)).all (· == 0)) && decide (n ≤ 512) &&
  (getLE b 38 2 == 0 || decide (16 ≤ getLE b 38 2)) &&
  (x.pubFmt == 0 || x.pubFmt == 2 || x.pubFmt == 3) && decide (x.pubRound ≤ 2) && decide (2 ≤ x.window) &&
  decide (x.window ≤ 4) &&
  (declaredSubs b).all (fun r => (j.addr r).isSome) &&
  (if x.kind = 3 then
    x.rows == 0 && x.cols == 0 && x.optimizer == 0 && x.microBatches == 0 && x.group == 0 && n == 0 &&
    (match (s.blockCtx x.job x.primary).bind s.parm.blocks.get? with
      | some p => p.kind != 3
      | none => false)
   else
    x.primary == 0 && (s.parm.opts.get? (x.job * 2 ^ 32 + x.optimizer)).isSome &&
    (if x.kind = 1 then
      x.rows % 32 == 0 && x.cols % 32 == 0 && decide (32 ≤ x.rows) && decide (x.rows ≤ 65536) &&
      decide (32 ≤ x.cols) && decide (x.cols ≤ 65536)
     else x.cols == 0 && decide (1 ≤ x.rows) && decide (x.rows ≤ 2 ^ 32 - 65536)))

/-- An optimizer record names only regions that the block has (R262). -/
def BlockSt.fits (b : BlockSt) (o : OptSt) : Bool :=
  o.stages.all fun st => st.kind != 1 || st.streams.all fun c => c == 0xF || b.hasRegion c

/-- The earlier block of the job on this module whose group a block without subscribers joins. -/
def State.groupOwner (s : State) (job group : Nat) : Option BlockSt :=
  s.parm.blocks.vals.find? fun b => b.job == job && b.group == group && b.kind != 3 && !b.subs.isEmpty

/-- One user more of a group. -/
def State.joinGroup (s : State) (id : Nat) : State :=
  match s.group? s.me id with
  | some g => s.setGroup { g with users := g.users + 1 }
  | none => s

/-- PARAM.DECLARE: a refusal, or the block's context; the group's set-up follows where one is made. -/
def State.declare (s : State) (b : List Byte) : (Nat ⊕ Nat) × State :=
  let x := parseBlock b
  match s.host.jobs.get? x.job with
  | none => (.inl Status.jobUnknown, s)
  | some j =>
    if !s.declOk j b then (.inl Status.descInvalid, s)
    else
      let subs := declaredSubs b
      let owner := s.groupOwner x.job x.group
      let x := if x.kind = 3 then
          { x with ep := (((s.blockCtx x.job x.primary).bind s.parm.blocks.get?).map BlockSt.ep).getD 0 }
        else { x with subs := if subs.isEmpty then (owner.map BlockSt.subs).getD [] else subs }
      let opt := (s.parm.opts.get? (x.job * 2 ^ 32 + x.optimizer)).getD { params := [], stages := [] }
      let used := x.kind ≠ 3 ∧ (owner.isNone ∨ !subs.isEmpty) ∧ s.groupUsed x.group
      if x.kind ≠ 3 ∧ subs.isEmpty ∧ owner.isNone ∧ !s.groupUsed x.group then (.inl Status.descInvalid, s)
      else if x.kind ≠ 3 ∧ !x.fits opt then (.inl Status.programInvalid, s)
      else if (s.blockCtx x.job x.id).isSome ∨ used then (.inl Status.opBusy, s)
      else
        match s.freeCtx with
        | none => (.inl Status.contextFull, s)
        | some ctx =>
          if 262144 ≤ s.parm.blocks.length then (.inl Status.contextFull, s)
          else if s.capacityLeft < x.capacity then (.inl Status.capacityExceeded, s)
          else
            match s.findRoom x.capacity with
            | none => (.inl Status.capacityExceeded, s)
            | some base =>
              let x := { x with base := base, size := x.capacity, stamp := s.stamp }
              let s := (s.stamped.useCtx ctx Use.block).setParm fun p => { p with blocks := p.blocks.set ctx x }
              let s := s.assignSubstitutes
              let kept := fun (o : Nat) => o == 1 || (decide (4 ≤ o) && decide (o ≤ 7))
              let s := (x.regions.filter fun r => !kept r.1).foldl (fun s r =>
                s.clearMem (x.regionAddr r.1) (roundUp r.2 grain)) s
              let s := (x.regions.filter fun r => kept r.1).foldl (fun s r =>
                s.undefine (x.regionAddr r.1) (roundUp r.2 grain)) s
              (.inr ctx,
                if x.kind = 3 then s
                else if subs.isEmpty then s.joinGroup x.group
                else s.installGroup x.job x.group (subs.filterMap j.addr))

/-- A block is removed: its capacity, context, engine jobs and, with the last block, group are freed. -/
def State.removeBlock (s : State) (ctx : Nat) : State :=
  match s.parm.blocks.get? ctx with
  | none => s
  | some b =>
    let s := (s.cancelJobs ctx).withdraw fun o => match o with
      | .push c _ => c == ctx
      | _ => false
    let gone := s.parm.pieces.filter fun p => p.block == ctx
    let s := gone.foldl (fun s p => match p.sett with
      | some (r, a) => (s.free (s.unitMaster b p.unit) r a).2
      | none => s) s
    let s := (s.setParm fun p => { p with
      blocks := p.blocks.erase ctx, ready := p.ready.filter (· != ctx),
      pieces := p.pieces.filter (fun q => q.block != ctx),
      told := (if b.publishing then p.told ++ [(b.job, b.id, Status.aborted)] else p.told) }).dropCtx ctx
    if b.kind = 3 then s else s.leaveGroup b.group

/-! ## States (R253) -/

/-- A block enters a state. -/
def State.blockState (s : State) (ctx st : Nat) : State :=
  let t := s.stamp
  s.stamped.setBlock ctx fun b => { b with state := st, stamp := t }

/-- The block of a command: its context, when the job has it. -/
def State.blockOf (s : State) (job id : Nat) : Option (Nat × BlockSt) :=
  (s.blockCtx job id).bind fun c => (s.parm.blocks.get? c).map fun b => (c, b)

/-- The tie members of a primary, in ascending block_id (R261). -/
def State.tieMembers (s : State) (b : BlockSt) : List (Nat × BlockSt) :=
  (s.parm.blocks.filter fun kv => kv.2.kind == 3 && kv.2.job == b.job && kv.2.primary == b.id).mergeSort
    fun x y => decide (x.2.id ≤ y.2.id)

/-- The event of a block in FAILED or with its step discarded. -/
def State.blockEvent (s : State) (b : BlockSt) (severity status : Nat) : State :=
  s.event severity 0x07 0x0010
    (leBytes 4 b.id ++ leBytes 2 b.job ++ leBytes 2 status ++ leBytes 4 b.version ++ leBytes 4 b.step) status

/-- The accumulators of a block and its tie members are cleared. -/
def State.clearAcc (s : State) (b : BlockSt) : State :=
  ((s.tieMembers b).map Prod.snd ++ [b]).foldl (fun s x => s.clearMem (x.regionAddr 3) (roundUp (8 * x.ep) grain)) s

/-- The next step opens. -/
def BlockSt.reopen (b : BlockSt) (status : Nat) : BlockSt :=
  { b with step := b.step + 1, started := 0, failed := 0, good := 0, lastStatus := status }

/-- A step is discarded (R256, PARAM.DISCARD). -/
def State.discardStep (s : State) (ctx : Nat) (status : Nat) : State :=
  match s.parm.blocks.get? ctx with
  | none => s
  | some b => ((s.clearAcc b).setBlock ctx fun b => b.reopen status).blockState ctx 2

/-- A PARAM.PUBLISH has ended. -/
def State.publishEnd (s : State) (ctx status : Nat) : State :=
  match s.parm.blocks.get? ctx with
  | some b =>
    if b.publishing then
      (s.setBlock ctx fun b => { b with publishing := false }).setParm fun p => { p with
        told := p.told ++ [(b.job, b.id, status)] }
    else s
  | none => s

/-- A block enters FAILED. -/
def State.failBlock (s : State) (ctx status : Nat) : State :=
  match s.parm.blocks.get? ctx with
  | none => s
  | some b =>
    let s := match b.run with
      | some c => s.endRun c status
      | none => s
    let s := if b.state = 5 then s.workEnded 1 b.job (status == Status.drained) else s
    let s := s.setParm fun p => { p with ready := p.ready.filter (· != ctx) }
    let s := (s.setBlock ctx fun b => { b with lastStatus := status, run := none, tiePass := false }).blockState ctx 6
    ((s.bump .paramUpdateFailed).blockEvent b 3 status).publishEnd ctx status

/-- No memory channel's migration is under way (R32). -/
def State.migrationsDone (s : State) : Bool := s.flt.channels.vals.all fun c => !c.migrating

/-- A block's accumulation is drained and the previous production has ended (R32, Table 11.4). -/
def State.blockDrained (s : State) (ctx : Nat) (b : BlockSt) : Bool :=
  let mine := ctx :: (s.tieMembers b).map Prod.fst
  b.producing.isNone && s.migrationsDone &&
  s.parm.pieces.all (fun p => !mine.contains p.block) &&
  s.coll.ops.vals.all fun c =>
    c.desc.kind != 4 || c.desc.root != s.me || c.job != b.job ||
    !(c.desc.tensors.any fun t => match s.blockCtx c.job t.2 with
        | some x => mine.contains x
        | none => false) ||
    (c.closing.isEmpty && (match c.inst with
      | some i => !i.blocks.any fun x => x.1 == ctx
      | none => true))

/-- The version whose slot V + 1 takes, if it exists (R267; DEDUCED, log entry 25). -/
def BlockSt.overwritten (b : BlockSt) : Option Nat :=
  if b.window ≤ b.version + 1 then some (b.version + 1 - b.window) else none

/-- That version has holders. -/
def BlockSt.heldUp (b : BlockSt) : Bool :=
  match b.overwritten with
  | some v => b.holds.getD v 0 != 0
  | none => false

/-- A CLOSED block that has drained: its step is discarded, or it waits for holders or for its update. -/
def State.reviewBlock (s : State) (ctx : Nat) : State :=
  match s.parm.blocks.get? ctx with
  | none => s
  | some b =>
    if b.state ≠ 3 ∨ b.kind = 3 ∨ !s.blockDrained ctx b then s
    else if 0 < b.failed ∧ !b.onPartial ∧ !b.publishing then
      ((s.bump .paramStepDiscarded).blockEvent b 2 Status.stepDiscarded).discardStep ctx Status.stepDiscarded
    else
      let s := s.setParm fun p => { p with ready := if p.ready.contains ctx then p.ready else p.ready ++ [ctx] }
      if b.heldUp then
        (s.setBlock ctx fun b => { b with holdSince := s.tick.counter }).blockState ctx 4
      else s

/-- Every CLOSED block is looked at. -/
def State.reviewBlocks (s : State) : State :=
  if s.parm.blocks.vals.any fun b => b.state == 3 then s.parm.blocks.keys.foldl State.reviewBlock s else s

/-! ## Accumulation (R258, R259) -/

/-- The chunk record of an operation's chunk, in its running instance or in an ended one that keeps its benches. -/
def State.chunkOf (s : State) (ctx gen chunk : Nat) : Option ChunkSt :=
  (s.coll.ops.get? ctx).bind fun c =>
    let slots := (match c.inst with
      | some i => if i.gen = gen then i.slots else []
      | none => []) ++ (c.closing.filter fun x => x.gen == gen).flatMap ClosingSt.slots
    (slots.find? fun x => x.c.chunk == chunk).map SlotRec.c

/-- Runs of elements of one tensor in a chunk, cut at unit boundaries: (unit, first element, count, element of the
chunk); `e` is the tensor's element, `i` the chunk's. -/
def cutUnits : Nat → Nat → Nat → Nat → List (Nat × Nat × Nat × Nat)
  | 0, _, _, _ => []
  | fuel + 1, e, i, n =>
    if n = 0 then []
    else
      let k := min n (512 - e % 512)
      (e / 512, e % 512, k, i) :: cutUnits fuel (e + k) (i + k) (n - k)

/-- The pieces of a finished chunk (R258). -/
def State.piecesOf (s : State) (ctx gen : Nat) (c : CollSt) (chunk : Nat) : List Piece :=
  let d := c.desc
  let lo := chunk * d.chunkElems
  let hi := min d.elements (lo + d.chunkLen chunk)
  (d.tensors.zip (tensorStarts 0 d.tensors)).flatMap fun ts =>
    let a := max lo ts.2
    let b := min hi (ts.2 + ts.1.1)
    match s.blockCtx c.job ts.1.2 with
    | none => []
    | some blk =>
      if b ≤ a then []
      else (cutUnits (b - a) (a - ts.2) (a - lo) (b - a)).map fun p =>
        { ctx := ctx, gen := gen, chunk := chunk, block := blk, unit := p.1, lo := p.2.1, n := p.2.2.1, at_ := p.2.2.2 }

/-- What a piece's values raise goes into the record of its instance, running or ended. -/
def State.pieceRaise (s : State) (p : Piece) (master : Nat) (raised : List Raised) : State :=
  match s.coll.ops.get? p.ctx with
  | none => (s.raiseAll {} master raised).2
  | some c =>
    match c.inst with
    | some i =>
      if i.gen = p.gen then
        let r := s.raiseAll i.exc master raised
        r.2.setInst p.ctx fun i => { i with exc := r.1 }
      else (s.raiseAll {} master raised).2
    | none =>
      if (c.last.map Prod.fst) = some p.gen then
        let r := s.raiseAll c.exc master raised
        r.2.setOp p.ctx fun c => { c with exc := r.1 }
      else (s.raiseAll {} master raised).2

/-- The values of a piece as F32 under round to nearest even, with the conversions that overflowed (R182, R258). -/
def State.pieceVals (s : State) (c : ChunkSt) (p : Piece) : List Byte × List Raised :=
  let q := (List.range p.n).map fun i => convert 4 0 0 (pairValue (s.chunkPair c (p.at_ + i)))
  (q.flatMap fun x => leBytes 4 x.1,
   (q.zipIdx.filter fun xi => xi.1.2).map fun xi => (4, p.chunk, p.at_ + xi.2, 0xFFFFFFFF))

/-- A piece is offered: with a P1 sett in its NCU's base tile its values are rounded to F32 and written there (R258). -/
def State.offerPiece (s : State) (p : Piece) : Piece × State :=
  match s.chunkOf p.ctx p.gen p.chunk, s.parm.blocks.get? p.block with
  | some c, some b =>
    let tile := s.unitTile b p.unit
    let r := s.requesterFor b.job (9 + tile)
    match s.alloc (s.unitMaster b p.unit) r (4 * p.n) tile false with
    | (some (a, _), _, s) =>
      let v := s.pieceVals c p
      ({ p with sett := some (r, a) }, (s.writeMem a v.1).pieceRaise p c.master v.2)
    | (none, _, s) => (p, s)
  | _, _ => (p, s)

/-- Pieces without a sett are offered in order. -/
def State.offerPieces (s : State) : State :=
  let r := s.parm.pieces.foldl (fun (acc : List Piece × State) p =>
    if p.sett.isSome then (acc.1 ++ [p], acc.2)
    else
      let q := acc.2.offerPiece p
      (acc.1 ++ [q.1], q.2)) ([], s)
  r.2.setParm fun x => { x with pieces := r.1 }

/-- A finished chunk is handed to the accumulations of its blocks. -/
def State.handChunk (s : State) (x : Nat × Nat × Nat) : State :=
  match s.coll.ops.get? x.1 with
  | none => s
  | some c =>
    (s.setParm fun p => { p with pieces := p.pieces ++ s.piecesOf x.1 x.2.1 c x.2.2 }).offerPieces

/-- A chunk is committed to every block it touches: its bit is set, its bench freed. -/
def State.chunkCommitted (s : State) (ctx gen chunk : Nat) : State :=
  match s.coll.ops.get? ctx with
  | none => s
  | some c =>
    match c.inst with
    | some i =>
      if i.gen = gen then
        let s := s.setOp ctx fun c => { c with committed := if c.committed.contains chunk then c.committed
                                                            else chunk :: c.committed }
        match i.slotOf chunk with
        | some k => s.freeSlot ctx k
        | none => s
      else if (c.closing.find? fun y => y.gen == gen).map ClosingSt.unacked == some 0 then s.completeSettled ctx gen
      else s
    | none =>
      if (c.closing.find? fun y => y.gen == gen).map ClosingSt.unacked == some 0 then s.completeSettled ctx gen else s

/-- Values added into an accumulator unit from an element on: what was raised, the state. -/
def State.accAdd (s : State) (addr chunk : Nat) : Nat → Nat → List F32 → List (Nat × Nat × Nat × Nat) × State
  | _, _, [] => ([], s)
  | e, col, x :: xs =>
    let m := s.readMem (addr + 8 * e) 8
    let q := addF32 (BitVec.ofNat 32 (getLE m 0 4), BitVec.ofNat 32 (getLE m 4 4)) x
    let r := State.accAdd (s.writeMem (addr + 8 * e) (pairBytes q.1)) addr chunk (e + 1) (col + 1) xs
    (if q.2 = 0 then r.1 else (q.2, chunk, col, 0xFFFFFFFF) :: r.1, r.2)

/-- An NCU commits the oldest piece at hand for a unit (R259); of a channel whose migration is under way none is applied. -/
def State.pieceCommit (s : State) (job id unit : Nat) : State :=
  match s.blockOf job id with
  | none => s
  | some (ctx, b) =>
    match s.parm.pieces.find? fun p => p.block == ctx && p.unit == unit && p.sett.isSome with
    | none => s
    | some p =>
      if s.isSafe || (s.flt.channels.getD (naturalChannel (unitPosition unit)) {}).migrating then s
      else
        let st := p.sett.getD (0, 0)
        let bs := s.readMem st.2 (4 * p.n)
        let vals := (List.range p.n).map fun i => (BitVec.ofNat 32 (getLE bs (4 * i) 4) : F32)
        let master := s.unitMaster b unit
        let r := s.accAdd (b.unitAt 3 5 unit) p.chunk p.lo p.at_ vals
        let s := (r.2.pieceRaise p master r.1).bump .paramPieces
        let s := s.setParm fun x => { x with pieces := x.pieces.erase p }
        let s := (s.free master st.1 st.2).2
        if s.parm.pieces.any fun q => q.ctx == p.ctx && q.gen == p.gen && q.chunk == p.chunk then s
        else s.chunkCommitted p.ctx p.gen p.chunk

/-- The blocks are told of an ended instance (R256). -/
def State.instanceEnded (s : State) (blocks : List (Nat × Nat)) (status : Nat) : State :=
  let bad := [Status.memberTimeout, Status.memberLost, Status.aborted, Status.drained, Status.functionDisabled,
    Status.checkMismatch, Status.contribOverlap, Status.noBench, Status.contextFull, Status.poolEmpty,
    Status.quotaExceeded].contains status
  blocks.foldl (fun s cb =>
    s.setBlock cb.1 fun b =>
      if b.step ≠ cb.2 ∨ status = Status.replayed then b
      else if bad then { b with failed := b.failed + 1 } else { b with good := b.good + 1 }) s

/-! ## Copies (R265, R268) -/

/-- 512 values encoded as a unit of a copy, elements and scales; the exceptions name the element. -/
def encodeUnit (b : BlockSt) (u : Nat) (c : ArithCtx) (vals : List F32) : List Byte × List Byte × ArithCtx :=
  encodeVals b.pubFmt b.pubRound (fun i => (512 * u + i, 0xFFFFFFFF)) c (vals.map f32Num)

/-- A unit of a forward copy written. -/
def State.writeForward (s : State) (b : BlockSt) (slot u : Nat) (elems scales : List Byte) : State :=
  let s := s.writeMem (b.unitAt (11 + 4 * slot) b.pubFmt u) elems
  if isBlock b.pubFmt then s.writeMem (b.unitAt (12 + 4 * slot) (if b.pubFmt = 2 then 7 else 6) u) scales else s

/-- What unit `m` raised in an update or production goes into the block's record (R266). -/
def State.blockRaise (s : State) (ctx m : Nat) (c : ArithCtx) : State :=
  let s := (s.tookDraws m c).countFlush c.flushed
  match s.parm.blocks.get? ctx with
  | none => s
  | some b =>
    let r := s.raiseAll b.exc m c.raised
    r.2.setBlock ctx fun b => { b with exc := r.1 }

/-- The forward copy of a version, made from the master (PARAM.PUBLISH). -/
def State.forwardFromMaster (s : State) (ctx v : Nat) : State :=
  match s.parm.blocks.get? ctx with
  | none => s
  | some b =>
    (List.range b.units).foldl (fun (s : State) u =>
      let m := s.unitMaster b u
      let e := encodeUnit b u (s.arithCtx m) (s.unitWords b 1 4 u)
      (s.writeForward b (v % b.window) u e.1 e.2.1).blockRaise ctx m e.2.2) s

/-- A row of 32 elements of a transposed tile as the AXPBY job with alpha 1.0 makes it: element and scale bytes. The exceptions name
the element's row and column in the transposed matrix (DESIGN CHOICE, log entry 73). -/
def transposeRow (b : BlockSt) (row col : Nat) (xs : List F32) (cx : ArithCtx) : List Byte × List Byte × ArithCtx :=
  let prods := xs.map fun x => let p := f32Mul 0x3F800000 x; (p.1, p.2 ||| nanKind [x])
  let cx := prods.zipIdx.foldl (fun c p => c.raise p.1.2 row (col + p.2) 0xFFFFFFFF) cx
  encodeVals b.pubFmt b.pubRound (fun i => (row, col + i)) cx (prods.map fun p => f32Num p.1)

/-- The transposed copy's tile made by engine `m` from tile `t` of the master, whose bytes its scratch holds (R268). -/
def State.transposeTile (s : State) (ctx m t : Nat) (src : List Byte) : State :=
  match s.parm.blocks.get? ctx with
  | none => s
  | some b =>
    match b.producing with
    | none => s
    | some v =>
      let slot := v % b.window
      let at_ := fun (r c : Nat) => (BitVec.ofNat 32 (getLE src (128 * r + 4 * c) 4) : F32)
      let across := b.rows / 32
      let t' := t % (b.cols / 32) * across + t / (b.cols / 32)
      let size := unitSize b.pubFmt
      let r := (List.range 32).foldl (fun (acc : ArithCtx × State) r =>
        let u := tileUnit t' + 128 * (r / 16)
        let e := transposeRow b (32 * (t' / across) + r) (32 * (t' % across)) ((List.range 32).map fun c => at_ c r) acc.1
        let s := acc.2.writeMem (b.unitAt (13 + 4 * slot) b.pubFmt u + size / 16 * (r % 16)) e.1
        (e.2.2, if isBlock b.pubFmt then
            s.writeMem (b.unitAt (14 + 4 * slot) (if b.pubFmt = 2 then 7 else 6) u + e.2.1.length * (r % 16)) e.2.1
          else s)) (s.arithCtx m, s)
      r.2.blockRaise ctx m r.1

/-! ## Versions (R267–R271) -/

/-- The bitmap of every subscriber. -/
def BlockSt.allSubs (b : BlockSt) : Nat := 2 ^ b.subs.length - 1

/-- Segments of a copy. -/
def BlockSt.segments (b : BlockSt) : Nat := ceilDiv b.ep (segElems b.pubFmt)

/-- Elements and scales of segment `g` of a copy, read from its slot. -/
def State.segPayload (s : State) (b : BlockSt) (slot order g : Nat) : List Byte :=
  let n := min (segElems b.pubFmt) (b.ep - g * segElems b.pubFmt)
  let us := rangeFrom (g * segElems b.pubFmt / 512) (n / 512)
  let o := 11 + 4 * slot + 2 * order
  let el := us.flatMap fun u => s.unitBytes b o b.pubFmt u
  let sc := if isBlock b.pubFmt then us.flatMap fun u => s.unitBytes b (o + 1) (if b.pubFmt = 2 then 7 else 6) u else []
  padTo (roundUp el.length 64) el ++ padTo (roundUp sc.length 64) sc

/-- One segment of a copy as a frame (R271). -/
def State.weightFrame (s : State) (ctx : Nat) (b : BlockSt) (v order g opcode cls node ep : Nat) (last : Bool) : Frame :=
  let p := s.segPayload b (v % b.window) order g
  { hdr := { opcode := opcode, cls := cls, phase := 1, dstNode := node, dstEp := ep, srcNode := s.me, srcEp := 0xFFF1,
             job := b.job, units := p.length / 64, last := last, opId := ctx + 1048576 * (v % 4096),
             position := 256 * g + 128 * order },
    payload := p }

/-- Both copies of the current version go to the subscribers (R270). -/
def State.pushVersion (s : State) (ctx : Nat) : State :=
  match s.parm.blocks.get? ctx with
  | none => s
  | some b =>
    if !b.push || b.subs.isEmpty then s
    else
      let orders := if b.kind = 1 && !b.noTrans then [0, 1] else [0]
      let n := b.segments
      let s := s.setBlock ctx fun b => { b with pushing := orders.length * n }
      orders.foldl (fun s o => (List.range n).foldl (fun (s : State) g =>
        s.send (s.weightFrame ctx b b.version o g Op.weightMcast 2 s.me b.group (g + 1 == n))
          (.push ctx b.version)) s) s

/-- A version becomes current. -/
def State.becomeCurrent (s : State) (ctx : Nat) : State :=
  match s.parm.blocks.get? ctx with
  | none => s
  | some b =>
    match b.producing with
    | none => s
    | some v =>
      let first := b.state == 1
      let kept := b.holds.filter fun kv => decide (v < kv.1 + b.window)
      let s := s.setBlock ctx fun b => { b with
        version := v, producing := none, published := true, holds := NMap.set kept v b.allSubs }
      let s := if first then
          (s.setBlock ctx fun b => { b with step := 0, started := 0, failed := 0, good := 0 }).blockState ctx 2 else s
      let s := s.workEnded 1 b.job false
      (s.publishEnd ctx b.exc.status).pushVersion ctx

/-- Transposition jobs of a block are issued into the queues of the tiles above their master granules, as space allows (R268). -/
def State.issueTiles (s : State) (ctx : Nat) (b : BlockSt) : List Nat → List Nat × State
  | [] => ([], s)
  | t :: ts =>
    let k := s.granuleTile b t
    if (s.queue k).length < 8192 then
      State.issueTiles (s.setQueue k (s.queue k ++ [⟨ctx, t, s.tick.counter⟩])) ctx b ts
    else
      let r := State.issueTiles s ctx b ts
      (t :: r.1, r.2)

/-- The production of a version starts, its forward copy being written (R268). -/
def State.produce (s : State) (ctx v : Nat) : State :=
  match s.parm.blocks.get? ctx with
  | none => s
  | some b =>
    let s := s.setBlock ctx fun b => { b with producing := some v }
    if b.kind = 1 && !b.noTrans then
      let r := s.issueTiles ctx b (List.range b.tiles)
      r.2.setBlock ctx fun b => { b with unissued := r.1, jobsLeft := b.tiles, returned := [] }
    else s.becomeCurrent ctx

/-- At the assignment point more transposition jobs find room. -/
def State.issueMore (s : State) : State :=
  s.parm.blocks.keys.foldl (fun (s : State) c =>
    match s.parm.blocks.get? c with
    | some b =>
      if b.unissued.isEmpty then s
      else
        let r := s.issueTiles c b b.unissued
        r.2.setBlock c fun b => { b with unissued := r.1 }
    | none => s) s

/-- A job of a block's production has ended on engine `k`, with the master's tile in its scratch: a good one writes its tile; one whose
check has failed returns once to the head of its queue (R213), and the second time is issued again (R268). -/
def State.tileDone (s : State) (k : Nat) (q : QJob) (x : Scratch) (good : Bool) : State :=
  match s.parm.blocks.get? q.ctx with
  | none => s
  | some b =>
    if b.producing.isNone then s
    else if good then
      let s := s.transposeTile q.ctx (masterId 0 (k / 136) (k % 136)) q.idx (x.a.headD [])
      let s := s.setBlock q.ctx fun b => { b with jobsLeft := b.jobsLeft - 1 }
      if b.jobsLeft ≤ 1 then s.becomeCurrent q.ctx else s
    else if b.returned.contains q.idx then
      let s := s.setBlock q.ctx fun b => { b with returned := b.returned.filter (· != q.idx) }
      let r := s.issueTiles q.ctx b [q.idx]
      r.2.setBlock q.ctx fun b => { b with unissued := b.unissued ++ r.1 }
    else (s.setBlock q.ctx fun b => { b with returned := q.idx :: b.returned }).requeue q

/-- A tick job finishes on an engine: of a program's run, or of a block's production (R201, R213, R268). -/
def State.engineJobDone (s : State) (k : Nat) (good : Bool) : State :=
  let e := s.engine k
  let s := s.jobDone k good
  match e.running with
  | some q => if e.suppressed then s else s.tileDone k q e.active good
  | none => s

/-! ## The update (R260–R266) -/

/-- Units of a block at position `p` of the interleave. -/
def BlockSt.unitsAt (b : BlockSt) (p : Nat) : Nat := (b.units + 127 - p) / 128

/-- Units at position `p` that the stage at hand has still to do. -/
def BlockSt.leftAt (b : BlockSt) (p : Nat) : Nat := b.unitsAt p - b.done.getD p 0

/-- The positions of a block's units that lie on channel `ch` (R18). -/
def State.positionsOn (s : State) (b : BlockSt) (ch : Nat) : List Nat :=
  (List.range 128).filter fun p => s.channelAt b.base p == ch

/-- At most `n` of the next units of a stage at some positions, and the units then done at each. -/
def BlockSt.takeUnits (b : BlockSt) : List Nat → Nat → List Nat × NMap Nat
  | [], _ => ([], b.done)
  | p :: ps, n =>
    let k := min n (b.leftAt p)
    let d := b.done.getD p 0
    let r := BlockSt.takeUnits b ps (n - k)
    ((rangeFrom d k).map (fun i => p + 128 * i) ++ r.1, if k = 0 then r.2 else r.2.set p (d + k))

/-- Every unit of the stage at hand is done. -/
def BlockSt.stageDone (b : BlockSt) : Bool := (List.range 128).all fun p => b.leftAt p == 0

/-- The optimizer record of a block. -/
def State.optOf (s : State) (b : BlockSt) : OptSt :=
  (s.parm.opts.get? (b.job * 2 ^ 32 + b.optimizer)).getD { params := [], stages := [] }

/-- The stage at hand is issued: a kernel stage runs on the NCUs; an engine stage starts a run (R264). -/
def State.startStage (s : State) (ctx : Nat) : State :=
  match s.parm.blocks.get? ctx with
  | none => s
  | some b =>
    match (s.optOf b).stages[b.stage]? with
    | none => s
    | some st =>
      let s := s.setBlock ctx fun b => { b with done := [] }
      if st.kind = 1 then
        (if (s.eng.kernels.get? st.kernel).isSome then s else s.failBlock ctx Status.programInvalid)
      else if s.disabled 3 b.job then s.failBlock ctx Status.functionDisabled
      else
        match b.progs.get? st.slot with
        | none => s.failBlock ctx Status.contextStale
        | some p =>
          match s.startRun p (some (b.job, b.id)) with
          | (.inl c, s) => s.setBlock ctx fun b => { b with run := some c }
          | (.inr status, s) => s.failBlock ctx status

/-- A stage has ended well: the next one starts, or the commit is complete (R265). -/
def State.stageEnd (s : State) (ctx : Nat) : State :=
  match s.parm.blocks.get? ctx with
  | none => s
  | some b =>
    if b.tiePass then (s.setBlock ctx fun b => { b with tiePass := false }).startStage ctx
    else if b.stage + 1 < (s.optOf b).stages.length then
      (s.setBlock ctx fun b => { b with stage := b.stage + 1, run := none }).startStage ctx
    else
      let s := (s.bump .paramUpdates).setBlock ctx fun b => { b with
        committedAt := some s.tick.counter, lastStatus := b.exc.status }
      s

/-- A block is taken into UPDATING (R260, R266, R267). -/
def State.beginUpdate (s : State) (ctx : Nat) : State :=
  match s.parm.blocks.get? ctx with
  | none => s
  | some b =>
    let mask := if b.kind = 3 then [] else s.readMem (b.regionAddr 10) b.maskBytes
    let tie := !(s.tieMembers b).isEmpty
    let s := s.setParm fun p => { p with ready := p.ready.filter (· != ctx) }
    let s := (s.setBlock ctx fun b => { b with
      exc := {}, mask := mask, stage := 0, done := [], kept := 0, committedAt := none, run := none,
      tiePass := tie && !b.publishing,
      holds := match b.overwritten with
        | some v => b.holds.erase v
        | none => b.holds }).blockState ctx 5
    if b.publishing then
      (s.forwardFromMaster ctx (b.version + 1)).setBlock ctx fun b => { b with committedAt := some s.tick.counter }
    else if tie then s else s.startStage ctx

/-- A drained block may be taken now: a place is free, and no block that drained earlier could take it. -/
def State.mayUpdate (s : State) (ctx : Nat) : Bool :=
  let busy := (s.parm.blocks.vals.filter fun b => b.state == 5).length
  let able := s.parm.ready.filter fun c => match s.parm.blocks.get? c with
    | some b => (b.state == 3 || b.state == 4) && !b.heldUp && s.blockDrained c b
    | none => false
  decide (busy < s.cfg .paramUpdateCfg 0 0 7) && able.head? == some ctx

/-- UPDATE_START and HOLD_WAIT_END: the block enters UPDATING from the state named. -/
def State.updateFrom (s : State) (job id : Nat) (states : List Nat) : State :=
  match s.blockOf job id with
  | some (ctx, b) => if states.contains b.state && s.mayUpdate ctx && !s.isSafe then s.beginUpdate ctx else s
  | none => s

/-- hold_timeout ticks in HOLD_WAIT (Table 11.4). -/
def State.holdExpired (s : State) (job id : Nat) : State :=
  match s.blockOf job id with
  | some (ctx, b) =>
    if b.state = 4 ∧ b.holdSince + b.holdTimeout ≤ s.tick.counter then s.failBlock ctx Status.versionHeld else s
  | none => s

/-- A tie member's accumulator unit added into the primary's, the member's then cleared (R261). -/
def State.tieUnit (s : State) (m u : Nat) (b x : BlockSt) (ctx : Nat) : State :=
  let pa := b.unitAt 3 5 u
  let ma := x.unitAt 3 5 u
  let r := (List.range 512).foldl (fun (acc : ArithCtx × State) i =>
    let get := fun (a : Nat) => let w := acc.2.readMem (a + 8 * i) 8
      ((BitVec.ofNat 32 (getLE w 0 4), BitVec.ofNat 32 (getLE w 4 4)) : F32P)
    let q := addF32P (get pa) (get ma)
    (acc.1.raise q.2 (512 * u + i) 0xFFFFFFFF 0xFFFFFFFF, acc.2.writeMem (pa + 8 * i) (pairBytes q.1)))
    (s.arithCtx m, s)
  (r.2.writeMem ma (zeros 4096)).blockRaise ctx m r.1

/-- The tie pass of an NCU on some units of the primary: each tie member, in ascending block_id. -/
def State.tieUnits (s : State) (ctx m : Nat) (b : BlockSt) (units : List Nat) : State :=
  units.foldl (fun (s : State) u => (s.tieMembers b).foldl (fun (s : State) x => s.tieUnit m u b x.2 ctx) s) s

/-- The reciprocal of an F32 number that is not negative, +0 for 0; the quotient's last bit stands for what is below it. -/
def recipF32 (x : F32) : F32 :=
  match f32Num x with
  | .fin _ m e _ => if m = 0 then 0 else numF32 (Num.mk false (2 * (2 ^ 64 / m) + b2n (decide (2 ^ 64 % m ≠ 0))) (-65 - e))
  | _ => 0

/-- The parameters of a kernel: the record's, then 56 to 63 (R262, R263). -/
def BlockSt.kernelParams (b : BlockSt) (o : OptSt) : List F32 :=
  let n := numF32 (Num.mk false b.good 0)
  o.params ++ [numF32 (Num.mk false (b.step + 1) 0), n, b.multiplier, recipF32 n, 0, 0, 0, 0]

/-- The slot that the update under way writes. -/
def BlockSt.newSlot (b : BlockSt) : Nat := (b.version + 1) % b.window

/-- Code of a copy's scales as a stream. -/
def BlockSt.scaleCode (b : BlockSt) : Nat := if b.pubFmt = 2 then 7 else 6

/-- Lanes of F32 words. -/
def wordLanes (bs : List Byte) : List (F32 × F32 × Nat) :=
  (List.range (bs.length / 4)).map fun i => (BitVec.ofNat 32 (getLE bs (4 * i) 4), 0, 0)

/-- Lanes of decoded elements (R177). -/
def decodedLanes (fmt : Nat) (elems scales : List Byte) : List (F32 × F32 × Nat) :=
  (decodeVals fmt elems scales).map fun v => (numF32 v.1, 0, 4 * b2n v.2)

/-- The 512 elements of unit `u` of a kernel's stream as LD fills lanes with them: hi, lo and the kinds raised (R214). -/
def State.streamLanes (s : State) (b : BlockSt) (code u : Nat) : List (F32 × F32 × Nat) :=
  let r := b.regionOf code b.newSlot
  let bs := if 10 < code then [] else s.unitBytes b r.1 r.2 u
  if 10 ≤ code then
    (List.range 16).flatMap fun g =>
      let v := Config.scaleLanes ((bs.drop (g * (bs.length / 16))).take (bs.length / 16))
      (List.range 32).map fun i => (v.getD i 0, 0, 0)
  else if code = 9 then
    decodedLanes b.pubFmt bs (if isBlock b.pubFmt then s.unitBytes b (12 + 4 * b.newSlot) b.scaleCode u else [])
  else if r.2 = 5 then
    (pairsOf bs).map fun p => (p.1, p.2, 0)
  else if r.2 = 3 then decodedLanes 3 bs []
  else wordLanes bs

/-- The streams of a kernel on one unit: a spoiled row of the accumulator loads +0 where spoil_grad is set (R266). Every LD of a unit
reads what stood before the unit's stores (DESIGN CHOICE, log entry 74). -/
def State.kernelInputs (s : State) (b : BlockSt) (st : OptStage) (u : Nat) : List (List (F32 × F32 × Nat)) :=
  st.streams.map fun c =>
    let v := s.streamLanes b c u
    if c = 2 && b.spoilGrad then v.zipIdx.map fun x => if b.spoiled u (x.2 / 32) then (0, 0, 0) else x.1 else v

/-- The streams of a kernel that hold F32P. -/
def BlockSt.pairStreams (b : BlockSt) (st : OptStage) : List Nat :=
  (st.streams.zipIdx.filter fun c => c.1 ≤ 8 && (b.regionOf c.1 0).2 == 5).map Prod.snd

/-- A kernel run on one unit, group of 32 lanes after group: the registers it leaves, what each group stored last into each stream
(stream, hi lanes, lo lanes), the converter. -/
def runKernel (image : List Byte) (params : List F32) (inputs : List (List (F32 × F32 × Nat))) (pairs : List Nat) (u : Nat)
    (regs : NMap (List F32)) (cx : ArithCtx) : NMap (List F32) × List (List (Nat × List F32 × List F32)) × ArithCtx :=
  (List.range 16).foldl (fun acc g =>
    let env : LaneEnv := { params := params, mode := Config.kernelMode image % 3, pairs := pairs, base := 512 * u + 32 * g
                           inputs := inputs.map fun v => (v.drop (32 * g)).take 32 }
    let l := (Config.kernelOps image).foldl (Lanes.run env) { regs := acc.1, stores := [], cx := acc.2.2 }
    (l.regs, acc.2.1 ++ [l.stores], l.cx)) (regs, [], cx)

/-- What a kernel's groups stored into stream `i`: hi and lo words of the unit; none where it has no ST of it. -/
def storedIn (i : Nat) (groups : List (List (Nat × List F32 × List F32))) : Option (List F32 × List F32) :=
  let last := groups.map fun l => ((l.filter fun x => x.1 == i).getLast?).map Prod.snd
  if last.all Option.isSome && !last.isEmpty then
    some ((last.filterMap id).flatMap Prod.fst, (last.filterMap id).flatMap Prod.snd)
  else none

/-- Stored words in the format of a region other than a copy: BF16 under the kernel's rounding mode (R214). -/
def storeWords (fmt mode : Nat) (at_ : Nat → Nat × Nat) (w : List F32 × List F32) (cx : ArithCtx) : List Byte × ArithCtx :=
  if fmt = 3 then
    let e := encodeVals 3 mode at_ cx (w.1.map f32Num)
    (e.1, e.2.2)
  else if fmt = 5 then ((w.1.zip w.2).flatMap pairBytes, cx)
  else (w.1.flatMap fun x => leBytes 4 x.toNat, cx)

/-- The bytes of a unit with some of its 16 rows taken from another. -/
def mixRows (keep : Nat → Bool) (new old : List Byte) : List Byte :=
  let n := old.length / 16
  (List.range 16).flatMap fun r => ((if keep r then old else new).drop (r * n)).take n

/-- The stores of a kernel on a unit, encoded: (stream, elements, scales), the scales of the new forward copy beside its elements
(R265); a store to the scales alone has no effect of its own (DESIGN CHOICE, log entry 65). -/
def BlockSt.encodeStores (b : BlockSt) (st : OptStage) (mode u : Nat) (groups : List (List (Nat × List F32 × List F32)))
    (cx : ArithCtx) : List (Nat × List Byte × List Byte) × ArithCtx :=
  st.streams.zipIdx.foldl (fun acc ci =>
    match (if ci.1 ≤ 9 then storedIn ci.2 groups else none) with
    | none => acc
    | some w =>
      if ci.1 = 9 then
        let e := encodeUnit b u acc.2 w.1
        (acc.1 ++ [(9, e.1, e.2.1)], e.2.2)
      else
        let e := storeWords (b.regionOf ci.1 0).2 mode (fun i => (512 * u + i, 0xFFFFFFFF)) w acc.2
        (acc.1 ++ [(ci.1, e.1, [])], e.2)) ([], cx)

/-- A stream that only the commit stage writes: master, compensation, state. -/
def onlyCommit (code : Nat) : Bool := decide (code ≤ 1) || (decide (3 ≤ code) && decide (code ≤ 6))

/-- A unit's stores, suppressed on the rows kept (R266). -/
def State.storeStream (s : State) (b : BlockSt) (u : Nat) (keep : Nat → Bool) (x : Nat × List Byte × List Byte) : State :=
  if x.1 = 9 then s.writeForward b b.newSlot u x.2.1 x.2.2
  else
    let r := b.regionOf x.1 0
    s.writeMem (b.unitAt r.1 r.2 u) (if onlyCommit x.1 then mixRows keep x.2.1 (s.unitBytes b r.1 r.2 u) else x.2.1)

/-- The rows kept of a unit's new forward copy, from the current version's (R266). -/
def State.keepForward (s : State) (b : BlockSt) (u : Nat) (keep : Nat → Bool) : State :=
  let cur := b.version % b.window
  let mix := fun (o fmt : Nat) => mixRows keep (s.unitBytes b (o + 4 * b.newSlot) fmt u) (s.unitBytes b (o + 4 * cur) fmt u)
  if (List.range 16).any keep then
    s.writeForward b b.newSlot u (mix 11 b.pubFmt) (if isBlock b.pubFmt then mix 12 b.scaleCode else [])
  else s

/-- One unit of a kernel stage on channel `ch`: the kernel runs; its stores are made, in the commit stage suppressed on spoiled rows
and, where it raised an exception of level 1 or more, on every row; the forward copy; the cleared accumulator (R265, R266). -/
def State.kernelUnit (s : State) (ch ctx : Nat) (b : BlockSt) (st : OptStage) (u : Nat) : State :=
  match s.eng.kernels.get? st.kernel with
  | none => s
  | some k =>
    let m := ncuMaster ch
    let regs := (List.range 32).map fun r => (r, s.eng.vregs.getD (32 * ch + r) (List.replicate 32 0))
    let run := runKernel k.image (b.kernelParams (s.optOf b)) (s.kernelInputs b st u) (b.pairStreams st) u regs (s.arithCtx m)
    let enc := b.encodeStores st (Config.kernelMode k.image % 3) u run.2.1 run.2.2
    let bad := s.gradedKinds (enc.2.raised.foldl (fun w r => w ||| r.1) 0) != 0
    let keep := fun (r : Nat) => st.commit && (bad || b.spoiled u r)
    let s := s.setEng fun e => { e with vregs := run.1.foldl (fun v r => v.set (32 * ch + r.1) r.2) e.vregs }
    let s := (enc.1.foldl (fun (s : State) x => s.storeStream b u keep x) s).keepForward b u keep
    let s := if st.commit then s.writeMem (b.unitAt 3 5 u) (zeros 4096) else s
    let s := if st.commit && bad then s.setBlock ctx fun b => { b with kept := b.kept + 1 } else s
    s.blockRaise ctx m enc.2

/-- The next block that an NCU takes a step of, in rotating order (R262). -/
def State.nextForNcu (s : State) (ch : Nat) : Option Nat :=
  let able := s.parm.blocks.keys.filter fun c => match s.parm.blocks.get? c with
    | some b =>
      b.state == 5 && b.committedAt.isNone && ((s.positionsOn b ch).any fun p => b.leftAt p != 0) &&
      (b.tiePass || ((s.optOf b).stages[b.stage]?).map OptStage.kind == some 1)
    | none => false
  let last := s.parm.served.getD ch 0
  match able.find? fun c => decide (last < c) with
  | some c => some c
  | none => able.head?

/-- After a step: an exception of level 1 or more before the commit fails the block; with its last unit a stage ends. -/
def State.stepEnd (s : State) (ctx : Nat) (commit : Bool) : State :=
  match s.parm.blocks.get? ctx with
  | none => s
  | some b =>
    if !commit && b.exc.status != Status.ok then s.failBlock ctx b.exc.status
    else if b.stageDone then s.stageEnd ctx else s

/-- A step of one block completes on the NCU of a channel: the tie pass on all its units, or up to step_units of a kernel stage. -/
def State.blockStep (s : State) (ch ctx : Nat) : State :=
  match s.parm.blocks.get? ctx with
  | none => s
  | some b =>
    let s := s.setParm fun p => { p with served := p.served.set ch ctx }
    let ps := s.positionsOn b ch
    if b.tiePass then
      let t := b.takeUnits ps b.units
      ((s.tieUnits ctx (ncuMaster ch) b t.1).setBlock ctx fun b => { b with done := t.2 }).stepEnd ctx false
    else
      match (s.optOf b).stages[b.stage]? with
      | none => s
      | some st =>
        let t := b.takeUnits ps st.units
        let s := t.1.foldl (fun (s : State) u => s.kernelUnit ch ctx b st u) s
        (s.setBlock ctx fun b => { b with done := t.2 }).stepEnd ctx st.commit

/-- The step that the NCU of a channel has under way completes (R216): the block whose turn it is advances. -/
def State.kernelStep (s : State) (ch : Nat) (late : Bool) : State :=
  match s.ncuStep ch late with
  | none => s
  | some s =>
    if s.isSafe then s
    else
      match s.nextForNcu ch with
      | some ctx => s.blockStep ch ctx
      | none => s

/-- A record with what a part of its operation has raised: the more serious kind's first exception stands (R195). -/
def ExcRec.joined (x y : ExcRec) : ExcRec :=
  let l := if y.kind ≠ 0 ∧ (x.kind = 0 ∨ y.kind < x.kind) then y else x
  { l with seen := x.seen ||| y.seen, graded := x.graded ||| y.graded, count := min (x.count + y.count) (2 ^ 32 - 1) }

/-- The run of an engine stage has ended (R264); what it raised is in the block's record too (R266). -/
def State.blockRunEnded (s : State) (pctx status : Nat) : State :=
  match s.parm.blocks.find? fun kv => kv.2.run == some pctx with
  | none => s
  | some (ctx, _) =>
    let x := ((s.prog? pctx).map ProgSt.lastExc).getD {}
    let s := s.setBlock ctx fun b => { b with run := none, exc := b.exc.joined x }
    if status = Status.ok then s.stageEnd ctx else s.failBlock ctx status

/-- The boundary after the commit: the next step opens, and production starts (R265). -/
def State.nextStep (s : State) (job id : Nat) : State :=
  match s.blockOf job id with
  | none => s
  | some (ctx, b) =>
    match b.committedAt with
    | none => s
    | some t =>
      if b.state ≠ 5 ∨ s.tick.counter ≤ t then s
      else if b.doomed then s.removeBlock ctx
      else
        let status := b.lastStatus
        let s := (s.setBlock ctx fun b => { b.reopen status with committedAt := none }).blockState ctx 2
        (s.workEnded 1 b.job false).produce ctx (b.version + 1)

/-! ## Commands (Table 11.8) -/

/-- The state of a block: a tie member is in its primary's (R253). -/
def State.stateOf (s : State) (ctx : Nat) (b : BlockSt) : Nat × Nat :=
  let l := (s.parm.blocks.get? (s.leader ctx)).getD b
  (l.state, l.started)

/-- PARAM.PUBLISH: accepted, or a status. -/
def State.publish (s : State) (job id : Nat) : Option Nat × State :=
  match s.blockOf job id with
  | none => (some Status.blockUnknown, s)
  | some (ctx, b) =>
    if b.kind = 3 ∨ b.publishing ∨ b.producing.isSome ∧ b.state = 1 then (some Status.blockState, s)
    else if b.state = 1 then
      let s := (s.setBlock ctx fun b => { b with publishing := true }).forwardFromMaster ctx 0
      (none, s.produce ctx 0)
    else if b.state = 2 ∧ b.started = 0 then
      (none, ((s.setBlock ctx fun b => { b with publishing := true }).blockState ctx 3).reviewBlock ctx)
    else (some Status.blockState, s)

/-- PARAM.CLOSE of one block, or of every ACCUMULATING block of the job. -/
def State.closeStep (s : State) (job id : Nat) : Nat × State :=
  if id = 0 then
    (Status.ok, (s.parm.blocks.filter fun kv => kv.2.job == job && kv.2.kind != 3 && kv.2.state == 2).foldl
      (fun s kv => (s.blockState kv.1 3).reviewBlock kv.1) s)
  else
    match s.blockCtx job id with
    | none => (Status.blockUnknown, s)
    | some c =>
      let c := s.leader c
      if ((s.parm.blocks.get? c).map BlockSt.state) = some 2 then (Status.ok, (s.blockState c 3).reviewBlock c)
      else (Status.blockState, s)

/-- Host bytes in storage order put into a region (PARAM.INIT; DEDUCED, log entry 26). -/
def State.fillRegion (s : State) (b : BlockSt) (code : Nat) (bytes : List Byte) : State :=
  let r := b.regionOf code 0
  let n := unitSize r.2
  (List.range b.units).foldl (fun s u => s.writeMem (b.unitAt r.1 r.2 u) ((bytes.drop (u * n)).take n)) s

/-- A region's bytes in storage order (PARAM.READ); of a forward copy, those of the version that was committed last. -/
def State.regionBytes (s : State) (b : BlockSt) (code : Nat) : List Byte :=
  let r := b.regionOf code (b.producing.getD b.version % b.window)
  (List.range b.units).flatMap fun u => s.unitBytes b r.1 r.2 u

/-- Bytes of a region of a code. -/
def BlockSt.codeBytes (b : BlockSt) (code : Nat) : Nat := b.units * unitSize (b.regionOf code 0).2

/-- A stage entry (Table 11.5). -/
def parseStage (b : List Byte) : OptStage :=
  { kind := getLE b 0 1, commit := bit (getLE b 1 1) 0, kernel := getLE b 2 2, slot := getLE b 4 1, units := getLE b 5 1,
    streams := (List.range 8).map fun i => getLE b (6 + i) 1 }

/-- The stages of a record. -/
def parseStages (b : List Byte) : List OptStage :=
  (List.range (getLE b 6 1)).map fun i => parseStage ((b.drop (288 + 16 * i)).take 16)

/-- One stage's fields. -/
def stageOk (b : List Byte) (st : OptStage) : Bool :=
  (st.kind == 1 || st.kind == 2) && decide (getLE b 1 1 < 2) && getLE b 14 2 == 0 &&
  (if st.kind = 1 then
    decide (1 ≤ st.units) && decide (st.units ≤ 64) && st.streams.all fun c => decide (c ≤ 10) || c == 15
   else decide (st.slot ≤ 3))

/-- R262: the record is accepted. -/
def State.optimizerOk (s : State) (b : List Byte) : Bool :=
  let n := getLE b 6 1
  let stages := parseStages b
  b.length == 288 + 16 * n && crcZeroAt b 60 == getLE b 60 4 && (b.drop 7).take 53 == zeros 53 &&
  decide (1 ≤ n) && decide (n ≤ 16) && decide (getLE b 4 2 < 4096) &&
  stages.zipIdx.all fun x =>
    stageOk ((b.drop (288 + 16 * x.2)).take 16) x.1 && (x.1.commit == (x.2 + 1 == n)) &&
    (x.2 + 1 != n || x.1.kind == 1) &&
    (x.1.kind != 1 || (match s.eng.kernels.get? x.1.kernel with
      | none => false
      | some k => x.1.commit || x.1.streams.zipIdx.all fun ci =>
          !onlyCommit ci.1 || !kernelWrites k.image ci.2))

/-- PARAM.OPTIMIZER. -/
def State.loadOptimizer (s : State) (b : List Byte) : Nat × State :=
  let job := getLE b 4 2 % 4096
  if (s.host.jobs.get? job).isNone then (Status.jobUnknown, s)
  else if !s.optimizerOk b then (Status.programInvalid, s)
  else
    let o : OptSt := { params := (List.range 56).map fun i => BitVec.ofNat 32 (getLE b (64 + 4 * i) 4)
                       stages := parseStages b }
    (Status.ok, s.setParm fun p => { p with opts := p.opts.set (job * 2 ^ 32 + getLE b 0 4) o })

/-- A kind-1 buffer of a program overlaps the block's master, compensation or state (R264). -/
def BlockSt.progOverlaps (b : BlockSt) (p : ProgSt) : Bool :=
  p.buffers.any fun e => e.kind == 1 && (b.regions.filter fun r => decide (r.1 ≤ 2) ||
      (decide (4 ≤ r.1) && decide (r.1 ≤ 7))).any fun r =>
    let a := b.regionAddr r.1
    decide (e.address < a + roundUp r.2 grain) && decide (a < e.address + e.size)

/-- PARAM.PROGRAM. -/
def State.bindProgram (s : State) (job id slot opId : Nat) : Nat × State :=
  match s.blockOf job id with
  | none => (Status.blockUnknown, s)
  | some (ctx, b) =>
    if (s.stateOf ctx b).1 = 5 then (Status.blockState, s)
    else
      let c := opId % 1048576
      match s.prog? c with
      | none => (Status.contextStale, s)
      | some p =>
        if opId ≠ s.opId c then (Status.contextStale, s)
        else if p.job ≠ job ∨ b.progOverlaps p then (Status.programInvalid, s)
        else (Status.ok, s.setBlock ctx fun b => { b with progs := b.progs.set slot c })

/-- Holds of a set of subscribers are dropped, in every version or in one, and counted (R269). -/
def State.dropHolds (s : State) (ctx set : Nat) (only : Option Nat) : State :=
  match s.parm.blocks.get? ctx with
  | none => s
  | some b =>
    let hit := b.holds.filter fun kv => only.isNone || only == some kv.1
    let n := (hit.map fun kv => popCount 512 (kv.2 &&& set)).sum
    let s := if n = 0 then s else s.bump .paramHoldDropped 0 n
    let cut : Nat × Nat → Nat × Nat := fun kv =>
      if only.isNone || only == some kv.1 then (kv.1, kv.2 - (kv.2 &&& set)) else kv
    s.setBlock ctx fun b => { b with holds := b.holds.map cut }

/-- The subscribers of a block whose address meets a test, as a bitmap. -/
def State.subsWhere (s : State) (b : BlockSt) (f : Nat × Nat → Bool) : Nat :=
  match s.host.jobs.get? b.job with
  | none => 0
  | some j => (b.subs.zipIdx.map fun ri => match j.addr ri.1 with
      | some a => if f a then 2 ^ ri.2 else 0
      | none => 0).sum

/-- Every block drops the holds of the subscribers that meet a test. -/
def State.dropSubs (s : State) (f : Nat × Nat → Bool) : State :=
  s.parm.blocks.keys.foldl (fun (s : State) c =>
    match s.parm.blocks.get? c with
    | some b => if b.holds.isEmpty then s else s.dropHolds c (s.subsWhere b f) none
    | none => s) s

/-- The oldest kept version. -/
def BlockSt.oldest (b : BlockSt) : Nat := b.version + 1 - b.window

/-- Table 11.9. -/
def State.blockRecord (s : State) (ctx : Nat) (b : BlockSt) : List Byte :=
  let l := (s.parm.blocks.get? (s.leader ctx)).getD b
  let held := (List.range 4).map fun k =>
    ((l.holds.find? fun kv => kv.1 % l.window == k && decide (k < l.window)).map fun kv => popCount 512 kv.2).getD 0
  leBytes 1 l.state ++ leBytes 1 (b2n l.producing.isSome) ++ leBytes 2 l.lastStatus ++ leBytes 4 l.version ++
  leBytes 4 l.step ++ leBytes 2 (min l.started 65535) ++ leBytes 2 (min l.failed 65535) ++ held.flatMap (leBytes 2) ++
  leBytes 4 l.kept ++ zeros 4 ++ l.stamp.bytes ++ zeros 22 ++ l.exc.bytes

/-! ## Fetches and releases (R269, R271) -/

/-- The subscriber index of a frame's sender. -/
def State.subOf (s : State) (b : BlockSt) (h : Hdr) : Option Nat :=
  (s.host.jobs.get? b.job).bind fun j => b.subs.findIdx? fun r => j.addr r == some (h.srcNode, h.srcEp)

/-- The refusal of a fetch. -/
def State.fetchRefusal (s : State) (job : Nat) (p : List Byte) : Option Nat :=
  match s.blockOf job (getLE p 0 4) with
  | none => some Status.blockUnknown
  | some (_, b) =>
    let v := getLE p 4 4
    let order := getLE p 8 1
    let first := getLE p 12 4
    let n := getLE p 16 4
    if b.doomed ∨ b.kind = 3 then some Status.blockUnknown
    else if !b.published ∨ b.version < v then some Status.versionNotReady
    else if v + b.window ≤ b.version ∨ (b.state = 5 ∧ b.overwritten = some v) ∨
        (match b.producing with
          | some w => decide (v + b.window ≤ w)
          | none => false) = true then some Status.versionGone
    else if 1 < order ∨ (order = 1 ∧ (b.kind ≠ 1 ∨ b.noTrans)) ∨ 2 ≤ getLE p 9 1 ∨ n = 0 ∨ 4096 < n ∨
        b.segments < first + n then some Status.descInvalid
    else none

/-- WEIGHT_FETCH at the owner. -/
def State.weightFetch (s : State) (f : Frame) : State :=
  let h := f.hdr
  if s.duplicate h then s.ackAgain h 0xFFF1
  else if s.disabled 1 h.job then (s.bump .paramFetchRefused).refuseFrame h 0xFFF1 Status.functionDisabled
  else
    match s.fetchRefusal h.job f.payload, s.blockOf h.job (getLE f.payload 0 4) with
    | none, some (ctx, b) =>
      let v := getLE f.payload 4 4
      let first := getLE f.payload 12 4
      let n := getLE f.payload 16 4
      let s := (s.bump .paramFetchServed).commitFrame h 0xFFF1
      let s := match s.subOf b h with
        | some i => if bit (getLE f.payload 9 1) 0 then s
                    else s.setBlock ctx fun b => { b with holds := b.holds.upd v 0 (fun w => w ||| 2 ^ i) }
        | none => s
      (rangeFrom first n).foldl (fun (s : State) g =>
        s.send (s.weightFrame ctx b v (getLE f.payload 8 1) g Op.weightData h.cls h.srcNode h.srcEp
          (g + 1 == first + n)) .none) s
    | some st, _ => (s.bump .paramFetchRefused).refuseFrame h 0xFFF1 st
    | none, none => s

/-- One block's holds of a subscriber are released up to a version. -/
def State.releaseIn (s : State) (ctx : Nat) (b : BlockSt) (h : Hdr) (v : Nat) : State :=
  match s.subOf b h with
  | none => s.bump .paramReleaseUnheld
  | some i =>
    let s := if bit (b.holds.getD v 0) i then s else s.bump .paramReleaseUnheld
    let cut : Nat × Nat → Nat × Nat := fun kv =>
      if kv.1 ≤ v && bit kv.2 i then (kv.1, kv.2 - 2 ^ i) else kv
    s.setBlock ctx fun b => { b with holds := b.holds.map cut }

/-- VERSION_RELEASE at the owner. -/
def State.versionRelease (s : State) (f : Frame) : State :=
  let h := f.hdr
  if s.duplicate h then s.ackAgain h 0xFFF1
  else
    let s := s.commitFrame h 0xFFF1
    let id := getLE f.payload 0 4
    let hit := s.parm.blocks.filter fun kv => kv.2.job == h.job && kv.2.kind != 3 &&
      (if id = 0xFFFFFFFF then kv.2.group == getLE f.payload 4 2 else kv.2.id == id)
    if hit.isEmpty then s.bump .paramReleaseUnheld
    else hit.foldl (fun s kv => s.releaseIn kv.1 kv.2 h (getLE f.payload 8 4)) s

/-- What a push's frame has come to (R270). -/
def State.pushNote (s : State) (ctx v : Nat) (n : Note) : State :=
  match s.parm.blocks.get? ctx with
  | none => s
  | some b =>
    let settled := match n with
      | .memberRefused _ _ _ k => k
      | _ => true
    if b.version ≠ v ∨ b.pushing = 0 ∨ !settled then s
    else
      let s := s.setBlock ctx fun b => { b with pushing := b.pushing - 1 }
      if b.pushing = 1 then (s.bump .paramPublished).workEnded 1 b.job false else s

/-! ## Drains and job ends (R322, Table 13.11) -/

/-- The commit stage of a block's update runs or is complete. -/
def State.committing (s : State) (b : BlockSt) : Bool :=
  b.state == 5 && (b.committedAt.isSome || (!b.tiePass && b.stage + 1 == (s.optOf b).stages.length))

/-- The blocks of an ended job are removed, but for one in its commit stage. -/
def State.endBlocks (s : State) (job : Nat) : State :=
  (s.parm.blocks.filter fun kv => kv.2.job == job).foldl (fun s kv =>
    if s.committing kv.2 then s.setBlock kv.1 fun b => { b with doomed := true, publishing := false }
    else s.removeBlock kv.1) s

/-- The drain timeout of function 1. -/
def State.drainBlocks (s : State) (inScope : Nat → Bool) : State :=
  (s.parm.blocks.filter fun kv => inScope kv.2.job).foldl (fun (s : State) kv =>
    let s := if kv.2.state = 5 ∧ !s.committing kv.2 then s.failBlock kv.1 Status.drained else s
    if kv.2.pushing = 0 then s
    else ((s.withdraw fun o => o == .push kv.1 kv.2.version).setBlock kv.1 fun b => { b with pushing := 0 }).workEnded 1
      kv.2.job true) s

end Sys2Proof.Machine
end

