-- ==== Sys2Proof/Machine/Stozil.lean ====
section
/-! DEFINITION. Stozil compatibility mode (chapter 18): operations at their root, their sums, results and completions. What
an entry module checks and keeps stands in Switch.lean and Frames.lean. -/

namespace Sys2Proof.Machine

/-- The Stozil unit changed. -/
def State.setStz (s : State) (f : StzSt → StzSt) : State := { s with stz := f s.stz }

/-- An operation changed. -/
def State.setStzOp (s : State) (n : Nat) (f : StzOp → StzOp) : State :=
  match s.stz.ops.get? n with
  | none => s
  | some o => s.setStz fun z => { z with ops := z.ops.set n (f o) }

/-! ## Geometry (R415, R418, R421) -/

/-- Fields of the legacy descriptor (Table 18.1). -/
def StzOp.kind (o : StzOp) : Nat := getLE o.desc 0 1
def StzOp.count (o : StzOp) : Nat := getLE o.desc 1 3
def StzOp.rootRank (o : StzOp) : Nat := getLE o.desc 4 2

/-- Chunks of an operation. -/
def StzOp.nChunks (o : StzOp) : Nat := ceilDiv o.count 2048

/-- Elements of a segment, its padding included; 0 for one that is not sent. -/
def StzOp.segLen (o : StzOp) (c seg : Nat) : Nat := min 1024 (ceilDiv (o.count - (2048 * c + 1024 * seg)) 16 * 16)

/-- A descriptor keeps the layout of Table 18.1, names this root and the tag of its frame, and its ranks. -/
def State.stzDescOk (s : State) (d : List Byte) (tag ranks : Nat) : Bool :=
  let op := getLE d 0 1
  (op == 1 || op == 2) && decide (1 ≤ getLE d 1 3) &&
  (if op = 2 then decide (getLE d 4 2 < ranks) else getLE d 4 2 == 0xFFFF) && getLE d 6 2 == tag &&
  getLE d 8 2 == s.me && getLE d 10 2 == 0 && crc32c (d.take 12) == getLE d 12 4

/-- Bench slots of a pair: the last four benches of the tile (R24, R413). -/
def State.pairBench (s : State) (p : Nat × Nat) (i : Nat) : Nat × Nat := (p.1, s.benchSlots + 2 * p.2 + i)

/-- Bench and index of an element of a chunk (R421). -/
def State.stzPlace (s : State) (p : Nat × Nat) (c i : Nat) : (Nat × Nat) × Nat :=
  (s.pairBench p (c % 128 / 64), c % 64 * 2048 + i)

/-- The chunk that a slot serves now. -/
def StzOp.slotChunk (o : StzOp) (i : Nat) : Nat := o.cur.getD i i

/-- A chunk is in window (R421). -/
def StzOp.inWindow (o : StzOp) (c : Nat) : Bool :=
  o.status.isNone && decide (c < o.nChunks) && o.slotChunk (c % 128) == c

/-- Chunks in window. -/
def StzOp.window (o : StzOp) : List Nat := ((List.range 128).map o.slotChunk).filter o.inWindow

/-- The record of a chunk. -/
def StzOp.chunk (o : StzOp) (c : Nat) : StzChunk := (o.chunks.find? fun x => x.chunk == c).getD { chunk := c }

/-- The record of a chunk stored. -/
def StzOp.setChunk (o : StzOp) (x : StzChunk) : StzOp :=
  { o with chunks := x :: o.chunks.filter fun y => y.chunk != x.chunk }

/-- Every member's bit. -/
def stzAll (ranks : Nat) : Nat := 2 ^ ranks - 1

/-- A chunk has every bit of the segments that it holds. -/
def StzOp.full (o : StzOp) (x : StzChunk) (ranks : Nat) : Bool :=
  x.low == stzAll ranks && (x.high == stzAll ranks || o.segLen x.chunk 1 == 0)

/-- A member owes a bit in a chunk in window (R423). -/
def StzOp.owes (o : StzOp) (r : Nat) : Bool :=
  o.window.any fun c =>
    let x := o.chunk c
    !bit x.low r || (decide (0 < o.segLen c 1) && !bit x.high r)

/-! ## Claims (R420) -/

/-- Bench pairs in use. -/
def State.stzPairs (s : State) : List (Nat × Nat) := s.stz.ops.vals.filterMap StzOp.pair

/-- A free pair, looked for from a tile on. -/
def State.freePair (s : State) (tile : Nat) : Option (Nat × Nat) :=
  (rotated 8 (tile % 8)).findSome? fun t =>
    ([0, 1].find? fun i => !s.stzPairs.contains (t, i)).map fun i => (t, i)

/-- The claim of an operation: context, pair and sett, or the status of the first that fails; a refused request for the sett is counted
as any other is. -/
def State.stzClaim (s : State) (tag : Nat) : (Nat ⊕ (Nat × (Nat × Nat) × (Nat × Nat))) × State :=
  match s.freePair tag, s.freeCtx with
  | none, _ => (.inl Status.noBench, s)
  | _, none => (.inl Status.contextFull, s)
  | some p, some ctx =>
    match s.alloc (masterId 3 p.1 0) (1 + p.1) 65536 p.1 false with
    | (some (a, _), _, s) => (.inr (ctx, p, (a, 1 + p.1)), s.useCtx ctx Use.stozil)
    | (none, st, s) => (.inl st, s)

/-- What an operation holds returns, and it is over (R423). -/
def State.stzReturn (s : State) (n : Nat) : State :=
  match s.stz.ops.get? n with
  | none => s
  | some o =>
    let s := match o.sett with
      | some x => (s.free (masterId 3 (x.2 - 1) 0) x.2 x.1).2
      | none => s
    let s := match o.ctx with
      | some c => s.dropCtx c
      | none => s
    s.setStz fun z => { z with ops := z.ops.erase n }

/-! ## Frames to members (R416, R417, R422, R424) -/

/-- The legacy status of a final status (Table 18.3). -/
def legacyStatus (st : Nat) : Nat :=
  if st = Status.ok then 0
  else if st = Status.memberTimeout then 1
  else if st = Status.drained then 2
  else if st = Status.noBench ∨ st = Status.contextFull ∨ st = Status.poolEmpty then 3
  else if st = Status.memberLost then 5
  else if st = Status.invalidSum ∨ st = Status.arithOverflow ∨ st = Status.nanInput then 6
  else 8

/-- A frame to a rank. -/
def State.stzFrame (s : State) (o : StzOp) (rank position units : Nat) (last : Bool) (payload : List Byte) : Option Frame :=
  ((s.host.jobs.get? o.job).bind fun j => j.addr rank).map fun a =>
    { hdr := { opcode := Op.stozil, cls := 3, phase := 1, dstNode := a.1, dstEp := a.2, srcNode := s.me, srcEp := 0xFFF1,
               job := o.job, units := units, last := last, opId := o.tag, position := position },
      payload := payload }

/-- The ranks of an operation's job. -/
def State.stzRanks (s : State) (o : StzOp) : Nat := ((s.host.jobs.get? o.job).map fun j => j.table.length).getD 0

/-- The completion of a member. -/
def State.stzComplete (s : State) (n : Nat) (o : StzOp) (t : Stamp) (status rank : Nat) : State :=
  let st := if status = Status.ok && o.hedged.contains rank then Status.hedged else status
  let p := o.desc ++ leBytes 1 2 ++ leBytes 1 (legacyStatus st) ++ leBytes 2 st ++ leBytes 4 o.nChunks ++ t.bytes ++ zeros 30
  match s.stzFrame o rank 0 1 true p with
  | some f => s.send f (.stozilEnd n rank)
  | none => s

/-- An operation ends: its completion record is committed and every member is sent its completion (R422, R423). -/
def State.stzEnd (s : State) (n status : Nat) : State :=
  match s.stz.ops.get? n with
  | none => s
  | some o =>
    if o.status.isSome then s
    else
      let ranks := s.stzRanks o
      let t := s.stamp
      let s := (s.stamped.withdraw fun w => match w with
        | .stozil m _ _ => m == n
        | _ => false).bump .collStozilDone
      let s := s.workEnded 5 o.job (status == Status.drained)
      let s := s.setStzOp n fun o => { o with status := some status, unacked := ranks, chunks := [] }
      if ranks = 0 then s.stzReturn n
      else (List.range ranks).foldl (fun (s : State) r => s.stzComplete n o t status r) s

/-- A full chunk is rounded and sent to its receivers (R422). -/
def State.stzSend (s : State) (n : Nat) (o : StzOp) (p : Nat × Nat) (c : Nat) : State :=
  let receivers := if o.kind = 2 then [o.rootRank] else List.range (s.stzRanks o)
  let segs := [0, 1].filter fun g => decide (0 < o.segLen c g)
  let done := segs.foldl (fun (acc : ExcRec × List (Nat × List Byte) × State) g =>
    let s := acc.2.2
    let ps := (rangeFrom (1024 * g) (o.segLen c g)).map fun i => s.benchPair (s.stzPlace p c i).1 (s.stzPlace p c i).2
    let m := masterId 3 p.1 0
    let e := encodeSeg 4 0 (fun i => (c, 1024 * g + i)) (s.arithCtx m) ps
    let (x, s) := s.raiseAll acc.1 m e.2.2.raised
    (x, acc.2.1 ++ [(g, e.1)], s)) (o.exc, [], s)
  let o := { o with exc := done.1 }
  let s := done.2.2.setStzOp n fun y =>
    { y with exc := done.1 }.setChunk { o.chunk c with sent := true, unacked := segs.length * receivers.length }
  receivers.foldl (fun (s : State) r => done.2.1.foldl (fun (s : State) gp =>
    let head := o.desc ++ leBytes 1 1 ++ zeros 47
    match s.stzFrame o r (256 * c + gp.1) (1 + gp.2.length / 64) (gp.1 + 1 == segs.length) (head ++ gp.2) with
    | some f => s.send f (.stozil n c r)
    | none => s) s) s

/-! ## Contributions (R421) -/

/-- Elements added into a chunk's slot; what each raised. -/
def State.stzAdd (s : State) (p : Nat × Nat) (c : Nat) : Nat → List F32 → List (Nat × Nat × Nat × Nat) × State
  | _, [] => ([], s)
  | i, v :: vs =>
    let a := s.stzPlace p c i
    let q := addF32 (s.benchPair a.1 a.2) v
    let r := State.stzAdd (s.setBenchPair a.1 a.2 q.1) p c (i + 1) vs
    (if q.2 = 0 then r.1 else (q.2, c, i, 0xFFFFFFFF) :: r.1, r.2)

/-- The F32 elements of a payload. -/
def f32List (b : List Byte) (n : Nat) : List F32 := (List.range n).map fun i => BitVec.ofNat 32 (getLE b (4 * i) 4)

/-- A running operation takes a contribution segment. -/
def State.stzTake (s : State) (n : Nat) (o : StzOp) (p : Nat × Nat) (f : Frame) : State :=
  let h := f.hdr
  let c := h.position / 256
  let g := h.position % 256
  let rank := h.srcRank
  if !o.inWindow c then s
  else if f.payload.take 16 ≠ o.desc ∨ 2 ≤ g ∨ o.segLen c g = 0 ∨ f.payload.length ≠ 64 + 4 * o.segLen c g then
    s.refuseFrame h 0xFFF1 Status.descInvalid
  else
    let x := o.chunk c
    if bit (if g = 0 then x.low else x.high) rank then (s.bump .collStozilDupDrop).commitAbsorbed h 0xFFF1
    else
      let s := if x.low = 0 ∧ x.high = 0 then
          s.clearMem (s.benchAddr (s.stzPlace p c 0).1 + 8 * (s.stzPlace p c 0).2) 16384 else s
      let r := s.stzAdd p c (1024 * g) (f32List (f.payload.drop 64) (o.segLen c g))
      let (exc, s) := r.2.raiseAll o.exc (masterId 3 p.1 0) r.1
      let x := if g = 0 then { x with low := x.low ||| 2 ^ rank } else { x with high := x.high ||| 2 ^ rank }
      let o := { o with exc := exc, idle := o.idle.erase rank }.setChunk x
      let s := (s.setStzOp n fun _ => o).commitAbsorbed h 0xFFF1
      if o.full x (s.stzRanks o) then s.stzSend n o p c else s

/-- The root starts an operation on its first contribution (R420). -/
def State.stzStart (s : State) (f : Frame) : State :=
  let h := f.hdr
  let tag := h.opId % 65536
  let d := f.payload.take 16
  let n := s.stz.nextOp
  let o : StzOp := { job := h.job, tag := tag, desc := d }
  match s.stzClaim tag with
  | (.inl st, s) =>
    let s := (s.setStz fun z => { z with ops := z.ops.set n o, nextOp := n + 1 }).bump .collStozilNoPair
    (s.commitFrame h 0xFFF1).stzEnd n st
  | (.inr (ctx, p, sett), s) =>
    let o := { o with ctx := some ctx, pair := some p, sett := some sett }
    let s := s.setStz fun z => { z with ops := z.ops.set n o, nextOp := n + 1 }
    s.stzTake n o p f

/-- The operation of (job, tag) at this root. -/
def State.stzFind (s : State) (job tag : Nat) : Option (Nat × StzOp) :=
  s.stz.ops.find? fun kv => kv.2.job == job && kv.2.tag == tag

/-- A refusal of R413 or R414 at the root: counted on the port of arrival. -/
def State.stzRefuse (s : State) (d : Delivery) (st : Nat) : State :=
  (match d.port with
    | some p => s.bump .portCheckDrop p
    | none => s).refuseFrame d.frame.hdr 0xFFF1 st

/-- STOZIL_OP at endpoint 0xFFF1 (R413–R421). -/
def State.stozilFrame (s : State) (d : Delivery) : State :=
  let f := d.frame
  let h := f.hdr
  let tag := h.opId % 65536
  if s.duplicate h then s.ackAgain h 0xFFF1 1
  else if !s.stozilOn then s.stzRefuse d Status.stozilDisabled
  else
    match s.host.jobs.get? h.job with
    | none => s.refuseFrame h 0xFFF1 Status.jobUnknown
    | some j =>
      if !j.stozil then s.stzRefuse d Status.stozilMixed
      else if getLE f.payload 16 1 ≠ 0 ∨ h.opId / 65536 ≠ 0 then s.refuseFrame h 0xFFF1 Status.descInvalid
      else
        match s.stzFind h.job tag with
        | some (n, o) =>
          (match o.pair with
            | some p => s.stzTake n o p f
            | none => s)
        | none =>
          if s.disabled 5 h.job then s.refuseFrame h 0xFFF1 Status.functionDisabled
          else if !s.stzDescOk (f.payload.take 16) tag j.table.length then s.refuseFrame h 0xFFF1 Status.descInvalid
          else s.stzStart f

/-! ## What comes back, and what ends an operation (R422, R423) -/

/-- A result segment of a chunk is settled; one that a hedge drops, or whose receiver is lost, marks its member. -/
def State.stzNote (s : State) (n c rank : Nat) (note : Note) : State :=
  match s.stz.ops.get? n with
  | none => s
  | some o =>
    let missed := match note with
      | .refused _ | .lost _ => true
      | _ => false
    let x := o.chunk c
    let hedged := if missed && !o.hedged.contains rank then rank :: o.hedged else o.hedged
    if x.unacked ≤ 1 then
      let o := { o with hedged := hedged, freed := o.freed + 1, cur := o.cur.set (c % 128) (c + 128),
                        chunks := o.chunks.filter fun y => y.chunk != c }
      let s := s.setStzOp n fun _ => o
      if o.freed = o.nChunks then s.stzEnd n o.exc.status else s
    else s.setStzOp n fun _ => { o with hedged := hedged }.setChunk { x with unacked := x.unacked - 1 }

/-- A member's completion is settled; the last returns what the operation holds. -/
def State.stzEndNote (s : State) (n : Nat) : State :=
  match s.stz.ops.get? n with
  | none => s
  | some o => if o.unacked ≤ 1 then s.stzReturn n else s.setStzOp n fun o => { o with unacked := o.unacked - 1 }

/-- The idle counters advance at a boundary (R423). -/
def State.stzTick (s : State) : State :=
  s.setStz fun z => { z with ops := NMap.mapV z.ops fun _ o =>
    if o.status.isSome then o
    else { o with idle := ((List.range (s.stzRanks o)).filter o.owes).foldl (fun m r => m.upd r 0 (· + 1)) o.idle } }

/-- A member's idle counter has reached the job's member_timeout. -/
def State.stzIdle (s : State) (n : Nat) : State :=
  match s.stz.ops.get? n with
  | none => s
  | some o =>
    let limit := ((s.host.jobs.get? o.job).map JobSt.memberTimeout).getD 4096
    if o.status.isNone && o.idle.any fun kv => decide (limit ≤ kv.2) && o.owes kv.1 then s.stzEnd n Status.memberTimeout
    else s

/-- The operation that holds a context. -/
def State.stzByCtx (s : State) (ctx : Nat) : Option Nat :=
  (s.stz.ops.find? fun kv => kv.2.ctx == some ctx).map Prod.fst

/-- A lost-node notice (R117, R423). -/
def State.stzLost (s : State) (node : Nat) : State :=
  s.stz.ops.foldl (fun (s : State) kv =>
    let hit := match s.host.jobs.get? kv.2.job with
      | some j => j.table.any fun a => a.1 == node
      | none => false
    if hit then s.stzEnd kv.1 Status.memberLost else s) s

/-- The drain timeout of a disable of function 5. -/
def State.drainStozil (s : State) (inScope : Nat → Bool) : State :=
  s.stz.ops.foldl (fun (s : State) kv => if inScope kv.2.job then s.stzEnd kv.1 Status.drained else s) s

/-- Work of function 5 in a scope. -/
def State.stozilWork (s : State) (inScope : Nat → Bool) : Nat :=
  (s.stz.ops.vals.filter fun o => inScope o.job && o.status.isNone).length

/-- A job ends: its operations end without completions (R322, R423). -/
def State.stozilJobEnd (s : State) (job : Nat) : State :=
  let s := s.stz.ops.foldl (fun (s : State) kv =>
    if kv.2.job = job then
      (let s := s.withdraw fun w => match w with
        | .stozil m _ _ => m == kv.1
        | .stozilEnd m _ => m == kv.1
        | _ => false
       (if kv.2.status.isNone then (s.bump .collStozilDone).workEnded 5 job true else s).stzReturn kv.1)
    else s) s
  s.setStzEntries fun l => l.filter fun e => e.job != job

end Sys2Proof.Machine
end

