-- ==== Sys2Proof/Machine/Faults.lean ====
section
/-! DEFINITION. Fault collection (chapter 16): collectors and captures, containment of each class, levels and the safe state,
headless mode, the FAULT pair, injection. -/

namespace Sys2Proof.Machine

/-- Fault state changed. -/
def State.setFlt (s : State) (f : FltSt → FltSt) : State := { s with flt := f s.flt }

/-! ## Levels (R373) -/

/-- The level of a class. -/
def State.faultLevel (s : State) (c : Nat) : Nat :=
  if c < 21 then s.cfg .fltSeverity0 0 (3 * c) 3 else s.cfg .fltSeverity1 0 (3 * (c - 21)) 3

/-- A level may be set: its class is not reserved, and it lies between the class's minimum and 5. -/
def levelOk (source level : Nat) : Bool :=
  decide (source < 28) && decide (minimumLevels.getD source 6 ≤ level) && decide (level ≤ 5)

/-- FLT.SEVERITY's word. -/
def State.levelSet (s : State) (c level : Nat) : State :=
  if c < 21 then s.setReg .fltSeverity0 0 (setField (s.reg .fltSeverity0) (3 * c) 3 level)
  else s.setReg .fltSeverity1 0 (setField (s.reg .fltSeverity1) (3 * (c - 21)) 3 level)

def masterDie (m : Nat) : Nat := m / 256 % 16
def masterUnit (m : Nat) : Nat := m % 256

/-- A CHECKER fault of a unit whose own class has no local containment acts at level 3 (Table 16.1): switch datapath,
crossbar, context cache, tick keeper. -/
def uncontained (m : Nat) : Bool := [2, 5, 7, 10].contains (masterClass m)

/-- The level at which a report acts. -/
def State.repLevel (s : State) (r : FaultRep) : Nat :=
  let l := s.faultLevel r.cls
  if r.cls = 27 ∧ uncontained r.master then max l 3 else l

/-! ## Collectors (R370, R371, R376) -/

/-- The tile collector of a report, CT0–CT7 then BT0–BT7; none for the hub's and the top collector's own sources. -/
def collectorOf (r : FaultRep) : Option Nat :=
  let d := masterDie r.master % 8
  if r.cls ≤ 2 then some d
  else if r.cls ≤ 12 then some (8 + d)
  else if r.cls = 15 then some (if masterClass r.master = 0 then d else 8 + d)
  else none

/-- The capture of a report. -/
def captureOf (r : FaultRep) (injected safe : Bool) (t : Stamp) : Capture :=
  { address := r.addr, master := r.master, access := r.access, cls := r.cls, detail := r.detail, injected := injected,
    safe := safe, stamp := t }

/-- A capture already held notes a later fault. -/
def Capture.again (c : Capture) : Capture := { c with overflow := true, further := min (c.further + 1) 255 }

/-- A fault is latched and captured, and counted (R371, R376, FLT_EVENTS). -/
def State.capture (s : State) (r : FaultRep) (injected safe : Bool) : State :=
  let c := captureOf r injected safe s.stamp
  let s := s.stamped.bump .fltEvents
  s.setFlt fun f =>
    let tile := match collectorOf r with
      | some k => f.tile.upd k 0 (· ||| 2 ^ r.cls)
      | none => f.tile
    let caps := match collectorOf r with
      | some k => f.captures.set k ((f.captures.get? k).elim c Capture.again)
      | none => f.captures
    { f with status := f.status ||| 2 ^ r.cls, tile := tile, captures := caps, top := some (f.top.elim c Capture.again) }

/-- LOG of Table 16.2: at most one event per class and collector per 256 ticks; with no tick running every one is taken as
late enough (DESIGN CHOICE, log entry 38). -/
def State.logFault (s : State) (r : FaultRep) (injected : Bool) (level : Nat) : State :=
  let k := r.cls * 32 + (collectorOf r).getD 16
  let soon := s.ticking && match s.flt.logged.get? k with
    | some t => decide (s.tick.counter < t + 256)
    | none => false
  if !s.managed then s
  else if soon then s.bump .fltLogSuppressed
  else
    let c := captureOf r injected (3 ≤ level) s.stamp
    (s.setFlt fun f => { f with logged := f.logged.set k s.tick.counter }).event (if 3 ≤ level then 4 else 3) 0x0B
      (0x0100 + r.cls) c.bytes Status.ok r.master

/-! ## The safe state (R374) -/

/-- The safe state is entered: blocks in UPDATING fail with ABORTED. -/
def State.enterSafe (s : State) (cls level : Nat) : State :=
  let ups := s.parm.blocks.filter fun kv => kv.2.state == 5
  let s := ups.foldl (fun (s : State) kv => s.failBlock kv.1 Status.aborted) s
  (s.setFlt fun f => { f with safe := some cls, safeLevel := level }).bump .fltSafeEntries

/-- A report is latched and graded (R371–R373); in the safe state it is latched and captured, and no more. -/
def State.react (s : State) (r : FaultRep) (injected : Bool) : State :=
  let level := s.repLevel r
  if s.isSafe then s.capture r injected false
  else
    let s := s.capture r injected (3 ≤ level)
    let s := if 1 ≤ level then s.logFault r injected level else s
    if 3 ≤ level then s.enterSafe r.cls level else s

/-! ## Headless mode (R386, R411) -/

/-- Headless mode begins: the management pair halts, the sideband raises its in-band interrupt, a write session stops. -/
def State.headless (s : State) : State :=
  if s.flt.headless then s
  else
    ((s.setFlt fun f => { f with headless := true }).setMgt fun m => { m with session := none }).emit (.inBand 2)

/-- 60 s of headless mode are over. -/
def State.headlessOver (s : State) : State := if s.flt.headless && !s.isSafe then s.enterSafe 24 3 else s

/-! ## Containment (Table 16.1) -/

/-- The operation and chunk of a root whose bench holds an address. -/
def State.benchOwner (s : State) (a : Nat) : Option Nat :=
  (s.coll.ops.find? fun kv => match kv.2.inst with
    | some i => i.slots.any fun x => x.c.benches.any fun b => decide (s.benchAddr b ≤ a) && decide (a < s.benchAddr b + mib)
    | none => false).map Prod.fst

/-- The running program whose setts hold an address. -/
def State.settOwner (s : State) (a : Nat) : Option Nat :=
  (s.eng.progs.find? fun kv => kv.2.run.isSome && kv.2.setts.vals.any fun l => l.any fun x =>
    decide (x ≤ a) && decide (a < x + mib)).map Prod.fst

/-- The piece whose sett holds an address, with its requester and sett (R258). -/
def State.pieceOwner (s : State) (a : Nat) : Option (Piece × Nat × Nat) :=
  s.parm.pieces.findSome? fun p => match p.sett with
    | some (r, x) => if x ≤ a ∧ a < x + settSize 1 then some (p, r, x) else none
    | none => none

/-- The stored frame one of whose cells holds an address. -/
def State.cellOwner (s : State) (a : Nat) : Option Nat :=
  (s.sw.stored.find? fun kv => kv.2.cells.contains (a / 512 * 512)).map Prod.fst

/-- What the class requires of the failing unit, at every level. -/
def State.contain (s : State) (r : FaultRep) : State :=
  let die := masterDie r.master
  let unit := masterUnit r.master
  match r.cls with
  | 0 =>
    let k := die % 8 * 136 + unit
    if masterClass r.master ≠ 0 ∨ 8 ≤ die ∨ 136 ≤ unit then s
    else if (s.engine k).running.isSome then
      let t := s.engineJobDone k false
      t.setFlt fun f => { f with todo := s.flt.todo }
    else if (s.engine k).state = 4 then s
    else s.engineRetired k 1
  | 2 =>
    if 8 ≤ die then s
    else
      let ctxs := ((s.queue die).map QJob.ctx).dedup
      (ctxs.foldl (fun (s : State) c => s.endRun c Status.engineFault) s).stopTile die
  | 3 => if masterClass r.master = 1 ∧ die < 8 ∧ unit < 16 then s.retireChannel (16 * die + unit) 5 else s
  | 7 =>
    (match s.benchOwner r.addr, s.settOwner r.addr with
      | some ctx, _ => s.replayOr ctx Status.checkMismatch
      | none, some c => s.endRun c Status.engineFault
      | none, none =>
        match s.pieceOwner r.addr with
        | some (p, req, a) =>
          let m := ((s.parm.blocks.get? p.block).map fun b => s.unitMaster b p.unit).getD 0
          let s := (s.free m req a).2
          s.setParm fun x => { x with pieces := x.pieces.map fun q => if q = p then { q with sett := none } else q }
        | none =>
          match s.cellOwner r.addr with
          | some id => s.dropStored id
          | none => s)
  | 9 =>
    let c := 16 * die + unit
    let known := (masterClass r.master == 4 || masterClass r.master == 1) && decide (die < 8) && decide (unit < 16)
    if r.access = 0 then
      (if known && r.detail == 0 then s.retireChannel c 1
       else if known && r.detail == 1 then s.retireChannel c 3 else s)
    else
      let s := s.stashDamage r.addr
      if known then s.uncorrectable c else s
  | 10 =>
    let known := (masterClass r.master == 4 || masterClass r.master == 1) && decide (die < 8) && decide (unit < 16)
    if known && r.access != 0 then s.uncorrectable (16 * die + unit) else s
  | 14 =>
    if masterClass r.master = 0 ∧ die < 8 ∧ unit < 136 then
      (match (s.engine (die * 136 + unit)).running with
        | some q => s.endRun q.ctx Status.engineFault
        | none => s)
    else if masterClass r.master = 1 ∧ die < 8 ∧ unit < 16 then
      (match s.nextForNcu (16 * die + unit) with
        | some c => s.failBlock c Status.engineFault
        | none => s)
    else s
  | 17 => (({ s with sw := { s.sw with nextPlan := [] } }).bump .schedPlanLate)
  | 24 => s.headless
  | 25 => if 0x5000000001000000 ≤ r.addr ∧ r.addr < 0x5000000001100000 then s else s.headless
  | _ => s

/-- A CHECKER fault: the checked unit is contained as its own class prescribes. -/
def State.containUnit (s : State) (m : Nat) : State :=
  match masterClass m with
  | 0 => s.contain { cls := 0, master := m }
  | 1 => s.contain { cls := 3, master := m }
  | 4 => s.contain { cls := 9, master := m }
  | 6 => s.contain { cls := 17, master := m }
  | 9 => s.contain { cls := 24, master := m }
  | _ => s

/-! ## Clearing (R376, R387) -/

/-- Class bits of FLT_STATUS cleared, with the captures of those classes. -/
def State.clearFaults (s : State) (mask : Nat) : State :=
  let m := mask % 2 ^ 28
  s.setFlt fun f => { f with
    status := f.status - (f.status &&& m)
    top := f.top.filter fun c => !bit m c.cls
    captures := f.captures.filter fun kv => !bit m kv.2.cls }

/-- Bits of one FLT_TILE_STATUS word cleared: CTk and BTk. -/
def State.clearTile (s : State) (t mask : Nat) : State :=
  let clr := fun (x : Nat) => x - (x &&& (mask % 2 ^ 28))
  s.setFlt fun f => { f with tile := (f.tile.upd t 0 clr).upd (8 + t) 0 clr }

/-! ## The FAULT pair (R377) -/

/-- A class bit at level 2 is set. -/
def State.degraded (s : State) : Bool :=
  s.flt.headless || (List.range 28).any fun c => bit s.flt.status c && s.faultLevel c == 2

/-- FAULT_P and FAULT_N: 0 not driving, 1 healthy, 2 degraded, 3 fault. -/
def State.faultPair (s : State) : Nat :=
  if !s.boot.aux then 0
  else if s.isSafe || s.boot.phase == Phase.failed || s.flt.tripped then 3
  else if s.boot.phase ≤ 1 then 0
  else if s.degraded then 2 else 1

/-! ## Injection (R379–R381) -/

/-- Classes whose units have checkers (R379). -/
def injectable : List Nat := [0, 2, 3, 4, 5, 6, 7, 8, 9, 10, 16, 17, 18, 20, 21, 24, 25, 26, 27]

/-- The master class of the units that carry a class's checkers, dies and units of each (DEDUCED, log entry 39). -/
def checkerUnits : Nat → Nat × Nat × Nat
  | 0 => (0, 8, 136)
  | 2 => (0, 8, 1)
  | 3 => (1, 8, 16)
  | 4 => (3, 8, 1)
  | 5 => (2, 8, 1)
  | 6 => (3, 8, 1)
  | 7 => (2, 8, 1)
  | 8 => (2, 8, 1)
  | 9 => (4, 8, 16)
  | 10 => (4, 8, 16)
  | 16 => (5, 0, 1)
  | 17 => (6, 0, 1)
  | 18 => (7, 0, 1)
  | 20 => (10, 0, 1)
  | _ => (9, 0, 1)

/-- Units of a class. -/
def unitCount (c : Nat) : Nat := let u := checkerUnits c; max u.2.1 1 * u.2.2

/-- Unit `i` of a class. -/
def unitName (c i : Nat) : Nat :=
  let u := checkerUnits c
  if u.2.1 = 0 then masterId u.1 15 0 else masterId u.1 (i / u.2.2 % u.2.1) (i % u.2.2)

/-- FLT.INJECT's refusal. -/
def State.injectRefusal (s : State) (source : Nat) : Option Nat :=
  let c := source % 64
  let live := bit source 6
  let target := s.cfg .fltInjectTarget 0 0 16
  if 128 ≤ source ∨ !injectable.contains c then some Status.descInvalid
  else if live && (c == 24 || c == 20 || c == 21) then some Status.descInvalid
  else if target ≠ 0xFFFF ∧ (List.range (unitCount c)).all (fun i => unitName c i != target) then some Status.descInvalid
  else if s.isSafe then some Status.notReady
  else none

/-- The injection is set up: it acts on the unit's next check. -/
def State.setInjection (s : State) (source : Nat) : State :=
  let c := source % 64
  let target := s.cfg .fltInjectTarget 0 0 16
  let i := s.flt.rotation.getD c 0
  let m := if target = 0xFFFF then unitName c (i % unitCount c) else target
  s.setFlt fun f => { f with
    injection := some { cls := c, master := m, live := bit source 6 }
    rotation := if target = 0xFFFF then f.rotation.set c ((i + 1) % unitCount c) else f.rotation }

/-- An injection's outcome is recorded: 0 detected, 1 not detected, 2 collided, 3 no check occurred. -/
def State.injected (s : State) (x : Injection) (outcome : Nat) : State :=
  s.setFlt fun f => { f with injection := none, resClass := x.cls, resMaster := x.master, resOutcome := outcome,
                             resLive := x.live }

/-- The host injection that a report of a class and unit answers. -/
def State.injectionFor (s : State) (cls master : Nat) : Option Injection :=
  s.flt.injection.filter fun x => x.cls == cls && x.master == master

/-- The containment that a report calls for. -/
def State.containment (s : State) (r : FaultRep) : State := if r.cls = 27 then s.containUnit r.master else s.contain r

/-- A checker's report from outside the operations of this model (R371, R380, R381): the shadow's answer to a test
injection is recorded; a live injection reacts as a real fault. The collectors work from STANDBY onwards (R370). -/
def State.faultRaised (s : State) (r : FaultRep) : State :=
  if s.boot.phase < Phase.standby then s
  else
    match s.injectionFor r.cls r.master with
    | some x =>
      if x.live then ((s.injected x 0).containment r).react r true else s.injected x 0
    | none => (s.containment r).react r false

/-- A queued report of this model's own operations: a pending injection of its unit collides with it, or, live, was what
it found. -/
def State.reactQueued (s : State) (r : FaultRep) (injected : Bool) : State :=
  match s.injectionFor r.cls r.master with
  | some x => if x.live then (s.injected x 0).react r true else (s.injected x 2).react r injected
  | none => s.react r injected

/-- Every queued report, oldest first; at most `n`. -/
def State.reactAll (s : State) : Nat → State
  | 0 => s
  | n + 1 =>
    match s.flt.todo with
    | [] => s
    | x :: xs => State.reactAll ((s.setFlt fun f => { f with todo := xs }).reactQueued x.1 x.2) n

/-- An injection was not seen within 64 cycles: a CHECKER fault of the unit (R380). -/
def State.injectionMissed (s : State) (m : Nat) : State :=
  let s := s.bump .fltInjectFail
  let s := match s.flt.injection with
    | some x => if x.master = m then s.injected x 1 else s
    | none => s
  (s.containUnit m).react { cls := 27, master := m, access := 10 } false

/-- A self-injection round ends; rounds pause in the safe state and before MEMORY (R380). -/
def State.injectionRound (s : State) : State :=
  if s.isSafe || s.boot.phase < Phase.memory || s.boot.phase == Phase.failed then s else s.bump .fltInjectRounds

/-- The 64 ticks of a host injection run. -/
def State.injectTick (s : State) : State :=
  s.setFlt fun f => { f with injection := f.injection.map fun x => { x with age := x.age + 1 } }

/-- 64 ticks without a check. -/
def State.injectTimeout (s : State) : State :=
  match s.flt.injection with
  | some x => if 64 ≤ x.age then s.injected x 3 else s
  | none => s

/-! ## Thermal trip (R364) -/

/-- Two consecutive readings at 110 °C or above: the fault is reported and a module reset begins. -/
def State.thermalTrip (s : State) (i : Nat) : State :=
  if s.pwr.trips.getD i 0 < 2 then s
  else
    let v := word16 (s.junction i)
    let s := s.react { cls := 22, detail := i } false
    { s with mgt := { s.mgt with auxTrip := some (i, v) } }.moduleReset true

end Sys2Proof.Machine
end

