-- ==== Sys2Proof/Machine/Jobs.lean ====
section
/-! DEFINITION. The job record, admission and the end of a job (R125, R320–R322, R336), and the disabling of functions (R323,
R324). -/

namespace Sys2Proof.Machine

/-- Host state changed. -/
def State.setHost (s : State) (f : HostSt → HostSt) : State := { s with host := f s.host }

/-! ## The job record (R320) -/

/-- Bytes of a job record: header and table, padded to 64 B. -/
def jobLength (b : List Byte) : Nat := 64 + ceilDiv (4 * getLE b 4 4) 64 * 64

/-- A job record decoded. -/
def parseJobRecord (b : List Byte) : JobSt :=
  let fl := getLE b 2 1
  { stozil := bit fl 0, mgmtFabric := bit fl 1, viaScope := bit fl 2, services := getLE b 3 1,
    table := (List.range (getLE b 4 4)).map fun i => (getLE b (64 + 4 * i) 2, getLE b (66 + 4 * i) 2),
    ctxBase := getLE b 8 4, ctxCount := getLE b 12 4,
    rto := if getLE b 16 2 = 0 then 64 else getLE b 16 2,
    memberTimeout := if getLE b 18 2 = 0 then 4096 else getLE b 18 2,
    sliceLo := (List.range 3).map fun d => getLE b (20 + d) 1,
    sliceExt := (List.range 3).map fun d => getLE b (23 + d) 1,
    wrapGrant := getLE b 26 1, dateline := (List.range 3).map fun d => getLE b (27 + d) 1, record := b }

/-- The slice lies inside the plan. -/
def JobSt.sliceOk (j : JobSt) (pl : Plan) : Bool :=
  (List.range 3).all fun d =>
    decide (1 ≤ j.sliceExt.getD d 0) && decide (j.sliceLo.getD d 0 + j.sliceExt.getD d 0 ≤ pl.ext d)

/-- wrap_grant and datelines lie in range (R125). -/
def JobSt.grantOk (j : JobSt) (pl : Plan) : Bool :=
  decide (j.wrapGrant < 8) && (List.range 3).all fun d =>
    if bit j.wrapGrant d then decide (d < pl.dims) && pl.wrapped d && decide (j.dateline.getD d 0 < pl.ext d)
    else j.dateline.getD d 0 == 0

/-- The record's layout and ranges (Tables 13.9 and 13.10). -/
def State.jobRecordOk (s : State) (b : List Byte) (pl : Plan) : Bool :=
  let j := parseJobRecord b
  getLE b 60 4 == crcZeroAt b 60 && decide (getLE b 0 2 < 4096) && decide (getLE b 2 1 < 8) && decide (j.services < 16) &&
  decide (1 ≤ j.table.length) && decide (j.table.length ≤ 65536) && decide (j.ctxCount ≤ 65536) &&
  decide (j.ctxBase + j.ctxCount ≤ Config.contexts) &&
  (getLE b 16 2 == 0 || (decide (8 ≤ getLE b 16 2) && decide (getLE b 16 2 ≤ 4095))) &&
  ((b.drop 30).take 30).all (· == 0) && (b.drop (64 + 4 * j.table.length)).all (· == 0) &&
  j.table.all (fun e => !internalEp e.2 && (pl.node? e.1).isSome) && decide j.table.Nodup &&
  j.sliceOk pl && j.grantOk pl && (!j.stozil || decide (j.table.length ≤ 512))

/-! ## Admission (R321, R336) -/

/-- Two slices share a ring of dimension `d`. -/
def JobSt.sharesRing (a b : JobSt) (d : Nat) : Bool :=
  (List.range 3).all fun e => e == d ||
    (decide (a.sliceLo.getD e 0 < b.sliceLo.getD e 0 + b.sliceExt.getD e 1) &&
     decide (b.sliceLo.getD e 0 < a.sliceLo.getD e 0 + a.sliceExt.getD e 1))

/-- A grant is asked on a dimension that the slice does not span, or that another job's grant already covers (R125). -/
def State.wrapConflict (s : State) (pl : Plan) (j : JobSt) : Bool :=
  (List.range 3).any fun d => bit j.wrapGrant d &&
    (j.sliceLo.getD d 0 != 0 || j.sliceExt.getD d 0 != pl.ext d ||
     s.host.jobs.vals.any fun k => bit k.wrapGrant d && j.sharesRing k d)

/-- A range of flow contexts meets another job's range, or a context that the device holds for itself. -/
def State.ctxRangeTaken (s : State) (base n : Nat) : Bool :=
  let meets (a m : Nat) : Bool := decide (0 < n) && decide (0 < m) && decide (base < a + m) && decide (a < base + n)
  (s.host.jobs.vals.any fun k => meets k.ctxBase k.ctxCount) ||
  ((s.stash.res.vals.flatMap StashRes.ctxs).any fun r => meets r.1 r.2) || s.ctxUse.keys.any fun c => meets c 1

/-- The job ID may not be used: admitted, ending, or ended less than 4,096 ticks ago (R97). -/
def State.jobBusy (s : State) (job : Nat) : Bool :=
  (s.host.jobs.get? job).isSome || s.host.ending.contains job ||
  match s.host.ended.get? job with
  | some t => decide (s.tick.counter < t + 4096)
  | none => false

/-- The first status of Table 13.10 that applies to a record. -/
def State.admitRefusal (s : State) (b : List Byte) : Option Nat :=
  match s.topo.plan with
  | none => some Status.notReady
  | some pl =>
    let j := parseJobRecord b
    let job := getLE b 0 2
    if !s.jobRecordOk b pl then some Status.descInvalid
    else if s.boot.phase ≠ Phase.service ∨ !s.live ∨ (s.tick.state = 7 ∧ !s.rootOld) then some Status.tickUnsynced
    else if s.jobBusy job ∨ s.ctxRangeTaken j.ctxBase j.ctxCount then some Status.opBusy
    else if Config.jobContexts < (s.host.jobs.vals.map JobSt.ctxCount).sum + j.ctxCount then some Status.capacityExceeded
    else if s.wrapConflict pl j then some Status.wrapConflict
    else if j.stozil && !s.stozilOn then some Status.stozilDisabled
    else none

/-- A job is admitted; no flow of an earlier job of its ID is left (R97). -/
def State.admitJob (s : State) (b : List Byte) : State :=
  let job := getLE b 0 2
  (s.dropFlows job).setHost fun h => { h with
    jobs := h.jobs.set job (parseJobRecord b)
    ended := h.ended.erase job }

/-! ## Work in flight (Table 13.11) -/

/-- Collective instances that run at this module as root. -/
def State.collWork (s : State) (inScope : Nat → Bool) : Nat :=
  (s.coll.ops.vals.filter fun c => inScope c.job && c.inst.isSome).length

/-- Updates, productions and pushes. -/
def State.paramWork (s : State) (inScope : Nat → Bool) : Nat :=
  (s.parm.blocks.vals.filter fun b => inScope b.job && (b.state == 5 || b.producing.isSome || decide (0 < b.pushing))).length

/-- Runs of tick programs. -/
def State.runWork (s : State) (inScope : Nat → Bool) : Nat :=
  (s.eng.progs.vals.filter fun p => inScope p.job && p.run.isSome).length

/-- Fabric commands that have started. -/
def State.fabricWork (s : State) (inScope : Nat → Bool) : Nat :=
  (s.host.ctxs.filter fun c => match c.hdr.path with
    | .fabric j _ _ _ _ => inScope j && c.state != .waiting
    | _ => false).length

/-- What a function has in flight in a scope. -/
def State.workIn (s : State) (f : Nat) (inScope : Nat → Bool) : Nat :=
  match f with
  | 0 => s.collWork inScope
  | 1 => s.paramWork inScope
  | 2 => s.stashWork inScope
  | 3 => s.runWork inScope
  | 4 => s.fabricWork inScope
  | _ => s.stozilWork inScope

/-- A scope of R323: a job, or the device. -/
def scopeOf (job : Nat) : Nat → Bool := fun j => job == 65535 || j == job

/-! ## The end of a job (R322) -/

/-- Instances of the job end as an abort ends them (R240). -/
def State.endInstances (s : State) (inScope : Nat → Bool) (status : Nat) : State :=
  (s.coll.ops.filter fun kv => inScope kv.2.job && kv.2.inst.isSome).foldl (fun s kv => s.endInstance kv.1 status) s

/-- Runs end (R207). -/
def State.endRuns (s : State) (inScope : Nat → Bool) (status : Nat) : State :=
  (s.eng.progs.filter fun kv => inScope kv.2.job && kv.2.run.isSome).foldl (fun s kv => s.endRun kv.1 status) s

/-- The setts of a program's buffers return, and its context (R203). -/
def State.unload (s : State) (ctx : Nat) : State :=
  match s.prog? ctx with
  | none => s
  | some p =>
    let s := s.freeAll (masterId 0 p.homeTile 0) (s.progRequester p.job p.homeTile) (p.setts.vals.flatMap id)
    (s.setEng fun e => { e with progs := e.progs.erase ctx }).dropCtx ctx

/-- Contexts of the job are closed. -/
def State.endContexts (s : State) (job : Nat) : State :=
  let ops := (s.coll.ops.filter fun kv => kv.2.job == job).map Prod.fst
  let bars := (s.coll.barriers.filter fun kv => kv.2.job == job).map Prod.fst
  let s := (ops ++ bars).foldl State.removeColl s
  ((s.eng.progs.filter fun kv => kv.2.job == job).map Prod.fst).foldl State.unload s

/-- The work of a job that ends while a function drains counts as drained (R324). -/
def State.countEnded (s : State) (before : List DisableSt) (job : Nat) (work : Nat → Nat) : State :=
  s.setHost fun h => { h with disables := before.map fun d =>
    if d.inEffect && !d.done && (d.job == job || d.job == 65535) then { d with drained := d.drained + work d.func } else d }

/-- JOB.END takes effect: the job's work ends, its flows are discarded, its setts return, and it is admitted no longer. -/
def State.endJob (s : State) (job : Nat) : State :=
  let work := (List.range 6).map fun f => s.workIn f (scopeOf job)
  let before := s.host.disables
  let only : Nat → Bool := fun j => j == job
  let s := s.endInstances only Status.aborted
  let s := (s.endRuns only Status.aborted).endBlocks job
  let s := (s.stashEnd job).stozilJobEnd job
  let s := ((s.endContexts job).dropFlows job).reclaim job
  let s := s.countEnded before job fun f => work.getD f 0
  s.setHost fun h => { h with
    jobs := h.jobs.erase job
    ending := h.ending ++ [job] }

/-- Every resource of an ending job is free. -/
def State.jobFree (s : State) (job : Nat) : Bool := s.parm.blocks.vals.all fun b => b.job != job

/-- A JOB.END completes: what receivers have kept of late frames is discarded, the interval of R97
begins, and the job's disables that are done go with it. -/
def State.jobEnded (s : State) (job : Nat) : State :=
  (s.dropFlows job).setHost fun h => { h with
    ending := h.ending.filter (· != job)
    disables := (h.disables.filter fun d => d.job != job || !d.done)
    ended := h.ended.set job s.tick.counter }

/-! ## Disabling a function (R323, R324) -/

/-- The disable of a function in a scope. -/
def State.disableOf (s : State) (f job : Nat) : Option DisableSt :=
  s.host.disables.find? fun d => d.func == f && d.job == job

/-- FUNC.DISABLE starts; with no tick running it is in effect at once. -/
def State.disable (s : State) (f job drain : Nat) : State :=
  s.setHost fun h => { h with disables := h.disables ++
    [{ func := f, job := job, drainTicks := (if drain = 0 then 4096 else drain), inEffect := !s.ticking }] }

/-- A disable changed. -/
def State.setDisable (s : State) (f job : Nat) (g : DisableSt → DisableSt) : State :=
  s.setHost fun h => { h with disables := h.disables.map fun d => if d.func == f && d.job == job then g d else d }

/-- FUNC.ENABLE ends a completed disable. -/
def State.enable (s : State) (f job : Nat) : State :=
  s.setHost fun h => { h with disables := h.disables.filter fun d => !(d.func == f && d.job == job) }

/-- A disable that is in effect and whose scope holds no work may complete. -/
def State.drainOver (s : State) (f job : Nat) : Bool :=
  match s.disableOf f job with
  | some d => d.inEffect && !d.done && s.workIn f (scopeOf job) == 0
  | none => false

/-- The drain timeout: everything in flight that can be ended is ended. -/
def State.drain (s : State) (f job : Nat) : State :=
  let inScope := scopeOf job
  match f with
  | 0 => s.endInstances inScope Status.drained
  | 1 => s.drainBlocks inScope
  | 2 => s.drainStash inScope
  | 3 => s.endRuns inScope Status.drained
  | 4 => s
  | _ => s.drainStozil inScope

/-- The drain timeout of a disable is over. -/
def State.drainTimeout (s : State) (f job : Nat) : State :=
  match s.disableOf f job with
  | some d =>
    if d.inEffect && !d.done && !d.timedOut && decide (d.drainTicks ≤ d.age) then
      (s.setDisable f job fun d => { d with timedOut := true }).drain f job
    else s
  | none => s

/-- A boundary: disables that have started take effect, and those in effect grow older. -/
def State.disableTick (s : State) : State :=
  s.setHost fun h => { h with disables := h.disables.map fun d =>
    if d.inEffect then { d with age := d.age + 1 } else { d with inEffect := true } }

/-- State code of FUNC.STATUS. -/
def State.funcState (s : State) (f job : Nat) : Nat :=
  match s.disableOf f job with
  | none => 0
  | some d => if d.done then 2 else 1

end Sys2Proof.Machine
end

