-- ==== Sys2Proof/Machine/Regs.lean ====
section
/-! DEFINITION. Register access (R10, R11, R325, R445): where each register lies, what a read returns and does, which writes
are refused and what an accepted one does. -/

namespace Sys2Proof.Machine

/-! ## Addresses (R325) -/

/-- Base of register space. -/
abbrev regSpace : Nat := 0x6000000000000000

/-- The register and instance at a word offset of a window. -/
def findReg : List Reg → Nat → Option (Reg × Nat)
  | [], _ => none
  | r :: rs, w => if w < r.info.count then some (r, w) else findReg rs (w - r.info.count)

/-- The register word at a device address; none where no register lies. -/
def regAt (a : Nat) : Option (Reg × Nat) :=
  if a < regSpace ∨ a % 8 ≠ 0 then none
  else findReg (Reg.all.filter fun r => r.info.window == (a - regSpace) / 2 ^ 24) ((a - regSpace) % 2 ^ 24 / 8)

/-- Words of the registers of one window that come before `r`. -/
def regOffset : List Reg → Reg → Nat
  | [], _ => 0
  | x :: xs, r => if x = r then 0 else x.info.count + regOffset xs r

/-- The device address of a register word. -/
def regAddr (r : Reg) (i : Nat := 0) : Nat :=
  regSpace + r.info.window * 2 ^ 24 + 8 * (regOffset (Reg.all.filter fun x => x.info.window == r.info.window) r + i)

/-! ## What a read returns -/

/-- A word made of fields (first bit, width, value). -/
def packFields (fs : List (Nat × Nat × Nat)) : Nat := (fs.map fun f => (f.2.2 % 2 ^ f.2.1) * 2 ^ f.1).sum

/-- Word `w` of a capture's record; an empty capture reads zero. -/
def captureWord (c : Option Capture) (w : Nat) : Nat := (c.map fun x => getLE x.bytes (8 * w) 8).getD 0

/-- TICK_COUNT word 1 as latched (R37). -/
def latchWord : Option Stamp → Nat
  | some t => t.sub + 4096 * t.flags
  | none => 0x4000

/-- Setts of a pool in all (POOL_CONFIG). -/
def State.poolSetts (s : State) (k : Nat) : Nat :=
  if s.boot.carving.isNone then defaultSetts k else if k = 0 then 8 * s.bufCells else s.pool.total k

/-- Free setts of a pool (POOL_FREE). -/
def State.poolFreeNow (s : State) (k : Nat) : Nat :=
  if s.boot.carving.isNone then defaultSetts k else if k = 0 then s.p0Free else s.freeSetts k

/-- The fewest free setts since the last read (R168). -/
def State.poolLow (s : State) (k : Nat) : Nat := s.pool.low.getD k (s.poolFreeNow k)

/-- MGT_FW_STATUS. -/
def State.fwStatus (s : State) : Nat :=
  packFields [(0, 1, s.boot.slot), (1, 2, s.mgt.slotA.mark), (3, 2, s.mgt.slotB.mark), (5, 1, b2n s.mgt.session.isSome),
    (6, 1, (s.mgt.session.map Session.slot).getD 0), (7, 1, b2n (s.mgt.trial == some s.boot.slot)), (8, 7, s.mgt.floor),
    (15, 1, b2n (s.slot (otherSlot s.boot.slot)).pending), (16, 7, s.mgt.running.version), (23, 4, s.mgt.revoked),
    (32, 8, s.mgt.running.major), (40, 8, s.mgt.running.minor), (48, 16, s.mgt.running.build)]

/-- MGT_MBOX_STATE. -/
def State.mboxWord (s : State) (m : Nat) : Nat :=
  let b := s.host.mboxes.getD m {}
  packFields [(0, 1, b2n b.qp.isSome), (1, 2, b.priority), (3, 1, b2n b.events), (16, 16, b.qp.getD 0x100 - 0x100), (32, 32, b.p)]

/-- PWR_TILE_STATUS. -/
def State.pwrTileWord (s : State) (t : Nat) : Nat :=
  let p := s.tilePwr t
  packFields [(0, 3, p.op), (3, 3, p.target), (6, 1, b2n p.changing), (7, 1, b2n (s.pwr.droops.contains t)),
    (8, 1, b2n (p.thermal != 0)), (9, 3, p.thermal), (12, 3, p.phase), (15, 1, b2n p.railOff), (16, 8, p.bubbles)]

/-- PORT_LINK_STATUS. -/
def State.portLinkWord (s : State) (p : Nat) : Nat :=
  let P := s.port p
  packFields [(0, 3, P.state), (3, 4, P.width), (7, 3, P.refusal), (10, 5, P.attempts),
    (15, 1, b2n (P.width != 0 && decide (P.width < s.nominal))), (16, 16, (P.peer.map CapSet.id).getD 0)]

/-- ROUTE_PORT_STATE. -/
def State.routePortWord (s : State) (p : Nat) : Nat :=
  let r := s.route p
  let e := s.portEntry p
  let valid := e.role == 2 && e.trunk != 0xFFFF
  packFields [(0, 3, r.state), (3, 3, r.reason), (6, 1, b2n (s.portHedged p)), (7, 1, b2n valid),
    (8, 9, if valid then e.trunk else 0), (32, 16, r.peer), (48, 16, r.peerPort)]

/-- ROUTE_TRUNK_STATUS. -/
def State.routeTrunkWord (s : State) (t : Nat) : Nat :=
  packFields [(0, 10, (s.trunkPorts t).length), (10, 10, (s.presentPorts t).length), (20, 11, s.trunkLanes t),
    (31, 1, b2n (s.ownTrunkMissing t || s.trunkMissing s.me t))]

/-- ENG_TILE_STATUS. -/
def State.engTileWord (s : State) (t : Nat) : Nat :=
  packFields [(0, 8, (s.enginesIn t 1).length), (8, 4, (s.enginesIn t 0).length), (12, 8, (s.enginesIn t 4).length),
    (20, 14, (s.queue t).length)]

/-- FLT_MC_STATUS. -/
def State.mcWord (s : State) (c : Nat) : Nat :=
  let x := s.channel c
  packFields [(0, 1, b2n x.retired), (1, 1, b2n x.migrating), (2, 1, b2n x.testDone), (3, 1, b2n x.testFail),
    (4, 1, b2n x.restorePending), (8, 32, x.unmoved)]

/-- What a read of a register word returns. -/
def State.regValue (s : State) (r : Reg) (i : Nat) : Nat :=
  match r with
  | .tickCount => if i = 0 then s.tick.counter else latchWord s.tick.latch
  | .tickStatus => packFields [(0, 3, s.tick.state), (3, 6, s.tick.depth), (9, 9, s.tick.parent.getD 0),
      (18, 3, s.tick.unsyncReason), (32, 16, s.tick.rootNode), (48, 8, s.tick.rootPriority)]
  | .tickOffset => (s.tick.offset % 2 ^ 24).toNat
  | .laneStatus =>
    let l := s.lane i
    packFields [(0, 1, b2n l.los), (1, 1, b2n l.lol), (2, 1, b2n l.inUse), (3, 1, b2n l.retired), (4, 1, b2n l.test.isSome)]
  | .portLinkStatus => s.portLinkWord i
  | .routeSeed => s.topo.seed
  | .routePlanId => (s.topo.plan.map Plan.planId).getD 0
  | .routeStatus => packFields [(0, 1, b2n s.topo.plan.isSome), (1, 1, b2n (s.topo.ports.vals.any fun x => x.state == 3)),
      (2, 1, b2n (s.ownTrunks.any (s.trunkMissing s.me))), (16, 13, (s.topo.nodes.vals.filter NodeLs.lost).length)]
  | .routePortState => s.routePortWord i
  | .routeTrunkStatus => s.routeTrunkWord i
  | .routeCapacity => s.capacity
  | .portBufClass => s.reg .portBufClass i + s.occ (i / 8) (i % 8) * 2 ^ 36
  | .schedC7Reserve => packFields [(0, 8, s.c7Reserve i), (8, 8, s.c7Effective i),
      (16, 1, b2n (decide (s.c7Effective i < s.c7Reserve i))), (17, 1, b2n (s.boundHeld i))]
  | .poolConfig => packFields [(0, 1, b2n (s.refcount i)), (1, 21, s.poolSetts i)]
  | .poolFree => s.poolFreeNow i
  | .poolLowWater => s.poolLow i
  | .poolQuota =>
    let k := i % 5
    if k = 0 then 0
    else packFields [(0, 21, (s.quota (i / 5) k).1), (21, 21, (s.quota (i / 5) k).2), (42, 21, s.held (i / 5) k)]
  | .poolBind =>
    match s.pool.binds.get? i with
    | some j => j % 4096 + 4096
    | none => 0
  | .engState => let e := s.engine i; e.state + 8 * b2n e.fault
  | .engTileStatus => s.engTileWord i
  | .collBenchStatus => packFields [(0, 10, s.freeBenches), (10, 10, s.benchesOf 0), (20, 10, s.benchesOf 1),
      (32, 10, if s.stozilOn then 32 else 0)]
  | .paramBlocks => s.parm.blocks.length
  | .stashSpans => packFields [(0, 17, ((s.stash.res.vals.flatMap StashRes.spans).map Prod.snd).sum),
      (17, 17, (s.stash.res.vals.map fun x => x.borrowed.length).sum)]
  | .stashEntries => s.stash.ents.length
  | .mgtMboxState => s.mboxWord i
  | .mgtBringupStatus => packFields [(0, 4, s.boot.phase), (4, 4, s.boot.failReason), (8, 1, s.boot.slot),
      (9, 1, b2n s.boot.refclkMissing), (16, 8, s.boot.channelsFailed), (24, 8, s.channelsRetired), (32, 32, s.boot.epoch)]
  | .pwrStatus => packFields [(0, 1, b2n s.pwr.trusted), (1, 1, b2n (s.pwr.tiles.vals.any fun p => p.bubbles != 0)),
      (2, 1, b2n s.pwr.unmet), (3, 1, b2n s.pwr.coolantLow), (16, 12, s.pwr.meas), (32, 12, s.pwr.est)]
  | .pwrCap => s.cfg .pwrCap 0 0 11 + s.effectiveW * 65536
  | .pwrEstCoef => (s.regs.get? (Reg.key .pwrEstCoef i)).getD (Config.fuseCoef i).toNat
  | .pwrVtable => (Config.fuseVolt (i / 8) (i % 8)).toNat
  | .pwrTileStatus => s.pwrTileWord i
  | .fltStatus => s.flt.status
  | .fltTileStatus => s.flt.tile.getD i 0 ||| s.flt.tile.getD (8 + i) 0
  | .fltTopCapture => captureWord s.flt.top i
  | .fltTileCapture => captureWord (s.flt.captures.get? (i / 8 + 8 * (i % 8 / 4))) (i % 4)
  | .fltSafe => b2n s.isSafe + 2 * s.flt.safe.getD 0
  | .fltHeadless => b2n s.flt.headless
  | .fltInjectResult => packFields [(0, 5, s.flt.resClass), (5, 16, s.flt.resMaster), (21, 2, s.flt.resOutcome),
      (23, 1, b2n s.flt.resLive)]
  | .fltMcStatus => s.mcWord i
  | .mgtFwStatus => s.fwStatus
  | .mgtEventSeq => s.mgt.seq
  | .mgtSensor => let x := s.mgt.sensors.getD i {}; packFields [(0, 16, x.value), (16, 16, x.peak)]
  | .collStozilStatus => packFields [(0, 5, s.stzPairs.length), (5, 5, if s.stozilOn then 16 - s.stzPairs.length else 0)]
  | .engSrSeed | .fltMcCtrl | .mgtSensorCtrl => 0
  | r => s.reg r i

/-- What a read does: RC fields clear, RR fields restart, TICK_COUNT word 0 latches word 1 (R10, R37, R168). -/
def State.regReadEffect (s : State) (r : Reg) (i : Nat) : State :=
  match r with
  | .tickCount => if i = 0 then ({ s with tick := { s.tick with latch := some s.stamp } }).stamped else s
  | .poolLowWater => { s with pool := { s.pool with low := s.pool.low.set i (s.poolFreeNow i) } }
  | r => if (r.fieldsAt i).any fun f => f.access == .rc then s.setReg r i 0 else s

/-- Words read one after another from an address: the values, and the state after; none where an address lies in no
register. -/
def State.regReads (s : State) : Nat → Nat → Option (List Nat × State)
  | _, 0 => some ([], s)
  | a, n + 1 =>
    match regAt a with
    | none => none
    | some (r, i) => ((s.regReadEffect r i).regReads (a + 8) n).map fun x => (s.regValue r i :: x.1, x.2)

/-! ## Writes (R445, Table 0.4) -/

/-- A field of a word lies between two bounds. -/
def fieldIn (v lo width a b : Nat) : Bool :=
  let x := bits v (lo + width - 1) lo
  decide (a ≤ x) && decide (x ≤ b)

/-- Reason 1: a value lies outside its range. -/
def valueOk (r : Reg) (v : Nat) : Bool :=
  match r with
  | .tickConfig => fieldIn v 0 2 0 2
  | .portMode => fieldIn v 0 2 0 2
  | .laneRetireCfg => fieldIn v 35 13 1 8191
  | .schedConfig => fieldIn v 0 3 1 4
  | .schedClassWeight => (List.range 7).all fun c => fieldIn v (4 * c) 4 1 15
  | .engArithSeverity => fieldIn v 0 2 1 3 && fieldIn v 2 2 1 3
  | .engStealCfg => fieldIn v 0 12 64 1024 && fieldIn v 12 8 0 128 && fieldIn v 20 8 0 128
  | .engOverrunCfg => fieldIn v 0 8 1 255 && fieldIn v 8 16 16 65535
  | .collBenchCfg => fieldIn v 0 10 0 512 && fieldIn v 10 7 1 127
  | .paramUpdateCfg => fieldIn v 0 7 1 64
  | .stashCfg => fieldIn v 0 16 16 65535
  | .mgtBringupCfg => fieldIn v 0 5 0 16
  | .pwrCap => fieldIn v 0 11 1500 2000
  | .pwrCapCfg => fieldIn v 0 10 64 512 && fieldIn v 25 8 50 255
  | .pwrEstCfg => fieldIn v 0 7 10 50 && fieldIn v 7 8 1 255 && fieldIn v 15 2 0 2 && fieldIn v 17 11 16 2047
  | .pwrCfg => fieldIn v 1 7 20 100 && fieldIn v 8 4 2 10
  | .fltSeverity0 => (List.range 21).all fun c => levelOk c (bits v (3 * c + 2) (3 * c))
  | .fltSeverity1 => (List.range 7).all fun c => levelOk (21 + c) (bits v (3 * c + 2) (3 * c))
  | .fltMcCfg => fieldIn v 0 16 16 65535
  | .mgtLogCfg => fieldIn v 0 3 0 4
  | .mgtEventThresh => fieldIn v 0 3 0 4
  | .mgtMemarbShare => decide (2 ≤ v % 64)
  | _ => true

/-- Reason 2: a relation is kept. -/
def State.relationOk (s : State) (r : Reg) (i v : Nat) : Bool :=
  match r with
  | .mgtMemarbShare => ((List.range 5).map fun k => bits v (6 * k + 5) (6 * k)).sum == 32
  | .portBufClass =>
    let t := i / 8
    let others := (((List.range 8).filter (· != i % 8)).map (s.minCells t)).sum
    decide (others + bits v 17 0 ≤ s.bufCells) && decide (bits v 17 0 ≤ bits v 35 18)
  | .portDropProfile => i % 4 == 3 || decide (bits v 17 0 < bits v 35 18) || (bits v 17 0 == 262143 && bits v 35 18 == 262143)
  | .portMeter => decide (bits v 15 0 ≤ bits v 31 16) && decide (bits v 47 32 ≤ bits v 63 48)
  | .poolQuota => i % 5 == 0 || !s.quotaBad (i / 5) (i % 5) (bits v 20 0) (bits v 41 21)
  | _ => true

/-- Reason 3: the phase or state lets the register be written. A write of TICK_CONFIG writes its period, which tick_enable 1
forbids (R34, Table 2.2), and starts the tick keeper in PLANNED only (R333). -/
def State.phaseWritable (s : State) (r : Reg) (v : Nat) : Bool :=
  match r with
  | .tickConfig => !s.tickEnable && (!bit v 10 || s.boot.phase == Phase.planned)
  | .portMode => decide (Phase.uncarved ≤ s.boot.phase) && decide (s.boot.phase ≤ Phase.service) && !s.link.enabled
  | _ => true

/-- Reason 4: the value lies within a limit loaded from elsewhere. -/
def State.underLimit (s : State) (r : Reg) (v : Nat) : Bool :=
  match r with
  | .tickHoldLimit => decide (v % 65536 ≤ Config.holdTicks s.period)
  | _ => true

/-- Some field of the word can be written. -/
def Reg.writable (r : Reg) (i : Nat) : Bool := (r.fieldsAt i).any fun f => f.access == .rw || f.access == .wo || f.access == .w1c

/-- The reason for which a write is refused (Table 0.4). -/
def State.writeReason (s : State) (r : Reg) (i v : Nat) : Option Nat :=
  if !r.writable i then none
  else if !valueOk r v then some 1
  else if !s.relationOk r i v then some 2
  else if !s.phaseWritable r v then some 3
  else if !s.underLimit r v then some 4
  else none

/-- A refused write is logged (R445). -/
def State.writeRefused (s : State) (r : Reg) (a v reason : Nat) : State :=
  s.event 1 r.info.window 0x0001 (leBytes 8 a ++ leBytes 8 v ++ leBytes 1 reason) Status.regRefused

/-- A write of the register takes effect at the next boundary (R21, R138, R151, R158, R181, R197, R219, R247, R273, R297,
R368, R388). -/
def Reg.atBoundary (r : Reg) : Bool :=
  match r with
  | .mgtMemarbShare | .portBufClass | .schedConfig | .schedClassWeight | .portClassProfile | .portDropProfile | .portMeter
  | .poolQuota | .engArithSeverity | .engSrSeed | .engStealCfg | .engOverrunCfg | .collBenchCfg | .paramUpdateCfg | .stashCfg
  | .stashMark | .pwrCap | .pwrCapCfg | .pwrEstCfg | .pwrEstCoef | .pwrCfg | .pwrPhaseOp | .fltSeverity0 | .fltSeverity1
  | .fltInjectTarget | .fltMcCfg => true
  | _ => false

/-- The writable fields of a written word. -/
def Reg.rwWord (r : Reg) (i v : Nat) : Nat :=
  packFields (((r.fieldsAt i).filter fun f => f.access == .rw).map fun f => (f.lo, f.width, bits v (f.lo + f.width - 1) f.lo))

/-- Reservations above the limit of a new period are lowered (R142). -/
def State.clampReserves (s : State) : State :=
  (s.sw.reserve.filter fun kv => decide (s.c7Limit < kv.2)).foldl (fun (s : State) kv =>
    let s := { s with sw := { s.sw with reserve := s.sw.reserve.set kv.1 s.c7Limit } }
    s.event 2 0x04 0x0010 (leBytes 2 kv.1 ++ leBytes 1 s.c7Limit ++ leBytes 1 (s.c7Effective kv.1))) s

/-- The period is written: hold_ticks is loaded for it (R34, R49). -/
def State.setPeriod (s : State) (p : Nat) : State :=
  let s := s.setReg .tickConfig 0 (setField (s.reg .tickConfig) 0 2 p)
  (s.setReg .tickHoldLimit 0 (Config.holdTicks p)).clampReserves

/-- Tick join (R36, R40, R333): the tick keeper leaves STOPPED, and the planned ports enter DETECT. -/
def State.tickJoin (s : State) : State :=
  let s := s.setReg .tickConfig 0 (setField (s.reg .tickConfig) 10 1 1)
  let s := s.setTick fun t => { t with counter := 0, issued := 0, seqAge := 0, announceAge := 0, parent := none }
  let s := if s.rootPriority < 255 then s.becomeRoot else s.tickEnter 1
  let s := (s.enter Phase.linking).setTopo fun t => { t with pendingAge := some 0 }
  let s := s.lightLsms
  ((List.range s.portCount).filter fun p => (s.portEntry p).role != 0).foldl State.enablePort s

/-- A write of TICK_CONFIG: every accepted one writes the period, the same code included (DEDUCED, log entry 51). -/
def State.writeTickConfig (s : State) (v : Nat) : State :=
  let join := bit v 10 && !s.tickEnable
  let s := (s.setPeriod (v % 4)).setReg .tickConfig 0 (setField (s.reg .tickConfig) 2 8 (bits v 9 2))
  if join then s.tickJoin else s

/-- What an accepted write does. -/
def State.regWrite (s : State) (r : Reg) (i v : Nat) : State :=
  match r with
  | .tickConfig => s.writeTickConfig v
  | .poolQuota =>
    if i % 5 = 0 then s
    else { s with pool := { s.pool with quotas := s.pool.quotas.set (i / 5 * 8 + i % 5) (bits v 20 0, bits v 41 21) } }
  | .engSrSeed => { s with eng := { s.eng with seed := some (BitVec.ofNat 64 v), draws := [] } }
  | .fltStatus => s.clearFaults v
  | .fltTileStatus => s.clearTile i v
  | .fltMcCtrl => s.channelControl i v
  | .mgtSensorCtrl => if bit v 0 then s.clearPeaks else s
  | .pwrPhaseOp => (s.setReg r i (r.rwWord i v)).retargetAll
  | r => if r.writable i then s.setReg r i (r.rwWord i v) else s

end Sys2Proof.Machine
end

