-- ==== Sys2Proof/Machine/Mailbox.lean ====
section
/-! DEFINITION. Commands as the mailbox unit sees them: codes and argument packing (R304, R318, Tables 13.6 and 13.7), what a
command names, the paths and phases that accept it (R312–R317, R337, R374), and buffer references (R317). -/

namespace Sys2Proof.Machine

open Sys2Proof (Instr CmdHdr Ref Path)

/-! ## Codes -/

/-- Code and header of a host command; none for every other row. -/
def cmdOf : Instr → Option (Nat × CmdHdr)
  | .mboxBind h _ _ _ _ _ _ => some (0x0101, h)
  | .mboxUnbind h _ => some (0x0102, h)
  | .mboxCancel h _ _ => some (0x0103, h)
  | .mboxNop h => some (0x0104, h)
  | .mboxStatus h _ => some (0x0105, h)
  | .hostPortConfig h _ _ _ _ _ _ => some (0x0201, h)
  | .hostQpOpen h _ _ _ _ _ _ _ => some (0x0202, h)
  | .hostQpClose h _ => some (0x0203, h)
  | .jobAdmit h _ => some (0x0301, h)
  | .jobEnd h _ => some (0x0302, h)
  | .jobStatus h _ _ => some (0x0303, h)
  | .funcDisable h _ _ _ => some (0x0401, h)
  | .funcEnable h _ _ => some (0x0402, h)
  | .funcStatus h _ _ => some (0x0403, h)
  | .regRead h _ _ _ => some (0x0501, h)
  | .tickCountRead h => some (0x0501, h)
  | .poolLowWaterRead h _ => some (0x0501, h)
  | .regWrite h _ _ => some (0x0502, h)
  | .tickEnableWrite h => some (0x0502, h)
  | .tickPeriodWrite h _ => some (0x0502, h)
  | .memarbShareWrite h _ => some (0x0502, h)
  | .engSrSeedWrite h _ => some (0x0502, h)
  | .fltStatusClear h _ => some (0x0502, h)
  | .fltMcRetire h _ => some (0x0502, h)
  | .fltMcTest h _ => some (0x0502, h)
  | .fltMcRestore h _ => some (0x0502, h)
  | .mgtSensorClearPeaks h => some (0x0502, h)
  | .setupCarve h _ _ _ _ => some (0x0601, h)
  | .resetModule h => some (0x0701, h)
  | .resetDataPlane h => some (0x0702, h)
  | .resetTile h _ => some (0x0703, h)
  | .resetPort h _ => some (0x0704, h)
  | .tickRejoin h => some (0x0801, h)
  | .linkEnable h _ => some (0x0901, h)
  | .linkDisable h _ => some (0x0902, h)
  | .linkHedge h _ _ _ _ _ => some (0x0903, h)
  | .linkLift h _ _ _ _ _ => some (0x0904, h)
  | .laneRetire h _ => some (0x0A01, h)
  | .laneRestore h _ => some (0x0A02, h)
  | .laneTest h _ _ _ _ => some (0x0A03, h)
  | .laneLsmRelease h _ => some (0x0A04, h)
  | .topoLoad h _ => some (0x0B01, h)
  | .topoReadmit h _ => some (0x0B02, h)
  | .routeReseed h _ => some (0x0C01, h)
  | .schedReserve h _ _ => some (0x0D01, h)
  | .poolSetup h _ _ _ _ _ _ => some (0x0E01, h)
  | .poolQuota h _ _ _ _ => some (0x0E02, h)
  | .poolBind h _ _ => some (0x0E03, h)
  | .poolAlloc h _ _ _ _ => some (0x0E04, h)
  | .poolFree h _ _ => some (0x0E05, h)
  | .poolGive h _ _ _ => some (0x0E06, h)
  | .poolRef h _ _ => some (0x0E07, h)
  | .poolStatus h _ _ _ => some (0x0E08, h)
  | .engLoad h _ _ => some (0x0F01, h)
  | .engUnload h _ => some (0x0F02, h)
  | .engRun h _ => some (0x0F03, h)
  | .engAbort h _ => some (0x0F04, h)
  | .engKernel h _ _ _ => some (0x0F05, h)
  | .engRetire h _ => some (0x0F06, h)
  | .engRestore h _ => some (0x0F07, h)
  | .engTest h _ => some (0x0F08, h)
  | .collOpen h _ _ _ _ => some (0x1001, h)
  | .collClose h _ => some (0x1002, h)
  | .collAbort h _ => some (0x1003, h)
  | .collStatus h _ _ => some (0x1004, h)
  | .collBarrier h _ _ _ _ _ => some (0x1005, h)
  | .paramDeclare h _ => some (0x1101, h)
  | .paramInit h _ _ _ _ _ => some (0x1102, h)
  | .paramRead h _ _ _ _ => some (0x1103, h)
  | .paramOptimizer h _ => some (0x1104, h)
  | .paramProgram h _ _ _ _ => some (0x1105, h)
  | .paramPublish h _ _ => some (0x1106, h)
  | .paramClose h _ _ => some (0x1107, h)
  | .paramUpdate h _ _ => some (0x1108, h)
  | .paramDiscard h _ _ => some (0x1109, h)
  | .paramEvict h _ _ => some (0x110A, h)
  | .paramSpoil h _ _ _ => some (0x110B, h)
  | .paramHyper h _ _ _ => some (0x110C, h)
  | .paramStatus h _ _ _ => some (0x110D, h)
  | .paramRetire h _ _ => some (0x110E, h)
  | .stashReserve h _ _ _ _ _ => some (0x1201, h)
  | .stashRelease h _ => some (0x1202, h)
  | .stashPurge h _ _ _ _ => some (0x1203, h)
  | .stashStatus h _ _ => some (0x1204, h)
  | .stashEntry h _ _ _ _ => some (0x1205, h)
  | .pwrPhase h _ _ => some (0x1301, h)
  | .pwrCap h _ => some (0x1302, h)
  | .fltSeverity h _ _ => some (0x1401, h)
  | .fltInject h _ => some (0x1402, h)
  | .fltClear h _ => some (0x1403, h)
  | .mgtImageWrite h _ _ _ _ => some (0x1501, h)
  | .mgtImageActivate h _ => some (0x1502, h)
  | .mgtAttest h _ _ => some (0x1503, h)
  | .mgtLogRead h _ _ _ => some (0x1504, h)
  | _ => none

/-- The code of a command. -/
def codeOf (c : Instr) : Nat := ((cmdOf c).map Prod.fst).getD 0

/-- Whether a command accepts an effective_tick (Tables 13.6 and 13.7): 0 no, 1 yes, 2 required. -/
def tickUse (code : Nat) : Nat :=
  if code = 0x0B02 ∨ code = 0x0C01 then 2
  else if [0x0302, 0x0903, 0x0904, 0x0D01, 0x0F03, 0x1106, 0x1107, 0x110B, 0x1301, 0x1302].contains code then 1
  else 0

/-! ## Slots (Table 13.3) -/

/-- Sizes of the arguments of each command, in bytes and in order; 16 for a reference (R318). -/
def argSizes : Nat → Option (List Nat)
  | 0x0101 => some [1, 1, 1, 4, 4, 16]
  | 0x0102 => some [1]
  | 0x0103 => some [1, 4]
  | 0x0104 => some []
  | 0x0105 => some [1]
  | 0x0201 => some [1, 1, 1, 2, 4, 16]
  | 0x0202 => some [1, 1, 1, 4, 4, 8, 16]
  | 0x0203 => some [4]
  | 0x0301 => some [16]
  | 0x0302 => some [2]
  | 0x0303 => some [2, 16]
  | 0x0401 => some [1, 2, 4]
  | 0x0402 => some [1, 2]
  | 0x0403 => some [1, 2]
  | 0x0501 => some [8, 4, 16]
  | 0x0502 => some [8, 8]
  | 0x0601 => some [1, 1, 1, 1]
  | 0x0701 => some []
  | 0x0702 => some []
  | 0x0703 => some [1]
  | 0x0704 => some [2]
  | 0x0801 => some []
  | 0x0901 => some [2]
  | 0x0902 => some [2]
  | 0x0903 => some [1, 2, 2, 2, 2]
  | 0x0904 => some [1, 2, 2, 2, 2]
  | 0x0A01 => some [2]
  | 0x0A02 => some [2]
  | 0x0A03 => some [2, 1, 4, 16]
  | 0x0A04 => some [1]
  | 0x0B01 => some [16]
  | 0x0B02 => some [2]
  | 0x0C01 => some [4]
  | 0x0D01 => some [2, 1]
  | 0x0E01 => some [1, 1, 1, 1, 2, 8]
  | 0x0E02 => some [2, 1, 4, 4]
  | 0x0E03 => some [2, 2]
  | 0x0E04 => some [2, 1, 1, 4]
  | 0x0E05 => some [2, 8]
  | 0x0E06 => some [2, 2, 8]
  | 0x0E07 => some [4, 8]
  | 0x0E08 => some [1, 2, 16]
  | 0x0F01 => some [2, 16]
  | 0x0F02 => some [4]
  | 0x0F03 => some [4]
  | 0x0F04 => some [4]
  | 0x0F05 => some [2, 16, 16]
  | 0x0F06 => some [2]
  | 0x0F07 => some [2]
  | 0x0F08 => some [2]
  | 0x1001 => some [2, 2, 4, 16]
  | 0x1002 => some [4]
  | 0x1003 => some [4]
  | 0x1004 => some [4, 16]
  | 0x1005 => some [2, 2, 4, 2, 16]
  | 0x1101 => some [16]
  | 0x1102 => some [4, 2, 1, 1, 16]
  | 0x1103 => some [4, 2, 1, 16]
  | 0x1104 => some [16]
  | 0x1105 => some [4, 2, 1, 4]
  | 0x1106 => some [4, 2]
  | 0x1107 => some [4, 2]
  | 0x1108 => some [4, 2]
  | 0x1109 => some [4, 2]
  | 0x110A => some [4, 2]
  | 0x110B => some [4, 2, 16]
  | 0x110C => some [4, 2, 4]
  | 0x110D => some [4, 2, 16]
  | 0x110E => some [4, 2]
  | 0x1201 => some [2, 1, 4, 8, 8]
  | 0x1202 => some [2]
  | 0x1203 => some [2, 2, 8, 8]
  | 0x1204 => some [2, 16]
  | 0x1205 => some [2, 2, 8, 16]
  | 0x1301 => some [1, 1]
  | 0x1302 => some [2]
  | 0x1401 => some [2, 1]
  | 0x1402 => some [2]
  | 0x1403 => some [8]
  | 0x1501 => some [1, 4, 16]
  | 0x1502 => some [1]
  | 0x1503 => some [32, 16]
  | 0x1504 => some [4, 4, 16]
  | _ => none

/-- Where an argument of `n` bytes starts at or after `off` (R318). -/
def argAlign (off n : Nat) : Nat := let a := if 8 < n then 8 else n; ceilDiv off a * a

/-- The arguments, and whether every byte between them and after the last is zero; offsets are from the slot's start. -/
def takeArgs (b : List Byte) : Nat → List Nat → List (List Byte) × Bool
  | off, [] => ([], (b.drop off).all (· == 0))
  | off, n :: ns =>
    let at_ := argAlign off n
    let rest := takeArgs b (at_ + n) ns
    ((b.drop at_).take n :: rest.1, ((b.take at_).drop off).all (· == 0) && rest.2)

/-- A reference's 16 bytes. -/
def parseRef (b : List Byte) : Ref := { addr := getLE b 0 8, key := getLE b 8 4, len := getLE b 12 4 }

/-- A 32-bit number as signed. -/
def signedOf32 (n : Nat) : Int := if 2 ^ 31 ≤ n then (n : Int) - 2 ^ 32 else n

/-- The command that a code and its arguments spell; inline data of MGT.IMAGE_WRITE are slot bytes 40–63 (R405). -/
def buildCmd (code : Nat) (h : CmdHdr) (slot : List Byte) (as : List (List Byte)) : Option Instr :=
  let n := fun i => leNat (as.getD i [])
  let r := fun i => parseRef (as.getD i [])
  match code with
  | 0x0101 => some (.mboxBind h (n 0) (n 1) (n 2) (n 3) (n 4) (r 5))
  | 0x0102 => some (.mboxUnbind h (n 0))
  | 0x0103 => some (.mboxCancel h (n 0) (n 1))
  | 0x0104 => some (.mboxNop h)
  | 0x0105 => some (.mboxStatus h (n 0))
  | 0x0201 => some (.hostPortConfig h (n 0) (n 1) (n 2) (n 3) (n 4) (n 5))
  | 0x0202 => some (.hostQpOpen h (n 0) (n 1) (n 2) (n 3) (n 4) (n 5) (n 6))
  | 0x0203 => some (.hostQpClose h (n 0))
  | 0x0301 => some (.jobAdmit h (r 0))
  | 0x0302 => some (.jobEnd h (n 0))
  | 0x0303 => some (.jobStatus h (n 0) (r 1))
  | 0x0401 => some (.funcDisable h (n 0) (n 1) (n 2))
  | 0x0402 => some (.funcEnable h (n 0) (n 1))
  | 0x0403 => some (.funcStatus h (n 0) (n 1))
  | 0x0501 => some (.regRead h (n 0) (n 1) (r 2))
  | 0x0502 => some (.regWrite h (n 0) (n 1))
  | 0x0601 => some (.setupCarve h (n 0) (n 1) (n 2) (n 3))
  | 0x0701 => some (.resetModule h)
  | 0x0702 => some (.resetDataPlane h)
  | 0x0703 => some (.resetTile h (n 0))
  | 0x0704 => some (.resetPort h (n 0))
  | 0x0801 => some (.tickRejoin h)
  | 0x0901 => some (.linkEnable h (n 0))
  | 0x0902 => some (.linkDisable h (n 0))
  | 0x0903 => some (.linkHedge h (n 0) (n 1) (n 2) (n 3) (n 4))
  | 0x0904 => some (.linkLift h (n 0) (n 1) (n 2) (n 3) (n 4))
  | 0x0A01 => some (.laneRetire h (n 0))
  | 0x0A02 => some (.laneRestore h (n 0))
  | 0x0A03 => some (.laneTest h (n 0) (n 1) (n 2) (r 3))
  | 0x0A04 => some (.laneLsmRelease h (n 0))
  | 0x0B01 => some (.topoLoad h (r 0))
  | 0x0B02 => some (.topoReadmit h (n 0))
  | 0x0C01 => some (.routeReseed h (n 0))
  | 0x0D01 => some (.schedReserve h (n 0) (n 1))
  | 0x0E01 => some (.poolSetup h (n 0) (n 1) (n 2) (n 3) (n 4) (n 5))
  | 0x0E02 => some (.poolQuota h (n 0) (n 1) (n 2) (n 3))
  | 0x0E03 => some (.poolBind h (n 0) (n 1))
  | 0x0E04 => some (.poolAlloc h (n 0) (n 1) (n 2) (n 3))
  | 0x0E05 => some (.poolFree h (n 0) (n 1))
  | 0x0E06 => some (.poolGive h (n 0) (n 1) (n 2))
  | 0x0E07 => some (.poolRef h (signedOf32 (n 0)) (n 1))
  | 0x0E08 => some (.poolStatus h (n 0) (n 1) (r 2))
  | 0x0F01 => some (.engLoad h (n 0) (r 1))
  | 0x0F02 => some (.engUnload h (n 0))
  | 0x0F03 => some (.engRun h (n 0))
  | 0x0F04 => some (.engAbort h (n 0))
  | 0x0F05 => some (.engKernel h (n 0) (r 1) (r 2))
  | 0x0F06 => some (.engRetire h (n 0))
  | 0x0F07 => some (.engRestore h (n 0))
  | 0x0F08 => some (.engTest h (n 0))
  | 0x1001 => some (.collOpen h (n 0) (n 1) (n 2) (r 3))
  | 0x1002 => some (.collClose h (n 0))
  | 0x1003 => some (.collAbort h (n 0))
  | 0x1004 => some (.collStatus h (n 0) (r 1))
  | 0x1005 => some (.collBarrier h (n 0) (n 1) (n 2) (n 3) (r 4))
  | 0x1101 => some (.paramDeclare h (r 0))
  | 0x1102 => some (.paramInit h (n 0) (n 1) (n 2) (n 3) (r 4))
  | 0x1103 => some (.paramRead h (n 0) (n 1) (n 2) (r 3))
  | 0x1104 => some (.paramOptimizer h (r 0))
  | 0x1105 => some (.paramProgram h (n 0) (n 1) (n 2) (n 3))
  | 0x1106 => some (.paramPublish h (n 0) (n 1))
  | 0x1107 => some (.paramClose h (n 0) (n 1))
  | 0x1108 => some (.paramUpdate h (n 0) (n 1))
  | 0x1109 => some (.paramDiscard h (n 0) (n 1))
  | 0x110A => some (.paramEvict h (n 0) (n 1))
  | 0x110B => some (.paramSpoil h (n 0) (n 1) (r 2))
  | 0x110C => some (.paramHyper h (n 0) (n 1) (BitVec.ofNat 32 (n 2)))
  | 0x110D => some (.paramStatus h (n 0) (n 1) (r 2))
  | 0x110E => some (.paramRetire h (n 0) (n 1))
  | 0x1201 => some (.stashReserve h (n 0) (n 1) (n 2) (n 3) (n 4))
  | 0x1202 => some (.stashRelease h (n 0))
  | 0x1203 => some (.stashPurge h (n 0) (n 1) (n 2) (n 3))
  | 0x1204 => some (.stashStatus h (n 0) (r 1))
  | 0x1205 => some (.stashEntry h (n 0) (n 1) (n 2) (r 3))
  | 0x1301 => some (.pwrPhase h (n 0) (n 1))
  | 0x1302 => some (.pwrCap h (n 0))
  | 0x1401 => some (.fltSeverity h (n 0) (n 1))
  | 0x1402 => some (.fltInject h (n 0))
  | 0x1403 => some (.fltClear h (n 0))
  | 0x1501 => some (.mgtImageWrite h (n 0) (n 1) (r 2) (slot.drop 40))
  | 0x1502 => some (.mgtImageActivate h (n 0))
  | 0x1503 => some (.mgtAttest h (as.getD 0 []) (r 1))
  | 0x1504 => some (.mgtLogRead h (n 0) (n 1) (r 2))
  | _ => none

/-- Slot bytes 40–63 carry inline data: an MGT.IMAGE_WRITE with key 0, address 0 and a length from 1 to 24 (R405). -/
def inlineSlot (code : Nat) (as : List (List Byte)) : Bool :=
  let r := parseRef (as.getD 2 [])
  code == 0x1501 && r.key == 0 && r.addr == 0 && decide (1 ≤ r.len) && decide (r.len ≤ 24)

/-- A fetched slot as a command context: the command, its code, and the status of a slot that is refused for its count, its
code or its reserved bits (checks 1, 2 and 4 of Table 13.5). -/
def parseSlot (slot : List Byte) (path : Path) (number : Nat) (countOk : Bool) (reads : List HostBuf) :
    Instr × CmdHdr × Nat × Nat :=
  let code := getLE slot 0 2
  let fl := getLE slot 2 1
  let h : CmdHdr := { path := path, number := number, fence := bit fl 0, devFence := bit fl 1, effTick := getLE slot 8 8,
                      reads := reads }
  match argSizes code with
  | none => (.mboxNop h, h, code, if countOk then Status.unknownCommand else Status.badSlot)
  | some ns =>
    let as := takeArgs slot 16 ns
    let clean := decide (fl < 4) && getLE slot 3 1 == 0 && (as.2 || inlineSlot code as.1)
    ((buildCmd code h slot as.1).getD (.mboxNop h), h, code,
      if !countOk then Status.badSlot else if clean then Status.ok else Status.descInvalid)

/-! ## What a command names -/

/-- The register address of a register access. -/
def regTarget : Instr → Option Nat
  | .regRead _ a _ _ => some a
  | .tickCountRead _ => some (regAddr .tickCount)
  | .poolLowWaterRead _ k => some (regAddr .poolLowWater k)
  | .regWrite _ a _ => some a
  | .tickEnableWrite _ => some (regAddr .tickConfig)
  | .tickPeriodWrite _ _ => some (regAddr .tickConfig)
  | .memarbShareWrite _ _ => some (regAddr .mgtMemarbShare)
  | .engSrSeedWrite _ _ => some (regAddr .engSrSeed)
  | .fltStatusClear _ _ => some (regAddr .fltStatus)
  | .fltMcRetire _ c => some (regAddr .fltMcCtrl c)
  | .fltMcTest _ c => some (regAddr .fltMcCtrl c)
  | .fltMcRestore _ c => some (regAddr .fltMcCtrl c)
  | .mgtSensorClearPeaks _ => some (regAddr .mgtSensorCtrl)
  | _ => none

/-- The addresses of every word of a register access. -/
def regTargets : Instr → List Nat
  | .regRead _ a w _ => (List.range (min w 8192)).map fun i => a + 8 * i
  | .tickCountRead _ => [regAddr .tickCount, regAddr .tickCount + 8]
  | c => (regTarget c).toList

/-- The job that a command names in an argument; 65535 names the device and no job. -/
def jobNamed : Instr → Option Nat
  | .linkHedge _ 2 _ j _ _ => some j
  | .linkLift _ 2 _ j _ _ => some j
  | .poolBind _ _ j => some j
  | .engLoad _ j _ => some j
  | .collOpen _ j _ _ _ => some j
  | .collBarrier _ j _ _ _ _ => some j
  | .paramInit _ _ j _ _ _ => some j
  | .paramRead _ _ j _ _ => some j
  | .paramProgram _ _ j _ _ => some j
  | .paramPublish _ _ j => some j
  | .paramClose _ _ j => some j
  | .paramUpdate _ _ j => some j
  | .paramDiscard _ _ j => some j
  | .paramEvict _ _ j => some j
  | .paramSpoil _ _ j _ => some j
  | .paramHyper _ _ j _ => some j
  | .paramStatus _ _ j _ => some j
  | .paramRetire _ _ j => some j
  | .stashReserve _ j _ _ _ _ => some j
  | .stashRelease _ j => some j
  | .stashPurge _ j _ _ _ => some j
  | .stashStatus _ j _ => some j
  | .stashEntry _ j _ _ _ => some j
  | .jobEnd _ j => some j
  | .jobStatus _ j _ => some j
  | .funcDisable _ _ j _ => if j = 65535 then none else some j
  | .funcEnable _ _ j => if j = 65535 then none else some j
  | .funcStatus _ _ j => if j = 65535 then none else some j
  | _ => none

/-- The block that a command names. -/
def blockNamed : Instr → Option Nat
  | .paramInit _ b _ _ _ _ => some b
  | .paramProgram _ b _ _ _ => some b
  | .paramPublish _ b _ => some b
  | .paramClose _ b _ => some b
  | .paramUpdate _ b _ => some b
  | .paramDiscard _ b _ => some b
  | .paramEvict _ b _ => some b
  | .paramSpoil _ b _ _ => some b
  | .paramHyper _ b _ _ => some b
  | .paramRetire _ b _ => some b
  | _ => none

/-- The context index that a command names, as such or in an op_id. -/
def ctxNamed : Instr → Option Nat
  | .engUnload _ o => some (o % 1048576)
  | .engRun _ o => some (o % 1048576)
  | .engAbort _ o => some (o % 1048576)
  | .collOpen _ _ _ c _ => some c
  | .collClose _ c => some c
  | .collAbort _ o => some (o % 1048576)
  | .collStatus _ c _ => some c
  | .collBarrier _ _ _ c _ _ => some c
  | .paramProgram _ _ _ _ o => some (o % 1048576)
  | _ => none

/-- An object of R313. -/
inductive Obj where
  | job (j : Nat)
  | ctx (n : Nat)
  | block (j b : Nat)
  | port (p : Nat)
  | lane (n : Nat)
  | engine (e : Nat)
  | pool (k : Nat)
  | reg (a : Nat)
  deriving DecidableEq, Repr

/-- The objects on which a command is serialised (R313). Commands that only report, the disables and the aborts are not
serialised (DEDUCED, log entry 43). -/
def objects (c : Instr) : List Obj :=
  match c with
  | .jobStatus .. | .funcDisable .. | .funcEnable .. | .funcStatus .. | .paramStatus .. | .stashStatus .. | .stashEntry ..
  | .collStatus .. | .engAbort .. | .collAbort .. => []
  | .linkEnable _ p => [.port p]
  | .linkDisable _ p => [.port p]
  | .linkHedge _ 0 p _ _ _ => [.port p]
  | .linkLift _ 0 p _ _ _ => [.port p]
  | .resetPort _ p => [.port p]
  | .schedReserve _ p _ => [.port p]
  | .laneRetire _ n => [.lane n]
  | .laneRestore _ n => [.lane n]
  | .laneTest _ n _ _ _ => [.lane n]
  | .engRetire _ e => [.engine e]
  | .engRestore _ e => [.engine e]
  | .engTest _ e => [.engine e]
  | .poolQuota _ _ k _ _ => [.pool k]
  | .fltInject .. => [.reg (regAddr .fltInjectResult)]
  | c =>
    ((jobNamed c).map Obj.job).toList ++ ((ctxNamed c).map Obj.ctx).toList ++
    (((jobNamed c).bind fun j => (blockNamed c).map fun b => Obj.block j b).toList) ++ (regTargets c).map Obj.reg

/-- The objects that a started command still keeps: a run that goes on keeps none (R207). -/
def Ctx.keeps (x : Ctx) : List Obj :=
  match x.state with
  | .started (.run _) => []
  | _ => objects x.cmd

/-- The references of a command that its path may forbid (R316, R317). A register read of up to three words uses none, and
the completion ring lies on the bound QP. -/
def refsOf : Instr → List Ref
  | .laneTest _ _ _ _ r => [r]
  | .topoLoad _ r => [r]
  | .poolStatus _ _ _ r => [r]
  | .engLoad _ _ r => [r]
  | .engKernel _ _ r q => [r, q]
  | .collOpen _ _ _ _ r => [r]
  | .collStatus _ _ r => [r]
  | .collBarrier _ _ _ _ _ r => [r]
  | .paramDeclare _ r => [r]
  | .paramInit _ _ _ _ z r => if z = 0 then [r] else []
  | .paramRead _ _ _ _ r => [r]
  | .paramOptimizer _ r => [r]
  | .paramSpoil _ _ _ r => [r]
  | .paramStatus _ _ _ r => [r]
  | .stashStatus _ _ r => [r]
  | .stashEntry _ _ _ _ r => [r]
  | .mgtImageWrite _ _ _ r _ => [r]
  | .mgtAttest _ _ r => [r]
  | .mgtLogRead _ _ _ r => [r]
  | .jobAdmit _ r => [r]
  | .jobStatus _ _ r => [r]
  | .regRead _ _ w r => if 3 < w then [r] else []
  | _ => []

/-- The function of a command that a disable refuses (Table 13.11). -/
def funcOf : Instr → Option Nat
  | .collOpen .. => some 0
  | .paramDeclare .. | .paramInit .. | .paramOptimizer .. | .paramProgram .. | .paramPublish .. | .paramClose ..
  | .paramUpdate .. | .paramDiscard .. | .paramSpoil .. | .paramHyper .. => some 1
  | .stashReserve .. => some 2
  | .engLoad .. | .engRun .. | .engKernel .. => some 3
  | _ => none

/-! ## Argument ranges (check 4 of Table 13.5) -/

/-- An engine's name, tile × 256 + index. -/
def engineOk (e : Nat) : Bool := decide (e / 256 < 8) && decide (e % 256 < 136)

/-- The arguments of a command lie in range, so far as the catalogue or a table of arguments gives the range. -/
def State.argsOk (s : State) (c : Instr) : Bool :=
  let port := fun (p : Nat) => decide (p < s.portCount)
  match c with
  | .resetTile _ k => decide (k < 8)
  | .resetPort _ p | .linkEnable _ p | .linkDisable _ p | .schedReserve _ p _ => port p
  | .linkHedge _ scope p _ _ _ | .linkLift _ scope p _ _ _ => decide (scope ≤ 2) && (scope != 0 || port p)
  | .laneRetire _ n | .laneRestore _ n => decide (n < 1024)
  | .laneTest _ n after ticks r => decide (n < 1024) && decide (after ≤ 1) && ticks != 0 && decide (32 ≤ r.len)
  | .laneLsmRelease _ j => decide (j < 16)
  | .poolSetup _ p1 p2 p3 modes _ base => (p3 != 0 || p1 + p2 == 0) && decide (modes < 16) && base % span == 0
  | .poolQuota _ r k _ mx => decide (1 ≤ k) && decide (k ≤ 4) && decide (r ≤ 1023) && decide (mx < 2097152)
  | .poolBind _ r _ => decide (64 ≤ r) && decide (r ≤ 1023)
  | .poolAlloc _ r t spill _ => decide (r ≤ 1023) && decide (t < 8) && decide (spill ≤ 1)
  | .poolFree _ r _ | .poolGive _ r _ _ => decide (r ≤ 1023)
  | .poolStatus _ k r _ => decide (k ≤ 4) && (decide (r ≤ 1023) || r == 0xFFFF)
  | .engRetire _ e | .engRestore _ e | .engTest _ e => engineOk e
  | .collOpen _ _ g n _ => decide (g < 4096) && decide (n < Config.contexts)
  | .collClose _ n | .collStatus _ n _ => decide (n < Config.contexts)
  | .collBarrier _ _ _ n m _ => decide (n < Config.contexts) && decide (1 ≤ m) && decide (m ≤ 512)
  | .paramInit _ _ _ r z _ => [0, 1, 3, 4, 5, 6].contains r && decide (z ≤ 1)
  | .paramRead _ _ _ r _ => decide (r ≤ 10)
  | .paramProgram _ _ _ k _ => decide (k ≤ 3)
  | .pwrPhase _ p _ => decide (p ≤ 7)
  | .pwrCap _ w => decide (1500 ≤ w) && decide (w ≤ 2000)
  | .mgtLogRead _ _ n _ => decide (1 ≤ n) && decide (n ≤ 65536)
  | .mboxBind _ m prio ev _ _ r => decide (m < 64) && decide (prio ≤ 3) && decide (ev ≤ 1) && r.len == 16384
  | .mboxUnbind _ m | .mboxCancel _ m _ | .mboxStatus _ m => decide (m < 64)
  | .hostPortConfig _ p fl pfc vlan _ _ => decide (p < 4) && decide (fl ≤ 3) && decide (pfc ≤ 7) && decide (vlan < 4096)
  | .hostQpOpen _ p dscp mtu qpn psn mac _ =>
    decide (p < 4) && decide (dscp < 64) && decide (mtu ≤ 2) && decide (qpn < 2 ^ 24) && decide (psn < 2 ^ 24) &&
    decide (mac < 2 ^ 48)
  | .funcDisable _ f j _ | .funcEnable _ f j | .funcStatus _ f j => decide (f ≤ 5) && (decide (j < 4096) || j == 65535)
  | .regRead _ _ w _ => decide (1 ≤ w) && decide (w ≤ 8192)
  | _ => true

/-! ## Paths and phases -/

/-- The job of a tick program, by its context. -/
def State.progJob (s : State) (ctx : Nat) : Option Nat := (s.prog? ctx).map ProgSt.job

/-- A fabric command names the frame's own job (R316): its job argument, its program's job, or a context of the job's range;
a command that names its job only in an image is judged by its image. -/
def State.ownJob (s : State) (c : Instr) (job : Nat) : Bool :=
  match jobNamed c with
  | some j => j == job
  | none =>
    match c with
    | .engUnload _ o | .engRun _ o | .engAbort _ o => s.progJob (o % 1048576) == some job
    | _ =>
      match ctxNamed c, s.host.jobs.get? job with
      | some n, some j => j.inRange n
      | some _, none => false
      | none, _ => true

/-- The command is allowed on its path (check 3 of Table 13.5). -/
def State.pathOk (s : State) (c : Instr) (code : Nat) : Path → Bool
  | .mailbox _ => true
  | .sideband => (refsOf c).all fun r => r.key == 0
  | .fabric job _ _ _ _ =>
    ((decide (0x1001 ≤ code) && decide (code ≤ 0x1205)) || (decide (0x0F01 ≤ code) && decide (code ≤ 0x0F04))) &&
    ((refsOf c).all fun r => r.key == 0) && s.ownJob c job

/-- A register access in a window that R315 names. -/
def sideWindow (c : Instr) : Bool :=
  match regTarget c with
  | some a => [0, 0x0A, 0x0B, 0x0C].contains ((a - regSpace) / 2 ^ 24) && decide (regSpace ≤ a)
  | none => false

/-- The commands of R315. -/
def sideCmd (c : Instr) (code : Nat) : Bool :=
  [1, 2, 0x15].contains (code / 256) || code == 0x0701 || (code / 256 == 5 && sideWindow c)

/-- The phase accepts the command (R337, Table 14.3, R329). RESET.DATA_PLANE is judged by R342 from MEMORY on. -/
def State.phaseOk (s : State) (c : Instr) (code : Nat) (path : Path) : Bool :=
  let mem := sideCmd c code || code == 0x0702
  let uncarved := mem || code == 0x0601 || code / 256 == 7 || code / 256 == 5
  if s.boot.phase ≤ 1 then false
  else if s.boot.phase ≤ 3 then sideCmd c code
  else if s.boot.phase = 4 then mem
  else if s.boot.phase = 5 then uncarved
  else if s.boot.phase = 6 then
    uncarved || code == 0x0B01 || code / 256 == 0x0E || code / 256 == 0x0A || (decide (0x0F06 ≤ code) && decide (code ≤ 0x0F08))
  else if s.boot.phase ≤ 9 then true
  else if s.boot.failReason = 1 then path == .sideband && [0x0701, 0x1501, 0x1502, 0x1504].contains code
  else code / 256 == 0x15 || code == 0x0701

/-- The safe state accepts the command (R374). -/
def safeCmd (code : Nat) : Bool :=
  [1, 2, 0x15].contains (code / 256) || [0x0701, 0x0702, 0x0501, 0x1403].contains code

/-- effective_tick is refused (check 5 of Table 13.5; R53, R313). -/
def State.tickRefusal (s : State) (t : Nat) : Option Nat :=
  if t ≤ s.tick.counter + 1 then some Status.tickPassed
  else if [0, 1, 2, 6].contains s.tick.state then some Status.tickUnsynced
  else if s.tick.counter + 2 ^ 24 < t then some Status.tickTooFar
  else none

/-- Checks 1 to 7 of Table 13.5: the status of the first that fails. -/
def State.checks (s : State) (x : Ctx) : Option Nat :=
  let h := x.hdr
  if x.bad = Status.badSlot ∨ x.bad = Status.unknownCommand then some x.bad
  else if (s.isSafe && !safeCmd x.code) || !s.phaseOk x.cmd x.code h.path then some Status.notReady
  else if !s.pathOk x.cmd x.code h.path then some Status.notPermitted
  else if x.bad ≠ 0 ∨ s.argsOk x.cmd = false ∨ (h.effTick ≠ 0 ∧ tickUse x.code = 0) ∨ (h.effTick = 0 ∧ tickUse x.code = 2) then
    some Status.descInvalid
  else
    match (if h.effTick = 0 then none else s.tickRefusal h.effTick) with
    | some st => some st
    | none =>
      if (match jobNamed x.cmd with
          | some j => (s.host.jobs.get? j).isNone
          | none => false) then some Status.jobUnknown
      else
        match funcOf x.cmd with
        | some f =>
          let job := (jobNamed x.cmd).getD (match x.cmd with
            | .engRun _ o => (s.progJob (o % 1048576)).getD 65535
            | _ => 65535)
          if s.disabled f job then some Status.functionDisabled else none
        | none => none

/-! ## Buffer references (R317) -/

/-- The job of a command, for its references of key 0. -/
def refJob (c : Instr) (h : CmdHdr) : Option Nat :=
  match jobNamed c, h.path with
  | some j, _ => some j
  | none, .fabric j _ _ _ _ => some j
  | none, _ => none

/-- The bytes lie in an allocated P4 sett or a block of the job; of any job where the command names none (DESIGN CHOICE, log
entry 44). -/
def State.regionOk (s : State) (job : Option Nat) (a n : Nat) : Bool :=
  (s.pool.setts.any fun kv => kv.2.pool == 4 && decide (kv.1 ≤ a) && decide (a + n ≤ kv.1 + span) &&
    (match job with
      | some j => s.pool.binds.get? kv.2.owner == some j
      | none => true)) ||
  s.parm.blocks.vals.any fun b => decide (b.base ≤ a) && decide (a + n ≤ b.base + b.size) && (job.isNone || job == some b.job)

/-- The QP on which a command's host data moves works. -/
def State.dataQpOk (s : State) : Path → Bool
  | .mailbox m =>
    let b := s.host.mboxes.getD m {}
    match s.host.qps.get? (if b.dataQp = 0 then b.qp.getD 0 else b.dataQp) with
    | some q => !q.error
    | none => false
  | _ => false

/-- An access outside Table 1.5: an address fault (R27, class 14). -/
def State.addrFault (s : State) (a access : Nat) : State :=
  s.report { cls := 14, master := managementMaster, addr := a, access := access }

/-- `n` bytes at a device reference lie outside Table 1.5. -/
def State.strays (s : State) (r : Ref) (n : Nat) : Bool := r.key == 0 && n != 0 && !s.mapped r.addr n

/-- The status of a command that cannot read or write `n` bytes through a reference: REF_FAILED (R317), and DESC_INVALID outside
Table 1.5 (Table 16.1, class 14). -/
def State.refStatus (s : State) (r : Ref) (n : Nat) : Nat := if s.strays r n then Status.descInvalid else Status.refFailed

/-- What a failed access through a reference reports. -/
def State.refReport (s : State) (r : Ref) (n access : Nat) : State := if s.strays r n then s.addrFault r.addr access else s

/-- What reading the first `n` bytes of a reference gives; none where the read fails. -/
def State.readRef (s : State) (c : Instr) (h : CmdHdr) (r : Ref) (n : Nat) : Option (List Byte) :=
  if r.key = 0 then (if s.regionOk (refJob c h) r.addr n then some (s.readMem r.addr n) else none)
  else if !s.dataQpOk h.path then none
  else
    match h.reads.find? fun b => b.key == r.key && decide (b.addr ≤ r.addr) &&
        decide (r.addr + n ≤ b.addr + b.bytes.length) with
    | some b => some ((b.bytes.drop (r.addr - b.addr)).take n)
    | none => none

/-- An image read through a reference: its header says how long it is. A reference shorter than the image is DESC_INVALID, a
failed read REF_FAILED. -/
def State.readImage (s : State) (c : Instr) (h : CmdHdr) (r : Ref) (header : Nat) (len : List Byte → Nat) :
    Nat × State ⊕ List Byte :=
  if r.len < header then .inl (Status.descInvalid, s)
  else
    match s.readRef c h r header with
    | none => .inl (s.refStatus r header, s.refReport r header 1)
    | some b =>
      if r.len < len b then .inl (Status.descInvalid, s)
      else
        match s.readRef c h r (len b) with
        | none => .inl (s.refStatus r (len b), s.refReport r (len b) 1)
        | some bytes => .inr bytes

/-- Output written through a reference; whether the write succeeded. -/
def State.writeRef (s : State) (c : Instr) (h : CmdHdr) (r : Ref) (bytes : List Byte) : Bool × State :=
  if r.key = 0 then
    (if s.regionOk (refJob c h) r.addr bytes.length then (true, s.writeMem r.addr bytes)
     else (false, s.refReport r bytes.length 2))
  else if h.writable && s.dataQpOk h.path then (true, s.emit (.rdmaWrite h.path r bytes))
  else (false, s)

end Sys2Proof.Machine
end

