-- ==== Sys2Proof/Machine/HostCmds.lean ====
section
/-! DEFINITION. Completions (R308, R310, R315, R316), and the own rules of the mailbox, host, job, function and register
commands (Table 13.7). -/

namespace Sys2Proof.Machine

open Sys2Proof (Instr CmdHdr Ref Path)

/-! ## Completions -/

/-- A mailbox. -/
def State.mbox (s : State) (m : Nat) : MboxSt := s.host.mboxes.getD m {}

/-- One mailbox changed. -/
def State.setMbox (s : State) (m : Nat) (f : MboxSt → MboxSt) : State :=
  s.setHost fun h => { h with mboxes := h.mboxes.upd m {} f }

/-- Table 13.4, as the answer to an MGMT frame carries it. -/
def completionBytes (mailbox number code status detail : Nat) (t : Stamp) (result : List Byte) : List Byte :=
  leBytes 4 number ++ leBytes 2 status ++ leBytes 2 code ++ leBytes 1 mailbox ++ leBytes 1 detail ++ zeros 6 ++ t.bytes ++
  zeros 6 ++ padTo 28 result ++ leBytes 4 number

/-- A completion goes out: into the ring of a bound mailbox, held while the mailbox is unbound, over the sideband, or in an
MGMT frame. -/
def State.deliver (s : State) (path : Path) (d : HeldDone) : State :=
  let out := Out.completion path d.number d.code d.status d.detail d.stamp d.result
  match path with
  | .mailbox m =>
    if (s.mbox m).qp.isSome then (s.emit out).bump .mgtMboxCommands
    else s.setMbox m fun b => { b with held := b.held ++ [d] }
  | .sideband =>
    let s := s.setHost fun h => { h with side := { h.side with busy := false, ready := true } }
    ((s.emit out).bump .mgtMboxCommands).emit (.inBand 1)
  | .fabric job node ep cls opId =>
    ((s.emit out).bump .mgtMboxCommands).send
      { hdr := { opcode := Op.mgmt, cls := cls, dstNode := node, dstEp := ep, srcNode := s.me, srcEp := 0xFFF3, job := job,
                 units := 1, last := true, opId := opId }
        payload := completionBytes 0xFE d.number d.code d.status d.detail d.stamp d.result } .none

/-- The completion of a status carries values: OK, an arithmetic status, whose results are delivered (R319), and the job_seq of
PROGRAM_INVALID. -/
def carriesValues (status : Nat) : Bool := status == Status.ok || status == Status.programInvalid || status / 256 == 3

/-- A command completes: its context is free, and its completion goes out. -/
def State.complete (s : State) (x : Ctx) (status : Nat) (detail : Nat := 0) (result : List Byte := []) : State :=
  let t := s.stamp
  let s := s.stamped.setHost fun h => { h with ctxs := h.ctxs.filter fun y => y.id != x.id }
  let s := if status = Status.badSlot then s.bump .mgtMboxBadSlot else s
  s.deliver x.hdr.path
    { number := x.hdr.number, code := x.code, status := status, detail := detail, stamp := t,
      result := if carriesValues status then result else [] }

/-- What a command's own rule says: it is over, with a status, a detail, returned values and output for a reference; or it
waits, with the values it will return and the context it has opened. -/
inductive CmdEnd where
  | done (status : Nat) (detail : Nat := 0) (result : List Byte := []) (output : Option (Ref × List Byte) := none)
  | wait (k : WaitKey) (result : List Byte := []) (made : Option Nat := none)

/-- The command is over with OK. -/
def finished (s : State) (result : List Byte := []) : CmdEnd × State := (.done Status.ok 0 result, s)

/-- The command is refused. -/
def denied (s : State) (status : Nat) (detail : Nat := 0) : CmdEnd × State := (.done status detail, s)

/-- The command is over with a record for a reference: too short a reference is refused (R309). -/
def reports (s : State) (r : Ref) (bytes : List Byte) : CmdEnd × State :=
  if r.len < bytes.length then denied s Status.descInvalid else (.done Status.ok 0 [] (some (r, bytes)), s)

/-- Values packed as R318 packs them: (bytes, value). -/
def packValues (vs : List (Nat × Nat)) : List Byte :=
  vs.foldl (fun acc v => let a := argAlign acc.length v.1; acc ++ zeros (a - acc.length) ++ leBytes v.1 v.2) []

/-! ## Mailboxes (R305, R310, R314) -/

/-- Numbers of a mailbox's commands without a completion, oldest first by distance from P. -/
def State.openNumbers (s : State) (m : Nat) : List Nat :=
  let mine := (s.host.ctxs.filter fun x => x.hdr.path == .mailbox m).map (fun x => x.hdr.number) ++
    (s.mbox m).held.map HeldDone.number
  mine.mergeSort fun a b => decide (((s.mbox m).p + 2 ^ 32 - b) % 2 ^ 32 ≤ ((s.mbox m).p + 2 ^ 32 - a) % 2 ^ 32)

/-- The oldest command without a completion; P + 1 where there is none (R305). -/
def State.oldest (s : State) (m : Nat) : Nat := (s.openNumbers m).headD (((s.mbox m).p + 1) % 2 ^ 32)

/-- MBOX.BIND (R310): the keys are issued anew, and the completions that were held are written. -/
def State.mboxBind (s : State) (h : CmdHdr) (m prio events qp dataQp : Nat) (ring : Ref) : CmdEnd × State :=
  let b := s.mbox m
  let open_ := fun (q : Nat) => (s.host.qps.get? q).isSome
  let sender := match h.path with
    | .mailbox k => (s.mbox k).qp
    | _ => none
  if !open_ qp || (dataQp != 0 && !open_ dataQp) then denied s Status.descInvalid
  else if b.qp.isSome && b.qp != some qp && h.path != .sideband && sender != b.qp then denied s Status.opBusy
  else
    let (k1, s) := s.draw
    let (k2, s) := s.draw
    let s := s.setMbox m fun b => { b with
      qp := some qp, dataQp := dataQp, priority := prio, events := events == 1, ring := ring, ringKey := k1, doorKey := k2
      p := (if b.everBound then b.p else 0), everBound := true, held := [] }
    let s := b.held.foldl (fun s d => s.deliver (.mailbox m) d) s
    finished s (packValues [(4, (Config.freeWord k1).toNat), (4, (Config.freeWord k2).toNat)])

/-- MBOX.UNBIND: the keys are withdrawn. -/
def State.mboxUnbind (s : State) (m : Nat) : CmdEnd × State := finished (s.setMbox m fun b => { b with qp := none })

/-- A command that is held by a fence or an effective tick. -/
def Ctx.cancellable (x : Ctx) : Bool :=
  match x.state with
  | .waiting => x.hdr.fence || x.hdr.devFence
  | .started (.tick _) => true
  | .started _ => false

/-- MBOX.CANCEL (R314). -/
def State.mboxCancel (s : State) (m number : Nat) : CmdEnd × State :=
  match s.host.ctxs.find? fun x => x.hdr.path == .mailbox m && x.hdr.number == number with
  | some x => if x.cancellable then finished (s.complete x Status.cancelled) else denied s Status.notCancellable
  | none => denied s Status.notCancellable

/-- MBOX.STATUS. -/
def State.mboxStatus (s : State) (m : Nat) : CmdEnd × State :=
  finished s (packValues [(4, (s.mbox m).p), (4, s.oldest m), (2, (s.openNumbers m).length), (4, (s.mbox m).qp.getD 0)])

/-! ## Host ports and queue pairs (R298–R301) -/

/-- HOST.PORT_CONFIG. -/
def State.hostPortConfig (s : State) (p flags pfc vlan ipv4 ipv6 : Nat) : CmdEnd × State :=
  if s.host.qps.vals.any fun q => q.port == p then denied s Status.opBusy
  else
    let set_ : HostPortSt → HostPortSt := fun x => { x with
      flags := flags, pfcPriority := pfc, vlan := vlan, ipv4 := ipv4, ipv6 := ipv6 }
    finished (s.setHost fun h => { h with ports := h.ports.upd p {} set_ })

/-- HOST.QP_OPEN: the lowest free QPN (DESIGN CHOICE, log entry 45). -/
def State.hostQpOpen (s : State) (p dscp mtu hostQpn hostPsn dstMac hostGid : Nat) : CmdEnd × State :=
  match (rangeFrom 0x100 4096).find? fun q => (s.host.qps.get? q).isNone with
  | none => denied s Status.capacityExceeded
  | some q =>
    let (d, s) := s.draw
    let x : QpSt := { port := p, dscp := dscp, mtu := mtu, hostQpn := hostQpn, hostPsn := hostPsn, dstMac := dstMac,
                      hostGid := hostGid, psnDraw := d }
    let s := s.setHost fun h => { h with qps := h.qps.set q x }
    finished s (packValues [(4, q), (4, (Config.freeWord d).toNat % 2 ^ 24)])

/-- HOST.QP_CLOSE: refused while a bound mailbox names the QP. -/
def State.hostQpClose (s : State) (q : Nat) : CmdEnd × State :=
  if (s.host.qps.get? q).isNone then denied s Status.descInvalid
  else if s.host.mboxes.vals.any fun b => b.qp.isSome && (b.qp == some q || b.dataQp == q) then denied s Status.opBusy
  else finished (s.setHost fun h => { h with qps := h.qps.erase q })

/-! ## Jobs (R320–R322) -/

/-- JOB.ADMIT: without a plan it is refused before its record is read. -/
def State.jobAdmit (s : State) (c : Instr) (h : CmdHdr) (r : Ref) : CmdEnd × State :=
  if s.topo.plan.isNone then denied s Status.notReady
  else
    match s.readImage c h r 64 jobLength with
    | .inl x => denied x.2 x.1
    | .inr b =>
      match s.admitRefusal b with
      | some st => denied s st
      | none => finished (s.admitJob b)

/-- JOB.END: the job's work ends; the command waits until every resource is free. -/
def State.jobEnd (s : State) (job : Nat) : CmdEnd × State := (.wait (.job job), s.endJob job)

/-- JOB.STATUS: the record as admitted. -/
def State.jobStatus (s : State) (job : Nat) (out : Ref) : CmdEnd × State :=
  match s.host.jobs.get? job with
  | none => denied s Status.jobUnknown
  | some j => reports s out j.record

/-! ## Functions (R323, R324) -/

/-- FUNC.DISABLE. -/
def State.funcDisable (s : State) (f job drain : Nat) : CmdEnd × State :=
  match s.disableOf f job with
  | some d => if d.done then finished s (packValues [(4, 0), (4, 0)]) else denied s Status.opBusy
  | none => (.wait (.func f job), s.disable f job drain)

/-- FUNC.ENABLE. -/
def State.funcEnable (s : State) (f job : Nat) : CmdEnd × State :=
  if s.funcState f job = 1 then denied s Status.opBusy else finished (s.enable f job)

/-- FUNC.STATUS. -/
def State.funcStatus (s : State) (f job : Nat) : CmdEnd × State :=
  finished s (packValues [(1, s.funcState f job), (4, s.workIn f (scopeOf job))])

/-! ## Registers (R325, R445) -/

/-- A register access at an address in no register: outside Table 1.5 it is an address fault too (R27). -/
def State.straysAt (s : State) (a n access : Nat) : State := if s.mapped a n then s else s.addrFault a access

/-- REG.READ: up to three words are returned, more are written to the reference. -/
def State.readRegs (s : State) (a words : Nat) (out : Ref) : CmdEnd × State :=
  if 3 < words ∧ out.len < 8 * words then denied s Status.descInvalid
  else
    match s.regReads a words with
    | none => denied (s.straysAt a (8 * words) 1) Status.descInvalid
    | some (vs, s') =>
      let bytes := vs.flatMap (leBytes 8)
      if words ≤ 3 then finished s' bytes else (.done Status.ok 0 [] (some (out, bytes)), s')

/-- The words and the value of the register write that a command is. -/
def State.regWriteOf (s : State) : Instr → Option (Nat × Nat)
  | .regWrite _ a v => some (a, v)
  | .tickEnableWrite _ => some (regAddr .tickConfig, setField (s.reg .tickConfig) 10 1 1)
  | .tickPeriodWrite _ p => some (regAddr .tickConfig, setField (s.reg .tickConfig) 0 2 p)
  | .memarbShareWrite _ v => some (regAddr .mgtMemarbShare, v)
  | .engSrSeedWrite _ v => some (regAddr .engSrSeed, v)
  | .fltStatusClear _ m => some (regAddr .fltStatus, m)
  | .fltMcRetire _ c => some (regAddr .fltMcCtrl c, 1)
  | .fltMcTest _ c => some (regAddr .fltMcCtrl c, 2)
  | .fltMcRestore _ c => some (regAddr .fltMcCtrl c, 4)
  | .mgtSensorClearPeaks _ => some (regAddr .mgtSensorCtrl, 1)
  | _ => none

/-- REG.WRITE: refused with a reason of Table 0.4, or done. -/
def State.writeReg (s : State) (a v : Nat) : CmdEnd × State :=
  match regAt a with
  | none => denied (s.straysAt a 8 2) Status.descInvalid
  | some (r, i) =>
    match s.writeReason r i v with
    | some reason => denied (s.writeRefused r a v reason) Status.regRefused reason
    | none => finished (s.regWrite r i v)

end Sys2Proof.Machine
end

