-- ==== Sys2Proof/Machine/SetupCmds.lean ====
section
/-! DEFINITION. Own rules of the SETUP, RESET, TICK, LINK, LANE, TOPO, ROUTE, SCHED, POOL, PWR, FLT and MGT commands
(Table 13.6 and the rules it names). -/

namespace Sys2Proof.Machine

open Sys2Proof (Instr CmdHdr Ref Path)

/-! ## Start-up and resets (R331, R338–R342) -/

/-- SETUP.CARVE. -/
def State.setupCarve (s : State) (packet reduction staging stozil : Nat) : CmdEnd × State :=
  match s.carveRefusal packet reduction staging stozil with
  | some (st, d) => denied s st d
  | none => finished (s.carve packet reduction staging stozil)

/-- A reset of higher rank than a tile's or a port's is under way (R342). -/
def State.bigReset (s : State) : Bool := s.boot.shutdownDue || s.boot.kept.isSome

/-- RESET.MODULE: the completion is written first; the shutdown follows. -/
def State.resetModule (s : State) : CmdEnd × State :=
  if s.boot.shutdownDue then denied s Status.opBusy
  else finished (s.setBoot fun b => { b with shutdownDue := true })

/-- RESET.DATA_PLANE. -/
def State.resetDataPlane (s : State) : CmdEnd × State :=
  if s.boot.phase < Phase.memory then denied s Status.notReady
  else if s.bigReset then denied s Status.opBusy
  else (.wait .dpReset, s.dataPlaneReset)

/-- RESET.TILE: a rail that a fault took away is powered again, once (R351; log entry 35). -/
def State.resetTile (s : State) (k : Nat) : CmdEnd × State :=
  if s.boot.phase < Phase.carved then denied s Status.notReady
  else if s.bigReset || s.eng.inReset.contains k then denied s Status.opBusy
  else if (s.tilePwr k).railOff && (s.tilePwr k).railAgain then denied s Status.notReady
  else (.wait (.tile k), (s.repower k).stopTile k)

/-- RESET.PORT: DISABLED at once, then DETECT. -/
def State.resetPort (s : State) (p : Nat) : CmdEnd × State :=
  if s.boot.phase < Phase.carved then denied s Status.notReady
  else if s.bigReset || s.portTied p then denied s Status.opBusy
  else finished ((s.disablePort p).enablePort p)

/-! ## Links, lanes, laser source modules (R63, R74, R75, R78, R126) -/

/-- Destination hedges in force, or accepted and waiting for their boundary, other than one on the same destination. -/
def State.otherDestHedges (s : State) (node ep : Nat) : List (Nat × Nat) :=
  let waiting := s.host.ctxs.filterMap fun x =>
    match x.state, x.cmd with
    | .started _, .linkHedge _ 1 _ _ n e => some (n, e)
    | _, _ => none
  let inForce := (s.topo.hedges.filter fun h => h.scope == 1).map fun h => (h.node, h.ep)
  ((waiting ++ inForce).dedup).filter (· != (node, ep))

/-- LINK.HEDGE (R126). -/
def State.linkHedge (s : State) (scope port job node ep : Nat) : CmdEnd × State :=
  if scope = 1 ∧ 512 ≤ (s.otherDestHedges node ep).length then denied s Status.capacityExceeded
  else
    let s' := s.hedge (hedgeOf scope port job node ep s.tick.counter)
    let s' := if scope = 1 then s'.dropSubs fun a => a == (node, ep) else s'
    finished s'.stashHedged

/-- LINK.LIFT. -/
def State.linkLift (s : State) (scope port job node ep : Nat) : CmdEnd × State :=
  finished (s.lift (hedgeOf scope port job node ep 0))

/-- LANE.RETIRE. -/
def State.laneRetire (s : State) (n : Nat) : CmdEnd × State :=
  finished (if (s.lane n).retired then s else s.retireLane n 0)

/-- Lanes in use of a port. -/
def State.inUseLanes (s : State) (p : Nat) : Nat := ((s.lanesOf p).filter fun n => (s.lane n).inUse).length

/-- LANE.TEST's refusal (R75). Where no peer is known the plan's role decides that it is not a Delvi node, and a port that is not
ACTIVE is busy (DESIGN CHOICE, log entry 71). -/
def State.laneTestRefusal (s : State) (n : Nat) : Option Nat :=
  let p := s.portOf n
  let l := s.lane n
  if (match (s.port p).peer with
      | some c => c.kind != 0
      | none => s.role p == 1) then some Status.notPermitted
  else if (s.port p).state ≠ 5 || l.retired || l.test.isSome || (s.lsm (n / 64)).draining.isSome ||
      (l.inUse && s.inUseLanes p == 1) then some Status.opBusy
  else none

/-- LANE.TEST. -/
def State.laneTest (s : State) (n after ticks : Nat) (out : Ref) : CmdEnd × State :=
  match s.laneTestRefusal n with
  | some st => denied s st
  | none => (.wait (.lane n), s.startLaneTest n ticks (after == 1) out)

/-- LANE.LSM_RELEASE; a module whose release is under way is not released again. -/
def State.laneLsmRelease (s : State) (j : Nat) : CmdEnd × State :=
  if (s.lsm j).draining.isSome then denied s Status.opBusy else (.wait (.lsm j), s.lsmRelease j)

/-! ## Plan, routing, reservations (R108, R127, R128, R142) -/

/-- TOPO.LOAD. -/
def State.topoLoad (s : State) (c : Instr) (h : CmdHdr) (r : Ref) : CmdEnd × State :=
  if !s.host.jobs.isEmpty then denied s Status.jobsActive
  else
    match s.readImage c h r 64 fun b => planLength b s.portCount with
    | .inl x => denied x.2 x.1
    | .inr b =>
      if !s.planOk b then denied s Status.planInvalid
      else
        let s := s.loadPlan b
        finished (if s.boot.phase = Phase.carved then s.enter Phase.planned else s)

/-- TOPO.READMIT's refusal (R127): on the node itself only its own tick keeper is judged. -/
def State.readmitRefusal (s : State) (n : Nat) : Option Nat :=
  if n = s.me then (if s.live then none else some Status.tickUnsynced)
  else
    let plan := (s.topo.plan.map Plan.planId).getD 0
    let heard := s.topo.ports.vals.any fun r => match r.hello with
      | some d => d.node == n && d.planId == plan
      | none => false
    let ticks := s.tick.nbrs.vals.filter fun a => a.sender == n
    if !heard then some Status.notDiscovered
    else if ticks.any fun a => a.state == 3 || a.state == 4 || a.state == 7 then none
    else some Status.tickUnsynced

/-- TOPO.READMIT. -/
def State.topoReadmit (s : State) (n : Nat) : CmdEnd × State :=
  match s.readmitRefusal n with
  | some st => denied s st
  | none => finished ((s.readmit n).reinstallGroups n)

/-- ROUTE.RESEED. -/
def State.routeReseed (s : State) (seed : Nat) : CmdEnd × State := finished (s.setTopo fun t => { t with seed := seed })

/-- SCHED.RESERVE. -/
def State.schedReserve (s : State) (p r : Nat) : CmdEnd × State :=
  if s.c7Limit < r ∨ (s.role p = 2 ∧ r < 8) then denied s Status.descInvalid
  else finished (({ s with sw := { s.sw with reserve := s.sw.reserve.set p r } }).scaleEvent p 256)

/-! ## Pools (R154, R158, R162, R167) -/

/-- What POOL.SETUP would make of the pools. -/
def State.poolPlan (s : State) (p1 p2 p3 modes count base : Nat) : PoolSt :=
  { s.pool with p1 := p1, p2 := p2, p3 := p3, modes := modes, p4count := count, p4base := base }

/-- A pool whose setts POOL.SETUP would move, add, take away or treat otherwise. -/
def State.poolChanged (s t : State) (k : Nat) : Bool :=
  s.poolBase k 0 != t.poolBase k 0 || s.pool.total k != t.pool.total k || s.refcount k != t.refcount k

/-- The P4 region lies in usable device memory and meets nothing else taken there. -/
def State.p4Fits (s : State) (count base : Nat) : Bool :=
  let n := count * span
  let others := ({ s with pool := { s.pool with p4count := 0 } }).taken
  count == 0 || (decide (base + n ≤ s.usable) && decide (n ≤ s.capacityLeft + s.pool.p4count * span) &&
    others.all fun r => decide (r.1 + r.2 ≤ base) || decide (base + n ≤ r.1))

/-- Every maximum that stood at a pool's old count follows it (R158). -/
def PoolSt.followCounts (old new_ : PoolSt) : PoolSt :=
  { new_ with quotas := NMap.mapV new_.quotas fun key q =>
      if q.2 = old.total (key % 8) then (q.1, new_.total (key % 8)) else q }

/-- POOL.SETUP. -/
def State.poolSetup (s : State) (p1 p2 p3 modes count base : Nat) : CmdEnd × State :=
  let t := { s with pool := s.poolPlan p1 p2 p3 modes count base }
  let changed := [1, 2, 3, 4].filter (s.poolChanged t)
  let staging := (s.boot.carving.map Carving.staging).getD 0 * 16
  let minima := fun (k : Nat) => ((s.pool.quotas.filter fun q => q.1 % 8 == k).map fun q => q.2.1).sum
  if p1 + p2 + p3 ≠ staging then denied s Status.descInvalid
  else if !s.host.jobs.isEmpty then denied s Status.jobsActive
  else if changed.any fun k => s.allocated k != 0 then denied s Status.poolBusy
  else if !s.p4Fits count base then denied s Status.capacityExceeded
  else if [1, 2, 3, 4].any fun k => decide (t.pool.total k < minima k) then denied s Status.quotaInvalid
  else
    let p := s.pool.followCounts t.pool
    finished ({ s with pool := { p with low := p.low.filter (fun kv => !changed.contains kv.1) } }).assignSubstitutes

/-- POOL.QUOTA. -/
def State.poolQuota (s : State) (r k mn mx : Nat) : CmdEnd × State :=
  if s.quotaBad r k mn mx then denied s Status.quotaInvalid
  else finished { s with pool := { s.pool with quotas := s.pool.quotas.set (r * 8 + k) (mn, mx) } }

/-- POOL.BIND. -/
def State.poolBind (s : State) (r job : Nat) : CmdEnd × State :=
  if (s.pool.binds.get? r).isSome then denied s Status.quotaInvalid
  else finished { s with pool := { s.pool with binds := s.pool.binds.set r job } }

/-- POOL.ALLOC: a fixed requester other than 26 and an unbound one are refused. -/
def State.poolAlloc (s : State) (r tile spill size : Nat) : CmdEnd × State :=
  if r ≠ 26 ∧ (s.pool.binds.get? r).isNone then
    denied (s.poolFail managementMaster 1 0 r Status.sizeUnsupported 0) Status.sizeUnsupported
  else
    match s.alloc managementMaster r size tile (spill == 1) with
    | (some (a, k), _, s') => finished s' (packValues [(8, a), (1, k)])
    | (none, st, s') => denied s' st

/-- The end of a command that only has a status. -/
def ended (x : Nat × State) : CmdEnd × State := (.done x.1, x.2)

/-- POOL.REF: requester 26 stands for the host. -/
def State.poolRef (s : State) (n : Int) (a : Nat) : CmdEnd × State :=
  match s.reference n managementMaster 26 a with
  | (st, c, s') => (.done st 0 (packValues [(2, c)]), s')

/-- POOL.STATUS (R168). -/
def State.poolStatus (s : State) (k r : Nat) (out : Ref) : CmdEnd × State :=
  let words := [s.regValue .poolConfig k, s.regValue .poolFree k, s.regValue .poolLowWater k] ++
    (if r = 0xFFFF then [] else [s.regValue .poolQuota (r * 5 + k), if r < 64 then 0 else s.regValue .poolBind r])
  reports s out (words.flatMap (leBytes 8))

/-! ## Power (R354, R367), faults (R373, R381, R387) -/

/-- PWR.CAP. -/
def State.setCap (s : State) (w : Nat) : CmdEnd × State := finished (s.setReg .pwrCap 0 w)

/-- FLT.SEVERITY. -/
def State.setSeverity (s : State) (source level : Nat) : CmdEnd × State :=
  if levelOk source level then finished (s.levelSet source level) else denied s Status.descInvalid

/-- FLT.INJECT. -/
def State.hostInject (s : State) (source : Nat) : CmdEnd × State :=
  match s.injectRefusal source with
  | some st => denied s st
  | none => (.wait .inject, s.setInjection source)

/-! ## Management (R404–R410) -/

/-- MGT.IMAGE_WRITE: inline data where the reference has key 0, address 0 and a length from 1 to 24 (R405). -/
def State.mgtImageWrite (s : State) (c : Instr) (h : CmdHdr) (slot off : Nat) (r : Ref) (inlined : List Byte) :
    CmdEnd × State :=
  match s.imageWriteRefusal h.path slot off r.len with
  | some st => denied s st
  | none =>
    if r.key = 0 ∧ r.addr = 0 ∧ r.len ≤ 24 then finished (s.imageWrite h.path slot off (padTo r.len inlined))
    else
      match s.readRef c h r r.len with
      | none => denied (s.refReport r r.len 1) (s.refStatus r r.len)
      | some data => finished (s.imageWrite h.path slot off data)

/-- MGT.ATTEST: a report that has its place is signed and counted. -/
def State.mgtAttest (s : State) (nonce : List Byte) (out : Ref) : CmdEnd × State :=
  let r := s.attestation nonce
  if out.len < r.length then denied s Status.descInvalid
  else (.done Status.ok 0 [] (some (out, r)), s.stamped.bump .mgtAttests)

/-- MGT.LOG_READ. -/
def State.mgtLogRead (s : State) (first n : Nat) (out : Ref) : CmdEnd × State :=
  if out.len < 64 * n then denied s Status.descInvalid else (.done Status.ok 0 [] (some (out, s.logBytes first n)), s)

end Sys2Proof.Machine
end

