-- ==== Sys2Proof/Machine/WorkCmds.lean ====
section
/-! DEFINITION. Own rules of the ENG, COLL, PARAM and STASH commands (Tables 9.6, 10.10, 11.8 and 12.5), and the one place
where every command's own rule is chosen. -/

namespace Sys2Proof.Machine

open Sys2Proof (Instr CmdHdr Ref Path)

/-- Native work in a Stozil job is refused (R414). -/
def State.stozilJob (s : State) (job : Nat) : Bool := ((s.host.jobs.get? job).map JobSt.stozil).getD false

/-- An op_id names a loaded program: its context. -/
def State.progFor (s : State) (opId : Nat) : Option (Nat × ProgSt) :=
  let c := opId % 1048576
  if opId = s.opId c then (s.prog? c).map fun p => (c, p) else none

/-! ## Engines (R202–R218) -/

/-- Bytes of a program image, by its header. -/
def progLength (b : List Byte) : Nat := 576 + 16 * getLE b 8 2 + 96 * getLE b 12 4

/-- A kind-1 buffer lies in a block of the job, or in a P4 sett charged to the job's requester (R203). -/
def State.deviceBufferOk (s : State) (p : ProgSt) (e : BufEntry) : Bool :=
  let r := s.progRequester p.job p.homeTile
  (s.parm.blocks.vals.any fun b => b.job == p.job && decide (b.base ≤ e.address) &&
    decide (e.address + e.size ≤ b.base + b.size)) ||
  s.pool.setts.any fun kv => kv.2.pool == 4 && kv.2.owner == r && decide (kv.1 ≤ e.address) &&
    decide (e.address + e.size ≤ kv.1 + span)

/-- The refusal of a program image: job_seq and reason of Table 9.4. -/
def State.progRefusal (s : State) (b : List Byte) (p : ProgSt) (job : Nat) : Option (Nat × Nat) :=
  if !progHeaderOk b p job then some (0, 1)
  else
    match s.firstRefusal p with
    | some x => some x
    | none =>
      if !p.buffersOk then some (0, 6)
      else if p.buffers.any fun e => e.kind == 1 && !s.deviceBufferOk p e then some (0, 10)
      else none

/-- ENG.LOAD. -/
def State.engLoad (s : State) (c : Instr) (h : CmdHdr) (job : Nat) (r : Ref) : CmdEnd × State :=
  if s.stozilJob job then denied s Status.stozilMixed
  else
    match s.readImage c h r 64 progLength with
    | .inl x => denied x.2 x.1
    | .inr b =>
      let p := parseProg b
      match s.progRefusal b p job with
      | some (seq, reason) => (.done Status.programInvalid reason (packValues [(4, seq)]), s)
      | none =>
        match s.freeCtx with
        | none => denied s Status.capacityExceeded
        | some ctx =>
          match s.allocBuffers (s.progRequester job p.homeTile) p.homeTile p.buffers.zipIdx with
          | (some st, _, s') => denied s' st
          | (none, setts, s') =>
            let s := (s'.newGen ctx).useCtx ctx Use.program
            finished (s.setProg ctx { p with setts := setts }) (packValues [(4, s.opId ctx)])

/-- ENG.UNLOAD. -/
def State.engUnload (s : State) (opId : Nat) : CmdEnd × State :=
  match s.progFor opId with
  | none => denied s Status.contextStale
  | some (c, p) => if p.run.isSome then denied s Status.programBusy else finished (s.unload c)

/-- ENG.RUN: the command ends with its run. -/
def State.engRun (s : State) (opId : Nat) : CmdEnd × State :=
  match s.progFor opId with
  | none => denied s Status.contextStale
  | some (c, p) =>
    if s.stozilJob p.job then denied s Status.stozilMixed
    else
      match s.startRun c none with
      | (.inl c, s') => (.wait (.run c), s')
      | (.inr st, s') => denied s' st

/-- ENG.ABORT. -/
def State.engAbort (s : State) (opId : Nat) : CmdEnd × State :=
  match s.progFor opId with
  | none => denied s Status.contextStale
  | some (c, p) => if p.run.isNone then denied s Status.alreadyComplete else finished ((s.loseOutputs p).endRun c Status.aborted)

/-- ENG.KERNEL: the image has no header, so it is as long as its reference says. -/
def State.engKernel (s : State) (c : Instr) (h : CmdHdr) (id : Nat) (image table : Ref) : CmdEnd × State :=
  match s.readRef c h image image.len, s.readRef c h table table.len with
  | none, _ => denied (s.refReport image image.len 1) (s.refStatus image image.len)
  | _, none => denied (s.refReport table table.len 1) (s.refStatus table table.len)
  | some b, some t =>
    if b.length % 8 ≠ 0 ∨ 4096 < b.length then denied s Status.programInvalid 1
    else if (Config.streamBases t).any fun a => a % grain != 0 then denied s Status.programInvalid 6
    else finished (s.setEng fun e => { e with kernels := e.kernels.set id { image := b, table := t } })

/-- ENG.TEST: the engine's test comes next in its tile, out of turn, at a boundary (R212); the command ends with the test. A
retired engine is not in service and is not tested. -/
def State.engTest (s : State) (e : Nat) : CmdEnd × State :=
  let k := engineKey e
  match (s.engine k).state with
  | 4 => finished s
  | 2 => (.wait (.engine k), s)
  | _ => (.wait (.engine k), if s.eng.testAsked.contains k then s else s.setEng fun x => { x with testAsked := x.testAsked ++ [k] })

/-! ## Collectives (R221–R246) -/

/-- A command that may have a group's set-up to wait for (R123). -/
def State.groupWait (s : State) (id : Nat) (result : List Byte) (ctx : Nat) : CmdEnd × State :=
  match s.group? s.me id with
  | some g => if g.unacked.isEmpty then finished s result else (.wait (.group s.me id) result (some ctx), s)
  | none => finished s result

/-- Bytes of a descriptor image, by its header. -/
def collLength (b : List Byte) : Nat := 64 + roundUp (2 * getLE b 6 2) 64 + 16 * getLE b 22 2

/-- COLL.OPEN. -/
def State.collOpenCmd (s : State) (c : Instr) (h : CmdHdr) (job firstGen ctx : Nat) (r : Ref) : CmdEnd × State :=
  if s.stozilJob job then denied s Status.stozilMixed
  else
    match s.readImage c h r 64 collLength with
    | .inl x => denied x.2 x.1
    | .inr b =>
      match s.collOpen job firstGen ctx b with
      | ((0, _), s') =>
        let d := parseColl b
        let result := packValues [(4, ctx + 1048576 * firstGen)]
        if d.root == s.me && d.hasGroup then s'.groupWait d.group result ctx else finished s' result
      | ((st, detail), s') => denied s' st detail

/-- COLL.BARRIER. -/
def State.collBarrierCmd (s : State) (c : Instr) (h : CmdHdr) (job group ctx members : Nat) (r : Ref) : CmdEnd × State :=
  match s.readImage c h r (2 * members) fun _ => 2 * members with
  | .inl x => denied x.2 x.1
  | .inr b =>
    match s.barrierOpen job group ctx members b with
    | (0, s') => s'.groupWait group [] ctx
    | (st, s') => denied s' st

/-! ## Training state (R249–R272) -/

/-- A command on a block, in the states that a test allows; the test is given the state and mb_started. -/
def State.onBlock (s : State) (job id : Nat) (ok : Nat → Nat → Bool) (f : Nat → BlockSt → CmdEnd × State) :
    CmdEnd × State :=
  match s.blockOf job id with
  | none => denied s Status.blockUnknown
  | some (ctx, b) => if ok (s.stateOf ctx b).1 (s.stateOf ctx b).2 then f ctx b else denied s Status.blockState

/-- Bytes of a declaration record, by its header. -/
def declLength (b : List Byte) : Nat := 64 + roundUp (2 * getLE b 42 2) 64

/-- The job that an image names: on the fabric it must be the frame's, and the function must be enabled for it. -/
def State.imageJob (s : State) (h : CmdHdr) (job : Nat) : Option Nat :=
  match h.path with
  | .fabric j _ _ _ _ => if j = job then (if s.disabled 1 job then some Status.functionDisabled else none)
                         else some Status.notPermitted
  | _ => if (s.host.jobs.get? job).isNone then some Status.jobUnknown
         else if s.disabled 1 job then some Status.functionDisabled else none

/-- The end of a command with a status; PROGRAM_INVALID carries a reason of Table 9.4 (DESIGN CHOICE, log entry 49). -/
def programEnd (reason : Nat) (x : Nat × State) : CmdEnd × State :=
  (.done x.1 (if x.1 = Status.programInvalid then reason else 0), x.2)

/-- PARAM.DECLARE. -/
def State.paramDeclare (s : State) (c : Instr) (h : CmdHdr) (r : Ref) : CmdEnd × State :=
  match s.readImage c h r 64 declLength with
  | .inl x => denied x.2 x.1
  | .inr b =>
    let x := parseBlock b
    match s.imageJob h x.job with
    | some st => denied s st
    | none =>
      if s.stozilJob x.job then denied s Status.stozilMixed
      else
        match s.declare b with
        | (.inl st, s') => programEnd 6 (st, s')
        | (.inr ctx, s') =>
          let base := ((s'.parm.blocks.get? ctx).map BlockSt.base).getD 0
          let result := packValues [(8, base)]
          if x.kind = 3 then finished s' result else s'.groupWait x.group result ctx

/-- States in which a region is loaded, or a version is published by command: DECLARED, and ACCUMULATING with
mb_started 0. -/
def notBegun (st started : Nat) : Bool := st == 1 || (st == 2 && started == 0)

/-- PARAM.INIT. -/
def State.paramInit (s : State) (c : Instr) (h : CmdHdr) (id job region zeroFill : Nat) (r : Ref) : CmdEnd × State :=
  s.onBlock job id notBegun fun _ b =>
    if !b.hasRegion region then denied s Status.descInvalid
    else
      let n := b.codeBytes region
      if zeroFill = 1 then finished (s.fillRegion b region (zeros n))
      else if r.len < n then denied s Status.descInvalid
      else
        match s.readRef c h r n with
        | none => denied (s.refReport r n 1) (s.refStatus r n)
        | some bytes => finished (s.fillRegion b region bytes)

/-- PARAM.READ. -/
def State.paramRead (s : State) (id job region : Nat) (r : Ref) : CmdEnd × State :=
  s.onBlock job id (fun st _ => st == 1 || st == 2 || st == 6) fun _ b =>
    if b.hasRegion region then reports s r (s.regionBytes b region) else denied s Status.descInvalid

/-- PARAM.OPTIMIZER. -/
def State.paramOptimizer (s : State) (c : Instr) (h : CmdHdr) (r : Ref) : CmdEnd × State :=
  match s.readImage c h r 64 fun b => 288 + 16 * getLE b 6 1 with
  | .inl x => denied x.2 x.1
  | .inr b =>
    match s.imageJob h (getLE b 4 2 % 4096) with
    | some st => denied s st
    | none => programEnd 1 (s.loadOptimizer b)

/-- PARAM.PUBLISH: it ends with the production. -/
def State.paramPublish (s : State) (id job : Nat) : CmdEnd × State :=
  match s.publish job id with
  | (some st, s') => denied s' st
  | (none, s') => (.wait (.block job id), s')

/-- PARAM.UPDATE: a failed block is CLOSED again. -/
def State.paramUpdate (s : State) (id job : Nat) : CmdEnd × State :=
  s.onBlock job id (fun st _ => st == 6) fun ctx _ =>
    let c := s.leader ctx
    finished ((s.blockState c 3).reviewBlock c)

/-- PARAM.DISCARD. -/
def State.paramDiscard (s : State) (id job : Nat) : CmdEnd × State :=
  s.onBlock job id (fun st _ => st == 6) fun ctx _ =>
    finished (s.discardStep (s.leader ctx) Status.ok)

/-- PARAM.EVICT: every hold on the oldest kept version (log entry 25). -/
def State.paramEvict (s : State) (id job : Nat) : CmdEnd × State :=
  s.onBlock job id (fun _ _ => true) fun ctx _ =>
    let c := s.leader ctx
    match s.parm.blocks.get? c with
    | some b => finished (s.dropHolds c b.allSubs (some b.oldest))
    | none => finished s

/-- PARAM.SPOIL. -/
def State.paramSpoil (s : State) (c : Instr) (h : CmdHdr) (id job : Nat) (r : Ref) : CmdEnd × State :=
  s.onBlock job id (fun _ _ => true) fun _ b =>
    if b.kind = 3 ∨ r.len < b.maskBytes then denied s Status.descInvalid
    else
      match s.readRef c h r b.maskBytes with
      | none => denied (s.refReport r b.maskBytes 1) (s.refStatus r b.maskBytes)
      | some m => finished (s.writeMem (b.regionAddr 10) m)

/-- PARAM.HYPER: of one block, or of every block of the job. -/
def State.paramHyper (s : State) (id job : Nat) (x : F32) : CmdEnd × State :=
  if id = 0 then
    finished ((s.parm.blocks.filter fun kv => kv.2.job == job).foldl (fun s kv =>
      s.setBlock kv.1 fun b => { b with multiplier := x }) s)
  else s.onBlock job id (fun _ _ => true) fun ctx _ => finished (s.setBlock ctx fun b => { b with multiplier := x })

/-- PARAM.STATUS. -/
def State.paramStatus (s : State) (id job : Nat) (out : Ref) : CmdEnd × State :=
  s.onBlock job id (fun _ _ => true) fun ctx b => reports s out (s.blockRecord ctx b)

/-- PARAM.RETIRE. -/
def State.paramRetire (s : State) (id job : Nat) : CmdEnd × State :=
  s.onBlock job id (fun st n => notBegun st n || st == 6) fun ctx _ => finished (s.removeBlock ctx)

/-! ## Stash (R274–R296) -/

/-- STASH.RESERVE. -/
def State.stashReserveCmd (s : State) (job log2 maxEntries reserved limit : Nat) : CmdEnd × State :=
  if s.stozilJob job then denied s Status.stozilMixed
  else
    match s.stashReserve job log2 maxEntries reserved limit with
    | .inl st => denied s st
    | .inr (opId, s') => finished s' (packValues [(4, opId)])

/-- A command on a reservation. -/
def State.onStash (s : State) (job : Nat) (f : StashRes → CmdEnd × State) : CmdEnd × State :=
  match s.stash.res.get? job with
  | none => denied s Status.stashNotReserved
  | some r => f r

/-- STASH.RELEASE: it ends when no entry remains. -/
def State.stashReleaseCmd (s : State) (job : Nat) : CmdEnd × State :=
  s.onStash job fun _ =>
    let s := s.stashRelease job
    if s.stashDone job then finished (s.dropRes job) else (.wait (.stash job), s)

/-- STASH.ENTRY. -/
def State.stashEntryCmd (s : State) (job rank tag : Nat) (out : Ref) : CmdEnd × State :=
  s.onStash job fun r =>
    match s.stashEnt job rank tag with
    | none => denied s Status.stashNoEntry
    | some e => reports s out (s.entryRecord e r.extentLog2)

/-! ## Every command's own rule -/

/-- The own rule of a command (check 8 of Table 13.5) and its effect. -/
def State.runCmd (s : State) (c : Instr) (h : CmdHdr) : CmdEnd × State :=
  match c with
  | .mboxBind _ m prio ev qp dq ring => s.mboxBind h m prio ev qp dq ring
  | .mboxUnbind _ m => s.mboxUnbind m
  | .mboxCancel _ m n => s.mboxCancel m n
  | .mboxStatus _ m => s.mboxStatus m
  | .hostPortConfig _ p fl pfc vlan v4 v6 => s.hostPortConfig p fl pfc vlan v4 v6
  | .hostQpOpen _ p dscp mtu qpn psn mac gid => s.hostQpOpen p dscp mtu qpn psn mac gid
  | .hostQpClose _ q => s.hostQpClose q
  | .jobAdmit _ r => s.jobAdmit c h r
  | .jobEnd _ j => s.jobEnd j
  | .jobStatus _ j r => s.jobStatus j r
  | .funcDisable _ f j n => s.funcDisable f j n
  | .funcEnable _ f j => s.funcEnable f j
  | .funcStatus _ f j => s.funcStatus f j
  | .regRead _ a w r => s.readRegs a w r
  | .tickCountRead _ => s.readRegs (regAddr .tickCount) 2 {}
  | .poolLowWaterRead _ k => s.readRegs (regAddr .poolLowWater k) 1 {}
  | .setupCarve _ p r g z => s.setupCarve p r g z
  | .resetModule _ => s.resetModule
  | .resetDataPlane _ => s.resetDataPlane
  | .resetTile _ k => s.resetTile k
  | .resetPort _ p => s.resetPort p
  | .tickRejoin _ => finished s.rejoin
  | .linkEnable _ p => finished (s.enablePort p)
  | .linkDisable _ p => finished (s.disablePort p)
  | .linkHedge _ scope p j n e => s.linkHedge scope p j n e
  | .linkLift _ scope p j n e => s.linkLift scope p j n e
  | .laneRetire _ n => s.laneRetire n
  | .laneRestore _ n => finished (s.restoreLane n)
  | .laneTest _ n after ticks r => s.laneTest n after ticks r
  | .laneLsmRelease _ j => s.laneLsmRelease j
  | .topoLoad _ r => s.topoLoad c h r
  | .topoReadmit _ n => s.topoReadmit n
  | .routeReseed _ x => s.routeReseed x
  | .schedReserve _ p r => s.schedReserve p r
  | .poolSetup _ p1 p2 p3 modes n base => s.poolSetup p1 p2 p3 modes n base
  | .poolQuota _ r k mn mx => s.poolQuota r k mn mx
  | .poolBind _ r j => s.poolBind r j
  | .poolAlloc _ r t sp n => s.poolAlloc r t sp n
  | .poolFree _ r a => ended (s.free managementMaster r a)
  | .poolGive _ r to_ a => ended (s.give managementMaster r to_ a)
  | .poolRef _ n a => s.poolRef n a
  | .poolStatus _ k r out => s.poolStatus k r out
  | .engLoad _ j r => s.engLoad c h j r
  | .engUnload _ o => s.engUnload o
  | .engRun _ o => s.engRun o
  | .engAbort _ o => s.engAbort o
  | .engKernel _ k r t => s.engKernel c h k r t
  | .engRetire _ e => finished (s.retireEngine (engineKey e))
  | .engRestore _ e => finished (s.restoreEngine (engineKey e))
  | .engTest _ e => s.engTest e
  | .collOpen _ j g n r => s.collOpenCmd c h j g n r
  | .collClose _ n => ended (s.collClose n)
  | .collAbort _ o => ended (s.abortInstance o Status.aborted)
  | .collStatus _ n r => reports s r (s.collRecord n)
  | .collBarrier _ j g n m r => s.collBarrierCmd c h j g n m r
  | .paramDeclare _ r => s.paramDeclare c h r
  | .paramInit _ b j k z r => s.paramInit c h b j k z r
  | .paramRead _ b j k r => s.paramRead b j k r
  | .paramOptimizer _ r => s.paramOptimizer c h r
  | .paramProgram _ b j k o => programEnd 10 (s.bindProgram j b k o)
  | .paramPublish _ b j => s.paramPublish b j
  | .paramClose _ b j => ended (s.closeStep j b)
  | .paramUpdate _ b j => s.paramUpdate b j
  | .paramDiscard _ b j => s.paramDiscard b j
  | .paramEvict _ b j => s.paramEvict b j
  | .paramSpoil _ b j r => s.paramSpoil c h b j r
  | .paramHyper _ b j x => s.paramHyper b j x
  | .paramStatus _ b j r => s.paramStatus b j r
  | .paramRetire _ b j => s.paramRetire b j
  | .stashReserve _ j l n r m => s.stashReserveCmd j l n r m
  | .stashRelease _ j => s.stashReleaseCmd j
  | .stashPurge _ j r t m => s.onStash j fun _ => finished (s.purge j r t m)
  | .stashStatus _ j r => s.onStash j fun x => reports s.stamped r (s.stashRecord j x)
  | .stashEntry _ j r t out => s.stashEntryCmd j r t out
  | .pwrPhase _ p m => finished (s.setPhase p m)
  | .pwrCap _ w => s.setCap w
  | .fltSeverity _ c l => s.setSeverity c l
  | .fltInject _ c => s.hostInject c
  | .fltClear _ m => finished (s.clearFaults m)
  | .mgtImageWrite _ k off r bytes => s.mgtImageWrite c h k off r bytes
  | .mgtImageActivate _ k => ended (s.imageActivate h.path k)
  | .mgtAttest _ n r => s.mgtAttest n r
  | .mgtLogRead _ first n r => s.mgtLogRead first n r
  | _ =>
    match s.regWriteOf c with
    | some (a, v) => s.writeReg a v
    | none => finished s

end Sys2Proof.Machine
end

