-- ==== Sys2Proof/Machine/Commands.lean ====
section
/-! DEFINITION. How commands run: contexts, dispatch, checks, holds, serialisation and completion (R305, R311–R316), and how
a step settles: what its effects set off in turn, until nothing more follows. -/

namespace Sys2Proof.Machine

open Sys2Proof (Instr CmdHdr Ref Path)

/-! ## Contexts -/

/-- The device takes commands: from STANDBY, and not in headless mode (R337, R411). -/
def State.answering (s : State) : Bool := decide (2 ≤ s.boot.phase) && !s.flt.headless

/-- One context changed. -/
def State.setCtx (s : State) (id : Nat) (f : Ctx → Ctx) : State :=
  s.setHost fun h => { h with ctxs := h.ctxs.map fun x => if x.id = id then f x else x }

/-- A command enters a context. -/
def State.addCtx (s : State) (c : Instr) (h : CmdHdr) (code bad : Nat) : State :=
  s.setHost fun t => { t with
    ctxs := t.ctxs ++ [({ id := t.nextId, cmd := c, hdr := h, code := code, bad := bad } : Ctx)], nextId := t.nextId + 1 }

/-- A command that still runs keeps an object that `x` names, and started before it (R313). -/
def State.blocked (s : State) (x : Ctx) : Bool :=
  s.host.ctxs.any fun y => decide (y.id < x.id) && y.state != .waiting && y.keeps.any (objects x.cmd).contains

/-! ## Running -/

/-- The command's own rule is judged and its effect taken; then it completes or waits. Output is written after the effect, and
a failed write gives REF_FAILED in place of OK (R317). A job that has ended meanwhile is no longer known (R322). -/
def State.perform (s : State) (x : Ctx) : State :=
  if (match jobNamed x.cmd with
      | some j => (s.host.jobs.get? j).isNone
      | none => false) then s.complete x Status.jobUnknown
  else
    match s.runCmd x.cmd x.hdr with
    | (.done st detail result none, s') => s'.complete x st detail result
    | (.done st detail result (some (r, bytes)), s') =>
      match s'.writeRef x.cmd x.hdr r bytes with
      | (true, s'') => s''.complete x st detail result
      | (false, s'') => s''.complete x (s'.refStatus r bytes.length)
    | (.wait k result made, s') =>
      s'.setCtx x.id fun y => { y with state := .started k, result := result, made := made }

/-- Commands that take effect at a tick boundary (R39; R126, R142, R158, R266, R354, R367, R373). -/
def State.atBoundary (s : State) (c : Instr) : Bool :=
  match c with
  | .linkHedge .. | .linkLift .. | .schedReserve .. | .poolQuota .. | .paramSpoil .. | .pwrPhase .. | .pwrCap ..
  | .fltSeverity .. => true
  | c =>
    match (s.regWriteOf c).bind fun x => regAt x.1 with
    | some (r, _) => r.atBoundary
    | none => false

/-- A command is judged by its own rule and, where that refuses it, completes; else it is held. -/
def State.hold (s : State) (x : Ctx) (k : WaitKey) : State :=
  match s.runCmd x.cmd x.hdr with
  | (.done 0 _ _ _, _) => s.setCtx x.id fun y => { y with state := .started k }
  | (.done st detail result _, s') => s'.complete x st detail result
  | (.wait _ _ _, _) => s.setCtx x.id fun y => { y with state := .started k }

/-- A started command runs once no earlier one keeps an object of it: at once, or at the next boundary while the tick runs.
`fired`: its effective tick has come. -/
def State.ready (s : State) (x : Ctx) (fired : Bool) : State :=
  if s.blocked x then s.setCtx x.id fun y => { y with state := .started (.object fired) }
  else if !fired && s.ticking && s.atBoundary x.cmd then s.hold x (.boundary x.hdr.late)
  else s.perform x

/-- A command starts: the checks of Table 13.5 in order; an effective tick holds it (R313). -/
def State.start (s : State) (x : Ctx) : State :=
  let s := s.setCtx x.id fun y => { y with state := .started (.object false) }
  match s.checks x with
  | some st => s.complete x st
  | none => if x.hdr.effTick ≠ 0 then s.hold x (.tick x.hdr.effTick) else s.ready x false

/-! ## Dispatch (R311) -/

/-- Commands executing: those held for an effective tick are not counted. -/
def State.executing (s : State) : Nat :=
  (s.host.ctxs.filter fun x => match x.state with
    | .waiting => false
    | .started (.tick _) => false
    | .started _ => true).length

/-- The first waiting command of a path. -/
def State.firstWaiting (s : State) (p : Path → Bool) : Option Ctx := s.host.ctxs.find? fun x => x.state == .waiting && p x.hdr.path

/-- A path of commands from hosts: a mailbox or the sideband. -/
def hostPath : Path → Bool
  | .fabric _ _ _ _ _ => false
  | _ => true

/-- A command's fences are clear (Table 13.3). -/
def State.fencesClear (s : State) (x : Ctx) : Bool :=
  let earlier := s.host.ctxs.filter fun y => y.state != .waiting
  (!x.hdr.fence || !earlier.any fun y => y.hdr.path == x.hdr.path) &&
  (!x.hdr.devFence || !earlier.any fun y => hostPath y.hdr.path)

/-- A mailbox's place in the dispatcher's order: priority 3 first, rotating among equals. -/
def State.dispatchKey (s : State) (m : Nat) (x : Ctx) : Nat :=
  (3 - (if x.aged then 3 else (s.mbox m).priority)) * 64 + (m + 64 - s.host.rotate) % 64

/-- The mailboxes that have a waiting command. -/
def State.waitingBoxes (s : State) : List Nat :=
  (s.host.ctxs.filterMap fun x => match x.state, x.hdr.path with
    | .waiting, .mailbox m => some m
    | _, _ => none).dedup

/-- The next command to start: the sideband's, then a mailbox's, then one from the fabric. -/
def State.nextStart (s : State) : Option Ctx :=
  if 64 ≤ s.executing then none
  else
    let ok := fun (x : Ctx) => if s.fencesClear x then some x else none
    let side := (s.firstWaiting fun p => p == .sideband).bind ok
    let boxes := s.waitingBoxes.filterMap fun m =>
      ((s.firstWaiting fun p => p == .mailbox m).bind ok).map fun x => (s.dispatchKey m x, x)
    let best := boxes.foldl (fun (b : Option (Nat × Ctx)) x => match b with
      | some y => if x.1 < y.1 then some x else b
      | none => some x) none
    let fabric := s.firstWaiting fun p => !hostPath p
    side <|> (best.map Prod.snd) <|> fabric

/-- A command is dispatched; the rotation goes on behind its mailbox. Contexts are numbered in the order in which they
start. -/
def State.dispatchOne (s : State) (x : Ctx) : State :=
  let s := match x.hdr.path with
    | .mailbox m => s.setHost fun h => { h with rotate := (m + 1) % 64 }
    | _ => s
  let n := s.host.nextId
  let s := s.setHost fun h => { h with
    nextId := n + 1, ctxs := h.ctxs.map fun y => if y.id = x.id then { y with id := n } else y }
  s.start { x with id := n }

/-- Commands are started while there is one to start; at most `n`. -/
def State.pump (s : State) : Nat → State
  | 0 => s
  | n + 1 =>
    match s.nextStart with
    | some x => State.pump (s.dispatchOne x) n
    | none => s

/-! ## What a waiting command has come to -/

/-- The status, or the values, with which a waiting command completes now; none while it waits on. -/
def State.woken (s : State) (k : WaitKey) (result : List Byte) : Option (Nat × List Byte) :=
  let ok := some (Status.ok, result)
  match k with
  | .dpReset => if s.boot.kept.isNone && decide (5 ≤ s.boot.phase) && decide (s.boot.phase ≤ 9) then ok else none
  | .tile t => if s.eng.inReset.contains t then none else ok
  | .lsm j => if (s.lsm j).draining.isNone then ok else none
  | .inject => if s.flt.injection.isNone then ok else none
  | .job j => if s.host.ending.contains j then none else ok
  | .func f j =>
    match s.disableOf f j with
    | some d => if d.done then some (Status.ok, packValues [(4, d.finished), (4, d.drained)]) else none
    | none => some (Status.ok, packValues [(4, 0), (4, 0)])
  | .stash j => if (s.stash.res.get? j).isNone then ok else none
  | .group home id =>
    match s.group? home id with
    | some g => if g.unacked.isEmpty then ok else none
    | none => some (Status.capacityExceeded, [])
  | .engine k => if (s.engine k).state = 2 || (s.engine k).forTest || s.eng.testAsked.contains k then none else ok
  | .lost st => if s.boot.kept.isNone then some (st, []) else none
  | .lane n => if (s.lane n).test.isNone then ok else none
  | _ => none

/-- A function's disable of a job that has ended goes with its completion (R322). -/
def State.forget (s : State) (k : WaitKey) : State :=
  match k with
  | .func f j => if j ≠ 65535 ∧ (s.host.jobs.get? j).isNone then s.enable f j else s
  | _ => s

/-- One waiting command looks again. -/
def State.wake (s : State) (x : Ctx) : State :=
  match x.state with
  | .started (.object fired) => if s.blocked x then s else s.ready x fired
  | .started k =>
    match s.woken k x.result with
    | some (st, result) => (s.complete x st 0 result).forget k
    | none => s
  | .waiting => s

/-- Every waiting command looks again, in the order in which they started. -/
def State.wakeAll (s : State) : State :=
  s.host.ctxs.foldl (fun (s : State) x =>
    match s.host.ctxs.find? fun y => y.id == x.id with
    | some y => s.wake y
    | none => s) s

/-- Commands that wait for a key complete with a status and, behind the values they already hold, with values. -/
def State.finishKey (s : State) (k : WaitKey) (status : Nat) (values : List Byte := []) : State :=
  (s.host.ctxs.filter fun x => x.state == .started k).foldl (fun s x => s.complete x status 0 (x.result ++ values)) s

/-- A run has ended: its command completes with the run's exception record, as far as the result area holds it (R217; DESIGN
CHOICE, log entry 76), and a block's stage ends with it. -/
def State.runOver (s : State) (ctx status : Nat) : State :=
  (s.finishKey (.run ctx) status (((s.prog? ctx).map ProgSt.lastExc).getD {}).bytes).blockRunEnded ctx status

/-! ## Settling -/

/-- A GROUP_SETUP frame's outcome: an acknowledgement counts; a refusal or a lost module undoes the group, and the command
that waits for it fails with CAPACITY_EXCEEDED or MEMBER_LOST (R123). -/
def State.groupNote (s : State) (home id node : Nat) (n : Note) : State :=
  match s.group? home id with
  | none => s
  | some g =>
    match n with
    | .acked | .absorbed => s.setGroup { g with unacked := g.unacked.filter (· != node) }
    | _ =>
      match s.host.ctxs.find? fun x => x.state == .started (.group home id) with
      | some x =>
        let s := match x.made with
          | some c => if (s.parm.blocks.get? c).isSome then s.removeBlock c else s.removeColl c
          | none => s
        s.complete x (match n with
          | .lost _ => Status.memberLost
          | _ => Status.capacityExceeded)
      | none => s

/-- The operation that owns a frame is told what it has come to (R100). An output of a run that is refused or whose
destination is lost ends its run (DEDUCED, log entry 46). -/
def State.tell (s : State) (o : Owner) (n : Note) : State :=
  match o with
  | .none => s
  | .coll ctx gen chunk => s.collNote ctx gen chunk n
  | .merge ctx gen chunk => s.mergeNote ctx gen chunk n
  | .group home id node => s.groupNote home id node n
  | .push ctx v => s.pushNote ctx v n
  | .stash id _ reply => s.stashNote id reply n
  | .run ctx =>
    match n with
    | .acked | .absorbed => s.outputSettled ctx
    | .refused st => s.endRun ctx st
    | .lost _ => s.endRun ctx Status.memberLost
    | .memberRefused _ _ _ _ => s
  | .stozil op chunk rank => s.stzNote op chunk rank n
  | .stozilEnd op _ => s.stzEndNote op

/-- The open operations are told of lost nodes (R117). -/
def State.tellLost (s : State) (n : Nat) : State :=
  ((((s.collLost n).dropSubs fun a => a.1 == n).pruneWaiting).stashLost n).stzLost n

/-- Frames' outcomes, lost nodes, ended runs, finished chunks, ended instances and ended publications are passed on. -/
def State.passNotes (s : State) : State :=
  let notes := s.flow.notes
  let s := { s with flow := { s.flow with notes := [] } }
  let s := notes.foldl (fun s x => s.tell x.1 x.2) s
  let lost := s.topo.lostDue
  let s := lost.foldl State.tellLost (s.setTopo fun t => { t with lostDue := [] })
  let runs := s.eng.ended
  let s := runs.foldl (fun (s : State) x => s.runOver x.1 x.2)
    (s.setEng fun e => { e with ended := [] })
  let chunks := s.coll.finished
  let s := chunks.foldl State.handChunk (s.setColl fun c => { c with finished := [] })
  let done := s.coll.ended
  let s := done.foldl (fun (s : State) x => s.instanceEnded x.1 x.2) (s.setColl fun c => { c with ended := [] })
  let told := s.parm.told
  told.foldl (fun (s : State) x => s.finishKey (.block x.1 x.2.1) x.2.2) (s.setParm fun p => { p with told := [] })

/-- Reservations whose release is over go (R292). -/
def State.dropReleased (s : State) : State :=
  (s.stash.res.keys.filter s.stashDone).foldl State.dropRes s

/-- LINKING ends when the tick keeper is in SYNCED, SLEWING or ROOT (R327). -/
def State.serviceCheck (s : State) : State := if s.boot.phase = Phase.linking && s.live then s.enter Phase.service else s

/-- One round. -/
def State.settleRound (s : State) : State :=
  let s := (s.reactAll 64).passNotes
  let s := (s.reviewBlocks.dropReleased.fenceCheck).serviceCheck
  (s.wakeAll).pump 64

/-- Nothing is left for a further round. -/
def State.quiet (s : State) : Bool :=
  s.flt.todo.isEmpty && s.flow.notes.isEmpty && s.topo.lostDue.isEmpty && s.eng.ended.isEmpty && s.coll.finished.isEmpty &&
  s.coll.ended.isEmpty && s.parm.told.isEmpty &&
  (s.host.ctxs.all fun x => match x.state with
    | .waiting => true
    | .started (.object _) => s.blocked x
    | .started k => (s.woken k x.result).isNone) && s.nextStart.isNone

/-- Rounds until nothing is left, at most `n`. -/
def State.rounds_ (s : State) : Nat → State
  | 0 => s
  | n + 1 => let s := s.settleRound; if s.quiet then s else State.rounds_ s n

/-- Nothing in the state could need settling. -/
def State.calm (s : State) : Bool :=
  s.flt.todo.isEmpty && s.flow.notes.isEmpty && s.topo.lostDue.isEmpty && s.eng.ended.isEmpty && s.coll.finished.isEmpty &&
  s.coll.ended.isEmpty && s.parm.told.isEmpty && s.host.ctxs.isEmpty && s.flow.fences.isEmpty && s.parm.blocks.isEmpty &&
  s.stash.res.isEmpty && s.boot.phase != Phase.linking

/-- What a step's effects set off in turn. -/
def State.settle (s : State) : State := if s.calm then s else s.rounds_ 256

/-! ## Sending a command -/

/-- A command arrives in a context. With no other command in the device it starts at once; else it waits for dispatch. -/
def State.arrive (s : State) (c : Instr) (h : CmdHdr) (code bad : Nat) : State :=
  let idle := s.host.ctxs.isEmpty
  let s' := s.addCtx c h code bad
  if idle then s'.start { id := s.host.nextId, cmd := c, hdr := h, code := code, bad := bad } else s'

/-- The sideband holds one command; a slot written while it is busy is ignored and remembered (R315). -/
def State.sideTake (s : State) : State :=
  s.setHost fun t => { t with side := { t.side with busy := true, ready := false, count := t.side.count + 1 } }

/-- A host's command, already in a context of its path. -/
def State.submit (s : State) (h : CmdHdr) (c : Instr) : State :=
  if !s.answering then s
  else
    match h.path with
    | .mailbox m => if 64 ≤ m then s else (s.arrive c h (codeOf c) 0).settle
    | .sideband =>
      if s.host.side.busy then s.setHost fun t => { t with side := { t.side with refused := true } }
      else (s.sideTake.arrive c h (codeOf c) 0).settle
    | .fabric _ _ _ _ _ => (s.arrive c h (codeOf c) 0).settle

/-- What a command's row answers. -/
def State.command (s : State) (h : CmdHdr) (c : Instr) : Host.Outcome State Fault Refusal := .next (s.submit h c)

end Sys2Proof.Machine
end

