-- ==== Sys2Proof/Machine/HostRows.lean ====
section
/-! DEFINITION. The rows of the table of operations and events that are commands of a host (Tables 13.6 and 13.7): each enters
a context of its path and runs by its own rule. -/

namespace Sys2Proof.Machine

open Sys2Proof (Instr CmdHdr Ref Path)

/-- SETUP_CARVE (R331): the command enters a context and runs by its own rule, `State.runCmd`. -/
def execSetupCarve (h : CmdHdr) (packet reduction staging stozil : Nat) (s : State) :
    Host.Outcome State Fault Refusal :=
  s.command h (.setupCarve h packet reduction staging stozil)

/-- RESET_MODULE (R338): the command enters a context and runs by its own rule, `State.runCmd`. -/
def execResetModule (h : CmdHdr) (s : State) : Host.Outcome State Fault Refusal := s.command h (.resetModule h)

/-- RESET_DATA_PLANE (R339): the command enters a context and runs by its own rule, `State.runCmd`. -/
def execResetDataPlane (h : CmdHdr) (s : State) : Host.Outcome State Fault Refusal := s.command h (.resetDataPlane h)

/-- RESET_TILE (R340): the command enters a context and runs by its own rule, `State.runCmd`. -/
def execResetTile (h : CmdHdr) (tile : Nat) (s : State) : Host.Outcome State Fault Refusal := s.command h (.resetTile h tile)

/-- RESET_PORT (R341): the command enters a context and runs by its own rule, `State.runCmd`. -/
def execResetPort (h : CmdHdr) (port : Nat) (s : State) : Host.Outcome State Fault Refusal := s.command h (.resetPort h port)

/-- TICK_REJOIN (R50): the command enters a context and runs by its own rule, `State.runCmd`. -/
def execTickRejoin (h : CmdHdr) (s : State) : Host.Outcome State Fault Refusal := s.command h (.tickRejoin h)

/-- LINK_ENABLE (R63): the command enters a context and runs by its own rule, `State.runCmd`. -/
def execLinkEnable (h : CmdHdr) (port : Nat) (s : State) :
    Host.Outcome State Fault Refusal :=
  s.command h (.linkEnable h port)

/-- LINK_DISABLE (R63): the command enters a context and runs by its own rule, `State.runCmd`. -/
def execLinkDisable (h : CmdHdr) (port : Nat) (s : State) :
    Host.Outcome State Fault Refusal :=
  s.command h (.linkDisable h port)

/-- LINK_HEDGE (R126): the command enters a context and runs by its own rule, `State.runCmd`. -/
def execLinkHedge (h : CmdHdr) (scope port job node ep : Nat) (s : State) :
    Host.Outcome State Fault Refusal :=
  s.command h (.linkHedge h scope port job node ep)

/-- LINK_LIFT (R126): the command enters a context and runs by its own rule, `State.runCmd`. -/
def execLinkLift (h : CmdHdr) (scope port job node ep : Nat) (s : State) :
    Host.Outcome State Fault Refusal :=
  s.command h (.linkLift h scope port job node ep)

/-- LANE_RETIRE (R74): the command enters a context and runs by its own rule, `State.runCmd`. -/
def execLaneRetire (h : CmdHdr) (lane : Nat) (s : State) :
    Host.Outcome State Fault Refusal :=
  s.command h (.laneRetire h lane)

/-- LANE_RESTORE (R74): the command enters a context and runs by its own rule, `State.runCmd`. -/
def execLaneRestore (h : CmdHdr) (lane : Nat) (s : State) :
    Host.Outcome State Fault Refusal :=
  s.command h (.laneRestore h lane)

/-- LANE_TEST (R75): the command enters a context and runs by its own rule, `State.runCmd`. -/
def execLaneTest (h : CmdHdr) (lane retireAfter ticks : Nat) (out : Ref) (s : State) :
    Host.Outcome State Fault Refusal :=
  s.command h (.laneTest h lane retireAfter ticks out)

/-- LANE_LSM_RELEASE (R78): the command enters a context and runs by its own rule, `State.runCmd`. -/
def execLaneLsmRelease (h : CmdHdr) (lsm : Nat) (s : State) :
    Host.Outcome State Fault Refusal :=
  s.command h (.laneLsmRelease h lsm)

/-- TOPO_LOAD (R108): the command enters a context and runs by its own rule, `State.runCmd`. -/
def execTopoLoad (h : CmdHdr) (plan : Ref) (s : State) : Host.Outcome State Fault Refusal := s.command h (.topoLoad h plan)

/-- TOPO_READMIT (R127): the command enters a context and runs by its own rule, `State.runCmd`. -/
def execTopoReadmit (h : CmdHdr) (node : Nat) (s : State) :
    Host.Outcome State Fault Refusal :=
  s.command h (.topoReadmit h node)

/-- ROUTE_RESEED (R128): the command enters a context and runs by its own rule, `State.runCmd`. -/
def execRouteReseed (h : CmdHdr) (seed : Nat) (s : State) :
    Host.Outcome State Fault Refusal :=
  s.command h (.routeReseed h seed)

/-- SCHED_RESERVE (R142): the command enters a context and runs by its own rule, `State.runCmd`. -/
def execSchedReserve (h : CmdHdr) (port reserve : Nat) (s : State) :
    Host.Outcome State Fault Refusal :=
  s.command h (.schedReserve h port reserve)

/-- POOL_SETUP (R154): the command enters a context and runs by its own rule, `State.runCmd`. -/
def execPoolSetup (h : CmdHdr) (p1 p2 p3 modes p4count p4base : Nat) (s : State) :
    Host.Outcome State Fault Refusal :=
  s.command h (.poolSetup h p1 p2 p3 modes p4count p4base)

/-- POOL_QUOTA (R158): the command enters a context and runs by its own rule, `State.runCmd`. -/
def execPoolQuota (h : CmdHdr) (requester pool minSetts maxSetts : Nat) (s : State) :
    Host.Outcome State Fault Refusal :=
  s.command h (.poolQuota h requester pool minSetts maxSetts)

/-- POOL_BIND (R167): the command enters a context and runs by its own rule, `State.runCmd`. -/
def execPoolBind (h : CmdHdr) (requester job : Nat) (s : State) :
    Host.Outcome State Fault Refusal :=
  s.command h (.poolBind h requester job)

/-- POOL_ALLOC (R155): the command enters a context and runs by its own rule, `State.runCmd`. -/
def execPoolAlloc (h : CmdHdr) (requester tile spill size : Nat) (s : State) :
    Host.Outcome State Fault Refusal :=
  s.command h (.poolAlloc h requester tile spill size)

/-- POOL_FREE (R163): the command enters a context and runs by its own rule, `State.runCmd`. -/
def execPoolFree (h : CmdHdr) (requester addr : Nat) (s : State) :
    Host.Outcome State Fault Refusal :=
  s.command h (.poolFree h requester addr)

/-- POOL_GIVE (R163): the command enters a context and runs by its own rule, `State.runCmd`. -/
def execPoolGive (h : CmdHdr) (requester recipient addr : Nat) (s : State) :
    Host.Outcome State Fault Refusal :=
  s.command h (.poolGive h requester recipient addr)

/-- POOL_REF (R164): the command enters a context and runs by its own rule, `State.runCmd`. -/
def execPoolRef (h : CmdHdr) (n : Int) (addr : Nat) (s : State) :
    Host.Outcome State Fault Refusal :=
  s.command h (.poolRef h n addr)

/-- POOL_STATUS (R168): the command enters a context and runs by its own rule, `State.runCmd`. -/
def execPoolStatus (h : CmdHdr) (pool requester : Nat) (out : Ref) (s : State) :
    Host.Outcome State Fault Refusal :=
  s.command h (.poolStatus h pool requester out)

/-- ENG_LOAD (R205): the command enters a context and runs by its own rule, `State.runCmd`. -/
def execEngLoad (h : CmdHdr) (job : Nat) (image : Ref) (s : State) :
    Host.Outcome State Fault Refusal :=
  s.command h (.engLoad h job image)

/-- ENG_UNLOAD (R218): the command enters a context and runs by its own rule, `State.runCmd`. -/
def execEngUnload (h : CmdHdr) (opId : Nat) (s : State) : Host.Outcome State Fault Refusal := s.command h (.engUnload h opId)

/-- ENG_RUN (R206): the command enters a context and runs by its own rule, `State.runCmd`. -/
def execEngRun (h : CmdHdr) (opId : Nat) (s : State) : Host.Outcome State Fault Refusal := s.command h (.engRun h opId)

/-- ENG_ABORT (R207): the command enters a context and runs by its own rule, `State.runCmd`. -/
def execEngAbort (h : CmdHdr) (opId : Nat) (s : State) : Host.Outcome State Fault Refusal := s.command h (.engAbort h opId)

/-- ENG_KERNEL (R214): the command enters a context and runs by its own rule, `State.runCmd`. -/
def execEngKernel (h : CmdHdr) (kernel : Nat) (image streams : Ref) (s : State) :
    Host.Outcome State Fault Refusal :=
  s.command h (.engKernel h kernel image streams)

/-- ENG_RETIRE (R211): the command enters a context and runs by its own rule, `State.runCmd`. -/
def execEngRetire (h : CmdHdr) (engine : Nat) (s : State) :
    Host.Outcome State Fault Refusal :=
  s.command h (.engRetire h engine)

/-- ENG_RESTORE (R211): the command enters a context and runs by its own rule, `State.runCmd`. -/
def execEngRestore (h : CmdHdr) (engine : Nat) (s : State) :
    Host.Outcome State Fault Refusal :=
  s.command h (.engRestore h engine)

/-- ENG_TEST (R212): the command enters a context and runs by its own rule, `State.runCmd`. -/
def execEngTest (h : CmdHdr) (engine : Nat) (s : State) : Host.Outcome State Fault Refusal := s.command h (.engTest h engine)

/-- COLL_OPEN (R221): the command enters a context and runs by its own rule, `State.runCmd`. -/
def execCollOpen (h : CmdHdr) (job firstGen context : Nat) (image : Ref) (s : State) :
    Host.Outcome State Fault Refusal :=
  s.command h (.collOpen h job firstGen context image)

/-- COLL_CLOSE (R246): the command enters a context and runs by its own rule, `State.runCmd`. -/
def execCollClose (h : CmdHdr) (context : Nat) (s : State) :
    Host.Outcome State Fault Refusal :=
  s.command h (.collClose h context)

/-- COLL_ABORT (R240): the command enters a context and runs by its own rule, `State.runCmd`. -/
def execCollAbort (h : CmdHdr) (opId : Nat) (s : State) : Host.Outcome State Fault Refusal := s.command h (.collAbort h opId)

/-- COLL_STATUS (R246): the command enters a context and runs by its own rule, `State.runCmd`. -/
def execCollStatus (h : CmdHdr) (context : Nat) (out : Ref) (s : State) :
    Host.Outcome State Fault Refusal :=
  s.command h (.collStatus h context out)

/-- COLL_BARRIER (R104): the command enters a context and runs by its own rule, `State.runCmd`. -/
def execCollBarrier (h : CmdHdr) (job group context members : Nat) (table : Ref) (s : State) :
    Host.Outcome State Fault Refusal :=
  s.command h (.collBarrier h job group context members table)

/-- PARAM_DECLARE (R252): the command enters a context and runs by its own rule, `State.runCmd`. -/
def execParamDeclare (h : CmdHdr) (image : Ref) (s : State) :
    Host.Outcome State Fault Refusal :=
  s.command h (.paramDeclare h image)

/-- PARAM_INIT (R272): the command enters a context and runs by its own rule, `State.runCmd`. -/
def execParamInit (h : CmdHdr) (block job region zeroFill : Nat) (data : Ref) (s : State) :
    Host.Outcome State Fault Refusal :=
  s.command h (.paramInit h block job region zeroFill data)

/-- PARAM_READ (R272): the command enters a context and runs by its own rule, `State.runCmd`. -/
def execParamRead (h : CmdHdr) (block job region : Nat) (data : Ref) (s : State) :
    Host.Outcome State Fault Refusal :=
  s.command h (.paramRead h block job region data)

/-- PARAM_OPTIMIZER (R262): the command enters a context and runs by its own rule, `State.runCmd`. -/
def execParamOptimizer (h : CmdHdr) (image : Ref) (s : State) :
    Host.Outcome State Fault Refusal :=
  s.command h (.paramOptimizer h image)

/-- PARAM_PROGRAM (R264): the command enters a context and runs by its own rule, `State.runCmd`. -/
def execParamProgram (h : CmdHdr) (block job slot opId : Nat) (s : State) :
    Host.Outcome State Fault Refusal :=
  s.command h (.paramProgram h block job slot opId)

/-- PARAM_PUBLISH (R267): the command enters a context and runs by its own rule, `State.runCmd`. -/
def execParamPublish (h : CmdHdr) (block job : Nat) (s : State) :
    Host.Outcome State Fault Refusal :=
  s.command h (.paramPublish h block job)

/-- PARAM_CLOSE (R253): the command enters a context and runs by its own rule, `State.runCmd`. -/
def execParamClose (h : CmdHdr) (block job : Nat) (s : State) :
    Host.Outcome State Fault Refusal :=
  s.command h (.paramClose h block job)

/-- PARAM_UPDATE (R253): the command enters a context and runs by its own rule, `State.runCmd`. -/
def execParamUpdate (h : CmdHdr) (block job : Nat) (s : State) :
    Host.Outcome State Fault Refusal :=
  s.command h (.paramUpdate h block job)

/-- PARAM_DISCARD (R253): the command enters a context and runs by its own rule, `State.runCmd`. -/
def execParamDiscard (h : CmdHdr) (block job : Nat) (s : State) :
    Host.Outcome State Fault Refusal :=
  s.command h (.paramDiscard h block job)

/-- PARAM_EVICT (R269): the command enters a context and runs by its own rule, `State.runCmd`. -/
def execParamEvict (h : CmdHdr) (block job : Nat) (s : State) :
    Host.Outcome State Fault Refusal :=
  s.command h (.paramEvict h block job)

/-- PARAM_SPOIL (R266): the command enters a context and runs by its own rule, `State.runCmd`. -/
def execParamSpoil (h : CmdHdr) (block job : Nat) (mask : Ref) (s : State) :
    Host.Outcome State Fault Refusal :=
  s.command h (.paramSpoil h block job mask)

/-- PARAM_HYPER (R263): the command enters a context and runs by its own rule, `State.runCmd`. -/
def execParamHyper (h : CmdHdr) (block job : Nat) (multiplier : F32) (s : State) :
    Host.Outcome State Fault Refusal :=
  s.command h (.paramHyper h block job multiplier)

/-- PARAM_STATUS (R272): the command enters a context and runs by its own rule, `State.runCmd`. -/
def execParamStatus (h : CmdHdr) (block job : Nat) (out : Ref) (s : State) :
    Host.Outcome State Fault Refusal :=
  s.command h (.paramStatus h block job out)

/-- PARAM_RETIRE (R253): the command enters a context and runs by its own rule, `State.runCmd`. -/
def execParamRetire (h : CmdHdr) (block job : Nat) (s : State) :
    Host.Outcome State Fault Refusal :=
  s.command h (.paramRetire h block job)

/-- STASH_RESERVE (R274): the command enters a context and runs by its own rule, `State.runCmd`. -/
def execStashReserve (h : CmdHdr) (job extentLog2 maxEntries reservedBytes limitBytes : Nat) (s : State) :
    Host.Outcome State Fault Refusal :=
  s.command h (.stashReserve h job extentLog2 maxEntries reservedBytes limitBytes)

/-- STASH_RELEASE (R292): the command enters a context and runs by its own rule, `State.runCmd`. -/
def execStashRelease (h : CmdHdr) (job : Nat) (s : State) :
    Host.Outcome State Fault Refusal :=
  s.command h (.stashRelease h job)

/-- STASH_PURGE (R296): the command enters a context and runs by its own rule, `State.runCmd`. -/
def execStashPurge (h : CmdHdr) (job rank tag mask : Nat) (s : State) :
    Host.Outcome State Fault Refusal :=
  s.command h (.stashPurge h job rank tag mask)

/-- STASH_STATUS (R296): the command enters a context and runs by its own rule, `State.runCmd`. -/
def execStashStatus (h : CmdHdr) (job : Nat) (out : Ref) (s : State) :
    Host.Outcome State Fault Refusal :=
  s.command h (.stashStatus h job out)

/-- STASH_ENTRY (R296): the command enters a context and runs by its own rule, `State.runCmd`. -/
def execStashEntry (h : CmdHdr) (job rank tag : Nat) (out : Ref) (s : State) :
    Host.Outcome State Fault Refusal :=
  s.command h (.stashEntry h job rank tag out)

/-- PWR_PHASE (R354): the command enters a context and runs by its own rule, `State.runCmd`. -/
def execPwrPhase (h : CmdHdr) (phase tileMask : Nat) (s : State) :
    Host.Outcome State Fault Refusal :=
  s.command h (.pwrPhase h phase tileMask)

/-- PWR_CAP (R367): the command enters a context and runs by its own rule, `State.runCmd`. -/
def execPwrCap (h : CmdHdr) (limitW : Nat) (s : State) : Host.Outcome State Fault Refusal := s.command h (.pwrCap h limitW)

/-- FLT_SEVERITY (R373): the command enters a context and runs by its own rule, `State.runCmd`. -/
def execFltSeverity (h : CmdHdr) (source level : Nat) (s : State) :
    Host.Outcome State Fault Refusal :=
  s.command h (.fltSeverity h source level)

/-- FLT_INJECT (R381): the command enters a context and runs by its own rule, `State.runCmd`. -/
def execFltInject (h : CmdHdr) (source : Nat) (s : State) :
    Host.Outcome State Fault Refusal :=
  s.command h (.fltInject h source)

/-- FLT_CLEAR (R387): the command enters a context and runs by its own rule, `State.runCmd`. -/
def execFltClear (h : CmdHdr) (mask : Nat) (s : State) : Host.Outcome State Fault Refusal := s.command h (.fltClear h mask)

/-- MGT_IMAGE_WRITE (R404): the command enters a context and runs by its own rule, `State.runCmd`. -/
def execMgtImageWrite (h : CmdHdr) (slot offset : Nat) (data : Ref) (inlined : List Byte) (s : State) :
    Host.Outcome State Fault Refusal :=
  s.command h (.mgtImageWrite h slot offset data inlined)

/-- MGT_IMAGE_ACTIVATE (R406): the command enters a context and runs by its own rule, `State.runCmd`. -/
def execMgtImageActivate (h : CmdHdr) (slot : Nat) (s : State) :
    Host.Outcome State Fault Refusal :=
  s.command h (.mgtImageActivate h slot)

/-- MGT_ATTEST (R409): the command enters a context and runs by its own rule, `State.runCmd`. -/
def execMgtAttest (h : CmdHdr) (nonce : List Byte) (out : Ref) (s : State) :
    Host.Outcome State Fault Refusal :=
  s.command h (.mgtAttest h nonce out)

/-- MGT_LOG_READ (R410): the command enters a context and runs by its own rule, `State.runCmd`. -/
def execMgtLogRead (h : CmdHdr) (first count : Nat) (out : Ref) (s : State) :
    Host.Outcome State Fault Refusal :=
  s.command h (.mgtLogRead h first count out)

/-- MBOX_BIND (R310): the command enters a context and runs by its own rule, `State.runCmd`. -/
def execMboxBind (h : CmdHdr) (mailbox priority events qp dataQp : Nat) (ring : Ref) (s : State) :
    Host.Outcome State Fault Refusal :=
  s.command h (.mboxBind h mailbox priority events qp dataQp ring)

/-- MBOX_UNBIND (R318): the command enters a context and runs by its own rule, `State.runCmd`. -/
def execMboxUnbind (h : CmdHdr) (mailbox : Nat) (s : State) :
    Host.Outcome State Fault Refusal :=
  s.command h (.mboxUnbind h mailbox)

/-- MBOX_CANCEL (R314): the command enters a context and runs by its own rule, `State.runCmd`. -/
def execMboxCancel (h : CmdHdr) (mailbox number : Nat) (s : State) :
    Host.Outcome State Fault Refusal :=
  s.command h (.mboxCancel h mailbox number)

/-- MBOX_NOP (R314): the command enters a context and runs by its own rule, `State.runCmd`. -/
def execMboxNop (h : CmdHdr) (s : State) : Host.Outcome State Fault Refusal := s.command h (.mboxNop h)

/-- MBOX_STATUS (R318): the command enters a context and runs by its own rule, `State.runCmd`. -/
def execMboxStatus (h : CmdHdr) (mailbox : Nat) (s : State) :
    Host.Outcome State Fault Refusal :=
  s.command h (.mboxStatus h mailbox)

/-- HOST_PORT_CONFIG (R298): the command enters a context and runs by its own rule, `State.runCmd`. -/
def execHostPortConfig (h : CmdHdr) (port flags pfcPriority vlan ipv4 ipv6 : Nat) (s : State) :
    Host.Outcome State Fault Refusal :=
  s.command h (.hostPortConfig h port flags pfcPriority vlan ipv4 ipv6)

/-- HOST_QP_OPEN (R301): the command enters a context and runs by its own rule, `State.runCmd`. -/
def execHostQpOpen (h : CmdHdr) (port dscp mtu hostQpn hostPsn dstMac hostGid : Nat) (s : State) :
    Host.Outcome State Fault Refusal :=
  s.command h (.hostQpOpen h port dscp mtu hostQpn hostPsn dstMac hostGid)

/-- HOST_QP_CLOSE (R301): the command enters a context and runs by its own rule, `State.runCmd`. -/
def execHostQpClose (h : CmdHdr) (qp : Nat) (s : State) : Host.Outcome State Fault Refusal := s.command h (.hostQpClose h qp)

/-- JOB_ADMIT (R321): the command enters a context and runs by its own rule, `State.runCmd`. -/
def execJobAdmit (h : CmdHdr) (rcd : Ref) (s : State) : Host.Outcome State Fault Refusal := s.command h (.jobAdmit h rcd)

/-- JOB_END (R322): the command enters a context and runs by its own rule, `State.runCmd`. -/
def execJobEnd (h : CmdHdr) (job : Nat) (s : State) : Host.Outcome State Fault Refusal := s.command h (.jobEnd h job)

/-- JOB_STATUS (R318): the command enters a context and runs by its own rule, `State.runCmd`. -/
def execJobStatus (h : CmdHdr) (job : Nat) (out : Ref) (s : State) :
    Host.Outcome State Fault Refusal :=
  s.command h (.jobStatus h job out)

/-- FUNC_DISABLE (R323): the command enters a context and runs by its own rule, `State.runCmd`. -/
def execFuncDisable (h : CmdHdr) (function job drainTicks : Nat) (s : State) :
    Host.Outcome State Fault Refusal :=
  s.command h (.funcDisable h function job drainTicks)

/-- FUNC_ENABLE (R324): the command enters a context and runs by its own rule, `State.runCmd`. -/
def execFuncEnable (h : CmdHdr) (function job : Nat) (s : State) :
    Host.Outcome State Fault Refusal :=
  s.command h (.funcEnable h function job)

/-- FUNC_STATUS (R323): the command enters a context and runs by its own rule, `State.runCmd`. -/
def execFuncStatus (h : CmdHdr) (function job : Nat) (s : State) :
    Host.Outcome State Fault Refusal :=
  s.command h (.funcStatus h function job)

/-- REG_READ (R325): the command enters a context and runs by its own rule, `State.runCmd`. -/
def execRegRead (h : CmdHdr) (addr words : Nat) (out : Ref) (s : State) :
    Host.Outcome State Fault Refusal :=
  s.command h (.regRead h addr words out)

/-- REG_WRITE (R445): the command enters a context and runs by its own rule, `State.runCmd`. -/
def execRegWrite (h : CmdHdr) (addr value : Nat) (s : State) :
    Host.Outcome State Fault Refusal :=
  s.command h (.regWrite h addr value)

/-- TICK_ENABLE_WRITE (R333): the command enters a context and runs by its own rule, `State.runCmd`. -/
def execTickEnableWrite (h : CmdHdr) (s : State) : Host.Outcome State Fault Refusal := s.command h (.tickEnableWrite h)

/-- TICK_PERIOD_WRITE (R34): the command enters a context and runs by its own rule, `State.runCmd`. -/
def execTickPeriodWrite (h : CmdHdr) (period : Nat) (s : State) :
    Host.Outcome State Fault Refusal :=
  s.command h (.tickPeriodWrite h period)

/-- TICK_COUNT_READ (R37): the command enters a context and runs by its own rule, `State.runCmd`. -/
def execTickCountRead (h : CmdHdr) (s : State) : Host.Outcome State Fault Refusal := s.command h (.tickCountRead h)

/-- POOL_LOW_WATER_READ (R168): the command enters a context and runs by its own rule, `State.runCmd`. -/
def execPoolLowWaterRead (h : CmdHdr) (pool : Nat) (s : State) :
    Host.Outcome State Fault Refusal :=
  s.command h (.poolLowWaterRead h pool)

/-- MEMARB_SHARE_WRITE (R21): the command enters a context and runs by its own rule, `State.runCmd`. -/
def execMemarbShareWrite (h : CmdHdr) (value : Nat) (s : State) :
    Host.Outcome State Fault Refusal :=
  s.command h (.memarbShareWrite h value)

/-- ENG_SR_SEED_WRITE (R181): the command enters a context and runs by its own rule, `State.runCmd`. -/
def execEngSrSeedWrite (h : CmdHdr) (seed : Nat) (s : State) :
    Host.Outcome State Fault Refusal :=
  s.command h (.engSrSeedWrite h seed)

/-- FLT_STATUS_CLEAR (R376): the command enters a context and runs by its own rule, `State.runCmd`. -/
def execFltStatusClear (h : CmdHdr) (mask : Nat) (s : State) :
    Host.Outcome State Fault Refusal :=
  s.command h (.fltStatusClear h mask)

/-- FLT_MC_RETIRE (R383): the command enters a context and runs by its own rule, `State.runCmd`. -/
def execFltMcRetire (h : CmdHdr) (channel : Nat) (s : State) :
    Host.Outcome State Fault Refusal :=
  s.command h (.fltMcRetire h channel)

/-- FLT_MC_TEST (R385): the command enters a context and runs by its own rule, `State.runCmd`. -/
def execFltMcTest (h : CmdHdr) (channel : Nat) (s : State) :
    Host.Outcome State Fault Refusal :=
  s.command h (.fltMcTest h channel)

/-- FLT_MC_RESTORE (R385): the command enters a context and runs by its own rule, `State.runCmd`. -/
def execFltMcRestore (h : CmdHdr) (channel : Nat) (s : State) :
    Host.Outcome State Fault Refusal :=
  s.command h (.fltMcRestore h channel)

/-- MGT_SENSOR_CLEAR_PEAKS (R412): the command enters a context and runs by its own rule, `State.runCmd`. -/
def execMgtSensorClearPeaks (h : CmdHdr) (s : State) :
    Host.Outcome State Fault Refusal :=
  s.command h (.mgtSensorClearPeaks h)

end Sys2Proof.Machine
end

