-- ==== Sys2Proof/Machine/LinkRows.lean ====
section
/-! DEFINITION. Events of lanes, ports and laser source modules (chapter 3): one meaning for each row. Timers are taken as
run out when their row arrives, unless the model counts their ticks. -/

namespace Sys2Proof.Machine

open Sys2Proof (CapHeard LaserRead LsmIdent)

/-- A lane, a port, a laser source module of this module. -/
def State.laneOk (_ : State) (n : Nat) : Bool := decide (n < Config.lanes)
def State.portOk (s : State) (p : Nat) : Bool := decide (p < s.portCount)
def lsmOk (j : Nat) : Bool := decide (j < 16)

/-- Effect in one state of Table 3.4 only. -/
def State.inPort (s : State) (p st : Nat) (f : State → State) : State := if (s.port p).state = st then f s else s

/-- LOS_ASSERT (R68, R72). -/
def execLosAssert (lane : Nat) (s : State) : Host.Outcome State Fault Refusal :=
  onUnit (s.laneOk lane) (s.laneLoss lane true).settle

/-- LOS_CLEAR (R68). -/
def execLosClear (lane : Nat) (s : State) : Host.Outcome State Fault Refusal :=
  onUnit (s.laneOk lane) (s.laneGain lane true).settle

/-- LOL_ASSERT (R69, R72). -/
def execLolAssert (lane : Nat) (s : State) : Host.Outcome State Fault Refusal :=
  onUnit (s.laneOk lane) (s.laneLoss lane false).settle

/-- LOL_CLEAR (R69). -/
def execLolClear (lane : Nat) (s : State) : Host.Outcome State Fault Refusal :=
  onUnit (s.laneOk lane) (s.laneGain lane false).settle

/-- A lane has been clear of LOS for 1 ms: DETECT to TRAIN (R63), but for the lanes of a refused laser source module (R80). -/
def State.lightSeen (s : State) (n : Nat) : State :=
  if (s.lane n).los || (s.lsm (n / 64)).refused != 0 then s else s.inPort (s.portOf n) 1 fun s => s.portState (s.portOf n) 2

/-- DETECT_LIGHT_QUALIFIED (R63). -/
def execDetectLightQualified (lane : Nat) (s : State) : Host.Outcome State Fault Refusal :=
  onUnit (s.laneOk lane) (s.lightSeen lane).settle

/-- TRAIN_COMPLETE (R63). -/
def execTrainComplete (port : Nat) (s : State) : Host.Outcome State Fault Refusal :=
  onUnit (s.portOk port) (s.inPort port 2 fun s => s.portState port 3).settle

/-- TRAIN_TIMEOUT (R63). -/
def execTrainTimeout (port : Nat) (s : State) : Host.Outcome State Fault Refusal :=
  onUnit (s.portOk port) (s.inPort port 2 fun s => s.failAttempt port).settle

/-- At least one lane has bit lock and block lock: LOCK to EXCHANGE, and capability sets go out (R63, R65). -/
def State.lockReached (s : State) (p : Nat) : State :=
  if s.usableLanes p = 0 then s else s.inPort p 3 fun s => (s.portState p 4).sendCaps p

/-- LOCK_ACHIEVED (R63). -/
def execLockAchieved (port : Nat) (s : State) : Host.Outcome State Fault Refusal :=
  onUnit (s.portOk port) (s.lockReached port).settle

/-- LOCK_TIMEOUT (R63). -/
def execLockTimeout (port : Nat) (s : State) : Host.Outcome State Fault Refusal :=
  onUnit (s.portOk port) (s.inPort port 3 fun s => s.failAttempt port).settle

/-- CAPABILITY_SET (R65, R66). -/
def execCapabilitySet (port : Nat) (heard : CapHeard) (s : State) : Host.Outcome State Fault Refusal :=
  onUnit (s.portOk port && s.laneOk heard.lane) (s.hearCaps port heard.lane heard.crcOk heard.caps).settle

/-- 10 ms in EXCHANGE without agreement or refusal (R63). -/
def State.exchangeOver (s : State) (p : Nat) : State :=
  if (s.port p).refusal = 0 then s.inPort p 4 fun s => s.failAttempt p else s

/-- EXCHANGE_TIMEOUT (R63). -/
def execExchangeTimeout (port : Nat) (s : State) : Host.Outcome State Fault Refusal :=
  onUnit (s.portOk port) (s.exchangeOver port).settle

/-- WIDTH_REQUEST (R71). -/
def execWidthRequest (port usable : Nat) (s : State) : Host.Outcome State Fault Refusal :=
  onUnit (s.portOk port) (s.answerStep port usable).settle

/-- WIDTH_ACK (R71). -/
def execWidthAck (port usable width : Nat) (s : State) : Host.Outcome State Fault Refusal :=
  onUnit (s.portOk port) (s.stepAcked port usable width).settle

/-- WIDTH_STEP_SWITCH (R71). -/
def execWidthStepSwitch (port : Nat) (s : State) : Host.Outcome State Fault Refusal :=
  onUnit (s.portOk port) (s.stepSwitch port).settle

/-- WIDTH_MARKER (R71). -/
def execWidthMarker (port : Nat) (s : State) : Host.Outcome State Fault Refusal :=
  onUnit (s.portOk port) (s.stepMarker port).settle

/-- No acknowledgement within 4 ticks of the request (R71). -/
def State.stepUnanswered (s : State) (p : Nat) : State :=
  match (s.port p).step with
  | some t => if t.own && !t.acked && decide (4 ≤ t.age) then s.toDetect p else s
  | none => s

/-- WIDTH_ACK_TIMEOUT (R71). -/
def execWidthAckTimeout (port : Nat) (s : State) : Host.Outcome State Fault Refusal :=
  onUnit (s.portOk port) (s.stepUnanswered port).settle

/-- A lane outside its port has held lock for restore_hold ticks: a widening step (R73). -/
def State.laneReturns (s : State) (n : Nat) : State :=
  let l := s.lane n
  if !l.inUse && l.locked && decide (s.cfg .laneRetireCfg 0 35 13 ≤ l.lockTicks) then s.startStep (s.portOf n) else s

/-- LANE_RESTORE_HOLD_ELAPSED (R73). -/
def execLaneRestoreHoldElapsed (lane : Nat) (s : State) : Host.Outcome State Fault Refusal :=
  onUnit (s.laneOk lane) (s.laneReturns lane).settle

/-- LANE_AUTO_RETIRE (R74). -/
def execLaneAutoRetire (lane : Nat) (s : State) : Host.Outcome State Fault Refusal :=
  onUnit (s.laneOk lane) (s.autoRetire lane).settle

/-- RETIREMENT_WINDOW_END (R70). -/
def execRetirementWindowEnd (s : State) : Host.Outcome State Fault Refusal := .next s.windowEnd.settle

/-- The peer's cumulative credit on every virtual channel (R87). -/
def State.creditUpdate (s : State) (p : Nat) (granted : List Nat) : State :=
  s.inPort p 5 fun s => s.setPort p fun P => { P with
    txGranted := (List.range 8).map fun v => granted.getD v 0 % 2 ^ 24
    firstGrant := P.firstGrant.orElse fun _ => some (granted.getD 6 0 % 2 ^ 24, granted.getD 7 0 % 2 ^ 24) }

/-- CREDIT_UPDATE (R87). -/
def execCreditUpdate (port : Nat) (granted : List Nat) (s : State) : Host.Outcome State Fault Refusal :=
  onUnit (s.portOk port) (s.creditUpdate port granted).settle

/-- LASER_SAMPLE (R76, R77). -/
def execLaserSample (reads : List LaserRead) (s : State) : Host.Outcome State Fault Refusal :=
  onUnit (reads.all fun r => lsmOk r.lsm && decide (r.laser < 5)) (reads.foldl State.laserRead s).settle

/-- SPARE_LASER_SWITCHED (R77). -/
def execSpareLaserSwitched (lsm : Nat) (s : State) : Host.Outcome State Fault Refusal :=
  onUnit (lsmOk lsm) (s.spareOn lsm).settle

/-- A latch opens: the lasers go off (R79); a release that still waits for its queues is over at once (R439). -/
def State.latchOpened (s : State) (j : Nat) : State :=
  let lit := (s.lsm j).lit
  let s := s.setLsm j fun L => { L with latchOpen := true, warming := false, draining := none }
  if lit then s.lsmDark j else s

/-- LSM_LATCH_OPEN (R79). -/
def execLsmLatchOpen (lsm : Nat) (s : State) : Host.Outcome State Fault Refusal :=
  onUnit (lsmOk lsm) (s.latchOpened lsm).settle

/-- LSM_LATCH_CLOSE (R78, R80). -/
def execLsmLatchClose (lsm : Nat) (idOk : Bool) (ident : LsmIdent) (s : State) : Host.Outcome State Fault Refusal :=
  onUnit (lsmOk lsm) (if (s.lsm lsm).latchOpen then (s.lsmClosed lsm idOk ident).settle else s)

/-- LSM_LASERS_LIT (R78). -/
def execLsmLasersLit (lsm : Nat) (s : State) : Host.Outcome State Fault Refusal :=
  onUnit (lsmOk lsm) (if (s.lsm lsm).warming then (s.lsmLit lsm).settle else s)

/-- A lane's test is over: its counters are written out, its command completes, and the lane goes back or stays out
(R75). -/
def State.laneTestOver (s : State) (n : Nat) : State :=
  match (s.lane n).test with
  | none => s
  | some t =>
    if !t.asked || t.left ≠ 0 then s
    else
      let s' := s.endLaneTest n t
      match s.host.ctxs.find? fun x => x.state == .started (.lane n) with
      | none => s'
      | some x =>
        match s'.writeRef x.cmd x.hdr t.out t.result with
        | (true, s'') => s''.complete x Status.ok
        | (false, s'') => s''.complete x (s'.refStatus t.out t.result.length)

/-- LANE_TEST_END (R75). -/
def execLaneTestEnd (lane : Nat) (s : State) : Host.Outcome State Fault Refusal :=
  onUnit (s.laneOk lane) (s.laneTestOver lane).settle

/-- LSM_RELEASE_DRAINED (R78): the command that waits for it wakes. -/
def execLsmReleaseDrained (lsm : Nat) (s : State) : Host.Outcome State Fault Refusal :=
  onUnit (lsmOk lsm) (if s.lsmDrained lsm then (s.lsmReleased lsm).settle else s)

end Sys2Proof.Machine
end

