-- ==== Sys2Proof/Machine/TickRows.lean ====
section
/-! DEFINITION. The tick boundary and the other events of the tick keeper (chapter 2). -/

namespace Sys2Proof.Machine

open Sys2Proof (BoundaryIn Announce)

/-! ## The boundary (R35, R39, R52) -/

/-- One command that waits for a boundary takes effect, or, with fewer than 16 cycles left when it came, waits for the next one
(R39). -/
def State.boundaryOne (s : State) (x : Ctx) : State :=
  match x.state with
  | .started (.boundary true) => s.setCtx x.id fun y => { y with state := .started (.boundary false) }
  | .started (.boundary false) => s.perform x
  | _ => s

/-- Commands that take effect at a boundary, in the order in which they started. -/
def State.boundaryCommands (s : State) : State := s.host.ctxs.foldl State.boundaryOne s

/-- Commands waiting for dispatch have waited one tick more (R311). -/
def State.ageCommands (s : State) : State :=
  s.setHost fun h => { h with ctxs := h.ctxs.map fun x =>
    if x.state == .waiting then { x with waited := x.waited + 1 } else x }

/-- Records that the persistent log admits: 64 a second, at most 256 at once (R396). -/
def State.logRate (s : State) : State :=
  let clock := s.mgt.tokenClock + 64 * (s.tickPs / 1280000)
  s.setMgt fun m => { m with tokens := min 256 (m.tokens + clock / 781250), tokenClock := clock % 781250 }

/-- One credit block on each ACTIVE link (R87). -/
def State.creditBlocks (s : State) : State :=
  if s.isSafe then s
  else s.activePorts.foldl (fun (s : State) p => s.emit (.credit p (creditBytes (s.port p).rxGranted))) s

/-- The timers of discovery advance by a tick. -/
def State.topoTick (s : State) : State :=
  s.setTopo fun t => { t with digestAge := t.digestAge + 1, pendingAge := t.pendingAge.map (· + 1) }

/-- What the tick keeper and discovery send at a boundary (R41, R43, R87, R109, R116, R118). -/
def State.boundarySends (s : State) (late : List Nat) : State :=
  ((s.tsosTick late).announceChange.helloTick.noticeTick.creditBlocks.topoTick).summaryCheck

/-- The per-tick work of the data plane (Table 2.10): the plan, the ports, engines, power, timers of operations. -/
def State.dataTick (s : State) (inp : BoundaryIn) : State :=
  let s := (s.scheduleTick inp.planLate inp.capturesLate).switchTick
  let s := (s.applyBubbles.engineTick.powerTick inp.power).demandTick
  (s.collTick.stashTick.stzTick).ageFlows

/-- A tick boundary. With the tick keeper STOPPED there is none. In the safe state the counter and the timers of the
management side go on (R374). -/
def State.boundary (s : State) (inp : BoundaryIn) : State :=
  if !s.ticking then s
  else
    let s := s.tickAdvance.boundaryCommands.disableTick
    let s := s.boundarySends inp.tsosLate
    let s := if s.isSafe then s else s.dataTick inp
    ((s.linkTick inp.fec).thermalTick.retargetAll.injectTick.ageCommands).logRate

/-- TICK_BOUNDARY (R35). -/
def execTickBoundary (inp : BoundaryIn) (s : State) : Host.Outcome State Fault Refusal :=
  onUnit (inp.fec.all fun f => s.laneOk f.lane) (s.boundary inp).settle

/-- Commands whose effective tick has begun or been passed take effect, in the order in which they started (R53). -/
def State.tickReached (s : State) : State :=
  s.host.ctxs.foldl (fun (s : State) x =>
    match x.state with
    | .started (.tick t) => if t ≤ s.tick.issued then s.ready x true else s
    | _ => s) s

/-- EFFECTIVE_TICK_REACHED (R53). -/
def execEffectiveTickReached (s : State) : Host.Outcome State Fault Refusal :=
  .next (if s.ticking then s.tickReached.settle else s)

/-! ## The tick keeper (R41–R50) -/

/-- A tick-sync ordered set: with a bad CRC it counts as missing (R43). -/
def State.tsosHeard (s : State) (p : Nat) (crcOk : Bool) (seq tTx echoTx echoRx arrival : Nat) : State :=
  if !crcOk || !((s.port p).state == 4 || (s.port p).state == 5) || !s.ticking then s
  else s.tsos p seq tTx echoTx echoRx arrival

/-- TSOS_RECEIVED (R44). -/
def execTsosReceived (port : Nat) (crcOk : Bool) (seq tTx echoSeq echoTx echoRx arrival : Nat) (s : State) :
    Host.Outcome State Fault Refusal :=
  let _ := echoSeq
  onUnit (s.portOk port) (s.tsosHeard port crcOk seq tTx echoTx echoRx arrival).settle

/-- PARENT_LOST (R48): the choice of the parent is made again. -/
def execParentLost (s : State) : Host.Outcome State Fault Refusal := .next s.tickReview.announceChange.settle

/-- TICK_ANNOUNCE (R41, R42). -/
def execTickAnnounce (port : Nat) (announce : Announce) (s : State) : Host.Outcome State Fault Refusal :=
  onUnit (s.portOk port)
    (if s.isSafe then s
     else (s.inPort port 5 fun s => (s.takeLocal port Op.tickAnnounce none).tickHear port announce).settle)

/-- ANNOUNCE_TIMER (R41): every 256 ticks. -/
def execAnnounceTimer (s : State) : Host.Outcome State Fault Refusal :=
  .next (if s.ticking && decide (256 ≤ s.tick.announceAge) then s.announcePeriodic.settle else s)

/-- The tick keeper enters UNSYNC for a reason and has no parent. -/
def State.unsync (s : State) (reason : Nat) : State :=
  ((s.setTick fun t => { t with parent := none }).tickEnter 6 reason).announceChange

/-- JOIN_TIMEOUT (R48): 256 ticks in JOINING. -/
def execJoinTimeout (s : State) : Host.Outcome State Fault Refusal :=
  .next (if s.tick.state == 2 && decide (256 ≤ s.tick.inState) then (s.unsync 4).settle else s)

/-- ROOT_SEQ_STALE (R50): 1,024 ticks without an advance of root_seq. -/
def execRootSeqStale (s : State) : Host.Outcome State Fault Refusal :=
  .next (if (s.tick.state == 3 || s.tick.state == 4 || s.tick.state == 5) && decide (1024 ≤ s.tick.seqAge) then
      s.reRoot.settle else s)

/-- HOLD_LIMIT_EXPIRED (R48): hold_ticks in HOLDOVER. -/
def execHoldLimitExpired (s : State) : Host.Outcome State Fault Refusal :=
  .next (if s.tick.state == 5 && decide (s.cfg .tickHoldLimit 0 0 16 ≤ s.tick.inState) then (s.unsync 1).settle else s)

end Sys2Proof.Machine
end

