-- ==== Sys2Proof/Machine/HostEvents.lean ====
section
/-! DEFINITION. Events of hosts and their paths (chapter 13): doorbells, SENDs and RDMA accesses of mailboxes, host ports and
queue pairs, the sideband, MGMT frames; and the events that end commands which wait. -/

namespace Sys2Proof.Machine

open Sys2Proof (HostBuf HostFrame Delivery Path)

/-! ## Mailbox regions (R302) -/

/-- Table 13.2. -/
def ringBase (m : Nat) : Nat := 0x5000000001000000 + m * 0x4000
def doorbellAddr (m : Nat) : Nat := 0x600000000F000000 + m * 64

/-- The access comes from the mailbox's bound QP. -/
def State.fromBound (s : State) (m qp : Nat) : Bool := decide (m < 64) && (s.mbox m).qp == some qp

/-- A key as MBOX.BIND issued it, by its draw. -/
def keyOk (draw key : Nat) : Bool := (Config.freeWord draw).toNat == key

/-- An access that Table 13.2 does not allow. -/
def State.accessBad (s : State) (qp : Nat) : State := (s.bump .mgtMboxAccessBad).emit (.accessNak qp)

/-- Bytes stored in a mailbox's command ring from an offset. -/
def State.writeRing (s : State) (m off : Nat) (bs : List Byte) : State :=
  s.setMbox m fun b => { b with slots := bs.zipIdx.foldl (fun sl x =>
    sl.upd ((off + x.2) / 64) (zeros 64) fun l => l.set ((off + x.2) % 64) x.1) b.slots }

/-- A slot of a mailbox's command ring; one never written reads as zeros. -/
def State.ringSlot (s : State) (m c : Nat) : List Byte := (s.mbox m).slots.getD (c % 256) (zeros 64)

/-! ## Doorbells and SENDs (R304–R307) -/

/-- The doorbell value is ahead of P and leaves fewer than 256 commands open. -/
def State.roomFor (s : State) (m d : Nat) : Bool :=
  serialNewer 32 d (s.mbox m).p && decide ((d + 2 ^ 32 - s.oldest m) % 2 ^ 32 < 256)

/-- Command `c` of a mailbox is fetched into a context; its count is checked (R307). -/
def State.fetchOne (s : State) (m : Nat) (reads : List HostBuf) (c : Nat) : State :=
  let slot := s.ringSlot m c
  let x := parseSlot slot (.mailbox m) c (getLE slot 4 4 == c) reads
  s.arrive x.1 x.2.1 x.2.2.1 x.2.2.2

/-- Commands P + 1 to `d` are fetched. -/
def State.fetch (s : State) (m d : Nat) (reads : List HostBuf) : State :=
  let p := (s.mbox m).p
  let n := (d + 2 ^ 32 - p) % 2 ^ 32
  let s := s.setMbox m fun b => { b with p := d }
  ((List.range n).map fun i => (p + 1 + i) % 2 ^ 32).foldl (fun (s : State) c => s.fetchOne m reads c) s

/-- A doorbell that is ignored. -/
def State.doorbellBad (s : State) (m d : Nat) : State :=
  (s.bump .mgtMboxDbBad).event 1 0x0C 0x0011
    (leBytes 1 m ++ zeros 3 ++ leBytes 4 d ++ leBytes 4 (s.mbox m).p ++ leBytes 4 (s.oldest m))

/-- The value of a doorbell write is accepted or ignored; in headless mode and before STANDBY nothing is fetched (R411). -/
def State.ring (s : State) (m d : Nat) (reads : List HostBuf) : State :=
  if !s.answering then s
  else if d < 2 ^ 32 && s.roomFor m d then (s.fetch m d reads).settle
  else s.doorbellBad m d

/-- A doorbell write (R302, R305). -/
def State.doorbell (s : State) (m qp key d : Nat) (reads : List HostBuf) : State :=
  if s.fromBound m qp && keyOk (s.mbox m).doorKey key then s.ring m d reads else s.accessBad qp

/-- DOORBELL (R305). -/
def execDoorbell (mailbox qp key d : Nat) (reads : List HostBuf) (s : State) : Host.Outcome State Fault Refusal :=
  .next (s.doorbell mailbox qp key d reads)

/-- A SEND of 1 to 16 slots to a mailbox's QP (R306). One of another length is no SEND that the engine takes. -/
def State.mailboxSend (s : State) (m qp : Nat) (slots : List (List Byte)) (reads : List HostBuf) : State :=
  let p := (s.mbox m).p
  let d := (p + slots.length) % 2 ^ 32
  if slots.length = 0 || 16 < slots.length || slots.any fun x => x.length != 64 then s
  else if !s.fromBound m qp then s.accessBad qp
  else if !s.roomFor m d then s.emit (.rnrNak qp)
  else
    (slots.zipIdx.foldl (fun (s : State) x => s.writeRing m ((p + 1 + x.2) % 256 * 64) x.1) s).ring m d reads

/-- MAILBOX_SEND (R306). -/
def execMailboxSend (mailbox qp : Nat) (slots : List (List Byte)) (reads : List HostBuf) (s : State) :
    Host.Outcome State Fault Refusal := .next (s.mailboxSend mailbox qp slots reads)

/-- An RDMA access to a device region: a ring, or exactly a doorbell's 8 B (R302). -/
def State.rdmaAccess (s : State) (qp key addr : Nat) (write : Option (List Byte)) (len : Nat) : State :=
  let n := (write.map List.length).getD len
  if ringBase 0 ≤ addr ∧ addr + n ≤ ringBase 64 ∧ 0 < n then
    let m := (addr - ringBase 0) / 0x4000
    let off := (addr - ringBase 0) % 0x4000
    if !s.fromBound m qp || !keyOk (s.mbox m).ringKey key || decide (0x4000 < off + n) then s.accessBad qp
    else
      match write with
      | some bs => s.writeRing m off bs
      | none => s.emit (.readReturn qp ((rangeFrom off n).map fun i => (s.ringSlot m (i / 64)).getD (i % 64) 0))
  else if doorbellAddr 0 ≤ addr ∧ addr < doorbellAddr 64 ∧ (addr - doorbellAddr 0) % 64 = 0 ∧ n = 8 then
    match write with
    | some bs => s.doorbell ((addr - doorbellAddr 0) / 64) qp key (getLE bs 0 8) []
    | none => s.accessBad qp
  else s.accessBad qp

/-- HOST_RDMA_ACCESS (R302). -/
def execHostRdmaAccess (qp key addr : Nat) (write : Option (List Byte)) (len : Nat) (s : State) :
    Host.Outcome State Fault Refusal := .next (s.rdmaAccess qp key addr write len)

/-- A command that has waited 256 ticks for dispatch is treated as priority 3 (R311). -/
def State.aged (s : State) (m number : Nat) : State :=
  let late : Ctx → Bool := fun x =>
    x.hdr.path == Path.mailbox m && x.hdr.number == number && x.state == CtxState.waiting && decide (256 ≤ x.waited)
  let mark : Ctx → Ctx := fun x => if late x then { x with aged := true } else x
  s.setHost fun h => { h with ctxs := h.ctxs.map mark }

/-- COMMAND_AGED (R311). -/
def execCommandAged (mailbox number : Nat) (s : State) : Host.Outcome State Fault Refusal :=
  .next (s.aged mailbox number).settle

/-! ## The sideband (R315, R411) -/

/-- A slot is written to the sideband: ignored and remembered while busy; in BOOT and in headless mode it is busy always; in
RESET it does not answer. -/
def State.sideWrite (s : State) (slot : List Byte) : State :=
  if s.boot.phase = 0 ∨ slot.length ≠ 64 then s
  else if s.host.side.busy || !s.answering then s.setHost fun h => { h with side := { h.side with refused := true } }
  else
    let c := (s.host.side.count + 1) % 2 ^ 32
    let x := parseSlot slot .sideband c (getLE slot 4 4 == c) []
    (s.sideTake.arrive x.1 x.2.1 x.2.2.1 x.2.2.2).settle

/-- SIDEBAND_SLOT_WRITE (R315). -/
def execSidebandSlotWrite (slot : List Byte) (s : State) : Host.Outcome State Fault Refusal := .next (s.sideWrite slot)

/-- The status byte. -/
def State.statusByte (s : State) : Nat :=
  let x := s.host.side
  b2n (x.busy || !s.answering) + 2 * b2n (x.ready && s.answering) + 4 * b2n x.refused + 8 * s.boot.phase

/-- The status byte is read; the refused bit clears. -/
def State.sideStatus (s : State) : State :=
  if s.boot.phase = 0 then s
  else (s.emit (.statusByte s.statusByte)).setHost fun h => { h with side := { h.side with refused := false } }

/-- SIDEBAND_STATUS_READ (R315). -/
def execSidebandStatusRead (s : State) : Host.Outcome State Fault Refusal := .next s.sideStatus

/-- The target takes a dynamic address (R315); it is powered from AUX_3V3. -/
def State.assignAddress (s : State) (addr : Nat) : State :=
  if s.boot.aux && decide (addr < 128) then
    s.setHost fun h => { h with side := { h.side with address := some addr } } else s

/-- DYNAMIC_ADDRESS_ASSIGNMENT (R315): by ENTDAA, or by SETDASA from static address 0x32, with the same effect. -/
def execDynamicAddressAssignment (addr : Nat) (static : Bool) (s : State) : Host.Outcome State Fault Refusal :=
  let _ := static
  .next (s.assignAddress addr)

/-! ## Host ports and queue pairs (R298–R301) -/

/-- A host port. -/
def hostPortOk (p : Nat) : Bool := decide (p < 4)

/-- One queue pair changed, where it exists. -/
def State.setQp (s : State) (q : Nat) (f : QpSt → QpSt) : State :=
  match s.host.qps.get? q with
  | some x => s.setHost fun h => { h with qps := h.qps.set q (f x) }
  | none => s

/-- At most one congestion notification in 50 µs on a QP; with no tick running every one is late enough (log entry 38). -/
def State.cnpDue (s : State) (x : QpSt) : Bool :=
  match x.cnpAt with
  | some t => !s.ticking || decide (50000000 ≤ (s.tick.counter - t) * s.tickPs)
  | none => true

/-- A frame on a host port whose link is up. -/
def State.hostFrame (s : State) (p : Nat) (f : HostFrame) : State :=
  if !(s.host.ports.getD p {}).up then s
  else
    match f with
    | .roce q ce =>
      (match s.host.qps.get? q with
        | some x =>
          if ce && x.port == p && !x.error && s.cnpDue x then
            (s.setQp q fun x => { x with cnpAt := some s.tick.counter }).emit (.cnp q)
          else s
        | none => s)
    | .resolution => s.emit (.resolved p)
    | .qp1 => s
    | .other => s.bump .mgtHostDrop p

/-- HOST_FRAME_RECEIVED (R298–R300). -/
def execHostFrameReceived (port : Nat) (frame : HostFrame) (s : State) : Host.Outcome State Fault Refusal :=
  onUnit (hostPortOk port) (s.hostFrame port frame)

/-- CNP_RECEIVED (R300): the QP's rate halves, never below 1 Gb/s. -/
def execCnpReceived (qp : Nat) (s : State) : Host.Outcome State Fault Refusal :=
  .next (s.setQp qp fun x => { x with rate := max 1000 (x.rate / 2) })

/-- RATE_RECOVERY_TIMER (R300): 25 Gb/s more, up to line rate. -/
def execRateRecoveryTimer (qp : Nat) (s : State) : Host.Outcome State Fault Refusal :=
  .next (s.setQp qp fun x => { x with rate := min 200000 (x.rate + 25000) })

/-- QP_RETRY_EXHAUSTED (R301). -/
def execQpRetryExhausted (qp : Nat) (s : State) : Host.Outcome State Fault Refusal :=
  .next (s.setQp qp fun x => { x with error := true })

/-- The local ACK timeout: a retransmission, at most seven (R299). -/
def State.ackTimeout (s : State) (q : Nat) : State :=
  match s.host.qps.get? q with
  | some x => if x.error || decide (7 ≤ x.retries) then s
              else (s.setQp q fun x => { x with retries := x.retries + 1 }).emit (.qpRetry q)
  | none => s

/-- LOCAL_ACK_TIMEOUT (R299). -/
def execLocalAckTimeout (qp : Nat) (s : State) : Host.Outcome State Fault Refusal := .next (s.ackTimeout qp)

/-- A host port's link changes; it comes up only while the port is powered (R330, R337). -/
def State.hostLink (s : State) (p : Nat) (up : Bool) : State :=
  if up && !s.boot.hostPowered then s
  else s.setHost fun h => { h with ports := h.ports.upd p {} fun x => { x with up := up } }

/-- HOST_PORT_LINK_CHANGE (R298). -/
def execHostPortLinkChange (port : Nat) (up : Bool) (s : State) : Host.Outcome State Fault Refusal :=
  onUnit (hostPortOk port) (s.hostLink port up)

/-! ## MGMT frames (R316) -/

/-- The refusal of an MGMT frame. -/
def State.mgmtRefusal (s : State) (job : Nat) : Option Nat :=
  match s.host.jobs.get? job with
  | none => some Status.jobUnknown
  | some j =>
    if !j.mgmtFabric then some Status.notPermitted
    else if s.disabled 4 job then some Status.functionDisabled else none

/-- An MGMT frame at endpoint 0xFFF3: committed, and its command taken; a frame with sys 1 carries none. -/
def State.mgmtFrame (s : State) (d : Delivery) : State :=
  let h := d.frame.hdr
  if !s.answering then s
  else s.receive d fun s =>
    if s.duplicate h then s.ackAgain h 0xFFF3
    else if h.sys then s.commitFrame h 0xFFF3
    else
      match s.mgmtRefusal h.job with
      | some st => s.refuseFrame h 0xFFF3 st
      | none =>
        let slot := d.frame.payload.take 64
        let x := parseSlot slot (.fabric h.job h.srcNode h.srcEp h.cls h.opId) (getLE slot 4 4) true []
        (s.commitFrame h 0xFFF3).arrive x.1 x.2.1 x.2.2.1 x.2.2.2

/-- MGMT (R316). -/
def execMgmt (d : Delivery) (s : State) : Host.Outcome State Fault Refusal :=
  .next (if s.isSafe then s else (s.mgmtFrame d).settle)

/-! ## Events that end what commands wait for -/

/-- MODULE_RESET_SHUTDOWN (R342): the shutdown of a commanded module reset begins. -/
def execModuleResetShutdown (s : State) : Host.Outcome State Fault Refusal :=
  .next (if s.boot.shutdownDue then s.moduleReset else s)

/-- TILE_RESET_COMPLETE (R340): the tile's engines are back, but for those that failed the test. -/
def execTileResetComplete (tile : Nat) (failed : List Nat) (s : State) : Host.Outcome State Fault Refusal :=
  onUnit (decide (tile < 8) && failed.all fun i => decide (i < 136))
    (if s.eng.inReset.contains tile then (s.startTile tile failed).settle else s)

/-- JOB_END_COMPLETE (R322): every resource of the job is free. -/
def execJobEndComplete (job : Nat) (s : State) : Host.Outcome State Fault Refusal :=
  .next (if s.host.ending.contains job && s.jobFree job then (s.jobEnded job).settle else s)

/-- FUNC_DISABLE_DRAINED (R323): the scope holds no work of the function. -/
def execFuncDisableDrained (function job : Nat) (s : State) : Host.Outcome State Fault Refusal :=
  .next (if s.drainOver function job then
      (s.setDisable function job fun d => { d with done := true }).settle else s)

/-- DRAIN_TIMEOUT (R324). -/
def execDrainTimeout (function job : Nat) (s : State) : Host.Outcome State Fault Refusal :=
  .next (s.drainTimeout function job).settle

end Sys2Proof.Machine
end

