-- ==== Sys2Proof/Machine/FabricRows.lean ====
section
/-! DEFINITION. Events of discovery, groups, frames and flows (chapters 4 to 6). -/

namespace Sys2Proof.Machine

open Sys2Proof (Delivery Disc Hdr Ext)

/-- Work of the data plane, which the safe state stops (R374). -/
def State.data (s : State) (f : State → State) : State := if s.isSafe then s else (f s).settle

/-- A frame that the switch has delivered to an internal endpoint leaves its queue and is judged there. -/
def State.deliverTo (s : State) (d : Delivery) (f : State → State) : State := s.data fun s => s.receive d f

/-- A DISCOVERY frame of a kind of Table 5.5a committed on a port in ACTIVE. -/
def State.linkLocal (s : State) (p kind : Nat) (f : State → State) : State :=
  s.data fun s => s.inPort p 5 fun s => f (s.takeLocal p Op.discovery (some kind))

/-! ## Discovery (R109–R118) -/

/-- HELLO (R110). -/
def execHello (port : Nat) (disc : Disc) (s : State) : Host.Outcome State Fault Refusal :=
  onUnit (s.portOk port) (s.linkLocal port 1 fun s => (s.helloHear port disc false).summaryCheck)

/-- HELLO_REPLY (R110). -/
def execHelloReply (port : Nat) (disc : Disc) (s : State) : Host.Outcome State Fault Refusal :=
  onUnit (s.portOk port) (s.linkLocal port 2 fun s => (s.helloHear port disc true).summaryCheck)

/-- No HELLO_REPLY 16 ticks after ACTIVE: a port still to be judged is held (Table 5.5). -/
def State.noReply (s : State) (p : Nat) : State :=
  let r := s.route p
  if s.role p = 2 && (r.state == 1 || r.state == 4) && !r.replied && decide (16 ≤ r.helloAge) && !s.flt.headless then
    (s.holdPort p 6).summaryCheck
  else s

/-- HELLO_NO_REPLY_TIMEOUT (R110). -/
def execHelloNoReplyTimeout (port : Nat) (s : State) : Host.Outcome State Fault Refusal :=
  onUnit (s.portOk port) (s.data fun s => s.inPort port 5 fun s => s.noReply port)

/-- pending_limit ticks have passed since the plan was loaded or the tick joined. -/
def State.pendingDue (s : State) : Bool :=
  match s.topo.pendingAge, s.topo.plan with
  | some n, some pl => decide (pl.pendingLimit ≤ n)
  | _, _ => false

/-- PENDING_LIMIT_EXPIRED (R110, R334). -/
def execPendingLimitExpired (s : State) : Host.Outcome State Fault Refusal :=
  .next (if s.pendingDue then s.pendingExpired.settle else s)

/-- A notice is committed; the first one that readmits a node makes this home node install its groups again (R115, R123,
R127). -/
def State.linkState (s : State) (p : Nat) (d : Disc) : State :=
  let s' := s.noticeHear p d
  match s.readmitted d with
  | some n => if !(s.ls n).back && (s'.ls n).back then s'.reinstallGroups n else s'
  | none => s'

/-- LINK_STATE (R115). -/
def execLinkState (port : Nat) (disc : Disc) (s : State) : Host.Outcome State Fault Refusal :=
  onUnit (s.portOk port) (s.linkLocal port 3 fun s => (s.linkState port disc).peerReports port disc)

/-- DIGEST_TIMER (R109): every 256 ticks. -/
def execDigestTimer (s : State) : Host.Outcome State Fault Refusal :=
  .next (s.data fun s => if s.ticking && decide (256 ≤ s.topo.digestAge) then s.sendDigests else s)

/-- DIGEST (R118). -/
def execDigest (port : Nat) (disc : Disc) (s : State) : Host.Outcome State Fault Refusal :=
  onUnit (s.portOk port) (s.linkLocal port 4 fun s => (s.digestHear port disc).peerReports port disc)

/-! ## Groups (R123) -/

/-- A GROUP_SETUP frame: this module is the member, or lies on the path. -/
def State.groupFrame (s : State) (d : Delivery) : State :=
  let h := d.frame.hdr
  let b := d.frame.payload
  if h.dstNode ≠ s.me then
    (if getLE b 0 1 != 1 || s.groupRoom h.srcNode (getLE b 2 2) h.dstNode then s.groupTransit h.srcNode h.dstNode b
     else s.transitAck h 2 Status.capacityExceeded)
  else if s.duplicate h then s.ackAgain h 0xFFF3
  else
    match s.groupMember h.srcNode b with
    | (some st, s) => s.refuseFrame h 0xFFF3 st
    | (none, s) => s.commitFrame h 0xFFF3

/-- GROUP_SETUP (R123). -/
def execGroupSetup (d : Delivery) (s : State) : Host.Outcome State Fault Refusal :=
  .next (s.deliverTo d fun s => s.groupFrame d)

/-! ## Frames (R130, R131, R149) -/

/-- FRAME_HEADER_RECEIVED (R130). -/
def execFrameHeaderReceived (port firstByte : Nat) (hdr : Hdr) (extn : Option Ext) (s : State) :
    Host.Outcome State Fault Refusal :=
  onUnit (s.portOk port) (s.data fun s => s.headerReceived port firstByte hdr extn (s.takesFrame port hdr))

/-- A GROUP_SETUP frame in reception that this module forwards on its direct route. -/
def State.passesSetup (s : State) (f : RxFrame) (payload : List Byte) (e2e : Nat) (hop : Option Nat) : Bool :=
  f.hdr.opcode == Op.groupSetup && f.hdr.dstNode != s.me && f.hdr.via == 0xFFFF && f.verdict == .taken &&
  !f.copies.isEmpty && some (hopCrc f.hdr f.extn payload e2e) == hop && payload.length == f.hdr.units * 64 &&
  e2eCrc f.hdr f.extn payload == e2e

/-- A frame's last unit: a GROUP_SETUP on its way is taken as it is forwarded, or refused for want of room (R123). -/
def State.lastUnit (s : State) (p : Nat) (payload : List Byte) (e2e : Nat) (hop : Option Nat) : State :=
  match s.sw.rx.get? p with
  | none => s
  | some f =>
    if s.passesSetup f payload e2e hop then
      let home := f.hdr.srcNode
      let m := f.hdr.dstNode
      if getLE payload 0 1 != 1 || s.groupRoom home (getLE payload 2 2) m then
        (s.frameEnd p payload e2e hop).groupTransit home m payload
      else
        ((s.dropRx p f).setRxFrame p
          { f with verdict := .drop (some Status.capacityExceeded), copies := [], cells := [], counts := [] }).frameEnd
          p payload e2e hop
    else s.frameEnd p payload e2e hop

/-- FRAME_END_RECEIVED (R131). -/
def execFrameEndReceived (port : Nat) (payload : List Byte) (e2eCrc : Nat) (hopCrc : Option Nat) (s : State) :
    Host.Outcome State Fault Refusal :=
  onUnit (s.portOk port) (s.data fun s => s.lastUnit port payload e2eCrc hopCrc)

/-- FRAME_TRANSMITTED (R149). -/
def execFrameTransmitted (port tile cls : Nat) (s : State) : Host.Outcome State Fault Refusal :=
  onUnit (s.portOk port && decide (tile < 8) && decide (cls < 8)) (s.data fun s => s.transmit port tile cls)

/-! ## Flows (R99–R103) -/

/-- ACK (R99, R444). -/
def execAck (d : Delivery) (s : State) : Host.Outcome State Fault Refusal :=
  .next (s.deliverTo d fun s => s.settleAck d.frame.hdr (ackInfo d.frame.payload))

/-- The flow of a source and a destination that has the seq unsettled: the unicast flow, else the group's. -/
def State.flowOfSeq (s : State) (src dst : Nat × Nat) (job : Nat) (sys : Bool) (seq : Nat) : FlowKey :=
  let k : FlowKey := ⟨src.1, src.2, dst.1, dst.2, job, sys, false⟩
  if (s.txFlow k).open_.any fun u => u.seq == seq then k else { k with mc := true }

/-- RETRANSMIT_TIMEOUT (R100). -/
def execRetransmitTimeout (src dst : Nat × Nat) (job : Nat) (sys : Bool) (seq : Nat) (s : State) :
    Host.Outcome State Fault Refusal :=
  .next (s.data fun s => s.retransmit (s.flowOfSeq src dst job sys seq) seq)

/-- FENCE (R103). -/
def execFence (d : Delivery) (s : State) : Host.Outcome State Fault Refusal :=
  .next (s.deliverTo d fun s => s.fence d.frame)

end Sys2Proof.Machine
end

