-- ==== Sys2Proof/Machine/WorkRows.lean ====
section
/-! DEFINITION. Events of engines, barriers, collectives, training state, the stash, Stozil mode and the pools (chapters 7
and 9 to 12, 18). -/

namespace Sys2Proof.Machine

open Sys2Proof (Delivery JobEnd)

/-! ## Pools (R159, R160) -/

/-- SETT_REQUEST (R160): an arbiter cycle with allocation requests of internal units, and what else the units put to it. -/
def execSettRequest (unit requester : Nat) (ask : PoolAsk) (beside : List PoolOp) (s : State) :
    Host.Outcome State Fault Refusal :=
  let cycle := ⟨ask, unit, requester⟩ :: beside
  onUnit (cycle.all fun o => decide (o.tile < 8)) (s.data (State.arbitrate cycle.length cycle))

/-- SETT_RELEASE (R159): an arbiter cycle of frees, gives, references and releases of internal units. -/
def execSettRelease (unit requester : Nat) (ask : PoolAsk) (beside : List PoolOp) (s : State) :
    Host.Outcome State Fault Refusal :=
  let ops := (⟨ask, unit, requester⟩ :: beside : List PoolOp).filter fun o => o.op != 1
  .next (s.data (State.arbitrate ops.length ops))

/-! ## Barriers (R104) -/

/-- BARRIER_ARRIVE (R104). -/
def execBarrierArrive (d : Delivery) (s : State) : Host.Outcome State Fault Refusal :=
  .next (s.deliverTo d fun s => s.barrierArrive d.frame)

/-- BARRIER_MEMBER_TIMEOUT (R104). -/
def execBarrierMemberTimeout (context : Nat) (s : State) : Host.Outcome State Fault Refusal :=
  .next (s.data fun s => s.barrierTimeout context)

/-! ## Collectives (chapter 10) -/

/-- RED_CONTRIB (R228): `reduction` takes the frame from its queue itself. -/
def execRedContrib (d : Delivery) (s : State) : Host.Outcome State Fault Refusal :=
  .next (s.data fun s => s.reduction d)

/-- RED_PARTIAL (R228). -/
def execRedPartial (d : Delivery) (s : State) : Host.Outcome State Fault Refusal :=
  .next (s.data fun s => s.reduction d)

/-- BENCH_SEAL (R232). -/
def execBenchSeal (context generation chunk : Nat) (s : State) : Host.Outcome State Fault Refusal :=
  .next (s.data fun s => s.sealBench context generation chunk)

/-- COLL_DATA (R227, R233). -/
def execCollData (d : Delivery) (s : State) : Host.Outcome State Fault Refusal :=
  .next (s.deliverTo d fun s => s.rootGather d.frame)

/-- COLL_ABORT_FRAME (R240). -/
def execCollAbortFrame (d : Delivery) (s : State) : Host.Outcome State Fault Refusal :=
  .next (s.deliverTo d fun s => s.abortFrame d.frame)

/-- The idle timeout of the operation that holds a context: a collective's, or a Stozil operation's (R239, R423). -/
def State.memberIdle (s : State) (ctx : Nat) : State :=
  if (s.coll.ops.get? ctx).isSome then s.idleTimeout ctx
  else
    match s.stzByCtx ctx with
    | some n => s.stzIdle n
    | none => s

/-- MEMBER_IDLE_TIMEOUT (R239). -/
def execMemberIdleTimeout (context : Nat) (s : State) : Host.Outcome State Fault Refusal :=
  .next (s.data fun s => s.memberIdle context)

/-! ## Training state (chapter 11) -/

/-- WEIGHT_FETCH (R271). -/
def execWeightFetch (d : Delivery) (s : State) : Host.Outcome State Fault Refusal :=
  .next (s.deliverTo d fun s => s.weightFetch d.frame)

/-- VERSION_RELEASE (R269). -/
def execVersionRelease (d : Delivery) (s : State) : Host.Outcome State Fault Refusal :=
  .next (s.deliverTo d fun s => s.versionRelease d.frame)

/-- NEXT_STEP_OPEN (R265). -/
def execNextStepOpen (block job : Nat) (s : State) : Host.Outcome State Fault Refusal :=
  .next (s.data fun s => s.nextStep job block)

/-- PIECE_COMMIT (R259). -/
def execPieceCommit (block job unit : Nat) (s : State) : Host.Outcome State Fault Refusal :=
  .next (s.data fun s => s.pieceCommit job block unit)

/-- PIECE_RETRY (R258). -/
def execPieceRetry (s : State) : Host.Outcome State Fault Refusal := .next (s.data State.offerPieces)

/-- HOLD_WAIT_END (R253). -/
def execHoldWaitEnd (block job : Nat) (s : State) : Host.Outcome State Fault Refusal :=
  .next (s.data fun s => s.updateFrom job block [4])

/-- HOLD_TIMEOUT (R253). -/
def execHoldTimeout (block job : Nat) (s : State) : Host.Outcome State Fault Refusal :=
  .next (s.data fun s => s.holdExpired job block)

/-- UPDATE_START (R260). -/
def execUpdateStart (block job : Nat) (s : State) : Host.Outcome State Fault Refusal :=
  .next (s.data fun s => s.updateFrom job block [3])

/-! ## The stash (chapter 12) -/

/-- STASH_PUT (R286). -/
def execStashPut (d : Delivery) (s : State) : Host.Outcome State Fault Refusal :=
  .next (s.deliverTo d fun s => s.stashPut d.frame)

/-- STASH_GET (R287). -/
def execStashGet (d : Delivery) (s : State) : Host.Outcome State Fault Refusal :=
  .next (s.deliverTo d fun s => s.stashGet d.frame)

/-- STASH_DROP (R289). -/
def execStashDrop (d : Delivery) (s : State) : Host.Outcome State Fault Refusal :=
  .next (s.deliverTo d fun s => s.stashDrop d.frame)

/-- PUT_TIMEOUT (R282). -/
def execPutTimeout (job holder tag : Nat) (s : State) : Host.Outcome State Fault Refusal :=
  .next (s.data fun s => s.putTimeout job holder tag)

/-- STASH_RELEASE_DRAIN_TIMEOUT (R292). -/
def execStashReleaseDrainTimeout (job : Nat) (s : State) : Host.Outcome State Fault Refusal :=
  .next (s.data fun s => s.stashDrained job)

/-! ## Stozil mode (chapter 18) -/

/-- STOZIL_OP (R413–R421). -/
def execStozilOp (d : Delivery) (s : State) : Host.Outcome State Fault Refusal :=
  .next (s.deliverTo d fun s => s.stozilFrame d)

/-! ## Engines (chapter 9) -/

/-- The step at hand of a run that waits for input is issued once its buffer is full (R206). -/
def State.inputReady (s : State) (ctx bi : Nat) : State :=
  match s.prog? ctx with
  | none => s
  | some p =>
    match p.run.bind fun r => if r.waiting then p.steps[r.step]? else none with
    | some st => if st.ioBuffer = bi then (s.issueStep ctx).goOn ctx else s
    | none => s

/-- The refusal of an ENG_JOB_IN frame: a stale op_id, or a place outside a kind-4 buffer (R206). -/
def State.jobInRefusal (s : State) (f : Frame) : Option Nat :=
  let ctx := f.hdr.opId % 1048576
  let bi := f.hdr.position / 2 ^ 28
  let off := f.hdr.position % 2 ^ 28 * 64
  match s.prog? ctx with
  | none => some Status.contextStale
  | some p =>
    let b := p.buffers.getD bi {}
    if p.job ≠ f.hdr.job ∨ s.opId ctx ≠ f.hdr.opId then some Status.contextStale
    else if b.kind ≠ 4 ∨ b.size ≤ off ∨ ceilDiv b.size 64 * 64 < off + f.payload.length then some Status.descInvalid
    else none

/-- ENG_JOB_IN at endpoint 0xFFF0: the payload is committed into its buffer (R206). -/
def State.jobIn (s : State) (f : Frame) : State :=
  let h := f.hdr
  let ctx := h.opId % 1048576
  let bi := h.position / 2 ^ 28
  let off := h.position % 2 ^ 28 * 64
  if s.duplicate h then s.ackAgain h 0xFFF0
  else
    match s.jobInRefusal f, s.prog? ctx with
    | some st, _ => s.refuseFrame h 0xFFF0 st
    | none, none => s
    | none, some p =>
      let bytes := f.payload.take ((p.buffers.getD bi {}).size - off)
      let s := s.writeBuf p bi off bytes
      let s := s.setProg ctx { p with input := p.input.upd bi 0 (· + bytes.length) }
      (s.commitFrame h 0xFFF0).inputReady ctx bi

/-- ENG_JOB_IN (R206). -/
def execEngJobIn (d : Delivery) (s : State) : Host.Outcome State Fault Refusal :=
  .next (s.deliverTo d fun s => s.jobIn d.frame)

/-- ASSIGNMENT_POINT (R208): ready jobs are assigned and stolen; steps and productions issue what their queues now have room
for. -/
def execAssignmentPoint (s : State) : Host.Outcome State Fault Refusal :=
  .next (s.data fun s => s.assignmentPoint.issueMore)

/-- An engine, by tile × 256 + index. -/
def engineIn (e : Nat) : Bool := decide (e / 256 < 8) && decide (e % 256 < 136)

/-- TICK_JOB_COMPLETE (R201, R213). -/
def execTickJobComplete (engine : Nat) (result : JobEnd) (s : State) : Host.Outcome State Fault Refusal :=
  onUnit (engineIn engine) (s.data fun s => s.engineJobDone (engineKey engine) (result == .good))

/-- ENGINE_TEST_START (R212). -/
def execEngineTestStart (tile : Nat) (s : State) : Host.Outcome State Fault Refusal :=
  onUnit (decide (tile < 8)) (s.data fun s => s.testTurn tile)

/-- ENGINE_TEST_COMPLETE (R212). -/
def execEngineTestComplete (engine : Nat) (pass : Bool) (s : State) : Host.Outcome State Fault Refusal :=
  onUnit (engineIn engine) (s.data fun s => s.testEnd (engineKey engine) pass)

/-- NCU_KERNEL_STEP_COMPLETE (R216). -/
def execNcuKernelStepComplete (channel : Nat) (late : Bool) (s : State) : Host.Outcome State Fault Refusal :=
  onUnit (decide (channel < 128)) (s.data fun s => s.kernelStep channel late)

end Sys2Proof.Machine
end

