-- ==== Sys2Proof/Machine/PowerRows.lean ====
section
/-! DEFINITION. Events of power and heat, of the pins, rails and phases, of the fault collectors and of management (chapters
14 to 17 and 19). -/

namespace Sys2Proof.Machine

open Sys2Proof (PowerSample FaultRep Path)

/-- A compute tile, a clock domain, a rail. -/
def tileIn (t : Nat) : Bool := decide (t < 8)
def domainIn (d : Nat) : Bool := decide (d < 16)
def railIn (r : Nat) : Bool := decide (r < 43)

/-! ## Power and heat (chapter 15) -/

/-- ESTIMATE_DISAGREE_LIMIT (R361). -/
def execEstimateDisagreeLimit (s : State) : Host.Outcome State Fault Refusal := .next s.distrust.settle

/-- ESTIMATE_RETRUST (R361). -/
def execEstimateRetrust (s : State) : Host.Outcome State Fault Refusal := .next s.retrust.settle

/-- DROOP_ASSERT (R357): domains 0–7 are CT0–CT7, 8–15 BT0–BT7. -/
def execDroopAssert (domain : Nat) (s : State) : Host.Outcome State Fault Refusal :=
  onUnit (domainIn domain) (s.droopOn domain).settle

/-- DROOP_CLEAR (R357). -/
def execDroopClear (domain : Nat) (s : State) : Host.Outcome State Fault Refusal :=
  onUnit (domainIn domain) (s.droopOff domain).settle

/-- SLEW_COMPLETE (R353, R358). -/
def execSlewComplete (tile : Nat) (s : State) : Host.Outcome State Fault Refusal :=
  onUnit (tileIn tile) (s.slewComplete tile).settle

/-- FREQ_SWITCH (R353, R358). -/
def execFreqSwitch (tile : Nat) (s : State) : Host.Outcome State Fault Refusal :=
  onUnit (tileIn tile) (s.freqSwitch tile).settle

/-- DEMAND_RAISE_RELEASE (R355). -/
def execDemandRaiseRelease (tile : Nat) (s : State) : Host.Outcome State Fault Refusal :=
  onUnit (tileIn tile) (s.demandRelease tile).settle

/-- THERMAL_SAMPLE (R363): junction sensors 0–67 and packages 68–83. -/
def execThermalSample (sensors : List (Nat × Int)) (s : State) : Host.Outcome State Fault Refusal :=
  onUnit (sensors.all fun x => decide (x.1 < 84)) (s.thermalSample sensors).settle

/-- THERMAL_POINT_STEP (R363). -/
def execThermalPointStep (tile : Nat) (s : State) : Host.Outcome State Fault Refusal :=
  onUnit (tileIn tile) (s.thermalStep tile).settle

/-- THERMAL_TRIP (R364). -/
def execThermalTrip (sensor : Nat) (s : State) : Host.Outcome State Fault Refusal :=
  onUnit (decide (sensor < 68)) (s.thermalTrip sensor).settle

/-- COOLANT_OUT_OF_RANGE (R366). -/
def execCoolantOutOfRange (inlet : Int) (flow : Nat) (s : State) : Host.Outcome State Fault Refusal :=
  .next (s.coolantHold inlet flow).settle

/-- COOLANT_HOLD_RELEASE (R366). -/
def execCoolantHoldRelease (inlet : Int) (flow : Nat) (s : State) : Host.Outcome State Fault Refusal :=
  .next (s.coolantRelease inlet flow).settle

/-- The power controller's own period, until tick join (R359). -/
def State.powerPeriod (s : State) (x : PowerSample) : State :=
  if s.ticking || decide (s.boot.phase < Phase.memory) || s.boot.phase == Phase.failed then s
  else s.applyBubbles.powerTick x

/-- POWER_CONTROL_INTERNAL_PERIOD (R359). -/
def execPowerControlInternalPeriod (sample : PowerSample) (s : State) : Host.Outcome State Fault Refusal :=
  .next (s.powerPeriod sample).settle

/-! ## Pins, rails and phases (chapters 14, 15 and 19) -/

/-- VIN_QUALIFIED (R327, R348). -/
def execVinQualified (inlet : Int) (flow : Nat) (junctions : List (Nat × Int)) (s : State) :
    Host.Outcome State Fault Refusal := .next (s.vinQualified inlet flow junctions).settle

/-- RAIL_STEP_GOOD (R347): steps 1–11. -/
def execRailStepGood (step : Nat) (s : State) : Host.Outcome State Fault Refusal :=
  onUnit (decide (1 ≤ step) && decide (step ≤ 11)) (s.railStepGood step).settle

/-- POWERING_TIMEOUT (R327): 120 ms without every rail good. -/
def execPoweringTimeout (s : State) : Host.Outcome State Fault Refusal :=
  .next (if s.boot.phase = Phase.powering then (s.fail 2).settle else s)

/-- SEQUENCING_FAULT (R350). -/
def execSequencingFault (rail : Nat) (s : State) : Host.Outcome State Fault Refusal :=
  onUnit (railIn rail) (s.sequencingFault (some rail)).settle

/-- RAIL_FAULT (R351). -/
def execRailFault (rail : Nat) (s : State) : Host.Outcome State Fault Refusal :=
  onUnit (railIn rail) (s.railFault rail).settle

/-- INPUT_EXCURSION (R345): a negative voltage is a reversed polarity (R428). -/
def execInputExcursion (centivolts : Int) (s : State) : Host.Outcome State Fault Refusal :=
  .next ((s.polarity (decide (centivolts < 0))).inputLost (centivolts % 65536).toNat 0).settle

/-- INPUT_UNDERVOLTAGE (R345). -/
def execInputUndervoltage (centivolts : Nat) (s : State) : Host.Outcome State Fault Refusal :=
  .next (s.inputLost centivolts 1).settle

/-- AUX_LOSS (R346). -/
def execAuxLoss (s : State) : Host.Outcome State Fault Refusal := .next s.auxDown

/-- AUX_3V3_IN_RANGE (R327). -/
def execAux3v3InRange (s : State) : Host.Outcome State Fault Refusal := .next s.auxUp

/-- RESET_N_LOW (R435). -/
def execResetNLow (s : State) : Host.Outcome State Fault Refusal := .next s.resetLow

/-- RESET_N_HIGH (R327). -/
def execResetNHigh (s : State) : Host.Outcome State Fault Refusal := .next s.resetHigh

/-- REFCLK_PRESENT (R327). -/
def execRefclkPresent (s : State) : Host.Outcome State Fault Refusal :=
  .next ((s.setBoot fun b => { b with refclk := true }).qualify).settle

/-- DOWN_ORDER_STEP (R349): steps 1–11. -/
def execDownOrderStep (step : Nat) (s : State) : Host.Outcome State Fault Refusal :=
  onUnit (decide (1 ≤ step) && decide (step ≤ 11)) (s.downOrderStep step).settle

/-- BOOT_IMAGE_CHECKED (R329, R402). -/
def execBootImageChecked (slot : Nat) (s : State) : Host.Outcome State Fault Refusal := .next (s.bootChecked slot).settle

/-- BOOT_TIMEOUT (R327): 1,850 ms in BOOT. -/
def execBootTimeout (s : State) : Host.Outcome State Fault Refusal :=
  .next (if s.boot.phase = Phase.boot then s.setBoot fun b => { b with phase := Phase.failed, failReason := 1 } else s)

/-- MEMORY_PHASE_DONE (R330, R339). -/
def execMemoryPhaseDone (failedChannels : List Nat) (sramFailed : Bool) (failedEngines : List Nat) (s : State) :
    Host.Outcome State Fault Refusal :=
  onUnit ((failedChannels.all fun c => decide (c < 128)) && failedEngines.all engineIn)
    (s.memoryDone failedChannels sramFailed failedEngines).settle

/-- An IEEE 1149.1 instruction: BYPASS 0, IDCODE 1, SAMPLE/PRELOAD 2, EXTEST 3; EXTEST only while RESET_N is low (R407). -/
def State.tapLoad (s : State) (code : Nat) : State :=
  if code < 3 ∨ (code = 3 ∧ ¬s.boot.resetN) then s.setBoot fun b => { b with tap := code } else s

/-- TAP_INSTRUCTION (R407). -/
def execTapInstruction (code : Nat) (s : State) : Host.Outcome State Fault Refusal := .next (s.tapLoad code)

/-! ## Fault collection (chapter 16) -/

/-- An uncorrectable error in a slot of the mailbox SRAM: its command fails BAD_SLOT (Table 16.1). -/
def State.slotSpoiled (s : State) (r : FaultRep) : State :=
  if r.cls = 25 ∧ ringBase 0 ≤ r.addr ∧ r.addr < ringBase 64 then
    let m := (r.addr - ringBase 0) / 0x4000
    let i := (r.addr - ringBase 0) % 0x4000 / 64
    let hit : Ctx → Bool := fun x => x.hdr.path == Path.mailbox m && x.hdr.number % 256 == i && x.state == CtxState.waiting
    let spoil : Ctx → Ctx := fun x => if hit x then { x with bad := Status.badSlot } else x
    let s := s.setHost fun h => { h with ctxs := h.ctxs.map spoil }
    s.setMbox m fun b => { b with slots := b.slots.set i (List.replicate 64 0xFF) }
  else s

/-- FAULT_RAISED (R371): the classes of Table 16.1. -/
def execFaultRaised (rep : FaultRep) (s : State) : Host.Outcome State Fault Refusal :=
  onUnit (decide (rep.cls < 28)) ((s.slotSpoiled rep).faultRaised rep).settle

/-- DUAL_RAIL_STUCK (R370): the error line of the unit with this master ID. -/
def execDualRailStuck (master : Nat) (s : State) : Host.Outcome State Fault Refusal :=
  onUnit (decide (master < 65536)) (s.faultRaised { cls := 27, master := master }).settle

/-- SAFE_STATE_DP_RESET (R373): not in headless mode. -/
def execSafeStateDpReset (s : State) : Host.Outcome State Fault Refusal :=
  .next (if s.isSafe && s.flt.safeLevel == 4 && !s.flt.headless && s.boot.kept.isNone then s.dataPlaneReset.settle else s)

/-- SAFE_STATE_MODULE_RESET (R373): not in headless mode. -/
def execSafeStateModuleReset (s : State) : Host.Outcome State Fault Refusal :=
  .next (if s.isSafe && s.flt.safeLevel == 5 && !s.flt.headless then s.moduleReset else s)

/-- INJECTION_ROUND (R380). -/
def execInjectionRound (s : State) : Host.Outcome State Fault Refusal := .next s.injectionRound.settle

/-- INJECTION_NOT_SEEN (R380). -/
def execInjectionNotSeen (master : Nat) (s : State) : Host.Outcome State Fault Refusal :=
  onUnit (decide (master < 65536)) (s.injectionMissed master).settle

/-- FLT_INJECT_TIMEOUT (R381). -/
def execFltInjectTimeout (s : State) : Host.Outcome State Fault Refusal := .next s.injectTimeout.settle

/-- MC_MARCH_DONE (R385). -/
def execMcMarchDone (channel : Nat) (failed : Bool) (s : State) : Host.Outcome State Fault Refusal :=
  onUnit (decide (channel < 128)) (s.marchDone channel failed).settle

/-- CHANNEL_MIGRATION_DONE (R384). -/
def execChannelMigrationDone (channel : Nat) (unreadable : List Nat) (s : State) : Host.Outcome State Fault Refusal :=
  onUnit (decide (channel < 128)) (s.migrationDone channel unreadable).settle

/-! ## Management (chapter 17) -/

/-- MGT_WATCHDOG_EXPIRED (R389): a fault of class MGT. -/
def execMgtWatchdogExpired (s : State) : Host.Outcome State Fault Refusal :=
  .next (if s.managed then (s.faultRaised { cls := 24, master := masterId 9 15 0 }).settle else s)

/-- HEADLESS_TIMEOUT (R386). -/
def execHeadlessTimeout (s : State) : Host.Outcome State Fault Refusal := .next s.headlessOver.settle

/-- SENSOR_SAMPLE (R391): the sensors of Table 17.1. -/
def execSensorSample (values : List (Nat × Option Nat)) (s : State) : Host.Outcome State Fault Refusal :=
  onUnit (values.all fun x => decide (x.1 < 338)) (s.sensorSample values).settle

end Sys2Proof.Machine
end

