-- ==== Sys2Proof/Machine/Dispatch.lean ====
section
/-! DEFINITION. One arm per command of Table of operations and events: each calls its own meaning. -/

namespace Sys2Proof.Machine

def exec (i : Instr) (s : State) : Host.Outcome State Fault Refusal :=
  match i with
  | .setupCarve h packet reduction staging stozil => Sys2Proof.Machine.execSetupCarve h packet reduction staging stozil s
  | .resetModule h => Sys2Proof.Machine.execResetModule h s
  | .moduleResetShutdown => Sys2Proof.Machine.execModuleResetShutdown s
  | .resetDataPlane h => Sys2Proof.Machine.execResetDataPlane h s
  | .resetTile h tile => Sys2Proof.Machine.execResetTile h tile s
  | .tileResetComplete tile failed => Sys2Proof.Machine.execTileResetComplete tile failed s
  | .resetPort h port => Sys2Proof.Machine.execResetPort h port s
  | .tickRejoin h => Sys2Proof.Machine.execTickRejoin h s
  | .linkEnable h port => Sys2Proof.Machine.execLinkEnable h port s
  | .linkDisable h port => Sys2Proof.Machine.execLinkDisable h port s
  | .linkHedge h scope port job node ep => Sys2Proof.Machine.execLinkHedge h scope port job node ep s
  | .linkLift h scope port job node ep => Sys2Proof.Machine.execLinkLift h scope port job node ep s
  | .laneRetire h lane => Sys2Proof.Machine.execLaneRetire h lane s
  | .laneRestore h lane => Sys2Proof.Machine.execLaneRestore h lane s
  | .laneTest h lane retireAfter ticks out => Sys2Proof.Machine.execLaneTest h lane retireAfter ticks out s
  | .laneTestEnd lane => Sys2Proof.Machine.execLaneTestEnd lane s
  | .laneLsmRelease h lsm => Sys2Proof.Machine.execLaneLsmRelease h lsm s
  | .lsmReleaseDrained lsm => Sys2Proof.Machine.execLsmReleaseDrained lsm s
  | .topoLoad h plan => Sys2Proof.Machine.execTopoLoad h plan s
  | .topoReadmit h node => Sys2Proof.Machine.execTopoReadmit h node s
  | .routeReseed h seed => Sys2Proof.Machine.execRouteReseed h seed s
  | .schedReserve h port reserve => Sys2Proof.Machine.execSchedReserve h port reserve s
  | .poolSetup h p1 p2 p3 modes p4count p4base => Sys2Proof.Machine.execPoolSetup h p1 p2 p3 modes p4count p4base s
  | .poolQuota h requester pool minSetts maxSetts => Sys2Proof.Machine.execPoolQuota h requester pool minSetts maxSetts s
  | .poolBind h requester job => Sys2Proof.Machine.execPoolBind h requester job s
  | .poolAlloc h requester tile spill size => Sys2Proof.Machine.execPoolAlloc h requester tile spill size s
  | .poolFree h requester addr => Sys2Proof.Machine.execPoolFree h requester addr s
  | .poolGive h requester recipient addr => Sys2Proof.Machine.execPoolGive h requester recipient addr s
  | .poolRef h n addr => Sys2Proof.Machine.execPoolRef h n addr s
  | .poolStatus h pool requester out => Sys2Proof.Machine.execPoolStatus h pool requester out s
  | .settRequest unit requester ask beside => Sys2Proof.Machine.execSettRequest unit requester ask beside s
  | .settRelease unit requester ask beside => Sys2Proof.Machine.execSettRelease unit requester ask beside s
  | .engLoad h job image => Sys2Proof.Machine.execEngLoad h job image s
  | .engUnload h opId => Sys2Proof.Machine.execEngUnload h opId s
  | .engRun h opId => Sys2Proof.Machine.execEngRun h opId s
  | .engAbort h opId => Sys2Proof.Machine.execEngAbort h opId s
  | .engKernel h kernel image streams => Sys2Proof.Machine.execEngKernel h kernel image streams s
  | .engRetire h engine => Sys2Proof.Machine.execEngRetire h engine s
  | .engRestore h engine => Sys2Proof.Machine.execEngRestore h engine s
  | .engTest h engine => Sys2Proof.Machine.execEngTest h engine s
  | .collOpen h job firstGen context image => Sys2Proof.Machine.execCollOpen h job firstGen context image s
  | .collClose h context => Sys2Proof.Machine.execCollClose h context s
  | .collAbort h opId => Sys2Proof.Machine.execCollAbort h opId s
  | .collStatus h context out => Sys2Proof.Machine.execCollStatus h context out s
  | .collBarrier h job group context members table => Sys2Proof.Machine.execCollBarrier h job group context members table s
  | .paramDeclare h image => Sys2Proof.Machine.execParamDeclare h image s
  | .paramInit h block job region zeroFill data => Sys2Proof.Machine.execParamInit h block job region zeroFill data s
  | .paramRead h block job region data => Sys2Proof.Machine.execParamRead h block job region data s
  | .paramOptimizer h image => Sys2Proof.Machine.execParamOptimizer h image s
  | .paramProgram h block job slot opId => Sys2Proof.Machine.execParamProgram h block job slot opId s
  | .paramPublish h block job => Sys2Proof.Machine.execParamPublish h block job s
  | .paramClose h block job => Sys2Proof.Machine.execParamClose h block job s
  | .paramUpdate h block job => Sys2Proof.Machine.execParamUpdate h block job s
  | .paramDiscard h block job => Sys2Proof.Machine.execParamDiscard h block job s
  | .paramEvict h block job => Sys2Proof.Machine.execParamEvict h block job s
  | .paramSpoil h block job mask => Sys2Proof.Machine.execParamSpoil h block job mask s
  | .paramHyper h block job multiplier => Sys2Proof.Machine.execParamHyper h block job multiplier s
  | .paramStatus h block job out => Sys2Proof.Machine.execParamStatus h block job out s
  | .paramRetire h block job => Sys2Proof.Machine.execParamRetire h block job s
  | .stashReserve h job extentLog2 maxEntries reservedBytes limitBytes => Sys2Proof.Machine.execStashReserve h job extentLog2 maxEntries reservedBytes limitBytes s
  | .stashRelease h job => Sys2Proof.Machine.execStashRelease h job s
  | .stashReleaseDrainTimeout job => Sys2Proof.Machine.execStashReleaseDrainTimeout job s
  | .stashPurge h job rank tag mask => Sys2Proof.Machine.execStashPurge h job rank tag mask s
  | .stashStatus h job out => Sys2Proof.Machine.execStashStatus h job out s
  | .stashEntry h job rank tag out => Sys2Proof.Machine.execStashEntry h job rank tag out s
  | .pwrPhase h phase tileMask => Sys2Proof.Machine.execPwrPhase h phase tileMask s
  | .pwrCap h limitW => Sys2Proof.Machine.execPwrCap h limitW s
  | .fltSeverity h source level => Sys2Proof.Machine.execFltSeverity h source level s
  | .fltInject h source => Sys2Proof.Machine.execFltInject h source s
  | .fltInjectTimeout => Sys2Proof.Machine.execFltInjectTimeout s
  | .fltClear h mask => Sys2Proof.Machine.execFltClear h mask s
  | .mgtImageWrite h slot offset data inlined => Sys2Proof.Machine.execMgtImageWrite h slot offset data inlined s
  | .mgtImageActivate h slot => Sys2Proof.Machine.execMgtImageActivate h slot s
  | .mgtAttest h nonce out => Sys2Proof.Machine.execMgtAttest h nonce out s
  | .mgtLogRead h first count out => Sys2Proof.Machine.execMgtLogRead h first count out s
  | .mboxBind h mailbox priority events qp dataQp ring => Sys2Proof.Machine.execMboxBind h mailbox priority events qp dataQp ring s
  | .mboxUnbind h mailbox => Sys2Proof.Machine.execMboxUnbind h mailbox s
  | .mboxCancel h mailbox number => Sys2Proof.Machine.execMboxCancel h mailbox number s
  | .mboxNop h => Sys2Proof.Machine.execMboxNop h s
  | .mboxStatus h mailbox => Sys2Proof.Machine.execMboxStatus h mailbox s
  | .hostPortConfig h port flags pfcPriority vlan ipv4 ipv6 => Sys2Proof.Machine.execHostPortConfig h port flags pfcPriority vlan ipv4 ipv6 s
  | .hostQpOpen h port dscp mtu hostQpn hostPsn dstMac hostGid => Sys2Proof.Machine.execHostQpOpen h port dscp mtu hostQpn hostPsn dstMac hostGid s
  | .hostQpClose h qp => Sys2Proof.Machine.execHostQpClose h qp s
  | .jobAdmit h rcd => Sys2Proof.Machine.execJobAdmit h rcd s
  | .jobEnd h job => Sys2Proof.Machine.execJobEnd h job s
  | .jobEndComplete job => Sys2Proof.Machine.execJobEndComplete job s
  | .jobStatus h job out => Sys2Proof.Machine.execJobStatus h job out s
  | .funcDisable h function job drainTicks => Sys2Proof.Machine.execFuncDisable h function job drainTicks s
  | .funcDisableDrained function job => Sys2Proof.Machine.execFuncDisableDrained function job s
  | .drainTimeout function job => Sys2Proof.Machine.execDrainTimeout function job s
  | .funcEnable h function job => Sys2Proof.Machine.execFuncEnable h function job s
  | .funcStatus h function job => Sys2Proof.Machine.execFuncStatus h function job s
  | .regRead h addr words out => Sys2Proof.Machine.execRegRead h addr words out s
  | .regWrite h addr value => Sys2Proof.Machine.execRegWrite h addr value s
  | .tickEnableWrite h => Sys2Proof.Machine.execTickEnableWrite h s
  | .tickPeriodWrite h period => Sys2Proof.Machine.execTickPeriodWrite h period s
  | .tickCountRead h => Sys2Proof.Machine.execTickCountRead h s
  | .poolLowWaterRead h pool => Sys2Proof.Machine.execPoolLowWaterRead h pool s
  | .memarbShareWrite h value => Sys2Proof.Machine.execMemarbShareWrite h value s
  | .engSrSeedWrite h seed => Sys2Proof.Machine.execEngSrSeedWrite h seed s
  | .fltStatusClear h mask => Sys2Proof.Machine.execFltStatusClear h mask s
  | .fltMcRetire h channel => Sys2Proof.Machine.execFltMcRetire h channel s
  | .fltMcTest h channel => Sys2Proof.Machine.execFltMcTest h channel s
  | .mcMarchDone channel failed => Sys2Proof.Machine.execMcMarchDone channel failed s
  | .fltMcRestore h channel => Sys2Proof.Machine.execFltMcRestore h channel s
  | .mgtSensorClearPeaks h => Sys2Proof.Machine.execMgtSensorClearPeaks h s
  | .doorbell mailbox qp key d reads => Sys2Proof.Machine.execDoorbell mailbox qp key d reads s
  | .mailboxSend mailbox qp slots reads => Sys2Proof.Machine.execMailboxSend mailbox qp slots reads s
  | .hostRdmaAccess qp key addr write len => Sys2Proof.Machine.execHostRdmaAccess qp key addr write len s
  | .commandAged mailbox number => Sys2Proof.Machine.execCommandAged mailbox number s
  | .effectiveTickReached => Sys2Proof.Machine.execEffectiveTickReached s
  | .sidebandSlotWrite slot => Sys2Proof.Machine.execSidebandSlotWrite slot s
  | .sidebandStatusRead => Sys2Proof.Machine.execSidebandStatusRead s
  | .hostFrameReceived port frame => Sys2Proof.Machine.execHostFrameReceived port frame s
  | .cnpReceived qp => Sys2Proof.Machine.execCnpReceived qp s
  | .rateRecoveryTimer qp => Sys2Proof.Machine.execRateRecoveryTimer qp s
  | .qpRetryExhausted qp => Sys2Proof.Machine.execQpRetryExhausted qp s
  | .losAssert lane => Sys2Proof.Machine.execLosAssert lane s
  | .losClear lane => Sys2Proof.Machine.execLosClear lane s
  | .lolAssert lane => Sys2Proof.Machine.execLolAssert lane s
  | .lolClear lane => Sys2Proof.Machine.execLolClear lane s
  | .detectLightQualified lane => Sys2Proof.Machine.execDetectLightQualified lane s
  | .trainComplete port => Sys2Proof.Machine.execTrainComplete port s
  | .trainTimeout port => Sys2Proof.Machine.execTrainTimeout port s
  | .lockAchieved port => Sys2Proof.Machine.execLockAchieved port s
  | .lockTimeout port => Sys2Proof.Machine.execLockTimeout port s
  | .capabilitySet port heard => Sys2Proof.Machine.execCapabilitySet port heard s
  | .exchangeTimeout port => Sys2Proof.Machine.execExchangeTimeout port s
  | .widthRequest port usable => Sys2Proof.Machine.execWidthRequest port usable s
  | .widthAck port usable width => Sys2Proof.Machine.execWidthAck port usable width s
  | .widthStepSwitch port => Sys2Proof.Machine.execWidthStepSwitch port s
  | .widthMarker port => Sys2Proof.Machine.execWidthMarker port s
  | .widthAckTimeout port => Sys2Proof.Machine.execWidthAckTimeout port s
  | .laneRestoreHoldElapsed lane => Sys2Proof.Machine.execLaneRestoreHoldElapsed lane s
  | .laneAutoRetire lane => Sys2Proof.Machine.execLaneAutoRetire lane s
  | .retirementWindowEnd => Sys2Proof.Machine.execRetirementWindowEnd s
  | .creditUpdate port granted => Sys2Proof.Machine.execCreditUpdate port granted s
  | .laserSample reads => Sys2Proof.Machine.execLaserSample reads s
  | .spareLaserSwitched lsm => Sys2Proof.Machine.execSpareLaserSwitched lsm s
  | .lsmLatchOpen lsm => Sys2Proof.Machine.execLsmLatchOpen lsm s
  | .lsmLatchClose lsm idOk ident => Sys2Proof.Machine.execLsmLatchClose lsm idOk ident s
  | .lsmLasersLit lsm => Sys2Proof.Machine.execLsmLasersLit lsm s
  | .tickBoundary inp => Sys2Proof.Machine.execTickBoundary inp s
  | .tsosReceived port crcOk seq tTx echoSeq echoTx echoRx arrival => Sys2Proof.Machine.execTsosReceived port crcOk seq tTx echoSeq echoTx echoRx arrival s
  | .parentLost => Sys2Proof.Machine.execParentLost s
  | .tickAnnounce port announce => Sys2Proof.Machine.execTickAnnounce port announce s
  | .announceTimer => Sys2Proof.Machine.execAnnounceTimer s
  | .joinTimeout => Sys2Proof.Machine.execJoinTimeout s
  | .rootSeqStale => Sys2Proof.Machine.execRootSeqStale s
  | .holdLimitExpired => Sys2Proof.Machine.execHoldLimitExpired s
  | .hello port disc => Sys2Proof.Machine.execHello port disc s
  | .helloReply port disc => Sys2Proof.Machine.execHelloReply port disc s
  | .helloNoReplyTimeout port => Sys2Proof.Machine.execHelloNoReplyTimeout port s
  | .pendingLimitExpired => Sys2Proof.Machine.execPendingLimitExpired s
  | .linkState port disc => Sys2Proof.Machine.execLinkState port disc s
  | .digestTimer => Sys2Proof.Machine.execDigestTimer s
  | .digest port disc => Sys2Proof.Machine.execDigest port disc s
  | .groupSetup d => Sys2Proof.Machine.execGroupSetup d s
  | .frameHeaderReceived port firstByte hdr extn => Sys2Proof.Machine.execFrameHeaderReceived port firstByte hdr extn s
  | .frameEndReceived port payload e2eCrc hopCrc => Sys2Proof.Machine.execFrameEndReceived port payload e2eCrc hopCrc s
  | .frameTransmitted port tile cls => Sys2Proof.Machine.execFrameTransmitted port tile cls s
  | .ack d => Sys2Proof.Machine.execAck d s
  | .retransmitTimeout src dst job sys seq => Sys2Proof.Machine.execRetransmitTimeout src dst job sys seq s
  | .fence d => Sys2Proof.Machine.execFence d s
  | .barrierArrive d => Sys2Proof.Machine.execBarrierArrive d s
  | .barrierMemberTimeout context => Sys2Proof.Machine.execBarrierMemberTimeout context s
  | .redContrib d => Sys2Proof.Machine.execRedContrib d s
  | .redPartial d => Sys2Proof.Machine.execRedPartial d s
  | .benchSeal context generation chunk => Sys2Proof.Machine.execBenchSeal context generation chunk s
  | .collData d => Sys2Proof.Machine.execCollData d s
  | .collAbortFrame d => Sys2Proof.Machine.execCollAbortFrame d s
  | .memberIdleTimeout context => Sys2Proof.Machine.execMemberIdleTimeout context s
  | .weightFetch d => Sys2Proof.Machine.execWeightFetch d s
  | .versionRelease d => Sys2Proof.Machine.execVersionRelease d s
  | .stashPut d => Sys2Proof.Machine.execStashPut d s
  | .stashGet d => Sys2Proof.Machine.execStashGet d s
  | .stashDrop d => Sys2Proof.Machine.execStashDrop d s
  | .putTimeout job holder tag => Sys2Proof.Machine.execPutTimeout job holder tag s
  | .engJobIn d => Sys2Proof.Machine.execEngJobIn d s
  | .mgmt d => Sys2Proof.Machine.execMgmt d s
  | .stozilOp d => Sys2Proof.Machine.execStozilOp d s
  | .assignmentPoint => Sys2Proof.Machine.execAssignmentPoint s
  | .tickJobComplete engine result => Sys2Proof.Machine.execTickJobComplete engine result s
  | .engineTestStart tile => Sys2Proof.Machine.execEngineTestStart tile s
  | .engineTestComplete engine pass => Sys2Proof.Machine.execEngineTestComplete engine pass s
  | .ncuKernelStepComplete channel late => Sys2Proof.Machine.execNcuKernelStepComplete channel late s
  | .nextStepOpen block job => Sys2Proof.Machine.execNextStepOpen block job s
  | .pieceCommit block job unit => Sys2Proof.Machine.execPieceCommit block job unit s
  | .pieceRetry => Sys2Proof.Machine.execPieceRetry s
  | .holdWaitEnd block job => Sys2Proof.Machine.execHoldWaitEnd block job s
  | .holdTimeout block job => Sys2Proof.Machine.execHoldTimeout block job s
  | .updateStart block job => Sys2Proof.Machine.execUpdateStart block job s
  | .estimateDisagreeLimit => Sys2Proof.Machine.execEstimateDisagreeLimit s
  | .estimateRetrust => Sys2Proof.Machine.execEstimateRetrust s
  | .droopAssert domain => Sys2Proof.Machine.execDroopAssert domain s
  | .droopClear domain => Sys2Proof.Machine.execDroopClear domain s
  | .slewComplete tile => Sys2Proof.Machine.execSlewComplete tile s
  | .freqSwitch tile => Sys2Proof.Machine.execFreqSwitch tile s
  | .demandRaiseRelease tile => Sys2Proof.Machine.execDemandRaiseRelease tile s
  | .thermalSample sensors => Sys2Proof.Machine.execThermalSample sensors s
  | .thermalPointStep tile => Sys2Proof.Machine.execThermalPointStep tile s
  | .thermalTrip sensor => Sys2Proof.Machine.execThermalTrip sensor s
  | .coolantOutOfRange inlet flow => Sys2Proof.Machine.execCoolantOutOfRange inlet flow s
  | .coolantHoldRelease inlet flow => Sys2Proof.Machine.execCoolantHoldRelease inlet flow s
  | .vinQualified inlet flow junctions => Sys2Proof.Machine.execVinQualified inlet flow junctions s
  | .railStepGood step => Sys2Proof.Machine.execRailStepGood step s
  | .poweringTimeout => Sys2Proof.Machine.execPoweringTimeout s
  | .sequencingFault rail => Sys2Proof.Machine.execSequencingFault rail s
  | .railFault rail => Sys2Proof.Machine.execRailFault rail s
  | .inputExcursion centivolts => Sys2Proof.Machine.execInputExcursion centivolts s
  | .inputUndervoltage centivolts => Sys2Proof.Machine.execInputUndervoltage centivolts s
  | .auxLoss => Sys2Proof.Machine.execAuxLoss s
  | .resetNLow => Sys2Proof.Machine.execResetNLow s
  | .resetNHigh => Sys2Proof.Machine.execResetNHigh s
  | .bootImageChecked slot => Sys2Proof.Machine.execBootImageChecked slot s
  | .bootTimeout => Sys2Proof.Machine.execBootTimeout s
  | .memoryPhaseDone failedChannels sramFailed failedEngines => Sys2Proof.Machine.execMemoryPhaseDone failedChannels sramFailed failedEngines s
  | .faultRaised rep => Sys2Proof.Machine.execFaultRaised rep s
  | .dualRailStuck master => Sys2Proof.Machine.execDualRailStuck master s
  | .safeStateDpReset => Sys2Proof.Machine.execSafeStateDpReset s
  | .safeStateModuleReset => Sys2Proof.Machine.execSafeStateModuleReset s
  | .injectionRound => Sys2Proof.Machine.execInjectionRound s
  | .injectionNotSeen master => Sys2Proof.Machine.execInjectionNotSeen master s
  | .channelMigrationDone channel unreadable => Sys2Proof.Machine.execChannelMigrationDone channel unreadable s
  | .mgtWatchdogExpired => Sys2Proof.Machine.execMgtWatchdogExpired s
  | .headlessTimeout => Sys2Proof.Machine.execHeadlessTimeout s
  | .sensorSample values => Sys2Proof.Machine.execSensorSample values s
  | .aux3v3InRange => Sys2Proof.Machine.execAux3v3InRange s
  | .refclkPresent => Sys2Proof.Machine.execRefclkPresent s
  | .downOrderStep step => Sys2Proof.Machine.execDownOrderStep step s
  | .hostPortLinkChange port up => Sys2Proof.Machine.execHostPortLinkChange port up s
  | .localAckTimeout qp => Sys2Proof.Machine.execLocalAckTimeout qp s
  | .powerControlInternalPeriod sample => Sys2Proof.Machine.execPowerControlInternalPeriod sample s
  | .dynamicAddressAssignment addr static => Sys2Proof.Machine.execDynamicAddressAssignment addr static s
  | .tapInstruction code => Sys2Proof.Machine.execTapInstruction code s

end Sys2Proof.Machine
end

