-- ==== Sys2Proof/Safety.lean ====
section
/-! DEFINITION. The terms in which claims are stated: what a step may change, when a command of a host is taken at once, and
how it ends. -/

namespace Sys2Proof.Machine

open Sys2Proof (Instr CmdHdr Path)

/-! ## Parts of the state -/

/-- The parts of the state, by the chapters of the spec that name them. -/
inductive Part where
  | queue | fresh | regs | tick | link | boot | flt | mgt | host | topo | flow | sw | pool | eng | coll | parm | stash | stz
  | pwr | ctxs | mem | out
  deriving DecidableEq, Repr

/-- One part is equal in two states. -/
def State.same (s t : State) : Part → Prop
  | .queue => t.pending = s.pending
  | .fresh => t.fresh = s.fresh
  | .regs => t.regs = s.regs
  | .tick => t.tick = s.tick
  | .link => t.link = s.link
  | .boot => t.boot = s.boot
  | .flt => t.flt = s.flt
  | .mgt => t.mgt = s.mgt
  | .host => t.host = s.host
  | .topo => t.topo = s.topo
  | .flow => t.flow = s.flow
  | .sw => t.sw = s.sw
  | .pool => t.pool = s.pool
  | .eng => t.eng = s.eng
  | .coll => t.coll = s.coll
  | .parm => t.parm = s.parm
  | .stash => t.stash = s.stash
  | .stz => t.stz = s.stz
  | .pwr => t.pwr = s.pwr
  | .ctxs => t.ctxUse = s.ctxUse ∧ t.ctxGen = s.ctxGen
  | .mem => t.mem = s.mem ∧ t.undef = s.undef
  | .out => t.out = s.out

/-- From `s` to `t` nothing changes but the parts listed. -/
def State.keepsBut (changed : List Part) (s t : State) : Prop := ∀ p : Part, p ∈ changed ∨ s.same t p

/-- The parts that a frame may change when it is sent or taken from its queue: flows, the switch with its cells, what Stozil
mode notes of its operations, counters and draws, and what a refused pool operation leaves in the log and reports. -/
def frameParts : List Part := [.flow, .sw, .pool, .stz, .regs, .fresh, .mgt, .out, .flt]

/-- What a counter reads when `n` has been added to it: it saturates at its width (R70, R128, R151, R169). -/
def State.countedUp (s : State) (r : Reg) (i : Nat) (n : Nat := 1) : Nat := min (s.reg r i + n) (2 ^ r.counterWidth - 1)

/-! ## Commands of hosts -/

/-- The context that a host's command enters. -/
def State.ctxFor (s : State) (c : Instr) (h : CmdHdr) : Ctx := { id := s.host.nextId, cmd := c, hdr := h, code := codeOf c }

/-- The state with the command in its context, started (R305, R311, R315). -/
def State.withCommand (s : State) (c : Instr) (h : CmdHdr) : State :=
  (if h.path = .sideband then s.sideTake else s).setHost fun t => { t with
    ctxs := [{ s.ctxFor c h with state := .started (.object false) }], nextId := t.nextId + 1 }

/-- The path can take a command: one of 64 mailboxes, the sideband while it is not busy (R315), the fabric. -/
def State.pathFree (s : State) : Path → Bool
  | .mailbox m => decide (m < 64)
  | .sideband => !s.host.side.busy
  | .fabric _ _ _ _ _ => true

/-- A command is taken at once: the device answers, no other command is in it, the path is free, no effective tick or boundary
holds it, and checks 1 to 7 of Table 13.5 pass. -/
def State.takesNow (s : State) (c : Instr) (h : CmdHdr) : Bool :=
  s.answering && s.host.ctxs.isEmpty && s.pathFree h.path && h.effTick == 0 && !(s.ticking && s.atBoundary c) &&
  (s.checks (s.ctxFor c h)).isNone

/-- The command `c` runs on `s`: its effect leads to `u`, where it completes with a status, a detail and values (R308); then
the machine settles. -/
def Completes (s : State) (c : Instr) (h : CmdHdr) (u : State) (status : Nat) (result : List Sys2Proof.Byte := [])
    (detail : Nat := 0) : Prop :=
  exec c s = .next ((u.complete (s.ctxFor c h) status detail result).settle)

/-- The command `c` runs on `s`: its effect leads to `u`, where it waits for `k` with the values it will return; then the
machine settles. -/
def Waits (s : State) (c : Instr) (u : State) (k : WaitKey) (result : List Sys2Proof.Byte := [])
    (made : Option Nat := none) : Prop :=
  exec c s = .next ((u.setCtx s.host.nextId fun y => { y with
    state := .started k, result := result, made := made }).settle)

/-- The command `c` completes on `s` with OK and the values of `result`; from the state with the command in it nothing has
changed but the parts listed, and `p` holds of what its effect has led to. -/
def Ends (s : State) (c : Instr) (h : CmdHdr) (result : List Sys2Proof.Byte) (changed : List Part) (p : State → Prop) :
    Prop :=
  ∃ u, Completes s c h u Status.ok result ∧ (s.withCommand c h).keepsBut changed u ∧ p u

/-- The command `c` completes on `s` with a status other than OK, and has done nothing else. -/
def Refuses (s : State) (c : Instr) (h : CmdHdr) (status : Nat) (detail : Nat := 0) : Prop :=
  Completes s c h (s.withCommand c h) status [] detail

/-- The command `c` answers on `s` with a record for a reference: one that is too short is refused; else the record is written
through it, and a write that fails has its own status (R27, R309). -/
def Reports (s : State) (c : Instr) (h : CmdHdr) (u : State) (r : Sys2Proof.Ref) (record : List Sys2Proof.Byte) : Prop :=
  (r.len < record.length → Completes s c h u Status.descInvalid) ∧
  (record.length ≤ r.len →
    Completes s c h (u.writeRef c h r record).2
      (if (u.writeRef c h r record).1 = true then Status.ok else u.refStatus r record.length))

/-- The command that a slot of 64 bytes spells enters a context (R305, R306). -/
def State.arriveSlot (s : State) (slot : List Sys2Proof.Byte) (path : Path) (number : Nat) (countOk : Bool) : State :=
  let x := parseSlot slot path number countOk []
  s.arrive x.1 x.2.1 x.2.2.1 x.2.2.2

/-- The event `c` leads from `s` to `u`; then the machine settles. -/
def Leads (s : State) (c : Instr) (u : State) : Prop := exec c s = .next u.settle

/-! ## Frames delivered to this module -/

/-- The data plane runs, the frame is at the head of its queue and in its turn, and its endpoint has not refused it before
(R99, R132, R141). -/
def State.reaches (s : State) (d : Sys2Proof.Delivery) : Bool :=
  !s.isSafe && s.deliverable d && ((s.takeInternal d).refusedBefore d.frame.hdr).isNone

/-- The frame reaches its endpoint and was not settled here before: the endpoint judges it (R98). -/
def State.newFrame (s : State) (d : Sys2Proof.Delivery) : Bool := s.reaches d && !s.duplicate d.frame.hdr

/-- The frame names the running instance `i` of the operation `c` whose root this module is (R222). -/
def State.runs (s : State) (f : Frame) (c : CollSt) (i : InstSt) : Prop :=
  s.coll.ops.get? (f.hdr.opId % 1048576) = some c ∧ c.inst = some i ∧ i.gen = f.hdr.opId / 1048576 ∧ c.desc.root = s.me

/-! ## Rows as wholes -/

/-- The units of the module that a physical event names exist: lanes, ports, tiles, engines, channels, laser source modules,
sensors, domains, rails, steps of an order, classes and master IDs. -/
def State.hasUnits (s : State) : Instr → Bool
  | .losAssert n | .losClear n | .lolAssert n | .lolClear n | .detectLightQualified n | .laneRestoreHoldElapsed n
  | .laneAutoRetire n | .laneTestEnd n => s.laneOk n
  | .hello p _ | .helloReply p _ | .helloNoReplyTimeout p | .linkState p _ | .digest p _ | .frameHeaderReceived p _ _ _
  | .frameEndReceived p _ _ _ | .tickAnnounce p _ | .tsosReceived p _ _ _ _ _ _ _ | .trainComplete p | .trainTimeout p
  | .lockAchieved p | .lockTimeout p | .exchangeTimeout p | .widthRequest p _ | .widthAck p _ _
  | .widthStepSwitch p | .widthMarker p | .widthAckTimeout p | .creditUpdate p _ => s.portOk p
  | .capabilitySet p x => s.portOk p && s.laneOk x.lane
  | .frameTransmitted p k c => s.portOk p && decide (k < 8) && decide (c < 8)
  | .hostFrameReceived p _ | .hostPortLinkChange p _ => hostPortOk p
  | .tickBoundary inp => inp.fec.all fun f => s.laneOk f.lane
  | .laserSample reads => reads.all fun r => lsmOk r.lsm && decide (r.laser < 5)
  | .spareLaserSwitched j | .lsmLatchOpen j | .lsmLatchClose j _ _ | .lsmLasersLit j | .lsmReleaseDrained j => lsmOk j
  | .tileResetComplete k failed => decide (k < 8) && failed.all fun i => decide (i < 136)
  | .settRequest _ _ ask beside => decide (ask.tile < 8) && beside.all fun o => decide (o.tile < 8)
  | .engineTestStart k => decide (k < 8)
  | .slewComplete k | .freqSwitch k | .demandRaiseRelease k | .thermalPointStep k => tileIn k
  | .tickJobComplete e _ | .engineTestComplete e _ => engineIn e
  | .ncuKernelStepComplete c _ | .mcMarchDone c _ | .channelMigrationDone c _ => decide (c < 128)
  | .memoryPhaseDone cs _ es => (cs.all fun c => decide (c < 128)) && es.all engineIn
  | .droopAssert d | .droopClear d => domainIn d
  | .thermalSample xs => xs.all fun x => decide (x.1 < 84)
  | .sensorSample xs => xs.all fun x => decide (x.1 < 338)
  | .thermalTrip x => decide (x < 68)
  | .railStepGood k | .downOrderStep k => decide (1 ≤ k) && decide (k ≤ 11)
  | .sequencingFault r | .railFault r => railIn r
  | .faultRaised r => decide (r.cls < 28)
  | .dualRailStuck m | .injectionNotSeen m => decide (m < 65536)
  | _ => true

/-- The rows of the data plane: frames in reception and on the way out, frames delivered to internal endpoints save the
management's, and what engines, operations, blocks, the stash and their timers do. -/
def dataPlane : Instr → Bool
  | .hello _ _ | .helloReply _ _ | .helloNoReplyTimeout _ | .linkState _ _ | .digestTimer | .digest _ _ | .groupSetup _
  | .frameHeaderReceived _ _ _ _ | .frameEndReceived _ _ _ _ | .frameTransmitted _ _ _ | .ack _ | .retransmitTimeout _ _ _ _ _
  | .fence _ | .barrierArrive _ | .barrierMemberTimeout _ | .redContrib _ | .redPartial _ | .benchSeal _ _ _ | .collData _
  | .collAbortFrame _ | .memberIdleTimeout _ | .weightFetch _ | .versionRelease _ | .stashPut _ | .stashGet _ | .stashDrop _
  | .putTimeout _ _ _ | .stashReleaseDrainTimeout _ | .engJobIn _ | .stozilOp _ | .assignmentPoint | .tickJobComplete _ _
  | .engineTestStart _ | .engineTestComplete _ _ | .ncuKernelStepComplete _ _ | .nextStepOpen _ _ | .pieceCommit _ _ _
  | .pieceRetry | .holdWaitEnd _ _ | .holdTimeout _ _ | .updateStart _ _ | .settRequest _ _ _ _ | .settRelease _ _ _ _
  | .tickAnnounce _ _ => true
  | _ => false

end Sys2Proof.Machine
end

