-- ==== Sys2Proof/Certificates/Slice0/Obligations.lean ====
section
/-! DEFINITION. The statements. Each says what one family of commands does, what a rule over the whole machine says, or what
every step keeps. -/

open Sys2Proof Sys2Proof.Machine

/-- The queue of commands, first in, first out: a step takes the command at the front and runs it on the state with the
queue's rest; with nothing in the queue the module idles (the model's own choice, log entry 1). -/
def Obligations.StepTakesTheFront : Prop :=
  ∀ (c : Instr) (cs : List Instr) (s : State),
    Sys2Proof.Machine.step { s with pending := c :: cs } = exec c { s with pending := cs } ∧
    Sys2Proof.Machine.step { s with pending := [] } = .next { s with pending := [] }

/-- What the module is right after reset: in RESET with power off (R327), the registers at their reset values (R10),
unsynchronised and stopped (R40), every FIFO, table and queue empty (R339), and the memory in its canonical form. -/
def Obligations.ResetLeavesTheModuleOff : Prop :=
  Memory.wf State.reset.mem ∧ State.reset.pending = [] ∧ State.reset.boot.phase = Phase.reset ∧
  State.reset.boot.powerGood = false ∧ State.reset.boot.upStep = 0 ∧ State.reset.ticking = false ∧
  State.reset.isSafe = false ∧ State.reset.answering = false ∧ State.reset.flt.status = 0 ∧ State.reset.host.ctxs = [] ∧
  State.reset.pool.setts = [] ∧ State.reset.coll.ops = [] ∧ State.reset.parm.blocks = [] ∧ State.reset.stash.res = [] ∧
  State.reset.flow.tx = [] ∧ State.reset.flow.rx = [] ∧ State.reset.topo.plan = none ∧
  (∀ (r : Reg) (i : Nat), State.reset.reg r i = r.resetWord i) ∧ ∀ a, State.reset.byte a = 0

/-- Every row of the table has an outcome with a name: it leads to a next state, but for a physical event of a unit that the
module does not have, which is a fault; nothing is refused. -/
def Obligations.OutcomesAreNamed : Prop :=
  ∀ (c : Instr) (s : State),
    (s.hasUnits c = true → ∃ t, exec c s = .next t) ∧
    (s.hasUnits c = false → exec c s = .fault .noSuchUnit)

/-- Table 13.5: checks 1 to 7 of a host's command in an idle device. The first that fails decides the status, and the command
has done nothing else: the safe state and the phase (NOT_READY), the path (NOT_PERMITTED), arguments and use of an effective
tick (DESC_INVALID), the job (JOB_UNKNOWN). One that passes them and has an effective tick is judged by its own rule and then
held (R313). -/
def Obligations.CommandsAreChecked : Prop :=
  ∀ (s : State) (c : Instr) (h : CmdHdr) (code : Nat), cmdOf c = some (code, h) → s.answering = true → s.host.ctxs = [] →
    s.pathFree h.path = true →
    (∀ st, s.checks (s.ctxFor c h) = some st → Refuses s c h st) ∧
    ((s.isSafe && !safeCmd code) = true ∨ s.phaseOk c code h.path = false → Refuses s c h Status.notReady) ∧
    ((s.isSafe && !safeCmd code) = false → s.phaseOk c code h.path = true →
      (s.pathOk c code h.path = false → Refuses s c h Status.notPermitted) ∧
      (s.pathOk c code h.path = true →
        (s.argsOk c = false ∨ (h.effTick ≠ 0 ∧ tickUse code = 0) ∨ (h.effTick = 0 ∧ tickUse code = 2) →
          Refuses s c h Status.descInvalid) ∧
        (s.argsOk c = true → h.effTick = 0 → tickUse code ≠ 2 →
          ∀ j, jobNamed c = some j → s.host.jobs.get? j = none → Refuses s c h Status.jobUnknown))) ∧
    (h.effTick ≠ 0 → s.checks (s.ctxFor c h) = none →
      (∀ st d r o u, st ≠ 0 → (s.withCommand c h).runCmd c h = (.done st d r o, u) → Completes s c h u st r d) ∧
      (∀ d r o u, (s.withCommand c h).runCmd c h = (.done 0 d r o, u) → Waits s c (s.withCommand c h) (.tick h.effTick)) ∧
      ∀ k r m u, (s.withCommand c h).runCmd c h = (.wait k r m, u) → Waits s c (s.withCommand c h) (.tick h.effTick)) ∧
    (h.effTick = 0 → s.ticking = true → s.atBoundary c = true → s.checks (s.ctxFor c h) = none →
      ∀ d r o u, (s.withCommand c h).runCmd c h = (.done 0 d r o, u) →
        Waits s c (s.withCommand c h) (.boundary h.late))

/-- R374: in the safe state the data plane stops. What arrives from the fabric or for an internal endpoint, and what the
engines, operations, blocks, the stash and the timers of the data plane would do, changes nothing. -/
def Obligations.SafeStateStopsTheDataPlane : Prop :=
  ∀ (s : State) (c : Instr), s.isSafe = true → dataPlane c = true → s.hasUnits c = true → exec c s = .next s

/-- Device memory and base SRAM read as they were last written, byte by byte, and are otherwise unchanged; two memories in
canonical form that read alike at every address are equal. In the safe state a write changes nothing (R374, R375). -/
def Obligations.MemoryReadsWhatWasWritten : Prop :=
  (∀ (m : List Host.Cell) (a b : Nat) (bs : List Byte),
    Memory.read (Memory.writes m a bs) b = if a ≤ b ∧ b < a + bs.length then bs.getD (b - a) 0 else Memory.read m b) ∧
  (∀ m n : List Host.Cell, Memory.wf m → Memory.wf n → (∀ a, Memory.read m a = Memory.read n a) → m = n) ∧
  ∀ (s : State) (a : Nat) (bs : List Byte),
    (s.isSafe = true → s.writeMem a bs = s) ∧
    (s.isSafe = false → (s.writeMem a bs).readMem a bs.length = bs ∧ s.keepsBut [.mem] (s.writeMem a bs))

/-- The memory keeps its canonical form whatever command a step takes: addresses strictly rising, and no listed byte zero. -/
def Obligations.MemoryStaysCanonical : Prop :=
  ∀ s t : State, Memory.wf s.mem → Sys2Proof.Machine.step s = .next t → Memory.wf t.mem

/-- The queue is served first in, first out: whatever the command at the front does, a step that answers a next state has
taken it away and left the rest as it was. -/
def Obligations.QueueIsServedInOrder : Prop :=
  ∀ (s t : State) (c : Instr) (cs : List Instr), s.pending = c :: cs → Sys2Proof.Machine.step s = .next t → t.pending = cs

/-- R348, R350: before step 1 the sequencer checks the coolant (inlet 15 to 45 °C in units of 1/16 °C, flow of 2.0 L/min or
more in mL/min) and the dies (no junction above 70 °C). With all in range POWERING goes on; a failed check is a sequencing
fault, as is a rail that is not good within its limit, above its target or in overcurrent: it takes every rail down in the
down order, and the module is FAILED with reason 2. -/
def Obligations.PowerUpIsChecked : Prop :=
  ∀ s : State,
    (∀ (inlet : Int) (flow : Nat) (js : List (Nat × Int)), s.boot.phase = Phase.standby → s.boot.aux = true →
      s.boot.refclk = true → s.boot.downStep = none →
      ((240 ≤ inlet ∧ inlet ≤ 720 ∧ 2000 ≤ flow ∧ ∀ x ∈ js, x.2 ≤ 1120) →
        ∃ u, Leads s (.vinQualified inlet flow js) u ∧ u.boot.vin = true ∧ u.boot.phase = Phase.powering ∧
          u.boot.upStep = s.boot.upStep ∧ u.flt.todo = s.flt.todo) ∧
      (¬(240 ≤ inlet ∧ inlet ≤ 720 ∧ 2000 ≤ flow ∧ ∀ x ∈ js, x.2 ≤ 1120) →
        ∃ u, Leads s (.vinQualified inlet flow js) u ∧ u.boot.phase = Phase.failed ∧ u.boot.failReason = 2 ∧
          u.boot.upStep = s.boot.upStep ∧ u.boot.powerGood = false ∧
          u.flt.todo = s.flt.todo ++ [({ cls := 21 }, false)])) ∧
    (∀ r, r < 43 → s.boot.phase = Phase.powering → s.boot.downStep = none →
      ∃ u, Leads s (.sequencingFault r) u ∧ u.boot.phase = Phase.failed ∧ u.boot.failReason = 2 ∧ u.boot.powerGood = false ∧
        u.boot.hostPowered = false ∧ u.boot.downStep = (if s.boot.upStep = 0 then none else some s.boot.upStep) ∧
        u.flt.todo = s.flt.todo ++ [({ cls := 21, detail := r }, false)]) ∧
    (∀ k, 2 ≤ k → k ≤ 11 → s.boot.downStep = some k →
      Leads s (.downOrderStep k) { s with boot := { s.boot with downStep := some (k - 1) } }) ∧
    (s.boot.downStep = some 1 →
      ∃ u, Leads s (.downOrderStep 1) u ∧ u.boot.downStep = none ∧ u.boot.upStep = 0 ∧ u.boot.railsOff = [])

/-- R307: the device checks a fetched slot's count against the command's number. Where they differ the command fails with
BAD_SLOT and has no effect: from the state with the slot fetched into a context nothing else has changed. -/
def Obligations.MiscountedSlotsFail : Prop :=
  ∀ (s : State) (m qp key : Nat) (reads : List HostBuf), s.answering = true → s.host.ctxs = [] → s.fromBound m qp = true →
    keyOk (s.mbox m).doorKey key = true → (s.mbox m).p < 2 ^ 32 → s.roomFor m (((s.mbox m).p + 1) % 2 ^ 32) = true →
    getLE (s.ringSlot m (((s.mbox m).p + 1) % 2 ^ 32)) 4 4 ≠ ((s.mbox m).p + 1) % 2 ^ 32 →
    ∃ (u : State) (x : Ctx), exec (.doorbell m qp key (((s.mbox m).p + 1) % 2 ^ 32) reads) s =
        .next (u.complete x Status.badSlot).settle ∧
      x.hdr.path = .mailbox m ∧ x.hdr.number = ((s.mbox m).p + 1) % 2 ^ 32 ∧ s.keepsBut [.host] u ∧
      u.mbox m = { s.mbox m with p := ((s.mbox m).p + 1) % 2 ^ 32 } ∧ (∀ k, k ≠ m → u.mbox k = s.mbox k) ∧
      u.host.jobs = s.host.jobs ∧ u.host.qps = s.host.qps ∧ u.host.disables = s.host.disables

/-- R172: every NaN that a conversion to BF16 or F32, an element of an F8A or F8G block, an F32 sum, difference, product or
fused product of the units is, is the canonical NaN of Table 8.2, with sign bit 0; a NaN operand of any payload gives it. -/
def Obligations.NaNsAreCanonical : Prop :=
  (∀ (fmt mode r : Nat) (x : Machine.Num), fmt = 3 ∨ fmt = 4 → decodeElem fmt (convert fmt mode r x).1 = .nan →
    (convert fmt mode r x).1 = if fmt = 3 then 0x7FC0 else 0x7FC00000) ∧
  (∀ (fmt mode r : Nat) (x : Int) (v : Machine.Num), fmt = 0 ∨ fmt = 1 →
    decodeElem fmt (encodeElem fmt mode r x v).1 = .nan →
    (encodeElem fmt mode r x v).1 = if fmt = 0 then 0x7F else 0x7E) ∧
  (∀ x y : F32,
    (f32IsNan (f32Add x y).1 = true → (f32Add x y).1 = 0x7FC00000) ∧
    (f32IsNan (f32Sub x y).1 = true → (f32Sub x y).1 = 0x7FC00000) ∧
    (f32IsNan (f32Mul x y).1 = true → (f32Mul x y).1 = 0x7FC00000) ∧
    (f32IsNan x = true → (f32Add x y).1 = 0x7FC00000 ∧ (f32Add y x).1 = 0x7FC00000 ∧ (f32Sub x y).1 = 0x7FC00000 ∧
      (f32Sub y x).1 = 0x7FC00000 ∧ (f32Mul x y).1 = 0x7FC00000 ∧ (f32Mul y x).1 = 0x7FC00000)) ∧
  ∀ x y z : F32, (f32IsNan (f32Fma x y z).1 = true → (f32Fma x y z).1 = 0x7FC00000) ∧
    (f32IsNan x = true ∨ f32IsNan y = true ∨ f32IsNan z = true → (f32Fma x y z).1 = 0x7FC00000)

/-- R327, R346, R407, R435: RESET_N low and AUX loss reset the module from any state, and leave what the persistent storage
holds; RESET_N high and AUX_3V3 in range leave RESET for BOOT when the other pin allows it, the 44 V polarity is right (R428)
and no down order runs; a TAP instruction is loaded, EXTEST only while RESET_N is low. -/
def Obligations.PinsResetTheModule : Prop :=
  ∀ s : State,
    (∃ t, exec .resetNLow s = .next t ∧ t.boot.phase = Phase.reset ∧ t.boot.resetN = false ∧ t.boot.powerGood = false ∧
      t.boot.hostPowered = false ∧ t.memory = ([], []) ∧ t.pending = s.pending ∧ t.boot.epoch = s.boot.epoch ∧
      t.mgt.lanes = s.mgt.lanes ∧ t.mgt.engines = s.mgt.engines ∧ t.mgt.channels = s.mgt.channels ∧
      t.mgt.floor = s.mgt.floor ∧ t.mgt.revoked = s.mgt.revoked) ∧
    (∃ t, exec .auxLoss s = .next t ∧ t.boot.phase = Phase.reset ∧ t.boot.aux = false ∧ t.boot.vin = false ∧
      t.boot.upStep = 0 ∧ t.boot.downStep = none ∧ t.memory = ([], []) ∧ t.pending = s.pending ∧ t.boot.epoch = s.boot.epoch ∧
      t.mgt.plog = s.mgt.plog ∧ t.mgt.lanes = s.mgt.lanes ∧ t.mgt.engines = s.mgt.engines ∧
      t.mgt.channels = s.mgt.channels ∧ t.mgt.floor = s.mgt.floor ∧ t.mgt.revoked = s.mgt.revoked) ∧
    exec .resetNHigh s = .next { s with boot := { s.boot with
      resetN := true
      phase := if s.boot.phase = Phase.reset ∧ s.boot.aux = true ∧ s.boot.reversed = false ∧ s.boot.downStep = none then
                 Phase.boot
               else s.boot.phase } } ∧
    exec .aux3v3InRange s = .next { s with boot := { s.boot with
      aux := true
      phase := if s.boot.phase = Phase.reset ∧ s.boot.resetN = true ∧ s.boot.reversed = false ∧ s.boot.downStep = none then
                 Phase.boot
               else s.boot.phase } } ∧
    ∀ code, exec (.tapInstruction code) s = .next { s with boot := { s.boot with
      tap := if code < 3 ∨ (code = 3 ∧ s.boot.resetN = false) then code else s.boot.tap } }

/-- R327, R329, R345, R347–R350: the phases on the way up, and the ways they fail. BOOT ends in STANDBY with the slot that
passed, or in FAILED with reason 1; REFCLK on a qualified input with the coolant in range leads from STANDBY to POWERING; the
eleven rail steps lead to MEMORY with POWER_GOOD.
R330, R339: MEMORY ends. With no more channels failing than the limit and the SRAM good, memory is empty and the latest of
UNCARVED, CARVED and PLANNED whose work is kept is entered; a failed SRAM ends in FAILED. -/
def Obligations.PhasesOnTheWayUp : Prop :=
  (∀ s : State,
    (s.boot.phase = Phase.standby → s.boot.vin = true → s.boot.coolOk = true → s.boot.downStep = none →
      ∃ u, Leads s .refclkPresent u ∧ u.boot.refclk = true ∧ u.boot.phase = Phase.powering) ∧
    (∀ k, s.boot.phase = Phase.powering → k = s.boot.upStep + 1 → k < 11 →
      Leads s (.railStepGood k) { s with boot := { s.boot with upStep := k } }) ∧
    (s.boot.phase = Phase.powering → s.boot.upStep = 10 →
      ∃ u, Leads s (.railStepGood 11) u ∧ u.boot.phase = Phase.memory ∧ u.boot.upStep = 11 ∧ u.boot.powerGood = true ∧
        u.boot.hostPowered = true) ∧
    (s.boot.phase = Phase.powering →
      ∃ u, Leads s .poweringTimeout u ∧ u.boot.phase = Phase.failed ∧ u.boot.failReason = 2 ∧ u.boot.powerGood = false) ∧
    (s.boot.phase = Phase.boot →
      exec .bootTimeout s = .next { s with boot := { s.boot with phase := Phase.failed, failReason := 1 } }) ∧
    (∀ slot, s.boot.phase = Phase.boot → s.mgt.trial = none →
      match s.bootOrder.find? fun k => s.slotStatus k slot == Status.ok with
      | some k => ∃ u, Leads s (.bootImageChecked slot) u ∧ u.boot.phase ≠ Phase.boot ∧ u.boot.slot = k ∧
          u.boot.epoch = s.boot.epoch + 1
      | none => ∃ u, Leads s (.bootImageChecked slot) u ∧ u.boot.phase = Phase.failed ∧ u.boot.failReason = 1)) ∧
  (∀ (s : State) (cs es : List Nat), s.boot.phase = Phase.memory → (∀ c ∈ cs, c < 128) → (∀ e ∈ es, engineIn e = true) →
    (s.boot.kept = none → cs.length ≤ bits (s.reg .mgtBringupCfg) 4 0 →
      ∃ u, Leads s (.memoryPhaseDone cs false es) u ∧ u.memory = ([], []) ∧ u.boot.phase = s.keptPhase ∧ u.flt.safe = none) ∧
    (s.boot.kept ≠ none →
      ∃ u, Leads s (.memoryPhaseDone cs false es) u ∧ u.memory = ([], []) ∧ u.boot.phase = s.keptPhase ∧ u.boot.kept = none ∧
        u.flt.safe = none) ∧
    s.keptPhase = (if s.boot.carving = none then Phase.uncarved else if s.topo.plan = none then Phase.carved else Phase.planned) ∧
    (cs = [] → ∃ u, Leads s (.memoryPhaseDone cs true es) u ∧ u.boot.phase = Phase.failed ∧ u.boot.failReason = 4))

/-- R345, R351, R428: input power lost in or after POWERING: the data plane is gone and the module waits in STANDBY for the
input with POWER_GOOD low, its carving and plan kept; before POWERING and in FAILED only the qualification is lost, and a
reversed polarity, a negative voltage here, is held until the input is found right. A rail fault takes away one tile's engines, or every rail. -/
def Obligations.InputAndRailFaults : Prop :=
  ∀ s : State,
    (∀ (v : Int) (w : Nat), Phase.powering ≤ s.boot.phase → s.boot.phase ≠ Phase.failed →
      (∃ u, Leads s (.inputExcursion v) u ∧ u.boot.phase = Phase.standby ∧ u.boot.vin = false ∧ u.boot.powerGood = false ∧
        u.boot.epoch = s.boot.epoch + 1 ∧ u.boot.carving = s.boot.carving ∧ u.topo.plan = s.topo.plan ∧ u.flt.safe = none ∧
        u.boot.reversed = decide (v < 0)) ∧
      (∃ u, Leads s (.inputUndervoltage w) u ∧ u.boot.phase = Phase.standby ∧ u.boot.vin = false ∧
        u.boot.powerGood = false ∧ u.boot.epoch = s.boot.epoch + 1 ∧ u.boot.carving = s.boot.carving ∧
        u.topo.plan = s.topo.plan ∧ u.flt.safe = none)) ∧
    (∀ (v : Int) (w : Nat), s.boot.phase < Phase.powering ∨ s.boot.phase = Phase.failed →
      (v < 0 → Leads s (.inputExcursion v) { s with boot := { s.boot with reversed := true, vin := false } }) ∧
      (0 ≤ v → s.boot.reversed = false → Leads s (.inputExcursion v) { s with boot := { s.boot with vin := false } }) ∧
      Leads s (.inputUndervoltage w) { s with boot := { s.boot with vin := false } }) ∧
    ∀ r, r < 43 → Phase.memory ≤ s.boot.phase → s.boot.phase ≠ Phase.failed →
      ∃ u, Leads s (.railFault r) u ∧
        (match engineRail r with
         | some t => u.boot.phase = s.boot.phase ∧ t ∈ u.boot.railsOff ∧ (u.tilePwr t).railOff = true ∧ t ∈ u.eng.inReset ∧
             u.flt.todo = s.flt.todo ++ [({ cls := 21, detail := r }, false)] ∧
             u.reg .pwrRailFault r = s.countedUp .pwrRailFault r
         | none => u.boot.phase = Phase.failed ∧ u.boot.failReason = 2 ∧ u.boot.powerGood = false ∧
             u.flt.todo = [({ cls := 21, detail := r }, false)] ∧ u.reg .pwrRailFault r = 1)

/-- R357, R361: a droop response starts in a domain once, and is counted, and ends; the estimator loses and regains the trust
of the power controller. R353, R355, R358: a change of a tile's operating point. Its slew completes; the clock switches at the
boundary, or the switch is deferred by a droop response and counted; a demand point that has been quiet for 16 ticks falls
back. -/
def Obligations.DroopAndOperatingPoints : Prop :=
  (∀ (s : State) (d : Nat), d < 16 →
    (d ∉ s.pwr.droops → ∃ u, Leads s (.droopAssert d) u ∧ u.pwr = { s.pwr with droops := d :: s.pwr.droops } ∧
      u.reg .pwrDroopEvents d = s.countedUp .pwrDroopEvents d ∧ s.keepsBut [.pwr, .regs] u) ∧
    (d ∈ s.pwr.droops → Leads s (.droopAssert d) s) ∧
    (∃ u, Leads s (.droopClear d) u ∧ d ∉ u.pwr.droops ∧ (∀ e, e ≠ d → (e ∈ u.pwr.droops ↔ e ∈ s.pwr.droops)) ∧
      s.keepsBut [.pwr] u) ∧
    (s.pwr.trusted = true → s.cfg .pwrEstCfg 0 7 8 < s.pwr.disagree →
      ∃ u, Leads s .estimateDisagreeLimit u ∧ u.pwr = { s.pwr with trusted := false, agree := 0 } ∧
        u.reg .pwrUntrusted 0 = s.countedUp .pwrUntrusted 0 ∧
        u.flt.todo = s.flt.todo ++ (if s.cfg .pwrEstCfg 0 15 2 = 2 then [({ cls := 21 }, false)] else [])) ∧
    (s.pwr.trusted = false → s.cfg .pwrEstCfg 0 17 11 ≤ s.pwr.agree →
      ∃ u, Leads s .estimateRetrust u ∧ u.pwr = { s.pwr with trusted := true, disagree := 0 })) ∧
  (∀ (s : State) (t : Nat), t < 8 →
    ((s.tilePwr t).changing = true → (s.tilePwr t).target < (s.tilePwr t).op →
      ∃ u, Leads s (.slewComplete t) u ∧ u.tilePwr t = { s.tilePwr t with ready := true } ∧ s.keepsBut [.pwr] u) ∧
    ((s.tilePwr t).changing = true → (s.tilePwr t).target = (s.tilePwr t).op → t ∉ s.pwr.droops →
      ∃ u, Leads s (.slewComplete t) u ∧ u.tilePwr t = { s.tilePwr t with changing := false, ready := false } ∧
        s.keepsBut [.pwr] u) ∧
    ((s.tilePwr t).changing = true → (s.tilePwr t).ready = true → (s.tilePwr t).target ≠ (s.tilePwr t).op →
      t ∉ s.pwr.droops →
      ∃ u, Leads s (.freqSwitch t) u ∧ (u.tilePwr t).op = (s.tilePwr t).target ∧ (u.tilePwr t).ready = false ∧
        (u.tilePwr t).deferred = 0 ∧
        ((u.tilePwr t).changing = true ↔ (s.tilePwr t).op < (s.tilePwr t).target) ∧
        u.reg .pwrFreqChanges t = s.countedUp .pwrFreqChanges t ∧ s.keepsBut [.pwr, .regs] u) ∧
    ((s.tilePwr t).changing = true → (s.tilePwr t).ready = true → (s.tilePwr t).target ≠ (s.tilePwr t).op →
      t ∈ s.pwr.droops →
      ∃ u, Leads s (.freqSwitch t) u ∧ (u.tilePwr t).op = (s.tilePwr t).op ∧
        (u.tilePwr t).deferred = ((s.tilePwr t).deferred + 1) % 64) ∧
    ((s.tilePwr t).raised.isSome = true → 16 ≤ (s.tilePwr t).quiet →
      ∃ u, Leads s (.demandRaiseRelease t) u ∧ (u.tilePwr t).raised = none ∧ s.keepsBut [.pwr] u) ∧
    ∀ x : PowerSample, s.ticking = false → Phase.memory ≤ s.boot.phase → s.boot.phase ≠ Phase.failed → x.late = false →
      ∃ u, Leads s (.powerControlInternalPeriod x) u ∧ u.pwr.meas = x.meas ∧ u.pwr.est = x.est ∧
        u.pwr.measBefore = s.pwr.meas)

/-- R363, R364, R366: a thermal sample is kept and hot or cool pairs are marked; the thermal point of a tile steps while its
pair stays hot or cool; two readings in a row at 110 °C or above reset the module; the coolant hold is taken and released. -/
def Obligations.HeatIsHeld : Prop :=
  ∀ s : State,
    (∀ xs : List (Nat × Int), (∀ x ∈ xs, x.1 < 68) → (xs.map Prod.fst).Nodup →
      ∃ u, Leads s (.thermalSample xs) u ∧ (∀ x ∈ xs, u.junction x.1 = x.2) ∧
        (∀ i, i ∉ xs.map Prod.fst → u.junction i = s.junction i) ∧
        (∀ t < 8, (u.tilePwr t).hot = (pairSensors t).any fun i => decide (95 * 16 ≤ u.junction i)) ∧
        s.keepsBut [.pwr] u) ∧
    (∀ t, t < 8 → (s.tilePwr t).hot = true → 256 ≤ (s.tilePwr t).hotAge → (s.tilePwr t).thermal < 7 →
      ∃ u, Leads s (.thermalPointStep t) u ∧ (u.tilePwr t).thermal = (s.tilePwr t).thermal + 1 ∧
        (u.tilePwr t).hotAge = 0 ∧ u.flt.todo = s.flt.todo ++ [({ cls := 22, detail := s.hottest t }, false)]) ∧
    (∀ t, t < 8 → (s.tilePwr t).hot = false → (s.tilePwr t).cool = true → 1024 ≤ (s.tilePwr t).coolAge →
      0 < (s.tilePwr t).thermal →
      ∃ u, Leads s (.thermalPointStep t) u ∧ (u.tilePwr t).thermal = (s.tilePwr t).thermal - 1 ∧
        (u.tilePwr t).coolAge = 0 ∧ u.flt.todo = s.flt.todo) ∧
    (∀ i, i < 68 → 2 ≤ s.pwr.trips.getD i 0 →
      ∃ u, Leads s (.thermalTrip i) u ∧ (0 < s.boot.upStep → u.boot.phase = Phase.reset) ∧ u.boot.powerGood = false ∧
        u.flt.tripped = true ∧ u.memory = ([], [])) ∧
    (∀ inlet flow, Phase.memory ≤ s.boot.phase → s.boot.phase ≠ Phase.failed → s.pwr.coolantLow = false →
      (45 * 16 < inlet ∨ flow < 2000) →
      ∃ u, Leads s (.coolantOutOfRange inlet flow) u ∧ u.pwr = { s.pwr with coolantLow := true } ∧
        u.flt.todo = s.flt.todo ++ [({ cls := 23 }, false)]) ∧
    (∀ inlet flow, s.pwr.coolantLow = true → inlet ≤ 45 * 16 → 2000 ≤ flow →
      ∃ u, Leads s (.coolantHoldRelease inlet flow) u ∧ u.pwr = { s.pwr with coolantLow := false })

/-- R370–R374: what a fault report does at its collector. It is latched in FLT_STATUS, captured and counted; outside the safe
state level 3 and above call for the safe state, with their class and level; in the safe state it is latched, captured and
counted and nothing more. R373, R339, R337: the resets with which levels 4 and 5 end the safe state, when their time has come.
-/
def Obligations.FaultReactionAndResets : Prop :=
  (∀ (s : State) (r : FaultRep) (injected : Bool), r.cls < 28 →
    bit (s.react r injected).flt.status r.cls = true ∧
    (∀ c, bit s.flt.status c = true → bit (s.react r injected).flt.status c = true) ∧
    (s.react r injected).flt.top.isSome = true ∧
    (∀ x, s.flt.top = some x → (s.react r injected).flt.top = some x.again) ∧
    (s.isSafe = false → 3 ≤ s.repLevel r →
      (s.react r injected).flt.safe = some r.cls ∧ (s.react r injected).flt.safeLevel = s.repLevel r) ∧
    (s.isSafe = false → s.repLevel r < 3 → (s.react r injected).isSafe = false) ∧
    (s.isSafe = true → (s.react r injected).flt.safe = s.flt.safe ∧ s.keepsBut [.flt, .regs, .fresh] (s.react r injected))) ∧
  (∀ s : State, s.isSafe = true → s.flt.headless = false →
    (s.flt.safeLevel = 4 → s.boot.kept = none →
      ∃ u, Leads s .safeStateDpReset u ∧ u.boot.phase = Phase.memory ∧ u.boot.kept = some s.keptPhase ∧
        u.boot.epoch = s.boot.epoch + 1 ∧ u.memory = ([], []) ∧ u.host.jobs = [] ∧ u.tick = State.reset.tick ∧
        u.pool.setts = []) ∧
    (s.flt.safeLevel = 5 →
      ∃ t, exec .safeStateModuleReset s = .next t ∧ (0 < s.boot.upStep → t.boot.phase = Phase.reset) ∧
        t.boot.powerGood = false ∧ t.isSafe = false ∧ t.memory = ([], [])))

/-- R370–R373, R380, R381, R389: where the rows of fault collection lead. A report contains its unit and reacts; a shadow
injection's answer is recorded; an injection that was not seen is counted and is a CHECKER fault; the watchdog makes the
module headless. R384, R385: the march over a retired channel, and the end of a migration. R391: a sample of the sensors keeps
each value read, and the peak. -/
def Obligations.FaultRowsAndChannels : Prop :=
  (∀ s : State,
    (∀ r : FaultRep, r.cls < 28 → r.cls ≠ 25 → Phase.standby ≤ s.boot.phase → s.injectionFor r.cls r.master = none →
      Leads s (.faultRaised r) ((s.containment r).react r false)) ∧
    (∀ r : FaultRep, r.cls = 25 → Phase.standby ≤ s.boot.phase → s.injectionFor r.cls r.master = none →
      ∃ v, Leads s (.faultRaised r) ((v.containment r).react r false) ∧ s.keepsBut [.host] v ∧
        ∀ m i : Nat, m < 64 → i < 256 → r.addr = ringBase m + 64 * i →
          v.ringSlot m i = List.replicate 64 0xFF ∧
          ∀ x ∈ v.host.ctxs, x.hdr.path = .mailbox m → x.hdr.number % 256 = i → x.state = .waiting →
            x.bad = Status.badSlot) ∧
    (∀ (r : FaultRep) (x : Injection), r.cls < 28 → r.cls ≠ 25 → Phase.standby ≤ s.boot.phase →
      s.flt.injection = some x → x.cls = r.cls → x.master = r.master → x.live = false →
      Leads s (.faultRaised r) { s with flt := { s.flt with
        injection := none, resClass := r.cls, resMaster := r.master, resOutcome := 0, resLive := false } }) ∧
    (∀ m, m < 65536 → Phase.standby ≤ s.boot.phase → s.injectionFor 27 m = none →
      Leads s (.dualRailStuck m) ((s.containUnit m).react { cls := 27, master := m } false)) ∧
    (s.isSafe = false → Phase.memory ≤ s.boot.phase → s.boot.phase ≠ Phase.failed →
      ∃ u, Leads s .injectionRound u ∧ u.reg .fltInjectRounds 0 = s.countedUp .fltInjectRounds 0 ∧ s.keepsBut [.regs] u) ∧
    (∀ m, m < 65536 → s.flt.injection = none →
      ∃ v, v.reg .fltInjectFail 0 = s.countedUp .fltInjectFail 0 ∧ s.keepsBut [.regs] v ∧
        Leads s (.injectionNotSeen m) ((v.containUnit m).react { cls := 27, master := m, access := 10 } false)) ∧
    (∀ x, s.flt.injection = some x → 64 ≤ x.age →
      Leads s .fltInjectTimeout { s with flt := { s.flt with
        injection := none, resClass := x.cls, resMaster := x.master, resOutcome := 3, resLive := x.live } }) ∧
    (s.managed = true → s.injectionFor 24 (masterId 9 15 0) = none →
      ∃ u, Leads s .mgtWatchdogExpired u ∧ u.flt.headless = true ∧ bit u.flt.status 24 = true) ∧
    (s.flt.headless = true → s.isSafe = false →
      ∃ u, Leads s .headlessTimeout u ∧ u.flt.safe = some 24 ∧ u.flt.safeLevel = 3)) ∧
  (∀ (s : State) (c : Nat), c < 128 →
    (∀ failed, (s.channel c).marching = true →
      ∃ u, Leads s (.mcMarchDone c failed) u ∧
        u.channel c = { s.channel c with marching := false, testDone := true, testFail := failed } ∧
        (∀ d, d ≠ c → u.channel d = s.channel d) ∧ s.keepsBut [.flt] u) ∧
    (∀ lost, (s.channel c).migrating = true → s.flt.headless = false →
      ∃ u, Leads s (.channelMigrationDone c lost) u ∧ (u.channel c).migrating = false ∧ (u.channel c).unmoved = 0) ∧
    ∀ i v, i < 338 → s.managed = true →
      ∃ u, Leads s (.sensorSample [(i, some v)]) u ∧ (u.mgt.sensors.getD i {}).value = v % 65536 ∧
        (u.mgt.sensors.getD i {}).peak =
          (if sensorVal i (s.mgt.sensors.getD i {}).peak < sensorVal i (v % 65536) then v % 65536
           else (s.mgt.sensors.getD i {}).peak) ∧
        (∀ j, j ≠ i → u.mgt.sensors.getD j {} = s.mgt.sensors.getD j {}) ∧ s.keepsBut [.mgt] u)

/-- R302, R304–R307: the mailbox's doorbell, its SENDs and its ring. An access that comes from another QP than the bound one
or with another key is refused and counted and changes nothing else; a doorbell value that is not ahead of P, or that would
leave 256 commands or more open, is ignored, counted and logged; an accepted one fetches the commands after P in order. -/
def Obligations.MailboxDoorbells : Prop :=
  ∀ (s : State) (m qp key d : Nat) (reads : List HostBuf), s.answering = true →
    (s.fromBound m qp = true → keyOk (s.mbox m).doorKey key = true → d < 2 ^ 32 → s.roomFor m d = true →
      ∃ u, exec (.doorbell m qp key d reads) s = .next u.settle ∧ u = s.fetch m d reads ∧
        (s.host.ctxs ≠ [] → (u.mbox m).p = d ∧
          u.host.ctxs.length = s.host.ctxs.length + (d + 2 ^ 32 - (s.mbox m).p) % 2 ^ 32)) ∧
    (s.fromBound m qp = true → keyOk (s.mbox m).doorKey key = true → ¬(d < 2 ^ 32 ∧ s.roomFor m d = true) →
      ∃ t, exec (.doorbell m qp key d reads) s = .next t ∧ t.host = s.host ∧
        s.keepsBut [.regs, .mgt, .fresh, .out] t) ∧
    (s.fromBound m qp = false ∨ keyOk (s.mbox m).doorKey key = false →
      ∃ t, exec (.doorbell m qp key d reads) s = .next t ∧ t.out = .accessNak qp :: s.out ∧
        t.reg .mgtMboxAccessBad = s.countedUp .mgtMboxAccessBad 0 ∧ s.keepsBut [.regs, .out] t) ∧
    (∀ slot : List Byte, slot.length = 64 → s.fromBound m qp = true →
      s.roomFor m (((s.mbox m).p + 1) % 2 ^ 32) = true → (s.ringSlot m (((s.mbox m).p + 1) % 2 ^ 32)).length = 64 →
      ∃ u, exec (.mailboxSend m qp [slot] reads) s = .next (u.ring m (((s.mbox m).p + 1) % 2 ^ 32) reads) ∧
        u.ringSlot m (((s.mbox m).p + 1) % 2 ^ 32) = slot ∧ s.keepsBut [.host] u) ∧
    (∀ slot : List Byte, slot.length = 64 → s.fromBound m qp = true →
      s.roomFor m (((s.mbox m).p + 1) % 2 ^ 32) = false →
      exec (.mailboxSend m qp [slot] reads) s = .next { s with out := .rnrNak qp :: s.out }) ∧
    (∀ (i : Nat) (b : Byte), i < 0x4000 → s.fromBound m qp = true → keyOk (s.mbox m).ringKey key = true →
      ∃ t, exec (.hostRdmaAccess qp key (ringBase m + i) (some [b]) 1) s = .next t ∧
        t.ringSlot m (i / 64) = (s.ringSlot m (i / 64)).set (i % 64) b ∧ s.keepsBut [.host] t)

/-- R311, R315, R316: a command that has waited 256 ticks is marked, and no other; a slot written to the busy sideband is
ignored and remembered; one written while it is free makes it busy and enters a context; reading the status byte returns it
and clears the refused bit; the target takes its dynamic address; an MGMT frame of a job that may send one is committed and
its command enters a context, and one of a job that may not is refused. -/
def Obligations.OtherPathsOfCommands : Prop :=
  ∀ s : State,
    (∀ m n, exec (.commandAged m n) s = .next (s.aged m n).settle ∧ s.keepsBut [.host] (s.aged m n) ∧
      (s.aged m n).host.ctxs.length = s.host.ctxs.length ∧
      ∀ (i : Nat) (x : Ctx), s.host.ctxs[i]? = some x →
        (x.hdr.path = .mailbox m ∧ x.hdr.number = n ∧ x.state = .waiting ∧ 256 ≤ x.waited →
          (s.aged m n).host.ctxs[i]? = some { x with aged := true }) ∧
        (¬(x.hdr.path = .mailbox m ∧ x.hdr.number = n ∧ x.state = .waiting ∧ 256 ≤ x.waited) →
          (s.aged m n).host.ctxs[i]? = some x)) ∧
    (∀ slot : List Byte, slot.length = 64 → s.boot.phase ≠ Phase.reset →
      (s.host.side.busy = true ∨ s.answering = false →
        exec (.sidebandSlotWrite slot) s = .next { s with host := { s.host with
          side := { s.host.side with refused := true } } }) ∧
      (s.answering = true → s.host.side.busy = false →
        exec (.sidebandSlotWrite slot) s = .next ((s.setHost fun h => { h with side := { h.side with
          busy := true, ready := false, count := h.side.count + 1 } }).arriveSlot slot .sideband
          ((s.host.side.count + 1) % 2 ^ 32) (getLE slot 4 4 == (s.host.side.count + 1) % 2 ^ 32)).settle)) ∧
    (s.boot.phase ≠ Phase.reset →
      exec .sidebandStatusRead s = .next { s with
        out := .statusByte s.statusByte :: s.out
        host := { s.host with side := { s.host.side with refused := false } } }) ∧
    (∀ a st, a < 128 → s.boot.aux = true →
      exec (.dynamicAddressAssignment a st) s = .next { s with host := { s.host with
        side := { s.host.side with address := some a } } }) ∧
    ∀ d : Delivery, s.answering = true → s.newFrame d = true → d.frame.hdr.sys = false →
      (∀ st, (s.takeInternal d).mgmtRefusal d.frame.hdr.job = some st →
        exec (.mgmt d) s = .next ((s.takeInternal d).refuseFrame d.frame.hdr 0xFFF3 st).settle) ∧
      ((s.takeInternal d).mgmtRefusal d.frame.hdr.job = none →
        exec (.mgmt d) s = .next (((s.takeInternal d).commitFrame d.frame.hdr 0xFFF3).arriveSlot (d.frame.payload.take 64)
          (.fabric d.frame.hdr.job d.frame.hdr.srcNode d.frame.hdr.srcEp d.frame.hdr.cls d.frame.hdr.opId)
          (getLE (d.frame.payload.take 64) 4 4) true).settle)

/-- R298–R301: host ports and queue pairs. A port's link follows its event, coming up only while host ports are powered; a
marked packet of an open QP is answered by one congestion notification; the QP's rate halves, never below 1 Gb/s, and recovers
by 25 Gb/s up to line rate; at most seven retransmissions; a QP whose retries are exhausted is in the error state. -/
def Obligations.HostPortsAndQueuePairs : Prop :=
  ∀ (s : State) (q : Nat) (x : QpSt), s.host.qps.get? q = some x →
    (∃ t, exec (.cnpReceived q) s = .next t ∧ t.host.qps.get? q = some { x with rate := max 1000 (x.rate / 2) } ∧
      (∀ p, p ≠ q → t.host.qps.get? p = s.host.qps.get? p) ∧ s.keepsBut [.host] t) ∧
    (∃ t, exec (.rateRecoveryTimer q) s = .next t ∧
      t.host.qps.get? q = some { x with rate := min 200000 (x.rate + 25000) } ∧
      (∀ p, p ≠ q → t.host.qps.get? p = s.host.qps.get? p) ∧ s.keepsBut [.host] t) ∧
    (∃ t, exec (.qpRetryExhausted q) s = .next t ∧ t.host.qps.get? q = some { x with error := true } ∧
      (∀ p, p ≠ q → t.host.qps.get? p = s.host.qps.get? p) ∧ s.keepsBut [.host] t) ∧
    (x.error = false → x.retries < 7 →
      ∃ t, exec (.localAckTimeout q) s = .next t ∧ t.host.qps.get? q = some { x with retries := x.retries + 1 } ∧
        t.out = .qpRetry q :: s.out ∧ s.keepsBut [.host, .out] t) ∧
    (x.error = false → 7 ≤ x.retries → exec (.localAckTimeout q) s = .next s) ∧
    (∀ p, p < 4 → (s.host.ports.getD p {}).up = true → x.port = p → x.error = false → s.cnpDue x = true →
      ∃ t, exec (.hostFrameReceived p (.roce q true)) s = .next t ∧ t.out = .cnp q :: s.out ∧
        t.host.qps.get? q = some { x with cnpAt := some s.tick.counter } ∧ s.keepsBut [.host, .out] t) ∧
    (∀ p, p < 4 → (s.host.ports.getD p {}).up = true →
      exec (.hostFrameReceived p .resolution) s = .next { s with out := .resolved p :: s.out } ∧
      ∃ t, exec (.hostFrameReceived p .other) s = .next t ∧ t.reg .mgtHostDrop p = s.countedUp .mgtHostDrop p ∧
        s.keepsBut [.regs] t) ∧
    ∀ p up, p < 4 → (up = false ∨ s.boot.hostPowered = true) →
      ∃ t, exec (.hostPortLinkChange p up) s = .next t ∧ (t.host.ports.getD p {}).up = up ∧
        (∀ o, o ≠ p → t.host.ports.getD o {} = s.host.ports.getD o {}) ∧ s.keepsBut [.host] t

/-- R322–R324, R340, R342: the events that end what commands wait for: the shutdown of a commanded module reset, the end of a
tile reset, the end of a job whose resources are free, and the end of a disable whose scope holds no work, or its drain
timeout. -/
def Obligations.WaitsEnd : Prop :=
  ∀ (s : State) (job : Nat),
    (s.boot.shutdownDue = true →
      ∃ t, exec .moduleResetShutdown s = .next t ∧ (0 < s.boot.upStep → t.boot.phase = Phase.reset) ∧
        t.boot.powerGood = false ∧ t.memory = ([], []) ∧ t.boot.shutdownDue = false) ∧
    (∀ k failed, k < 8 → k ∈ s.eng.inReset → (∀ i ∈ failed, i < 136) →
      ∃ u, Leads s (.tileResetComplete k failed) u ∧ k ∉ u.eng.inReset ∧ (failed = [] → s.keepsBut [.eng] u)) ∧
    (job ∈ s.host.ending → s.jobFree job = true →
      ∃ u, Leads s (.jobEndComplete job) u ∧ job ∉ u.host.ending ∧ u.host.ended.get? job = some s.tick.counter ∧
        s.keepsBut [.host, .flow] u) ∧
    (∀ f d, s.disableOf f job = some d → d.inEffect = true → d.done = false → s.workIn f (scopeOf job) = 0 →
      ∃ u, Leads s (.funcDisableDrained f job) u ∧ u.disableOf f job = some { d with done := true } ∧
        s.keepsBut [.host] u) ∧
    ∀ f d, s.disableOf f job = some d → d.inEffect = true → d.done = false → d.timedOut = false → d.drainTicks ≤ d.age →
      ∃ v, Leads s (.drainTimeout f job) (v.drain f job) ∧ v.disableOf f job = some { d with timedOut := true } ∧
        s.keepsBut [.host] v

/-- R68, R69, R72, R63: light and lock of a lane. An assertion that is new is counted, flaps the lane and, in ACTIVE, takes
the port to DETECT when it was the last light, or starts a width step when the lane was in use; a clear is taken; light that
has been there for 1 ms takes a port from DETECT to TRAIN. R63, R65, R66: the stages of Table 3.4. TRAIN to LOCK, LOCK to
EXCHANGE with a capability set sent on every locked lane, EXCHANGE to ACTIVE, on the third identical set received on a lane, at
the width both ends acknowledge; a stage that times out is one
failed attempt, and the sixteenth fails the port. -/
def Obligations.LanesAndPortStages : Prop :=
  (∀ (s : State) (n : Nat), n < Config.lanes →
    ((s.lane n).los = false →
      ∃ u, Leads s (.losAssert n) u ∧ (u.lane n).los = true ∧ (u.lane n).lol = (s.lane n).lol ∧
        (u.lane n).winFlap = (s.lane n).winFlap + 1 ∧ (u.lane n).retired = (s.lane n).retired ∧
        ((s.port (s.portOf n)).state ≠ 5 → u.reg .laneLossEvents n = s.countedUp .laneLossEvents n ∧
          s.keepsBut [.link, .regs] u ∧ ∀ m, m ≠ n → u.lane m = s.lane m) ∧
        ((s.port (s.portOf n)).state = 5 → (∀ m ∈ s.lanesOf (s.portOf n), m ≠ n → (s.lane m).los = true) →
          (u.port (s.portOf n)).state = 1)) ∧
    ((s.lane n).lol = false →
      ∃ u, Leads s (.lolAssert n) u ∧ (u.lane n).lol = true ∧ (u.lane n).los = (s.lane n).los ∧
        (u.lane n).winFlap = (s.lane n).winFlap + 1 ∧ (u.lane n).retired = (s.lane n).retired ∧
        ((s.port (s.portOf n)).state ≠ 5 → u.reg .laneLossEvents n = s.countedUp .laneLossEvents n ∧
          s.keepsBut [.link, .regs] u ∧ ∀ m, m ≠ n → u.lane m = s.lane m)) ∧
    (∃ u, Leads s (.losClear n) u ∧ u.lane n = { s.lane n with los := false } ∧ (∀ m, m ≠ n → u.lane m = s.lane m) ∧
      u.link.ports = s.link.ports ∧ s.keepsBut [.link] u) ∧
    (∃ u, Leads s (.lolClear n) u ∧ u.lane n = { s.lane n with lol := false, lockTicks := 0 } ∧
      (∀ m, m ≠ n → u.lane m = s.lane m) ∧ u.link.ports = s.link.ports ∧ s.keepsBut [.link] u) ∧
    ((s.lane n).los = false → (s.lsm (n / 64)).refused = 0 → (s.port (s.portOf n)).state = 1 →
      ∃ u, Leads s (.detectLightQualified n) u ∧ (u.port (s.portOf n)).state = 2 ∧
        (∀ q, q ≠ s.portOf n → u.port q = s.port q) ∧ s.keepsBut [.link] u)) ∧
  (∀ (s : State) (p : Nat), p < s.portCount →
    ((s.port p).state = 2 →
      ∃ u, Leads s (.trainComplete p) u ∧ (u.port p).state = 3 ∧ (∀ q, q ≠ p → u.port q = s.port q) ∧ s.keepsBut [.link] u) ∧
    ((s.port p).state = 3 → s.usableLanes p ≠ 0 →
      ∃ u, Leads s (.lockAchieved p) u ∧ (u.port p).state = 4 ∧
        u.out = (((s.lanesOf p).filter fun n => (s.lane n).locked).map fun n =>
          Out.capability p n (u.capBytes p n)).reverse ++ s.out ∧ (∀ q, q ≠ p → u.port q = s.port q) ∧
        s.keepsBut [.link, .out] u) ∧
    ((s.port p).attempts < 15 →
      ((s.port p).state = 2 → ∃ u, Leads s (.trainTimeout p) u ∧ (u.port p).state = 1 ∧
        (u.port p).attempts = (s.port p).attempts + 1 ∧ s.keepsBut [.link] u) ∧
      ((s.port p).state = 3 → ∃ u, Leads s (.lockTimeout p) u ∧ (u.port p).state = 1 ∧
        (u.port p).attempts = (s.port p).attempts + 1 ∧ s.keepsBut [.link] u) ∧
      ((s.port p).state = 4 → (s.port p).refusal = 0 → ∃ u, Leads s (.exchangeTimeout p) u ∧ (u.port p).state = 1 ∧
        (u.port p).attempts = (s.port p).attempts + 1 ∧ s.keepsBut [.link] u)) ∧
    (15 ≤ (s.port p).attempts →
      ((s.port p).state = 2 → ∃ u, Leads s (.trainTimeout p) u ∧ (u.port p).state = 6) ∧
      ((s.port p).state = 3 → ∃ u, Leads s (.lockTimeout p) u ∧ (u.port p).state = 6) ∧
      ((s.port p).state = 4 → (s.port p).refusal = 0 → ∃ u, Leads s (.exchangeTimeout p) u ∧ (u.port p).state = 6)) ∧
    ∀ (c : CapSet) (n k : Nat), (s.port p).state = 4 → n < Config.lanes → s.portOf n = p →
      (s.lane n).caps = some (c, k) → 2 ≤ k → c.version = 1 → c.period = s.period →
      c.widthAck = s.widthFor (s.usableLanes p &&& c.usable) → c.widthAck ≠ 0 →
      ∃ u, Leads s (.capabilitySet p ⟨n, true, c⟩) u ∧ (u.port p).state = 5 ∧ (u.port p).width = c.widthAck ∧
        (u.port p).attempts = 0 ∧ (u.port p).peer = some c ∧ (u.port p).rxGranted = initialGrant)

/-- R71, R73, R87: the width handshake. A request in ACTIVE is answered with the width both bitmaps allow; its acknowledgement
is taken; the switch comes two ticks later with markers; a peer's marker is followed; an unanswered request takes the port to
DETECT after 4 ticks; a lane that has held lock long enough starts a step. A credit update replaces the peer's cumulative
grants. R70, R74, R75: retirement of lanes and their test. The window of 1,024 ticks ends with its counts at zero; a lane at a
threshold is retired and reported where auto_retire is 1; a test whose ticks are over ends. -/
def Obligations.WidthStepsAndLaneTests : Prop :=
  (∀ (s : State) (p : Nat), p < s.portCount →
    (∀ us, (s.port p).state = 5 → s.widthFor (s.usableLanes p &&& us) ≠ 0 →
      ∃ u t, Leads s (.widthRequest p us) u ∧ (u.port p).step = some t ∧ t.own = false ∧ t.acked = true ∧
        t.usable = s.usableLanes p &&& us ∧ t.width = s.widthFor (s.usableLanes p &&& us) ∧
        (u.port p).state = 5 ∧
        u.out = .widthBlock p (s.lowestLane p) (widthBlock 1 (s.usableLanes p) t.width) :: s.out ∧ s.keepsBut [.link, .out] u) ∧
    (∀ us w t, (s.port p).step = some t → t.own = true → t.acked = false → w ≠ 0 →
      ∃ u, Leads s (.widthAck p us w) u ∧
        (u.port p).step = some { t with acked := true, usable := s.usableLanes p &&& us, width := w, age := 0 } ∧
        (u.port p).state = (s.port p).state ∧ s.keepsBut [.link] u) ∧
    (∀ t, (s.port p).step = some t → t.acked = true → t.sent = false → 2 ≤ t.age → t.followed = false →
      ∃ u, Leads s (.widthStepSwitch p) u ∧ (u.port p).width = t.width ∧
        (u.port p).step = some { t with sent := true } ∧
        ∃ os, u.out = .widthMarker p (((bitMembers s.nominal t.usable).take t.width).map fun i => p * s.nominal + i)
          widthMarker :: os) ∧
    (∀ t, (s.port p).step = some t → t.sent = false →
      ∃ u, Leads s (.widthMarker p) u ∧ (u.port p).step = some { t with followed := true } ∧ s.keepsBut [.link] u) ∧
    (∀ t, (s.port p).step = some t → t.own = true → t.acked = false → 4 ≤ t.age →
      ∃ u, Leads s (.widthAckTimeout p) u ∧ (u.port p).state = 1 ∧ (u.port p).width = 0 ∧ (u.port p).step = none) ∧
    (∀ n, n < Config.lanes → s.portOf n = p → (s.lane n).inUse = false → (s.lane n).locked = true →
      s.cfg .laneRetireCfg 0 35 13 ≤ (s.lane n).lockTicks → (s.port p).state = 5 → (s.port p).step = none →
      s.widthFor (s.usableLanes p &&& ((s.port p).peer.map CapSet.usable).getD 0) ≠ 0 →
      ∃ u t, Leads s (.laneRestoreHoldElapsed n) u ∧ (u.port p).step = some t ∧ t.own = true ∧ t.acked = false ∧
        u.out = .widthBlock p (s.lowestLane p) (widthBlock 0 (s.usableLanes p) t.width) :: s.out ∧ s.keepsBut [.link, .out] u) ∧
    ((s.port p).state = 5 → ∀ g : List Nat,
      ∃ u, Leads s (.creditUpdate p g) u ∧
        u.port p = { s.port p with
          txGranted := (List.range 8).map fun v => g.getD v 0 % 2 ^ 24
          firstGrant := (s.port p).firstGrant.orElse fun _ => some (g.getD 6 0 % 2 ^ 24, g.getD 7 0 % 2 ^ 24) } ∧
        (∀ q, q ≠ p → u.port q = s.port q) ∧ s.keepsBut [.link] u)) ∧
  (∀ (s : State) (n : Nat), n < Config.lanes →
    (1024 ≤ s.link.window →
      ∃ u, Leads s .retirementWindowEnd u ∧ u.link.window = 0 ∧
        (∀ m l, s.link.lanes.get? m = some l →
          u.link.lanes.get? m = some { l with winSym := 0, winUncorr := 0, winFlap := 0 }) ∧
        u.link.ports = s.link.ports ∧ s.keepsBut [.link] u) ∧
    (∀ c, s.retireCause n = some c → (s.lane n).retired = false → s.cfg .laneRetireCfg 0 34 1 = 1 →
      (s.lane n).inUse = false →
      ∃ u, Leads s (.laneAutoRetire n) u ∧ (u.lane n).retired = true ∧ n ∈ u.mgt.lanes ∧
        u.flt.todo = s.flt.todo ++ [({ cls := 11, master := masterId 2 (n / 128) 0, detail := n }, false)]) ∧
    (∀ t, (s.lane n).test = some t → t.asked = true → t.left = 0 → t.retireAfter = false → s.host.ctxs = [] →
      ∃ u, Leads s (.laneTestEnd n) u ∧ u.lane n = { s.lane n with test := none, lockTicks := 0 } ∧ s.keepsBut [.link] u) ∧
    (∀ t, (s.lane n).test = some t → t.asked = true → t.left = 0 → t.retireAfter = true → (s.lane n).inUse = false → s.host.ctxs = [] →
      ∃ u, Leads s (.laneTestEnd n) u ∧ (u.lane n).test = none ∧ (u.lane n).retired = true ∧ n ∈ u.mgt.lanes))

/-- R76–R80, R439: laser source modules. A failed laser is reported once and its spare taken into service; a latch opens, the
lasers go off and a release under way is over; a module put in is refused or warms up; lasers that are lit take their ports to DETECT; a release that has
drained ends dark with the indicator lit. -/
def Obligations.LaserSourceModules : Prop :=
  ∀ (s : State) (j : Nat), j < 16 →
    (∀ r : LaserRead, r.lsm = j → r.laser < 4 → (s.lsm j).lit = true → r.laser ∉ (s.lsm j).failed →
      (s.powerLow r = true ∨ s.biasHigh r = true) → (s.lsm j).spare = none → 4 ∉ (s.lsm j).failed →
      ∃ u, Leads s (.laserSample [r]) u ∧
        u.lsm j = { s.lsm j with failed := r.laser :: (s.lsm j).failed, spare := some r.laser, switched := false } ∧
        u.flt.todo = s.flt.todo ++ [({ cls := 12, master := masterId 2 (j / 2) 0, detail := j * 64 }, false)]) ∧
    (∀ w, (s.lsm j).spare = some w → (s.lsm j).switched = false →
      ∃ u, Leads s (.spareLaserSwitched j) u ∧ u.lsm j = { s.lsm j with switched := true } ∧
        s.keepsBut [.link, .mgt, .regs, .fresh, .out] u) ∧
    (∃ u, Leads s (.lsmLatchOpen j) u ∧ (u.lsm j).latchOpen = true ∧ (u.lsm j).warming = false ∧
      (u.lsm j).draining = none ∧ (u.lsm j).lit = false ∧ ((s.lsm j).lit = false → s.keepsBut [.link] u)) ∧
    ((s.lsm j).latchOpen = true →
      (∀ i : LsmIdent, i.grid = [1271, 1291, 1311, 1331] → ∃ u, Leads s (.lsmLatchClose j true i) u ∧
        u.lsm j = { s.lsm j with latchOpen := false, ident := some i, refused := 0, warming := true } ∧
        s.keepsBut [.link] u) ∧
      ∀ (ok : Bool) (i : LsmIdent), ok = false ∨ i.grid ≠ [1271, 1291, 1311, 1331] → ∃ u, Leads s (.lsmLatchClose j ok i) u ∧
        u.lsm j = { s.lsm j with
          latchOpen := false, ident := some i, refused := if ok = false then 1 else 2, warming := false } ∧
        u.flt.todo = s.flt.todo ++ [({ cls := 12, master := masterId 2 (j / 2) 0, detail := j * 64 }, false)]) ∧
    ((s.lsm j).warming = true →
      ∃ u, Leads s (.lsmLasersLit j) u ∧ (u.lsm j).lit = true ∧ (u.lsm j).warming = false ∧ (u.lsm j).failed = [] ∧
        (u.lsm j).indicator = false ∧ ∀ p ∈ s.lsmPorts j, (s.port p).state ≠ 0 → (u.port p).state = 1) ∧
    (s.lsmDrained j = true →
      ∃ u, Leads s (.lsmReleaseDrained j) u ∧ (u.lsm j).draining = none ∧ (u.lsm j).indicator = true ∧
        (u.lsm j).lit = false)

/-- R35, R36, R53: a boundary of a running tick keeper advances the 64-bit count by one; with the tick keeper STOPPED there is
no boundary. A command whose effective tick has come runs; one whose tick has not come keeps waiting. -/
def Obligations.BoundariesCount : Prop :=
  ∀ s : State,
    (∀ inp : BoundaryIn, (∀ f ∈ inp.fec, f.lane < Config.lanes) →
      (s.ticking = false → Leads s (.tickBoundary inp) s) ∧
      (s.ticking = true → s.host.ctxs = [] →
        ∃ u, Leads s (.tickBoundary inp) u ∧ u.tick.counter = s.tick.counter + 1 ∧
          u.tick.issued = s.tick.counter + 1)) ∧
    ∀ (x : Ctx) (t : Nat), s.ticking = true → s.host.ctxs = [x] → x.state = .started (.tick t) →
      (t ≤ s.tick.issued → Leads s .effectiveTickReached (s.perform x)) ∧
      (s.tick.issued < t → Leads s .effectiveTickReached s)

/-- R41–R44: what the tick keeper takes from its neighbours. An announce replaces the neighbour's last one; an ordered set
gives the link's offset and delay and ends a run of missing sets; one with a bad CRC counts as missing. R41, R48, R50, R51:
the tick keeper's timers. The periodic announce; JOINING that has lasted 256 ticks and HOLDOVER beyond its limit end in
UNSYNC, which is a fault of the tick class; a lost parent without another leads to HOLDOVER; a module that may be root becomes
root when root_seq has not advanced for 1,024 ticks. -/
def Obligations.TickKeeperHearsAndTimes : Prop :=
  (∀ (s : State) (p : Nat), p < s.portCount →
    (∀ a : Announce, s.isSafe = false → (s.port p).state = 5 →
      ∃ u, Leads s (.tickAnnounce p a) u ∧ u.tick.nbrs.get? p = some a ∧
        (∀ q, q ≠ p → u.tick.nbrs.get? q = s.tick.nbrs.get? q)) ∧
    (∀ seq tTx eSeq eTx eRx arr, (s.port p).state = 5 → s.ticking = true → s.tick.parent ≠ some p →
      ∃ u, Leads s (.tsosReceived p true seq tTx eSeq eTx eRx arr) u ∧
        u.tick.measured.get? p = some
          ((((stampDiff eRx eTx - stampDiff arr tTx) / 2) :: ((s.tick.measured.get? p).map Prod.fst).getD []).take 5,
            (stampDiff eRx eTx + stampDiff arr tTx) / 2) ∧
        u.tick.miss.get? p = some 0 ∧ p ∈ u.tick.arrived ∧ u.tick.seen.get? p = some ⟨seq, tTx, arr⟩) ∧
    ∀ seq tTx eSeq eTx eRx arr, Leads s (.tsosReceived p false seq tTx eSeq eTx eRx arr) s) ∧
  (∀ s : State,
    (s.ticking = true → 256 ≤ s.tick.announceAge →
      ∃ u, Leads s .announceTimer u ∧ u.tick = { s.tick with
        announceAge := 0
        rootSeq := if s.tick.state = 7 then (s.tick.rootSeq + 1) % 2 ^ 32 else s.tick.rootSeq }) ∧
    (s.tick.state = 2 → 256 ≤ s.tick.inState →
      ∃ u, Leads s .joinTimeout u ∧ u.tick.state = 6 ∧ u.tick.unsyncReason = 4 ∧ u.tick.parent = none ∧
        u.flt.todo = s.flt.todo ++ [({ cls := 19, master := masterId 10 15 0 }, false)]) ∧
    (s.tick.state = 5 → s.cfg .tickHoldLimit 0 0 16 ≤ s.tick.inState →
      ∃ u, Leads s .holdLimitExpired u ∧ u.tick.state = 6 ∧ u.tick.unsyncReason = 1 ∧ u.tick.parent = none ∧
        u.flt.todo = s.flt.todo ++ [({ cls := 19, master := masterId 10 15 0 }, false)]) ∧
    (∀ p, (s.tick.state = 3 ∨ s.tick.state = 4) → s.tooDeep = false → s.tick.parent = some p → s.eligible p = false →
      ({ s with tick := { s.tick with nbrs := s.tick.nbrs.filter fun kv => kv.1 != p } } : State).bestParent = none →
      ∃ u, Leads s .parentLost u ∧ u.tick.state = 5 ∧ u.tick.parent = none ∧ u.tick.counter = s.tick.counter) ∧
    ((s.tick.state = 3 ∨ s.tick.state = 4 ∨ s.tick.state = 5) → 1024 ≤ s.tick.seqAge → s.rootPriority < 255 →
      ∃ u, Leads s .rootSeqStale u ∧ u.tick.state = 7 ∧ u.tick.depth = 0 ∧ u.tick.rootNode = s.me ∧
        u.tick.rootPriority = s.rootPriority ∧ u.tick.parent = none ∧ u.tick.counter = s.tick.counter))

/-- R110, R111: what a HELLO or HELLO_REPLY committed on an ACTIVE fabric port that is PENDING or MISSING leads to (Table
5.5). The wrong node or port, another plan or other coordinates, and a peer that was reset, is lost or awaits readmission hold
the port with their reasons; a match puts it in service and records the peer's boot_epoch. A port held for want of a reply is
compared again on a HELLO_REPLY. Other ports keep their state where the peer was not reset. R109, R110, R118: a port without a
HELLO_REPLY after 16 ticks is held with reason 6; after the plan's pending limit every planned port still PENDING is MISSING,
and no other port changes; the digest timer starts again; a digest that agrees clears the count of differences, one difference
is counted, and the second in a row has the latest notice of every origin sent again on that link. R115, R117, R127: a
LINK_STATE notice that is not newer than the last one held from its origin is dropped; a newer one is counted and updates the
origin's entry: its trunk missing, or present, its other trunks unchanged; a readmission clears the lost flag of the node at
the far end of the trunk. -/
def Obligations.DiscoveryAndNotices : Prop :=
  (∀ (s : State) (p : Nat) (d : Disc) (pl : Plan) (c : Instr),
    p < s.portCount → s.isSafe = false → s.flt.headless = false → (s.port p).state = 5 → s.topo.plan = some pl →
    s.role p = 2 → s.leaving p = false →
    (c = .hello p d ∧ ((s.route p).state = 1 ∨ (s.route p).state = 4) ∨
      c = .helloReply p d ∧ ((s.route p).state = 1 ∨ (s.route p).state = 4 ∨
        (s.route p).state = 3 ∧ (s.route p).reason = 6)) →
    ∃ u, Leads s c u ∧ (u.route p).hello = some d ∧
      (if (∃ e, s.topo.epochs.get? d.node = some e ∧ e ≠ d.epoch) ∧ d.node = (s.portEntry p).peer then
          (u.route p).state = 3 ∧ (u.route p).reason = 5 ∧ (d.node ≠ s.me → u.isLost d.node = true)
        else if ((s.port p).peer.map CapSet.kind).getD 0 ≠ 0 then (u.route p).state = 3 ∧ (u.route p).reason = 3
        else if d.node ≠ (s.portEntry p).peer ∨ (s.portEntry p).peerPort ≠ 0xFFFF ∧ d.port ≠ (s.portEntry p).peerPort then
          (u.route p).state = 3 ∧ (u.route p).reason = 2
        else if d.planId ≠ pl.planId ∨ d.coord ≠ pl.coord d.node then (u.route p).state = 3 ∧ (u.route p).reason = 4
        else if s.isLost d.node = true ∨ d.portState = 3 ∧ d.portReason = 5 then
          (u.route p).state = 3 ∧ (u.route p).reason = 5
        else (u.route p).state = 2 ∧ (u.route p).reason = 0 ∧ u.topo.epochs.get? d.node = some d.epoch) ∧
      ((∀ e, s.topo.epochs.get? d.node = some e → e = d.epoch) → ∀ q, q ≠ p → u.route q = s.route q)) ∧
  (∀ (s : State) (p : Nat), p < s.portCount → s.isSafe = false →
    ((s.port p).state = 5 → s.role p = 2 → ((s.route p).state = 1 ∨ (s.route p).state = 4) → (s.route p).replied = false →
      16 ≤ (s.route p).helloAge → s.flt.headless = false →
      ∃ u, Leads s (.helloNoReplyTimeout p) u ∧ (u.route p).state = 3 ∧ (u.route p).reason = 6 ∧
        ∀ q, q ≠ p → u.route q = s.route q) ∧
    (∀ pl n, s.topo.plan = some pl → s.topo.pendingAge = some n → pl.pendingLimit ≤ n →
      ∃ u, Leads s .pendingLimitExpired u ∧ u.topo.pendingAge = none ∧
        ∀ q, u.route q =
          if q < s.portCount ∧ (s.portEntry q).role ≠ 0 ∧ (s.route q).state = 1 then { s.route q with state := 4 }
          else s.route q) ∧
    (s.ticking = true → 256 ≤ s.topo.digestAge →
      ∃ u, Leads s .digestTimer u ∧ u.topo = { s.topo with digestAge := 0 }) ∧
    ∀ d : Disc, (s.port p).state = 5 →
      (d.digest = s.lsDigest →
        ∃ u, Leads s (.digest p d) u ∧ u.route p = { s.route p with mismatch := 0, peerState := d.portState } ∧
          (∀ q, q ≠ p → u.route q = s.route q) ∧ s.keepsBut (.topo :: frameParts) u) ∧
      (d.digest ≠ s.lsDigest → (s.route p).mismatch = 0 →
        ∃ u, Leads s (.digest p d) u ∧ u.route p = { s.route p with mismatch := 1, peerState := d.portState } ∧
          (∀ q, q ≠ p → u.route q = s.route q) ∧ s.keepsBut (.topo :: frameParts) u) ∧
      (d.digest ≠ s.lsDigest → 1 ≤ (s.route p).mismatch →
        ∃ u l, Leads s (.digest p d) u ∧ u.route p = { s.route p with mismatch := 0, peerState := d.portState } ∧
          u.topo.resend.get? p = some l ∧
          (∀ m : Notice, m ∈ l ↔ m ∈ s.topo.notices ∧
            ∀ o ∈ s.topo.notices, o.origin = m.origin → serialNewer 32 o.seq m.seq = false) ∧
          (∀ q, q ≠ p → u.route q = s.route q) ∧ s.keepsBut (.topo :: frameParts) u)) ∧
  (∀ (s : State) (p : Nat) (d : Disc), p < s.portCount → s.isSafe = false → (s.port p).state = 5 →
    (d.originNode = s.me ∨ (∃ q, (s.ls d.originNode).seq = some q ∧ serialNewer 32 d.lsSeq q = false) →
      ∃ u, Leads s (.linkState p d) u ∧ u.reg .routeLsNotices 0 = s.reg .routeLsNotices 0 ∧
        (∀ n, (u.ls n).seq = (s.ls n).seq ∧ (u.ls n).missing = (s.ls n).missing) ∧
        u.route p = { s.route p with peerState := d.portState } ∧ (∀ q, q ≠ p → u.route q = s.route q) ∧
        s.keepsBut (.topo :: frameParts) u) ∧
    (d.originNode ≠ s.me → (∀ q, (s.ls d.originNode).seq = some q → serialNewer 32 d.lsSeq q = true) →
      ∃ u, Leads s (.linkState p d) u ∧ u.reg .routeLsNotices 0 = s.countedUp .routeLsNotices 0 ∧
        (u.ls d.originNode).seq = some d.lsSeq ∧
        (∀ t, bit (u.ls d.originNode).missing t =
          if t = d.originTrunk ∧ d.event < 2 then d.event == 0 else bit (s.ls d.originNode).missing t) ∧
        (∀ n, n ≠ d.originNode → (u.ls n).seq = (s.ls n).seq ∧ (u.ls n).missing = (s.ls n).missing) ∧
        (∀ n, s.readmitted d = some n → ((s.linkState p d).ls n).lost = false) ∧
        u.route p = { s.route p with peerState := d.portState } ∧ (∀ q, q ≠ p → u.route q = s.route q) ∧
        s.keepsBut (.topo :: frameParts) u))

/-- R85, R112, R130, R133, Table 6.1: a unit on an ACTIVE port. An idle unit or a control block ends a framing error; a
reserved control type, and a first byte of another value, are counted, and from the latter on units are discarded; a frame
beyond the credit granted is discarded and takes no credit; every other frame uses its credit, a header that is not valid is
discarded, and so is any frame but discovery and announces on a port out of service; every frame within its credit is recorded
until its end. R56, R87, R131, Table 6.1: the last unit of a frame. The credit of a frame within its credit is granted again at
once; a frame touched by an uncorrectable codeword or with a hop CRC that fails is counted and lost; a drop decided earlier is
counted with its own counter; an end-to-end CRC that fails is counted and is a fault of class 5; a frame that passes is stored,
once, with its copies. -/
def Obligations.FramesAreChecked : Prop :=
  (∀ (s : State) (p b : Nat) (h : Hdr) (e : Option Ext), p < s.portCount → s.isSafe = false → (s.port p).state = 5 →
    (b ∈ [0x00, 0x58, 0x59, 0x5A, 0x5C, 0x5E] →
      ∃ u, Leads s (.frameHeaderReceived p b h e) u ∧ u.port p = { s.port p with discarding := false } ∧
        (∀ q, q ≠ p → u.port q = s.port q) ∧ s.keepsBut [.link] u) ∧
    (b ∈ [0x5B, 0x5D, 0x5F] →
      ∃ u, Leads s (.frameHeaderReceived p b h e) u ∧ u.port p = { s.port p with discarding := false } ∧
        u.reg .portFrameErr p = s.countedUp .portFrameErr p ∧ s.keepsBut [.link, .regs] u) ∧
    (b ∉ [0x00, 0x58, 0x59, 0x5A, 0x5B, 0x5C, 0x5D, 0x5E, 0x5F, 0x01, 0x11, 0x21, 0x31] → (s.port p).discarding = false →
      ∃ u, Leads s (.frameHeaderReceived p b h e) u ∧ u.port p = { s.port p with discarding := true } ∧
        u.reg .portFrameErr p = s.countedUp .portFrameErr p ∧ s.keepsBut [.link, .regs] u) ∧
    (b ∉ [0x00, 0x58, 0x59, 0x5A, 0x5B, 0x5C, 0x5D, 0x5E, 0x5F] → (s.port p).discarding = true →
      Leads s (.frameHeaderReceived p b h e) s) ∧
    (b ∈ [0x01, 0x11, 0x21, 0x31] → (s.port p).discarding = false →
      (creditLeft ((s.port p).rxGranted.getD h.vc 0) ((s.port p).rxUsed.getD h.vc 0) < frameCredit h →
        ∃ u, Leads s (.frameHeaderReceived p b h e) u ∧ u.sw.rx.get? p = some
            { hdr := h, extn := e, verdict := .drop none, covered := false,
              counts := [(Reg.portCreditViol.ctorIdx, p, 1)] } ∧ s.keepsBut [.sw] u) ∧
      (frameCredit h ≤ creditLeft ((s.port p).rxGranted.getD h.vc 0) ((s.port p).rxUsed.getD h.vc 0) →
        ∃ u, Leads s (.frameHeaderReceived p b h e) u ∧
          u.port p = { s.port p with rxUsed := (s.port p).rxUsed.modify h.vc fun w => (w + frameCredit h) % 2 ^ 24 } ∧
          (∃ f : RxFrame, u.sw.rx.get? p = some f ∧ f.hdr = h ∧ f.extn = e ∧ f.covered = true) ∧
          u.sw.stored = s.sw.stored ∧
          (headerOk h = false → u.sw.rx.get? p = some
            { hdr := h, extn := e, verdict := .drop none, counts := [(Reg.portHdrDrop.ctorIdx, p, 1)] }) ∧
          (headerOk h = true → (s.route p).state ≠ 2 → h.opcode ≠ Op.discovery → h.opcode ≠ Op.tickAnnounce →
            u.sw.rx.get? p = some
            { hdr := h, extn := e, verdict := .drop none, counts := [(Reg.routeHeldDrop.ctorIdx, 0, 1)] })))) ∧
  (∀ (s : State) (p : Nat) (f : RxFrame) (payload : List Byte) (e2e : Nat) (hop : Option Nat), p < s.portCount →
    s.isSafe = false → s.sw.rx.get? p = some f → s.passesSetup f payload e2e hop = false →
      ∃ u, Leads s (.frameEndReceived p payload e2e hop) u ∧ u.sw.rx.get? p = none ∧
        (f.covered = true → u.port p = { s.port p with
          rxGranted := (s.port p).rxGranted.modify f.hdr.vc fun g => (g + frameCredit f.hdr) % 2 ^ 24 }) ∧
        (f.covered = false → u.link = s.link) ∧
        (hop ≠ some (hopCrc f.hdr f.extn payload e2e) ∨ payload.length ≠ f.hdr.units * 64 →
          u.reg .portHopCrcDrop p = s.countedUp .portHopCrcDrop p ∧ u.sw.stored = s.sw.stored) ∧
        (hop = some (hopCrc f.hdr f.extn payload e2e) → payload.length = f.hdr.units * 64 →
          (f.verdict = .drop none → f.counts = [(Reg.portHdrDrop.ctorIdx, p, 1)] →
            u.reg .portRxFrames p = s.countedUp .portRxFrames p ∧
            u.reg .portHdrDrop p = s.countedUp .portHdrDrop p ∧ u.sw.stored = s.sw.stored) ∧
          (f.verdict = .taken → f.counts = [] → e2eCrc f.hdr f.extn payload ≠ e2e →
            u.reg .portRxFrames p = s.countedUp .portRxFrames p ∧
            u.reg .portE2eCrcDrop p = s.countedUp .portE2eCrcDrop p ∧ u.sw.stored = s.sw.stored ∧
            u.flt.todo = s.flt.todo ++
              [({ cls := 5, master := switchMaster (s.tileOf p), access := 5, detail := p }, false)]) ∧
          (f.verdict = .taken → f.counts = [] → e2eCrc f.hdr f.extn payload = e2e → f.copies ≠ [] →
            (∀ c ∈ f.copies, ∀ o, c.port = some o → s.portOpen o = true) →
            u.reg .portRxFrames p = s.countedUp .portRxFrames p ∧
            u.sw.stored.get? s.sw.nextId = some ⟨s.sw.nextId, s.tileOf p, f.hdr.cls, f.cells, f.shared, f.copies.length,
              f.frame payload, some p, f.cong⟩ ∧ u.sw.nextId = s.sw.nextId + 1 ∧ u.flt = s.flt)))

/-- R87, R90, R133, R140, R143, R149: the head of a queue of an output that the scheduler serves next. On an ACTIVE port with
the peer's credit the copy leaves the queue with its trailer, over the lanes in use, and its credit and the port's counters are
taken; a head that the credit does not cover when its turn comes is passed over and counted. A class-7 head within the budget
of the tick is always next. -/
def Obligations.FramesAreTransmitted : Prop :=
  (∀ (s : State) (p tile cls : Nat) (e : Entry) (rest : List Entry) (st : Stored), p < s.portCount → tile < 8 → cls < 8 →
    s.isSafe = false → (s.port p).state = 5 → s.sw.voqs.get? (voqKey tile p cls) = some (e :: rest) →
    s.sw.stored.get? e.stored = some st →
    (s.serves p tile cls fun t c => (t == tile && c == cls) || s.covered p t c).isSome = true →
    (s.covered p tile cls = false →
      ∃ u, Leads s (.frameTransmitted p tile cls) u ∧ u.reg .portCreditStall p = s.countedUp .portCreditStall p ∧
        s.keepsBut [.regs] u) ∧
    (s.covered p tile cls = true →
      ∃ u, Leads s (.frameTransmitted p tile cls) u ∧
        Out.frame p (s.lanesInUse p) { st.frame with hdr := copyHdr st e.copy }
          (e2eCrc (copyHdr st e.copy) st.frame.extn st.frame.payload)
          (hopCrc (copyHdr st e.copy) st.frame.extn st.frame.payload
            (e2eCrc (copyHdr st e.copy) st.frame.extn st.frame.payload)) ∈ u.out ∧
        u.sw.voqs.get? (voqKey tile p cls) = some rest ∧
        (∀ k, k ≠ voqKey tile p cls → u.sw.voqs.get? k = s.sw.voqs.get? k) ∧
        u.sw.stored.get? e.stored = (if st.refs ≤ 1 then none else some { st with refs := st.refs - 1 }) ∧
        (u.port p).txUsed = (s.port p).txUsed.modify e.copy.vc (fun w => (w + frameCredit st.frame.hdr) % 2 ^ 24) ∧
        u.reg .portTxFrames p = s.countedUp .portTxFrames p ∧
        u.reg .portTxCells (p * 8 + st.cls) = s.countedUp .portTxCells (p * 8 + st.cls) st.cells.length ∧
        (∀ q, q ≠ p → u.port q = s.port q) ∧ u.memory = s.memory)) ∧
  ∀ (s : State) (p tile : Nat) (ready : Nat → Nat → Bool), ready tile 7 = true → s.inBudget p tile = true →
    (s.serves p tile 7 ready).isSome = true

/-- R123: GROUP_SETUP at the member's module. A frame settled before is acknowledged again; an install records the members'
local endpoints, unless there are more than 512 or no entry is free; a removal takes them away, and the entry with them where
no module lies beyond. On its way the frame adds or removes the member's module below this one. -/
def Obligations.GroupsAreInstalled : Prop :=
  ∀ (s : State) (d : Delivery), s.reaches d = true →
    (d.frame.hdr.dstNode = s.me → (s.takeInternal d).duplicate d.frame.hdr = true →
      ∃ u, Leads s (.groupSetup d) u ∧ s.keepsBut frameParts u) ∧
    (d.frame.hdr.dstNode = s.me → (s.takeInternal d).duplicate d.frame.hdr = false →
      ∃ u, Leads s (.groupSetup d) u ∧ s.keepsBut (.topo :: frameParts) u ∧
        (getLE d.frame.payload 0 1 = 1 → getLE d.frame.payload 6 2 ≤ 512 →
          ((s.group? d.frame.hdr.srcNode (getLE d.frame.payload 2 2)).isSome = true ∨ s.topo.groups.length < 65536) →
          ∃ g, u.group? d.frame.hdr.srcNode (getLE d.frame.payload 2 2) = some g ∧
            g.locals = (List.range (getLE d.frame.payload 6 2)).map fun i => getLE d.frame.payload (8 + 2 * i) 2) ∧
        (getLE d.frame.payload 0 1 = 1 → (512 < getLE d.frame.payload 6 2 ∨
            (s.group? d.frame.hdr.srcNode (getLE d.frame.payload 2 2)).isSome = false ∧ 65536 ≤ s.topo.groups.length) →
          u.topo = s.topo) ∧
        (getLE d.frame.payload 0 1 ≠ 1 →
          ∀ g, u.group? d.frame.hdr.srcNode (getLE d.frame.payload 2 2) = some g → g.locals = [])) ∧
    (d.frame.hdr.dstNode ≠ s.me → getLE d.frame.payload 0 1 = 1 →
      s.groupRoom d.frame.hdr.srcNode (getLE d.frame.payload 2 2) d.frame.hdr.dstNode = true →
      ∃ u g, Leads s (.groupSetup d) u ∧ u.group? d.frame.hdr.srcNode (getLE d.frame.payload 2 2) = some g ∧
        d.frame.hdr.dstNode ∈ g.down)

/-- R99, R100, R101: the sending side of a flow with nothing queued. An ACK settles the frames it covers, and the refused one,
and tells their owners; the others stay. A frame whose age has reached the flow's rto is sent again with retx until its eighth
send; after that, it is given up and its owner is told that its destination is lost. R103: a FENCE whose earlier frames are
all settled is answered with FENCE_DONE to its sender; another is kept until they are. -/
def Obligations.FlowsAndFences : Prop :=
  (∀ (s : State) (t : TxFlow), s.isSafe = false → t ∈ s.flow.tx → t.queue = [] → s.txFlow t.key = t →
    (∀ d : Delivery, s.reaches d = true → (ackInfo d.frame.payload).multicast = false →
      t.key = ⟨d.frame.hdr.dstNode, d.frame.hdr.dstEp, d.frame.hdr.srcNode, d.frame.hdr.srcEp, d.frame.hdr.job,
        d.frame.hdr.sys, false⟩ →
      ∃ u, Leads s (.ack d) u ∧ s.keepsBut frameParts u ∧
        (u.txFlow t.key).open_ = t.open_.filter (fun x =>
          !((ackInfo d.frame.payload).scope == 2 && (ackInfo d.frame.payload).refusedSeq == x.seq) &&
          !(ackInfo d.frame.payload).covers x.seq) ∧
        (∀ x ∈ t.open_, x.owner ≠ .none →
          (((ackInfo d.frame.payload).scope = 2 ∧ (ackInfo d.frame.payload).refusedSeq = x.seq) →
            (x.owner, Note.refused (ackInfo d.frame.payload).status) ∈ u.flow.notes) ∧
          (¬((ackInfo d.frame.payload).scope = 2 ∧ (ackInfo d.frame.payload).refusedSeq = x.seq) →
            (ackInfo d.frame.payload).covers x.seq = true →
            (x.owner, if (ackInfo d.frame.payload).scope = 1 then Note.absorbed else Note.acked) ∈ u.flow.notes))) ∧
    ∀ (x : Unsettled), t.key.mc = false → t.open_.find? (fun y => y.seq == x.seq) = some x →
      (x.age < s.rto t.key →
        Leads s (.retransmitTimeout (t.key.srcNode, t.key.srcEp) (t.key.dstNode, t.key.dstEp) t.key.job t.key.sys x.seq) s) ∧
      (s.rto t.key ≤ x.age → t.key.sys = true ∨ s.jobHedged t.key.job = false →
        s.destHedged t.key.dstNode t.key.dstEp = false → x.sends < 8 →
        ∃ u, Leads s (.retransmitTimeout (t.key.srcNode, t.key.srcEp) (t.key.dstNode, t.key.dstEp) t.key.job t.key.sys
            x.seq) u ∧ s.keepsBut frameParts u ∧
          (u.txFlow t.key).open_ = t.open_.map fun y =>
            if y.seq == x.seq then { y with sends := y.sends + 1, age := 0 } else y) ∧
      (s.rto t.key ≤ x.age → t.key.sys = true ∨ s.jobHedged t.key.job = false →
        s.destHedged t.key.dstNode t.key.dstEp = false → 8 ≤ x.sends → x.owner ≠ .none →
        ∃ u, Leads s (.retransmitTimeout (t.key.srcNode, t.key.srcEp) (t.key.dstNode, t.key.dstEp) t.key.job t.key.sys
            x.seq) u ∧ s.keepsBut [.flow] u ∧
          (u.txFlow t.key).open_ = t.open_.filter (fun y => y.seq != x.seq) ∧
          (x.owner, Note.lost x.waiting) ∈ u.flow.notes)) ∧
  (∀ (s : State) (d : Delivery), s.reaches d = true → s.flow.fences = [] →
    (((s.takeInternal d).rxFlow (flowOf d.frame.hdr)).settledBelow d.frame.hdr.position = true →
      Leads s (.fence d) ((s.takeInternal d).fenceDone (flowOf d.frame.hdr) d.frame.hdr.position d.frame.hdr.cls)) ∧
    (((s.takeInternal d).rxFlow (flowOf d.frame.hdr)).settledBelow d.frame.hdr.position = false →
      ∃ u, Leads s (.fence d) u ∧ u.flow.fences = [(flowOf d.frame.hdr, d.frame.hdr.position, d.frame.hdr.cls)] ∧
        (s.takeInternal d).keepsBut [.flow] u))

/-- R104: the root of a barrier. A member's first arrival in the current generation is recorded; the last one releases the
generation with OK; a member index out of range or a generation to come is refused; an arrival already recorded changes
nothing. The member timeout after the first arrival releases with MEMBER_TIMEOUT, and not before. -/
def Obligations.BarriersRelease : Prop :=
  ∀ (s : State) (b : BarrierSt) (f : Frame) (o : Option Nat) (m : Nat),
    s.coll.barriers.get? f.hdr.opId = some b → m = getLE f.payload 0 2 →
    (s.newFrame ⟨f, o⟩ = true →
      (b.ranks.length ≤ m ∨ serialNewer 32 (getLE f.payload 4 4) b.gen = true →
        ∃ u, Leads s (.barrierArrive ⟨f, o⟩) u ∧ s.keepsBut frameParts u) ∧
      (m < b.ranks.length → getLE f.payload 4 4 = b.gen → bit b.arrived m = true →
        ∃ u, Leads s (.barrierArrive ⟨f, o⟩) u ∧ s.keepsBut frameParts u) ∧
      (m < b.ranks.length → getLE f.payload 4 4 = b.gen → bit b.arrived m = false →
        b.arrived + 2 ^ m + 1 ≠ 2 ^ b.ranks.length →
        ∃ u, Leads s (.barrierArrive ⟨f, o⟩) u ∧ s.keepsBut (.coll :: frameParts) u ∧
          u.coll = { s.coll with barriers := s.coll.barriers.set f.hdr.opId { b with
            arrived := b.arrived + 2 ^ m, since := if b.arrived = 0 then s.tick.counter else b.since } }) ∧
      (m < b.ranks.length → getLE f.payload 4 4 = b.gen → bit b.arrived m = false →
        b.arrived + 2 ^ m + 1 = 2 ^ b.ranks.length →
        ∃ u since t, Leads s (.barrierArrive ⟨f, o⟩) u ∧ s.keepsBut (.coll :: frameParts) u ∧
          u.coll = { s.coll with barriers := s.coll.barriers.set f.hdr.opId { b with
            gen := (b.gen + 1) % 2 ^ 32, arrived := 0, since := since, last := some (Status.ok, t) } })) ∧
    (s.isSafe = false → b.arrived ≠ 0 →
      b.since + ((s.host.jobs.get? b.job).map JobSt.memberTimeout).getD 4096 ≤ s.tick.counter →
      ∃ u t, Leads s (.barrierMemberTimeout f.hdr.opId) u ∧ s.keepsBut (.coll :: frameParts) u ∧
        u.coll = { s.coll with barriers := s.coll.barriers.set f.hdr.opId { b with
          gen := (b.gen + 1) % 2 ^ 32, arrived := 0, last := some (Status.memberTimeout, t) } }) ∧
    (b.arrived = 0 ∨ s.tick.counter < b.since + ((s.host.jobs.get? b.job).map JobSt.memberTimeout).getD 4096 →
      exec (.barrierMemberTimeout f.hdr.opId) s = .next s ∨ Leads s (.barrierMemberTimeout f.hdr.opId) s)

/-- R228, R230, R231, R233: contributions and partial sums of the running instance at its root. A chunk beyond its slot's is
outside the window: counted, not acknowledged. An earlier chunk, and a set already absorbed, are duplicates: counted and
acknowledged. Checks that disagree with the elements are counted and reported, and the frame is not acknowledged. A disjoint
set is absorbed: its bits join the bitmaps of the slices it covers, and the idle counters of its members are cleared. R229,
R232: in-flight merging. A merge bench that may seal is sealed, and waits for as many answers as it sends partial sums; one
that may not, or is sealed, is left alone. A contribution to the bench's chunk whose members the bench has already absorbed is
counted and answered here, and the bench is not changed. -/
def Obligations.ContributionsAndBenches : Prop :=
  (∀ (s : State) (f : Frame) (o : Option Nat) (k : Instr) (c : CollSt) (i : InstSt) (a : Arrival) (x : SlotRec),
    k = .redContrib ⟨f, o⟩ ∨ k = .redPartial ⟨f, o⟩ → s.newFrame ⟨f, o⟩ = true → s.runs f c i → c.desc.reduces = true →
    c.desc.arrival f = some a → c.committed.contains (f.hdr.position / 256) = false →
    i.slots[f.hdr.position / 256 % c.desc.slots]? = some x →
    (x.c.chunk < f.hdr.position / 256 →
      ∃ u, Leads s k u ∧ u.reg .collWindowDrop 0 = s.countedUp .collWindowDrop 0 ∧ s.keepsBut frameParts u) ∧
    (f.hdr.position / 256 < x.c.chunk ∨ f.hdr.position / 256 = x.c.chunk ∧ x.c.standing a = .duplicate →
      ∃ u, Leads s k u ∧ u.reg .collDupDrop 0 = s.countedUp .collDupDrop 0 ∧
        s.keepsBut frameParts u) ∧
    (f.hdr.position / 256 = x.c.chunk → x.c.standing a = .disjoint → c.desc.checksOk f = false →
      ∃ u, Leads s k u ∧ u.reg .collContribBad 0 = s.countedUp .collContribBad 0 ∧
        u.flt.todo = (s.takeInternal ⟨f, o⟩).flt.todo ++ [({ cls := 6, master := x.c.master, access := 7 }, false)] ∧
        u.flow = s.flow ∧
        u.coll = s.coll ∧ u.memory = s.memory) ∧
    (f.hdr.position / 256 = x.c.chunk → x.c.standing a = .disjoint → c.desc.checksOk f = true →
      absorbSlices a x.c.slices ≠ [] → (∀ sl ∈ absorbSlices a x.c.slices, sl.bitmap ≠ c.desc.full) →
      ∃ u c' i' x', Leads s k u ∧ u.reg .collAbsorbed 0 = s.countedUp .collAbsorbed 0 ∧
        u.coll.ops.get? (f.hdr.opId % 1048576) = some c' ∧ c'.inst = some i' ∧ c'.desc = c.desc ∧ i'.gen = i.gen ∧
        i'.slots[f.hdr.position / 256 % c.desc.slots]? = some x' ∧ x'.c.chunk = x.c.chunk ∧
        x'.c.slices = absorbSlices a x.c.slices ∧
        (∀ m, m < i.idle.length → i'.idle[m]? = if bit a.set m = true then some 0 else i.idle[m]?))) ∧
  (∀ (s : State) (ctx gen chunk : Nat) (c : CollSt) (m : MergeSt), s.isSafe = false → s.coll.ops.get? ctx = some c →
    (c.merges.find? fun m => m.gen == gen && m.c.chunk == chunk) = some m →
    (m.sealed_ = true ∨ s.maySeal c m = false → Leads s (.benchSeal ctx gen chunk) s) ∧
    (m.sealed_ = false → s.maySeal c m = true →
      ∃ u e, Leads s (.benchSeal ctx gen chunk) u ∧ u.memory = s.memory ∧
        (∀ n, n ≠ ctx → u.coll.ops.get? n = s.coll.ops.get? n) ∧
        u.coll.ops.get? ctx = some { c with
          exc := e
          merges := c.merges.map fun n => if n.gen = gen ∧ n.c.chunk = chunk then
            { n with sealed_ := true, unacked := (m.c.slices.filter fun sl => sl.bitmap != 0).length } else n }) ∧
    ∀ (f : Frame) (o : Option Nat) (k : Instr) (a : Arrival), k = .redContrib ⟨f, o⟩ ∨ k = .redPartial ⟨f, o⟩ →
      f.hdr.opId = ctx + 1048576 * gen → ctx < 1048576 → f.hdr.position / 256 = chunk → c.desc.root ≠ s.me →
      f.hdr.dstNode = c.desc.root → c.high = some gen → c.desc.reduces = true → c.desc.arrival f = some a → s.reaches ⟨f, o⟩ = true →
      m.c.standing a = .duplicate →
      ∃ u, Leads s k u ∧ u.reg .collDupDrop 0 = s.countedUp .collDupDrop 0 ∧ s.keepsBut frameParts u)

/-- R227, R233: data frames of the running instance at its root. A segment of a gather whose sender owns the chunk, not held
yet, is written to its slot's buffer and held; one of an earlier chunk, or held already, is a duplicate; one beyond the window
is dropped uncommitted. A sent-all marker of a member of an all-to-all is recorded. R222, R237, R239, R240: what ends an
instance at its root: an abort frame of a member, with ABORTED, and a member that has been idle for member_timeout, with
MEMBER_TIMEOUT. The ended generation and its status are kept, and the next generation is the one that follows. No timeout, no
effect. -/
def Obligations.GatherDataAndEndings : Prop :=
  (∀ (s : State) (f : Frame) (o : Option Nat) (c : CollSt) (i : InstSt) (m : Nat),
    s.newFrame ⟨f, o⟩ = true → s.runs f c i → s.senderMember c.job c.desc f.hdr = some m →
    (∀ x : SlotRec, c.desc.kind = 5 ∨ c.desc.kind = 6 →
      (if c.desc.kind = 5 then c.desc.shardOwner (f.hdr.position / 256) else c.desc.special) = m →
      f.hdr.position / 256 < c.desc.chunks → f.hdr.position % 256 < c.desc.segs (f.hdr.position / 256) c.desc.fmt →
      f.payload.length = segBytes c.desc.fmt (c.desc.segLen (f.hdr.position / 256) c.desc.fmt (f.hdr.position % 256)) →
      i.slots[f.hdr.position / 256 % c.desc.slots]? = some x →
      (x.c.chunk < f.hdr.position / 256 →
        ∃ u, Leads s (.collData ⟨f, o⟩) u ∧ u.reg .collWindowDrop 0 = s.countedUp .collWindowDrop 0 ∧
          s.keepsBut frameParts u) ∧
      (f.hdr.position / 256 < x.c.chunk ∨
          f.hdr.position / 256 = x.c.chunk ∧ (x.held.get? (f.hdr.position % 256)).isSome = true →
        ∃ u, Leads s (.collData ⟨f, o⟩) u ∧ u.reg .collDupDrop 0 = s.countedUp .collDupDrop 0 ∧
          s.keepsBut frameParts u) ∧
      (f.hdr.position / 256 = x.c.chunk → (x.held.get? (f.hdr.position % 256)).isSome = false →
        x.held.length + 1 ≠ c.desc.segs (f.hdr.position / 256) c.desc.fmt →
        ∃ u c' i' x', Leads s (.collData ⟨f, o⟩) u ∧
          u.memory = (s.writeMem (x.c.sett + f.hdr.position % 256 * segBytes c.desc.fmt (segElems c.desc.fmt)) f.payload).memory ∧
          u.coll.ops.get? (f.hdr.opId % 1048576) = some c' ∧ c'.inst = some i' ∧
          i'.slots[f.hdr.position / 256 % c.desc.slots]? = some x' ∧
          x'.held = x.held.set (f.hdr.position % 256) (f.extn.getD {}) ∧ x'.c = x.c ∧
          s.keepsBut (.coll :: .mem :: frameParts) u)) ∧
    (c.desc.kind = 7 → isMarker f = true → (∃ n, n < c.desc.members ∧ n ≠ m ∧ n ∉ i.sentAll) →
      ∃ u c' i', Leads s (.collData ⟨f, o⟩) u ∧ u.coll.ops.get? (f.hdr.opId % 1048576) = some c' ∧ c'.inst = some i' ∧
        (∀ n, n ∈ i'.sentAll ↔ n = m ∨ n ∈ i.sentAll) ∧ s.keepsBut (.coll :: frameParts) u)) ∧
  (∀ (s : State) (f : Frame) (o : Option Nat) (c : CollSt) (i : InstSt), s.isSafe = false → s.runs f c i →
    (s.newFrame ⟨f, o⟩ = true →
      ∃ u c', Leads s (.collAbortFrame ⟨f, o⟩) u ∧ u.coll.ops.get? (f.hdr.opId % 1048576) = some c' ∧ c'.inst = none ∧
        c'.last = some (i.gen, Status.aborted) ∧ c'.next = (i.gen + 1) % 4096 ∧ c'.desc = c.desc ∧
        u.reg .collInstancesDone 0 = s.countedUp .collInstancesDone 0 ∧ u.memory = s.memory) ∧
    (∀ m, (List.range i.idle.length).find? (fun m => decide (s.memberTimeout c ≤ i.idle.getD m 0)) = some m →
      ∃ u c', Leads s (.memberIdleTimeout (f.hdr.opId % 1048576)) u ∧
        u.coll.ops.get? (f.hdr.opId % 1048576) = some c' ∧ c'.inst = none ∧ c'.timedOut = m ∧
        c'.last = some (i.gen, Status.memberTimeout) ∧ c'.next = (i.gen + 1) % 4096 ∧ c'.desc = c.desc ∧
        u.reg .collInstancesDone 0 = s.countedUp .collInstancesDone 0 ∧ u.memory = s.memory) ∧
    ((∀ m, m < i.idle.length → i.idle.getD m 0 < s.memberTimeout c) →
      Leads s (.memberIdleTimeout (f.hdr.opId % 1048576)) s))

/-- R269, R271: the owner answers a fetch. A refused one is counted and changes no block; an accepted one is counted, and a
subscriber that did not set no_hold holds the version. A release takes away the subscriber's hold of the version and of every
older one; with no block to match it is counted, and so is the release of a version not held. -/
def Obligations.WeightsAreServed : Prop :=
  ∀ (s : State) (f : Frame) (o : Option Nat), s.newFrame ⟨f, o⟩ = true →
    (s.disabled 1 f.hdr.job = true ∨ s.fetchRefusal f.hdr.job f.payload ≠ none →
      ∃ u, Leads s (.weightFetch ⟨f, o⟩) u ∧ u.reg .paramFetchRefused 0 = s.countedUp .paramFetchRefused 0 ∧
        s.keepsBut frameParts u) ∧
    (∀ ctx b, s.disabled 1 f.hdr.job = false → s.fetchRefusal f.hdr.job f.payload = none →
      s.blockOf f.hdr.job (getLE f.payload 0 4) = some (ctx, b) →
      ∃ u, Leads s (.weightFetch ⟨f, o⟩) u ∧ u.reg .paramFetchServed 0 = s.countedUp .paramFetchServed 0 ∧
        s.keepsBut (.parm :: frameParts) u ∧
        u.parm.blocks.get? ctx = some (match s.subOf b f.hdr with
          | some i => if bit (getLE f.payload 9 1) 0 = true then b
                      else { b with holds := b.holds.upd (getLE f.payload 4 4) 0 fun w => w ||| 2 ^ i }
          | none => b) ∧
        ∀ n, n ≠ ctx → u.parm.blocks.get? n = s.parm.blocks.get? n) ∧
    ((∀ n b, (n, b) ∈ s.parm.blocks → b.job = f.hdr.job → b.kind ≠ 3 →
        ¬(getLE f.payload 0 4 = 0xFFFFFFFF ∧ b.group = getLE f.payload 4 2) ∧
        ¬(getLE f.payload 0 4 ≠ 0xFFFFFFFF ∧ b.id = getLE f.payload 0 4)) →
      ∃ u, Leads s (.versionRelease ⟨f, o⟩) u ∧ u.reg .paramReleaseUnheld 0 = s.countedUp .paramReleaseUnheld 0 ∧
        s.keepsBut frameParts u) ∧
    ∀ ctx b i, getLE f.payload 0 4 ≠ 0xFFFFFFFF →
      (s.parm.blocks.filter fun kv => kv.2.job == f.hdr.job && kv.2.kind != 3 && kv.2.id == getLE f.payload 0 4) =
        [(ctx, b)] →
      s.parm.blocks.get? ctx = some b → s.subOf b f.hdr = some i →
      ∃ u, Leads s (.versionRelease ⟨f, o⟩) u ∧ s.keepsBut (.parm :: frameParts) u ∧
        (bit (b.holds.getD (getLE f.payload 8 4) 0) i = false →
          u.reg .paramReleaseUnheld 0 = s.countedUp .paramReleaseUnheld 0) ∧
        u.parm.blocks.get? ctx = some { b with holds := b.holds.map (fun kv =>
          if kv.1 ≤ getLE f.payload 8 4 ∧ bit kv.2 i = true then (kv.1, kv.2 - 2 ^ i) else kv) } ∧
        ∀ n, n ≠ ctx → u.parm.blocks.get? n = s.parm.blocks.get? n

/-- R258, R259, R265: the boundary after a commit opens the block's next step, and not before; a piece at hand is added,
counted and leaves the queue, and its sett; pieces without a sett are offered again, in order, and nothing else of a piece
changes. R253, R260: UPDATE_START takes a CLOSED block that may be updated into UPDATING, the end of the wait takes a block in
HOLD_WAIT there: at its first stage, with nothing done, its step and version as they were. A block that may not stays. The
hold timeout fails a block in HOLD_WAIT with VERSION_HELD, and not before its time. -/
def Obligations.StepsAndUpdates : Prop :=
  (∀ (s : State) (job id ctx : Nat) (b : BlockSt), s.isSafe = false → s.blockOf job id = some (ctx, b) →
    (b.state ≠ 5 ∨ b.committedAt = none ∨ (∃ t, b.committedAt = some t ∧ s.tick.counter ≤ t) →
      Leads s (.nextStepOpen id job) s) ∧
    (∀ t, b.state = 5 → b.committedAt = some t → t < s.tick.counter → b.doomed = false →
      ∃ u b', Leads s (.nextStepOpen id job) u ∧ u.parm.blocks.get? ctx = some b' ∧ b'.state = 2 ∧
        b'.step = b.step + 1 ∧ b'.started = 0 ∧ b'.failed = 0 ∧ b'.committedAt = none ∧ u.memory = s.memory ∧
        (b.kind = 1 → b.noTrans = false → b'.version = b.version ∧ b'.producing = some (b.version + 1)) ∧
        (b.kind ≠ 1 ∨ b.noTrans = true → b'.version = b.version + 1 ∧ b'.producing = none ∧
          b'.holds.get? (b.version + 1) = some b.allSubs)) ∧
    (∀ t, b.state = 5 → b.committedAt = some t → t < s.tick.counter → b.doomed = true →
      ∃ u, Leads s (.nextStepOpen id job) u ∧ u.parm.blocks = s.parm.blocks.erase ctx) ∧
    (∀ unit, (∀ p ∈ s.parm.pieces, p.block = ctx → p.unit = unit → p.sett = none) →
      Leads s (.pieceCommit id job unit) s) ∧
    (∀ unit p, (s.parm.pieces.find? fun p => p.block == ctx && p.unit == unit && p.sett.isSome) = some p →
      (s.channel (naturalChannel (unitPosition unit))).migrating = false →
      ∃ u, Leads s (.pieceCommit id job unit) u ∧ u.reg .paramPieces 0 = s.countedUp .paramPieces 0 ∧
        u.parm = { s.parm with pieces := s.parm.pieces.erase p }) ∧
    ((∀ p ∈ s.parm.pieces, p.sett.isSome = true) → Leads s .pieceRetry s) ∧
    ∃ u, Leads s .pieceRetry u ∧ u.parm.pieces.length = s.parm.pieces.length ∧ u.parm.blocks = s.parm.blocks ∧
      ∀ (i : Nat) (p : Piece), s.parm.pieces[i]? = some p →
        ∃ q, u.parm.pieces[i]? = some { p with sett := q } ∧ (p.sett.isSome = true → q = p.sett)) ∧
  (∀ (s : State) (job id ctx : Nat) (b : BlockSt), s.isSafe = false → s.blockOf job id = some (ctx, b) →
    (b.state ≠ 3 ∨ s.mayUpdate ctx = false → Leads s (.updateStart id job) s) ∧
    (b.state ≠ 4 ∨ s.mayUpdate ctx = false → Leads s (.holdWaitEnd id job) s) ∧
    (∀ k : Instr, k = .updateStart id job ∧ b.state = 3 ∨ k = .holdWaitEnd id job ∧ b.state = 4 → s.mayUpdate ctx = true →
      b.publishing = false →
      (s.tieMembers b ≠ [] ∨ ∃ st, (s.optOf b).stages[0]? = some st ∧ st.kind = 1 ∧
        (s.eng.kernels.get? st.kernel).isSome = true) →
      ∃ u b', Leads s k u ∧ u.parm.blocks.get? ctx = some b' ∧ b'.state = 5 ∧ b'.stage = 0 ∧ b'.done = [] ∧ b'.kept = 0 ∧
        b'.run = none ∧ b'.tiePass = !(s.tieMembers b).isEmpty ∧ b'.step = b.step ∧ b'.version = b.version ∧
        u.memory = s.memory) ∧
    (b.state ≠ 4 ∨ s.tick.counter < b.holdSince + b.holdTimeout → Leads s (.holdTimeout id job) s) ∧
    (b.state = 4 → b.holdSince + b.holdTimeout ≤ s.tick.counter →
      ∃ u b', Leads s (.holdTimeout id job) u ∧ u.parm.blocks.get? ctx = some b' ∧ b'.state = 6 ∧
        b'.lastStatus = Status.versionHeld ∧ b'.step = b.step ∧ b'.version = b.version ∧
        u.reg .paramUpdateFailed 0 = s.countedUp .paramUpdateFailed 0 ∧ u.memory = s.memory))

/-- R282, R284–R286: a put at the stash unit. A refused one changes nothing of the stash; a segment of an entry being filled
is written to its place and counted, and completes the entry when it is the last; the first segment of a new entry makes it,
in the extents found for it; without room it is refused and counted. An entry without a segment for put_timeout ticks is
freed. R287–R289: a get that is accepted is entered with the segments it returns, and takes a consumed entry to DROPPING; a
drop of one tag that names no entry is refused; one that names a COMPLETE entry with no get under way frees it. -/
def Obligations.StashFrames : Prop :=
  (∀ (s : State) (f : Frame) (o : Option Nat) (r : StashRes) (tag seg : Nat), tag = getLE f.payload 0 8 →
    seg = getLE f.payload 12 4 → s.stash.res.get? f.hdr.job = some r →
    (s.newFrame ⟨f, o⟩ = true →
      (s.stashRefusal f.hdr ≠ none ∨ seg = 0 ∧ s.disabled 2 f.hdr.job = true ∨ s.putRefusal f.hdr r f.payload ≠ none →
        ∃ u, Leads s (.stashPut ⟨f, o⟩) u ∧ s.keepsBut frameParts u) ∧
      (s.stashRefusal f.hdr = none → (seg = 0 → s.disabled 2 f.hdr.job = false) → s.putRefusal f.hdr r f.payload = none →
        (∀ e, s.stashEnt f.hdr.job f.hdr.srcRank tag = some e →
          ∃ u e', Leads s (.stashPut ⟨f, o⟩) u ∧ u.stashEnt f.hdr.job f.hdr.srcRank tag = some e' ∧
            e'.committed = e.committed + 1 ∧ e'.state = (if e.committed + 1 = e.segments then 2 else 1) ∧
            e'.bytes = e.bytes ∧ e'.extents = e.extents ∧
            u.memory = (s.writeMem (e.segAddr r.extent seg) (f.payload.drop 64)).memory ∧
            u.reg .stashPutSegments 0 = s.countedUp .stashPutSegments 0 ∧
            s.keepsBut (.stash :: .mem :: .host :: frameParts) u) ∧
        (∀ exts borrowed r', s.stashEnt f.hdr.job f.hdr.srcRank tag = none →
          s.stashRoom f.hdr.job r (ceilDiv (getLE f.payload 8 4) r.extent) = some (exts, borrowed, r') →
          ∃ u e', Leads s (.stashPut ⟨f, o⟩) u ∧ u.stash.ents = s.stash.ents ++ [e'] ∧ e'.job = f.hdr.job ∧
            e'.holder = f.hdr.srcRank ∧ e'.tag = tag ∧ e'.extents = exts ∧ e'.borrowed = borrowed ∧
            e'.bytes = getLE f.payload 8 4 ∧ e'.committed = 1 ∧
            e'.state = (if ceilDiv (getLE f.payload 8 4) 4096 = 1 then 2 else 1) ∧
            u.memory = (s.writeMem (e'.segAddr r.extent 0) (f.payload.drop 64)).memory ∧
            u.reg .stashCreated 0 = s.countedUp .stashCreated 0 ∧
            u.reg .stashPutSegments 0 = s.countedUp .stashPutSegments 0 ∧
            s.keepsBut (.stash :: .mem :: frameParts) u) ∧
        (s.stashEnt f.hdr.job f.hdr.srcRank tag = none →
          s.stashRoom f.hdr.job r (ceilDiv (getLE f.payload 8 4) r.extent) = none →
          ∃ u, Leads s (.stashPut ⟨f, o⟩) u ∧ u.stash.ents = s.stash.ents ∧
            u.reg .stashFullCount 0 = s.countedUp .stashFullCount 0 ∧
            s.keepsBut (.stash :: frameParts) u))) ∧
    ∀ e holder, s.isSafe = false → s.stashEnt f.hdr.job holder tag = some e →
      (e.state ≠ 1 ∨ e.age < s.cfg .stashCfg 0 0 16 → Leads s (.putTimeout f.hdr.job holder tag) s) ∧
      (e.state = 1 → s.cfg .stashCfg 0 0 16 ≤ e.age →
        ∃ u, Leads s (.putTimeout f.hdr.job holder tag) u ∧ u.stashEnt f.hdr.job holder tag = none ∧
          u.reg .stashPutExpired 0 = s.countedUp .stashPutExpired 0 ∧ s.keepsBut [.stash, .host, .regs] u)) ∧
  (∀ (s : State) (f : Frame) (o : Option Nat) (r : StashRes) (e : StashEnt), s.newFrame ⟨f, o⟩ = true →
    s.stash.res.get? f.hdr.job = some r → s.stashRefusal f.hdr = none →
    (s.disabled 2 f.hdr.job = true ∨ s.getRefusal f.hdr f.payload ≠ none →
      ∃ u, Leads s (.stashGet ⟨f, o⟩) u ∧ s.keepsBut frameParts u) ∧
    (s.disabled 2 f.hdr.job = false → s.getRefusal f.hdr f.payload = none →
      s.stashEnt f.hdr.job f.hdr.srcRank (getLE f.payload 0 8) = some e →
      ∃ u g, Leads s (.stashGet ⟨f, o⟩) u ∧ u.stash.nextGet = s.stash.nextGet + 1 ∧ g ∈ u.stash.gets ∧
        g.id = s.stash.nextGet ∧ g.job = f.hdr.job ∧ g.holder = f.hdr.srcRank ∧ g.tag = e.tag ∧ g.seq = f.hdr.seq ∧
        g.segments = (if getLE f.payload 12 4 = 0 then e.segments - getLE f.payload 8 4 else getLE f.payload 12 4) ∧
        u.memory = s.memory ∧ (bit (getLE f.payload 16 1) 0 = false → u.stash.ents = s.stash.ents) ∧
        (bit (getLE f.payload 16 1) 0 = true →
          (u.stashEnt f.hdr.job f.hdr.srcRank (getLE f.payload 0 8)).map StashEnt.state = some 3)) ∧
    (getLE f.payload 8 8 = 2 ^ 64 - 1 → s.stashEnt f.hdr.job f.hdr.srcRank (getLE f.payload 0 8) = none →
      ∃ u, Leads s (.stashDrop ⟨f, o⟩) u ∧ s.keepsBut frameParts u) ∧
    (getLE f.payload 8 8 = 2 ^ 64 - 1 →
      (s.stash.ents.filter fun x => x.job == f.hdr.job && x.holder == f.hdr.srcRank && x.tag == getLE f.payload 0 8) = [e] →
      e.state = 2 → (s.getsOn e).isEmpty = true → e.tag < 2 ^ 64 → (∀ x ∈ s.stash.ents, x.tag < 2 ^ 64) →
      ∃ u, Leads s (.stashDrop ⟨f, o⟩) u ∧ u.stash.ents = s.stash.ents.filter (fun x => x != e) ∧
        u.reg .stashDropped 0 = s.countedUp .stashDropped 0 ∧ u.memory = s.memory))

/-- R413, R414, R420–R422: a Stozil contribution. With Stozil mode off, or from a job that may not use it, it is refused; one
beyond the window of a running operation is dropped without an answer; a duplicate is counted; a new one is absorbed: its half
of the chunk is marked for the sender's rank. -/
def Obligations.StozilContributions : Prop :=
  ∀ (s : State) (f : Frame) (p : Option Nat), s.newFrame ⟨f, p⟩ = true →
    (s.stozilOn = false → ∃ u, Leads s (.stozilOp ⟨f, p⟩) u ∧ s.keepsBut frameParts u ∧
      u.stz.ops = s.stz.ops) ∧
    (∀ j, s.stozilOn = true → s.host.jobs.get? f.hdr.job = some j → j.stozil = false →
      ∃ u, Leads s (.stozilOp ⟨f, p⟩) u ∧ s.keepsBut frameParts u ∧ u.stz.ops = s.stz.ops) ∧
    ∀ (j : JobSt) (n : Nat) (o : StzOp) (pr : Nat × Nat), s.stozilOn = true → s.host.jobs.get? f.hdr.job = some j →
      j.stozil = true → getLE f.payload 16 1 = 0 → f.hdr.opId < 65536 → s.stzFind f.hdr.job f.hdr.opId = some (n, o) →
      s.stz.ops.get? n = some o → o.pair = some pr →
      (o.inWindow (f.hdr.position / 256) = false →
        ∃ u, Leads s (.stozilOp ⟨f, p⟩) u ∧ s.keepsBut frameParts u) ∧
      (o.inWindow (f.hdr.position / 256) = true → f.payload.take 16 = o.desc → f.hdr.position % 256 < 2 →
        o.segLen (f.hdr.position / 256) (f.hdr.position % 256) ≠ 0 →
        f.payload.length = 64 + 4 * o.segLen (f.hdr.position / 256) (f.hdr.position % 256) →
        (bit (if f.hdr.position % 256 = 0 then (o.chunk (f.hdr.position / 256)).low
              else (o.chunk (f.hdr.position / 256)).high) f.hdr.srcRank = true →
          ∃ u, Leads s (.stozilOp ⟨f, p⟩) u ∧ u.reg .collStozilDupDrop 0 = s.countedUp .collStozilDupDrop 0 ∧
            u.stz.ops = s.stz.ops ∧ u.memory = s.memory) ∧
        (bit (if f.hdr.position % 256 = 0 then (o.chunk (f.hdr.position / 256)).low
              else (o.chunk (f.hdr.position / 256)).high) f.hdr.srcRank = false →
          ∃ u o', Leads s (.stozilOp ⟨f, p⟩) u ∧ u.stz.ops.get? n = some o' ∧ o'.desc = o.desc ∧ o'.pair = o.pair ∧
            (o'.chunk (f.hdr.position / 256)).low = (if f.hdr.position % 256 = 0 then
              (o.chunk (f.hdr.position / 256)).low ||| 2 ^ f.hdr.srcRank else (o.chunk (f.hdr.position / 256)).low) ∧
            (o'.chunk (f.hdr.position / 256)).high = (if f.hdr.position % 256 = 0 then
              (o.chunk (f.hdr.position / 256)).high else (o.chunk (f.hdr.position / 256)).high ||| 2 ^ f.hdr.srcRank)))

/-- R201, R207, R212, R213, R216: what engines and NCUs report. An idle engine's report changes nothing; a good job frees its
engine and is counted, whatever its results lead to; a failed check retires the engine for cause and is a fault of class 0. The
test's turn takes a tile's next engine, no two at once; an engine that passes is a spare again, one that fails is retired and
reported. A late kernel step is counted, and the NCU's next one issues a tick later. R206, R208, R212: the assignment point. Spares enter service while a tile has fewer than 128 engines in
service, lowest index first, and no engine changes its state otherwise; an engine is given a job only where it is in service
and has none, and only a job issued before this tick. A committed payload of ENG_JOB_IN is written to its buffer and counted.
-/
def Obligations.EnginesAndAssignment : Prop :=
  (∀ (s : State) (e : Nat), s.isSafe = false → engineIn e = true →
    (∀ r, (s.engine (engineKey e)).running = none → Leads s (.tickJobComplete e r) s) ∧
    (∀ q, (s.engine (engineKey e)).running = some q → (s.engine (engineKey e)).suppressed = true →
      (s.engine (engineKey e)).state = 1 →
      ∃ u, Leads s (.tickJobComplete e .good) u ∧
        u.engine (engineKey e) = { s.engine (engineKey e) with
          running := none, suppressed := false, late := false, active := {} } ∧
        u.reg .engJobsDone (engineKey e / 136) = s.countedUp .engJobsDone (engineKey e / 136) ∧
        (∀ k, k ≠ engineKey e → u.engine k = s.engine k) ∧ s.keepsBut [.eng, .regs] u) ∧
    (∀ q, (s.engine (engineKey e)).running = some q →
      ∃ u, Leads s (.tickJobComplete e .good) u ∧ (u.engine (engineKey e)).running = none ∧
        u.reg .engJobsDone (engineKey e / 136) = s.countedUp .engJobsDone (engineKey e / 136)) ∧
    (∀ q r, r ≠ JobEnd.good → (s.engine (engineKey e)).running = some q → (s.engine (engineKey e)).suppressed = false →
      ∃ u, Leads s (.tickJobComplete e r) u ∧ (u.engine (engineKey e)).state = 4 ∧
        (u.engine (engineKey e)).fault = true ∧ (u.engine (engineKey e)).running = none ∧
        u.reg .engCheckErr (engineKey e / 136) = s.countedUp .engCheckErr (engineKey e / 136) ∧
        engineName (engineKey e) ∈ u.mgt.engines ∧ u.memory = s.memory ∧
        u.flt.todo = s.flt.todo ++
          [({ cls := 0, master := masterId 0 (engineKey e / 136) (engineKey e % 136), access := 7 }, false)]) ∧
    (∀ t i, t < 8 → (∀ k ∈ tileEngines t, (s.engine k).state ≠ 2 ∧ ¬((s.engine k).state = 3 ∧ (s.engine k).forTest = true)) →
      (rotated 136 (s.eng.testTurn.getD t 0)).find? (fun i => (s.engine (t * 136 + i)).state ≤ 1) = some i →
      ∃ u, Leads s (.engineTestStart t) u ∧ u.eng.testTurn.get? t = some ((i + 1) % 136) ∧ s.keepsBut [.eng] u ∧
        (if (s.engine (t * 136 + i)).state = 1 then
          (u.engine (t * 136 + i)).state = 3 ∧ (u.engine (t * 136 + i)).forTest = true
        else (u.engine (t * 136 + i)).state = 2)) ∧
    (∀ t k, t < 8 → k ∈ tileEngines t → (s.engine k).state = 2 → Leads s (.engineTestStart t) s) ∧
    (∀ pass, (s.engine (engineKey e)).state ≠ 2 → Leads s (.engineTestComplete e pass) s) ∧
    ((s.engine (engineKey e)).state = 2 →
      (∃ u, Leads s (.engineTestComplete e true) u ∧
        u.engine (engineKey e) = { s.engine (engineKey e) with state := 0 } ∧
        (∀ k, k ≠ engineKey e → u.engine k = s.engine k) ∧ s.keepsBut [.eng] u) ∧
      ∃ u, Leads s (.engineTestComplete e false) u ∧ (u.engine (engineKey e)).state = 4 ∧
        (u.engine (engineKey e)).fault = true ∧ engineName (engineKey e) ∈ u.mgt.engines ∧
        u.reg .engTestFail (engineKey e / 136) = s.countedUp .engTestFail (engineKey e / 136) ∧
        u.flt.todo = s.flt.todo ++
          [({ cls := 0, master := masterId 0 (engineKey e / 136) (engineKey e % 136), access := 9 }, false)]) ∧
    ∀ ch, ch < 128 →
      (∀ late, s.tick.counter < s.eng.ncuNext.getD ch 0 → Leads s (.ncuKernelStepComplete ch late) s) ∧
      (s.eng.ncuNext.getD ch 0 ≤ s.tick.counter → s.nextForNcu ch = none →
        (∃ u, Leads s (.ncuKernelStepComplete ch true) u ∧ u.eng.ncuNext.get? ch = some (s.tick.counter + 2) ∧
          u.reg .engNcuLate (channelTile ch) = s.countedUp .engNcuLate (channelTile ch) ∧ s.keepsBut [.eng, .regs] u) ∧
        ∃ u, Leads s (.ncuKernelStepComplete ch false) u ∧ u.eng.ncuNext.get? ch = some (s.tick.counter + 1) ∧
          s.keepsBut [.eng] u)) ∧
  (∀ s : State, s.isSafe = false →
    (∃ u, Leads s .assignmentPoint u ∧ s.keepsBut [.eng, .regs, .parm] u ∧
      (∀ t k, t < 8 → k ∈ tileEngines t → (u.engine k).state =
        if k ∈ (s.enginesIn t 0).take (128 - (s.enginesIn t 1).length) then 1 else (s.engine k).state) ∧
      ∀ k q, (u.engine k).assigned = some q → (s.engine k).assigned = some q ∨
        ((s.engine k).assigned = none ∧ (u.engine k).state = 1 ∧ q.at_ < s.tick.counter)) ∧
    ∀ (f : Frame) (o : Option Nat) (p : ProgSt), s.newFrame ⟨f, o⟩ = true →
      (s.jobInRefusal f ≠ none → ∃ u, Leads s (.engJobIn ⟨f, o⟩) u ∧ s.keepsBut frameParts u) ∧
      (s.jobInRefusal f = none → s.prog? (f.hdr.opId % 1048576) = some p → p.run = none →
        ∃ u, Leads s (.engJobIn ⟨f, o⟩) u ∧ s.keepsBut (.eng :: .mem :: frameParts) u ∧
          u.prog? (f.hdr.opId % 1048576) = some { p with input := (p.input.upd (f.hdr.position / 2 ^ 28) 0 fun n =>
            n + min f.payload.length ((p.buffers.getD (f.hdr.position / 2 ^ 28) {}).size -
              f.hdr.position % 2 ^ 28 * 64)) } ∧
          u.memory = (s.writeBuf p (f.hdr.position / 2 ^ 28) (f.hdr.position % 2 ^ 28 * 64)
            (f.payload.take ((p.buffers.getD (f.hdr.position / 2 ^ 28) {}).size - f.hdr.position % 2 ^ 28 * 64))).memory))

/-- R153, R155–R165: requests and releases of the internal units, one operation in a cycle. A request that a pool serves takes
its sett for the requester, and P0's own requester a cell of its tile; one that none serves changes no sett; the unit is
answered. A free by the owner returns the sett; by another requester it is refused, counted and, for a unit, a fault of class
13; a give changes the owner; references and releases change the count, and the sett returns at zero. -/
def Obligations.SettsOfUnits : Prop :=
  ∀ (s : State) (o : PoolOp), s.isSafe = false →
    (o.op = 1 → o.tile < 8 → requesterOk o.requester = true → 0 < o.size → o.size ≤ 16 * mib →
      (∀ a k, (s.tryPools o.requester o.tile (poolsFor o.size o.spill)).1 = some (a, k) →
        ∃ u, Leads s (.settRequest o.unit o.requester o.toPoolAsk []) u ∧ u.pool.setts = s.pool.setts.set a { pool := k, owner := o.requester } ∧
          u.out = .sett o.unit o.requester 1 a k Status.ok :: s.out ∧
          u.reg .poolAllocOk k = s.countedUp .poolAllocOk k ∧ s.keepsBut [.pool, .regs, .out] u) ∧
      ((s.tryPools o.requester o.tile (poolsFor o.size o.spill)).1 = none →
        ∃ u os, Leads s (.settRequest o.unit o.requester o.toPoolAsk []) u ∧ s.keepsBut [.regs, .mgt, .fresh, .out, .flt] u ∧
          u.out = .sett o.unit o.requester 1 0 0 (s.tryPools o.requester o.tile (poolsFor o.size o.spill)).2.1 :: os ∧
          ((s.tryPools o.requester o.tile (poolsFor o.size o.spill)).2.1 = Status.poolEmpty →
            u.reg .poolEmptyFail (s.tryPools o.requester o.tile (poolsFor o.size o.spill)).2.2 =
              s.countedUp .poolEmptyFail (s.tryPools o.requester o.tile (poolsFor o.size o.spill)).2.2) ∧
          ((s.tryPools o.requester o.tile (poolsFor o.size o.spill)).2.1 = Status.quotaExceeded →
            u.reg .poolQuotaFail (s.tryPools o.requester o.tile (poolsFor o.size o.spill)).2.2 =
              s.countedUp .poolQuotaFail (s.tryPools o.requester o.tile (poolsFor o.size o.spill)).2.2))) ∧
    (o.op = 1 → o.tile < 8 → o.requester = 0 → 0 < o.size → o.size ≤ 512 →
      (∀ a as, s.pickCells o.tile 1 = some (a :: as) →
        ∃ u, Leads s (.settRequest o.unit o.requester o.toPoolAsk []) u ∧ (∃ x, u.pool.setts.get? a = some x ∧ x.pool = 0) ∧
          (∀ b, b ≠ a → u.pool.setts.get? b = s.pool.setts.get? b) ∧
          u.out = .sett o.unit 0 1 a 0 Status.ok :: s.out ∧ s.keepsBut [.pool, .regs, .out] u) ∧
      (s.pickCells o.tile 1 = none →
        ∃ u os, Leads s (.settRequest o.unit o.requester o.toPoolAsk []) u ∧ u.out = .sett o.unit 0 1 0 0 Status.poolEmpty :: os ∧
          u.reg .poolEmptyFail 0 = s.countedUp .poolEmptyFail 0 ∧ s.keepsBut [.regs, .mgt, .fresh, .out, .flt] u)) ∧
    (∀ k x, s.settAt o.addr = (some k, true) → s.refcount k = false → s.pool.setts.get? o.addr = some x →
      (o.op = 2 → x.owner = o.requester → ∃ u, Leads s (.settRelease o.unit o.requester o.toPoolAsk []) u ∧
        u.pool.setts = s.pool.setts.erase o.addr ∧ u.reg .poolFreeOk k = s.countedUp .poolFreeOk k ∧
        s.keepsBut [.pool, .regs, .out] u) ∧
      (o.op = 2 → x.owner ≠ o.requester → ∃ u, Leads s (.settRelease o.unit o.requester o.toPoolAsk []) u ∧
        u.reg .poolFreeNotOwner k = s.countedUp .poolFreeNotOwner k ∧ u.pool = s.pool ∧ u.memory = s.memory ∧
        (o.requester ≤ 25 → u.flt.todo = s.flt.todo ++ [({ cls := 13, master := o.unit, addr := o.addr }, false)])) ∧
      (o.op = 3 → x.owner = o.requester → o.other ≤ 1023 → s.recipientOk o.other = true → s.quotaRefusal o.other k = none →
        ∃ u, Leads s (.settRelease o.unit o.requester o.toPoolAsk []) u ∧
          u.pool = { s.pool with setts := s.pool.setts.set o.addr { x with owner := o.other } } ∧ s.keepsBut [.pool, .out] u)) ∧
    (∀ k x, s.settAt o.addr = (some k, true) → s.refcount k = true → s.pool.setts.get? o.addr = some x →
      (o.op = 4 → x.count + o.other ≤ 4095 → 0 < x.count + o.other → ∃ u, Leads s (.settRelease o.unit o.requester o.toPoolAsk []) u ∧
        u.pool = { s.pool with setts := s.pool.setts.set o.addr { x with count := x.count + o.other } } ∧
        s.keepsBut [.pool, .out] u) ∧
      (o.op = 5 → o.other < x.count → x.count ≤ 4095 → ∃ u, Leads s (.settRelease o.unit o.requester o.toPoolAsk []) u ∧
        u.pool = { s.pool with setts := s.pool.setts.set o.addr { x with count := x.count - o.other } } ∧
        s.keepsBut [.pool, .out] u) ∧
      (o.op = 5 → o.other = x.count → ∃ u, Leads s (.settRelease o.unit o.requester o.toPoolAsk []) u ∧
        u.pool.setts = s.pool.setts.erase o.addr ∧ u.reg .poolFreeOk k = s.countedUp .poolFreeOk k ∧
        s.keepsBut [.pool, .regs, .out] u) ∧
      (o.op = 5 → x.count < o.other → ∃ u, Leads s (.settRelease o.unit o.requester o.toPoolAsk []) u ∧ u.pool = s.pool ∧
        u.reg .poolUnderflow k = s.countedUp .poolUnderflow k))

/-- R304, R305, R310, R313, R318: mailbox commands. NOP does nothing and completes. BIND names a queue pair that is open, for
a mailbox without one: it takes its parameters, new keys are issued, P starts at 0 the first time, and completions that were
held are no longer held. UNBIND takes the queue pair away; STATUS returns P, the oldest open command, how many are open, and
the queue pair. Other mailboxes keep their state. CANCEL of a command that nothing holds is refused. R314: MBOX.CANCEL of a
command that an effective tick holds. In a device whose only command is that one, and in which nothing else waits, the held
command completes with CANCELLED and the cancel with OK, and no command is left. -/
def Obligations.MailboxCommands : Prop :=
  (∀ (s : State) (h : CmdHdr) (m : Nat),
    (s.takesNow (.mboxNop h) h = true → Ends s (.mboxNop h) h [] [] fun _ => True) ∧
    (∀ prio ev qp dq ring, s.takesNow (.mboxBind h m prio ev qp dq ring) h = true → (s.host.qps.get? qp).isSome = true →
      dq = 0 ∨ (s.host.qps.get? dq).isSome = true → (s.mbox m).qp = none →
      ∃ result, result.length = 8 ∧ Ends s (.mboxBind h m prio ev qp dq ring) h result [.host, .fresh, .out, .regs] fun u =>
        (u.mbox m).qp = some qp ∧ (u.mbox m).dataQp = dq ∧ (u.mbox m).priority = prio ∧ (u.mbox m).events = (ev == 1) ∧
        (u.mbox m).ring = ring ∧ (u.mbox m).held = [] ∧
        (u.mbox m).p = (if (s.mbox m).everBound = true then (s.mbox m).p else 0) ∧
        ∀ n, n ≠ m → u.mbox n = s.mbox n) ∧
    (∀ prio ev qp dq ring, s.takesNow (.mboxBind h m prio ev qp dq ring) h = true → (s.host.qps.get? qp).isSome = false →
      Refuses s (.mboxBind h m prio ev qp dq ring) h Status.descInvalid) ∧
    (s.takesNow (.mboxUnbind h m) h = true → Ends s (.mboxUnbind h m) h [] [.host] fun u =>
      u.mbox m = { s.mbox m with qp := none } ∧ ∀ n, n ≠ m → u.mbox n = s.mbox n) ∧
    (s.takesNow (.mboxStatus h m) h = true →
      Ends s (.mboxStatus h m) h (packValues [(4, (s.mbox m).p), (4, (s.withCommand (.mboxStatus h m) h).oldest m),
        (2, ((s.withCommand (.mboxStatus h m) h).openNumbers m).length), (4, (s.mbox m).qp.getD 0)]) [] fun _ => True) ∧
    ∀ n, s.takesNow (.mboxCancel h m n) h = true → Refuses s (.mboxCancel h m n) h Status.notCancellable) ∧
  (∀ (s : State) (h : CmdHdr) (x : Ctx) (m n k t : Nat), h.path = .mailbox k → k < 64 → m < 64 → s.answering = true →
    h.effTick = 0 → h.fence = false → h.devFence = false → s.host.ctxs = [x] → x.hdr.path = .mailbox m → x.hdr.number = n →
    x.state = .started (.tick t) → s.tick.issued < t → x.id < s.host.nextId → ¬(k = m ∧ h.number = n) →
    ({ s with host := { s.host with ctxs := [] } } : State).calm = true →
    s.checks (s.ctxFor (.mboxCancel h m n) h) = none →
    ∃ u, exec (.mboxCancel h m n) s = .next u ∧ u.host.ctxs = [] ∧ u.memory = s.memory ∧
      ((s.mbox m).qp.isSome = true → ∃ st, Out.completion x.hdr.path n x.code Status.cancelled 0 st [] ∈ u.out) ∧
      ((s.mbox k).qp.isSome = true → ∃ st, Out.completion h.path h.number (codeOf (.mboxCancel h m n)) Status.ok 0 st [] ∈ u.out))

/-- R298–R301: host port and queue pair commands. A port is configured while no queue pair uses it; a queue pair takes the
lowest free number and the parameters given, or none is free; it is closed unless a bound mailbox names it. -/
def Obligations.HostPortCommands : Prop :=
  ∀ (s : State) (h : CmdHdr),
    (∀ p fl pfc vlan v4 v6, s.takesNow (.hostPortConfig h p fl pfc vlan v4 v6) h = true →
      ((∀ q x, (q, x) ∈ s.host.qps → x.port ≠ p) → Ends s (.hostPortConfig h p fl pfc vlan v4 v6) h [] [.host] fun u =>
        u.host.ports.getD p {} = { s.host.ports.getD p {} with
          flags := fl, pfcPriority := pfc, vlan := vlan, ipv4 := v4, ipv6 := v6 } ∧
        (∀ o, o ≠ p → u.host.ports.getD o {} = s.host.ports.getD o {}) ∧ u.host.qps = s.host.qps) ∧
      (∀ q x, (q, x) ∈ s.host.qps → x.port = p →
        Refuses s (.hostPortConfig h p fl pfc vlan v4 v6) h Status.opBusy)) ∧
    (∀ p dscp mtu qpn psn mac gid, s.takesNow (.hostQpOpen h p dscp mtu qpn psn mac gid) h = true →
      (∀ q, 0x100 ≤ q → q < 0x1100 → (∀ o, 0x100 ≤ o → o < q → (s.host.qps.get? o).isSome = true) →
        s.host.qps.get? q = none →
        ∃ result x, result.length = 8 ∧ getLE result 0 4 = q ∧
          Ends s (.hostQpOpen h p dscp mtu qpn psn mac gid) h result [.host, .fresh] fun u =>
            u.host.qps = s.host.qps.set q x ∧ x.port = p ∧ x.dscp = dscp ∧ x.mtu = mtu ∧ x.hostQpn = qpn ∧
            x.hostPsn = psn ∧ x.dstMac = mac ∧ x.hostGid = gid ∧ x.error = false ∧ x.retries = 0 ∧ x.rate = 200000) ∧
      ((∀ q, 0x100 ≤ q → q < 0x1100 → (s.host.qps.get? q).isSome = true) →
        Refuses s (.hostQpOpen h p dscp mtu qpn psn mac gid) h Status.capacityExceeded)) ∧
    ∀ q, s.takesNow (.hostQpClose h q) h = true →
      (s.host.qps.get? q = none → Refuses s (.hostQpClose h q) h Status.descInvalid) ∧
      ((s.host.qps.get? q).isSome = true →
        ((∀ m b, (m, b) ∈ s.host.mboxes → b.qp.isSome = true → b.qp ≠ some q ∧ b.dataQp ≠ q) →
          Ends s (.hostQpClose h q) h [] [.host] fun u => u.host.qps.get? q = none ∧
            ∀ o, o ≠ q → u.host.qps.get? o = s.host.qps.get? o) ∧
        (∀ m b, (m, b) ∈ s.host.mboxes → b.qp.isSome = true → b.qp = some q ∨ b.dataQp = q →
          Refuses s (.hostQpClose h q) h Status.opBusy))

/-- R320–R324: jobs and functions. A record that nothing refuses is recorded under its job number, and the job is no longer
ended; JOB.END takes the job away and waits; JOB.STATUS returns the record. A disable is entered with its drain time and
waits; a completed one is ended by ENABLE, one under way is not; FUNC.STATUS returns the state and what is in flight. -/
def Obligations.JobAndFunctionCommands : Prop :=
  ∀ (s : State) (h : CmdHdr),
    (∀ r b, s.takesNow (.jobAdmit h r) h = true → s.topo.plan.isSome = true →
      (s.withCommand (.jobAdmit h r) h).readImage (.jobAdmit h r) h r 64 jobLength = .inr b →
      (s.admitRefusal b = none → Ends s (.jobAdmit h r) h [] [.host, .flow] fun u =>
        u.host.jobs = s.host.jobs.set (getLE b 0 2) (parseJobRecord b) ∧ u.host.ended.get? (getLE b 0 2) = none) ∧
      (∀ st, s.admitRefusal b = some st → Refuses s (.jobAdmit h r) h st)) ∧
    (∀ r, s.takesNow (.jobAdmit h r) h = true → s.topo.plan = none → Refuses s (.jobAdmit h r) h Status.notReady) ∧
    (∀ j, s.takesNow (.jobEnd h j) h = true →
      ∃ u, Waits s (.jobEnd h j) u (.job j) ∧ u.host.jobs.get? j = none ∧ j ∈ u.host.ending ∧
        ∀ i, i ≠ j → u.host.jobs.get? i = s.host.jobs.get? i) ∧
    (∀ j x r, s.takesNow (.jobStatus h j r) h = true → s.host.jobs.get? j = some x →
      Reports s (.jobStatus h j r) h (s.withCommand (.jobStatus h j r) h) r x.record) ∧
    (∀ f j n, s.takesNow (.funcDisable h f j n) h = true →
      (s.disableOf f j = none → ∃ u, Waits s (.funcDisable h f j n) u (.func f j) ∧
        u.disableOf f j = some { func := f, job := j, drainTicks := if n = 0 then 4096 else n, inEffect := !s.ticking } ∧
        (s.withCommand (.funcDisable h f j n) h).keepsBut [.host] u) ∧
      (∀ d, s.disableOf f j = some d → d.done = false → Refuses s (.funcDisable h f j n) h Status.opBusy) ∧
      (∀ d, s.disableOf f j = some d → d.done = true →
        Ends s (.funcDisable h f j n) h (packValues [(4, 0), (4, 0)]) [] fun _ => True)) ∧
    (∀ f j, s.takesNow (.funcEnable h f j) h = true →
      (s.funcState f j = 1 → Refuses s (.funcEnable h f j) h Status.opBusy) ∧
      (s.funcState f j ≠ 1 → Ends s (.funcEnable h f j) h [] [.host] fun u => u.disableOf f j = none ∧
        ∀ g i, ¬(g = f ∧ i = j) → u.disableOf g i = s.disableOf g i)) ∧
    ∀ f j, s.takesNow (.funcStatus h f j) h = true →
      Ends s (.funcStatus h f j) h (packValues [(1, s.funcState f j),
        (4, (s.withCommand (.funcStatus h f j) h).workIn f (scopeOf j))]) [] fun _ => True

/-- R10, R325: the register map. Every word of every register has its address: the address finds the register and the word. -/
def Obligations.RegisterAddressesAgree : Prop :=
  (∀ (r : Reg) (i : Nat), i < r.info.count → regAt (regAddr r i) = some (r, i)) ∧
  ∀ (a : Nat) (r : Reg) (i : Nat), regAt a = some (r, i) → regAddr r i = a ∧ i < r.info.count

/-- R10, R37, R168, R325: REG.READ, TICK_COUNT and POOL_LOW_WATER. A read of one word returns its value and changes nothing
but what reading does: RC fields clear, the low-water mark restarts at what is free now, and word 0 of TICK_COUNT latches word
1. An address with no register, or a reference too short for more than three words, is refused. R10, R325, R445: REG.WRITE. An
address with no register is refused, and outside the address map it is an address fault of class 14 too (R27); a write that Table 0.4 refuses ends with REG_REFUSED and its reason, and is logged; a
register without a writable field is not changed; a write of an ordinary register stores its writable fields and leaves every
other register word alone. -/
def Obligations.RegisterAccesses : Prop :=
  (∀ (s : State) (h : CmdHdr),
    (∀ a r i out, s.takesNow (.regRead h a 1 out) h = true → regAt a = some (r, i) →
      r ≠ .tickCount → r ≠ .poolLowWater → (∀ f ∈ r.fieldsAt i, f.access ≠ .rc) →
      Ends s (.regRead h a 1 out) h (leBytes 8 ((s.withCommand (.regRead h a 1 out) h).regValue r i)) [] fun _ => True) ∧
    (∀ a r i out, s.takesNow (.regRead h a 1 out) h = true → regAt a = some (r, i) →
      r ≠ .tickCount → r ≠ .poolLowWater → (∃ f ∈ r.fieldsAt i, f.access = .rc) →
      Ends s (.regRead h a 1 out) h (leBytes 8 ((s.withCommand (.regRead h a 1 out) h).regValue r i)) [.regs] fun u =>
        u.reg r i = 0 ∧ ∀ q j, q.key j ≠ r.key i → u.reg q j = s.reg q j) ∧
    (∀ a words out, s.takesNow (.regRead h a words out) h = true →
      (regAt a = none → 1 ≤ words → ¬(3 < words ∧ out.len < 8 * words) →
        ∃ u, Completes s (.regRead h a words out) h u Status.descInvalid ∧
          (s.withCommand (.regRead h a words out) h).keepsBut [.flt] u ∧
          u.flt.todo = s.flt.todo ++ (if s.mapped a (8 * words) = true then [] else
            [({ cls := 14, master := managementMaster, addr := a, access := 1 }, false)])) ∧
      (3 < words → out.len < 8 * words → Refuses s (.regRead h a words out) h Status.descInvalid)) ∧
    (s.takesNow (.tickCountRead h) h = true →
      Ends s (.tickCountRead h) h (leBytes 8 s.tick.counter ++
        leBytes 8 (latchWord (some (s.withCommand (.tickCountRead h) h).stamp))) [.tick, .fresh] fun u =>
        u.tick.counter = s.tick.counter ∧ u.tick.latch = some (s.withCommand (.tickCountRead h) h).stamp) ∧
    ∀ k, k < 5 → s.takesNow (.poolLowWaterRead h k) h = true →
      Ends s (.poolLowWaterRead h k) h (leBytes 8 (s.poolLow k)) [.pool] fun u =>
        u.pool = { s.pool with low := s.pool.low.set k (s.poolFreeNow k) }) ∧
  (∀ (s : State) (h : CmdHdr) (a v : Nat), s.takesNow (.regWrite h a v) h = true →
    (regAt a = none → ∃ u, Completes s (.regWrite h a v) h u Status.descInvalid ∧
      (s.withCommand (.regWrite h a v) h).keepsBut [.flt] u ∧
      u.flt.todo = s.flt.todo ++ (if s.mapped a 8 = true then [] else
        [({ cls := 14, master := managementMaster, addr := a, access := 2 }, false)])) ∧
    ∀ r i, regAt a = some (r, i) →
      (∀ reason, s.writeReason r i v = some reason →
        ∃ u, Completes s (.regWrite h a v) h u Status.regRefused [] reason ∧
          (s.withCommand (.regWrite h a v) h).keepsBut [.mgt, .fresh, .out, .regs] u) ∧
      (s.writeReason r i v = none →
        r ∉ [Reg.tickConfig, .poolQuota, .engSrSeed, .fltStatus, .fltTileStatus, .fltMcCtrl, .mgtSensorCtrl, .pwrPhaseOp] →
        (r.writable i = false → Ends s (.regWrite h a v) h [] [] fun _ => True) ∧
        (r.writable i = true → Ends s (.regWrite h a v) h [] [.regs] fun u =>
          u.reg r i = r.rwWord i v ∧ ∀ q j, q.key j ≠ r.key i → u.reg q j = s.reg q j)))

/-- R34, R36, R181, R371, R385, R391, R445: the writes that have rows of their own. Enabling the tick joins it in PLANNED; the
period is set while the tick is off; the memory shares and the SR seed take their words; clearing FLT_STATUS clears the class
bits written as 1 and no other; FLT_MC_CTRL retires a channel, starts a retired one's march, marks a retired one for
restoring; clearing the peaks sets each to the value. -/
def Obligations.WritesWithRowsOfTheirOwn : Prop :=
  ∀ (s : State) (h : CmdHdr),
    (s.takesNow (.tickEnableWrite h) h = true → s.boot.phase = Phase.planned → s.tickEnable = false →
      s.period ≤ 2 → Ends s (.tickEnableWrite h) h [] [.tick, .boot, .topo, .link, .sw, .pool, .stz, .flt, .mgt, .regs, .fresh, .out]
        fun u => u.boot.phase = Phase.linking ∧ u.tickEnable = true ∧ u.tick.counter = 0 ∧
          u.tick.state = (if s.rootPriority < 255 then 7 else 1)) ∧
    (s.takesNow (.tickEnableWrite h) h = true → s.boot.phase ≠ Phase.planned → s.tickEnable = false → s.period ≤ 2 →
      ∃ u, Completes s (.tickEnableWrite h) h u Status.regRefused [] 3 ∧
        (s.withCommand (.tickEnableWrite h) h).keepsBut [.mgt, .fresh, .out, .regs] u) ∧
    (s.takesNow (.tickEnableWrite h) h = true → s.tickEnable = true → s.period ≤ 2 →
      ∃ u, Completes s (.tickEnableWrite h) h u Status.regRefused [] 3 ∧
        (s.withCommand (.tickEnableWrite h) h).keepsBut [.mgt, .fresh, .out, .regs] u) ∧
    (∀ p, p ≤ 2 → s.takesNow (.tickPeriodWrite h p) h = true → s.tickEnable = false →
      Ends s (.tickPeriodWrite h p) h [] [.regs, .tick, .sw, .mgt, .fresh, .out] fun u =>
        u.period = p ∧ u.reg .tickHoldLimit 0 = Config.holdTicks p ∧ u.tickEnable = false ∧ u.tick = s.tick) ∧
    (∀ v, s.takesNow (.memarbShareWrite h v) h = true → s.writeReason .mgtMemarbShare 0 v = none →
      Ends s (.memarbShareWrite h v) h [] [.regs] fun u => u.reg .mgtMemarbShare 0 = Reg.mgtMemarbShare.rwWord 0 v) ∧
    (∀ seed, s.takesNow (.engSrSeedWrite h seed) h = true →
      Ends s (.engSrSeedWrite h seed) h [] [.eng] fun u =>
        u.eng = { s.eng with seed := some (BitVec.ofNat 64 seed), draws := [] }) ∧
    (∀ mask, s.takesNow (.fltStatusClear h mask) h = true →
      Ends s (.fltStatusClear h mask) h [] [.flt] fun u =>
        (∀ c, bit u.flt.status c = (bit s.flt.status c && !(decide (c < 28) && bit mask c))) ∧ u.flt.safe = s.flt.safe) ∧
    (∀ c, c < 128 → s.takesNow (.fltMcRetire h c) h = true →
      Ends s (.fltMcRetire h c) h [] (.host :: .stash :: frameParts) fun u =>
        c ∈ u.mgt.channels ∧ (s.mgt.channels.contains c = true → u.flt = s.flt ∧ u.stash = s.stash) ∧
        (s.mgt.channels.contains c = false → (u.channel c).retired = true)) ∧
    (∀ c, c < 128 → s.takesNow (.fltMcTest h c) h = true →
      Ends s (.fltMcTest h c) h [] [.flt] fun u =>
        u.channel c = (if s.mgt.channels.contains c then
          { s.channel c with marching := true, testDone := false, testFail := false } else s.channel c) ∧
        ∀ d, d ≠ c → u.channel d = s.channel d) ∧
    (∀ c, c < 128 → s.takesNow (.fltMcRestore h c) h = true →
      Ends s (.fltMcRestore h c) h [] [.flt, .mgt] fun u =>
        u.mgt.channels = s.mgt.channels ∧
        (s.mgt.channels.contains c = true → c ∈ u.mgt.restores ∧ (u.channel c).restorePending = true)) ∧
    (s.takesNow (.mgtSensorClearPeaks h) h = true →
      Ends s (.mgtSensorClearPeaks h) h [] [.mgt] fun u =>
        (∀ i x, s.mgt.sensors.get? i = some x → u.mgt.sensors.get? i = some { x with peak := x.value }) ∧
        u.mgt = { s.mgt with sensors := u.mgt.sensors })

/-- R331, R338–R342: SETUP.CARVE and the resets. A carving that Table 14.4 refuses is refused with its detail; one in UNCARVED
divides the SRAM, sets the pools to their defaults, clears the SRAM and nothing else of memory, and leads to CARVED.
RESET.MODULE completes before its shutdown; RESET.DATA_PLANE goes back to MEMORY with boot_epoch one higher, keeping the phase
to return to, and waits; RESET.TILE holds the tile with no job on its engines, and waits; RESET.PORT takes the port to DETECT.
-/
def Obligations.SetupAndResetCommands : Prop :=
  ∀ (s : State) (h : CmdHdr),
    (∀ p r g z, s.takesNow (.setupCarve h p r g z) h = true →
      (∀ st d, s.carveRefusal p r g z = some (st, d) → Refuses s (.setupCarve h p r g z) h st d) ∧
      (s.boot.phase = Phase.uncarved → 2 ≤ p → p ≤ 6 → r ≤ 6 → g ≤ 4 → z ≤ 1 → p + r + g = 8 → (z = 1 → 2 ≤ r) →
        Ends s (.setupCarve h p r g z) h [] [.boot, .pool, .mem, .mgt, .fresh, .out, .regs, .flt] fun u =>
          u.boot.phase = Phase.carved ∧ u.boot.carving = some ⟨p, r, g, z == 1⟩ ∧ u.pool.p1 = 4 * g ∧ u.pool.p2 = 4 * g ∧
          u.pool.p3 = 8 * g ∧ u.pool.modes = 0 ∧ u.pool.p4count = 1024 ∧ u.pool.setts = [] ∧
          (∀ k i, k < 8 → i < 0x08000000 → u.byte (sramBase k + i) = 0) ∧
          ∀ a, (∀ k, k < 8 → a < sramBase k ∨ sramBase k + 0x08000000 ≤ a) → u.byte a = s.byte a)) ∧
    (s.takesNow (.resetModule h) h = true →
      (s.boot.shutdownDue = true → Refuses s (.resetModule h) h Status.opBusy) ∧
      (s.boot.shutdownDue = false → Ends s (.resetModule h) h [] [.boot] fun u =>
        u.boot = { s.boot with shutdownDue := true })) ∧
    (s.takesNow (.resetDataPlane h) h = true →
      (s.boot.phase < Phase.memory → Refuses s (.resetDataPlane h) h Status.notReady) ∧
      (Phase.memory ≤ s.boot.phase → s.bigReset = true → Refuses s (.resetDataPlane h) h Status.opBusy) ∧
      (Phase.memory ≤ s.boot.phase → s.bigReset = false →
        ∃ u, Waits s (.resetDataPlane h) u .dpReset ∧ u.boot.phase = Phase.memory ∧ u.boot.kept = some s.keptPhase ∧
          u.boot.epoch = s.boot.epoch + 1 ∧ u.memory = ([], []) ∧ u.host.jobs = [] ∧ u.pool.setts = [] ∧ u.coll.ops = [] ∧
          u.parm.blocks = [] ∧ u.stash.ents = [] ∧ u.tick = State.reset.tick ∧ u.pending = s.pending)) ∧
    (∀ k, s.takesNow (.resetTile h k) h = true →
      (s.boot.phase < Phase.carved → Refuses s (.resetTile h k) h Status.notReady) ∧
      (Phase.carved ≤ s.boot.phase → s.bigReset = true ∨ k ∈ s.eng.inReset → Refuses s (.resetTile h k) h Status.opBusy) ∧
      (Phase.carved ≤ s.boot.phase → s.bigReset = false → k ∉ s.eng.inReset →
        ((s.tilePwr k).railOff = true → (s.tilePwr k).railAgain = false) →
        ∃ u, Waits s (.resetTile h k) u (.tile k) ∧ k ∈ u.eng.inReset ∧ (u.tilePwr k).railOff = false ∧
          (∀ e ∈ tileEngines k, (u.engine e).running = none ∧ (u.engine e).assigned = none) ∧
          (∀ e, e ∉ tileEngines k → u.engine e = s.engine e) ∧
          (s.withCommand (.resetTile h k) h).keepsBut [.eng, .boot, .pwr, .mgt, .fresh, .out, .regs] u)) ∧
    ∀ p, s.takesNow (.resetPort h p) h = true →
      (s.boot.phase < Phase.carved → Refuses s (.resetPort h p) h Status.notReady) ∧
      (Phase.carved ≤ s.boot.phase → s.bigReset = true ∨ s.portTied p = true → Refuses s (.resetPort h p) h Status.opBusy) ∧
      (Phase.carved ≤ s.boot.phase → s.bigReset = false → s.portTied p = false →
        Ends s (.resetPort h p) h [] [.link, .sw, .regs, .tick, .topo, .mgt, .flt, .fresh, .out, .pool, .stz] fun u =>
          (u.port p).state = 1 ∧ (u.port p).attempts = 0 ∧ (u.port p).width = 0)

/-- R63, R126: link commands. ENABLE takes a DISABLED or FAILED port to DETECT with no attempt counted and leaves another port
in its state; DISABLE leads to DISABLED. A hedge comes into force, once, unless 512 other destinations are hedged; a lift ends
the hedge named and no other. (Here no tick runs; a running one holds hedges and lifts for the boundary, as another statement
says.) -/
def Obligations.LinkCommands : Prop :=
  ∀ (s : State) (h : CmdHdr) (p : Nat),
    (s.takesNow (.linkEnable h p) h = true →
      ((s.port p).state = 0 ∨ (s.port p).state = 6 →
        Ends s (.linkEnable h p) h [] [.link] fun u => u.link.enabled = true ∧ (u.port p).state = 1 ∧
          (u.port p).attempts = 0 ∧ ∀ q, q ≠ p → u.port q = s.port q) ∧
      ((s.port p).state ≠ 0 → (s.port p).state ≠ 6 →
        Ends s (.linkEnable h p) h [] [.link] fun u => u.link = { s.link with enabled := true })) ∧
    (s.takesNow (.linkDisable h p) h = true →
      Ends s (.linkDisable h p) h [] [.link, .sw, .regs, .tick, .topo, .mgt, .flt, .fresh, .out, .pool, .stz] fun u =>
        (u.port p).state = 0 ∧ (u.port p).width = 0 ∧ ∀ q, q ≠ p → (u.port q).state = (s.port q).state) ∧
    (∀ scope job node ep, s.takesNow (.linkHedge h scope p job node ep) h = true →
      (scope = 1 → 512 ≤ ((s.withCommand (.linkHedge h scope p job node ep) h).otherDestHedges node ep).length →
        Refuses s (.linkHedge h scope p job node ep) h Status.capacityExceeded) ∧
      (scope ≠ 1 ∨ ((s.withCommand (.linkHedge h scope p job node ep) h).otherDestHedges node ep).length < 512 →
        Ends s (.linkHedge h scope p job node ep) h [] (.topo :: .parm :: .stash :: .host :: frameParts) fun u =>
          u.topo.hedges = (if s.topo.hedges.any (hedgeOf scope p job node ep s.tick.counter).same then s.topo.hedges
            else hedgeOf scope p job node ep s.tick.counter :: s.topo.hedges))) ∧
    ∀ scope job node ep, s.takesNow (.linkLift h scope p job node ep) h = true →
      Ends s (.linkLift h scope p job node ep) h [] (.topo :: frameParts) fun u =>
        u.topo.hedges = s.topo.hedges.filter fun g => !g.same (hedgeOf scope p job node ep 0)

/-- R74, R75, R78: lane commands. A lane retired is recorded so, and a second retirement does nothing; a restored lane is no
longer recorded and must hold lock again. A test that R75 refuses is refused; another waits, and the peer is asked at once
where the lane is not in use, else once it has left its port. The release of a laser
source module starts its drain and waits; one under way is refused. -/
def Obligations.LaneCommands : Prop :=
  ∀ (s : State) (h : CmdHdr) (n : Nat),
    (s.takesNow (.laneRetire h n) h = true →
      ((s.lane n).retired = true → Ends s (.laneRetire h n) h [] [] fun _ => True) ∧
      ((s.lane n).retired = false → (s.lane n).inUse = false →
        Ends s (.laneRetire h n) h [] [.link, .mgt, .fresh, .out, .regs] fun u =>
          u.lane n = { s.lane n with retired := true } ∧ n ∈ u.mgt.lanes ∧ ∀ m, m ≠ n → u.lane m = s.lane m) ∧
      ((s.lane n).retired = false → (s.lane n).inUse = true →
        Ends s (.laneRetire h n) h [] [.link, .mgt, .fresh, .out, .regs, .tick, .topo, .sw, .flt, .pool, .stz] fun u =>
          (u.lane n).retired = true ∧ n ∈ u.mgt.lanes)) ∧
    (s.takesNow (.laneRestore h n) h = true →
      ((s.lane n).retired = false → Ends s (.laneRestore h n) h [] [] fun _ => True) ∧
      ((s.lane n).retired = true → Ends s (.laneRestore h n) h [] [.link, .mgt, .fresh, .out, .regs] fun u =>
        u.lane n = { s.lane n with retired := false, lockTicks := 0 } ∧ n ∉ u.mgt.lanes ∧
        ∀ m, m ≠ n → u.lane m = s.lane m)) ∧
    (∀ after ticks r, s.takesNow (.laneTest h n after ticks r) h = true →
      (∀ st, s.laneTestRefusal n = some st → Refuses s (.laneTest h n after ticks r) h st) ∧
      (s.laneTestRefusal n = none →
        ∃ u t, Waits s (.laneTest h n after ticks r) u (.lane n) ∧ (u.lane n).test = some t ∧ t.ticks = ticks ∧
          t.left = ticks ∧ t.retireAfter = (after == 1) ∧ t.out = r ∧ t.asked = !(s.lane n).inUse ∧
          ((s.lane n).inUse = false → u.out.head? = some (.laneTestAsk n ticks)) ∧ u.memory = s.memory)) ∧
    ∀ j, s.takesNow (.laneLsmRelease h j) h = true →
      ((s.lsm j).draining.isSome = true → Refuses s (.laneLsmRelease h j) h Status.opBusy) ∧
      ((s.lsm j).draining = none →
        ∃ u, Waits s (.laneLsmRelease h j) u (.lsm j) ∧ (u.lsm j).draining = some 0 ∧
          (∀ p ∈ s.lsmPorts j, (u.route p).state ≠ 2) ∧
          (s.withCommand (.laneLsmRelease h j) h).keepsBut (.link :: .topo :: frameParts) u)

/-- R48, R50, R107, R127, R128, R142, R332: the tick keeper's, the plan's and the switch's commands. REJOIN acts in UNSYNC
only. A plan is refused with jobs admitted, or where it breaks its rules; an accepted one is in force, and takes CARVED to
PLANNED. A reservation above the limit, or too small for a fabric port, is refused. READMIT and RESEED need an effective tick:
they are held, and when it has come they have their effect: the node is no longer lost, the seed is the one given. -/
def Obligations.TopologyCommands : Prop :=
  ∀ (s : State) (h : CmdHdr),
    (s.takesNow (.tickRejoin h) h = true →
      (s.tick.state ≠ 6 → Ends s (.tickRejoin h) h [] [] fun _ => True) ∧
      (s.tick.state = 6 → s.tick.nbrs = [] →
        Ends s (.tickRejoin h) h [] [.tick, .sw, .regs, .mgt, .flt, .fresh, .out, .pool, .stz] fun u =>
          u.tick.state = 2 ∧ u.tick.parent = none ∧ u.tick.counter = s.tick.counter)) ∧
    (∀ r, s.takesNow (.topoLoad h r) h = true →
      (s.host.jobs ≠ [] → Refuses s (.topoLoad h r) h Status.jobsActive) ∧
      (∀ b, s.host.jobs = [] →
        (s.withCommand (.topoLoad h r) h).readImage (.topoLoad h r) h r 64 (fun b => planLength b s.portCount) = .inr b →
        (s.planOk b = false → Refuses s (.topoLoad h r) h Status.planInvalid) ∧
        (s.planOk b = true →
          Ends s (.topoLoad h r) h [] (.topo :: .boot :: frameParts) fun u =>
            u.topo.plan = some (parsePlan b s.portCount) ∧ u.topo.seed = (parsePlan b s.portCount).seed ∧
            u.boot.phase = (if s.boot.phase = Phase.carved then Phase.planned else s.boot.phase)))) ∧
    (∀ p r, s.takesNow (.schedReserve h p r) h = true →
      (s.c7Limit < r ∨ s.role p = 2 ∧ r < 8 → Refuses s (.schedReserve h p r) h Status.descInvalid) ∧
      (r ≤ s.c7Limit → (s.role p = 2 → 8 ≤ r) →
        Ends s (.schedReserve h p r) h [] [.sw, .mgt, .fresh, .out, .regs] fun u =>
          u.sw = { s.sw with reserve := s.sw.reserve.set p r })) ∧
    (∀ c, (∃ n, c = .topoReadmit h n ∧ s.readmitRefusal n = none) ∨ (∃ x, c = .routeReseed h x) → s.answering = true →
      s.host.ctxs = [] → s.pathFree h.path = true → h.effTick ≠ 0 → s.checks (s.ctxFor c h) = none →
      exec c s = .next ((s.withCommand c h).setCtx s.host.nextId fun y => { y with
        state := .started (.tick h.effTick) }).settle) ∧
    ∀ (x : Ctx) (t : Nat), s.ticking = true → s.host.ctxs = [x] → x.state = .started (.tick t) → t ≤ s.tick.issued →
      (∀ n, x.cmd = .topoReadmit h n → n ≠ s.me → s.readmitRefusal n = none → s.topo.ownMissing = s.missingNow →
        ∃ u : State, Leads s .effectiveTickReached (u.complete x Status.ok) ∧ u.isLost n = false ∧
          (∀ p ∈ s.heldFor n, p < s.portCount → (u.route p).state = 2) ∧ u.memory = s.memory) ∧
      (∀ n st, x.cmd = .topoReadmit h n → s.readmitRefusal n = some st →
        Leads s .effectiveTickReached (s.complete x st)) ∧
      (∀ seed, x.cmd = .routeReseed h seed →
        ∃ u : State, Leads s .effectiveTickReached (u.complete x Status.ok) ∧ u.topo.seed = seed ∧ s.keepsBut [.topo] u)

/-- R154, R158, R162, R167, R168: the pools' commands that set up. SETUP refuses counts that do not fill the staging share,
jobs admitted, a pool in use that it would change, a P4 region that does not fit and quotas it would break; else the pools are
as given and every maximum that stood at an old count follows. QUOTA and BIND refuse what R158 refuses; STATUS reports the
pool's registers. -/
def Obligations.PoolSetupCommands : Prop :=
  ∀ (s : State) (h : CmdHdr),
    (∀ p1 p2 p3 modes n base, s.takesNow (.poolSetup h p1 p2 p3 modes n base) h = true →
      let t : State := { s with pool := s.poolPlan p1 p2 p3 modes n base }
      (p1 + p2 + p3 ≠ (s.boot.carving.map Carving.staging).getD 0 * 16 →
        Refuses s (.poolSetup h p1 p2 p3 modes n base) h Status.descInvalid) ∧
      (p1 + p2 + p3 = (s.boot.carving.map Carving.staging).getD 0 * 16 → s.host.jobs ≠ [] →
        Refuses s (.poolSetup h p1 p2 p3 modes n base) h Status.jobsActive) ∧
      (p1 + p2 + p3 = (s.boot.carving.map Carving.staging).getD 0 * 16 → s.host.jobs = [] →
        (∃ k ∈ [1, 2, 3, 4], s.poolChanged t k = true ∧ s.allocated k ≠ 0) →
        Refuses s (.poolSetup h p1 p2 p3 modes n base) h Status.poolBusy) ∧
      (p1 + p2 + p3 = (s.boot.carving.map Carving.staging).getD 0 * 16 → s.host.jobs = [] →
        (∀ k ∈ [1, 2, 3, 4], s.poolChanged t k = true → s.allocated k = 0) → s.p4Fits n base = false →
        Refuses s (.poolSetup h p1 p2 p3 modes n base) h Status.capacityExceeded) ∧
      (p1 + p2 + p3 = (s.boot.carving.map Carving.staging).getD 0 * 16 → s.host.jobs = [] →
        (∀ k ∈ [1, 2, 3, 4], s.poolChanged t k = true → s.allocated k = 0) → s.p4Fits n base = true →
        (∃ k ∈ [1, 2, 3, 4],
          t.pool.total k < ((s.pool.quotas.filter fun q => q.1 % 8 == k).map fun q => q.2.1).sum) →
        Refuses s (.poolSetup h p1 p2 p3 modes n base) h Status.quotaInvalid) ∧
      (p1 + p2 + p3 = (s.boot.carving.map Carving.staging).getD 0 * 16 → s.host.jobs = [] →
        (∀ k ∈ [1, 2, 3, 4], s.poolChanged t k = true → s.allocated k = 0) → s.p4Fits n base = true →
        (∀ k ∈ [1, 2, 3, 4],
          ((s.pool.quotas.filter fun q => q.1 % 8 == k).map fun q => q.2.1).sum ≤ t.pool.total k) →
        Ends s (.poolSetup h p1 p2 p3 modes n base) h [] [.pool, .flt] fun u =>
          u.pool.p1 = p1 ∧ u.pool.p2 = p2 ∧ u.pool.p3 = p3 ∧ u.pool.modes = modes ∧ u.pool.p4count = n ∧
          u.pool.p4base = base ∧ u.pool.setts = s.pool.setts ∧ u.pool.binds = s.pool.binds ∧
          ∀ key q, s.pool.quotas.get? key = some q → u.pool.quotas.get? key =
            some (if q.2 = s.pool.total (key % 8) then (q.1, u.pool.total (key % 8)) else q))) ∧
    (∀ r k mn mx, s.takesNow (.poolQuota h r k mn mx) h = true →
      (s.quotaBad r k mn mx = true → Refuses s (.poolQuota h r k mn mx) h Status.quotaInvalid) ∧
      (s.quotaBad r k mn mx = false → Ends s (.poolQuota h r k mn mx) h [] [.pool] fun u =>
        u.pool = { s.pool with quotas := s.pool.quotas.set (r * 8 + k) (mn, mx) })) ∧
    (∀ r j, s.takesNow (.poolBind h r j) h = true →
      ((s.pool.binds.get? r).isSome = true → Refuses s (.poolBind h r j) h Status.quotaInvalid) ∧
      (s.pool.binds.get? r = none → Ends s (.poolBind h r j) h [] [.pool] fun u =>
        u.pool = { s.pool with binds := s.pool.binds.set r j })) ∧
    ∀ k r out, s.takesNow (.poolStatus h k r out) h = true →
      Reports s (.poolStatus h k r out) h (s.withCommand (.poolStatus h k r out) h) out
        (([s.regValue .poolConfig k, s.regValue .poolFree k, s.regValue .poolLowWater k] ++
          (if r = 0xFFFF then [] else [s.regValue .poolQuota (r * 5 + k), if r < 64 then 0 else s.regValue .poolBind r])).flatMap
          (leBytes 8))

/-- R155–R165: the pools' commands that act on setts. ALLOC takes a sett for requester 26 or a bound one and returns address
and pool, or ends with the failure; FREE by the owner returns the sett; GIVE changes the owner; REF changes the count and
returns it, and the sett returns to its pool at zero. -/
def Obligations.SettCommands : Prop :=
  ∀ (s : State) (h : CmdHdr),
    (∀ r t sp n a k, s.takesNow (.poolAlloc h r t sp n) h = true → r = 26 ∨ (s.pool.binds.get? r).isSome = true →
      requesterOk r = true → 0 < n → n ≤ 16 * mib → (s.tryPools r t (poolsFor n (sp == 1))).1 = some (a, k) →
      Ends s (.poolAlloc h r t sp n) h (packValues [(8, a), (1, k)]) [.pool, .regs] fun u =>
        u.pool.setts = s.pool.setts.set a { pool := k, owner := r } ∧ u.reg .poolAllocOk k = s.countedUp .poolAllocOk k) ∧
    (∀ r t sp n, s.takesNow (.poolAlloc h r t sp n) h = true → r ≠ 26 → s.pool.binds.get? r = none →
      ∃ u, Completes s (.poolAlloc h r t sp n) h u Status.sizeUnsupported ∧
        (s.withCommand (.poolAlloc h r t sp n) h).keepsBut [.mgt, .fresh, .out, .regs, .flt] u) ∧
    (∀ r a k x, s.takesNow (.poolFree h r a) h = true → s.settAt a = (some k, true) → s.refcount k = false →
      s.pool.setts.get? a = some x →
      (x.owner = r → Ends s (.poolFree h r a) h [] [.pool, .regs] fun u =>
        u.pool.setts = s.pool.setts.erase a ∧ u.reg .poolFreeOk k = s.countedUp .poolFreeOk k) ∧
      (x.owner ≠ r → ∃ u, Completes s (.poolFree h r a) h u Status.freeNotOwner ∧ u.pool = s.pool ∧ u.memory = s.memory ∧
        u.reg .poolFreeNotOwner k = s.countedUp .poolFreeNotOwner k)) ∧
    (∀ r a, s.takesNow (.poolFree h r a) h = true → (s.settAt a).1 = none →
      ∃ u, Completes s (.poolFree h r a) h u Status.badPointer ∧ u.pool = s.pool ∧
        u.reg .poolBadPointer 0 = s.countedUp .poolBadPointer 0) ∧
    (∀ r rcp a k x, s.takesNow (.poolGive h r rcp a) h = true → s.settAt a = (some k, true) → s.refcount k = false →
      s.pool.setts.get? a = some x → x.owner = r → rcp ≤ 1023 → s.recipientOk rcp = true → s.quotaRefusal rcp k = none →
      Ends s (.poolGive h r rcp a) h [] [.pool] fun u =>
        u.pool = { s.pool with setts := s.pool.setts.set a { x with owner := rcp } }) ∧
    ∀ (n : Int) (a k : Nat) (x : Sett), s.takesNow (.poolRef h n a) h = true → s.settAt a = (some k, true) →
      s.refcount k = true → s.pool.setts.get? a = some x → (x.count : Int) + n ≤ 4095 →
      (0 < (x.count : Int) + n →
        Ends s (.poolRef h n a) h (packValues [(2, ((x.count : Int) + n).toNat)]) [.pool] fun u =>
          u.pool = { s.pool with setts := s.pool.setts.set a { x with count := ((x.count : Int) + n).toNat } }) ∧
      ((x.count : Int) + n = 0 → Ends s (.poolRef h n a) h (packValues [(2, 0)]) [.pool, .regs] fun u =>
        u.pool.setts = s.pool.setts.erase a)

/-- R202–R207, R212: programs, kernels and engines. A program image that Table 9.4 refuses is refused with its reason; another
takes the lowest free context, in a new generation, and returns its op_id. A program that runs is not unloaded; a stale op_id
is refused. RUN takes the benches and waits for the run; ABORT ends the run. A kernel image of whole words is loaded. RETIRE
and RESTORE change the engine as Table 9.5 says; TEST asks for the engine's test and waits for its end. -/
def Obligations.EngineCommands : Prop :=
  ∀ (s : State) (h : CmdHdr),
    (∀ j r b, s.takesNow (.engLoad h j r) h = true → s.stozilJob j = false →
      (s.withCommand (.engLoad h j r) h).readImage (.engLoad h j r) h r 64 progLength = .inr b →
      (∀ seq reason, s.progRefusal b (parseProg b) j = some (seq, reason) →
        Completes s (.engLoad h j r) h (s.withCommand (.engLoad h j r) h) Status.programInvalid (packValues [(4, seq)]) reason) ∧
      (∀ ctx, s.progRefusal b (parseProg b) j = none → s.freeCtx = some ctx →
        (∀ setts t, (s.withCommand (.engLoad h j r) h).allocBuffers (s.progRequester j (parseProg b).homeTile)
            (parseProg b).homeTile (parseProg b).buffers.zipIdx = (none, setts, t) →
          ∃ u, Completes s (.engLoad h j r) h u Status.ok
              (packValues [(4, ctx + 1048576 * ((s.ctxGen.getD ctx 0 + 1) % 4096))]) ∧
            u.prog? ctx = some { parseProg b with setts := setts } ∧ u.pool = t.pool ∧
            u.ctxGen.getD ctx 0 = (s.ctxGen.getD ctx 0 + 1) % 4096 ∧ u.ctxUse.get? ctx = some Use.program ∧
            (s.withCommand (.engLoad h j r) h).keepsBut [.eng, .ctxs, .pool, .regs, .mgt, .fresh, .out, .flt] u) ∧
        ∀ st m t, (s.withCommand (.engLoad h j r) h).allocBuffers (s.progRequester j (parseProg b).homeTile)
            (parseProg b).homeTile (parseProg b).buffers.zipIdx = (some st, m, t) →
          Completes s (.engLoad h j r) h t st)) ∧
    (∀ o, s.takesNow (.engUnload h o) h = true →
      (s.progFor o = none → Refuses s (.engUnload h o) h Status.contextStale) ∧
      (∀ c p, s.progFor o = some (c, p) → p.run.isSome = true → Refuses s (.engUnload h o) h Status.programBusy) ∧
      (∀ c p, s.progFor o = some (c, p) → p.run = none → ∃ u, Completes s (.engUnload h o) h u Status.ok ∧
        u.prog? c = none ∧ u.ctxUse.get? c = none ∧ u.ctxGen = s.ctxGen ∧ u.memory = s.memory)) ∧
    (∀ o c p, s.takesNow (.engRun h o) h = true → s.progFor o = some (c, p) → s.stozilJob p.job = false →
      (p.run.isSome = true → Refuses s (.engRun h o) h Status.programBusy) ∧
      (p.run = none → s.takeBenches p.homeTile 1 2 p.benchCount = none → p.fallback = 0 →
        Refuses s (.engRun h o) h Status.noBench) ∧
      (∀ bs t, p.run = none → s.takeBenches p.homeTile 1 2 p.benchCount = some (bs, t) →
        ∃ u, Waits s (.engRun h o) u (.run c) ∧ u.memory = t.memory ∧
          ((∃ q r, u.prog? c = some q ∧ q.run = some r ∧ r.benches = bs) ∨ ∃ st, (c, st) ∈ u.eng.ended))) ∧
    (∀ o c p, s.takesNow (.engAbort h o) h = true → s.progFor o = some (c, p) →
      (p.run = none → Refuses s (.engAbort h o) h Status.alreadyComplete) ∧
      (p.run.isSome = true → Ends s (.engAbort h o) h [] [.eng, .flow, .host, .mem, .fresh, .mgt, .out, .regs] fun u =>
        (∃ q, u.prog? c = some q ∧ q.run = none ∧ q.lastStatus = some Status.aborted) ∧ u.memory = (s.loseOutputs p).memory ∧
        (c, Status.aborted) ∈ u.eng.ended ∧
        ∀ k e, s.eng.engines.get? k = some e → e.running.map QJob.ctx = some c → (u.engine k).suppressed = true)) ∧
    (∀ k r t b tab, s.takesNow (.engKernel h k r t) h = true →
      (s.withCommand (.engKernel h k r t) h).readRef (.engKernel h k r t) h r r.len = some b →
      (s.withCommand (.engKernel h k r t) h).readRef (.engKernel h k r t) h t t.len = some tab →
      (b.length % 8 ≠ 0 ∨ 4096 < b.length → Refuses s (.engKernel h k r t) h Status.programInvalid 1) ∧
      (b.length % 8 = 0 → b.length ≤ 4096 → (∀ a ∈ Config.streamBases tab, a % grain = 0) →
        Ends s (.engKernel h k r t) h [] [.eng] fun u =>
          u.eng = { s.eng with kernels := s.eng.kernels.set k { image := b, table := tab } })) ∧
    ∀ e, (s.takesNow (.engRetire h e) h = true →
        ((s.engine (engineKey e)).state = 4 → Ends s (.engRetire h e) h [] [] fun _ => True) ∧
        ((s.engine (engineKey e)).state = 3 ∨ (s.engine (engineKey e)).state = 1 ∧
            ((s.engine (engineKey e)).running ≠ none ∨ (s.engine (engineKey e)).assigned ≠ none) →
          Ends s (.engRetire h e) h [] [.eng] fun u => (u.engine (engineKey e)).state = 3 ∧
            (u.engine (engineKey e)).forTest = false) ∧
        ((s.engine (engineKey e)).state ≠ 3 → (s.engine (engineKey e)).state ≠ 4 →
          ((s.engine (engineKey e)).state = 1 → (s.engine (engineKey e)).running = none ∧
            (s.engine (engineKey e)).assigned = none) →
          Ends s (.engRetire h e) h [] [.eng, .mgt, .fresh, .out, .regs] fun u =>
            (u.engine (engineKey e)).state = 4 ∧ (u.engine (engineKey e)).fault = false ∧
            engineName (engineKey e) ∈ u.mgt.engines)) ∧
      (s.takesNow (.engRestore h e) h = true →
        ((s.engine (engineKey e)).state ≠ 4 → Ends s (.engRestore h e) h [] [] fun _ => True) ∧
        ((s.engine (engineKey e)).state = 4 → Ends s (.engRestore h e) h [] [.eng, .mgt] fun u =>
          (u.engine (engineKey e)).state = 2 ∧ (u.engine (engineKey e)).fault = false ∧
          engineName (engineKey e) ∉ u.mgt.engines)) ∧
      (s.takesNow (.engTest h e) h = true →
        ((s.engine (engineKey e)).state = 4 → Ends s (.engTest h e) h [] [] fun _ => True) ∧
        ((s.engine (engineKey e)).state = 2 →
          Waits s (.engTest h e) (s.withCommand (.engTest h e) h) (.engine (engineKey e))) ∧
        ((s.engine (engineKey e)).state ≠ 2 → (s.engine (engineKey e)).state ≠ 4 →
          ∃ u, Waits s (.engTest h e) u (.engine (engineKey e)) ∧ engineKey e ∈ u.eng.testAsked ∧
            u.eng.engines = s.eng.engines ∧ (s.withCommand (.engTest h e) h).keepsBut [.eng] u))

/-- R221, R222, R240, R246, R104: collectives and barriers by command. OPEN refuses a descriptor with the reason of Table
10.5, a context or group in use, and a generation that does not advance; else the operation is open at first_gen, and its
op_id is returned at once where this module has no group to set up. CLOSE frees an operation that has nothing running. ABORT
ends the running instance. STATUS reports the record. BARRIER opens a barrier of its ranks, and waits for its group. -/
def Obligations.CollectiveCommands : Prop :=
  ∀ (s : State) (h : CmdHdr),
    (∀ j g n r b x, s.takesNow (.collOpen h j g n r) h = true → s.stozilJob j = false → s.host.jobs.get? j = some x →
      (s.withCommand (.collOpen h j g n r) h).readImage (.collOpen h j g n r) h r 64 collLength = .inr b →
      (∀ d, s.collRefusal j x n b = some d → Refuses s (.collOpen h j g n r) h Status.descInvalid d) ∧
      (s.collRefusal j x n b = none → (s.ctxUse.get? n).isSome = true → Refuses s (.collOpen h j g n r) h Status.opBusy) ∧
      (s.collRefusal j x n b = none → s.groupTaken (parseColl b) = true → Refuses s (.collOpen h j g n r) h Status.opBusy) ∧
      (s.collRefusal j x n b = none → s.ctxUse.get? n = none → s.groupTaken (parseColl b) = false →
        ((parseColl b).root = s.me → (parseColl b).hasGroup = true →
          s.groupUsed (parseColl b).group = false ∧ s.topo.groups.length < 65536) →
        ((∀ o, s.ctxGen.get? n = some o → serialNewer 12 g o = true) →
          ((parseColl b).root ≠ s.me ∨ (parseColl b).hasGroup = false →
            Ends s (.collOpen h j g n r) h (packValues [(4, n + 1048576 * g)]) [.coll, .ctxs] fun u =>
              u.ctxUse.get? n = some Use.coll ∧ u.coll.barriers = s.coll.barriers ∧
              u.coll.ops = s.coll.ops.set n { job := j, desc := parseColl b, next := g, image := b }) ∧
          ((parseColl b).root = s.me → (parseColl b).hasGroup = true →
            ∃ u, (Completes s (.collOpen h j g n r) h u Status.ok (packValues [(4, n + 1048576 * g)]) ∨
                Waits s (.collOpen h j g n r) u (.group s.me (parseColl b).group) (packValues [(4, n + 1048576 * g)])
                  (some n)) ∧
              u.coll.ops = s.coll.ops.set n { job := j, desc := parseColl b, next := g, image := b } ∧
              u.ctxUse.get? n = some Use.coll ∧ (∃ e, u.group? s.me (parseColl b).group = some e) ∧
              u.memory = s.memory)) ∧
        ∀ o, s.ctxGen.get? n = some o → serialNewer 12 g o = false →
          Refuses s (.collOpen h j g n r) h Status.contextStale)) ∧
    (∀ n c, s.takesNow (.collClose h n) h = true → s.coll.ops.get? n = some c →
      (c.inst.isSome = true ∨ (∃ x ∈ c.closing, x.unacked ≠ 0) → Refuses s (.collClose h n) h Status.opBusy) ∧
      (c.inst = none → (∀ x ∈ c.closing, x.unacked = 0) →
        ∃ u, Completes s (.collClose h n) h u Status.ok ∧ u.coll.ops.get? n = none ∧
        u.ctxUse.get? n = none ∧ u.ctxGen = s.ctxGen ∧ u.memory = s.memory)) ∧
    (∀ o c i, s.takesNow (.collAbort h o) h = true → s.coll.ops.get? (o % 1048576) = some c → c.desc.root = s.me →
      c.inst = some i → i.gen = o / 1048576 →
      ∃ u c', Completes s (.collAbort h o) h u Status.ok ∧ u.coll.ops.get? (o % 1048576) = some c' ∧ c'.inst = none ∧
        c'.last = some (i.gen, Status.aborted) ∧ c'.next = (i.gen + 1) % 4096 ∧ u.memory = s.memory) ∧
    (∀ o, s.takesNow (.collAbort h o) h = true → s.coll.ops.get? (o % 1048576) = none →
      Refuses s (.collAbort h o) h Status.contextStale) ∧
    (∀ n r, s.takesNow (.collStatus h n r) h = true →
      Reports s (.collStatus h n r) h (s.withCommand (.collStatus h n r) h) r
        ((s.withCommand (.collStatus h n r) h).collRecord n)) ∧
    ∀ j g n m r b x, s.takesNow (.collBarrier h j g n m r) h = true → s.host.jobs.get? j = some x →
      (s.withCommand (.collBarrier h j g n m r) h).readImage (.collBarrier h j g n m r) h r (2 * m) (fun _ => 2 * m) = .inr b →
      ((s.ctxUse.get? n).isSome = true → x.inRange n = true →
        ((List.range m).map fun i => getLE b (2 * i) 2).Nodup →
        (∀ i, i < m → (x.addr (getLE b (2 * i) 2)).isSome = true) → Refuses s (.collBarrier h j g n m r) h Status.opBusy) ∧
      (s.ctxUse.get? n = none → s.groupUsed g = false → s.topo.groups.length < 65536 → x.inRange n = true →
        ((List.range m).map fun i => getLE b (2 * i) 2).Nodup →
        (∀ i, i < m → (x.addr (getLE b (2 * i) 2)).isSome = true) →
        ∃ u, (Completes s (.collBarrier h j g n m r) h u Status.ok ∨
            Waits s (.collBarrier h j g n m r) u (.group s.me g) [] (some n)) ∧
          u.coll.ops = s.coll.ops ∧ u.coll.barriers = (s.coll.barriers.set n
            { job := j, group := g, ranks := (List.range m).map (fun i => getLE b (2 * i) 2) }) ∧
          u.ctxUse.get? n = some Use.barrier ∧ (∃ e, u.group? s.me g = some e) ∧ u.memory = s.memory)

/-- R249–R252, R263, R267: what declares and loads. A declared block takes the lowest free context and room in device memory,
and its base is returned; a record that does not fit is refused. INIT fills a region of a block that has not begun, with zeros
or with the data; READ reports a region. An optimizer record is stored for its job; a program is bound to a slot of a block
that is not updating. -/
def Obligations.BlocksAreDeclared : Prop :=
  ∀ (s : State) (h : CmdHdr),
    (∀ r b ctx t, s.takesNow (.paramDeclare h r) h = true →
      (s.withCommand (.paramDeclare h r) h).readImage (.paramDeclare h r) h r 64 declLength = .inr b →
      s.imageJob h (parseBlock b).job = none → s.stozilJob (parseBlock b).job = false →
      (s.withCommand (.paramDeclare h r) h).declare b = (.inr ctx, t) →
      (∃ u, (Completes s (.paramDeclare h r) h u Status.ok
            (packValues [(8, ((t.parm.blocks.get? ctx).map BlockSt.base).getD 0)]) ∨
          ∃ k, Waits s (.paramDeclare h r) u k (packValues [(8, ((t.parm.blocks.get? ctx).map BlockSt.base).getD 0)])
            (some ctx)) ∧
        s.freeCtx = some ctx ∧ u.ctxUse.get? ctx = some Use.block ∧
        ∃ x, u.parm.blocks.get? ctx = some x ∧ x.id = (parseBlock b).id ∧ x.job = (parseBlock b).job ∧ x.state = 1 ∧
          x.version = 0 ∧ x.published = false ∧ s.findRoom x.size = some x.base)) ∧
    (∀ r b st t, s.takesNow (.paramDeclare h r) h = true →
      (s.withCommand (.paramDeclare h r) h).readImage (.paramDeclare h r) h r 64 declLength = .inr b →
      s.imageJob h (parseBlock b).job = none → s.stozilJob (parseBlock b).job = false →
      (s.withCommand (.paramDeclare h r) h).declare b = (.inl st, t) →
      Completes s (.paramDeclare h r) h (s.withCommand (.paramDeclare h r) h) st []
        (if st = Status.programInvalid then 6 else 0)) ∧
    (∀ b j k z r ctx x, s.takesNow (.paramInit h b j k z r) h = true → s.blockOf j b = some (ctx, x) →
      (notBegun (s.stateOf ctx x).1 (s.stateOf ctx x).2 = false → Refuses s (.paramInit h b j k z r) h Status.blockState) ∧
      (notBegun (s.stateOf ctx x).1 (s.stateOf ctx x).2 = true → x.hasRegion k = false →
        Refuses s (.paramInit h b j k z r) h Status.descInvalid) ∧
      (notBegun (s.stateOf ctx x).1 (s.stateOf ctx x).2 = true → x.hasRegion k = true → z = 1 →
        Ends s (.paramInit h b j k z r) h [] [.mem] fun u => u.memory = (s.fillRegion x k (zeros (x.codeBytes k))).memory) ∧
      (∀ data, notBegun (s.stateOf ctx x).1 (s.stateOf ctx x).2 = true → x.hasRegion k = true → z ≠ 1 →
        x.codeBytes k ≤ r.len →
        (s.withCommand (.paramInit h b j k z r) h).readRef (.paramInit h b j k z r) h r (x.codeBytes k) = some data →
        Ends s (.paramInit h b j k z r) h [] [.mem] fun u => u.memory = (s.fillRegion x k data).memory)) ∧
    (∀ b j k r ctx x, s.takesNow (.paramRead h b j k r) h = true → s.blockOf j b = some (ctx, x) → x.hasRegion k = true →
      (s.stateOf ctx x).1 = 1 ∨ (s.stateOf ctx x).1 = 2 ∨ (s.stateOf ctx x).1 = 6 →
      Reports s (.paramRead h b j k r) h (s.withCommand (.paramRead h b j k r) h) r (s.regionBytes x k)) ∧
    (∀ r b, s.takesNow (.paramOptimizer h r) h = true →
      (s.withCommand (.paramOptimizer h r) h).readImage (.paramOptimizer h r) h r 64 (fun b => 288 + 16 * getLE b 6 1) = .inr b →
      s.imageJob h (getLE b 4 2 % 4096) = none → (s.host.jobs.get? (getLE b 4 2 % 4096)).isSome = true →
      (s.optimizerOk b = false → Refuses s (.paramOptimizer h r) h Status.programInvalid 1) ∧
      (s.optimizerOk b = true → Ends s (.paramOptimizer h r) h [] [.parm] fun u =>
        ∃ o, u.parm.opts.get? (getLE b 4 2 % 4096 * 2 ^ 32 + getLE b 0 4) = some o ∧ o.stages = parseStages b ∧
          u.parm.blocks = s.parm.blocks)) ∧
    ∀ b j k o ctx x p, s.takesNow (.paramProgram h b j k o) h = true → s.blockOf j b = some (ctx, x) →
      s.prog? (o % 1048576) = some p → o = s.opId (o % 1048576) →
      ((s.stateOf ctx x).1 = 5 → Refuses s (.paramProgram h b j k o) h Status.blockState) ∧
      ((s.stateOf ctx x).1 ≠ 5 → p.job ≠ j ∨ x.progOverlaps p = true → Refuses s (.paramProgram h b j k o) h Status.programInvalid 10) ∧
      ((s.stateOf ctx x).1 ≠ 5 → p.job = j → x.progOverlaps p = false → Ends s (.paramProgram h b j k o) h [] [.parm] fun u =>
        u.parm.blocks.get? ctx = some { x with progs := x.progs.set k (o % 1048576) } ∧
        ∀ n, n ≠ ctx → u.parm.blocks.get? n = s.parm.blocks.get? n)

/-- R253, R256, R266, R267, R269: what steps blocks on. PUBLISH of a block that has not begun waits for the production; CLOSE
takes an ACCUMULATING block to CLOSED or beyond; UPDATE and DISCARD act on a FAILED block only, DISCARD opens the next step
with cleared accumulators; EVICT drops the holds of the oldest version and no other; SPOIL writes the mask; HYPER sets the
multiplier of one block, or of every block of the job; STATUS reports; RETIRE removes a block that has not begun, or has
failed. -/
def Obligations.BlocksAreSteppedByCommand : Prop :=
  ∀ (s : State) (h : CmdHdr) (b j ctx : Nat) (x : BlockSt), s.blockOf j b = some (ctx, x) →
    (s.takesNow (.paramPublish h b j) h = true →
      (x.kind = 3 ∨ x.publishing = true → Refuses s (.paramPublish h b j) h Status.blockState) ∧
      (x.kind ≠ 3 → x.publishing = false → x.state = 1 ∧ x.producing = none ∨ x.state = 2 ∧ x.started = 0 →
        ∃ u, Waits s (.paramPublish h b j) u (.block j b))) ∧
    (s.takesNow (.paramClose h b j) h = true → b ≠ 0 → x.kind ≠ 3 →
      (x.state ≠ 2 → Refuses s (.paramClose h b j) h Status.blockState) ∧
      (x.state = 2 → ∃ u x', Completes s (.paramClose h b j) h u Status.ok ∧ u.parm.blocks.get? ctx = some x' ∧
        (x'.state = 3 ∨ x'.state = 4 ∨ x'.state = 2 ∧ x'.step = x.step + 1 ∧ x'.lastStatus = Status.stepDiscarded))) ∧
    (s.takesNow (.paramUpdate h b j) h = true → x.kind ≠ 3 →
      (x.state ≠ 6 → Refuses s (.paramUpdate h b j) h Status.blockState) ∧
      (x.state = 6 → ∃ u x', Completes s (.paramUpdate h b j) h u Status.ok ∧ u.parm.blocks.get? ctx = some x' ∧
        (x'.state = 3 ∨ x'.state = 4 ∨ x'.state = 2 ∧ x'.step = x.step + 1 ∧ x'.lastStatus = Status.stepDiscarded))) ∧
    (s.takesNow (.paramDiscard h b j) h = true → x.kind ≠ 3 →
      (x.state ≠ 6 → Refuses s (.paramDiscard h b j) h Status.blockState) ∧
      (x.state = 6 → Ends s (.paramDiscard h b j) h [] [.parm, .mem, .fresh] fun u =>
        (∃ x', u.parm.blocks.get? ctx = some x' ∧ x'.state = 2 ∧ x'.step = x.step + 1 ∧ x'.version = x.version ∧
          x'.started = 0 ∧ x'.failed = 0) ∧
        (∀ i, i < 8 * x.ep → u.byte (x.regionAddr 3 + i) = 0))) ∧
    (s.takesNow (.paramEvict h b j) h = true → x.kind ≠ 3 →
      Ends s (.paramEvict h b j) h [] [.parm, .regs] fun u =>
        u.parm.blocks.get? ctx = some { x with holds := (x.holds.map fun kv =>
          if kv.1 = x.oldest then (kv.1, kv.2 - (kv.2 &&& x.allSubs)) else kv) }) ∧
    (∀ r m, s.takesNow (.paramSpoil h b j r) h = true →
      (x.kind = 3 ∨ r.len < x.maskBytes → Refuses s (.paramSpoil h b j r) h Status.descInvalid) ∧
      (x.kind ≠ 3 → x.maskBytes ≤ r.len →
        (s.withCommand (.paramSpoil h b j r) h).readRef (.paramSpoil h b j r) h r x.maskBytes = some m →
        Ends s (.paramSpoil h b j r) h [] [.mem] fun u => u.memory = (s.writeMem (x.regionAddr 10) m).memory)) ∧
    (∀ y, s.takesNow (.paramHyper h b j y) h = true → b ≠ 0 →
      Ends s (.paramHyper h b j y) h [] [.parm] fun u =>
        u.parm.blocks.get? ctx = some { x with multiplier := y } ∧
        ∀ n, n ≠ ctx → u.parm.blocks.get? n = s.parm.blocks.get? n) ∧
    (∀ y, s.takesNow (.paramHyper h 0 j y) h = true →
      Ends s (.paramHyper h 0 j y) h [] [.parm] fun u =>
        ∀ n z, s.parm.blocks.get? n = some z → (n, z) ∈ s.parm.blocks → z.job = j →
          (u.parm.blocks.get? n).map BlockSt.multiplier = some y) ∧
    (∀ r, s.takesNow (.paramStatus h b j r) h = true →
      Reports s (.paramStatus h b j r) h (s.withCommand (.paramStatus h b j r) h) r
        ((s.withCommand (.paramStatus h b j r) h).blockRecord ctx x)) ∧
    (s.takesNow (.paramRetire h b j) h = true → x.kind ≠ 3 →
      (notBegun x.state x.started = false → x.state ≠ 6 → Refuses s (.paramRetire h b j) h Status.blockState) ∧
      (notBegun x.state x.started = true ∨ x.state = 6 → ∃ u, Completes s (.paramRetire h b j) h u Status.ok ∧
        u.parm.blocks = s.parm.blocks.erase ctx ∧ u.ctxUse.get? ctx = none ∧ u.memory = s.memory))

/-- R274–R278, R289, R291, R292: the stash by command. RESERVE refuses what Table 12.3 refuses, and a job that has a
reservation; else the job has one with its op_id. RELEASE frees the entries that no get uses, and waits where some remain;
PURGE drops what it names; STATUS and ENTRY report. A reservation whose release has lasted release_drain ticks ends its gets.
-/
def Obligations.StashCommands : Prop :=
  ∀ (s : State) (h : CmdHdr) (j : Nat),
    (∀ l n r m, s.takesNow (.stashReserve h j l n r m) h = true → s.stozilJob j = false →
      (∀ st, s.stashReserve j l n r m = .inl st → Refuses s (.stashReserve h j l n r m) h st) ∧
      ((s.stash.res.get? j).isSome = true → r ≤ m → r + Config.contextBytes ≤ s.usable → m ≤ 2 ^ 40 → 0 < n → n ≤ 262144 →
        16 ≤ l → l ≤ 24 → Refuses s (.stashReserve h j l n r m) h Status.opBusy) ∧
      (∀ o t, s.stashReserve j l n r m = .inr (o, t) →
        Ends s (.stashReserve h j l n r m) h (packValues [(4, o)]) [.stash, .ctxs, .flt] fun u =>
          (∃ x, u.stash.res.get? j = some x ∧ x.opId = o ∧ x.reserved = r ∧ x.limit = m ∧ x.maxEntries = n ∧
            x.extentLog2 = l ∧ x.releasing = false) ∧ u.stash.ents = s.stash.ents)) ∧
    (∀ x, s.takesNow (.stashRelease h j) h = true → s.stash.res.get? j = some x →
      ((s.stashEnts j).all (fun e => (s.getsOn e).isEmpty) = true →
        Ends s (.stashRelease h j) h [] [.stash, .ctxs] fun u =>
          u.stash.res.get? j = none ∧ u.stash.ents = s.stash.ents.filter (fun e => e.job != j)) ∧
      ((s.stashEnts j).all (fun e => (s.getsOn e).isEmpty) = false →
        ∃ u y, Waits s (.stashRelease h j) u (.stash j) ∧ u.stash.res.get? j = some y ∧ y.releasing = true ∧ y.drain = 0 ∧
          (∀ e ∈ u.stash.ents, e ∈ s.stash.ents) ∧
          (∀ e ∈ s.stash.ents, e.job ≠ j → e ∈ u.stash.ents))) ∧
    (s.stash.res.get? j = none →
      (s.takesNow (.stashRelease h j) h = true → Refuses s (.stashRelease h j) h Status.stashNotReserved) ∧
      (∀ r, s.takesNow (.stashStatus h j r) h = true → Refuses s (.stashStatus h j r) h Status.stashNotReserved)) ∧
    (∀ x rank tag mask, s.takesNow (.stashPurge h j rank tag mask) h = true → s.stash.res.get? j = some x →
      Ends s (.stashPurge h j rank tag mask) h [] [.stash, .regs, .host, .fresh] fun u =>
        (∀ e ∈ s.stash.ents, ¬(e.job = j ∧ (rank = 0xFFFF ∨ e.holder = rank) ∧ e.tag &&& mask = tag &&& mask) →
          e ∈ u.stash.ents) ∧
        (∀ e ∈ u.stash.ents, e.job = j → rank = 0xFFFF ∨ e.holder = rank → e.tag &&& mask = tag &&& mask →
          e.state ≠ 1 ∧ e.dropPending = true)) ∧
    (∀ x r, s.takesNow (.stashStatus h j r) h = true → s.stash.res.get? j = some x →
      Reports s (.stashStatus h j r) h (s.withCommand (.stashStatus h j r) h).stamped r
        ((s.withCommand (.stashStatus h j r) h).stashRecord j x)) ∧
    (∀ x e rank tag r, s.takesNow (.stashEntry h j rank tag r) h = true → s.stash.res.get? j = some x →
      s.stashEnt j rank tag = some e →
      Reports s (.stashEntry h j rank tag r) h (s.withCommand (.stashEntry h j rank tag r) h) r
        ((s.withCommand (.stashEntry h j rank tag r) h).entryRecord e x.extentLog2)) ∧
    (∀ x rank tag r, s.takesNow (.stashEntry h j rank tag r) h = true → s.stash.res.get? j = some x →
      s.stashEnt j rank tag = none → Refuses s (.stashEntry h j rank tag r) h Status.stashNoEntry) ∧
    ∀ x, s.isSafe = false → s.stash.res.get? j = some x →
      (x.releasing = false ∨ x.drain < s.cfg .stashCfg 0 16 16 → Leads s (.stashReleaseDrainTimeout j) s) ∧
      (x.releasing = true → s.cfg .stashCfg 0 16 16 ≤ x.drain →
        ∃ u, Leads s (.stashReleaseDrainTimeout j) u ∧ (∀ g ∈ u.stash.gets, g.job ≠ j) ∧ u.memory = s.memory)

/-- R354, R367, R373, R376, R379, R381, R387: the power and fault commands. PHASE declares a phase of the tiles its mask
names, and their targets follow; CAP sets the limit; SEVERITY sets one class's level and refuses one below its minimum or
above 5; INJECT refuses a class without checkers and one not allowed live, and else sets the injection up and waits; CLEAR
clears the class bits of its mask and drops their captures. -/
def Obligations.PowerAndFaultCommands : Prop :=
  ∀ (s : State) (h : CmdHdr),
    (∀ p m, s.takesNow (.pwrPhase h p m) h = true →
      Ends s (.pwrPhase h p m) h [] [.pwr] fun u => ∀ t,
        (t < 8 → bit m t = true → (u.tilePwr t).phase = p ∧ (u.tilePwr t).target = u.targetPoint t) ∧
        (8 ≤ t ∨ bit m t = false → u.tilePwr t = s.tilePwr t)) ∧
    (∀ w, s.takesNow (.pwrCap h w) h = true →
      Ends s (.pwrCap h w) h [] [.regs] fun u => u.reg .pwrCap = w ∧
        ∀ (r : Reg) (i : Nat), r.key i ≠ Reg.pwrCap.key 0 → u.reg r i = s.reg r i) ∧
    (∀ c l, s.takesNow (.fltSeverity h c l) h = true →
      (levelOk c l = false → Refuses s (.fltSeverity h c l) h Status.descInvalid) ∧
      (levelOk c l = true → Ends s (.fltSeverity h c l) h [] [.regs] fun u =>
        u.faultLevel c = l ∧ ∀ d, d < 28 → d ≠ c → u.faultLevel d = s.faultLevel d)) ∧
    (∀ c, s.takesNow (.fltInject h c) h = true →
      (128 ≤ c ∨ c % 64 ∉ injectable ∨ bit c 6 = true ∧ (c % 64 = 20 ∨ c % 64 = 21 ∨ c % 64 = 24) →
        Refuses s (.fltInject h c) h Status.descInvalid) ∧
      (s.injectRefusal c = none → ∃ (u : State) (m : Nat), Waits s (.fltInject h c) u .inject ∧
        (s.withCommand (.fltInject h c) h).keepsBut [.flt] u ∧
        u.flt.injection = some { cls := c % 64, master := m, live := bit c 6 } ∧
        (s.cfg .fltInjectTarget 0 0 16 ≠ 0xFFFF → m = s.cfg .fltInjectTarget 0 0 16) ∧
        (s.cfg .fltInjectTarget 0 0 16 = 0xFFFF → m = unitName (c % 64) (s.flt.rotation.getD (c % 64) 0 % unitCount (c % 64))))) ∧
    ∀ m, s.takesNow (.fltClear h m) h = true →
      Ends s (.fltClear h m) h [] [.flt] fun u =>
        (∀ c, bit u.flt.status c = (bit s.flt.status c && !(decide (c < 28) && bit m c))) ∧
        (∀ c, u.flt.top = some c → ¬(c.cls < 28 ∧ bit m c.cls = true)) ∧
        (∀ k ∈ u.flt.captures, ¬(k.2.cls < 28 ∧ bit m k.2.cls = true)) ∧
        (∀ k ∈ s.flt.captures, ¬(k.2.cls < 28 ∧ bit m k.2.cls = true) → k ∈ u.flt.captures)

/-- R404–R406, R408, R410: the management commands. IMAGE_WRITE writes its data, given in the command or through a reference,
at the session's pointer and leaves the slot invalid from its first byte; ACTIVATE checks the slot and marks it and the other,
or counts a refusal; ATTEST answers with the signed report, LOG_READ with records of the log. -/
def Obligations.ManagementCommands : Prop :=
  ∀ (s : State) (h : CmdHdr),
    (∀ k off r data, s.takesNow (.mgtImageWrite h k off r data) h = true →
      (∀ st, s.imageWriteRefusal h.path k off r.len = some st → Refuses s (.mgtImageWrite h k off r data) h st) ∧
      (∀ bytes, s.imageWriteRefusal h.path k off r.len = none →
        (if r.key = 0 ∧ r.addr = 0 ∧ r.len ≤ 24 then some (padTo r.len data)
         else (s.withCommand (.mgtImageWrite h k off r data) h).readRef (.mgtImageWrite h k off r data) h r r.len) =
          some bytes →
        Ends s (.mgtImageWrite h k off r data) h [] [.mgt] fun u =>
          (u.slot k).bytes = some (s.slotAfter k off bytes) ∧
          u.mgt.session = some ⟨k, h.path, off + bytes.length⟩ ∧ (off = 0 → (u.slot k).mark = 3) ∧
          u.slot (otherSlot k) = s.slot (otherSlot k)) ∧
      (s.imageWriteRefusal h.path k off r.len = none → ¬(r.key = 0 ∧ r.addr = 0 ∧ r.len ≤ 24) →
        (s.withCommand (.mgtImageWrite h k off r data) h).readRef (.mgtImageWrite h k off r data) h r r.len = none →
        Completes s (.mgtImageWrite h k off r data) h
          ((s.withCommand (.mgtImageWrite h k off r data) h).refReport r r.len 1) (s.refStatus r r.len))) ∧
    (∀ k, s.takesNow (.mgtImageActivate h k) h = true → k ≤ 1 →
      (2 ≤ s.boot.phase → ¬(s.boot.phase = 15 ∧ s.boot.failReason = 1) → s.boot.slot = k →
        Ends s (.mgtImageActivate h k) h [] [] fun _ => True) ∧
      (s.boot.slot ≠ k ∨ s.boot.phase = 15 ∧ s.boot.failReason = 1 →
        (∀ x, s.mgt.session = some x → x.slot = k → x.path ≠ h.path →
          Refuses s (.mgtImageActivate h k) h Status.opBusy) ∧
        ((∀ x, s.mgt.session = some x → x.slot = k → x.path = h.path) →
          ∃ u, Completes s (.mgtImageActivate h k) h u (s.imageCheck (s.slotBytes k)) ∧
            if s.imageCheck (s.slotBytes k) = Status.ok then
              (u.slot k).mark = 0 ∧ (u.slot k).pending = true ∧ (u.slot (otherSlot k)).mark = 1 ∧
                (u.slot (otherSlot k)).pending = false ∧ (u.slot k).bytes = (s.slot k).bytes
            else u.reg .mgtImageRefused = s.countedUp .mgtImageRefused 0 ∧ ∀ j, u.slot j = s.slot j))) ∧
    (∀ n r, s.takesNow (.mgtAttest h n r) h = true →
      (r.len < ((s.withCommand (.mgtAttest h n r) h).attestation n).length →
        Refuses s (.mgtAttest h n r) h Status.descInvalid) ∧
      (((s.withCommand (.mgtAttest h n r) h).attestation n).length ≤ r.len →
        Reports s (.mgtAttest h n r) h ((s.withCommand (.mgtAttest h n r) h).stamped.bump .mgtAttests) r
          ((s.withCommand (.mgtAttest h n r) h).attestation n))) ∧
    ∀ a n r, s.takesNow (.mgtLogRead h a n r) h = true →
      (r.len < 64 * n → Refuses s (.mgtLogRead h a n r) h Status.descInvalid) ∧
      (64 * n ≤ r.len →
        Completes s (.mgtLogRead h a n r) h
          ((s.withCommand (.mgtLogRead h a n r) h).writeRef (.mgtLogRead h a n r) h r
            ((s.withCommand (.mgtLogRead h a n r) h).logBytes a n)).2
          (if ((s.withCommand (.mgtLogRead h a n r) h).writeRef (.mgtLogRead h a n r) h r
            ((s.withCommand (.mgtLogRead h a n r) h).logBytes a n)).1 = true then Status.ok
           else s.refStatus r ((s.withCommand (.mgtLogRead h a n r) h).logBytes a n).length))
end

