-- ==== Sys2Proof/Laws/State.lean ====
section
/-! SUPPORT. One lemma for each field and each basic update of the state, true by unfolding: what an update writes, and that it
leaves the rest. -/

namespace Sys2Proof.Machine

variable (s : State)

/-! ### State.emit -/

@[simp] theorem State.emit_pending (o : Out) : (s.emit o).pending = s.pending := rfl
@[simp] theorem State.emit_fresh (o : Out) : (s.emit o).fresh = s.fresh := rfl
@[simp] theorem State.emit_regs (o : Out) : (s.emit o).regs = s.regs := rfl
@[simp] theorem State.emit_tick (o : Out) : (s.emit o).tick = s.tick := rfl
@[simp] theorem State.emit_link (o : Out) : (s.emit o).link = s.link := rfl
@[simp] theorem State.emit_boot (o : Out) : (s.emit o).boot = s.boot := rfl
@[simp] theorem State.emit_flt (o : Out) : (s.emit o).flt = s.flt := rfl
@[simp] theorem State.emit_mgt (o : Out) : (s.emit o).mgt = s.mgt := rfl
@[simp] theorem State.emit_host (o : Out) : (s.emit o).host = s.host := rfl
@[simp] theorem State.emit_topo (o : Out) : (s.emit o).topo = s.topo := rfl
@[simp] theorem State.emit_flow (o : Out) : (s.emit o).flow = s.flow := rfl
@[simp] theorem State.emit_sw (o : Out) : (s.emit o).sw = s.sw := rfl
@[simp] theorem State.emit_pool (o : Out) : (s.emit o).pool = s.pool := rfl
@[simp] theorem State.emit_eng (o : Out) : (s.emit o).eng = s.eng := rfl
@[simp] theorem State.emit_coll (o : Out) : (s.emit o).coll = s.coll := rfl
@[simp] theorem State.emit_parm (o : Out) : (s.emit o).parm = s.parm := rfl
@[simp] theorem State.emit_stash (o : Out) : (s.emit o).stash = s.stash := rfl
@[simp] theorem State.emit_stz (o : Out) : (s.emit o).stz = s.stz := rfl
@[simp] theorem State.emit_pwr (o : Out) : (s.emit o).pwr = s.pwr := rfl
@[simp] theorem State.emit_ctxUse (o : Out) : (s.emit o).ctxUse = s.ctxUse := rfl
@[simp] theorem State.emit_ctxGen (o : Out) : (s.emit o).ctxGen = s.ctxGen := rfl
@[simp] theorem State.emit_mem (o : Out) : (s.emit o).mem = s.mem := rfl
@[simp] theorem State.emit_undef (o : Out) : (s.emit o).undef = s.undef := rfl
@[simp] theorem State.emit_out (o : Out) : (s.emit o).out = o :: s.out := rfl

/-! ### State.setReg -/

@[simp] theorem State.setReg_pending (r : Reg) (i v : Nat) : (s.setReg r i v).pending = s.pending := rfl
@[simp] theorem State.setReg_fresh (r : Reg) (i v : Nat) : (s.setReg r i v).fresh = s.fresh := rfl
@[simp] theorem State.setReg_regs (r : Reg) (i v : Nat) : (s.setReg r i v).regs = s.regs.set (r.key i) v := rfl
@[simp] theorem State.setReg_tick (r : Reg) (i v : Nat) : (s.setReg r i v).tick = s.tick := rfl
@[simp] theorem State.setReg_link (r : Reg) (i v : Nat) : (s.setReg r i v).link = s.link := rfl
@[simp] theorem State.setReg_boot (r : Reg) (i v : Nat) : (s.setReg r i v).boot = s.boot := rfl
@[simp] theorem State.setReg_flt (r : Reg) (i v : Nat) : (s.setReg r i v).flt = s.flt := rfl
@[simp] theorem State.setReg_mgt (r : Reg) (i v : Nat) : (s.setReg r i v).mgt = s.mgt := rfl
@[simp] theorem State.setReg_host (r : Reg) (i v : Nat) : (s.setReg r i v).host = s.host := rfl
@[simp] theorem State.setReg_topo (r : Reg) (i v : Nat) : (s.setReg r i v).topo = s.topo := rfl
@[simp] theorem State.setReg_flow (r : Reg) (i v : Nat) : (s.setReg r i v).flow = s.flow := rfl
@[simp] theorem State.setReg_sw (r : Reg) (i v : Nat) : (s.setReg r i v).sw = s.sw := rfl
@[simp] theorem State.setReg_pool (r : Reg) (i v : Nat) : (s.setReg r i v).pool = s.pool := rfl
@[simp] theorem State.setReg_eng (r : Reg) (i v : Nat) : (s.setReg r i v).eng = s.eng := rfl
@[simp] theorem State.setReg_coll (r : Reg) (i v : Nat) : (s.setReg r i v).coll = s.coll := rfl
@[simp] theorem State.setReg_parm (r : Reg) (i v : Nat) : (s.setReg r i v).parm = s.parm := rfl
@[simp] theorem State.setReg_stash (r : Reg) (i v : Nat) : (s.setReg r i v).stash = s.stash := rfl
@[simp] theorem State.setReg_stz (r : Reg) (i v : Nat) : (s.setReg r i v).stz = s.stz := rfl
@[simp] theorem State.setReg_pwr (r : Reg) (i v : Nat) : (s.setReg r i v).pwr = s.pwr := rfl
@[simp] theorem State.setReg_ctxUse (r : Reg) (i v : Nat) : (s.setReg r i v).ctxUse = s.ctxUse := rfl
@[simp] theorem State.setReg_ctxGen (r : Reg) (i v : Nat) : (s.setReg r i v).ctxGen = s.ctxGen := rfl
@[simp] theorem State.setReg_mem (r : Reg) (i v : Nat) : (s.setReg r i v).mem = s.mem := rfl
@[simp] theorem State.setReg_undef (r : Reg) (i v : Nat) : (s.setReg r i v).undef = s.undef := rfl
@[simp] theorem State.setReg_out (r : Reg) (i v : Nat) : (s.setReg r i v).out = s.out := rfl

/-! ### State.bump -/

@[simp] theorem State.bump_pending (r : Reg) (i n : Nat) : (s.bump r i n).pending = s.pending := rfl
@[simp] theorem State.bump_fresh (r : Reg) (i n : Nat) : (s.bump r i n).fresh = s.fresh := rfl
@[simp] theorem State.bump_tick (r : Reg) (i n : Nat) : (s.bump r i n).tick = s.tick := rfl
@[simp] theorem State.bump_link (r : Reg) (i n : Nat) : (s.bump r i n).link = s.link := rfl
@[simp] theorem State.bump_boot (r : Reg) (i n : Nat) : (s.bump r i n).boot = s.boot := rfl
@[simp] theorem State.bump_flt (r : Reg) (i n : Nat) : (s.bump r i n).flt = s.flt := rfl
@[simp] theorem State.bump_mgt (r : Reg) (i n : Nat) : (s.bump r i n).mgt = s.mgt := rfl
@[simp] theorem State.bump_host (r : Reg) (i n : Nat) : (s.bump r i n).host = s.host := rfl
@[simp] theorem State.bump_topo (r : Reg) (i n : Nat) : (s.bump r i n).topo = s.topo := rfl
@[simp] theorem State.bump_flow (r : Reg) (i n : Nat) : (s.bump r i n).flow = s.flow := rfl
@[simp] theorem State.bump_sw (r : Reg) (i n : Nat) : (s.bump r i n).sw = s.sw := rfl
@[simp] theorem State.bump_pool (r : Reg) (i n : Nat) : (s.bump r i n).pool = s.pool := rfl
@[simp] theorem State.bump_eng (r : Reg) (i n : Nat) : (s.bump r i n).eng = s.eng := rfl
@[simp] theorem State.bump_coll (r : Reg) (i n : Nat) : (s.bump r i n).coll = s.coll := rfl
@[simp] theorem State.bump_parm (r : Reg) (i n : Nat) : (s.bump r i n).parm = s.parm := rfl
@[simp] theorem State.bump_stash (r : Reg) (i n : Nat) : (s.bump r i n).stash = s.stash := rfl
@[simp] theorem State.bump_stz (r : Reg) (i n : Nat) : (s.bump r i n).stz = s.stz := rfl
@[simp] theorem State.bump_pwr (r : Reg) (i n : Nat) : (s.bump r i n).pwr = s.pwr := rfl
@[simp] theorem State.bump_ctxUse (r : Reg) (i n : Nat) : (s.bump r i n).ctxUse = s.ctxUse := rfl
@[simp] theorem State.bump_ctxGen (r : Reg) (i n : Nat) : (s.bump r i n).ctxGen = s.ctxGen := rfl
@[simp] theorem State.bump_mem (r : Reg) (i n : Nat) : (s.bump r i n).mem = s.mem := rfl
@[simp] theorem State.bump_undef (r : Reg) (i n : Nat) : (s.bump r i n).undef = s.undef := rfl
@[simp] theorem State.bump_out (r : Reg) (i n : Nat) : (s.bump r i n).out = s.out := rfl

/-! ### State.stamped -/

@[simp] theorem State.stamped_pending : (s.stamped).pending = s.pending := rfl
@[simp] theorem State.stamped_fresh : (s.stamped).fresh = s.fresh + 1 := rfl
@[simp] theorem State.stamped_regs : (s.stamped).regs = s.regs := rfl
@[simp] theorem State.stamped_tick : (s.stamped).tick = s.tick := rfl
@[simp] theorem State.stamped_link : (s.stamped).link = s.link := rfl
@[simp] theorem State.stamped_boot : (s.stamped).boot = s.boot := rfl
@[simp] theorem State.stamped_flt : (s.stamped).flt = s.flt := rfl
@[simp] theorem State.stamped_mgt : (s.stamped).mgt = s.mgt := rfl
@[simp] theorem State.stamped_host : (s.stamped).host = s.host := rfl
@[simp] theorem State.stamped_topo : (s.stamped).topo = s.topo := rfl
@[simp] theorem State.stamped_flow : (s.stamped).flow = s.flow := rfl
@[simp] theorem State.stamped_sw : (s.stamped).sw = s.sw := rfl
@[simp] theorem State.stamped_pool : (s.stamped).pool = s.pool := rfl
@[simp] theorem State.stamped_eng : (s.stamped).eng = s.eng := rfl
@[simp] theorem State.stamped_coll : (s.stamped).coll = s.coll := rfl
@[simp] theorem State.stamped_parm : (s.stamped).parm = s.parm := rfl
@[simp] theorem State.stamped_stash : (s.stamped).stash = s.stash := rfl
@[simp] theorem State.stamped_stz : (s.stamped).stz = s.stz := rfl
@[simp] theorem State.stamped_pwr : (s.stamped).pwr = s.pwr := rfl
@[simp] theorem State.stamped_ctxUse : (s.stamped).ctxUse = s.ctxUse := rfl
@[simp] theorem State.stamped_ctxGen : (s.stamped).ctxGen = s.ctxGen := rfl
@[simp] theorem State.stamped_mem : (s.stamped).mem = s.mem := rfl
@[simp] theorem State.stamped_undef : (s.stamped).undef = s.undef := rfl
@[simp] theorem State.stamped_out : (s.stamped).out = s.out := rfl

/-! ### State.report -/

@[simp] theorem State.report_pending (rep : Sys2Proof.FaultRep) (b : Bool) : (s.report rep b).pending = s.pending := rfl
@[simp] theorem State.report_fresh (rep : Sys2Proof.FaultRep) (b : Bool) : (s.report rep b).fresh = s.fresh := rfl
@[simp] theorem State.report_regs (rep : Sys2Proof.FaultRep) (b : Bool) : (s.report rep b).regs = s.regs := rfl
@[simp] theorem State.report_tick (rep : Sys2Proof.FaultRep) (b : Bool) : (s.report rep b).tick = s.tick := rfl
@[simp] theorem State.report_link (rep : Sys2Proof.FaultRep) (b : Bool) : (s.report rep b).link = s.link := rfl
@[simp] theorem State.report_boot (rep : Sys2Proof.FaultRep) (b : Bool) : (s.report rep b).boot = s.boot := rfl
@[simp] theorem State.report_flt (rep : Sys2Proof.FaultRep) (b : Bool) : (s.report rep b).flt = { s.flt with todo := s.flt.todo ++ [(rep, b)] } := rfl
@[simp] theorem State.report_mgt (rep : Sys2Proof.FaultRep) (b : Bool) : (s.report rep b).mgt = s.mgt := rfl
@[simp] theorem State.report_host (rep : Sys2Proof.FaultRep) (b : Bool) : (s.report rep b).host = s.host := rfl
@[simp] theorem State.report_topo (rep : Sys2Proof.FaultRep) (b : Bool) : (s.report rep b).topo = s.topo := rfl
@[simp] theorem State.report_flow (rep : Sys2Proof.FaultRep) (b : Bool) : (s.report rep b).flow = s.flow := rfl
@[simp] theorem State.report_sw (rep : Sys2Proof.FaultRep) (b : Bool) : (s.report rep b).sw = s.sw := rfl
@[simp] theorem State.report_pool (rep : Sys2Proof.FaultRep) (b : Bool) : (s.report rep b).pool = s.pool := rfl
@[simp] theorem State.report_eng (rep : Sys2Proof.FaultRep) (b : Bool) : (s.report rep b).eng = s.eng := rfl
@[simp] theorem State.report_coll (rep : Sys2Proof.FaultRep) (b : Bool) : (s.report rep b).coll = s.coll := rfl
@[simp] theorem State.report_parm (rep : Sys2Proof.FaultRep) (b : Bool) : (s.report rep b).parm = s.parm := rfl
@[simp] theorem State.report_stash (rep : Sys2Proof.FaultRep) (b : Bool) : (s.report rep b).stash = s.stash := rfl
@[simp] theorem State.report_stz (rep : Sys2Proof.FaultRep) (b : Bool) : (s.report rep b).stz = s.stz := rfl
@[simp] theorem State.report_pwr (rep : Sys2Proof.FaultRep) (b : Bool) : (s.report rep b).pwr = s.pwr := rfl
@[simp] theorem State.report_ctxUse (rep : Sys2Proof.FaultRep) (b : Bool) : (s.report rep b).ctxUse = s.ctxUse := rfl
@[simp] theorem State.report_ctxGen (rep : Sys2Proof.FaultRep) (b : Bool) : (s.report rep b).ctxGen = s.ctxGen := rfl
@[simp] theorem State.report_mem (rep : Sys2Proof.FaultRep) (b : Bool) : (s.report rep b).mem = s.mem := rfl
@[simp] theorem State.report_undef (rep : Sys2Proof.FaultRep) (b : Bool) : (s.report rep b).undef = s.undef := rfl
@[simp] theorem State.report_out (rep : Sys2Proof.FaultRep) (b : Bool) : (s.report rep b).out = s.out := rfl

/-! ### State.useCtx -/

@[simp] theorem State.useCtx_pending (n k : Nat) : (s.useCtx n k).pending = s.pending := rfl
@[simp] theorem State.useCtx_fresh (n k : Nat) : (s.useCtx n k).fresh = s.fresh := rfl
@[simp] theorem State.useCtx_regs (n k : Nat) : (s.useCtx n k).regs = s.regs := rfl
@[simp] theorem State.useCtx_tick (n k : Nat) : (s.useCtx n k).tick = s.tick := rfl
@[simp] theorem State.useCtx_link (n k : Nat) : (s.useCtx n k).link = s.link := rfl
@[simp] theorem State.useCtx_boot (n k : Nat) : (s.useCtx n k).boot = s.boot := rfl
@[simp] theorem State.useCtx_flt (n k : Nat) : (s.useCtx n k).flt = s.flt := rfl
@[simp] theorem State.useCtx_mgt (n k : Nat) : (s.useCtx n k).mgt = s.mgt := rfl
@[simp] theorem State.useCtx_host (n k : Nat) : (s.useCtx n k).host = s.host := rfl
@[simp] theorem State.useCtx_topo (n k : Nat) : (s.useCtx n k).topo = s.topo := rfl
@[simp] theorem State.useCtx_flow (n k : Nat) : (s.useCtx n k).flow = s.flow := rfl
@[simp] theorem State.useCtx_sw (n k : Nat) : (s.useCtx n k).sw = s.sw := rfl
@[simp] theorem State.useCtx_pool (n k : Nat) : (s.useCtx n k).pool = s.pool := rfl
@[simp] theorem State.useCtx_eng (n k : Nat) : (s.useCtx n k).eng = s.eng := rfl
@[simp] theorem State.useCtx_coll (n k : Nat) : (s.useCtx n k).coll = s.coll := rfl
@[simp] theorem State.useCtx_parm (n k : Nat) : (s.useCtx n k).parm = s.parm := rfl
@[simp] theorem State.useCtx_stash (n k : Nat) : (s.useCtx n k).stash = s.stash := rfl
@[simp] theorem State.useCtx_stz (n k : Nat) : (s.useCtx n k).stz = s.stz := rfl
@[simp] theorem State.useCtx_pwr (n k : Nat) : (s.useCtx n k).pwr = s.pwr := rfl
@[simp] theorem State.useCtx_ctxUse (n k : Nat) : (s.useCtx n k).ctxUse = s.ctxUse.set n k := rfl
@[simp] theorem State.useCtx_ctxGen (n k : Nat) : (s.useCtx n k).ctxGen = s.ctxGen := rfl
@[simp] theorem State.useCtx_mem (n k : Nat) : (s.useCtx n k).mem = s.mem := rfl
@[simp] theorem State.useCtx_undef (n k : Nat) : (s.useCtx n k).undef = s.undef := rfl
@[simp] theorem State.useCtx_out (n k : Nat) : (s.useCtx n k).out = s.out := rfl

/-! ### State.dropCtx -/

@[simp] theorem State.dropCtx_pending (n : Nat) : (s.dropCtx n).pending = s.pending := rfl
@[simp] theorem State.dropCtx_fresh (n : Nat) : (s.dropCtx n).fresh = s.fresh := rfl
@[simp] theorem State.dropCtx_regs (n : Nat) : (s.dropCtx n).regs = s.regs := rfl
@[simp] theorem State.dropCtx_tick (n : Nat) : (s.dropCtx n).tick = s.tick := rfl
@[simp] theorem State.dropCtx_link (n : Nat) : (s.dropCtx n).link = s.link := rfl
@[simp] theorem State.dropCtx_boot (n : Nat) : (s.dropCtx n).boot = s.boot := rfl
@[simp] theorem State.dropCtx_flt (n : Nat) : (s.dropCtx n).flt = s.flt := rfl
@[simp] theorem State.dropCtx_mgt (n : Nat) : (s.dropCtx n).mgt = s.mgt := rfl
@[simp] theorem State.dropCtx_host (n : Nat) : (s.dropCtx n).host = s.host := rfl
@[simp] theorem State.dropCtx_topo (n : Nat) : (s.dropCtx n).topo = s.topo := rfl
@[simp] theorem State.dropCtx_flow (n : Nat) : (s.dropCtx n).flow = s.flow := rfl
@[simp] theorem State.dropCtx_sw (n : Nat) : (s.dropCtx n).sw = s.sw := rfl
@[simp] theorem State.dropCtx_pool (n : Nat) : (s.dropCtx n).pool = s.pool := rfl
@[simp] theorem State.dropCtx_eng (n : Nat) : (s.dropCtx n).eng = s.eng := rfl
@[simp] theorem State.dropCtx_coll (n : Nat) : (s.dropCtx n).coll = s.coll := rfl
@[simp] theorem State.dropCtx_parm (n : Nat) : (s.dropCtx n).parm = s.parm := rfl
@[simp] theorem State.dropCtx_stash (n : Nat) : (s.dropCtx n).stash = s.stash := rfl
@[simp] theorem State.dropCtx_stz (n : Nat) : (s.dropCtx n).stz = s.stz := rfl
@[simp] theorem State.dropCtx_pwr (n : Nat) : (s.dropCtx n).pwr = s.pwr := rfl
@[simp] theorem State.dropCtx_ctxUse (n : Nat) : (s.dropCtx n).ctxUse = s.ctxUse.erase n := rfl
@[simp] theorem State.dropCtx_ctxGen (n : Nat) : (s.dropCtx n).ctxGen = s.ctxGen := rfl
@[simp] theorem State.dropCtx_mem (n : Nat) : (s.dropCtx n).mem = s.mem := rfl
@[simp] theorem State.dropCtx_undef (n : Nat) : (s.dropCtx n).undef = s.undef := rfl
@[simp] theorem State.dropCtx_out (n : Nat) : (s.dropCtx n).out = s.out := rfl

/-! ### State.newGen -/

@[simp] theorem State.newGen_pending (n : Nat) : (s.newGen n).pending = s.pending := rfl
@[simp] theorem State.newGen_fresh (n : Nat) : (s.newGen n).fresh = s.fresh := rfl
@[simp] theorem State.newGen_regs (n : Nat) : (s.newGen n).regs = s.regs := rfl
@[simp] theorem State.newGen_tick (n : Nat) : (s.newGen n).tick = s.tick := rfl
@[simp] theorem State.newGen_link (n : Nat) : (s.newGen n).link = s.link := rfl
@[simp] theorem State.newGen_boot (n : Nat) : (s.newGen n).boot = s.boot := rfl
@[simp] theorem State.newGen_flt (n : Nat) : (s.newGen n).flt = s.flt := rfl
@[simp] theorem State.newGen_mgt (n : Nat) : (s.newGen n).mgt = s.mgt := rfl
@[simp] theorem State.newGen_host (n : Nat) : (s.newGen n).host = s.host := rfl
@[simp] theorem State.newGen_topo (n : Nat) : (s.newGen n).topo = s.topo := rfl
@[simp] theorem State.newGen_flow (n : Nat) : (s.newGen n).flow = s.flow := rfl
@[simp] theorem State.newGen_sw (n : Nat) : (s.newGen n).sw = s.sw := rfl
@[simp] theorem State.newGen_pool (n : Nat) : (s.newGen n).pool = s.pool := rfl
@[simp] theorem State.newGen_eng (n : Nat) : (s.newGen n).eng = s.eng := rfl
@[simp] theorem State.newGen_coll (n : Nat) : (s.newGen n).coll = s.coll := rfl
@[simp] theorem State.newGen_parm (n : Nat) : (s.newGen n).parm = s.parm := rfl
@[simp] theorem State.newGen_stash (n : Nat) : (s.newGen n).stash = s.stash := rfl
@[simp] theorem State.newGen_stz (n : Nat) : (s.newGen n).stz = s.stz := rfl
@[simp] theorem State.newGen_pwr (n : Nat) : (s.newGen n).pwr = s.pwr := rfl
@[simp] theorem State.newGen_ctxUse (n : Nat) : (s.newGen n).ctxUse = s.ctxUse := rfl
@[simp] theorem State.newGen_ctxGen (n : Nat) : (s.newGen n).ctxGen = s.ctxGen.set n ((s.ctxGen.getD n 0 + 1) % 4096) := rfl
@[simp] theorem State.newGen_mem (n : Nat) : (s.newGen n).mem = s.mem := rfl
@[simp] theorem State.newGen_undef (n : Nat) : (s.newGen n).undef = s.undef := rfl
@[simp] theorem State.newGen_out (n : Nat) : (s.newGen n).out = s.out := rfl

/-! ### State.clearMem -/

@[simp] theorem State.clearMem_pending (a n : Nat) : (s.clearMem a n).pending = s.pending := rfl
@[simp] theorem State.clearMem_fresh (a n : Nat) : (s.clearMem a n).fresh = s.fresh := rfl
@[simp] theorem State.clearMem_regs (a n : Nat) : (s.clearMem a n).regs = s.regs := rfl
@[simp] theorem State.clearMem_tick (a n : Nat) : (s.clearMem a n).tick = s.tick := rfl
@[simp] theorem State.clearMem_link (a n : Nat) : (s.clearMem a n).link = s.link := rfl
@[simp] theorem State.clearMem_boot (a n : Nat) : (s.clearMem a n).boot = s.boot := rfl
@[simp] theorem State.clearMem_flt (a n : Nat) : (s.clearMem a n).flt = s.flt := rfl
@[simp] theorem State.clearMem_mgt (a n : Nat) : (s.clearMem a n).mgt = s.mgt := rfl
@[simp] theorem State.clearMem_host (a n : Nat) : (s.clearMem a n).host = s.host := rfl
@[simp] theorem State.clearMem_topo (a n : Nat) : (s.clearMem a n).topo = s.topo := rfl
@[simp] theorem State.clearMem_flow (a n : Nat) : (s.clearMem a n).flow = s.flow := rfl
@[simp] theorem State.clearMem_sw (a n : Nat) : (s.clearMem a n).sw = s.sw := rfl
@[simp] theorem State.clearMem_pool (a n : Nat) : (s.clearMem a n).pool = s.pool := rfl
@[simp] theorem State.clearMem_eng (a n : Nat) : (s.clearMem a n).eng = s.eng := rfl
@[simp] theorem State.clearMem_coll (a n : Nat) : (s.clearMem a n).coll = s.coll := rfl
@[simp] theorem State.clearMem_parm (a n : Nat) : (s.clearMem a n).parm = s.parm := rfl
@[simp] theorem State.clearMem_stash (a n : Nat) : (s.clearMem a n).stash = s.stash := rfl
@[simp] theorem State.clearMem_stz (a n : Nat) : (s.clearMem a n).stz = s.stz := rfl
@[simp] theorem State.clearMem_pwr (a n : Nat) : (s.clearMem a n).pwr = s.pwr := rfl
@[simp] theorem State.clearMem_ctxUse (a n : Nat) : (s.clearMem a n).ctxUse = s.ctxUse := rfl
@[simp] theorem State.clearMem_ctxGen (a n : Nat) : (s.clearMem a n).ctxGen = s.ctxGen := rfl
@[simp] theorem State.clearMem_mem (a n : Nat) : (s.clearMem a n).mem = s.mem.filter fun c => c.1 < a || a + n ≤ c.1 := rfl
@[simp] theorem State.clearMem_undef (a n : Nat) : (s.clearMem a n).undef = s.undef.flatMap (cutRange a n) := rfl
@[simp] theorem State.clearMem_out (a n : Nat) : (s.clearMem a n).out = s.out := rfl

/-! ### State.setBoot -/

@[simp] theorem State.setBoot_pending (f : BootSt → BootSt) : (s.setBoot f).pending = s.pending := rfl
@[simp] theorem State.setBoot_fresh (f : BootSt → BootSt) : (s.setBoot f).fresh = s.fresh := rfl
@[simp] theorem State.setBoot_regs (f : BootSt → BootSt) : (s.setBoot f).regs = s.regs := rfl
@[simp] theorem State.setBoot_tick (f : BootSt → BootSt) : (s.setBoot f).tick = s.tick := rfl
@[simp] theorem State.setBoot_link (f : BootSt → BootSt) : (s.setBoot f).link = s.link := rfl
@[simp] theorem State.setBoot_boot (f : BootSt → BootSt) : (s.setBoot f).boot = f s.boot := rfl
@[simp] theorem State.setBoot_flt (f : BootSt → BootSt) : (s.setBoot f).flt = s.flt := rfl
@[simp] theorem State.setBoot_mgt (f : BootSt → BootSt) : (s.setBoot f).mgt = s.mgt := rfl
@[simp] theorem State.setBoot_host (f : BootSt → BootSt) : (s.setBoot f).host = s.host := rfl
@[simp] theorem State.setBoot_topo (f : BootSt → BootSt) : (s.setBoot f).topo = s.topo := rfl
@[simp] theorem State.setBoot_flow (f : BootSt → BootSt) : (s.setBoot f).flow = s.flow := rfl
@[simp] theorem State.setBoot_sw (f : BootSt → BootSt) : (s.setBoot f).sw = s.sw := rfl
@[simp] theorem State.setBoot_pool (f : BootSt → BootSt) : (s.setBoot f).pool = s.pool := rfl
@[simp] theorem State.setBoot_eng (f : BootSt → BootSt) : (s.setBoot f).eng = s.eng := rfl
@[simp] theorem State.setBoot_coll (f : BootSt → BootSt) : (s.setBoot f).coll = s.coll := rfl
@[simp] theorem State.setBoot_parm (f : BootSt → BootSt) : (s.setBoot f).parm = s.parm := rfl
@[simp] theorem State.setBoot_stash (f : BootSt → BootSt) : (s.setBoot f).stash = s.stash := rfl
@[simp] theorem State.setBoot_stz (f : BootSt → BootSt) : (s.setBoot f).stz = s.stz := rfl
@[simp] theorem State.setBoot_pwr (f : BootSt → BootSt) : (s.setBoot f).pwr = s.pwr := rfl
@[simp] theorem State.setBoot_ctxUse (f : BootSt → BootSt) : (s.setBoot f).ctxUse = s.ctxUse := rfl
@[simp] theorem State.setBoot_ctxGen (f : BootSt → BootSt) : (s.setBoot f).ctxGen = s.ctxGen := rfl
@[simp] theorem State.setBoot_mem (f : BootSt → BootSt) : (s.setBoot f).mem = s.mem := rfl
@[simp] theorem State.setBoot_undef (f : BootSt → BootSt) : (s.setBoot f).undef = s.undef := rfl
@[simp] theorem State.setBoot_out (f : BootSt → BootSt) : (s.setBoot f).out = s.out := rfl

/-! ### State.setColl -/

@[simp] theorem State.setColl_pending (f : CollsSt → CollsSt) : (s.setColl f).pending = s.pending := rfl
@[simp] theorem State.setColl_fresh (f : CollsSt → CollsSt) : (s.setColl f).fresh = s.fresh := rfl
@[simp] theorem State.setColl_regs (f : CollsSt → CollsSt) : (s.setColl f).regs = s.regs := rfl
@[simp] theorem State.setColl_tick (f : CollsSt → CollsSt) : (s.setColl f).tick = s.tick := rfl
@[simp] theorem State.setColl_link (f : CollsSt → CollsSt) : (s.setColl f).link = s.link := rfl
@[simp] theorem State.setColl_boot (f : CollsSt → CollsSt) : (s.setColl f).boot = s.boot := rfl
@[simp] theorem State.setColl_flt (f : CollsSt → CollsSt) : (s.setColl f).flt = s.flt := rfl
@[simp] theorem State.setColl_mgt (f : CollsSt → CollsSt) : (s.setColl f).mgt = s.mgt := rfl
@[simp] theorem State.setColl_host (f : CollsSt → CollsSt) : (s.setColl f).host = s.host := rfl
@[simp] theorem State.setColl_topo (f : CollsSt → CollsSt) : (s.setColl f).topo = s.topo := rfl
@[simp] theorem State.setColl_flow (f : CollsSt → CollsSt) : (s.setColl f).flow = s.flow := rfl
@[simp] theorem State.setColl_sw (f : CollsSt → CollsSt) : (s.setColl f).sw = s.sw := rfl
@[simp] theorem State.setColl_pool (f : CollsSt → CollsSt) : (s.setColl f).pool = s.pool := rfl
@[simp] theorem State.setColl_eng (f : CollsSt → CollsSt) : (s.setColl f).eng = s.eng := rfl
@[simp] theorem State.setColl_coll (f : CollsSt → CollsSt) : (s.setColl f).coll = f s.coll := rfl
@[simp] theorem State.setColl_parm (f : CollsSt → CollsSt) : (s.setColl f).parm = s.parm := rfl
@[simp] theorem State.setColl_stash (f : CollsSt → CollsSt) : (s.setColl f).stash = s.stash := rfl
@[simp] theorem State.setColl_stz (f : CollsSt → CollsSt) : (s.setColl f).stz = s.stz := rfl
@[simp] theorem State.setColl_pwr (f : CollsSt → CollsSt) : (s.setColl f).pwr = s.pwr := rfl
@[simp] theorem State.setColl_ctxUse (f : CollsSt → CollsSt) : (s.setColl f).ctxUse = s.ctxUse := rfl
@[simp] theorem State.setColl_ctxGen (f : CollsSt → CollsSt) : (s.setColl f).ctxGen = s.ctxGen := rfl
@[simp] theorem State.setColl_mem (f : CollsSt → CollsSt) : (s.setColl f).mem = s.mem := rfl
@[simp] theorem State.setColl_undef (f : CollsSt → CollsSt) : (s.setColl f).undef = s.undef := rfl
@[simp] theorem State.setColl_out (f : CollsSt → CollsSt) : (s.setColl f).out = s.out := rfl

/-! ### State.setEng -/

@[simp] theorem State.setEng_pending (f : EngsSt → EngsSt) : (s.setEng f).pending = s.pending := rfl
@[simp] theorem State.setEng_fresh (f : EngsSt → EngsSt) : (s.setEng f).fresh = s.fresh := rfl
@[simp] theorem State.setEng_regs (f : EngsSt → EngsSt) : (s.setEng f).regs = s.regs := rfl
@[simp] theorem State.setEng_tick (f : EngsSt → EngsSt) : (s.setEng f).tick = s.tick := rfl
@[simp] theorem State.setEng_link (f : EngsSt → EngsSt) : (s.setEng f).link = s.link := rfl
@[simp] theorem State.setEng_boot (f : EngsSt → EngsSt) : (s.setEng f).boot = s.boot := rfl
@[simp] theorem State.setEng_flt (f : EngsSt → EngsSt) : (s.setEng f).flt = s.flt := rfl
@[simp] theorem State.setEng_mgt (f : EngsSt → EngsSt) : (s.setEng f).mgt = s.mgt := rfl
@[simp] theorem State.setEng_host (f : EngsSt → EngsSt) : (s.setEng f).host = s.host := rfl
@[simp] theorem State.setEng_topo (f : EngsSt → EngsSt) : (s.setEng f).topo = s.topo := rfl
@[simp] theorem State.setEng_flow (f : EngsSt → EngsSt) : (s.setEng f).flow = s.flow := rfl
@[simp] theorem State.setEng_sw (f : EngsSt → EngsSt) : (s.setEng f).sw = s.sw := rfl
@[simp] theorem State.setEng_pool (f : EngsSt → EngsSt) : (s.setEng f).pool = s.pool := rfl
@[simp] theorem State.setEng_eng (f : EngsSt → EngsSt) : (s.setEng f).eng = f s.eng := rfl
@[simp] theorem State.setEng_coll (f : EngsSt → EngsSt) : (s.setEng f).coll = s.coll := rfl
@[simp] theorem State.setEng_parm (f : EngsSt → EngsSt) : (s.setEng f).parm = s.parm := rfl
@[simp] theorem State.setEng_stash (f : EngsSt → EngsSt) : (s.setEng f).stash = s.stash := rfl
@[simp] theorem State.setEng_stz (f : EngsSt → EngsSt) : (s.setEng f).stz = s.stz := rfl
@[simp] theorem State.setEng_pwr (f : EngsSt → EngsSt) : (s.setEng f).pwr = s.pwr := rfl
@[simp] theorem State.setEng_ctxUse (f : EngsSt → EngsSt) : (s.setEng f).ctxUse = s.ctxUse := rfl
@[simp] theorem State.setEng_ctxGen (f : EngsSt → EngsSt) : (s.setEng f).ctxGen = s.ctxGen := rfl
@[simp] theorem State.setEng_mem (f : EngsSt → EngsSt) : (s.setEng f).mem = s.mem := rfl
@[simp] theorem State.setEng_undef (f : EngsSt → EngsSt) : (s.setEng f).undef = s.undef := rfl
@[simp] theorem State.setEng_out (f : EngsSt → EngsSt) : (s.setEng f).out = s.out := rfl

/-! ### State.setFlt -/

@[simp] theorem State.setFlt_pending (f : FltSt → FltSt) : (s.setFlt f).pending = s.pending := rfl
@[simp] theorem State.setFlt_fresh (f : FltSt → FltSt) : (s.setFlt f).fresh = s.fresh := rfl
@[simp] theorem State.setFlt_regs (f : FltSt → FltSt) : (s.setFlt f).regs = s.regs := rfl
@[simp] theorem State.setFlt_tick (f : FltSt → FltSt) : (s.setFlt f).tick = s.tick := rfl
@[simp] theorem State.setFlt_link (f : FltSt → FltSt) : (s.setFlt f).link = s.link := rfl
@[simp] theorem State.setFlt_boot (f : FltSt → FltSt) : (s.setFlt f).boot = s.boot := rfl
@[simp] theorem State.setFlt_flt (f : FltSt → FltSt) : (s.setFlt f).flt = f s.flt := rfl
@[simp] theorem State.setFlt_mgt (f : FltSt → FltSt) : (s.setFlt f).mgt = s.mgt := rfl
@[simp] theorem State.setFlt_host (f : FltSt → FltSt) : (s.setFlt f).host = s.host := rfl
@[simp] theorem State.setFlt_topo (f : FltSt → FltSt) : (s.setFlt f).topo = s.topo := rfl
@[simp] theorem State.setFlt_flow (f : FltSt → FltSt) : (s.setFlt f).flow = s.flow := rfl
@[simp] theorem State.setFlt_sw (f : FltSt → FltSt) : (s.setFlt f).sw = s.sw := rfl
@[simp] theorem State.setFlt_pool (f : FltSt → FltSt) : (s.setFlt f).pool = s.pool := rfl
@[simp] theorem State.setFlt_eng (f : FltSt → FltSt) : (s.setFlt f).eng = s.eng := rfl
@[simp] theorem State.setFlt_coll (f : FltSt → FltSt) : (s.setFlt f).coll = s.coll := rfl
@[simp] theorem State.setFlt_parm (f : FltSt → FltSt) : (s.setFlt f).parm = s.parm := rfl
@[simp] theorem State.setFlt_stash (f : FltSt → FltSt) : (s.setFlt f).stash = s.stash := rfl
@[simp] theorem State.setFlt_stz (f : FltSt → FltSt) : (s.setFlt f).stz = s.stz := rfl
@[simp] theorem State.setFlt_pwr (f : FltSt → FltSt) : (s.setFlt f).pwr = s.pwr := rfl
@[simp] theorem State.setFlt_ctxUse (f : FltSt → FltSt) : (s.setFlt f).ctxUse = s.ctxUse := rfl
@[simp] theorem State.setFlt_ctxGen (f : FltSt → FltSt) : (s.setFlt f).ctxGen = s.ctxGen := rfl
@[simp] theorem State.setFlt_mem (f : FltSt → FltSt) : (s.setFlt f).mem = s.mem := rfl
@[simp] theorem State.setFlt_undef (f : FltSt → FltSt) : (s.setFlt f).undef = s.undef := rfl
@[simp] theorem State.setFlt_out (f : FltSt → FltSt) : (s.setFlt f).out = s.out := rfl

/-! ### State.setHost -/

@[simp] theorem State.setHost_pending (f : HostSt → HostSt) : (s.setHost f).pending = s.pending := rfl
@[simp] theorem State.setHost_fresh (f : HostSt → HostSt) : (s.setHost f).fresh = s.fresh := rfl
@[simp] theorem State.setHost_regs (f : HostSt → HostSt) : (s.setHost f).regs = s.regs := rfl
@[simp] theorem State.setHost_tick (f : HostSt → HostSt) : (s.setHost f).tick = s.tick := rfl
@[simp] theorem State.setHost_link (f : HostSt → HostSt) : (s.setHost f).link = s.link := rfl
@[simp] theorem State.setHost_boot (f : HostSt → HostSt) : (s.setHost f).boot = s.boot := rfl
@[simp] theorem State.setHost_flt (f : HostSt → HostSt) : (s.setHost f).flt = s.flt := rfl
@[simp] theorem State.setHost_mgt (f : HostSt → HostSt) : (s.setHost f).mgt = s.mgt := rfl
@[simp] theorem State.setHost_host (f : HostSt → HostSt) : (s.setHost f).host = f s.host := rfl
@[simp] theorem State.setHost_topo (f : HostSt → HostSt) : (s.setHost f).topo = s.topo := rfl
@[simp] theorem State.setHost_flow (f : HostSt → HostSt) : (s.setHost f).flow = s.flow := rfl
@[simp] theorem State.setHost_sw (f : HostSt → HostSt) : (s.setHost f).sw = s.sw := rfl
@[simp] theorem State.setHost_pool (f : HostSt → HostSt) : (s.setHost f).pool = s.pool := rfl
@[simp] theorem State.setHost_eng (f : HostSt → HostSt) : (s.setHost f).eng = s.eng := rfl
@[simp] theorem State.setHost_coll (f : HostSt → HostSt) : (s.setHost f).coll = s.coll := rfl
@[simp] theorem State.setHost_parm (f : HostSt → HostSt) : (s.setHost f).parm = s.parm := rfl
@[simp] theorem State.setHost_stash (f : HostSt → HostSt) : (s.setHost f).stash = s.stash := rfl
@[simp] theorem State.setHost_stz (f : HostSt → HostSt) : (s.setHost f).stz = s.stz := rfl
@[simp] theorem State.setHost_pwr (f : HostSt → HostSt) : (s.setHost f).pwr = s.pwr := rfl
@[simp] theorem State.setHost_ctxUse (f : HostSt → HostSt) : (s.setHost f).ctxUse = s.ctxUse := rfl
@[simp] theorem State.setHost_ctxGen (f : HostSt → HostSt) : (s.setHost f).ctxGen = s.ctxGen := rfl
@[simp] theorem State.setHost_mem (f : HostSt → HostSt) : (s.setHost f).mem = s.mem := rfl
@[simp] theorem State.setHost_undef (f : HostSt → HostSt) : (s.setHost f).undef = s.undef := rfl
@[simp] theorem State.setHost_out (f : HostSt → HostSt) : (s.setHost f).out = s.out := rfl

/-! ### State.setMgt -/

@[simp] theorem State.setMgt_pending (f : MgtSt → MgtSt) : (s.setMgt f).pending = s.pending := rfl
@[simp] theorem State.setMgt_fresh (f : MgtSt → MgtSt) : (s.setMgt f).fresh = s.fresh := rfl
@[simp] theorem State.setMgt_regs (f : MgtSt → MgtSt) : (s.setMgt f).regs = s.regs := rfl
@[simp] theorem State.setMgt_tick (f : MgtSt → MgtSt) : (s.setMgt f).tick = s.tick := rfl
@[simp] theorem State.setMgt_link (f : MgtSt → MgtSt) : (s.setMgt f).link = s.link := rfl
@[simp] theorem State.setMgt_boot (f : MgtSt → MgtSt) : (s.setMgt f).boot = s.boot := rfl
@[simp] theorem State.setMgt_flt (f : MgtSt → MgtSt) : (s.setMgt f).flt = s.flt := rfl
@[simp] theorem State.setMgt_mgt (f : MgtSt → MgtSt) : (s.setMgt f).mgt = f s.mgt := rfl
@[simp] theorem State.setMgt_host (f : MgtSt → MgtSt) : (s.setMgt f).host = s.host := rfl
@[simp] theorem State.setMgt_topo (f : MgtSt → MgtSt) : (s.setMgt f).topo = s.topo := rfl
@[simp] theorem State.setMgt_flow (f : MgtSt → MgtSt) : (s.setMgt f).flow = s.flow := rfl
@[simp] theorem State.setMgt_sw (f : MgtSt → MgtSt) : (s.setMgt f).sw = s.sw := rfl
@[simp] theorem State.setMgt_pool (f : MgtSt → MgtSt) : (s.setMgt f).pool = s.pool := rfl
@[simp] theorem State.setMgt_eng (f : MgtSt → MgtSt) : (s.setMgt f).eng = s.eng := rfl
@[simp] theorem State.setMgt_coll (f : MgtSt → MgtSt) : (s.setMgt f).coll = s.coll := rfl
@[simp] theorem State.setMgt_parm (f : MgtSt → MgtSt) : (s.setMgt f).parm = s.parm := rfl
@[simp] theorem State.setMgt_stash (f : MgtSt → MgtSt) : (s.setMgt f).stash = s.stash := rfl
@[simp] theorem State.setMgt_stz (f : MgtSt → MgtSt) : (s.setMgt f).stz = s.stz := rfl
@[simp] theorem State.setMgt_pwr (f : MgtSt → MgtSt) : (s.setMgt f).pwr = s.pwr := rfl
@[simp] theorem State.setMgt_ctxUse (f : MgtSt → MgtSt) : (s.setMgt f).ctxUse = s.ctxUse := rfl
@[simp] theorem State.setMgt_ctxGen (f : MgtSt → MgtSt) : (s.setMgt f).ctxGen = s.ctxGen := rfl
@[simp] theorem State.setMgt_mem (f : MgtSt → MgtSt) : (s.setMgt f).mem = s.mem := rfl
@[simp] theorem State.setMgt_undef (f : MgtSt → MgtSt) : (s.setMgt f).undef = s.undef := rfl
@[simp] theorem State.setMgt_out (f : MgtSt → MgtSt) : (s.setMgt f).out = s.out := rfl

/-! ### State.setParm -/

@[simp] theorem State.setParm_pending (f : ParamSt → ParamSt) : (s.setParm f).pending = s.pending := rfl
@[simp] theorem State.setParm_fresh (f : ParamSt → ParamSt) : (s.setParm f).fresh = s.fresh := rfl
@[simp] theorem State.setParm_regs (f : ParamSt → ParamSt) : (s.setParm f).regs = s.regs := rfl
@[simp] theorem State.setParm_tick (f : ParamSt → ParamSt) : (s.setParm f).tick = s.tick := rfl
@[simp] theorem State.setParm_link (f : ParamSt → ParamSt) : (s.setParm f).link = s.link := rfl
@[simp] theorem State.setParm_boot (f : ParamSt → ParamSt) : (s.setParm f).boot = s.boot := rfl
@[simp] theorem State.setParm_flt (f : ParamSt → ParamSt) : (s.setParm f).flt = s.flt := rfl
@[simp] theorem State.setParm_mgt (f : ParamSt → ParamSt) : (s.setParm f).mgt = s.mgt := rfl
@[simp] theorem State.setParm_host (f : ParamSt → ParamSt) : (s.setParm f).host = s.host := rfl
@[simp] theorem State.setParm_topo (f : ParamSt → ParamSt) : (s.setParm f).topo = s.topo := rfl
@[simp] theorem State.setParm_flow (f : ParamSt → ParamSt) : (s.setParm f).flow = s.flow := rfl
@[simp] theorem State.setParm_sw (f : ParamSt → ParamSt) : (s.setParm f).sw = s.sw := rfl
@[simp] theorem State.setParm_pool (f : ParamSt → ParamSt) : (s.setParm f).pool = s.pool := rfl
@[simp] theorem State.setParm_eng (f : ParamSt → ParamSt) : (s.setParm f).eng = s.eng := rfl
@[simp] theorem State.setParm_coll (f : ParamSt → ParamSt) : (s.setParm f).coll = s.coll := rfl
@[simp] theorem State.setParm_parm (f : ParamSt → ParamSt) : (s.setParm f).parm = f s.parm := rfl
@[simp] theorem State.setParm_stash (f : ParamSt → ParamSt) : (s.setParm f).stash = s.stash := rfl
@[simp] theorem State.setParm_stz (f : ParamSt → ParamSt) : (s.setParm f).stz = s.stz := rfl
@[simp] theorem State.setParm_pwr (f : ParamSt → ParamSt) : (s.setParm f).pwr = s.pwr := rfl
@[simp] theorem State.setParm_ctxUse (f : ParamSt → ParamSt) : (s.setParm f).ctxUse = s.ctxUse := rfl
@[simp] theorem State.setParm_ctxGen (f : ParamSt → ParamSt) : (s.setParm f).ctxGen = s.ctxGen := rfl
@[simp] theorem State.setParm_mem (f : ParamSt → ParamSt) : (s.setParm f).mem = s.mem := rfl
@[simp] theorem State.setParm_undef (f : ParamSt → ParamSt) : (s.setParm f).undef = s.undef := rfl
@[simp] theorem State.setParm_out (f : ParamSt → ParamSt) : (s.setParm f).out = s.out := rfl

/-! ### State.setPwr -/

@[simp] theorem State.setPwr_pending (f : PwrSt → PwrSt) : (s.setPwr f).pending = s.pending := rfl
@[simp] theorem State.setPwr_fresh (f : PwrSt → PwrSt) : (s.setPwr f).fresh = s.fresh := rfl
@[simp] theorem State.setPwr_regs (f : PwrSt → PwrSt) : (s.setPwr f).regs = s.regs := rfl
@[simp] theorem State.setPwr_tick (f : PwrSt → PwrSt) : (s.setPwr f).tick = s.tick := rfl
@[simp] theorem State.setPwr_link (f : PwrSt → PwrSt) : (s.setPwr f).link = s.link := rfl
@[simp] theorem State.setPwr_boot (f : PwrSt → PwrSt) : (s.setPwr f).boot = s.boot := rfl
@[simp] theorem State.setPwr_flt (f : PwrSt → PwrSt) : (s.setPwr f).flt = s.flt := rfl
@[simp] theorem State.setPwr_mgt (f : PwrSt → PwrSt) : (s.setPwr f).mgt = s.mgt := rfl
@[simp] theorem State.setPwr_host (f : PwrSt → PwrSt) : (s.setPwr f).host = s.host := rfl
@[simp] theorem State.setPwr_topo (f : PwrSt → PwrSt) : (s.setPwr f).topo = s.topo := rfl
@[simp] theorem State.setPwr_flow (f : PwrSt → PwrSt) : (s.setPwr f).flow = s.flow := rfl
@[simp] theorem State.setPwr_sw (f : PwrSt → PwrSt) : (s.setPwr f).sw = s.sw := rfl
@[simp] theorem State.setPwr_pool (f : PwrSt → PwrSt) : (s.setPwr f).pool = s.pool := rfl
@[simp] theorem State.setPwr_eng (f : PwrSt → PwrSt) : (s.setPwr f).eng = s.eng := rfl
@[simp] theorem State.setPwr_coll (f : PwrSt → PwrSt) : (s.setPwr f).coll = s.coll := rfl
@[simp] theorem State.setPwr_parm (f : PwrSt → PwrSt) : (s.setPwr f).parm = s.parm := rfl
@[simp] theorem State.setPwr_stash (f : PwrSt → PwrSt) : (s.setPwr f).stash = s.stash := rfl
@[simp] theorem State.setPwr_stz (f : PwrSt → PwrSt) : (s.setPwr f).stz = s.stz := rfl
@[simp] theorem State.setPwr_pwr (f : PwrSt → PwrSt) : (s.setPwr f).pwr = f s.pwr := rfl
@[simp] theorem State.setPwr_ctxUse (f : PwrSt → PwrSt) : (s.setPwr f).ctxUse = s.ctxUse := rfl
@[simp] theorem State.setPwr_ctxGen (f : PwrSt → PwrSt) : (s.setPwr f).ctxGen = s.ctxGen := rfl
@[simp] theorem State.setPwr_mem (f : PwrSt → PwrSt) : (s.setPwr f).mem = s.mem := rfl
@[simp] theorem State.setPwr_undef (f : PwrSt → PwrSt) : (s.setPwr f).undef = s.undef := rfl
@[simp] theorem State.setPwr_out (f : PwrSt → PwrSt) : (s.setPwr f).out = s.out := rfl

/-! ### State.setStash -/

@[simp] theorem State.setStash_pending (f : StashSt → StashSt) : (s.setStash f).pending = s.pending := rfl
@[simp] theorem State.setStash_fresh (f : StashSt → StashSt) : (s.setStash f).fresh = s.fresh := rfl
@[simp] theorem State.setStash_regs (f : StashSt → StashSt) : (s.setStash f).regs = s.regs := rfl
@[simp] theorem State.setStash_tick (f : StashSt → StashSt) : (s.setStash f).tick = s.tick := rfl
@[simp] theorem State.setStash_link (f : StashSt → StashSt) : (s.setStash f).link = s.link := rfl
@[simp] theorem State.setStash_boot (f : StashSt → StashSt) : (s.setStash f).boot = s.boot := rfl
@[simp] theorem State.setStash_flt (f : StashSt → StashSt) : (s.setStash f).flt = s.flt := rfl
@[simp] theorem State.setStash_mgt (f : StashSt → StashSt) : (s.setStash f).mgt = s.mgt := rfl
@[simp] theorem State.setStash_host (f : StashSt → StashSt) : (s.setStash f).host = s.host := rfl
@[simp] theorem State.setStash_topo (f : StashSt → StashSt) : (s.setStash f).topo = s.topo := rfl
@[simp] theorem State.setStash_flow (f : StashSt → StashSt) : (s.setStash f).flow = s.flow := rfl
@[simp] theorem State.setStash_sw (f : StashSt → StashSt) : (s.setStash f).sw = s.sw := rfl
@[simp] theorem State.setStash_pool (f : StashSt → StashSt) : (s.setStash f).pool = s.pool := rfl
@[simp] theorem State.setStash_eng (f : StashSt → StashSt) : (s.setStash f).eng = s.eng := rfl
@[simp] theorem State.setStash_coll (f : StashSt → StashSt) : (s.setStash f).coll = s.coll := rfl
@[simp] theorem State.setStash_parm (f : StashSt → StashSt) : (s.setStash f).parm = s.parm := rfl
@[simp] theorem State.setStash_stash (f : StashSt → StashSt) : (s.setStash f).stash = f s.stash := rfl
@[simp] theorem State.setStash_stz (f : StashSt → StashSt) : (s.setStash f).stz = s.stz := rfl
@[simp] theorem State.setStash_pwr (f : StashSt → StashSt) : (s.setStash f).pwr = s.pwr := rfl
@[simp] theorem State.setStash_ctxUse (f : StashSt → StashSt) : (s.setStash f).ctxUse = s.ctxUse := rfl
@[simp] theorem State.setStash_ctxGen (f : StashSt → StashSt) : (s.setStash f).ctxGen = s.ctxGen := rfl
@[simp] theorem State.setStash_mem (f : StashSt → StashSt) : (s.setStash f).mem = s.mem := rfl
@[simp] theorem State.setStash_undef (f : StashSt → StashSt) : (s.setStash f).undef = s.undef := rfl
@[simp] theorem State.setStash_out (f : StashSt → StashSt) : (s.setStash f).out = s.out := rfl

/-! ### State.setStz -/

@[simp] theorem State.setStz_pending (f : StzSt → StzSt) : (s.setStz f).pending = s.pending := rfl
@[simp] theorem State.setStz_fresh (f : StzSt → StzSt) : (s.setStz f).fresh = s.fresh := rfl
@[simp] theorem State.setStz_regs (f : StzSt → StzSt) : (s.setStz f).regs = s.regs := rfl
@[simp] theorem State.setStz_tick (f : StzSt → StzSt) : (s.setStz f).tick = s.tick := rfl
@[simp] theorem State.setStz_link (f : StzSt → StzSt) : (s.setStz f).link = s.link := rfl
@[simp] theorem State.setStz_boot (f : StzSt → StzSt) : (s.setStz f).boot = s.boot := rfl
@[simp] theorem State.setStz_flt (f : StzSt → StzSt) : (s.setStz f).flt = s.flt := rfl
@[simp] theorem State.setStz_mgt (f : StzSt → StzSt) : (s.setStz f).mgt = s.mgt := rfl
@[simp] theorem State.setStz_host (f : StzSt → StzSt) : (s.setStz f).host = s.host := rfl
@[simp] theorem State.setStz_topo (f : StzSt → StzSt) : (s.setStz f).topo = s.topo := rfl
@[simp] theorem State.setStz_flow (f : StzSt → StzSt) : (s.setStz f).flow = s.flow := rfl
@[simp] theorem State.setStz_sw (f : StzSt → StzSt) : (s.setStz f).sw = s.sw := rfl
@[simp] theorem State.setStz_pool (f : StzSt → StzSt) : (s.setStz f).pool = s.pool := rfl
@[simp] theorem State.setStz_eng (f : StzSt → StzSt) : (s.setStz f).eng = s.eng := rfl
@[simp] theorem State.setStz_coll (f : StzSt → StzSt) : (s.setStz f).coll = s.coll := rfl
@[simp] theorem State.setStz_parm (f : StzSt → StzSt) : (s.setStz f).parm = s.parm := rfl
@[simp] theorem State.setStz_stash (f : StzSt → StzSt) : (s.setStz f).stash = s.stash := rfl
@[simp] theorem State.setStz_stz (f : StzSt → StzSt) : (s.setStz f).stz = f s.stz := rfl
@[simp] theorem State.setStz_pwr (f : StzSt → StzSt) : (s.setStz f).pwr = s.pwr := rfl
@[simp] theorem State.setStz_ctxUse (f : StzSt → StzSt) : (s.setStz f).ctxUse = s.ctxUse := rfl
@[simp] theorem State.setStz_ctxGen (f : StzSt → StzSt) : (s.setStz f).ctxGen = s.ctxGen := rfl
@[simp] theorem State.setStz_mem (f : StzSt → StzSt) : (s.setStz f).mem = s.mem := rfl
@[simp] theorem State.setStz_undef (f : StzSt → StzSt) : (s.setStz f).undef = s.undef := rfl
@[simp] theorem State.setStz_out (f : StzSt → StzSt) : (s.setStz f).out = s.out := rfl

/-! ### State.setTick -/

@[simp] theorem State.setTick_pending (f : TickSt → TickSt) : (s.setTick f).pending = s.pending := rfl
@[simp] theorem State.setTick_fresh (f : TickSt → TickSt) : (s.setTick f).fresh = s.fresh := rfl
@[simp] theorem State.setTick_regs (f : TickSt → TickSt) : (s.setTick f).regs = s.regs := rfl
@[simp] theorem State.setTick_tick (f : TickSt → TickSt) : (s.setTick f).tick = f s.tick := rfl
@[simp] theorem State.setTick_link (f : TickSt → TickSt) : (s.setTick f).link = s.link := rfl
@[simp] theorem State.setTick_boot (f : TickSt → TickSt) : (s.setTick f).boot = s.boot := rfl
@[simp] theorem State.setTick_flt (f : TickSt → TickSt) : (s.setTick f).flt = s.flt := rfl
@[simp] theorem State.setTick_mgt (f : TickSt → TickSt) : (s.setTick f).mgt = s.mgt := rfl
@[simp] theorem State.setTick_host (f : TickSt → TickSt) : (s.setTick f).host = s.host := rfl
@[simp] theorem State.setTick_topo (f : TickSt → TickSt) : (s.setTick f).topo = s.topo := rfl
@[simp] theorem State.setTick_flow (f : TickSt → TickSt) : (s.setTick f).flow = s.flow := rfl
@[simp] theorem State.setTick_sw (f : TickSt → TickSt) : (s.setTick f).sw = s.sw := rfl
@[simp] theorem State.setTick_pool (f : TickSt → TickSt) : (s.setTick f).pool = s.pool := rfl
@[simp] theorem State.setTick_eng (f : TickSt → TickSt) : (s.setTick f).eng = s.eng := rfl
@[simp] theorem State.setTick_coll (f : TickSt → TickSt) : (s.setTick f).coll = s.coll := rfl
@[simp] theorem State.setTick_parm (f : TickSt → TickSt) : (s.setTick f).parm = s.parm := rfl
@[simp] theorem State.setTick_stash (f : TickSt → TickSt) : (s.setTick f).stash = s.stash := rfl
@[simp] theorem State.setTick_stz (f : TickSt → TickSt) : (s.setTick f).stz = s.stz := rfl
@[simp] theorem State.setTick_pwr (f : TickSt → TickSt) : (s.setTick f).pwr = s.pwr := rfl
@[simp] theorem State.setTick_ctxUse (f : TickSt → TickSt) : (s.setTick f).ctxUse = s.ctxUse := rfl
@[simp] theorem State.setTick_ctxGen (f : TickSt → TickSt) : (s.setTick f).ctxGen = s.ctxGen := rfl
@[simp] theorem State.setTick_mem (f : TickSt → TickSt) : (s.setTick f).mem = s.mem := rfl
@[simp] theorem State.setTick_undef (f : TickSt → TickSt) : (s.setTick f).undef = s.undef := rfl
@[simp] theorem State.setTick_out (f : TickSt → TickSt) : (s.setTick f).out = s.out := rfl

/-! ### State.setTopo -/

@[simp] theorem State.setTopo_pending (f : TopoSt → TopoSt) : (s.setTopo f).pending = s.pending := rfl
@[simp] theorem State.setTopo_fresh (f : TopoSt → TopoSt) : (s.setTopo f).fresh = s.fresh := rfl
@[simp] theorem State.setTopo_regs (f : TopoSt → TopoSt) : (s.setTopo f).regs = s.regs := rfl
@[simp] theorem State.setTopo_tick (f : TopoSt → TopoSt) : (s.setTopo f).tick = s.tick := rfl
@[simp] theorem State.setTopo_link (f : TopoSt → TopoSt) : (s.setTopo f).link = s.link := rfl
@[simp] theorem State.setTopo_boot (f : TopoSt → TopoSt) : (s.setTopo f).boot = s.boot := rfl
@[simp] theorem State.setTopo_flt (f : TopoSt → TopoSt) : (s.setTopo f).flt = s.flt := rfl
@[simp] theorem State.setTopo_mgt (f : TopoSt → TopoSt) : (s.setTopo f).mgt = s.mgt := rfl
@[simp] theorem State.setTopo_host (f : TopoSt → TopoSt) : (s.setTopo f).host = s.host := rfl
@[simp] theorem State.setTopo_topo (f : TopoSt → TopoSt) : (s.setTopo f).topo = f s.topo := rfl
@[simp] theorem State.setTopo_flow (f : TopoSt → TopoSt) : (s.setTopo f).flow = s.flow := rfl
@[simp] theorem State.setTopo_sw (f : TopoSt → TopoSt) : (s.setTopo f).sw = s.sw := rfl
@[simp] theorem State.setTopo_pool (f : TopoSt → TopoSt) : (s.setTopo f).pool = s.pool := rfl
@[simp] theorem State.setTopo_eng (f : TopoSt → TopoSt) : (s.setTopo f).eng = s.eng := rfl
@[simp] theorem State.setTopo_coll (f : TopoSt → TopoSt) : (s.setTopo f).coll = s.coll := rfl
@[simp] theorem State.setTopo_parm (f : TopoSt → TopoSt) : (s.setTopo f).parm = s.parm := rfl
@[simp] theorem State.setTopo_stash (f : TopoSt → TopoSt) : (s.setTopo f).stash = s.stash := rfl
@[simp] theorem State.setTopo_stz (f : TopoSt → TopoSt) : (s.setTopo f).stz = s.stz := rfl
@[simp] theorem State.setTopo_pwr (f : TopoSt → TopoSt) : (s.setTopo f).pwr = s.pwr := rfl
@[simp] theorem State.setTopo_ctxUse (f : TopoSt → TopoSt) : (s.setTopo f).ctxUse = s.ctxUse := rfl
@[simp] theorem State.setTopo_ctxGen (f : TopoSt → TopoSt) : (s.setTopo f).ctxGen = s.ctxGen := rfl
@[simp] theorem State.setTopo_mem (f : TopoSt → TopoSt) : (s.setTopo f).mem = s.mem := rfl
@[simp] theorem State.setTopo_undef (f : TopoSt → TopoSt) : (s.setTopo f).undef = s.undef := rfl
@[simp] theorem State.setTopo_out (f : TopoSt → TopoSt) : (s.setTopo f).out = s.out := rfl

/-! ### State.setChannel -/

@[simp] theorem State.setChannel_pending (c : Nat) (f : ChannelSt → ChannelSt) : (s.setChannel c f).pending = s.pending := rfl
@[simp] theorem State.setChannel_fresh (c : Nat) (f : ChannelSt → ChannelSt) : (s.setChannel c f).fresh = s.fresh := rfl
@[simp] theorem State.setChannel_regs (c : Nat) (f : ChannelSt → ChannelSt) : (s.setChannel c f).regs = s.regs := rfl
@[simp] theorem State.setChannel_tick (c : Nat) (f : ChannelSt → ChannelSt) : (s.setChannel c f).tick = s.tick := rfl
@[simp] theorem State.setChannel_link (c : Nat) (f : ChannelSt → ChannelSt) : (s.setChannel c f).link = s.link := rfl
@[simp] theorem State.setChannel_boot (c : Nat) (f : ChannelSt → ChannelSt) : (s.setChannel c f).boot = s.boot := rfl
@[simp] theorem State.setChannel_mgt (c : Nat) (f : ChannelSt → ChannelSt) : (s.setChannel c f).mgt = s.mgt := rfl
@[simp] theorem State.setChannel_host (c : Nat) (f : ChannelSt → ChannelSt) : (s.setChannel c f).host = s.host := rfl
@[simp] theorem State.setChannel_topo (c : Nat) (f : ChannelSt → ChannelSt) : (s.setChannel c f).topo = s.topo := rfl
@[simp] theorem State.setChannel_flow (c : Nat) (f : ChannelSt → ChannelSt) : (s.setChannel c f).flow = s.flow := rfl
@[simp] theorem State.setChannel_sw (c : Nat) (f : ChannelSt → ChannelSt) : (s.setChannel c f).sw = s.sw := rfl
@[simp] theorem State.setChannel_pool (c : Nat) (f : ChannelSt → ChannelSt) : (s.setChannel c f).pool = s.pool := rfl
@[simp] theorem State.setChannel_eng (c : Nat) (f : ChannelSt → ChannelSt) : (s.setChannel c f).eng = s.eng := rfl
@[simp] theorem State.setChannel_coll (c : Nat) (f : ChannelSt → ChannelSt) : (s.setChannel c f).coll = s.coll := rfl
@[simp] theorem State.setChannel_parm (c : Nat) (f : ChannelSt → ChannelSt) : (s.setChannel c f).parm = s.parm := rfl
@[simp] theorem State.setChannel_stash (c : Nat) (f : ChannelSt → ChannelSt) : (s.setChannel c f).stash = s.stash := rfl
@[simp] theorem State.setChannel_stz (c : Nat) (f : ChannelSt → ChannelSt) : (s.setChannel c f).stz = s.stz := rfl
@[simp] theorem State.setChannel_pwr (c : Nat) (f : ChannelSt → ChannelSt) : (s.setChannel c f).pwr = s.pwr := rfl
@[simp] theorem State.setChannel_ctxUse (c : Nat) (f : ChannelSt → ChannelSt) : (s.setChannel c f).ctxUse = s.ctxUse := rfl
@[simp] theorem State.setChannel_ctxGen (c : Nat) (f : ChannelSt → ChannelSt) : (s.setChannel c f).ctxGen = s.ctxGen := rfl
@[simp] theorem State.setChannel_mem (c : Nat) (f : ChannelSt → ChannelSt) : (s.setChannel c f).mem = s.mem := rfl
@[simp] theorem State.setChannel_undef (c : Nat) (f : ChannelSt → ChannelSt) : (s.setChannel c f).undef = s.undef := rfl
@[simp] theorem State.setChannel_out (c : Nat) (f : ChannelSt → ChannelSt) : (s.setChannel c f).out = s.out := rfl

/-! ### State.setLane -/

@[simp] theorem State.setLane_pending (n : Nat) (f : LaneSt → LaneSt) : (s.setLane n f).pending = s.pending := rfl
@[simp] theorem State.setLane_fresh (n : Nat) (f : LaneSt → LaneSt) : (s.setLane n f).fresh = s.fresh := rfl
@[simp] theorem State.setLane_regs (n : Nat) (f : LaneSt → LaneSt) : (s.setLane n f).regs = s.regs := rfl
@[simp] theorem State.setLane_tick (n : Nat) (f : LaneSt → LaneSt) : (s.setLane n f).tick = s.tick := rfl
@[simp] theorem State.setLane_boot (n : Nat) (f : LaneSt → LaneSt) : (s.setLane n f).boot = s.boot := rfl
@[simp] theorem State.setLane_flt (n : Nat) (f : LaneSt → LaneSt) : (s.setLane n f).flt = s.flt := rfl
@[simp] theorem State.setLane_mgt (n : Nat) (f : LaneSt → LaneSt) : (s.setLane n f).mgt = s.mgt := rfl
@[simp] theorem State.setLane_host (n : Nat) (f : LaneSt → LaneSt) : (s.setLane n f).host = s.host := rfl
@[simp] theorem State.setLane_topo (n : Nat) (f : LaneSt → LaneSt) : (s.setLane n f).topo = s.topo := rfl
@[simp] theorem State.setLane_flow (n : Nat) (f : LaneSt → LaneSt) : (s.setLane n f).flow = s.flow := rfl
@[simp] theorem State.setLane_sw (n : Nat) (f : LaneSt → LaneSt) : (s.setLane n f).sw = s.sw := rfl
@[simp] theorem State.setLane_pool (n : Nat) (f : LaneSt → LaneSt) : (s.setLane n f).pool = s.pool := rfl
@[simp] theorem State.setLane_eng (n : Nat) (f : LaneSt → LaneSt) : (s.setLane n f).eng = s.eng := rfl
@[simp] theorem State.setLane_coll (n : Nat) (f : LaneSt → LaneSt) : (s.setLane n f).coll = s.coll := rfl
@[simp] theorem State.setLane_parm (n : Nat) (f : LaneSt → LaneSt) : (s.setLane n f).parm = s.parm := rfl
@[simp] theorem State.setLane_stash (n : Nat) (f : LaneSt → LaneSt) : (s.setLane n f).stash = s.stash := rfl
@[simp] theorem State.setLane_stz (n : Nat) (f : LaneSt → LaneSt) : (s.setLane n f).stz = s.stz := rfl
@[simp] theorem State.setLane_pwr (n : Nat) (f : LaneSt → LaneSt) : (s.setLane n f).pwr = s.pwr := rfl
@[simp] theorem State.setLane_ctxUse (n : Nat) (f : LaneSt → LaneSt) : (s.setLane n f).ctxUse = s.ctxUse := rfl
@[simp] theorem State.setLane_ctxGen (n : Nat) (f : LaneSt → LaneSt) : (s.setLane n f).ctxGen = s.ctxGen := rfl
@[simp] theorem State.setLane_mem (n : Nat) (f : LaneSt → LaneSt) : (s.setLane n f).mem = s.mem := rfl
@[simp] theorem State.setLane_undef (n : Nat) (f : LaneSt → LaneSt) : (s.setLane n f).undef = s.undef := rfl
@[simp] theorem State.setLane_out (n : Nat) (f : LaneSt → LaneSt) : (s.setLane n f).out = s.out := rfl

/-! ### State.setLsm -/

@[simp] theorem State.setLsm_pending (j : Nat) (f : LsmSt → LsmSt) : (s.setLsm j f).pending = s.pending := rfl
@[simp] theorem State.setLsm_fresh (j : Nat) (f : LsmSt → LsmSt) : (s.setLsm j f).fresh = s.fresh := rfl
@[simp] theorem State.setLsm_regs (j : Nat) (f : LsmSt → LsmSt) : (s.setLsm j f).regs = s.regs := rfl
@[simp] theorem State.setLsm_tick (j : Nat) (f : LsmSt → LsmSt) : (s.setLsm j f).tick = s.tick := rfl
@[simp] theorem State.setLsm_boot (j : Nat) (f : LsmSt → LsmSt) : (s.setLsm j f).boot = s.boot := rfl
@[simp] theorem State.setLsm_flt (j : Nat) (f : LsmSt → LsmSt) : (s.setLsm j f).flt = s.flt := rfl
@[simp] theorem State.setLsm_mgt (j : Nat) (f : LsmSt → LsmSt) : (s.setLsm j f).mgt = s.mgt := rfl
@[simp] theorem State.setLsm_host (j : Nat) (f : LsmSt → LsmSt) : (s.setLsm j f).host = s.host := rfl
@[simp] theorem State.setLsm_topo (j : Nat) (f : LsmSt → LsmSt) : (s.setLsm j f).topo = s.topo := rfl
@[simp] theorem State.setLsm_flow (j : Nat) (f : LsmSt → LsmSt) : (s.setLsm j f).flow = s.flow := rfl
@[simp] theorem State.setLsm_sw (j : Nat) (f : LsmSt → LsmSt) : (s.setLsm j f).sw = s.sw := rfl
@[simp] theorem State.setLsm_pool (j : Nat) (f : LsmSt → LsmSt) : (s.setLsm j f).pool = s.pool := rfl
@[simp] theorem State.setLsm_eng (j : Nat) (f : LsmSt → LsmSt) : (s.setLsm j f).eng = s.eng := rfl
@[simp] theorem State.setLsm_coll (j : Nat) (f : LsmSt → LsmSt) : (s.setLsm j f).coll = s.coll := rfl
@[simp] theorem State.setLsm_parm (j : Nat) (f : LsmSt → LsmSt) : (s.setLsm j f).parm = s.parm := rfl
@[simp] theorem State.setLsm_stash (j : Nat) (f : LsmSt → LsmSt) : (s.setLsm j f).stash = s.stash := rfl
@[simp] theorem State.setLsm_stz (j : Nat) (f : LsmSt → LsmSt) : (s.setLsm j f).stz = s.stz := rfl
@[simp] theorem State.setLsm_pwr (j : Nat) (f : LsmSt → LsmSt) : (s.setLsm j f).pwr = s.pwr := rfl
@[simp] theorem State.setLsm_ctxUse (j : Nat) (f : LsmSt → LsmSt) : (s.setLsm j f).ctxUse = s.ctxUse := rfl
@[simp] theorem State.setLsm_ctxGen (j : Nat) (f : LsmSt → LsmSt) : (s.setLsm j f).ctxGen = s.ctxGen := rfl
@[simp] theorem State.setLsm_mem (j : Nat) (f : LsmSt → LsmSt) : (s.setLsm j f).mem = s.mem := rfl
@[simp] theorem State.setLsm_undef (j : Nat) (f : LsmSt → LsmSt) : (s.setLsm j f).undef = s.undef := rfl
@[simp] theorem State.setLsm_out (j : Nat) (f : LsmSt → LsmSt) : (s.setLsm j f).out = s.out := rfl

/-! ### State.setPort -/

@[simp] theorem State.setPort_pending (p : Nat) (f : PortSt → PortSt) : (s.setPort p f).pending = s.pending := rfl
@[simp] theorem State.setPort_fresh (p : Nat) (f : PortSt → PortSt) : (s.setPort p f).fresh = s.fresh := rfl
@[simp] theorem State.setPort_regs (p : Nat) (f : PortSt → PortSt) : (s.setPort p f).regs = s.regs := rfl
@[simp] theorem State.setPort_tick (p : Nat) (f : PortSt → PortSt) : (s.setPort p f).tick = s.tick := rfl
@[simp] theorem State.setPort_boot (p : Nat) (f : PortSt → PortSt) : (s.setPort p f).boot = s.boot := rfl
@[simp] theorem State.setPort_flt (p : Nat) (f : PortSt → PortSt) : (s.setPort p f).flt = s.flt := rfl
@[simp] theorem State.setPort_mgt (p : Nat) (f : PortSt → PortSt) : (s.setPort p f).mgt = s.mgt := rfl
@[simp] theorem State.setPort_host (p : Nat) (f : PortSt → PortSt) : (s.setPort p f).host = s.host := rfl
@[simp] theorem State.setPort_topo (p : Nat) (f : PortSt → PortSt) : (s.setPort p f).topo = s.topo := rfl
@[simp] theorem State.setPort_flow (p : Nat) (f : PortSt → PortSt) : (s.setPort p f).flow = s.flow := rfl
@[simp] theorem State.setPort_sw (p : Nat) (f : PortSt → PortSt) : (s.setPort p f).sw = s.sw := rfl
@[simp] theorem State.setPort_pool (p : Nat) (f : PortSt → PortSt) : (s.setPort p f).pool = s.pool := rfl
@[simp] theorem State.setPort_eng (p : Nat) (f : PortSt → PortSt) : (s.setPort p f).eng = s.eng := rfl
@[simp] theorem State.setPort_coll (p : Nat) (f : PortSt → PortSt) : (s.setPort p f).coll = s.coll := rfl
@[simp] theorem State.setPort_parm (p : Nat) (f : PortSt → PortSt) : (s.setPort p f).parm = s.parm := rfl
@[simp] theorem State.setPort_stash (p : Nat) (f : PortSt → PortSt) : (s.setPort p f).stash = s.stash := rfl
@[simp] theorem State.setPort_stz (p : Nat) (f : PortSt → PortSt) : (s.setPort p f).stz = s.stz := rfl
@[simp] theorem State.setPort_pwr (p : Nat) (f : PortSt → PortSt) : (s.setPort p f).pwr = s.pwr := rfl
@[simp] theorem State.setPort_ctxUse (p : Nat) (f : PortSt → PortSt) : (s.setPort p f).ctxUse = s.ctxUse := rfl
@[simp] theorem State.setPort_ctxGen (p : Nat) (f : PortSt → PortSt) : (s.setPort p f).ctxGen = s.ctxGen := rfl
@[simp] theorem State.setPort_mem (p : Nat) (f : PortSt → PortSt) : (s.setPort p f).mem = s.mem := rfl
@[simp] theorem State.setPort_undef (p : Nat) (f : PortSt → PortSt) : (s.setPort p f).undef = s.undef := rfl
@[simp] theorem State.setPort_out (p : Nat) (f : PortSt → PortSt) : (s.setPort p f).out = s.out := rfl

/-! ### State.setEngine -/

@[simp] theorem State.setEngine_pending (k : Nat) (f : EngSt → EngSt) : (s.setEngine k f).pending = s.pending := rfl
@[simp] theorem State.setEngine_fresh (k : Nat) (f : EngSt → EngSt) : (s.setEngine k f).fresh = s.fresh := rfl
@[simp] theorem State.setEngine_regs (k : Nat) (f : EngSt → EngSt) : (s.setEngine k f).regs = s.regs := rfl
@[simp] theorem State.setEngine_tick (k : Nat) (f : EngSt → EngSt) : (s.setEngine k f).tick = s.tick := rfl
@[simp] theorem State.setEngine_link (k : Nat) (f : EngSt → EngSt) : (s.setEngine k f).link = s.link := rfl
@[simp] theorem State.setEngine_boot (k : Nat) (f : EngSt → EngSt) : (s.setEngine k f).boot = s.boot := rfl
@[simp] theorem State.setEngine_flt (k : Nat) (f : EngSt → EngSt) : (s.setEngine k f).flt = s.flt := rfl
@[simp] theorem State.setEngine_mgt (k : Nat) (f : EngSt → EngSt) : (s.setEngine k f).mgt = s.mgt := rfl
@[simp] theorem State.setEngine_host (k : Nat) (f : EngSt → EngSt) : (s.setEngine k f).host = s.host := rfl
@[simp] theorem State.setEngine_topo (k : Nat) (f : EngSt → EngSt) : (s.setEngine k f).topo = s.topo := rfl
@[simp] theorem State.setEngine_flow (k : Nat) (f : EngSt → EngSt) : (s.setEngine k f).flow = s.flow := rfl
@[simp] theorem State.setEngine_sw (k : Nat) (f : EngSt → EngSt) : (s.setEngine k f).sw = s.sw := rfl
@[simp] theorem State.setEngine_pool (k : Nat) (f : EngSt → EngSt) : (s.setEngine k f).pool = s.pool := rfl
@[simp] theorem State.setEngine_coll (k : Nat) (f : EngSt → EngSt) : (s.setEngine k f).coll = s.coll := rfl
@[simp] theorem State.setEngine_parm (k : Nat) (f : EngSt → EngSt) : (s.setEngine k f).parm = s.parm := rfl
@[simp] theorem State.setEngine_stash (k : Nat) (f : EngSt → EngSt) : (s.setEngine k f).stash = s.stash := rfl
@[simp] theorem State.setEngine_stz (k : Nat) (f : EngSt → EngSt) : (s.setEngine k f).stz = s.stz := rfl
@[simp] theorem State.setEngine_pwr (k : Nat) (f : EngSt → EngSt) : (s.setEngine k f).pwr = s.pwr := rfl
@[simp] theorem State.setEngine_ctxUse (k : Nat) (f : EngSt → EngSt) : (s.setEngine k f).ctxUse = s.ctxUse := rfl
@[simp] theorem State.setEngine_ctxGen (k : Nat) (f : EngSt → EngSt) : (s.setEngine k f).ctxGen = s.ctxGen := rfl
@[simp] theorem State.setEngine_mem (k : Nat) (f : EngSt → EngSt) : (s.setEngine k f).mem = s.mem := rfl
@[simp] theorem State.setEngine_undef (k : Nat) (f : EngSt → EngSt) : (s.setEngine k f).undef = s.undef := rfl
@[simp] theorem State.setEngine_out (k : Nat) (f : EngSt → EngSt) : (s.setEngine k f).out = s.out := rfl

/-! ### State.setTilePwr -/

@[simp] theorem State.setTilePwr_pending (t : Nat) (f : TilePwr → TilePwr) : (s.setTilePwr t f).pending = s.pending := rfl
@[simp] theorem State.setTilePwr_fresh (t : Nat) (f : TilePwr → TilePwr) : (s.setTilePwr t f).fresh = s.fresh := rfl
@[simp] theorem State.setTilePwr_regs (t : Nat) (f : TilePwr → TilePwr) : (s.setTilePwr t f).regs = s.regs := rfl
@[simp] theorem State.setTilePwr_tick (t : Nat) (f : TilePwr → TilePwr) : (s.setTilePwr t f).tick = s.tick := rfl
@[simp] theorem State.setTilePwr_link (t : Nat) (f : TilePwr → TilePwr) : (s.setTilePwr t f).link = s.link := rfl
@[simp] theorem State.setTilePwr_boot (t : Nat) (f : TilePwr → TilePwr) : (s.setTilePwr t f).boot = s.boot := rfl
@[simp] theorem State.setTilePwr_flt (t : Nat) (f : TilePwr → TilePwr) : (s.setTilePwr t f).flt = s.flt := rfl
@[simp] theorem State.setTilePwr_mgt (t : Nat) (f : TilePwr → TilePwr) : (s.setTilePwr t f).mgt = s.mgt := rfl
@[simp] theorem State.setTilePwr_host (t : Nat) (f : TilePwr → TilePwr) : (s.setTilePwr t f).host = s.host := rfl
@[simp] theorem State.setTilePwr_topo (t : Nat) (f : TilePwr → TilePwr) : (s.setTilePwr t f).topo = s.topo := rfl
@[simp] theorem State.setTilePwr_flow (t : Nat) (f : TilePwr → TilePwr) : (s.setTilePwr t f).flow = s.flow := rfl
@[simp] theorem State.setTilePwr_sw (t : Nat) (f : TilePwr → TilePwr) : (s.setTilePwr t f).sw = s.sw := rfl
@[simp] theorem State.setTilePwr_pool (t : Nat) (f : TilePwr → TilePwr) : (s.setTilePwr t f).pool = s.pool := rfl
@[simp] theorem State.setTilePwr_eng (t : Nat) (f : TilePwr → TilePwr) : (s.setTilePwr t f).eng = s.eng := rfl
@[simp] theorem State.setTilePwr_coll (t : Nat) (f : TilePwr → TilePwr) : (s.setTilePwr t f).coll = s.coll := rfl
@[simp] theorem State.setTilePwr_parm (t : Nat) (f : TilePwr → TilePwr) : (s.setTilePwr t f).parm = s.parm := rfl
@[simp] theorem State.setTilePwr_stash (t : Nat) (f : TilePwr → TilePwr) : (s.setTilePwr t f).stash = s.stash := rfl
@[simp] theorem State.setTilePwr_stz (t : Nat) (f : TilePwr → TilePwr) : (s.setTilePwr t f).stz = s.stz := rfl
@[simp] theorem State.setTilePwr_ctxUse (t : Nat) (f : TilePwr → TilePwr) : (s.setTilePwr t f).ctxUse = s.ctxUse := rfl
@[simp] theorem State.setTilePwr_ctxGen (t : Nat) (f : TilePwr → TilePwr) : (s.setTilePwr t f).ctxGen = s.ctxGen := rfl
@[simp] theorem State.setTilePwr_mem (t : Nat) (f : TilePwr → TilePwr) : (s.setTilePwr t f).mem = s.mem := rfl
@[simp] theorem State.setTilePwr_undef (t : Nat) (f : TilePwr → TilePwr) : (s.setTilePwr t f).undef = s.undef := rfl
@[simp] theorem State.setTilePwr_out (t : Nat) (f : TilePwr → TilePwr) : (s.setTilePwr t f).out = s.out := rfl

/-! ### State.setMbox -/

@[simp] theorem State.setMbox_pending (m : Nat) (f : MboxSt → MboxSt) : (s.setMbox m f).pending = s.pending := rfl
@[simp] theorem State.setMbox_fresh (m : Nat) (f : MboxSt → MboxSt) : (s.setMbox m f).fresh = s.fresh := rfl
@[simp] theorem State.setMbox_regs (m : Nat) (f : MboxSt → MboxSt) : (s.setMbox m f).regs = s.regs := rfl
@[simp] theorem State.setMbox_tick (m : Nat) (f : MboxSt → MboxSt) : (s.setMbox m f).tick = s.tick := rfl
@[simp] theorem State.setMbox_link (m : Nat) (f : MboxSt → MboxSt) : (s.setMbox m f).link = s.link := rfl
@[simp] theorem State.setMbox_boot (m : Nat) (f : MboxSt → MboxSt) : (s.setMbox m f).boot = s.boot := rfl
@[simp] theorem State.setMbox_flt (m : Nat) (f : MboxSt → MboxSt) : (s.setMbox m f).flt = s.flt := rfl
@[simp] theorem State.setMbox_mgt (m : Nat) (f : MboxSt → MboxSt) : (s.setMbox m f).mgt = s.mgt := rfl
@[simp] theorem State.setMbox_topo (m : Nat) (f : MboxSt → MboxSt) : (s.setMbox m f).topo = s.topo := rfl
@[simp] theorem State.setMbox_flow (m : Nat) (f : MboxSt → MboxSt) : (s.setMbox m f).flow = s.flow := rfl
@[simp] theorem State.setMbox_sw (m : Nat) (f : MboxSt → MboxSt) : (s.setMbox m f).sw = s.sw := rfl
@[simp] theorem State.setMbox_pool (m : Nat) (f : MboxSt → MboxSt) : (s.setMbox m f).pool = s.pool := rfl
@[simp] theorem State.setMbox_eng (m : Nat) (f : MboxSt → MboxSt) : (s.setMbox m f).eng = s.eng := rfl
@[simp] theorem State.setMbox_coll (m : Nat) (f : MboxSt → MboxSt) : (s.setMbox m f).coll = s.coll := rfl
@[simp] theorem State.setMbox_parm (m : Nat) (f : MboxSt → MboxSt) : (s.setMbox m f).parm = s.parm := rfl
@[simp] theorem State.setMbox_stash (m : Nat) (f : MboxSt → MboxSt) : (s.setMbox m f).stash = s.stash := rfl
@[simp] theorem State.setMbox_stz (m : Nat) (f : MboxSt → MboxSt) : (s.setMbox m f).stz = s.stz := rfl
@[simp] theorem State.setMbox_pwr (m : Nat) (f : MboxSt → MboxSt) : (s.setMbox m f).pwr = s.pwr := rfl
@[simp] theorem State.setMbox_ctxUse (m : Nat) (f : MboxSt → MboxSt) : (s.setMbox m f).ctxUse = s.ctxUse := rfl
@[simp] theorem State.setMbox_ctxGen (m : Nat) (f : MboxSt → MboxSt) : (s.setMbox m f).ctxGen = s.ctxGen := rfl
@[simp] theorem State.setMbox_mem (m : Nat) (f : MboxSt → MboxSt) : (s.setMbox m f).mem = s.mem := rfl
@[simp] theorem State.setMbox_undef (m : Nat) (f : MboxSt → MboxSt) : (s.setMbox m f).undef = s.undef := rfl
@[simp] theorem State.setMbox_out (m : Nat) (f : MboxSt → MboxSt) : (s.setMbox m f).out = s.out := rfl

/-! ### State.setCtx -/

@[simp] theorem State.setCtx_pending (n : Nat) (f : Ctx → Ctx) : (s.setCtx n f).pending = s.pending := rfl
@[simp] theorem State.setCtx_fresh (n : Nat) (f : Ctx → Ctx) : (s.setCtx n f).fresh = s.fresh := rfl
@[simp] theorem State.setCtx_regs (n : Nat) (f : Ctx → Ctx) : (s.setCtx n f).regs = s.regs := rfl
@[simp] theorem State.setCtx_tick (n : Nat) (f : Ctx → Ctx) : (s.setCtx n f).tick = s.tick := rfl
@[simp] theorem State.setCtx_link (n : Nat) (f : Ctx → Ctx) : (s.setCtx n f).link = s.link := rfl
@[simp] theorem State.setCtx_boot (n : Nat) (f : Ctx → Ctx) : (s.setCtx n f).boot = s.boot := rfl
@[simp] theorem State.setCtx_flt (n : Nat) (f : Ctx → Ctx) : (s.setCtx n f).flt = s.flt := rfl
@[simp] theorem State.setCtx_mgt (n : Nat) (f : Ctx → Ctx) : (s.setCtx n f).mgt = s.mgt := rfl
@[simp] theorem State.setCtx_topo (n : Nat) (f : Ctx → Ctx) : (s.setCtx n f).topo = s.topo := rfl
@[simp] theorem State.setCtx_flow (n : Nat) (f : Ctx → Ctx) : (s.setCtx n f).flow = s.flow := rfl
@[simp] theorem State.setCtx_sw (n : Nat) (f : Ctx → Ctx) : (s.setCtx n f).sw = s.sw := rfl
@[simp] theorem State.setCtx_pool (n : Nat) (f : Ctx → Ctx) : (s.setCtx n f).pool = s.pool := rfl
@[simp] theorem State.setCtx_eng (n : Nat) (f : Ctx → Ctx) : (s.setCtx n f).eng = s.eng := rfl
@[simp] theorem State.setCtx_coll (n : Nat) (f : Ctx → Ctx) : (s.setCtx n f).coll = s.coll := rfl
@[simp] theorem State.setCtx_parm (n : Nat) (f : Ctx → Ctx) : (s.setCtx n f).parm = s.parm := rfl
@[simp] theorem State.setCtx_stash (n : Nat) (f : Ctx → Ctx) : (s.setCtx n f).stash = s.stash := rfl
@[simp] theorem State.setCtx_stz (n : Nat) (f : Ctx → Ctx) : (s.setCtx n f).stz = s.stz := rfl
@[simp] theorem State.setCtx_pwr (n : Nat) (f : Ctx → Ctx) : (s.setCtx n f).pwr = s.pwr := rfl
@[simp] theorem State.setCtx_ctxUse (n : Nat) (f : Ctx → Ctx) : (s.setCtx n f).ctxUse = s.ctxUse := rfl
@[simp] theorem State.setCtx_ctxGen (n : Nat) (f : Ctx → Ctx) : (s.setCtx n f).ctxGen = s.ctxGen := rfl
@[simp] theorem State.setCtx_mem (n : Nat) (f : Ctx → Ctx) : (s.setCtx n f).mem = s.mem := rfl
@[simp] theorem State.setCtx_undef (n : Nat) (f : Ctx → Ctx) : (s.setCtx n f).undef = s.undef := rfl
@[simp] theorem State.setCtx_out (n : Nat) (f : Ctx → Ctx) : (s.setCtx n f).out = s.out := rfl

/-! ### State.setRoute -/

@[simp] theorem State.setRoute_pending (p : Nat) (f : RouteSt → RouteSt) : (s.setRoute p f).pending = s.pending := rfl
@[simp] theorem State.setRoute_fresh (p : Nat) (f : RouteSt → RouteSt) : (s.setRoute p f).fresh = s.fresh := rfl
@[simp] theorem State.setRoute_regs (p : Nat) (f : RouteSt → RouteSt) : (s.setRoute p f).regs = s.regs := rfl
@[simp] theorem State.setRoute_tick (p : Nat) (f : RouteSt → RouteSt) : (s.setRoute p f).tick = s.tick := rfl
@[simp] theorem State.setRoute_link (p : Nat) (f : RouteSt → RouteSt) : (s.setRoute p f).link = s.link := rfl
@[simp] theorem State.setRoute_boot (p : Nat) (f : RouteSt → RouteSt) : (s.setRoute p f).boot = s.boot := rfl
@[simp] theorem State.setRoute_flt (p : Nat) (f : RouteSt → RouteSt) : (s.setRoute p f).flt = s.flt := rfl
@[simp] theorem State.setRoute_mgt (p : Nat) (f : RouteSt → RouteSt) : (s.setRoute p f).mgt = s.mgt := rfl
@[simp] theorem State.setRoute_host (p : Nat) (f : RouteSt → RouteSt) : (s.setRoute p f).host = s.host := rfl
@[simp] theorem State.setRoute_flow (p : Nat) (f : RouteSt → RouteSt) : (s.setRoute p f).flow = s.flow := rfl
@[simp] theorem State.setRoute_sw (p : Nat) (f : RouteSt → RouteSt) : (s.setRoute p f).sw = s.sw := rfl
@[simp] theorem State.setRoute_pool (p : Nat) (f : RouteSt → RouteSt) : (s.setRoute p f).pool = s.pool := rfl
@[simp] theorem State.setRoute_eng (p : Nat) (f : RouteSt → RouteSt) : (s.setRoute p f).eng = s.eng := rfl
@[simp] theorem State.setRoute_coll (p : Nat) (f : RouteSt → RouteSt) : (s.setRoute p f).coll = s.coll := rfl
@[simp] theorem State.setRoute_parm (p : Nat) (f : RouteSt → RouteSt) : (s.setRoute p f).parm = s.parm := rfl
@[simp] theorem State.setRoute_stash (p : Nat) (f : RouteSt → RouteSt) : (s.setRoute p f).stash = s.stash := rfl
@[simp] theorem State.setRoute_stz (p : Nat) (f : RouteSt → RouteSt) : (s.setRoute p f).stz = s.stz := rfl
@[simp] theorem State.setRoute_pwr (p : Nat) (f : RouteSt → RouteSt) : (s.setRoute p f).pwr = s.pwr := rfl
@[simp] theorem State.setRoute_ctxUse (p : Nat) (f : RouteSt → RouteSt) : (s.setRoute p f).ctxUse = s.ctxUse := rfl
@[simp] theorem State.setRoute_ctxGen (p : Nat) (f : RouteSt → RouteSt) : (s.setRoute p f).ctxGen = s.ctxGen := rfl
@[simp] theorem State.setRoute_mem (p : Nat) (f : RouteSt → RouteSt) : (s.setRoute p f).mem = s.mem := rfl
@[simp] theorem State.setRoute_undef (p : Nat) (f : RouteSt → RouteSt) : (s.setRoute p f).undef = s.undef := rfl
@[simp] theorem State.setRoute_out (p : Nat) (f : RouteSt → RouteSt) : (s.setRoute p f).out = s.out := rfl

/-! ### State.setLs -/

@[simp] theorem State.setLs_pending (n : Nat) (f : NodeLs → NodeLs) : (s.setLs n f).pending = s.pending := rfl
@[simp] theorem State.setLs_fresh (n : Nat) (f : NodeLs → NodeLs) : (s.setLs n f).fresh = s.fresh := rfl
@[simp] theorem State.setLs_regs (n : Nat) (f : NodeLs → NodeLs) : (s.setLs n f).regs = s.regs := rfl
@[simp] theorem State.setLs_tick (n : Nat) (f : NodeLs → NodeLs) : (s.setLs n f).tick = s.tick := rfl
@[simp] theorem State.setLs_link (n : Nat) (f : NodeLs → NodeLs) : (s.setLs n f).link = s.link := rfl
@[simp] theorem State.setLs_boot (n : Nat) (f : NodeLs → NodeLs) : (s.setLs n f).boot = s.boot := rfl
@[simp] theorem State.setLs_flt (n : Nat) (f : NodeLs → NodeLs) : (s.setLs n f).flt = s.flt := rfl
@[simp] theorem State.setLs_mgt (n : Nat) (f : NodeLs → NodeLs) : (s.setLs n f).mgt = s.mgt := rfl
@[simp] theorem State.setLs_host (n : Nat) (f : NodeLs → NodeLs) : (s.setLs n f).host = s.host := rfl
@[simp] theorem State.setLs_flow (n : Nat) (f : NodeLs → NodeLs) : (s.setLs n f).flow = s.flow := rfl
@[simp] theorem State.setLs_sw (n : Nat) (f : NodeLs → NodeLs) : (s.setLs n f).sw = s.sw := rfl
@[simp] theorem State.setLs_pool (n : Nat) (f : NodeLs → NodeLs) : (s.setLs n f).pool = s.pool := rfl
@[simp] theorem State.setLs_eng (n : Nat) (f : NodeLs → NodeLs) : (s.setLs n f).eng = s.eng := rfl
@[simp] theorem State.setLs_coll (n : Nat) (f : NodeLs → NodeLs) : (s.setLs n f).coll = s.coll := rfl
@[simp] theorem State.setLs_parm (n : Nat) (f : NodeLs → NodeLs) : (s.setLs n f).parm = s.parm := rfl
@[simp] theorem State.setLs_stash (n : Nat) (f : NodeLs → NodeLs) : (s.setLs n f).stash = s.stash := rfl
@[simp] theorem State.setLs_stz (n : Nat) (f : NodeLs → NodeLs) : (s.setLs n f).stz = s.stz := rfl
@[simp] theorem State.setLs_pwr (n : Nat) (f : NodeLs → NodeLs) : (s.setLs n f).pwr = s.pwr := rfl
@[simp] theorem State.setLs_ctxUse (n : Nat) (f : NodeLs → NodeLs) : (s.setLs n f).ctxUse = s.ctxUse := rfl
@[simp] theorem State.setLs_ctxGen (n : Nat) (f : NodeLs → NodeLs) : (s.setLs n f).ctxGen = s.ctxGen := rfl
@[simp] theorem State.setLs_mem (n : Nat) (f : NodeLs → NodeLs) : (s.setLs n f).mem = s.mem := rfl
@[simp] theorem State.setLs_undef (n : Nat) (f : NodeLs → NodeLs) : (s.setLs n f).undef = s.undef := rfl
@[simp] theorem State.setLs_out (n : Nat) (f : NodeLs → NodeLs) : (s.setLs n f).out = s.out := rfl

/-! ### State.setSlot -/

@[simp] theorem State.setSlot_pending (k : Nat) (f : SlotSt → SlotSt) : (s.setSlot k f).pending = s.pending := rfl
@[simp] theorem State.setSlot_fresh (k : Nat) (f : SlotSt → SlotSt) : (s.setSlot k f).fresh = s.fresh := rfl
@[simp] theorem State.setSlot_regs (k : Nat) (f : SlotSt → SlotSt) : (s.setSlot k f).regs = s.regs := rfl
@[simp] theorem State.setSlot_tick (k : Nat) (f : SlotSt → SlotSt) : (s.setSlot k f).tick = s.tick := rfl
@[simp] theorem State.setSlot_link (k : Nat) (f : SlotSt → SlotSt) : (s.setSlot k f).link = s.link := rfl
@[simp] theorem State.setSlot_boot (k : Nat) (f : SlotSt → SlotSt) : (s.setSlot k f).boot = s.boot := rfl
@[simp] theorem State.setSlot_flt (k : Nat) (f : SlotSt → SlotSt) : (s.setSlot k f).flt = s.flt := rfl
@[simp] theorem State.setSlot_host (k : Nat) (f : SlotSt → SlotSt) : (s.setSlot k f).host = s.host := rfl
@[simp] theorem State.setSlot_topo (k : Nat) (f : SlotSt → SlotSt) : (s.setSlot k f).topo = s.topo := rfl
@[simp] theorem State.setSlot_flow (k : Nat) (f : SlotSt → SlotSt) : (s.setSlot k f).flow = s.flow := rfl
@[simp] theorem State.setSlot_sw (k : Nat) (f : SlotSt → SlotSt) : (s.setSlot k f).sw = s.sw := rfl
@[simp] theorem State.setSlot_pool (k : Nat) (f : SlotSt → SlotSt) : (s.setSlot k f).pool = s.pool := rfl
@[simp] theorem State.setSlot_eng (k : Nat) (f : SlotSt → SlotSt) : (s.setSlot k f).eng = s.eng := rfl
@[simp] theorem State.setSlot_coll (k : Nat) (f : SlotSt → SlotSt) : (s.setSlot k f).coll = s.coll := rfl
@[simp] theorem State.setSlot_parm (k : Nat) (f : SlotSt → SlotSt) : (s.setSlot k f).parm = s.parm := rfl
@[simp] theorem State.setSlot_stash (k : Nat) (f : SlotSt → SlotSt) : (s.setSlot k f).stash = s.stash := rfl
@[simp] theorem State.setSlot_stz (k : Nat) (f : SlotSt → SlotSt) : (s.setSlot k f).stz = s.stz := rfl
@[simp] theorem State.setSlot_pwr (k : Nat) (f : SlotSt → SlotSt) : (s.setSlot k f).pwr = s.pwr := rfl
@[simp] theorem State.setSlot_ctxUse (k : Nat) (f : SlotSt → SlotSt) : (s.setSlot k f).ctxUse = s.ctxUse := rfl
@[simp] theorem State.setSlot_ctxGen (k : Nat) (f : SlotSt → SlotSt) : (s.setSlot k f).ctxGen = s.ctxGen := rfl
@[simp] theorem State.setSlot_mem (k : Nat) (f : SlotSt → SlotSt) : (s.setSlot k f).mem = s.mem := rfl
@[simp] theorem State.setSlot_undef (k : Nat) (f : SlotSt → SlotSt) : (s.setSlot k f).undef = s.undef := rfl
@[simp] theorem State.setSlot_out (k : Nat) (f : SlotSt → SlotSt) : (s.setSlot k f).out = s.out := rfl

/-! ### State.setProg -/

@[simp] theorem State.setProg_pending (c : Nat) (p : ProgSt) : (s.setProg c p).pending = s.pending := rfl
@[simp] theorem State.setProg_fresh (c : Nat) (p : ProgSt) : (s.setProg c p).fresh = s.fresh := rfl
@[simp] theorem State.setProg_regs (c : Nat) (p : ProgSt) : (s.setProg c p).regs = s.regs := rfl
@[simp] theorem State.setProg_tick (c : Nat) (p : ProgSt) : (s.setProg c p).tick = s.tick := rfl
@[simp] theorem State.setProg_link (c : Nat) (p : ProgSt) : (s.setProg c p).link = s.link := rfl
@[simp] theorem State.setProg_boot (c : Nat) (p : ProgSt) : (s.setProg c p).boot = s.boot := rfl
@[simp] theorem State.setProg_flt (c : Nat) (p : ProgSt) : (s.setProg c p).flt = s.flt := rfl
@[simp] theorem State.setProg_mgt (c : Nat) (p : ProgSt) : (s.setProg c p).mgt = s.mgt := rfl
@[simp] theorem State.setProg_host (c : Nat) (p : ProgSt) : (s.setProg c p).host = s.host := rfl
@[simp] theorem State.setProg_topo (c : Nat) (p : ProgSt) : (s.setProg c p).topo = s.topo := rfl
@[simp] theorem State.setProg_flow (c : Nat) (p : ProgSt) : (s.setProg c p).flow = s.flow := rfl
@[simp] theorem State.setProg_sw (c : Nat) (p : ProgSt) : (s.setProg c p).sw = s.sw := rfl
@[simp] theorem State.setProg_pool (c : Nat) (p : ProgSt) : (s.setProg c p).pool = s.pool := rfl
@[simp] theorem State.setProg_coll (c : Nat) (p : ProgSt) : (s.setProg c p).coll = s.coll := rfl
@[simp] theorem State.setProg_parm (c : Nat) (p : ProgSt) : (s.setProg c p).parm = s.parm := rfl
@[simp] theorem State.setProg_stash (c : Nat) (p : ProgSt) : (s.setProg c p).stash = s.stash := rfl
@[simp] theorem State.setProg_stz (c : Nat) (p : ProgSt) : (s.setProg c p).stz = s.stz := rfl
@[simp] theorem State.setProg_pwr (c : Nat) (p : ProgSt) : (s.setProg c p).pwr = s.pwr := rfl
@[simp] theorem State.setProg_ctxUse (c : Nat) (p : ProgSt) : (s.setProg c p).ctxUse = s.ctxUse := rfl
@[simp] theorem State.setProg_ctxGen (c : Nat) (p : ProgSt) : (s.setProg c p).ctxGen = s.ctxGen := rfl
@[simp] theorem State.setProg_mem (c : Nat) (p : ProgSt) : (s.setProg c p).mem = s.mem := rfl
@[simp] theorem State.setProg_undef (c : Nat) (p : ProgSt) : (s.setProg c p).undef = s.undef := rfl
@[simp] theorem State.setProg_out (c : Nat) (p : ProgSt) : (s.setProg c p).out = s.out := rfl

/-! ### State.setQueue -/

@[simp] theorem State.setQueue_pending (t : Nat) (q : List QJob) : (s.setQueue t q).pending = s.pending := rfl
@[simp] theorem State.setQueue_fresh (t : Nat) (q : List QJob) : (s.setQueue t q).fresh = s.fresh := rfl
@[simp] theorem State.setQueue_regs (t : Nat) (q : List QJob) : (s.setQueue t q).regs = s.regs := rfl
@[simp] theorem State.setQueue_tick (t : Nat) (q : List QJob) : (s.setQueue t q).tick = s.tick := rfl
@[simp] theorem State.setQueue_link (t : Nat) (q : List QJob) : (s.setQueue t q).link = s.link := rfl
@[simp] theorem State.setQueue_boot (t : Nat) (q : List QJob) : (s.setQueue t q).boot = s.boot := rfl
@[simp] theorem State.setQueue_flt (t : Nat) (q : List QJob) : (s.setQueue t q).flt = s.flt := rfl
@[simp] theorem State.setQueue_mgt (t : Nat) (q : List QJob) : (s.setQueue t q).mgt = s.mgt := rfl
@[simp] theorem State.setQueue_host (t : Nat) (q : List QJob) : (s.setQueue t q).host = s.host := rfl
@[simp] theorem State.setQueue_topo (t : Nat) (q : List QJob) : (s.setQueue t q).topo = s.topo := rfl
@[simp] theorem State.setQueue_flow (t : Nat) (q : List QJob) : (s.setQueue t q).flow = s.flow := rfl
@[simp] theorem State.setQueue_sw (t : Nat) (q : List QJob) : (s.setQueue t q).sw = s.sw := rfl
@[simp] theorem State.setQueue_pool (t : Nat) (q : List QJob) : (s.setQueue t q).pool = s.pool := rfl
@[simp] theorem State.setQueue_coll (t : Nat) (q : List QJob) : (s.setQueue t q).coll = s.coll := rfl
@[simp] theorem State.setQueue_parm (t : Nat) (q : List QJob) : (s.setQueue t q).parm = s.parm := rfl
@[simp] theorem State.setQueue_stash (t : Nat) (q : List QJob) : (s.setQueue t q).stash = s.stash := rfl
@[simp] theorem State.setQueue_stz (t : Nat) (q : List QJob) : (s.setQueue t q).stz = s.stz := rfl
@[simp] theorem State.setQueue_pwr (t : Nat) (q : List QJob) : (s.setQueue t q).pwr = s.pwr := rfl
@[simp] theorem State.setQueue_ctxUse (t : Nat) (q : List QJob) : (s.setQueue t q).ctxUse = s.ctxUse := rfl
@[simp] theorem State.setQueue_ctxGen (t : Nat) (q : List QJob) : (s.setQueue t q).ctxGen = s.ctxGen := rfl
@[simp] theorem State.setQueue_mem (t : Nat) (q : List QJob) : (s.setQueue t q).mem = s.mem := rfl
@[simp] theorem State.setQueue_undef (t : Nat) (q : List QJob) : (s.setQueue t q).undef = s.undef := rfl
@[simp] theorem State.setQueue_out (t : Nat) (q : List QJob) : (s.setQueue t q).out = s.out := rfl

/-! ### State.setRxFrame -/

@[simp] theorem State.setRxFrame_pending (p : Nat) (f : RxFrame) : (s.setRxFrame p f).pending = s.pending := rfl
@[simp] theorem State.setRxFrame_fresh (p : Nat) (f : RxFrame) : (s.setRxFrame p f).fresh = s.fresh := rfl
@[simp] theorem State.setRxFrame_regs (p : Nat) (f : RxFrame) : (s.setRxFrame p f).regs = s.regs := rfl
@[simp] theorem State.setRxFrame_tick (p : Nat) (f : RxFrame) : (s.setRxFrame p f).tick = s.tick := rfl
@[simp] theorem State.setRxFrame_link (p : Nat) (f : RxFrame) : (s.setRxFrame p f).link = s.link := rfl
@[simp] theorem State.setRxFrame_boot (p : Nat) (f : RxFrame) : (s.setRxFrame p f).boot = s.boot := rfl
@[simp] theorem State.setRxFrame_flt (p : Nat) (f : RxFrame) : (s.setRxFrame p f).flt = s.flt := rfl
@[simp] theorem State.setRxFrame_mgt (p : Nat) (f : RxFrame) : (s.setRxFrame p f).mgt = s.mgt := rfl
@[simp] theorem State.setRxFrame_host (p : Nat) (f : RxFrame) : (s.setRxFrame p f).host = s.host := rfl
@[simp] theorem State.setRxFrame_topo (p : Nat) (f : RxFrame) : (s.setRxFrame p f).topo = s.topo := rfl
@[simp] theorem State.setRxFrame_flow (p : Nat) (f : RxFrame) : (s.setRxFrame p f).flow = s.flow := rfl
@[simp] theorem State.setRxFrame_pool (p : Nat) (f : RxFrame) : (s.setRxFrame p f).pool = s.pool := rfl
@[simp] theorem State.setRxFrame_eng (p : Nat) (f : RxFrame) : (s.setRxFrame p f).eng = s.eng := rfl
@[simp] theorem State.setRxFrame_coll (p : Nat) (f : RxFrame) : (s.setRxFrame p f).coll = s.coll := rfl
@[simp] theorem State.setRxFrame_parm (p : Nat) (f : RxFrame) : (s.setRxFrame p f).parm = s.parm := rfl
@[simp] theorem State.setRxFrame_stash (p : Nat) (f : RxFrame) : (s.setRxFrame p f).stash = s.stash := rfl
@[simp] theorem State.setRxFrame_stz (p : Nat) (f : RxFrame) : (s.setRxFrame p f).stz = s.stz := rfl
@[simp] theorem State.setRxFrame_pwr (p : Nat) (f : RxFrame) : (s.setRxFrame p f).pwr = s.pwr := rfl
@[simp] theorem State.setRxFrame_ctxUse (p : Nat) (f : RxFrame) : (s.setRxFrame p f).ctxUse = s.ctxUse := rfl
@[simp] theorem State.setRxFrame_ctxGen (p : Nat) (f : RxFrame) : (s.setRxFrame p f).ctxGen = s.ctxGen := rfl
@[simp] theorem State.setRxFrame_mem (p : Nat) (f : RxFrame) : (s.setRxFrame p f).mem = s.mem := rfl
@[simp] theorem State.setRxFrame_undef (p : Nat) (f : RxFrame) : (s.setRxFrame p f).undef = s.undef := rfl
@[simp] theorem State.setRxFrame_out (p : Nat) (f : RxFrame) : (s.setRxFrame p f).out = s.out := rfl

/-! ### State.setTx -/

@[simp] theorem State.setTx_pending (f : TxFlow) : (s.setTx f).pending = s.pending := rfl
@[simp] theorem State.setTx_fresh (f : TxFlow) : (s.setTx f).fresh = s.fresh := rfl
@[simp] theorem State.setTx_regs (f : TxFlow) : (s.setTx f).regs = s.regs := rfl
@[simp] theorem State.setTx_tick (f : TxFlow) : (s.setTx f).tick = s.tick := rfl
@[simp] theorem State.setTx_link (f : TxFlow) : (s.setTx f).link = s.link := rfl
@[simp] theorem State.setTx_boot (f : TxFlow) : (s.setTx f).boot = s.boot := rfl
@[simp] theorem State.setTx_flt (f : TxFlow) : (s.setTx f).flt = s.flt := rfl
@[simp] theorem State.setTx_mgt (f : TxFlow) : (s.setTx f).mgt = s.mgt := rfl
@[simp] theorem State.setTx_host (f : TxFlow) : (s.setTx f).host = s.host := rfl
@[simp] theorem State.setTx_topo (f : TxFlow) : (s.setTx f).topo = s.topo := rfl
@[simp] theorem State.setTx_sw (f : TxFlow) : (s.setTx f).sw = s.sw := rfl
@[simp] theorem State.setTx_pool (f : TxFlow) : (s.setTx f).pool = s.pool := rfl
@[simp] theorem State.setTx_eng (f : TxFlow) : (s.setTx f).eng = s.eng := rfl
@[simp] theorem State.setTx_coll (f : TxFlow) : (s.setTx f).coll = s.coll := rfl
@[simp] theorem State.setTx_parm (f : TxFlow) : (s.setTx f).parm = s.parm := rfl
@[simp] theorem State.setTx_stash (f : TxFlow) : (s.setTx f).stash = s.stash := rfl
@[simp] theorem State.setTx_stz (f : TxFlow) : (s.setTx f).stz = s.stz := rfl
@[simp] theorem State.setTx_pwr (f : TxFlow) : (s.setTx f).pwr = s.pwr := rfl
@[simp] theorem State.setTx_ctxUse (f : TxFlow) : (s.setTx f).ctxUse = s.ctxUse := rfl
@[simp] theorem State.setTx_ctxGen (f : TxFlow) : (s.setTx f).ctxGen = s.ctxGen := rfl
@[simp] theorem State.setTx_mem (f : TxFlow) : (s.setTx f).mem = s.mem := rfl
@[simp] theorem State.setTx_undef (f : TxFlow) : (s.setTx f).undef = s.undef := rfl
@[simp] theorem State.setTx_out (f : TxFlow) : (s.setTx f).out = s.out := rfl

/-! ### State.setRx -/

@[simp] theorem State.setRx_pending (f : RxFlow) : (s.setRx f).pending = s.pending := rfl
@[simp] theorem State.setRx_fresh (f : RxFlow) : (s.setRx f).fresh = s.fresh := rfl
@[simp] theorem State.setRx_regs (f : RxFlow) : (s.setRx f).regs = s.regs := rfl
@[simp] theorem State.setRx_tick (f : RxFlow) : (s.setRx f).tick = s.tick := rfl
@[simp] theorem State.setRx_link (f : RxFlow) : (s.setRx f).link = s.link := rfl
@[simp] theorem State.setRx_boot (f : RxFlow) : (s.setRx f).boot = s.boot := rfl
@[simp] theorem State.setRx_flt (f : RxFlow) : (s.setRx f).flt = s.flt := rfl
@[simp] theorem State.setRx_mgt (f : RxFlow) : (s.setRx f).mgt = s.mgt := rfl
@[simp] theorem State.setRx_host (f : RxFlow) : (s.setRx f).host = s.host := rfl
@[simp] theorem State.setRx_topo (f : RxFlow) : (s.setRx f).topo = s.topo := rfl
@[simp] theorem State.setRx_sw (f : RxFlow) : (s.setRx f).sw = s.sw := rfl
@[simp] theorem State.setRx_pool (f : RxFlow) : (s.setRx f).pool = s.pool := rfl
@[simp] theorem State.setRx_eng (f : RxFlow) : (s.setRx f).eng = s.eng := rfl
@[simp] theorem State.setRx_coll (f : RxFlow) : (s.setRx f).coll = s.coll := rfl
@[simp] theorem State.setRx_parm (f : RxFlow) : (s.setRx f).parm = s.parm := rfl
@[simp] theorem State.setRx_stash (f : RxFlow) : (s.setRx f).stash = s.stash := rfl
@[simp] theorem State.setRx_stz (f : RxFlow) : (s.setRx f).stz = s.stz := rfl
@[simp] theorem State.setRx_pwr (f : RxFlow) : (s.setRx f).pwr = s.pwr := rfl
@[simp] theorem State.setRx_ctxUse (f : RxFlow) : (s.setRx f).ctxUse = s.ctxUse := rfl
@[simp] theorem State.setRx_ctxGen (f : RxFlow) : (s.setRx f).ctxGen = s.ctxGen := rfl
@[simp] theorem State.setRx_mem (f : RxFlow) : (s.setRx f).mem = s.mem := rfl
@[simp] theorem State.setRx_undef (f : RxFlow) : (s.setRx f).undef = s.undef := rfl
@[simp] theorem State.setRx_out (f : RxFlow) : (s.setRx f).out = s.out := rfl

/-! ### State.setRes -/

@[simp] theorem State.setRes_pending (j : Nat) (r : StashRes) : (s.setRes j r).pending = s.pending := rfl
@[simp] theorem State.setRes_fresh (j : Nat) (r : StashRes) : (s.setRes j r).fresh = s.fresh := rfl
@[simp] theorem State.setRes_regs (j : Nat) (r : StashRes) : (s.setRes j r).regs = s.regs := rfl
@[simp] theorem State.setRes_tick (j : Nat) (r : StashRes) : (s.setRes j r).tick = s.tick := rfl
@[simp] theorem State.setRes_link (j : Nat) (r : StashRes) : (s.setRes j r).link = s.link := rfl
@[simp] theorem State.setRes_boot (j : Nat) (r : StashRes) : (s.setRes j r).boot = s.boot := rfl
@[simp] theorem State.setRes_flt (j : Nat) (r : StashRes) : (s.setRes j r).flt = s.flt := rfl
@[simp] theorem State.setRes_mgt (j : Nat) (r : StashRes) : (s.setRes j r).mgt = s.mgt := rfl
@[simp] theorem State.setRes_host (j : Nat) (r : StashRes) : (s.setRes j r).host = s.host := rfl
@[simp] theorem State.setRes_topo (j : Nat) (r : StashRes) : (s.setRes j r).topo = s.topo := rfl
@[simp] theorem State.setRes_flow (j : Nat) (r : StashRes) : (s.setRes j r).flow = s.flow := rfl
@[simp] theorem State.setRes_sw (j : Nat) (r : StashRes) : (s.setRes j r).sw = s.sw := rfl
@[simp] theorem State.setRes_pool (j : Nat) (r : StashRes) : (s.setRes j r).pool = s.pool := rfl
@[simp] theorem State.setRes_eng (j : Nat) (r : StashRes) : (s.setRes j r).eng = s.eng := rfl
@[simp] theorem State.setRes_coll (j : Nat) (r : StashRes) : (s.setRes j r).coll = s.coll := rfl
@[simp] theorem State.setRes_parm (j : Nat) (r : StashRes) : (s.setRes j r).parm = s.parm := rfl
@[simp] theorem State.setRes_stz (j : Nat) (r : StashRes) : (s.setRes j r).stz = s.stz := rfl
@[simp] theorem State.setRes_pwr (j : Nat) (r : StashRes) : (s.setRes j r).pwr = s.pwr := rfl
@[simp] theorem State.setRes_ctxUse (j : Nat) (r : StashRes) : (s.setRes j r).ctxUse = s.ctxUse := rfl
@[simp] theorem State.setRes_ctxGen (j : Nat) (r : StashRes) : (s.setRes j r).ctxGen = s.ctxGen := rfl
@[simp] theorem State.setRes_mem (j : Nat) (r : StashRes) : (s.setRes j r).mem = s.mem := rfl
@[simp] theorem State.setRes_undef (j : Nat) (r : StashRes) : (s.setRes j r).undef = s.undef := rfl
@[simp] theorem State.setRes_out (j : Nat) (r : StashRes) : (s.setRes j r).out = s.out := rfl

/-! ### State.dropRes -/

@[simp] theorem State.dropRes_pending (j : Nat) : (s.dropRes j).pending = s.pending := rfl
@[simp] theorem State.dropRes_fresh (j : Nat) : (s.dropRes j).fresh = s.fresh := rfl
@[simp] theorem State.dropRes_regs (j : Nat) : (s.dropRes j).regs = s.regs := rfl
@[simp] theorem State.dropRes_tick (j : Nat) : (s.dropRes j).tick = s.tick := rfl
@[simp] theorem State.dropRes_link (j : Nat) : (s.dropRes j).link = s.link := rfl
@[simp] theorem State.dropRes_boot (j : Nat) : (s.dropRes j).boot = s.boot := rfl
@[simp] theorem State.dropRes_flt (j : Nat) : (s.dropRes j).flt = s.flt := rfl
@[simp] theorem State.dropRes_mgt (j : Nat) : (s.dropRes j).mgt = s.mgt := rfl
@[simp] theorem State.dropRes_host (j : Nat) : (s.dropRes j).host = s.host := rfl
@[simp] theorem State.dropRes_topo (j : Nat) : (s.dropRes j).topo = s.topo := rfl
@[simp] theorem State.dropRes_flow (j : Nat) : (s.dropRes j).flow = s.flow := rfl
@[simp] theorem State.dropRes_sw (j : Nat) : (s.dropRes j).sw = s.sw := rfl
@[simp] theorem State.dropRes_pool (j : Nat) : (s.dropRes j).pool = s.pool := rfl
@[simp] theorem State.dropRes_eng (j : Nat) : (s.dropRes j).eng = s.eng := rfl
@[simp] theorem State.dropRes_coll (j : Nat) : (s.dropRes j).coll = s.coll := rfl
@[simp] theorem State.dropRes_parm (j : Nat) : (s.dropRes j).parm = s.parm := rfl
@[simp] theorem State.dropRes_stz (j : Nat) : (s.dropRes j).stz = s.stz := rfl
@[simp] theorem State.dropRes_pwr (j : Nat) : (s.dropRes j).pwr = s.pwr := rfl
@[simp] theorem State.dropRes_ctxUse (j : Nat) : (s.dropRes j).ctxUse = s.ctxUse := rfl
@[simp] theorem State.dropRes_ctxGen (j : Nat) : (s.dropRes j).ctxGen = s.ctxGen := rfl
@[simp] theorem State.dropRes_mem (j : Nat) : (s.dropRes j).mem = s.mem := rfl
@[simp] theorem State.dropRes_undef (j : Nat) : (s.dropRes j).undef = s.undef := rfl
@[simp] theorem State.dropRes_out (j : Nat) : (s.dropRes j).out = s.out := rfl

/-! ### State.setEnt -/

@[simp] theorem State.setEnt_pending (e : StashEnt) : (s.setEnt e).pending = s.pending := rfl
@[simp] theorem State.setEnt_fresh (e : StashEnt) : (s.setEnt e).fresh = s.fresh := rfl
@[simp] theorem State.setEnt_regs (e : StashEnt) : (s.setEnt e).regs = s.regs := rfl
@[simp] theorem State.setEnt_tick (e : StashEnt) : (s.setEnt e).tick = s.tick := rfl
@[simp] theorem State.setEnt_link (e : StashEnt) : (s.setEnt e).link = s.link := rfl
@[simp] theorem State.setEnt_boot (e : StashEnt) : (s.setEnt e).boot = s.boot := rfl
@[simp] theorem State.setEnt_flt (e : StashEnt) : (s.setEnt e).flt = s.flt := rfl
@[simp] theorem State.setEnt_mgt (e : StashEnt) : (s.setEnt e).mgt = s.mgt := rfl
@[simp] theorem State.setEnt_host (e : StashEnt) : (s.setEnt e).host = s.host := rfl
@[simp] theorem State.setEnt_topo (e : StashEnt) : (s.setEnt e).topo = s.topo := rfl
@[simp] theorem State.setEnt_flow (e : StashEnt) : (s.setEnt e).flow = s.flow := rfl
@[simp] theorem State.setEnt_sw (e : StashEnt) : (s.setEnt e).sw = s.sw := rfl
@[simp] theorem State.setEnt_pool (e : StashEnt) : (s.setEnt e).pool = s.pool := rfl
@[simp] theorem State.setEnt_eng (e : StashEnt) : (s.setEnt e).eng = s.eng := rfl
@[simp] theorem State.setEnt_coll (e : StashEnt) : (s.setEnt e).coll = s.coll := rfl
@[simp] theorem State.setEnt_parm (e : StashEnt) : (s.setEnt e).parm = s.parm := rfl
@[simp] theorem State.setEnt_stz (e : StashEnt) : (s.setEnt e).stz = s.stz := rfl
@[simp] theorem State.setEnt_pwr (e : StashEnt) : (s.setEnt e).pwr = s.pwr := rfl
@[simp] theorem State.setEnt_ctxUse (e : StashEnt) : (s.setEnt e).ctxUse = s.ctxUse := rfl
@[simp] theorem State.setEnt_ctxGen (e : StashEnt) : (s.setEnt e).ctxGen = s.ctxGen := rfl
@[simp] theorem State.setEnt_mem (e : StashEnt) : (s.setEnt e).mem = s.mem := rfl
@[simp] theorem State.setEnt_undef (e : StashEnt) : (s.setEnt e).undef = s.undef := rfl
@[simp] theorem State.setEnt_out (e : StashEnt) : (s.setEnt e).out = s.out := rfl

/-! ### State.setGroup -/

@[simp] theorem State.setGroup_pending (g : GroupSt) : (s.setGroup g).pending = s.pending := rfl
@[simp] theorem State.setGroup_fresh (g : GroupSt) : (s.setGroup g).fresh = s.fresh := rfl
@[simp] theorem State.setGroup_regs (g : GroupSt) : (s.setGroup g).regs = s.regs := rfl
@[simp] theorem State.setGroup_tick (g : GroupSt) : (s.setGroup g).tick = s.tick := rfl
@[simp] theorem State.setGroup_link (g : GroupSt) : (s.setGroup g).link = s.link := rfl
@[simp] theorem State.setGroup_boot (g : GroupSt) : (s.setGroup g).boot = s.boot := rfl
@[simp] theorem State.setGroup_flt (g : GroupSt) : (s.setGroup g).flt = s.flt := rfl
@[simp] theorem State.setGroup_mgt (g : GroupSt) : (s.setGroup g).mgt = s.mgt := rfl
@[simp] theorem State.setGroup_host (g : GroupSt) : (s.setGroup g).host = s.host := rfl
@[simp] theorem State.setGroup_flow (g : GroupSt) : (s.setGroup g).flow = s.flow := rfl
@[simp] theorem State.setGroup_sw (g : GroupSt) : (s.setGroup g).sw = s.sw := rfl
@[simp] theorem State.setGroup_pool (g : GroupSt) : (s.setGroup g).pool = s.pool := rfl
@[simp] theorem State.setGroup_eng (g : GroupSt) : (s.setGroup g).eng = s.eng := rfl
@[simp] theorem State.setGroup_coll (g : GroupSt) : (s.setGroup g).coll = s.coll := rfl
@[simp] theorem State.setGroup_parm (g : GroupSt) : (s.setGroup g).parm = s.parm := rfl
@[simp] theorem State.setGroup_stash (g : GroupSt) : (s.setGroup g).stash = s.stash := rfl
@[simp] theorem State.setGroup_stz (g : GroupSt) : (s.setGroup g).stz = s.stz := rfl
@[simp] theorem State.setGroup_pwr (g : GroupSt) : (s.setGroup g).pwr = s.pwr := rfl
@[simp] theorem State.setGroup_ctxUse (g : GroupSt) : (s.setGroup g).ctxUse = s.ctxUse := rfl
@[simp] theorem State.setGroup_ctxGen (g : GroupSt) : (s.setGroup g).ctxGen = s.ctxGen := rfl
@[simp] theorem State.setGroup_mem (g : GroupSt) : (s.setGroup g).mem = s.mem := rfl
@[simp] theorem State.setGroup_undef (g : GroupSt) : (s.setGroup g).undef = s.undef := rfl
@[simp] theorem State.setGroup_out (g : GroupSt) : (s.setGroup g).out = s.out := rfl

/-! ### State.dropGroup -/

@[simp] theorem State.dropGroup_pending (h n : Nat) : (s.dropGroup h n).pending = s.pending := rfl
@[simp] theorem State.dropGroup_fresh (h n : Nat) : (s.dropGroup h n).fresh = s.fresh := rfl
@[simp] theorem State.dropGroup_regs (h n : Nat) : (s.dropGroup h n).regs = s.regs := rfl
@[simp] theorem State.dropGroup_tick (h n : Nat) : (s.dropGroup h n).tick = s.tick := rfl
@[simp] theorem State.dropGroup_link (h n : Nat) : (s.dropGroup h n).link = s.link := rfl
@[simp] theorem State.dropGroup_boot (h n : Nat) : (s.dropGroup h n).boot = s.boot := rfl
@[simp] theorem State.dropGroup_flt (h n : Nat) : (s.dropGroup h n).flt = s.flt := rfl
@[simp] theorem State.dropGroup_mgt (h n : Nat) : (s.dropGroup h n).mgt = s.mgt := rfl
@[simp] theorem State.dropGroup_host (h n : Nat) : (s.dropGroup h n).host = s.host := rfl
@[simp] theorem State.dropGroup_flow (h n : Nat) : (s.dropGroup h n).flow = s.flow := rfl
@[simp] theorem State.dropGroup_sw (h n : Nat) : (s.dropGroup h n).sw = s.sw := rfl
@[simp] theorem State.dropGroup_pool (h n : Nat) : (s.dropGroup h n).pool = s.pool := rfl
@[simp] theorem State.dropGroup_eng (h n : Nat) : (s.dropGroup h n).eng = s.eng := rfl
@[simp] theorem State.dropGroup_coll (h n : Nat) : (s.dropGroup h n).coll = s.coll := rfl
@[simp] theorem State.dropGroup_parm (h n : Nat) : (s.dropGroup h n).parm = s.parm := rfl
@[simp] theorem State.dropGroup_stash (h n : Nat) : (s.dropGroup h n).stash = s.stash := rfl
@[simp] theorem State.dropGroup_stz (h n : Nat) : (s.dropGroup h n).stz = s.stz := rfl
@[simp] theorem State.dropGroup_pwr (h n : Nat) : (s.dropGroup h n).pwr = s.pwr := rfl
@[simp] theorem State.dropGroup_ctxUse (h n : Nat) : (s.dropGroup h n).ctxUse = s.ctxUse := rfl
@[simp] theorem State.dropGroup_ctxGen (h n : Nat) : (s.dropGroup h n).ctxGen = s.ctxGen := rfl
@[simp] theorem State.dropGroup_mem (h n : Nat) : (s.dropGroup h n).mem = s.mem := rfl
@[simp] theorem State.dropGroup_undef (h n : Nat) : (s.dropGroup h n).undef = s.undef := rfl
@[simp] theorem State.dropGroup_out (h n : Nat) : (s.dropGroup h n).out = s.out := rfl

/-! ### State.setDisable -/

@[simp] theorem State.setDisable_pending (f j : Nat) (g : DisableSt → DisableSt) : (s.setDisable f j g).pending = s.pending := rfl
@[simp] theorem State.setDisable_fresh (f j : Nat) (g : DisableSt → DisableSt) : (s.setDisable f j g).fresh = s.fresh := rfl
@[simp] theorem State.setDisable_regs (f j : Nat) (g : DisableSt → DisableSt) : (s.setDisable f j g).regs = s.regs := rfl
@[simp] theorem State.setDisable_tick (f j : Nat) (g : DisableSt → DisableSt) : (s.setDisable f j g).tick = s.tick := rfl
@[simp] theorem State.setDisable_link (f j : Nat) (g : DisableSt → DisableSt) : (s.setDisable f j g).link = s.link := rfl
@[simp] theorem State.setDisable_boot (f j : Nat) (g : DisableSt → DisableSt) : (s.setDisable f j g).boot = s.boot := rfl
@[simp] theorem State.setDisable_flt (f j : Nat) (g : DisableSt → DisableSt) : (s.setDisable f j g).flt = s.flt := rfl
@[simp] theorem State.setDisable_mgt (f j : Nat) (g : DisableSt → DisableSt) : (s.setDisable f j g).mgt = s.mgt := rfl
@[simp] theorem State.setDisable_topo (f j : Nat) (g : DisableSt → DisableSt) : (s.setDisable f j g).topo = s.topo := rfl
@[simp] theorem State.setDisable_flow (f j : Nat) (g : DisableSt → DisableSt) : (s.setDisable f j g).flow = s.flow := rfl
@[simp] theorem State.setDisable_sw (f j : Nat) (g : DisableSt → DisableSt) : (s.setDisable f j g).sw = s.sw := rfl
@[simp] theorem State.setDisable_pool (f j : Nat) (g : DisableSt → DisableSt) : (s.setDisable f j g).pool = s.pool := rfl
@[simp] theorem State.setDisable_eng (f j : Nat) (g : DisableSt → DisableSt) : (s.setDisable f j g).eng = s.eng := rfl
@[simp] theorem State.setDisable_coll (f j : Nat) (g : DisableSt → DisableSt) : (s.setDisable f j g).coll = s.coll := rfl
@[simp] theorem State.setDisable_parm (f j : Nat) (g : DisableSt → DisableSt) : (s.setDisable f j g).parm = s.parm := rfl
@[simp] theorem State.setDisable_stash (f j : Nat) (g : DisableSt → DisableSt) : (s.setDisable f j g).stash = s.stash := rfl
@[simp] theorem State.setDisable_stz (f j : Nat) (g : DisableSt → DisableSt) : (s.setDisable f j g).stz = s.stz := rfl
@[simp] theorem State.setDisable_pwr (f j : Nat) (g : DisableSt → DisableSt) : (s.setDisable f j g).pwr = s.pwr := rfl
@[simp] theorem State.setDisable_ctxUse (f j : Nat) (g : DisableSt → DisableSt) : (s.setDisable f j g).ctxUse = s.ctxUse := rfl
@[simp] theorem State.setDisable_ctxGen (f j : Nat) (g : DisableSt → DisableSt) : (s.setDisable f j g).ctxGen = s.ctxGen := rfl
@[simp] theorem State.setDisable_mem (f j : Nat) (g : DisableSt → DisableSt) : (s.setDisable f j g).mem = s.mem := rfl
@[simp] theorem State.setDisable_undef (f j : Nat) (g : DisableSt → DisableSt) : (s.setDisable f j g).undef = s.undef := rfl
@[simp] theorem State.setDisable_out (f j : Nat) (g : DisableSt → DisableSt) : (s.setDisable f j g).out = s.out := rfl

/-! ### State.addCtx -/

@[simp] theorem State.addCtx_pending (c : Sys2Proof.Instr) (h : Sys2Proof.CmdHdr) (code bad : Nat) : (s.addCtx c h code bad).pending = s.pending := rfl
@[simp] theorem State.addCtx_fresh (c : Sys2Proof.Instr) (h : Sys2Proof.CmdHdr) (code bad : Nat) : (s.addCtx c h code bad).fresh = s.fresh := rfl
@[simp] theorem State.addCtx_regs (c : Sys2Proof.Instr) (h : Sys2Proof.CmdHdr) (code bad : Nat) : (s.addCtx c h code bad).regs = s.regs := rfl
@[simp] theorem State.addCtx_tick (c : Sys2Proof.Instr) (h : Sys2Proof.CmdHdr) (code bad : Nat) : (s.addCtx c h code bad).tick = s.tick := rfl
@[simp] theorem State.addCtx_link (c : Sys2Proof.Instr) (h : Sys2Proof.CmdHdr) (code bad : Nat) : (s.addCtx c h code bad).link = s.link := rfl
@[simp] theorem State.addCtx_boot (c : Sys2Proof.Instr) (h : Sys2Proof.CmdHdr) (code bad : Nat) : (s.addCtx c h code bad).boot = s.boot := rfl
@[simp] theorem State.addCtx_flt (c : Sys2Proof.Instr) (h : Sys2Proof.CmdHdr) (code bad : Nat) : (s.addCtx c h code bad).flt = s.flt := rfl
@[simp] theorem State.addCtx_mgt (c : Sys2Proof.Instr) (h : Sys2Proof.CmdHdr) (code bad : Nat) : (s.addCtx c h code bad).mgt = s.mgt := rfl
@[simp] theorem State.addCtx_topo (c : Sys2Proof.Instr) (h : Sys2Proof.CmdHdr) (code bad : Nat) : (s.addCtx c h code bad).topo = s.topo := rfl
@[simp] theorem State.addCtx_flow (c : Sys2Proof.Instr) (h : Sys2Proof.CmdHdr) (code bad : Nat) : (s.addCtx c h code bad).flow = s.flow := rfl
@[simp] theorem State.addCtx_sw (c : Sys2Proof.Instr) (h : Sys2Proof.CmdHdr) (code bad : Nat) : (s.addCtx c h code bad).sw = s.sw := rfl
@[simp] theorem State.addCtx_pool (c : Sys2Proof.Instr) (h : Sys2Proof.CmdHdr) (code bad : Nat) : (s.addCtx c h code bad).pool = s.pool := rfl
@[simp] theorem State.addCtx_eng (c : Sys2Proof.Instr) (h : Sys2Proof.CmdHdr) (code bad : Nat) : (s.addCtx c h code bad).eng = s.eng := rfl
@[simp] theorem State.addCtx_coll (c : Sys2Proof.Instr) (h : Sys2Proof.CmdHdr) (code bad : Nat) : (s.addCtx c h code bad).coll = s.coll := rfl
@[simp] theorem State.addCtx_parm (c : Sys2Proof.Instr) (h : Sys2Proof.CmdHdr) (code bad : Nat) : (s.addCtx c h code bad).parm = s.parm := rfl
@[simp] theorem State.addCtx_stash (c : Sys2Proof.Instr) (h : Sys2Proof.CmdHdr) (code bad : Nat) : (s.addCtx c h code bad).stash = s.stash := rfl
@[simp] theorem State.addCtx_stz (c : Sys2Proof.Instr) (h : Sys2Proof.CmdHdr) (code bad : Nat) : (s.addCtx c h code bad).stz = s.stz := rfl
@[simp] theorem State.addCtx_pwr (c : Sys2Proof.Instr) (h : Sys2Proof.CmdHdr) (code bad : Nat) : (s.addCtx c h code bad).pwr = s.pwr := rfl
@[simp] theorem State.addCtx_ctxUse (c : Sys2Proof.Instr) (h : Sys2Proof.CmdHdr) (code bad : Nat) : (s.addCtx c h code bad).ctxUse = s.ctxUse := rfl
@[simp] theorem State.addCtx_ctxGen (c : Sys2Proof.Instr) (h : Sys2Proof.CmdHdr) (code bad : Nat) : (s.addCtx c h code bad).ctxGen = s.ctxGen := rfl
@[simp] theorem State.addCtx_mem (c : Sys2Proof.Instr) (h : Sys2Proof.CmdHdr) (code bad : Nat) : (s.addCtx c h code bad).mem = s.mem := rfl
@[simp] theorem State.addCtx_undef (c : Sys2Proof.Instr) (h : Sys2Proof.CmdHdr) (code bad : Nat) : (s.addCtx c h code bad).undef = s.undef := rfl
@[simp] theorem State.addCtx_out (c : Sys2Proof.Instr) (h : Sys2Proof.CmdHdr) (code bad : Nat) : (s.addCtx c h code bad).out = s.out := rfl

/-! ### State.sideTake -/

@[simp] theorem State.sideTake_pending : (s.sideTake).pending = s.pending := rfl
@[simp] theorem State.sideTake_fresh : (s.sideTake).fresh = s.fresh := rfl
@[simp] theorem State.sideTake_regs : (s.sideTake).regs = s.regs := rfl
@[simp] theorem State.sideTake_tick : (s.sideTake).tick = s.tick := rfl
@[simp] theorem State.sideTake_link : (s.sideTake).link = s.link := rfl
@[simp] theorem State.sideTake_boot : (s.sideTake).boot = s.boot := rfl
@[simp] theorem State.sideTake_flt : (s.sideTake).flt = s.flt := rfl
@[simp] theorem State.sideTake_mgt : (s.sideTake).mgt = s.mgt := rfl
@[simp] theorem State.sideTake_topo : (s.sideTake).topo = s.topo := rfl
@[simp] theorem State.sideTake_flow : (s.sideTake).flow = s.flow := rfl
@[simp] theorem State.sideTake_sw : (s.sideTake).sw = s.sw := rfl
@[simp] theorem State.sideTake_pool : (s.sideTake).pool = s.pool := rfl
@[simp] theorem State.sideTake_eng : (s.sideTake).eng = s.eng := rfl
@[simp] theorem State.sideTake_coll : (s.sideTake).coll = s.coll := rfl
@[simp] theorem State.sideTake_parm : (s.sideTake).parm = s.parm := rfl
@[simp] theorem State.sideTake_stash : (s.sideTake).stash = s.stash := rfl
@[simp] theorem State.sideTake_stz : (s.sideTake).stz = s.stz := rfl
@[simp] theorem State.sideTake_pwr : (s.sideTake).pwr = s.pwr := rfl
@[simp] theorem State.sideTake_ctxUse : (s.sideTake).ctxUse = s.ctxUse := rfl
@[simp] theorem State.sideTake_ctxGen : (s.sideTake).ctxGen = s.ctxGen := rfl
@[simp] theorem State.sideTake_mem : (s.sideTake).mem = s.mem := rfl
@[simp] theorem State.sideTake_undef : (s.sideTake).undef = s.undef := rfl
@[simp] theorem State.sideTake_out : (s.sideTake).out = s.out := rfl

end Sys2Proof.Machine
end

