-- ==== Sys2Proof/Laws/Commands.lean ====
section
/-! SUPPORT. What a host's command that is taken at once does: it runs by its own rule, and completes or waits. -/

namespace Sys2Proof.Machine

open Sys2Proof (Instr CmdHdr Path Ref)

/-- A calm state settles at once. -/
theorem State.settle_of_calm {s : State} (h : s.calm = true) : s.settle = s := by simp [State.settle, h]

/-- The row of a host's command submits it. -/
theorem exec_command {c : Instr} {code : Nat} {h : CmdHdr} (hc : cmdOf c = some (code, h)) (s : State) :
    exec c s = .next (s.submit h c) := by
  cases c <;> simp only [cmdOf, Option.some.injEq, Prod.mk.injEq, reduceCtorEq] at hc <;> obtain ⟨-, rfl⟩ := hc <;> rfl

/-- A lone command is not blocked. -/
theorem State.lone_not_blocked {s : State} {x y : Ctx} (h : s.host.ctxs = [y]) (hid : y.id = x.id) :
    s.blocked x = false := by
  simp [State.blocked, h, hid]

/-- The checks of Table 13.5 look at no context and at no sideband. -/
theorem State.checks_setHost {s : State} {x : Ctx} {f : HostSt → HostSt} (hj : (f s.host).jobs = s.host.jobs)
    (hd : (f s.host).disables = s.host.disables) : (s.setHost f).checks x = s.checks x := by
  unfold State.checks
  have h1 : (s.setHost f).isSafe = s.isSafe := rfl
  have h2 : ∀ c code p, (s.setHost f).phaseOk c code p = s.phaseOk c code p := fun _ _ _ => rfl
  have h3 : ∀ c code p, (s.setHost f).pathOk c code p = s.pathOk c code p := by
    intro c code p
    cases p <;> first | rfl | (simp only [State.pathOk, State.ownJob, State.setHost_host, hj]; try rfl)
  have h4 : ∀ c, (s.setHost f).argsOk c = s.argsOk c := fun _ => rfl
  have h5 : ∀ t, (s.setHost f).tickRefusal t = s.tickRefusal t := fun _ => rfl
  have h6 : ∀ f' j, (s.setHost f).disabled f' j = s.disabled f' j := by
    intro f' j; simp only [State.disabled, State.setHost_host, hd]
  have h7 : ∀ c, (s.setHost f).progJob c = s.progJob c := fun _ => rfl
  simp only [h1, h2, h3, h4, h5, h6, h7, State.setHost_host, hj]

/-- An arriving command of an idle device enters its context and starts. -/
theorem State.arrive_idle {s : State} {c : Instr} {h : CmdHdr} (hs : s.host.ctxs = []) (he : h.effTick = 0)
    (hb : (s.ticking && s.atBoundary c) = false) (hc : s.checks (s.ctxFor c h) = none) :
    s.arrive c h (codeOf c) 0 = (s.setHost fun t => { t with
      ctxs := [{ s.ctxFor c h with state := .started (.object false) }], nextId := t.nextId + 1 }).perform (s.ctxFor c h) := by
  let g : HostSt → HostSt := fun t => { t with
    ctxs := [{ s.ctxFor c h with state := .started (.object false) }], nextId := t.nextId + 1 }
  have h1 : ((s.addCtx c h (codeOf c) 0).setCtx s.host.nextId fun y => { y with state := .started (.object false) }) =
      s.setHost g := by
    simp [State.addCtx, State.setCtx, State.setHost, hs, State.ctxFor, g]
  have h3 : (s.setHost g).blocked (s.ctxFor c h) = false := State.lone_not_blocked rfl rfl
  have h4 : (s.setHost g).checks (s.ctxFor c h) = none := by rw [State.checks_setHost rfl rfl]; exact hc
  have h8 : ((s.setHost g).ticking && (s.setHost g).atBoundary c) = false := hb
  have h9 : s.arrive c h (codeOf c) 0 = (s.addCtx c h (codeOf c) 0).start (s.ctxFor c h) := by
    simp only [State.arrive, hs, List.isEmpty_nil, if_true]; rfl
  have h10 : (s.addCtx c h (codeOf c) 0).start (s.ctxFor c h) = (s.setHost g).ready (s.ctxFor c h) false := by
    unfold State.start
    rw [show (s.ctxFor c h).id = s.host.nextId from rfl, h1]
    simp only [h4]
    rw [if_neg (by simp [State.ctxFor, he])]
  rw [h9, h10]
  unfold State.ready
  rw [if_neg (by simp [h3]), if_neg (by simpa [State.ctxFor] using h8)]

/-- A command that is taken at once runs on the state in which it has entered its context. -/
theorem exec_takesNow {s : State} {c : Instr} {code : Nat} {h : CmdHdr} (hc : cmdOf c = some (code, h))
    (ht : s.takesNow c h = true) :
    exec c s = .next ((s.withCommand c h).perform (s.ctxFor c h)).settle := by
  simp only [State.takesNow, Bool.and_eq_true, Bool.not_eq_true', List.isEmpty_iff, beq_iff_eq,
    Option.isNone_iff_eq_none] at ht
  obtain ⟨⟨⟨⟨⟨ha, hx⟩, hp⟩, he⟩, hb⟩, hk⟩ := ht
  rw [exec_command hc]
  have key := State.arrive_idle hx he hb hk
  cases hpath : h.path with
  | mailbox m =>
    have hm : ¬ 64 ≤ m := by simpa [State.pathFree, hpath] using hp
    simp [State.submit, ha, hpath, hm, key, State.withCommand]
  | sideband =>
    have hq : s.host.side.busy = false := by simpa [State.pathFree, hpath] using hp
    have key' := State.arrive_idle (s := s.sideTake) (c := c) (h := h) hx he hb
      (by rw [← hk]; exact State.checks_setHost rfl rfl)
    simp [State.submit, ha, hpath, hq, State.withCommand]
    exact congrArg _ key'
  | fabric _ _ _ _ _ =>
    simp [State.submit, ha, hpath, key, State.withCommand]

/-- A command that passes the checks names no unknown job. -/
theorem State.job_of_checks {s : State} {x : Ctx} (h : s.checks x = none) :
    (match jobNamed x.cmd with
      | some j => (s.host.jobs.get? j).isNone
      | none => false) = false := by
  cases hj : jobNamed x.cmd with
  | none => rfl
  | some j =>
    cases hg : (s.host.jobs.get? j).isNone with
    | false => exact hg
    | true =>
      simp only [State.checks, hj, hg, if_true] at h
      repeat' (split at h)
      all_goals simp at h

/-- The own rule of a command that is taken at once is judged on the state with the command in it. -/
theorem perform_takesNow {s : State} {c : Instr} {h : CmdHdr} (ht : s.takesNow c h = true) :
    (s.withCommand c h).perform (s.ctxFor c h) =
      match (s.withCommand c h).runCmd c h with
      | (.done st detail result none, s') => s'.complete (s.ctxFor c h) st detail result
      | (.done st detail result (some (r, bytes)), s') =>
        (match s'.writeRef c h r bytes with
        | (true, s'') => s''.complete (s.ctxFor c h) st detail result
        | (false, s'') => s''.complete (s.ctxFor c h) (s'.refStatus r bytes.length))
      | (.wait k result made, s') =>
        s'.setCtx s.host.nextId fun y => { y with state := .started k, result := result, made := made } := by
  simp only [State.takesNow, Bool.and_eq_true, Option.isNone_iff_eq_none] at ht
  have hj := State.job_of_checks ht.2
  have hw : (s.withCommand c h).host.jobs = s.host.jobs := by
    unfold State.withCommand; split <;> rfl
  unfold State.perform
  rw [if_neg]
  · rfl
  · rw [hw]
    cases hn : jobNamed (s.ctxFor c h).cmd with
    | none => simp
    | some j => rw [hn] at hj; exact ne_of_eq_of_ne hj (by decide)

/-- A command whose own rule is over completes. -/
theorem completes_of_run {s u : State} {c : Instr} {h : CmdHdr} {code st detail : Nat} {result : List Byte}
    (hc : cmdOf c = some (code, h)) (ht : s.takesNow c h = true)
    (hr : (s.withCommand c h).runCmd c h = (.done st detail result none, u)) : Completes s c h u st result detail := by
  rw [Completes, exec_takesNow hc ht, perform_takesNow ht, hr]

/-- A command with output whose write succeeds completes. -/
theorem completes_of_output {s u v : State} {c : Instr} {h : CmdHdr} {code st detail : Nat} {result : List Byte} {r : Ref}
    {bytes : List Byte} (hc : cmdOf c = some (code, h)) (ht : s.takesNow c h = true)
    (hr : (s.withCommand c h).runCmd c h = (.done st detail result (some (r, bytes)), u))
    (hw : u.writeRef c h r bytes = (true, v)) : Completes s c h v st result detail := by
  rw [Completes, exec_takesNow hc ht, perform_takesNow ht, hr]
  simp only [hw]

/-- A command whose own rule waits stays in its context. -/
theorem waits_of_run {s u : State} {c : Instr} {h : CmdHdr} {code : Nat} {k : WaitKey} {result : List Byte}
    {made : Option Nat} (hc : cmdOf c = some (code, h)) (ht : s.takesNow c h = true)
    (hr : (s.withCommand c h).runCmd c h = (.wait k result made, u)) : Waits s c u k result made := by
  rw [Waits, exec_takesNow hc ht, perform_takesNow ht, hr]

/-- The state with a command in it differs from the one without in the host side alone. -/
theorem State.withCommand_eq (s : State) (c : Instr) (h : CmdHdr) :
    s.withCommand c h = s.setHost fun t => { t with
      side := if h.path = .sideband then { t.side with busy := true, ready := false, count := t.side.count + 1 } else t.side
      ctxs := [{ s.ctxFor c h with state := .started (.object false) }]
      nextId := t.nextId + 1 } := by
  unfold State.withCommand; split <;> rfl

/-- A command whose own rule ends with OK ends. -/
theorem ends_of_run {s u : State} {c : Instr} {h : CmdHdr} {code : Nat} {result : List Byte} {ch : List Part}
    {P : State → Prop}
    (hc : cmdOf c = some (code, h)) (ht : s.takesNow c h = true)
    (hr : (s.withCommand c h).runCmd c h = (.done 0 0 result none, u))
    (hk : (s.withCommand c h).keepsBut ch u) (hp : P u) : Ends s c h result ch P :=
  ⟨u, completes_of_run hc ht hr, hk, hp⟩

/-- A command whose own rule refuses it is refused. -/
theorem refuses_of_run {s : State} {c : Instr} {h : CmdHdr} {code st d : Nat}
    (hc : cmdOf c = some (code, h)) (ht : s.takesNow c h = true)
    (hr : (s.withCommand c h).runCmd c h = (.done st d [] none, s.withCommand c h)) : Refuses s c h st d :=
  completes_of_run hc ht hr

/-- A command whose own rule reports a record reports it. -/
theorem reports_of_run {s u : State} {c : Instr} {h : CmdHdr} {code : Nat} {r : Ref} {rec : List Byte}
    (hc : cmdOf c = some (code, h)) (ht : s.takesNow c h = true)
    (hr : (s.withCommand c h).runCmd c h = reports u r rec) : Reports s c h u r rec := by
  constructor
  · intro hl
    refine completes_of_run hc ht ?_
    rw [hr]; simp [reports, hl, denied]
  · intro hl
    unfold Completes
    rw [exec_takesNow hc ht, perform_takesNow ht, hr]
    simp only [reports, Nat.not_lt.2 hl, if_false]
    cases u.writeRef c h r rec with
    | mk a b => cases a <;> rfl
end Sys2Proof.Machine
end

