-- ==== Sys2Proof/Laws/Word.lean ====
section
/-! SUPPORT. Laws of the sparse maps, of byte packing and of serial numbers. -/

namespace Sys2Proof

namespace NMap

variable {α : Type}

/-- The canonical form: keys strictly rising. -/
def Rising (m : NMap α) : Prop := (m.map Prod.fst).Pairwise (· < ·)

@[simp] theorem get?_nil (k : Nat) : get? ([] : NMap α) k = none := rfl

theorem get?_cons (k k' : Nat) (v : α) (m : NMap α) : get? ((k', v) :: m) k = if k' = k then some v else get? m k := rfl

/-- Reading the key just set. -/
@[simp] theorem get?_set (m : NMap α) (k : Nat) (v : α) : (set m k v).get? k = some v := by
  induction m with
  | nil => simp [set, get?]
  | cons kv m ih =>
    obtain ⟨k', v'⟩ := kv
    unfold set
    split
    · simp [get?]
    · split
      · simp [get?]
      · rename_i h; simp [get?, Ne.symm h, ih]

/-- Setting a key leaves the others. -/
theorem get?_set_ne (m : NMap α) {j k : Nat} (v : α) (h : j ≠ k) : (set m k v).get? j = m.get? j := by
  induction m with
  | nil => simp [set, get?, Ne.symm h]
  | cons kv m ih =>
    obtain ⟨k', v'⟩ := kv
    unfold set
    split
    · simp [get?, Ne.symm h]
    · split
      · rename_i _ hk; subst hk; simp [get?, Ne.symm h]
      · simp [get?, ih]

/-- Erasing a key leaves the others. -/
theorem get?_erase_ne (m : NMap α) {j k : Nat} (h : j ≠ k) : (erase m k).get? j = m.get? j := by
  induction m with
  | nil => rfl
  | cons kv m ih =>
    obtain ⟨k', v'⟩ := kv
    unfold erase
    split
    · rename_i hk; subst hk; simp [get?, Ne.symm h, ih]
    · simp [get?, ih]

@[simp] theorem getD_set (m : NMap α) (k : Nat) (v d : α) : (set m k v).getD k d = v := by simp [NMap.getD]

theorem getD_set_ne (m : NMap α) {j k : Nat} (v d : α) (h : j ≠ k) : (set m k v).getD j d = m.getD j d := by
  simp [NMap.getD, get?_set_ne m v h]

@[simp] theorem getD_upd (m : NMap α) (k : Nat) (d : α) (f : α → α) : (upd m k d f).getD k d = f (m.getD k d) := by
  simp [upd]

theorem getD_upd_ne (m : NMap α) {j k : Nat} (d e : α) (f : α → α) (h : j ≠ k) : (upd m k d f).getD j e = m.getD j e := by
  simp [upd, getD_set_ne _ _ _ h]

/-- A key below every key is not held. -/
theorem get?_of_lt {m : NMap α} {k : Nat} (h : ∀ x ∈ m, k < x.1) : m.get? k = none := by
  induction m with
  | nil => rfl
  | cons kv m ih =>
    have h1 := h kv (by simp)
    have h2 : kv.1 ≠ k := by omega
    rw [show kv :: m = (kv.1, kv.2) :: m from rfl, get?_cons, if_neg h2]
    exact ih fun x hx => h x (by simp [hx])

/-- An erased key is gone. -/
@[simp] theorem get?_erase (m : NMap α) (k : Nat) : (erase m k).get? k = none := by
  induction m with
  | nil => rfl
  | cons kv m ih =>
    obtain ⟨k', v'⟩ := kv
    unfold erase
    split
    · exact ih
    · rename_i hk
      simp [get?, hk, ih]

/-- The keys of a map with a key set. -/
theorem mem_set {m : NMap α} {k : Nat} {v : α} {x : Nat × α} (h : x ∈ set m k v) : x = (k, v) ∨ x ∈ m := by
  induction m with
  | nil => simpa [set] using h
  | cons kv m ih =>
    obtain ⟨k', v'⟩ := kv
    unfold set at h
    split at h
    · simpa using h
    · split at h
      · rcases List.mem_cons.1 h with h | h
        · exact .inl h
        · exact .inr (by simp [h])
      · rcases List.mem_cons.1 h with h | h
        · exact .inr (by simp [h])
        · rcases ih h with h | h
          · exact .inl h
          · exact .inr (by simp [h])

theorem mem_erase {m : NMap α} {k : Nat} {x : Nat × α} (h : x ∈ erase m k) : x ∈ m := by
  induction m with
  | nil => simp [erase] at h
  | cons kv m ih =>
    obtain ⟨k', v'⟩ := kv
    unfold erase at h
    split at h
    · simp [ih h]
    · rcases List.mem_cons.1 h with h | h
      · simp [h]
      · simp [ih h]

/-- Setting a key keeps the canonical form. -/
theorem Rising.set {m : NMap α} (h : m.Rising) (k : Nat) (v : α) : (m.set k v).Rising := by
  induction m with
  | nil => simp [NMap.set, Rising]
  | cons kv m ih =>
    obtain ⟨k', v'⟩ := kv
    have h' := h
    simp only [Rising, List.map_cons, List.pairwise_cons] at h
    unfold NMap.set
    split
    · rename_i hk
      simp only [Rising, List.map_cons, List.pairwise_cons]
      refine ⟨?_, h⟩
      intro a ha
      rcases List.mem_cons.1 ha with rfl | ha
      · exact hk
      · exact lt_trans hk (h.1 a ha)
    · split
      · rename_i _ hk
        subst hk
        exact h'
      · rename_i hlt hne
        simp only [Rising, List.map_cons, List.pairwise_cons]
        refine ⟨?_, ih h.2⟩
        intro a ha
        obtain ⟨x, hx, rfl⟩ := List.mem_map.1 ha
        rcases mem_set hx with rfl | hx
        · have h2 : k ≠ k' := hne
          simp only
          omega
        · exact h.1 _ (List.mem_map_of_mem hx)

/-- Erasing a key keeps the canonical form. -/
theorem Rising.erase {m : NMap α} (h : m.Rising) (k : Nat) : (m.erase k).Rising := by
  induction m with
  | nil => exact h
  | cons kv m ih =>
    obtain ⟨k', v'⟩ := kv
    simp only [Rising, List.map_cons, List.pairwise_cons] at h
    unfold NMap.erase
    split
    · exact ih h.2
    · simp only [Rising, List.map_cons, List.pairwise_cons]
      refine ⟨?_, ih h.2⟩
      intro a ha
      obtain ⟨x, hx, rfl⟩ := List.mem_map.1 ha
      exact h.1 _ (List.mem_map_of_mem (mem_erase hx))

end NMap

/-- `n` bytes are `n` long. -/
@[simp] theorem leBytes_length (n v : Nat) : (leBytes n v).length = n := by
  induction n generalizing v with
  | zero => rfl
  | succ n ih => simp [leBytes, ih]

/-- Packing and unpacking loses only what lies above the width. -/
theorem leNat_leBytes (n v : Nat) : leNat (leBytes n v) = v % 256 ^ n := by
  induction n generalizing v with
  | zero => simp [leBytes, leNat, Nat.mod_one]
  | succ n ih =>
    simp only [leBytes, leNat, ih, BitVec.toNat_ofNat]
    rw [show 2 ^ 8 = 256 by norm_num, show 256 ^ (n + 1) = 256 * 256 ^ n by ring, Nat.mod_mul]

@[simp] theorem zeros_length (n : Nat) : (zeros n).length = n := by simp [zeros]

@[simp] theorem padTo_length (n : Nat) (bs : List Byte) : (padTo n bs).length = n := by
  simp [padTo]; omega

end Sys2Proof
end

