-- ==== Sys2Proof/Laws/Memory.lean ====
section
/-! SUPPORT. Device memory: every operation on it keeps the canonical form. -/

namespace Sys2Proof.Machine

/-- The canonical form is that of the sparse maps, with no listed zero. -/
theorem Memory.wf_iff (m : List Host.Cell) : Memory.wf m ↔ NMap.Rising m ∧ ∀ c ∈ m, c.2 ≠ 0 := Iff.rfl

theorem Memory.wf_nil : Memory.wf [] := ⟨List.Pairwise.nil, by simp⟩

/-- A written byte keeps the canonical form. -/
theorem Memory.write_wf {m : List Host.Cell} (h : Memory.wf m) (a : Nat) (b : Byte) : Memory.wf (Memory.write m a b) := by
  unfold Memory.write
  split
  · exact ⟨NMap.Rising.erase h.1 a, fun c hc => h.2 c (NMap.mem_erase hc)⟩
  · rename_i hb
    refine ⟨NMap.Rising.set h.1 a b, fun c hc => ?_⟩
    rcases NMap.mem_set hc with rfl | hc
    · exact hb
    · exact h.2 c hc

/-- Written bytes keep the canonical form. -/
theorem Memory.writes_wf {m : List Host.Cell} (h : Memory.wf m) (a : Nat) (bs : List Byte) :
    Memory.wf (Memory.writes m a bs) := by
  induction bs generalizing m a with
  | nil => exact h
  | cons b bs ih => exact ih (Memory.write_wf h a b) (a + 1)

/-- Taking entries away keeps the canonical form. -/
theorem Memory.filter_wf {m : List Host.Cell} (h : Memory.wf m) (p : Host.Cell → Bool) : Memory.wf (m.filter p) :=
  ⟨h.1.sublist (List.filter_sublist.map _), fun c hc => h.2 c (List.mem_filter.1 hc).1⟩

/-- Bytes written through the gates keep the canonical form. -/
theorem State.writeMem_wf {s : State} (h : Memory.wf s.mem) (a : Nat) (bs : List Byte) : Memory.wf (s.writeMem a bs).mem := by
  unfold State.writeMem
  split
  · exact h
  · exact Memory.writes_wf h a bs

/-- What is left of an undefined range has no byte of the ones written. -/
theorem cutRange_has {a n b : Nat} {r q : Nat × Nat × Nat} (h : q ∈ cutRange a n r) :
    rangeHas b q = true → rangeHas b r = true ∧ (b < a ∨ a + n ≤ b) ∧ q.2.2 = r.2.2 := by
  simp only [cutRange, rangeHas, Bool.and_eq_true, decide_eq_true_eq] at *
  split at h
  · rw [List.mem_singleton] at h; subst h; intro _; refine ⟨by omega, ?_, rfl⟩; omega
  · intro _
    rcases List.mem_append.1 h with h | h <;> split at h <;> simp at h <;> subst h <;> simp_all <;> omega

/-- A written byte is no longer undefined. -/
theorem undef_written {l : List (Nat × Nat × Nat)} {a n b : Nat} (h1 : a ≤ b) (h2 : b < a + n) :
    (l.flatMap (cutRange a n)).find? (rangeHas b) = none := by
  rw [List.find?_eq_none]
  intro q hq hb
  obtain ⟨r, -, hr⟩ := List.mem_flatMap.1 hq
  have := (cutRange_has hr hb).2.1
  omega

/-- Of one range, what is found at a byte outside the written ones is as before. -/
theorem cutRange_elsewhere {a n b : Nat} (h : b < a ∨ a + n ≤ b) (r : Nat × Nat × Nat) :
    ((cutRange a n r).find? (rangeHas b)).map (fun q => q.2.2) = if rangeHas b r = true then some r.2.2 else none := by
  obtain ⟨x, y, d⟩ := r
  simp only [cutRange]
  split
  · by_cases hr : rangeHas b (x, y, d) = true <;> simp [List.find?_cons, hr]
  · rename_i hc
    simp only [not_or] at hc
    by_cases h1 : x < a <;> by_cases h2 : a + n < x + y <;>
      simp only [h1, h2, if_true, if_false, List.nil_append, List.append_nil, List.singleton_append, List.find?_cons,
        List.find?_nil, rangeHas, Bool.and_eq_true, decide_eq_true_eq] <;>
      (repeat' split) <;> simp_all <;> omega

/-- What is found at a byte outside the written ones is as before. -/
theorem undef_elsewhere {a n b : Nat} (h : b < a ∨ a + n ≤ b) (l : List (Nat × Nat × Nat)) :
    ((l.flatMap (cutRange a n)).find? (rangeHas b)).map (fun q => q.2.2) = (l.find? (rangeHas b)).map fun q => q.2.2 := by
  induction l with
  | nil => rfl
  | cons r l ih =>
    rw [List.flatMap_cons, List.find?_append, List.find?_cons]
    have hr := cutRange_elsewhere h r
    cases hq : (cutRange a n r).find? (rangeHas b) <;> cases hb : rangeHas b r <;> simp_all

/-- Where nothing is undefined a read gives the listed byte, or zero. -/
theorem State.byte_of_defined {s : State} (h : s.undef = []) (a : Nat) : s.byte a = Memory.read s.mem a := by
  simp [State.byte, h]

/-- A byte of the ones just written reads as the list says. -/
theorem State.byte_written {s : State} (hs : s.isSafe = false) (a : Nat) (bs : List Byte) {b : Nat} (h1 : a ≤ b)
    (h2 : b < a + bs.length) : (s.writeMem a bs).byte b = Memory.read (Memory.writes s.mem a bs) b := by
  simp [State.byte, State.writeMem, hs, undef_written h1 h2]

/-- A cleared range keeps the canonical form. -/
theorem State.clearMem_wf {s : State} (h : Memory.wf s.mem) (a n : Nat) : Memory.wf (s.clearMem a n).mem :=
  Memory.filter_wf h _

end Sys2Proof.Machine
end

