-- ==== Sys2Proof/Laws/Keeps.lean ====
section
/-! SUPPORT. What every operation of the module keeps: the queue of waiting commands as it was, and the memory's form. -/

namespace Sys2Proof.Machine

/-- `t`, reached from `z`, has the same commands waiting, and a memory in the canonical form if `z` has. -/
def Keeps (z t : State) : Prop := t.pending = z.pending ∧ (Memory.wf z.mem → Memory.wf t.mem)

theorem Keeps.rfl' (z : State) : Keeps z z := ⟨rfl, id⟩

/-- A state written out with the queue and the memory of a kept one is kept. -/
theorem Keeps.lit {z s : State} (h : Keeps z s)
    (a1 a2 a3 a4 a5 a6 a7 a8 a9 a10 a11 a12 a13 a14 a15 a16 a17 a18 a19 a20 a21 a22) :
    Keeps z (State.mk s.pending a1 a2 a3 a4 a5 a6 a7 a8 a9 a10 a11 a12 a13 a14 a15 a16 a17 a18 a19 a20 s.mem a21 a22) := h

/-- So is one whose memory is cleared. -/
theorem Keeps.litNil {z s : State} (h : Keeps z s)
    (a1 a2 a3 a4 a5 a6 a7 a8 a9 a10 a11 a12 a13 a14 a15 a16 a17 a18 a19 a20 a21 a22) :
    Keeps z (State.mk s.pending a1 a2 a3 a4 a5 a6 a7 a8 a9 a10 a11 a12 a13 a14 a15 a16 a17 a18 a19 a20 [] a21 a22) :=
  ⟨h.1, fun _ => Memory.wf_nil⟩

theorem Keeps.ite2 {α : Type} {z : State} {c : Prop} [Decidable c] {a b : α × State} (ha : Keeps z a.2)
    (hb : Keeps z b.2) : Keeps z (if c then a else b).2 := by split <;> assumption

/-- A loop keeps what each of its turns keeps. -/
theorem Keeps.foldl {α : Type} {z : State} {f : State → α → State} {l : List α} {s : State} (hs : Keeps z s)
    (h : ∀ s x, Keeps z s → Keeps z (f s x)) : Keeps z (l.foldl f s) := by
  induction l generalizing s with
  | nil => exact hs
  | cons a l ih => exact ih (h _ _ hs)

theorem Keeps.foldlPair {α β : Type} {z : State} {f : β × State → α → β × State} {l : List α} {s : β × State}
    (hs : Keeps z s.2) (h : ∀ s x, Keeps z s.2 → Keeps z (f s x).2) : Keeps z (l.foldl f s).2 := by
  induction l generalizing s with
  | nil => exact hs
  | cons a l ih => exact ih (h _ _ hs)

theorem Keeps.foldlPair2 {α β γ : Type} {z : State} {f : β × γ × State → α → β × γ × State} {l : List α}
    {s : β × γ × State} (hs : Keeps z s.2.2) (h : ∀ s x, Keeps z s.2.2 → Keeps z (f s x).2.2) :
    Keeps z (l.foldl f s).2.2 := by
  induction l generalizing s with
  | nil => exact hs
  | cons a l ih => exact ih (h _ _ hs)

theorem Keeps.foldrS {α : Type} {z : State} {f : α → State → State} {l : List α} {s : State} (hs : Keeps z s)
    (h : ∀ x s, Keeps z s → Keeps z (f x s)) : Keeps z (l.foldr f s) := by
  induction l with
  | nil => exact hs
  | cons a l ih => exact h _ _ ih

theorem State.writeMem_keeps {z s : State} (h : Keeps z s) (a : Nat) (bs : List Byte) : Keeps z (s.writeMem a bs) := by
  refine ⟨?_, fun hz => State.writeMem_wf (h.2 hz) a bs⟩
  unfold State.writeMem; split <;> exact h.1

theorem State.undefine_keeps {z s : State} (h : Keeps z s) (a n : Nat) : Keeps z (s.undefine a n) := h

theorem State.clearMem_keeps {z s : State} (h : Keeps z s) (a n : Nat) : Keeps z (s.clearMem a n) :=
  ⟨h.1, fun hz => State.clearMem_wf (h.2 hz) a n⟩

end Sys2Proof.Machine
end

