-- ==== Sys2Proof/Laws/KeepsFlows.lean ====
section
/-! SUPPORT. What the module does leaves the queue of commands alone and the memory in its form: counters, records,
the log, pools, frames, flows and the switch. -/

namespace Sys2Proof.Machine

theorem State.setReg_keeps : ∀ z s a1 a2 a3, Keeps z s → Keeps z (State.setReg s a1 a2 a3) :=
  fun _ _ _ _ _ h => h

theorem State.bump_keeps : ∀ z s a1 a2 a3, Keeps z s → Keeps z (State.bump s a1 a2 a3) := by
  intros; unfold State.bump
  repeat' first | (with_reducible first | assumption | apply State.setReg_keeps)

theorem State.draw_keeps : ∀ z s, Keeps z s → Keeps z (State.draw s).2 :=
  fun _ _ h => h

theorem State.stamped_keeps : ∀ z s, Keeps z s → Keeps z (State.stamped s) :=
  fun _ _ h => h

theorem State.emit_keeps : ∀ z s a1, Keeps z s → Keeps z (State.emit s a1) :=
  fun _ _ _ h => h

theorem State.sendEvent_keeps : ∀ z s a1 a2, Keeps z s → Keeps z (State.sendEvent s a1 a2) := by
  intros; unfold State.sendEvent; (try dsimp only)
  repeat' first
    | (with_reducible first
        | assumption | apply State.stamped_keeps | apply State.emit_keeps | apply State.bump_keeps)
    | split

theorem State.logOnChip_keeps : ∀ z s a1, Keeps z s → Keeps z (State.logOnChip s a1) := by
  intros; unfold State.logOnChip; (try dsimp only)
  repeat' first
    | (with_reducible first
        | assumption | apply State.bump_keeps | apply Keeps.foldl)
    | intro _ | split | (fail_if_no_progress with_reducible apply Keeps.lit)

theorem State.logPersist_keeps : ∀ z s a1, Keeps z s → Keeps z (State.logPersist s a1) := by
  intros; unfold State.logPersist; (try dsimp only)
  repeat' first
    | (with_reducible first
        | assumption | apply State.bump_keeps | apply Keeps.foldl)
    | intro _ | split | (fail_if_no_progress with_reducible apply Keeps.lit)

theorem State.logPersistRated_keeps : ∀ z s a1, Keeps z s → Keeps z (State.logPersistRated s a1) := by
  intros; unfold State.logPersistRated; (try dsimp only)
  repeat' first
    | (with_reducible first
        | assumption | apply State.bump_keeps | apply State.logPersist_keeps | apply Keeps.foldl)
    | intro _ | split | (fail_if_no_progress with_reducible apply Keeps.lit)

theorem State.event_keeps : ∀ z s a1 a2 a3 a4 a5 a6, Keeps z s → Keeps z (State.event s a1 a2 a3 a4 a5 a6) := by
  intros; unfold State.event; (try dsimp only)
  repeat' first
    | (with_reducible first
        | assumption | apply State.stamped_keeps | apply State.logPersistRated_keeps | apply State.logOnChip_keeps
        | apply State.sendEvent_keeps | apply Keeps.foldl)
    | intro _ | split | (fail_if_no_progress with_reducible apply Keeps.lit)

theorem State.report_keeps : ∀ z s a1 a2, Keeps z s → Keeps z (State.report s a1 a2) :=
  fun _ _ _ _ h => h

theorem State.useCtx_keeps : ∀ z s a1 a2, Keeps z s → Keeps z (State.useCtx s a1 a2) :=
  fun _ _ _ _ h => h

theorem State.dropCtx_keeps : ∀ z s a1, Keeps z s → Keeps z (State.dropCtx s a1) :=
  fun _ _ _ h => h

theorem State.newGen_keeps : ∀ z s a1, Keeps z s → Keeps z (State.newGen s a1) :=
  fun _ _ _ h => h

theorem State.setChannel_keeps : ∀ z s a1 a2, Keeps z s → Keeps z (State.setChannel s a1 a2) :=
  fun _ _ _ _ h => h

theorem State.assignSubstitutes_keeps : ∀ z s, Keeps z s → Keeps z (State.assignSubstitutes s) := by
  intros; unfold State.assignSubstitutes; (try dsimp only)
  repeat' first
    | (with_reducible first
        | assumption | apply State.setChannel_keeps | apply Keeps.foldl)
    | intro _ | split | (fail_if_no_progress with_reducible apply Keeps.lit)

theorem State.workEnded_keeps : ∀ z s a1 a2 a3, Keeps z s → Keeps z (State.workEnded s a1 a2 a3) :=
  fun _ _ _ _ _ h => h

theorem State.setGroup_keeps : ∀ z s a1, Keeps z s → Keeps z (State.setGroup s a1) :=
  fun _ _ _ h => h

theorem State.dropGroup_keeps : ∀ z s a1 a2, Keeps z s → Keeps z (State.dropGroup s a1 a2) :=
  fun _ _ _ _ h => h

theorem State.noteLow_keeps : ∀ z s a1 a2 a3, Keeps z s → Keeps z (State.noteLow s a1 a2 a3) :=
  fun _ _ _ _ _ h => h

theorem State.giveCells_keeps : ∀ z s a1 a2, Keeps z s → Keeps z (State.giveCells s a1 a2) :=
  fun _ _ _ _ h => h

theorem State.poolRefused_keeps : ∀ z s a1 a2 a3 a4 a5 a6, Keeps z s → Keeps z (State.poolRefused s a1 a2 a3 a4 a5
    a6) := by
  intros; unfold State.poolRefused; (try dsimp only)
  repeat' first
    | (with_reducible first
        | assumption | apply State.event_keeps | apply State.report_keeps | apply Keeps.foldl
        | apply Keeps.foldlPair | apply Keeps.foldlPair2)
    | intro _ | split

theorem State.poolFail_keeps : ∀ z s a1 a2 a3 a4 a5 a6, Keeps z s → Keeps z (State.poolFail s a1 a2 a3 a4 a5 a6) := by
  intros; unfold State.poolFail; (try dsimp only)
  repeat' first
    | (with_reducible first
        | assumption | apply State.bump_keeps | apply State.poolRefused_keeps | apply Keeps.foldl
        | apply Keeps.foldlPair | apply Keeps.foldlPair2)
    | intro _ | split

theorem State.grantSett_keeps : ∀ z s a1 a2 a3 a4 a5, Keeps z s → Keeps z (State.grantSett s a1 a2 a3 a4 a5) := by
  intros; unfold State.grantSett; (try dsimp only)
  repeat' first
    | (with_reducible first
        | assumption | apply State.bump_keeps | apply State.noteLow_keeps | apply Keeps.foldl
        | apply Keeps.foldlPair | apply Keeps.foldlPair2)
    | intro _ | split | (fail_if_no_progress with_reducible apply Keeps.lit)

theorem State.allocCell_keeps : ∀ z s a1 a2, Keeps z s → Keeps z (State.allocCell s a1 a2).2.2 := by
  intros; unfold State.allocCell
  repeat' first
    | (with_reducible first
        | assumption | apply State.giveCells_keeps | apply State.poolFail_keeps | apply Keeps.foldl
        | apply Keeps.foldlPair | apply Keeps.foldlPair2)
    | intro _ | split

theorem State.alloc_keeps : ∀ z s a1 a2 a3 a4 a5, Keeps z s → Keeps z (State.alloc s a1 a2 a3 a4 a5).2.2 := by
  intros; unfold State.alloc
  repeat' first
    | (with_reducible first
        | assumption | apply State.poolFail_keeps | apply State.grantSett_keeps | apply State.allocCell_keeps
        | apply Keeps.foldl | apply Keeps.foldlPair | apply Keeps.foldlPair2)
    | intro _ | split

theorem State.returnSett_keeps : ∀ z s a1 a2, Keeps z s → Keeps z (State.returnSett s a1 a2) := by
  intros; unfold State.returnSett; (try dsimp only)
  repeat' first
    | (with_reducible first
        | assumption | apply State.bump_keeps | apply Keeps.foldl)
    | intro _ | split | (fail_if_no_progress with_reducible apply Keeps.lit)

theorem State.opFail_keeps : ∀ z s a1 a2 a3 a4 a5 a6, Keeps z s → Keeps z (State.opFail s a1 a2 a3 a4 a5 a6).2 := by
  intros; unfold State.opFail; (try dsimp only)
  repeat' first
    | (with_reducible first
        | assumption | apply State.poolFail_keeps | apply Keeps.foldl | apply Keeps.foldlPair
        | apply Keeps.foldlPair2)
    | intro _ | split | (fail_if_no_progress with_reducible apply Keeps.lit)

theorem State.setCount_keeps : ∀ z s a1 a2 a3, Keeps z s → Keeps z (State.setCount s a1 a2 a3) :=
  fun _ _ _ _ _ h => h

theorem State.free_keeps : ∀ z s a1 a2 a3, Keeps z s → Keeps z (State.free s a1 a2 a3).2 := by
  intros; unfold State.free
  repeat' first
    | (with_reducible first
        | assumption | apply State.returnSett_keeps | apply State.opFail_keeps | apply State.setCount_keeps
        | apply Keeps.foldl | apply Keeps.foldlPair | apply Keeps.foldlPair2)
    | intro _ | split

theorem State.give_keeps : ∀ z s a1 a2 a3 a4, Keeps z s → Keeps z (State.give s a1 a2 a3 a4).2 := by
  intros; unfold State.give; (try dsimp only)
  repeat' first
    | (with_reducible first
        | assumption | apply State.opFail_keeps | apply Keeps.foldl | apply Keeps.foldlPair | apply Keeps.foldlPair2)
    | intro _ | split | (fail_if_no_progress with_reducible apply Keeps.lit)

theorem State.reference_keeps : ∀ z s a1 a2 a3 a4, Keeps z s → Keeps z (State.reference s a1 a2 a3 a4).2.2 := by
  intros; unfold State.reference; (try dsimp only)
  repeat' first
    | (with_reducible first
        | assumption | apply State.returnSett_keeps | apply State.opFail_keeps | apply State.setCount_keeps
        | apply Keeps.foldl | apply Keeps.foldlPair | apply Keeps.foldlPair2)
    | intro _ | split

theorem State.poolOp_keeps : ∀ z s a1, Keeps z s → Keeps z (State.poolOp s a1) := by
  intros; unfold State.poolOp; (try dsimp only)
  repeat' first
    | (with_reducible first
        | assumption | apply State.emit_keeps | apply State.alloc_keeps | apply State.free_keeps
        | apply State.give_keeps | apply State.reference_keeps | apply Keeps.foldl | apply Keeps.foldlPair
        | apply Keeps.foldlPair2)
    | intro _ | split | (rename_i e; have e := congrArg Prod.snd e; dsimp only at e; subst e)
    | (rename_i e; have e := congrArg (fun q => q.2.2) e; dsimp only at e; subst e)
   

theorem State.arbiterCycle_keeps : ∀ z s a1, Keeps z s → Keeps z (State.arbiterCycle s a1) := by
  intros; unfold State.arbiterCycle; (try dsimp only)
  repeat' first
    | (with_reducible first
        | assumption | apply State.poolOp_keeps | apply Keeps.foldl)
   

theorem State.arbitrate_keeps : ∀ z s a1 a2, Keeps z s → Keeps z (State.arbitrate a1 a2 s) := by
  intro z s a1 a2
  induction a1 generalizing s a2 with
  | zero =>
    intros; unfold State.arbitrate
    repeat' first
      | (with_reducible first
          | assumption | apply State.arbiterCycle_keeps | apply Keeps.foldl | apply Keeps.foldlPair
          | apply Keeps.foldlPair2)
      | intro _ | split | (rename_i e; have e := congrArg Prod.snd e; dsimp only at e; subst e)
      | (rename_i e; have e := congrArg (fun q => q.2.2) e; dsimp only at e; subst e)
      | (fail_if_no_progress with_reducible apply Keeps.lit)
  | succ n ih =>
    intros
    unfold State.arbitrate; (try dsimp only)
    repeat' first
      | (with_reducible first
          | assumption | apply ih | apply State.arbiterCycle_keeps | apply Keeps.foldl | apply Keeps.foldlPair
          | apply Keeps.foldlPair2)
      | intro _ | split | (rename_i e; have e := congrArg Prod.snd e; dsimp only at e; subst e)
      | (rename_i e; have e := congrArg (fun q => q.2.2) e; dsimp only at e; subst e)
      | (fail_if_no_progress with_reducible apply Keeps.lit)

theorem State.freeAll_keeps : ∀ z s a1 a2 a3, Keeps z s → Keeps z (State.freeAll s a1 a2 a3) := by
  intros; unfold State.freeAll
  repeat' first
    | (with_reducible first
        | assumption | apply State.free_keeps | apply Keeps.foldl | apply Keeps.foldlPair | apply Keeps.foldlPair2)
    | intro _

theorem State.reclaim_keeps : ∀ z s a1, Keeps z s → Keeps z (State.reclaim s a1) := by
  intros; unfold State.reclaim; (try dsimp only)
  repeat' first
    | (with_reducible first
        | assumption | apply State.bump_keeps | apply Keeps.foldl)
    | intro _ | split | (fail_if_no_progress with_reducible apply Keeps.lit)

theorem State.charge_keeps : ∀ z s a1 a2 a3 a4, Keeps z s → Keeps z (State.charge s a1 a2 a3 a4) :=
  fun _ _ _ _ _ _ h => h

theorem State.uncharge_keeps : ∀ z s a1 a2 a3 a4, Keeps z s → Keeps z (State.uncharge s a1 a2 a3 a4) :=
  fun _ _ _ _ _ _ h => h

theorem State.takeCells_keeps : ∀ z s a1 a2 a3 a4, Keeps z s → Keeps z (State.takeCells s a1 a2 a3 a4).2 := by
  intros; unfold State.takeCells; (try dsimp only)
  repeat' first
    | (with_reducible first
        | assumption | apply State.giveCells_keeps | apply State.poolFail_keeps | apply State.charge_keeps
        | apply Keeps.foldl | apply Keeps.foldlPair | apply Keeps.foldlPair2)
    | intro _ | split

theorem State.returnCells_keeps : ∀ z s a1 a2 a3 a4, Keeps z s → Keeps z (State.returnCells s a1 a2 a3 a4) := by
  intros; unfold State.returnCells
  repeat' first
    | (with_reducible first
        | assumption | apply State.returnSett_keeps | apply State.uncharge_keeps | apply Keeps.foldl
        | apply Keeps.foldlPair | apply Keeps.foldlPair2)
    | intro _

theorem State.releaseCells_keeps : ∀ z s a1 a2, Keeps z s → Keeps z (State.releaseCells s a1 a2) := by
  intros; unfold State.releaseCells; (try dsimp only)
  repeat' first
    | (with_reducible first
        | assumption | apply State.freeAll_keeps | apply Keeps.foldl | apply Keeps.foldlPair
        | apply Keeps.foldlPair2)
    | intro _ | split | (fail_if_no_progress with_reducible apply Keeps.lit)

theorem State.count_keeps : ∀ z s a1, Keeps z s → Keeps z (State.count s a1) := by
  intros; unfold State.count
  repeat' first
    | (with_reducible first
        | assumption | apply State.bump_keeps | apply Keeps.foldl | apply Keeps.foldlPair | apply Keeps.foldlPair2)
    | intro _

theorem State.enqueue_keeps : ∀ z s a1 a2 a3 a4 a5 a6, Keeps z s → Keeps z (State.enqueue s a1 a2 a3 a4 a5 a6) := by
  intros; unfold State.enqueue; (try dsimp only)
  repeat' first
    | (with_reducible first
        | assumption | apply Keeps.foldl | apply Keeps.foldlPair | apply Keeps.foldlPair2)
    | intro _ | split | (fail_if_no_progress with_reducible apply Keeps.lit)

theorem State.setStzEntries_keeps : ∀ z s a1, Keeps z s → Keeps z (State.setStzEntries s a1) :=
  fun _ _ _ h => h

theorem State.stzContribution_keeps : ∀ z s a1 a2, Keeps z s → Keeps z (State.stzContribution s a1 a2) := by
  intros; unfold State.stzContribution; (try dsimp only)
  repeat' first | (with_reducible first | assumption | apply State.setStzEntries_keeps) | split

theorem State.stzClose_keeps : ∀ z s a1 a2 a3, Keeps z s → Keeps z (State.stzClose s a1 a2 a3) := by
  intros; unfold State.stzClose
  repeat' first | (with_reducible first | assumption | apply State.setStzEntries_keeps)

theorem State.stzOpen_keeps : ∀ z s a1 a2 a3, Keeps z s → Keeps z (State.stzOpen s a1 a2 a3) := by
  intros; unfold State.stzOpen; (try dsimp only)
  repeat' first | (with_reducible first | assumption | apply State.setStzEntries_keeps)

theorem State.stzCompletion_keeps : ∀ z s a1 a2, Keeps z s → Keeps z (State.stzCompletion s a1 a2) := by
  intros; unfold State.stzCompletion
  repeat' first | (with_reducible first | assumption | apply State.setStzEntries_keeps)

theorem State.stzWatch_keeps : ∀ z s a1 a2 a3, Keeps z s → Keeps z (State.stzWatch s a1 a2 a3) := by
  intros; unfold State.stzWatch; (try dsimp only)
  repeat' first
    | (with_reducible first
        | assumption | apply State.stzContribution_keeps | apply State.stzClose_keeps
        | apply State.stzCompletion_keeps | apply State.stzOpen_keeps | apply Keeps.foldl)
    | intro _ | split

theorem State.storeFrame_keeps : ∀ z s a1 a2 a3 a4 a5 a6 a7, Keeps z s → Keeps z (State.storeFrame s a1 a2 a3 a4
    a5 a6 a7) := by
  intros; unfold State.storeFrame; (try dsimp only)
  repeat' first
    | (with_reducible first
        | assumption | apply State.returnCells_keeps | apply State.enqueue_keeps | apply State.stzWatch_keeps
        | apply Keeps.foldl | apply Keeps.foldlPair | apply Keeps.foldlPair2)
    | intro _ | split | (fail_if_no_progress with_reducible apply Keeps.lit)

theorem State.releaseCopy_keeps : ∀ z s a1, Keeps z s → Keeps z (State.releaseCopy s a1) := by
  intros; unfold State.releaseCopy; (try dsimp only)
  repeat' first
    | (with_reducible first
        | assumption | apply State.uncharge_keeps | apply State.releaseCells_keeps | apply Keeps.foldl
        | apply Keeps.foldlPair | apply Keeps.foldlPair2)
    | intro _ | split | (fail_if_no_progress with_reducible apply Keeps.lit)

theorem State.admitOwn_keeps : ∀ z s a1 a2 a3, Keeps z s → Keeps z (State.admitOwn s a1 a2 a3) := by
  intros; unfold State.admitOwn
  repeat' first
    | (with_reducible first
        | assumption | apply State.takeCells_keeps | apply State.storeFrame_keeps | apply Keeps.foldl
        | apply Keeps.foldlPair | apply Keeps.foldlPair2)
    | intro _ | split | (rename_i e; have e := congrArg Prod.snd e; dsimp only at e; subst e)
   
   

theorem State.inject_keeps : ∀ z s a1 a2, Keeps z s → Keeps z (State.inject s a1 a2).2 := by
  intros; unfold State.inject; (try dsimp only)
  repeat' first
    | (with_reducible first
        | assumption | apply State.bump_keeps | apply State.count_keeps | apply State.admitOwn_keeps
        | apply Keeps.foldl | apply Keeps.foldlPair | apply Keeps.foldlPair2)
    | intro _ | split

theorem State.setRx_keeps : ∀ z s a1, Keeps z s → Keeps z (State.setRx s a1) :=
  fun _ _ _ h => h

theorem State.sendAck_keeps : ∀ z s a1 a2 a3, Keeps z s → Keeps z (State.sendAck s a1 a2 a3) := by
  intros; unfold State.sendAck; (try dsimp only)
  repeat' first
    | (with_reducible first
        | assumption | apply State.bump_keeps | apply State.inject_keeps | apply Keeps.foldl | apply Keeps.foldlPair
        | apply Keeps.foldlPair2)
    | intro _ | split

theorem State.commitFrame_keeps : ∀ z s a1 a2, Keeps z s → Keeps z (State.commitFrame s a1 a2) := by
  intros; unfold State.commitFrame; (try dsimp only)
  repeat' first | (with_reducible first | assumption | apply State.sendAck_keeps | apply State.setRx_keeps)

theorem State.ackAgain_keeps : ∀ z s a1 a2 a3, Keeps z s → Keeps z (State.ackAgain s a1 a2 a3) := by
  intros; unfold State.ackAgain; (try dsimp only)
  repeat' first | (with_reducible first | assumption | apply State.sendAck_keeps | apply State.setRx_keeps)

theorem State.refuseFrame_keeps : ∀ z s a1 a2 a3, Keeps z s → Keeps z (State.refuseFrame s a1 a2 a3) := by
  intros; unfold State.refuseFrame; (try dsimp only)
  repeat' first | (with_reducible first | assumption | apply State.sendAck_keeps | apply State.setRx_keeps)

theorem State.transitAck_keeps : ∀ z s a1 a2 a3, Keeps z s → Keeps z (State.transitAck s a1 a2 a3) := by
  intros; unfold State.transitAck
  repeat' first | (with_reducible first | assumption | apply State.sendAck_keeps)

theorem State.ratedRefusal_keeps : ∀ z s a1 a2, Keeps z s → Keeps z (State.ratedRefusal s a1 a2) := by
  intros; unfold State.ratedRefusal; (try dsimp only)
  repeat' first
    | (with_reducible first
        | assumption | apply State.transitAck_keeps | apply Keeps.foldl)
    | intro _ | split | (fail_if_no_progress with_reducible apply Keeps.lit)

theorem State.originate_keeps : ∀ z s a1 a2, Keeps z s → Keeps z (State.originate s a1 a2) := by
  intros; unfold State.originate; (try dsimp only)
  repeat' first
    | (with_reducible first
        | assumption | apply State.inject_keeps | apply State.ratedRefusal_keeps | apply Keeps.foldl
        | apply Keeps.foldlPair | apply Keeps.foldlPair2)
    | intro _ | split

theorem State.setTx_keeps : ∀ z s a1, Keeps z s → Keeps z (State.setTx s a1) :=
  fun _ _ _ h => h

theorem State.note_keeps : ∀ z s a1 a2, Keeps z s → Keeps z (State.note s a1 a2) := by
  intros; unfold State.note; (try dsimp only)
  repeat' first
    | (with_reducible first
        | assumption | apply Keeps.foldl)
    | intro _ | split | (fail_if_no_progress with_reducible apply Keeps.lit)

theorem State.send_keeps : ∀ z s a1 a2, Keeps z s → Keeps z (State.send s a1 a2) := by
  intros; unfold State.send; (try dsimp only)
  repeat' first
    | (with_reducible first
        | assumption | apply State.setTx_keeps | apply State.note_keeps | apply State.bump_keeps
        | apply State.originate_keeps | apply Keeps.foldl)
    | intro _ | split

theorem State.sendPlain_keeps : ∀ z s a1, Keeps z s → Keeps z (State.sendPlain s a1) := by
  intros; unfold State.sendPlain; (try dsimp only)
  repeat' first | (with_reducible first | assumption | apply State.bump_keeps | apply State.originate_keeps) | split

theorem State.flushFlow_keeps : ∀ z s a1 a2, Keeps z s → Keeps z (State.flushFlow s a1 a2) := by
  intros; rename_i h; revert h; fun_induction State.flushFlow <;> intros <;> (try dsimp only) <;>
  (repeat' first
     | with_reducible assumption | with_reducible apply_assumption | with_reducible apply State.send_keeps
     | with_reducible apply State.setTx_keeps)

theorem State.settleAck_keeps : ∀ z s a1 a2, Keeps z s → Keeps z (State.settleAck s a1 a2) := by
  intros; unfold State.settleAck; (try dsimp only)
  repeat' first
    | (with_reducible first
        | assumption | apply State.setTx_keeps | apply State.note_keeps | apply State.flushFlow_keeps
        | apply Keeps.foldl)
    | intro _ | split

theorem State.ageFlows_keeps : ∀ z s, Keeps z s → Keeps z (State.ageFlows s) :=
  fun _ _ h => h

theorem State.retransmit_keeps : ∀ z s a1 a2, Keeps z s → Keeps z (State.retransmit s a1 a2) := by
  intros; unfold State.retransmit; (try dsimp only)
  repeat' first
    | (with_reducible first
        | assumption | apply State.flushFlow_keeps | apply State.note_keeps | apply State.bump_keeps
        | apply State.setTx_keeps | apply State.originate_keeps)
    | split

theorem State.pruneWaiting_keeps : ∀ z s, Keeps z s → Keeps z (State.pruneWaiting s) := by
  intros; unfold State.pruneWaiting; (try dsimp only)
  repeat' first
    | (with_reducible first
        | assumption | apply State.setTx_keeps | apply State.note_keeps | apply Keeps.foldl)
    | intro _ | split

theorem State.dropFlows_keeps : ∀ z s a1, Keeps z s → Keeps z (State.dropFlows s a1) :=
  fun _ _ _ h => h

theorem State.withdraw_keeps : ∀ z s a1, Keeps z s → Keeps z (State.withdraw s a1) :=
  fun _ _ _ h => h

theorem State.takeInternal_keeps : ∀ z s a1, Keeps z s → Keeps z (State.takeInternal s a1) := by
  intros; unfold State.takeInternal; (try dsimp only)
  repeat' first
    | (with_reducible first
        | assumption | apply State.releaseCopy_keeps | apply Keeps.foldl)
    | intro _ | split | (fail_if_no_progress with_reducible apply Keeps.lit)

theorem State.receive_keeps : ∀ z s a1 a2, (∀ t, Keeps z t → Keeps z (a2 t)) → Keeps z s →
    Keeps z (State.receive s a1 a2) := by
  intro z s d f hf h
  unfold State.receive
  split
  · exact h
  · dsimp only
    split
    · exact State.refuseFrame_keeps _ _ _ _ _ (State.takeInternal_keeps _ _ _ h)
    · exact hf _ (State.takeInternal_keeps _ _ _ h)

theorem State.takeLocal_keeps : ∀ z s a1 a2 a3, Keeps z s → Keeps z (State.takeLocal s a1 a2 a3) := by
  intros; unfold State.takeLocal; (try dsimp only)
  repeat' first
    | (with_reducible first
        | assumption | apply State.takeInternal_keeps | apply Keeps.foldl | apply Keeps.foldlPair
        | apply Keeps.foldlPair2)
    | intro _ | split

theorem State.breakBound_keeps : ∀ z s a1, Keeps z s → Keeps z (State.breakBound s a1) :=
  fun _ _ _ h => h

theorem State.setPort_keeps : ∀ z s a1 a2, Keeps z s → Keeps z (State.setPort s a1 a2) :=
  fun _ _ _ _ h => h

theorem State.returnCredit_keeps : ∀ z s a1 a2 a3, Keeps z s → Keeps z (State.returnCredit s a1 a2 a3) := by
  intros; unfold State.returnCredit; (try dsimp only)
  repeat' first | (with_reducible first | assumption | apply State.setPort_keeps | apply State.emit_keeps)

theorem State.meter_keeps : ∀ z s a1 a2 a3 a4, Keeps z s → Keeps z (State.meter s a1 a2 a3 a4).2 := by
  intros; unfold State.meter; (try dsimp only)
  repeat' first
    | (with_reducible first
        | assumption | apply Keeps.foldl)
    | intro _ | split | (fail_if_no_progress with_reducible apply Keeps.lit)

theorem State.profile_keeps : ∀ z s a1 a2 a3 a4, Keeps z s → Keeps z (State.profile s a1 a2 a3 a4).2.2 :=
  fun _ _ _ _ _ _ h => h

theorem State.setRxFrame_keeps : ∀ z s a1 a2, Keeps z s → Keeps z (State.setRxFrame s a1 a2) :=
  fun _ _ _ _ h => h

theorem State.discard_keeps : ∀ z s a1 a2 a3 a4 a5 a6, Keeps z s → Keeps z (State.discard s a1 a2 a3 a4 a5 a6) := by
  intros; unfold State.discard
  repeat' first | (with_reducible first | assumption | apply State.setRxFrame_keeps)

theorem State.admitRx_keeps : ∀ z s a1 a2 a3 a4 a5, Keeps z s → Keeps z (State.admitRx s a1 a2 a3 a4 a5) := by
  intros; unfold State.admitRx; (try dsimp only)
  repeat' first
    | (with_reducible first
        | assumption | apply State.takeCells_keeps | apply State.meter_keeps | apply State.profile_keeps
        | apply State.setRxFrame_keeps | apply State.discard_keeps | apply Keeps.foldl | apply Keeps.foldlPair
        | apply Keeps.foldlPair2)
    | intro _ | split | (rename_i e; have e := congrArg Prod.snd e; dsimp only at e; subst e)
   
   

theorem State.routeRx_keeps : ∀ z s a1 a2 a3 a4, Keeps z s → Keeps z (State.routeRx s a1 a2 a3 a4) := by
  intros; unfold State.routeRx; (try dsimp only)
  repeat' first
    | (with_reducible first
        | assumption | apply State.discard_keeps | apply State.admitRx_keeps | apply Keeps.foldl
        | apply Keeps.foldlPair | apply Keeps.foldlPair2)
    | intro _ | split

theorem State.checkRx_keeps : ∀ z s a1 a2 a3 a4, Keeps z s → Keeps z (State.checkRx s a1 a2 a3 a4) := by
  intros; unfold State.checkRx; (try dsimp only)
  repeat' first
    | (with_reducible first
        | assumption | apply State.discard_keeps | apply State.countStozil_keeps | apply State.routeRx_keeps)
    | split

theorem State.setDiscarding_keeps : ∀ z s a1 a2, Keeps z s → Keeps z (State.setDiscarding s a1 a2) :=
  fun _ _ _ _ h => h

theorem State.headerReceived_keeps : ∀ z s a1 a2 a3 a4 a5, Keeps z s → Keeps z (State.headerReceived s a1 a2 a3 a4
    a5) := by
  intros; unfold State.headerReceived; (try dsimp only)
  repeat' first
    | (with_reducible first
        | assumption | apply State.bump_keeps | apply State.setPort_keeps | apply State.discard_keeps
        | apply State.checkRx_keeps | apply State.setDiscarding_keeps | apply Keeps.foldl | apply Keeps.foldlPair
        | apply Keeps.foldlPair2)
    | intro _ | split

theorem State.sendRefusal_keeps : ∀ z s a1 a2, Keeps z s → Keeps z (State.sendRefusal s a1 a2) := by
  intros; unfold State.sendRefusal
  repeat' first
    | (with_reducible first
        | assumption | apply State.ratedRefusal_keeps | apply State.transitAck_keeps)
    | split

theorem State.dropStored_keeps : ∀ z s a1, Keeps z s → Keeps z (State.dropStored s a1) := by
  intros; unfold State.dropStored; (try dsimp only)
  repeat' first
    | (with_reducible first
        | assumption | apply State.releaseCopy_keeps | apply Keeps.foldl | apply Keeps.foldlPair
        | apply Keeps.foldlPair2)
    | intro _ | split | (fail_if_no_progress with_reducible apply Keeps.lit)

theorem State.moveEntry_keeps : ∀ z s a1 a2 a3 a4 a5, Keeps z s → Keeps z (State.moveEntry s a1 a2 a3 a4 a5) := by
  intros; unfold State.moveEntry; (try dsimp only)
  repeat' first
    | (with_reducible first
        | assumption | apply State.bump_keeps | apply State.enqueue_keeps | apply State.releaseCopy_keeps
        | apply Keeps.foldl | apply Keeps.foldlPair | apply Keeps.foldlPair2)
    | intro _ | split | (fail_if_no_progress with_reducible apply Keeps.lit)

theorem State.flushPort_keeps : ∀ z s a1 a2, Keeps z s → Keeps z (State.flushPort s a1 a2) := by
  intros; unfold State.flushPort; (try dsimp only)
  repeat' first
    | (with_reducible first
        | assumption | apply State.moveEntry_keeps | apply Keeps.foldl | apply Keeps.foldlPair
        | apply Keeps.foldlPair2)
    | intro _ | split | (fail_if_no_progress with_reducible apply Keeps.lit)

theorem State.dropRx_keeps : ∀ z s a1 a2, Keeps z s → Keeps z (State.dropRx s a1 a2) := by
  intros; unfold State.dropRx
  repeat' first
    | (with_reducible first
        | assumption | apply State.returnCells_keeps | apply Keeps.foldl | apply Keeps.foldlPair
        | apply Keeps.foldlPair2)
    | intro _ | split

theorem State.commitCounts_keeps : ∀ z s a1, Keeps z s → Keeps z (State.commitCounts s a1) := by
  intros; unfold State.commitCounts
  repeat' first
    | (with_reducible first
        | assumption | apply State.count_keeps)
   

theorem State.frameEnd_keeps : ∀ z s a1 a2 a3 a4, Keeps z s → Keeps z (State.frameEnd s a1 a2 a3 a4) := by
  intros; unfold State.frameEnd; (try dsimp only)
  repeat' first
    | (with_reducible first
        | assumption | apply State.bump_keeps | apply State.report_keeps | apply State.storeFrame_keeps
        | apply State.returnCredit_keeps | apply State.sendRefusal_keeps | apply State.flushPort_keeps
        | apply State.dropRx_keeps | apply State.commitCounts_keeps | apply Keeps.foldl | apply Keeps.foldlPair
        | apply Keeps.foldlPair2)
    | intro _ | split | (fail_if_no_progress with_reducible apply Keeps.lit)

theorem State.movePointers_keeps : ∀ z s a1, Keeps z s → Keeps z (State.movePointers s a1) :=
  fun _ _ _ h => h

theorem State.scheduleTick_keeps : ∀ z s a1 a2, Keeps z s → Keeps z (State.scheduleTick s a1 a2) := by
  intros; unfold State.scheduleTick; (try dsimp only)
  repeat' first
    | (with_reducible first
        | assumption | apply State.bump_keeps | apply State.movePointers_keeps | apply Keeps.foldl
        | apply Keeps.foldlPair | apply Keeps.foldlPair2)
    | intro _ | split | (fail_if_no_progress with_reducible apply Keeps.lit)

theorem State.switchTick_keeps : ∀ z s, Keeps z s → Keeps z (State.switchTick s) :=
  fun _ _ h => h

theorem State.scaleEvent_keeps : ∀ z s a1 a2, Keeps z s → Keeps z (State.scaleEvent s a1 a2) := by
  intros; unfold State.scaleEvent; (try dsimp only)
  repeat' first | (with_reducible first | assumption | apply State.event_keeps) | split

theorem State.spend_keeps : ∀ z s a1 a2 a3 a4 a5, Keeps z s → Keeps z (State.spend s a1 a2 a3 a4 a5) := by
  intros; unfold State.spend; (try dsimp only)
  repeat' first
    | (with_reducible first
        | assumption | apply State.bump_keeps | apply State.breakBound_keeps | apply Keeps.foldl
        | apply Keeps.foldlPair | apply Keeps.foldlPair2)
    | intro _ | split | (fail_if_no_progress with_reducible apply Keeps.lit)

theorem State.sendCopy_keeps : ∀ z s a1 a2 a3, Keeps z s → Keeps z (State.sendCopy s a1 a2 a3) := by
  intros; unfold State.sendCopy; (try dsimp only)
  repeat' first
    | (with_reducible first
        | assumption | apply State.bump_keeps | apply State.emit_keeps | apply State.releaseCopy_keeps
        | apply State.breakBound_keeps | apply State.setPort_keeps | apply Keeps.foldl | apply Keeps.foldlPair
        | apply Keeps.foldlPair2)
    | intro _ | split

theorem State.transmit_keeps : ∀ z s a1 a2 a3, Keeps z s → Keeps z (State.transmit s a1 a2 a3) := by
  intros; unfold State.transmit; (try dsimp only)
  repeat' first
    | (with_reducible first
        | assumption | apply State.bump_keeps | apply State.spend_keeps | apply State.sendCopy_keeps
        | apply Keeps.foldl | apply Keeps.foldlPair | apply Keeps.foldlPair2)
    | intro _ | split | (fail_if_no_progress with_reducible apply Keeps.lit)

end Sys2Proof.Machine
end

