-- ==== Sys2Proof/Laws/KeepsTick.lean ====
section
/-! SUPPORT. What the module does leaves the queue of commands alone and the memory in its form: the tick and the
topology. -/

namespace Sys2Proof.Machine

theorem State.setTick_keeps : ∀ z s a1, Keeps z s → Keeps z (State.setTick s a1) :=
  fun _ _ _ h => h

theorem State.sendLinkLocal_keeps : ∀ z s a1 a2 a3, Keeps z s → Keeps z (State.sendLinkLocal s a1 a2 a3) := by
  intros; unfold State.sendLinkLocal; (try dsimp only)
  repeat' first | (with_reducible first | assumption | apply State.admitOwn_keeps) | split

theorem State.announceOn_keeps : ∀ z s a1, Keeps z s → Keeps z (State.announceOn s a1) := by
  intros; unfold State.announceOn
  repeat' first | (with_reducible first | assumption | apply State.sendLinkLocal_keeps)

theorem State.announceAll_keeps : ∀ z s, Keeps z s → Keeps z (State.announceAll s) := by
  intros; unfold State.announceAll
  repeat' first | (with_reducible first | assumption | apply State.announceOn_keeps | apply Keeps.foldl)

theorem State.announceChange_keeps : ∀ z s, Keeps z s → Keeps z (State.announceChange s) := by
  intros; unfold State.announceChange
  repeat' first
    | (with_reducible first
        | assumption | apply State.announceAll_keeps | apply State.setTick_keeps)
    | split

theorem State.tickEnter_keeps : ∀ z s a1 a2, Keeps z s → Keeps z (State.tickEnter s a1 a2) := by
  intros; unfold State.tickEnter; (try dsimp only)
  repeat' first
    | (with_reducible first
        | assumption | apply State.setTick_keeps | apply State.report_keeps | apply State.event_keeps)
    | split

theorem State.becomeRoot_keeps : ∀ z s, Keeps z s → Keeps z (State.becomeRoot s) := by
  intros; unfold State.becomeRoot
  repeat' first | (with_reducible first | assumption | apply State.tickEnter_keeps | apply State.setTick_keeps)

theorem State.hearParent_keeps : ∀ z s a1, Keeps z s → Keeps z (State.hearParent s a1) := by
  intros; unfold State.hearParent; (try dsimp only)
  repeat' first | (with_reducible first | assumption | apply State.setTick_keeps)

theorem State.forgetRoot_keeps : ∀ z s, Keeps z s → Keeps z (State.forgetRoot s) :=
  fun _ _ h => h

theorem State.adopt_keeps : ∀ z s a1 a2, Keeps z s → Keeps z (State.adopt s a1 a2) := by
  intros; unfold State.adopt; (try dsimp only)
  repeat' first
    | (with_reducible first
        | assumption | apply State.setTick_keeps | apply State.bump_keeps | apply State.hearParent_keeps)

theorem State.merge_keeps : ∀ z s a1, Keeps z s → Keeps z (State.merge s a1) := by
  intros; unfold State.merge; (try dsimp only)
  repeat' first
    | (with_reducible first
        | assumption | apply State.adopt_keeps | apply State.tickEnter_keeps | apply State.setTick_keeps)
    | split

theorem State.reviewRoot_keeps : ∀ z s a1, Keeps z s → Keeps z (State.reviewRoot s a1) := by
  intros; unfold State.reviewRoot
  repeat' first
    | (with_reducible first
        | assumption | apply State.merge_keeps | apply State.tickEnter_keeps | apply State.adopt_keeps)
    | split

theorem State.reviewFollower_keeps : ∀ z s, Keeps z s → Keeps z (State.reviewFollower s) := by
  intros; unfold State.reviewFollower; (try dsimp only)
  repeat' first
    | (with_reducible first
        | assumption | apply State.setTick_keeps | apply State.tickEnter_keeps | apply State.adopt_keeps
        | apply State.merge_keeps)
    | split

theorem State.reviewHoldover_keeps : ∀ z s, Keeps z s → Keeps z (State.reviewHoldover s) := by
  intros; unfold State.reviewHoldover; (try dsimp only)
  repeat' first
    | (with_reducible first
        | assumption | apply State.tickEnter_keeps | apply State.adopt_keeps | apply State.merge_keeps
        | apply Keeps.foldl | apply Keeps.foldlPair | apply Keeps.foldlPair2)
    | intro _ | split

theorem State.tickReview_keeps : ∀ z s, Keeps z s → Keeps z (State.tickReview s) := by
  intros; unfold State.tickReview; (try dsimp only)
  repeat' first
    | (with_reducible first
        | assumption | apply State.setTick_keeps | apply State.tickEnter_keeps | apply State.forgetRoot_keeps
        | apply State.adopt_keeps | apply State.reviewRoot_keeps | apply State.reviewFollower_keeps
        | apply State.reviewHoldover_keeps | apply Keeps.foldl | apply Keeps.foldlPair | apply Keeps.foldlPair2)
    | intro _ | split

theorem State.tickPortLost_keeps : ∀ z s a1, Keeps z s → Keeps z (State.tickPortLost s a1) := by
  intros; unfold State.tickPortLost
  repeat' first
    | (with_reducible first
        | assumption | apply State.announceChange_keeps | apply State.tickReview_keeps | apply State.setTick_keeps)

theorem State.tickHear_keeps : ∀ z s a1 a2, Keeps z s → Keeps z (State.tickHear s a1 a2) := by
  intros; unfold State.tickHear; (try dsimp only)
  repeat' first
    | (with_reducible first
        | assumption | apply State.setTick_keeps | apply State.announceChange_keeps | apply State.tickReview_keeps
        | apply State.hearParent_keeps)
    | split

theorem State.firstCorrection_keeps : ∀ z s a1 a2, Keeps z s → Keeps z (State.firstCorrection s a1 a2) := by
  intros; unfold State.firstCorrection; (try dsimp only)
  repeat' first | (with_reducible first | assumption | apply State.setTick_keeps)

theorem State.exchange_keeps : ∀ z s a1 a2, Keeps z s → Keeps z (State.exchange s a1 a2) := by
  intros; unfold State.exchange; (try dsimp only)
  repeat' first
    | (with_reducible first
        | assumption | apply State.setTick_keeps | apply State.firstCorrection_keeps | apply State.tickEnter_keeps)
    | split

theorem State.tsos_keeps : ∀ z s a1 a2 a3 a4 a5 a6, Keeps z s → Keeps z (State.tsos s a1 a2 a3 a4 a5 a6) := by
  intros; unfold State.tsos; (try dsimp only)
  repeat' first
    | (with_reducible first
        | assumption | apply State.setTick_keeps | apply State.announceChange_keeps | apply State.tickReview_keeps
        | apply State.exchange_keeps)
    | split

theorem State.sendTsos_keeps : ∀ z s a1, Keeps z s → Keeps z (State.sendTsos s a1) := by
  intros; unfold State.sendTsos; (try dsimp only)
  repeat' first
    | (with_reducible first
        | assumption | apply State.stamped_keeps | apply State.emit_keeps | apply State.setTick_keeps
        | apply Keeps.foldl | apply Keeps.foldlPair | apply Keeps.foldlPair2)
    | intro _ | split

theorem State.tsosTick_keeps : ∀ z s a1, Keeps z s → Keeps z (State.tsosTick s a1) := by
  intros; unfold State.tsosTick; (try dsimp only)
  repeat' first
    | (with_reducible first
        | assumption | apply State.bump_keeps | apply State.setTick_keeps | apply State.sendTsos_keeps
        | apply Keeps.foldl)
   

theorem State.tickAdvance_keeps : ∀ z s, Keeps z s → Keeps z (State.tickAdvance s) := by
  intros; unfold State.tickAdvance
  repeat' first | (with_reducible first | assumption | apply State.setTick_keeps)

theorem State.announcePeriodic_keeps : ∀ z s, Keeps z s → Keeps z (State.announcePeriodic s) := by
  intros; unfold State.announcePeriodic
  repeat' first | (with_reducible first | assumption | apply State.announceAll_keeps | apply State.setTick_keeps)

theorem State.reRoot_keeps : ∀ z s, Keeps z s → Keeps z (State.reRoot s) := by
  intros; unfold State.reRoot; (try dsimp only)
  repeat' first
    | (with_reducible first
        | assumption | apply State.tickEnter_keeps | apply State.setTick_keeps | apply State.announceChange_keeps
        | apply State.becomeRoot_keeps | apply State.tickReview_keeps)
    | split

theorem State.rejoin_keeps : ∀ z s, Keeps z s → Keeps z (State.rejoin s) := by
  intros; unfold State.rejoin; (try dsimp only)
  repeat' first
    | (with_reducible first
        | assumption | apply State.setTick_keeps | apply State.announceChange_keeps | apply State.tickEnter_keeps
        | apply State.forgetRoot_keeps | apply State.adopt_keeps | apply Keeps.foldl | apply Keeps.foldlPair
        | apply Keeps.foldlPair2)
    | intro _ | split

theorem State.setTopo_keeps : ∀ z s a1, Keeps z s → Keeps z (State.setTopo s a1) :=
  fun _ _ _ h => h

theorem State.setLs_keeps : ∀ z s a1 a2, Keeps z s → Keeps z (State.setLs s a1 a2) := by
  intros; unfold State.setLs
  repeat' first | (with_reducible first | assumption | apply State.setTopo_keeps)

theorem State.markLost_keeps : ∀ z s a1, Keeps z s → Keeps z (State.markLost s a1) := by
  intros; unfold State.markLost
  repeat' first | (with_reducible first | assumption | apply State.setTopo_keeps | apply State.setLs_keeps) | split

theorem State.lostCheck_keeps : ∀ z s a1 a2, Keeps z s → Keeps z (State.lostCheck s a1 a2) := by
  intros; unfold State.lostCheck; (try dsimp only)
  repeat' first
    | (with_reducible first
        | assumption | apply State.markLost_keeps | apply Keeps.foldl)
    | intro _ | split

theorem State.sendDisc_keeps : ∀ z s a1 a2, Keeps z s → Keeps z (State.sendDisc s a1 a2) := by
  intros; unfold State.sendDisc
  repeat' first | (with_reducible first | assumption | apply State.sendLinkLocal_keeps | apply State.stamped_keeps)

theorem State.sendHello_keeps : ∀ z s a1 a2, Keeps z s → Keeps z (State.sendHello s a1 a2) := by
  intros; unfold State.sendHello; (try dsimp only)
  repeat' first | (with_reducible first | assumption | apply State.sendDisc_keeps)

theorem State.sendNotice_keeps : ∀ z s a1 a2, Keeps z s → Keeps z (State.sendNotice s a1 a2) := by
  intros; unfold State.sendNotice; (try dsimp only)
  repeat' first | (with_reducible first | assumption | apply State.sendDisc_keeps)

theorem State.floodNotice_keeps : ∀ z s a1, Keeps z s → Keeps z (State.floodNotice s a1) := by
  intros; unfold State.floodNotice; (try dsimp only)
  repeat' first
    | (with_reducible first
        | assumption | apply State.sendNotice_keeps | apply Keeps.foldl)
    | intro _ | split

theorem State.holdNotice_keeps : ∀ z s a1, Keeps z s → Keeps z (State.holdNotice s a1) := by
  intros; unfold State.holdNotice
  repeat' first | (with_reducible first | assumption | apply State.floodNotice_keeps | apply State.setTopo_keeps)

theorem State.originateNotice_keeps : ∀ z s a1 a2, Keeps z s → Keeps z (State.originateNotice s a1 a2) := by
  intros; unfold State.originateNotice; (try dsimp only)
  repeat' first | (with_reducible first | assumption | apply State.holdNotice_keeps | apply State.setTopo_keeps)

theorem State.noticeTick_keeps : ∀ z s, Keeps z s → Keeps z (State.noticeTick s) := by
  intros; unfold State.noticeTick; (try dsimp only)
  repeat' first
    | (with_reducible first
        | assumption | apply State.floodNotice_keeps | apply State.setTopo_keeps | apply State.sendNotice_keeps
        | apply Keeps.foldl)
    | intro _

theorem State.trunkChanged_keeps : ∀ z s a1 a2, Keeps z s → Keeps z (State.trunkChanged s a1 a2) := by
  intros; unfold State.trunkChanged; (try dsimp only)
  repeat' first
    | (with_reducible first
        | assumption | apply State.event_keeps | apply State.setTopo_keeps | apply State.lostCheck_keeps
        | apply State.originateNotice_keeps | apply Keeps.foldl | apply Keeps.foldlPair | apply Keeps.foldlPair2)
    | intro _ | split

theorem State.trunkCheck_keeps : ∀ z s, Keeps z s → Keeps z (State.trunkCheck s) := by
  intros; unfold State.trunkCheck; (try dsimp only)
  repeat' first
    | (with_reducible first
        | assumption | apply State.setTopo_keeps | apply State.trunkChanged_keeps | apply Keeps.foldl)
    | intro _

theorem State.reportMissing_keeps : ∀ z s, Keeps z s → Keeps z (State.reportMissing s) := by
  intros; unfold State.reportMissing
  repeat' first
    | (with_reducible first
        | assumption | apply State.trunkChanged_keeps | apply Keeps.foldl | apply Keeps.foldlPair
        | apply Keeps.foldlPair2)
    | intro _

theorem State.setRoute_keeps : ∀ z s a1 a2, Keeps z s → Keeps z (State.setRoute s a1 a2) := by
  intros; unfold State.setRoute
  repeat' first | (with_reducible first | assumption | apply State.setTopo_keeps)

theorem State.learnPeer_keeps : ∀ z s a1, Keeps z s → Keeps z (State.learnPeer s a1) := by
  intros; unfold State.learnPeer; (try dsimp only)
  repeat' first | (with_reducible first | assumption | apply State.setRoute_keeps) | split

theorem State.holdPort_keeps : ∀ z s a1 a2, Keeps z s → Keeps z (State.holdPort s a1 a2) := by
  intros; unfold State.holdPort; (try dsimp only)
  repeat' first
    | (with_reducible first
        | assumption | apply State.event_keeps | apply State.flushPort_keeps | apply State.setRoute_keeps
        | apply State.learnPeer_keeps)
   

theorem State.servePort_keeps : ∀ z s a1, Keeps z s → Keeps z (State.servePort s a1) := by
  intros; unfold State.servePort; (try dsimp only)
  repeat' first
    | (with_reducible first
        | assumption | apply State.setRoute_keeps | apply State.learnPeer_keeps | apply State.setTopo_keeps)
    | split

theorem State.judgeHello_keeps : ∀ z s a1 a2, Keeps z s → Keeps z (State.judgeHello s a1 a2) := by
  intros; unfold State.judgeHello; (try dsimp only)
  repeat' first
    | (with_reducible first
        | assumption | apply State.holdPort_keeps | apply State.servePort_keeps | apply Keeps.foldl
        | apply Keeps.foldlPair | apply Keeps.foldlPair2)
    | intro _ | split

theorem State.peerReset_keeps : ∀ z s a1, Keeps z s → Keeps z (State.peerReset s a1) := by
  intros; unfold State.peerReset
  repeat' first
    | (with_reducible first
        | assumption | apply State.markLost_keeps | apply State.holdPort_keeps | apply Keeps.foldl
        | apply Keeps.foldlPair | apply Keeps.foldlPair2)
    | intro _

theorem State.judgePort_keeps : ∀ z s a1, Keeps z s → Keeps z (State.judgePort s a1) := by
  intros; unfold State.judgePort; (try dsimp only)
  repeat' first
    | (with_reducible first
        | assumption | apply State.holdPort_keeps | apply State.servePort_keeps | apply State.judgeHello_keeps
        | apply Keeps.foldl | apply Keeps.foldlPair | apply Keeps.foldlPair2)
    | intro _ | split

theorem State.helloHear_keeps : ∀ z s a1 a2 a3, Keeps z s → Keeps z (State.helloHear s a1 a2 a3) := by
  intros; unfold State.helloHear; (try dsimp only)
  repeat' first
    | (with_reducible first
        | assumption | apply State.sendHello_keeps | apply State.trunkCheck_keeps | apply State.setRoute_keeps
        | apply State.holdPort_keeps | apply State.peerReset_keeps | apply State.judgePort_keeps | apply Keeps.foldl
        | apply Keeps.foldlPair | apply Keeps.foldlPair2)
    | intro _ | split

theorem State.peerReports_keeps : ∀ z s a1 a2, Keeps z s → Keeps z (State.peerReports s a1 a2) := by
  intros; unfold State.peerReports; (try dsimp only)
  repeat' first
    | (with_reducible first
        | assumption | apply State.trunkCheck_keeps | apply State.setRoute_keeps | apply Keeps.foldl
        | apply Keeps.foldlPair | apply Keeps.foldlPair2)
    | intro _ | split | (fail_if_no_progress with_reducible apply Keeps.lit)

theorem State.summary_keeps : ∀ z s, Keeps z s → Keeps z (State.summary s) := by
  intros; unfold State.summary; (try dsimp only)
  repeat' first | (with_reducible first | assumption | apply State.event_keeps | apply State.setTopo_keeps)

theorem State.summaryCheck_keeps : ∀ z s, Keeps z s → Keeps z (State.summaryCheck s) := by
  intros; unfold State.summaryCheck
  repeat' first | (with_reducible first | assumption | apply State.summary_keeps) | split

theorem State.pendingExpired_keeps : ∀ z s, Keeps z s → Keeps z (State.pendingExpired s) := by
  intros; unfold State.pendingExpired; (try dsimp only)
  repeat' first
    | (with_reducible first
        | assumption | apply State.setTopo_keeps | apply State.trunkCheck_keeps | apply State.reportMissing_keeps
        | apply State.setRoute_keeps | apply State.summary_keeps | apply Keeps.foldl | apply Keeps.foldlPair
        | apply Keeps.foldlPair2)
    | intro _ | split

theorem State.routeActive_keeps : ∀ z s a1, Keeps z s → Keeps z (State.routeActive s a1) := by
  intros; unfold State.routeActive
  repeat' first
    | (with_reducible first
        | assumption | apply State.summaryCheck_keeps | apply State.trunkCheck_keeps | apply State.judgePort_keeps
        | apply State.setRoute_keeps)

theorem State.routeInactive_keeps : ∀ z s a1, Keeps z s → Keeps z (State.routeInactive s a1) := by
  intros; unfold State.routeInactive; (try dsimp only)
  repeat' first | (with_reducible first | assumption | apply State.trunkCheck_keeps | apply State.setRoute_keeps)

theorem State.helloTick_keeps : ∀ z s, Keeps z s → Keeps z (State.helloTick s) := by
  intros; unfold State.helloTick; (try dsimp only)
  repeat' first
    | (with_reducible first
        | assumption | apply State.setRoute_keeps | apply State.sendHello_keeps | apply Keeps.foldl)
    | intro _ | split

theorem State.restartPlan_keeps : ∀ z s, Keeps z s → Keeps z (State.restartPlan s) := by
  intros; unfold State.restartPlan; (try dsimp only)
  repeat' first | (with_reducible first | assumption | apply State.setTopo_keeps)

theorem State.loadPlan_keeps : ∀ z s a1, Keeps z s → Keeps z (State.loadPlan s a1) := by
  intros; unfold State.loadPlan; (try dsimp only)
  repeat' first
    | (with_reducible first
        | assumption | apply State.setReg_keeps | apply State.flushPort_keeps | apply State.scaleEvent_keeps
        | apply State.setTopo_keeps | apply State.trunkCheck_keeps | apply State.judgePort_keeps
        | apply State.summaryCheck_keeps | apply Keeps.foldl | apply Keeps.foldlPair | apply Keeps.foldlPair2)
    | intro _ | split | (fail_if_no_progress with_reducible apply Keeps.lit)

theorem State.noticeHear_keeps : ∀ z s a1 a2, Keeps z s → Keeps z (State.noticeHear s a1 a2) := by
  intros; unfold State.noticeHear; (try dsimp only)
  repeat' first
    | (with_reducible first
        | assumption | apply State.bump_keeps | apply State.setLs_keeps | apply State.holdNotice_keeps
        | apply State.lostCheck_keeps)
    | split

theorem State.digestHear_keeps : ∀ z s a1 a2, Keeps z s → Keeps z (State.digestHear s a1 a2) := by
  intros; unfold State.digestHear; (try dsimp only)
  repeat' first | (with_reducible first | assumption | apply State.setRoute_keeps | apply State.setTopo_keeps) | split

theorem State.sendDigests_keeps : ∀ z s, Keeps z s → Keeps z (State.sendDigests s) := by
  intros; unfold State.sendDigests; (try dsimp only)
  repeat' first
    | (with_reducible first
        | assumption | apply State.setTopo_keeps | apply State.sendDisc_keeps | apply Keeps.foldl)
    | intro _

theorem State.hedge_keeps : ∀ z s a1, Keeps z s → Keeps z (State.hedge s a1) := by
  intros; unfold State.hedge
  repeat' first
    | (with_reducible first
        | assumption | apply State.pruneWaiting_keeps | apply State.trunkCheck_keeps | apply State.setTopo_keeps)
    | split

theorem State.releaseHeld_keeps : ∀ z s, Keeps z s → Keeps z (State.releaseHeld s) := by
  intros; unfold State.releaseHeld
  repeat' first | (with_reducible first | assumption | apply State.flushFlow_keeps | apply Keeps.foldl) | intro _

theorem State.lift_keeps : ∀ z s a1, Keeps z s → Keeps z (State.lift s a1) := by
  intros; unfold State.lift
  repeat' first
    | (with_reducible first
        | assumption | apply State.releaseHeld_keeps | apply State.trunkCheck_keeps | apply State.setTopo_keeps)

theorem State.readmitPort_keeps : ∀ z s a1, Keeps z s → Keeps z (State.readmitPort s a1) := by
  intros; unfold State.readmitPort; (try dsimp only)
  repeat' first
    | (with_reducible first
        | assumption | apply State.setTopo_keeps | apply State.servePort_keeps)
    | split

theorem State.readmit_keeps : ∀ z s a1, Keeps z s → Keeps z (State.readmit s a1) := by
  intros; unfold State.readmit; (try dsimp only)
  repeat' first
    | (with_reducible first
        | assumption | apply State.readmitPort_keeps | apply State.trunkCheck_keeps | apply State.setLs_keeps
        | apply State.originateNotice_keeps | apply Keeps.foldl)
    | intro _ | split

theorem State.sendGroup_keeps : ∀ z s a1 a2 a3, Keeps z s → Keeps z (State.sendGroup s a1 a2 a3) := by
  intros; unfold State.sendGroup; (try dsimp only)
  repeat' first | (with_reducible first | assumption | apply State.send_keeps)

theorem State.installGroup_keeps : ∀ z s a1 a2 a3, Keeps z s → Keeps z (State.installGroup s a1 a2 a3) := by
  intros; unfold State.installGroup; (try dsimp only)
  repeat' first
    | (with_reducible first
        | assumption | apply State.sendGroup_keeps | apply State.setGroup_keeps | apply Keeps.foldl)
    | intro _

theorem State.removeGroup_keeps : ∀ z s a1, Keeps z s → Keeps z (State.removeGroup s a1) := by
  intros; unfold State.removeGroup
  repeat' first
    | (with_reducible first
        | assumption | apply State.sendGroup_keeps | apply State.dropGroup_keeps | apply State.withdraw_keeps
        | apply Keeps.foldl)
    | intro _ | split

theorem State.leaveGroup_keeps : ∀ z s a1, Keeps z s → Keeps z (State.leaveGroup s a1) := by
  intros; unfold State.leaveGroup
  repeat' first
    | (with_reducible first
        | assumption | apply State.removeGroup_keeps | apply State.setGroup_keeps)
    | split

theorem State.groupTransit_keeps : ∀ z s a1 a2 a3, Keeps z s → Keeps z (State.groupTransit s a1 a2 a3) := by
  intros; unfold State.groupTransit; (try dsimp only)
  repeat' first
    | (with_reducible first
        | assumption | apply State.setGroup_keeps | apply State.dropGroup_keeps)
    | split

theorem State.groupMember_keeps : ∀ z s a1 a2, Keeps z s → Keeps z (State.groupMember s a1 a2).2 := by
  intros; unfold State.groupMember; (try dsimp only)
  repeat' first
    | (with_reducible first
        | assumption | apply State.setGroup_keeps | apply State.dropGroup_keeps)
    | split

theorem State.reinstallGroups_keeps : ∀ z s a1, Keeps z s → Keeps z (State.reinstallGroups s a1) := by
  intros; unfold State.reinstallGroups
  repeat' first
    | (with_reducible first
        | assumption | apply State.sendGroup_keeps | apply Keeps.foldl)
    | intro _ | split

end Sys2Proof.Machine
end

