-- ==== Sys2Proof/Laws/KeepsEngines.lean ====
section
/-! SUPPORT. What the module does leaves the queue of commands alone and the memory in its form: arithmetic,
engines, programs and links. -/

namespace Sys2Proof.Machine

theorem State.excReport_keeps : ∀ z s a1 a2 a3, Keeps z s → Keeps z (State.excReport s a1 a2 a3) := by
  intros; unfold State.excReport; (try dsimp only)
  repeat' first
    | (with_reducible first
        | assumption | apply State.event_keeps | apply State.report_keeps | apply Keeps.foldl
        | apply Keeps.foldlPair | apply Keeps.foldlPair2)
    | intro _ | split

theorem State.raiseAll_keeps : ∀ z s a1 a2 a3, Keeps z s → Keeps z (State.raiseAll s a1 a2 a3).2 := by
  intros; unfold State.raiseAll; (try dsimp only)
  repeat' first
    | (with_reducible first
        | assumption | apply State.excReport_keeps | apply State.bump_keeps | apply State.stamped_keeps
        | apply Keeps.foldl | apply Keeps.foldlPair | apply Keeps.foldlPair2)
    | intro _ | split

theorem State.countFlush_keeps : ∀ z s a1, Keeps z s → Keeps z (State.countFlush s a1) := by
  intros; unfold State.countFlush
  repeat' first | (with_reducible first | assumption | apply State.bump_keeps) | split

theorem State.tookDraws_keeps : ∀ z s a1 a2, Keeps z s → Keeps z (State.tookDraws s a1 a2) :=
  fun _ _ _ _ h => h

theorem State.setEng_keeps : ∀ z s a1, Keeps z s → Keeps z (State.setEng s a1) :=
  fun _ _ _ h => h

theorem State.dropBench_keeps : ∀ z s a1, Keeps z s → Keeps z (State.dropBench s a1) := by
  intros; unfold State.dropBench
  repeat' first | (with_reducible first | assumption | apply State.setEng_keeps)

theorem State.setBenchPair_keeps : ∀ z s a1 a2 a3, Keeps z s → Keeps z (State.setBenchPair s a1 a2 a3) := by
  intros; unfold State.setBenchPair
  repeat' first | (with_reducible first | assumption | apply State.writeMem_keeps)

theorem State.setEngine_keeps : ∀ z s a1 a2, Keeps z s → Keeps z (State.setEngine s a1 a2) := by
  intros; unfold State.setEngine
  repeat' first | (with_reducible first | assumption | apply State.setEng_keeps)

theorem State.engineRetired_keeps : ∀ z s a1 a2, Keeps z s → Keeps z (State.engineRetired s a1 a2) := by
  intros; unfold State.engineRetired; (try dsimp only)
  repeat' first
    | (with_reducible first
        | assumption | apply State.setEngine_keeps | apply State.event_keeps | apply Keeps.foldl)
    | intro _ | split | (fail_if_no_progress with_reducible apply Keeps.lit)

theorem State.engineIdle_keeps : ∀ z s a1, Keeps z s → Keeps z (State.engineIdle s a1) := by
  intros; unfold State.engineIdle; (try dsimp only)
  repeat' first
    | (with_reducible first
        | assumption | apply State.setEngine_keeps | apply State.engineRetired_keeps)
    | split

theorem State.retireEngine_keeps : ∀ z s a1, Keeps z s → Keeps z (State.retireEngine s a1) := by
  intros; unfold State.retireEngine
  repeat' first
    | (with_reducible first
        | assumption | apply State.engineIdle_keeps | apply State.setEngine_keeps | apply State.engineRetired_keeps)
    | split

theorem State.restoreEngine_keeps : ∀ z s a1, Keeps z s → Keeps z (State.restoreEngine s a1) := by
  intros; unfold State.restoreEngine; (try dsimp only)
  repeat' first
    | (with_reducible first
        | assumption | apply State.setEngine_keeps | apply Keeps.foldl)
    | intro _ | split | (fail_if_no_progress with_reducible apply Keeps.lit)

theorem State.fillTile_keeps : ∀ z s a1, Keeps z s → Keeps z (State.fillTile s a1) := by
  intros; unfold State.fillTile; (try dsimp only)
  repeat' first | (with_reducible first | assumption | apply State.setEngine_keeps | apply Keeps.foldl) | intro _

theorem State.engineToTest_keeps : ∀ z s a1, Keeps z s → Keeps z (State.engineToTest s a1) := by
  intros; unfold State.engineToTest; (try dsimp only)
  repeat' first
    | (with_reducible first
        | assumption | apply State.setEngine_keeps | apply State.engineIdle_keeps)
    | split

theorem State.testTurn_keeps : ∀ z s a1, Keeps z s → Keeps z (State.testTurn s a1) := by
  intros; unfold State.testTurn
  repeat' first
    | (with_reducible first
        | assumption | apply State.engineToTest_keeps | apply State.setEng_keeps)
    | split

theorem State.testTick_keeps : ∀ z s, Keeps z s → Keeps z (State.testTick s) := by
  intros; unfold State.testTick; (try dsimp only)
  repeat' first
    | (with_reducible first
        | assumption | apply State.setEng_keeps | apply State.setEngine_keeps | apply State.engineToTest_keeps
        | apply Keeps.foldl | apply Keeps.foldlPair | apply Keeps.foldlPair2)
    | intro _ | split

theorem State.engineTestFailed_keeps : ∀ z s a1, Keeps z s → Keeps z (State.engineTestFailed s a1) := by
  intros; unfold State.engineTestFailed
  repeat' first
    | (with_reducible first
        | assumption | apply State.bump_keeps | apply State.report_keeps | apply State.engineRetired_keeps
        | apply Keeps.foldl | apply Keeps.foldlPair | apply Keeps.foldlPair2)
    | intro _ | split

theorem State.testEnd_keeps : ∀ z s a1 a2, Keeps z s → Keeps z (State.testEnd s a1 a2) := by
  intros; unfold State.testEnd
  repeat' first
    | (with_reducible first
        | assumption | apply State.setEngine_keeps | apply State.engineTestFailed_keeps | apply Keeps.foldl
        | apply Keeps.foldlPair | apply Keeps.foldlPair2)
    | intro _ | split

theorem State.allocBuffers_keeps : ∀ z s a1 a2 a3, Keeps z s → Keeps z (State.allocBuffers s a1 a2 a3).2.2 := by
  intro z s a1 a2 a3
  induction a3 generalizing s a1 a2 with
  | nil =>
    intros; unfold State.allocBuffers
    repeat' first
      | (with_reducible first
          | assumption | apply State.alloc_keeps | apply State.freeAll_keeps | apply Keeps.foldl
          | apply Keeps.foldlPair | apply Keeps.foldlPair2)
      | (rename_i e; have e := congrArg Prod.snd e; dsimp only at e; subst e)
      | (rename_i e; have e := congrArg (fun q => q.2.2) e; dsimp only at e; subst e) | intro _ | split
      | (fail_if_no_progress with_reducible apply Keeps.lit)
  | cons e es ih =>
    intros
    unfold State.allocBuffers; (try dsimp only)
    repeat' first
      | (with_reducible first
          | assumption | apply ih | apply State.alloc_keeps | apply State.freeAll_keeps | apply Keeps.foldl
          | apply Keeps.foldlPair | apply Keeps.foldlPair2)
      | (rename_i e; have e := congrArg Prod.snd e; dsimp only at e; subst e)
      | (rename_i e; have e := congrArg (fun q => q.2.2) e; dsimp only at e; subst e) | intro _ | split
      | (fail_if_no_progress with_reducible apply Keeps.lit)

theorem State.writeBuf_keeps : ∀ z s a1 a2 a3 a4, Keeps z s → Keeps z (State.writeBuf s a1 a2 a3 a4) := by
  intros; unfold State.writeBuf
  repeat' first | (with_reducible first | assumption | apply State.writeMem_keeps | apply Keeps.foldl) | intro _

theorem State.storeRow_keeps : ∀ z s a1 a2 a3 a4 a5, Keeps z s → Keeps z (State.storeRow s a1 a2 a3 a4 a5).2 := by
  intros; unfold State.storeRow; (try dsimp only)
  repeat' first
    | (with_reducible first
        | assumption | apply State.writeBuf_keeps | apply Keeps.foldl | apply Keeps.foldlPair
        | apply Keeps.foldlPair2)
    | intro _ | split

theorem State.runJob_keeps : ∀ z s a1 a2 a3 a4, Keeps z s → Keeps z (State.runJob s a1 a2 a3 a4).2 := by
  intros; unfold State.runJob; (try dsimp only)
  repeat' first
    | (with_reducible first
        | assumption | apply State.countFlush_keeps | apply State.tookDraws_keeps | apply State.storeRow_keeps
        | apply Keeps.foldl | apply Keeps.foldlPair | apply Keeps.foldlPair2)
    | intro _

theorem State.setProg_keeps : ∀ z s a1 a2, Keeps z s → Keeps z (State.setProg s a1 a2) := by
  intros; unfold State.setProg
  repeat' first | (with_reducible first | assumption | apply State.setEng_keeps)

theorem State.setRun_keeps : ∀ z s a1 a2, Keeps z s → Keeps z (State.setRun s a1 a2) := by
  intros; unfold State.setRun
  repeat' first | (with_reducible first | assumption | apply State.setProg_keeps) | split

theorem State.setQueue_keeps : ∀ z s a1 a2, Keeps z s → Keeps z (State.setQueue s a1 a2) := by
  intros; unfold State.setQueue
  repeat' first | (with_reducible first | assumption | apply State.setEng_keeps)

theorem State.issueJobs_keeps : ∀ z s a1 a2 a3, Keeps z s → Keeps z (State.issueJobs s a1 a2 a3).2 := by
  intros; rename_i h; revert h; fun_induction State.issueJobs <;> intros <;> (try dsimp only) <;>
  (repeat' first | with_reducible assumption | with_reducible apply_assumption)

theorem State.loseOutputs_keeps : ∀ z s a1, Keeps z s → Keeps z (State.loseOutputs s a1) := by
  intros; unfold State.loseOutputs
  repeat' first | (with_reducible first | assumption | apply State.undefine_keeps | apply Keeps.foldl) | intro _

theorem State.dropWaiting_keeps : ∀ z s a1, Keeps z s → Keeps z (State.dropWaiting s a1) := by
  intros; unfold State.dropWaiting; (try dsimp only)
  repeat' first
    | (with_reducible first
        | assumption | apply State.setEngine_keeps | apply State.engineIdle_keeps | apply State.setQueue_keeps
        | apply Keeps.foldl | apply Keeps.foldlPair | apply Keeps.foldlPair2)
    | intro _ | split

theorem State.cancelJobs_keeps : ∀ z s a1, Keeps z s → Keeps z (State.cancelJobs s a1) := by
  intros; unfold State.cancelJobs; (try dsimp only)
  repeat' first
    | (with_reducible first
        | assumption | apply State.setEngine_keeps | apply State.dropWaiting_keeps | apply Keeps.foldl
        | apply Keeps.foldlPair | apply Keeps.foldlPair2)
    | intro _ | split

theorem State.endRun_keeps : ∀ z s a1 a2, Keeps z s → Keeps z (State.endRun s a1 a2) := by
  intros; unfold State.endRun; (try dsimp only)
  repeat' first
    | (with_reducible first
        | assumption | apply State.workEnded_keeps | apply State.withdraw_keeps | apply State.setEng_keeps
        | apply State.dropBench_keeps | apply State.setProg_keeps | apply State.cancelJobs_keeps | apply Keeps.foldl
        | apply Keeps.foldlPair | apply Keeps.foldlPair2)
    | intro _ | split

theorem State.sendOutput_keeps : ∀ z s a1 a2 a3, Keeps z s → Keeps z (State.sendOutput s a1 a2 a3).2 := by
  intros; unfold State.sendOutput; (try dsimp only)
  repeat' first | (with_reducible first | assumption | apply State.send_keeps | apply Keeps.foldl) | intro _

theorem State.issueStep_keeps : ∀ z s a1, Keeps z s → Keeps z (State.issueStep s a1) := by
  intros; unfold State.issueStep; (try dsimp only)
  repeat' first
    | (with_reducible first
        | assumption | apply State.endRun_keeps | apply State.setProg_keeps | apply State.issueJobs_keeps)
    | split

theorem State.advanceRun_keeps : ∀ z s a1 a2, Keeps z s → Keeps z (State.advanceRun s a1 a2) := by
  intro z s a1 a2
  induction a2 generalizing s a1 with
  | zero =>
    intros; unfold State.advanceRun
    repeat' first
      | (with_reducible first
          | assumption | apply State.setRun_keeps | apply State.endRun_keeps | apply State.sendOutput_keeps
          | apply State.issueStep_keeps | apply Keeps.foldl | apply Keeps.foldlPair | apply Keeps.foldlPair2)
      | intro _ | split | (rename_i e; have e := congrArg Prod.snd e; dsimp only at e; subst e)
      | (rename_i e; have e := congrArg (fun q => q.2.2) e; dsimp only at e; subst e)
      | (fail_if_no_progress with_reducible apply Keeps.lit)
  | succ n ih =>
    intros
    unfold State.advanceRun; (try dsimp only)
    repeat' first
      | (with_reducible first
          | assumption | apply ih | apply State.setRun_keeps | apply State.endRun_keeps
          | apply State.sendOutput_keeps | apply State.issueStep_keeps | apply Keeps.foldl | apply Keeps.foldlPair
          | apply Keeps.foldlPair2)
      | intro _ | split | (rename_i e; have e := congrArg Prod.snd e; dsimp only at e; subst e)
      | (rename_i e; have e := congrArg (fun q => q.2.2) e; dsimp only at e; subst e)
      | (fail_if_no_progress with_reducible apply Keeps.lit)

theorem State.goOn_keeps : ∀ z s a1, Keeps z s → Keeps z (State.goOn s a1) := by
  intros; unfold State.goOn; (try dsimp only)
  repeat' first
    | (with_reducible first
        | assumption | apply State.advanceRun_keeps | apply Keeps.foldl | apply Keeps.foldlPair
        | apply Keeps.foldlPair2)
    | intro _ | split | (fail_if_no_progress with_reducible apply Keeps.lit)

theorem State.outputSettled_keeps : ∀ z s a1, Keeps z s → Keeps z (State.outputSettled s a1) := by
  intros; unfold State.outputSettled; (try dsimp only)
  repeat' first
    | (with_reducible first
        | assumption | apply State.setRun_keeps | apply State.goOn_keeps | apply Keeps.foldl | apply Keeps.foldlPair
        | apply Keeps.foldlPair2)
    | intro _ | split | (fail_if_no_progress with_reducible apply Keeps.lit)

theorem State.beginRun_keeps : ∀ z s a1 a2 a3 a4, Keeps z s → Keeps z (State.beginRun s a1 a2 a3 a4) := by
  intros; unfold State.beginRun
  repeat' first
    | (with_reducible first
        | assumption | apply State.setProg_keeps | apply State.issueStep_keeps | apply State.goOn_keeps
       )
   

theorem State.takeBench_keeps {z s s' : State} {t m : Nat} {b : Nat × Nat} (e : s.takeBench t m = some (b, s'))
    (h : Keeps z s) : Keeps z s' := by
  unfold State.takeBench at e
  split at e
  · exact absurd e (by simp)
  · simp only [Option.some.injEq, Prod.mk.injEq] at e
    rw [← e.2]
    exact State.clearMem_keeps (State.setEng_keeps _ _ _ h) _ _

theorem State.takeBenches_keeps {z s s' : State} {t d m n : Nat} {b : List (Nat × Nat)}
    (e : s.takeBenches t d m n = some (b, s')) (h : Keeps z s) : Keeps z s' := by
  induction n generalizing b s' with
  | zero =>
    simp only [State.takeBenches, Option.some.injEq, Prod.mk.injEq] at e
    rw [← e.2]; exact h
  | succ n ih =>
    unfold State.takeBenches at e
    split at e
    · exact absurd e (by simp)
    · rename_i hb
      split at e
      · exact absurd e (by simp)
      · rename_i hc
        simp only [Option.some.injEq, Prod.mk.injEq] at e
        rw [← e.2]
        exact State.takeBench_keeps hc (ih hb)

theorem State.startRun_keeps : ∀ z s a1 a2, Keeps z s → Keeps z (State.startRun s a1 a2).2 := by
  intros; unfold State.startRun
  repeat' first
    | (with_reducible first
        | assumption | apply State.beginRun_keeps | apply State.bump_keeps
        | apply State.takeBenches_keeps (by with_reducible assumption))
    | split

theorem State.engineFree_keeps : ∀ z s a1, Keeps z s → Keeps z (State.engineFree s a1) := by
  intros; unfold State.engineFree
  repeat' first | (with_reducible first | assumption | apply State.engineIdle_keeps | apply State.setEngine_keeps)

theorem State.jobCounted_keeps : ∀ z s a1, Keeps z s → Keeps z (State.jobCounted s a1) := by
  intros; unfold State.jobCounted; (try dsimp only)
  repeat' first
    | (with_reducible first
        | assumption | apply State.setRun_keeps | apply State.goOn_keeps | apply Keeps.foldl | apply Keeps.foldlPair
        | apply Keeps.foldlPair2)
    | intro _ | split | (fail_if_no_progress with_reducible apply Keeps.lit)

theorem State.stopRun_keeps : ∀ z s a1 a2, Keeps z s → Keeps z (State.stopRun s a1 a2) := by
  intros; unfold State.stopRun; (try dsimp only)
  repeat' first
    | (with_reducible first
        | assumption | apply State.setRun_keeps | apply State.dropWaiting_keeps | apply Keeps.foldl
        | apply Keeps.foldlPair | apply Keeps.foldlPair2)
    | intro _ | split | (fail_if_no_progress with_reducible apply Keeps.lit)

theorem State.jobGood_keeps : ∀ z s a1 a2 a3, Keeps z s → Keeps z (State.jobGood s a1 a2 a3) := by
  intros; unfold State.jobGood; (try dsimp only)
  repeat' first
    | (with_reducible first
        | assumption | apply State.raiseAll_keeps | apply State.runJob_keeps | apply State.setRun_keeps
        | apply State.jobCounted_keeps | apply State.stopRun_keeps | apply Keeps.foldl | apply Keeps.foldlPair
        | apply Keeps.foldlPair2)
    | intro _ | split

theorem State.requeue_keeps : ∀ z s a1, Keeps z s → Keeps z (State.requeue s a1) :=
  fun _ _ _ h => h

theorem State.engineFailed_keeps : ∀ z s a1, Keeps z s → Keeps z (State.engineFailed s a1) := by
  intros; unfold State.engineFailed; (try dsimp only)
  repeat' first
    | (with_reducible first
        | assumption | apply State.bump_keeps | apply State.report_keeps | apply State.setEngine_keeps
        | apply State.engineRetired_keeps | apply State.requeue_keeps | apply Keeps.foldl | apply Keeps.foldlPair
        | apply Keeps.foldlPair2)
    | intro _ | split

theorem State.jobBad_keeps : ∀ z s a1, Keeps z s → Keeps z (State.jobBad s a1) := by
  intros; unfold State.jobBad
  repeat' first
    | (with_reducible first
        | assumption | apply State.setRun_keeps | apply State.endRun_keeps | apply State.requeue_keeps
        | apply Keeps.foldl | apply Keeps.foldlPair | apply Keeps.foldlPair2)
    | intro _ | split

theorem State.jobDone_keeps : ∀ z s a1 a2, Keeps z s → Keeps z (State.jobDone s a1 a2) := by
  intros; unfold State.jobDone; (try dsimp only)
  repeat' first
    | (with_reducible first
        | assumption | apply State.bump_keeps | apply State.engineFree_keeps | apply State.jobGood_keeps
        | apply State.engineFailed_keeps | apply State.jobBad_keeps | apply Keeps.foldl | apply Keeps.foldlPair
        | apply Keeps.foldlPair2)
    | intro _ | split

theorem State.assign_keeps : ∀ z s a1 a2, Keeps z s → Keeps z (State.assign s a1 a2) := by
  intros; rename_i h; revert h; fun_induction State.assign <;> intros <;> (try dsimp only) <;>
  (repeat' first | with_reducible assumption | with_reducible apply_assumption)

theorem State.assignTile_keeps : ∀ z s a1, Keeps z s → Keeps z (State.assignTile s a1) := by
  intros; unfold State.assignTile; (try dsimp only)
  repeat' first | (with_reducible first | assumption | apply State.assign_keeps | apply State.setQueue_keeps)

theorem State.giveJobs_keeps : ∀ z s a1 a2 a3, Keeps z s → Keeps z (State.giveJobs s a1 a2 a3) := by
  intros; unfold State.giveJobs; (try dsimp only)
  repeat' first
    | (with_reducible first
        | assumption | apply State.setQueue_keeps | apply State.bump_keeps | apply State.assign_keeps)

theorem State.assignmentPoint_keeps : ∀ z s, Keeps z s → Keeps z (State.assignmentPoint s) := by
  intros; unfold State.assignmentPoint; (try dsimp only)
  repeat' first
    | (with_reducible first
        | assumption | apply State.fillTile_keeps | apply State.issueJobs_keeps | apply State.setRun_keeps
        | apply State.assignTile_keeps | apply State.setEng_keeps | apply State.giveJobs_keeps | apply Keeps.foldl)
    | intro _ | split

theorem State.overrun_keeps : ∀ z s a1, Keeps z s → Keeps z (State.overrun s a1) := by
  intros; unfold State.overrun; (try dsimp only)
  repeat' first
    | (with_reducible first
        | assumption | apply State.setEngine_keeps | apply State.bump_keeps | apply State.report_keeps
        | apply State.event_keeps)
    | split

theorem State.engineTick_keeps : ∀ z s, Keeps z s → Keeps z (State.engineTick s) := by
  intros; unfold State.engineTick; (try dsimp only)
  repeat' first
    | (with_reducible first
        | assumption | apply State.bump_keeps | apply State.setEngine_keeps | apply State.testTick_keeps
        | apply State.overrun_keeps | apply Keeps.foldl | apply Keeps.foldlPair | apply Keeps.foldlPair2)
    | intro _ | split

theorem State.stopTile_keeps : ∀ z s a1, Keeps z s → Keeps z (State.stopTile s a1) := by
  intros; unfold State.stopTile; (try dsimp only)
  repeat' first
    | (with_reducible first
        | assumption | apply State.setEng_keeps | apply State.setEngine_keeps | apply State.engineIdle_keeps
        | apply State.setQueue_keeps | apply Keeps.foldl | apply Keeps.foldlPair | apply Keeps.foldlPair2)
    | intro _ | split

theorem State.startTile_keeps : ∀ z s a1 a2, Keeps z s → Keeps z (State.startTile s a1 a2) := by
  intros; unfold State.startTile; (try dsimp only)
  repeat' first
    | (with_reducible first
        | assumption | apply State.setEng_keeps | apply State.engineTestFailed_keeps | apply Keeps.foldl
        | apply Keeps.foldlPair | apply Keeps.foldlPair2)
    | intro _

theorem State.setLane_keeps : ∀ z s a1 a2, Keeps z s → Keeps z (State.setLane s a1 a2) :=
  fun _ _ _ _ h => h

theorem State.setLsm_keeps : ∀ z s a1 a2, Keeps z s → Keeps z (State.setLsm s a1 a2) :=
  fun _ _ _ _ h => h

theorem State.setInUse_keeps : ∀ z s a1 a2 a3, Keeps z s → Keeps z (State.setInUse s a1 a2 a3) := by
  intros; unfold State.setInUse; (try dsimp only)
  repeat' first
    | (with_reducible first
        | assumption | apply State.setLane_keeps | apply Keeps.foldl)
    | intro _ | split

theorem State.askTest_keeps : ∀ z s a1, Keeps z s → Keeps z (State.askTest s a1) := by
  intros; unfold State.askTest; (try dsimp only)
  repeat' first
    | (with_reducible first
        | assumption | apply State.emit_keeps | apply State.setLane_keeps | apply Keeps.foldl
        | apply Keeps.foldlPair | apply Keeps.foldlPair2)
    | intro _ | split

theorem State.setWidth_keeps : ∀ z s a1 a2 a3, Keeps z s → Keeps z (State.setWidth s a1 a2 a3) := by
  intros; unfold State.setWidth; (try dsimp only)
  repeat' first
    | (with_reducible first
        | assumption | apply State.setPort_keeps | apply State.scaleEvent_keeps | apply State.setInUse_keeps
        | apply State.askTest_keeps | apply Keeps.foldl)
   

theorem State.forgetCaps_keeps : ∀ z s a1, Keeps z s → Keeps z (State.forgetCaps s a1) := by
  intros; unfold State.forgetCaps
  repeat' first
    | (with_reducible first
        | assumption | apply State.setLane_keeps | apply Keeps.foldl | apply Keeps.foldlPair
        | apply Keeps.foldlPair2)
    | intro _ | split

theorem State.dropReception_keeps : ∀ z s a1, Keeps z s → Keeps z (State.dropReception s a1) := by
  intros; unfold State.dropReception; (try dsimp only)
  repeat' first
    | (with_reducible first
        | assumption | apply State.dropRx_keeps | apply Keeps.foldl | apply Keeps.foldlPair | apply Keeps.foldlPair2)
    | intro _ | split | (fail_if_no_progress with_reducible apply Keeps.lit)

theorem State.portState_keeps : ∀ z s a1 a2, Keeps z s → Keeps z (State.portState s a1 a2) := by
  intros; unfold State.portState; (try dsimp only)
  repeat' first
    | (with_reducible first
        | assumption | apply State.setPort_keeps | apply State.flushPort_keeps | apply State.scaleEvent_keeps
        | apply State.tickPortLost_keeps | apply State.routeInactive_keeps | apply State.setInUse_keeps
        | apply State.forgetCaps_keeps | apply State.dropReception_keeps | apply Keeps.foldl | apply Keeps.foldlPair
        | apply Keeps.foldlPair2)
    | intro _ | split

theorem State.portEvent_keeps : ∀ z s a1, Keeps z s → Keeps z (State.portEvent s a1) := by
  intros; unfold State.portEvent; (try dsimp only)
  repeat' first | (with_reducible first | assumption | apply State.event_keeps)

theorem State.failAttempt_keeps : ∀ z s a1, Keeps z s → Keeps z (State.failAttempt s a1) := by
  intros; unfold State.failAttempt; (try dsimp only)
  repeat' first
    | (with_reducible first
        | assumption | apply State.setPort_keeps | apply State.portState_keeps | apply State.portEvent_keeps)
    | split

theorem State.portActive_keeps : ∀ z s a1 a2 a3, Keeps z s → Keeps z (State.portActive s a1 a2 a3) := by
  intros; unfold State.portActive; (try dsimp only)
  repeat' first
    | (with_reducible first
        | assumption | apply State.setPort_keeps | apply State.setWidth_keeps | apply State.emit_keeps
        | apply State.routeActive_keeps | apply State.announceOn_keeps)

theorem State.enablePort_keeps : ∀ z s a1, Keeps z s → Keeps z (State.enablePort s a1) := by
  intros; unfold State.enablePort; (try dsimp only)
  repeat' first
    | (with_reducible first
        | assumption | apply State.setPort_keeps | apply State.portState_keeps | apply Keeps.foldl)
    | intro _ | split | (fail_if_no_progress with_reducible apply Keeps.lit)

theorem State.lightLsms_keeps : ∀ z s, Keeps z s → Keeps z (State.lightLsms s) := by
  intros; unfold State.lightLsms; (try dsimp only)
  repeat' first | (with_reducible first | assumption | apply State.setLsm_keeps | apply Keeps.foldl) | intro _ | split

theorem State.disablePort_keeps : ∀ z s a1, Keeps z s → Keeps z (State.disablePort s a1) := by
  intros; unfold State.disablePort
  repeat' first | (with_reducible first | assumption | apply State.portState_keeps)

theorem State.sendCaps_keeps : ∀ z s a1, Keeps z s → Keeps z (State.sendCaps s a1) := by
  intros; unfold State.sendCaps
  repeat' first
    | (with_reducible first
        | assumption | apply State.emit_keeps | apply Keeps.foldl | apply Keeps.foldlPair | apply Keeps.foldlPair2)
    | intro _ | split

theorem State.refusePort_keeps : ∀ z s a1 a2 a3, Keeps z s → Keeps z (State.refusePort s a1 a2 a3) := by
  intros; unfold State.refusePort; (try dsimp only)
  repeat' first
    | (with_reducible first
        | assumption | apply State.setPort_keeps | apply State.event_keeps | apply State.portEvent_keeps)
    | split

theorem State.exchangeCaps_keeps : ∀ z s a1 a2, Keeps z s → Keeps z (State.exchangeCaps s a1 a2) := by
  intros; unfold State.exchangeCaps; (try dsimp only)
  repeat' first
    | (with_reducible first
        | assumption | apply State.setPort_keeps | apply State.refusePort_keeps | apply State.sendCaps_keeps
        | apply State.portActive_keeps)
    | split

theorem State.hearCaps_keeps : ∀ z s a1 a2 a3 a4, Keeps z s → Keeps z (State.hearCaps s a1 a2 a3 a4) := by
  intros; unfold State.hearCaps; (try dsimp only)
  repeat' first
    | (with_reducible first
        | assumption | apply State.setLane_keeps | apply State.exchangeCaps_keeps | apply Keeps.foldl
        | apply Keeps.foldlPair | apply Keeps.foldlPair2)
    | intro _ | split

theorem State.toDetect_keeps : ∀ z s a1, Keeps z s → Keeps z (State.toDetect s a1) := by
  intros; unfold State.toDetect
  repeat' first | (with_reducible first | assumption | apply State.portState_keeps)

theorem State.startStep_keeps : ∀ z s a1, Keeps z s → Keeps z (State.startStep s a1) := by
  intros; unfold State.startStep; (try dsimp only)
  repeat' first
    | (with_reducible first
        | assumption | apply State.setPort_keeps | apply State.toDetect_keeps | apply State.emit_keeps)
    | split

theorem State.answerStep_keeps : ∀ z s a1 a2, Keeps z s → Keeps z (State.answerStep s a1 a2) := by
  intros; unfold State.answerStep; (try dsimp only)
  repeat' first
    | (with_reducible first
        | assumption | apply State.toDetect_keeps | apply State.emit_keeps | apply State.setPort_keeps)
    | split

theorem State.stepAcked_keeps : ∀ z s a1 a2 a3, Keeps z s → Keeps z (State.stepAcked s a1 a2 a3) := by
  intros; unfold State.stepAcked
  repeat' first | (with_reducible first | assumption | apply State.toDetect_keeps | apply State.setPort_keeps) | split

theorem State.stepDone_keeps : ∀ z s a1, Keeps z s → Keeps z (State.stepDone s a1) := by
  intros; unfold State.stepDone; (try dsimp only)
  repeat' first
    | (with_reducible first
        | assumption | apply State.setPort_keeps | apply State.startStep_keeps)
    | split

theorem State.stepSwitch_keeps : ∀ z s a1, Keeps z s → Keeps z (State.stepSwitch s a1) := by
  intros; unfold State.stepSwitch; (try dsimp only)
  repeat' first
    | (with_reducible first
        | assumption | apply State.setPort_keeps | apply State.stepDone_keeps | apply State.emit_keeps
        | apply State.setWidth_keeps)
    | split

theorem State.stepMarker_keeps : ∀ z s a1, Keeps z s → Keeps z (State.stepMarker s a1) := by
  intros; unfold State.stepMarker
  repeat' first | (with_reducible first | assumption | apply State.stepDone_keeps | apply State.setPort_keeps) | split

theorem State.laneLoss_keeps : ∀ z s a1 a2, Keeps z s → Keeps z (State.laneLoss s a1 a2) := by
  intros; unfold State.laneLoss; (try dsimp only)
  repeat' first
    | (with_reducible first
        | assumption | apply State.setLane_keeps | apply State.bump_keeps | apply State.toDetect_keeps
        | apply State.startStep_keeps)
    | split

theorem State.laneGain_keeps : ∀ z s a1 a2, Keeps z s → Keeps z (State.laneGain s a1 a2) := by
  intros; unfold State.laneGain
  repeat' first | (with_reducible first | assumption | apply State.setLane_keeps)

theorem State.retireLane_keeps : ∀ z s a1 a2, Keeps z s → Keeps z (State.retireLane s a1 a2) := by
  intros; unfold State.retireLane; (try dsimp only)
  repeat' first
    | (with_reducible first
        | assumption | apply State.event_keeps | apply State.setLane_keeps | apply State.startStep_keeps
        | apply Keeps.foldl)
    | intro _ | split | (fail_if_no_progress with_reducible apply Keeps.lit)

theorem State.autoRetire_keeps : ∀ z s a1, Keeps z s → Keeps z (State.autoRetire s a1) := by
  intros; unfold State.autoRetire; (try dsimp only)
  repeat' first
    | (with_reducible first
        | assumption | apply State.report_keeps | apply State.retireLane_keeps | apply State.event_keeps)
    | split

theorem State.restoreLane_keeps : ∀ z s a1, Keeps z s → Keeps z (State.restoreLane s a1) := by
  intros; unfold State.restoreLane; (try dsimp only)
  repeat' first
    | (with_reducible first
        | assumption | apply State.event_keeps | apply State.setLane_keeps | apply Keeps.foldl)
    | intro _ | split | (fail_if_no_progress with_reducible apply Keeps.lit)

theorem State.fecCount_keeps : ∀ z s a1, Keeps z s → Keeps z (State.fecCount s a1) := by
  intros; unfold State.fecCount; (try dsimp only)
  repeat' first
    | (with_reducible first
        | assumption | apply State.bump_keeps | apply State.setReg_keeps | apply State.setLane_keeps)

theorem State.linkTick_keeps : ∀ z s a1, Keeps z s → Keeps z (State.linkTick s a1) := by
  intros; unfold State.linkTick; (try dsimp only)
  repeat' first
    | (with_reducible first
        | assumption | apply State.fecCount_keeps | apply Keeps.foldl)
    | intro _ | split | (fail_if_no_progress with_reducible apply Keeps.lit)

theorem State.windowEnd_keeps : ∀ z s, Keeps z s → Keeps z (State.windowEnd s) := by
  intros; unfold State.windowEnd; (try dsimp only)
  repeat' first
    | (with_reducible first
        | assumption | apply Keeps.foldl)
    | intro _ | split | (fail_if_no_progress with_reducible apply Keeps.lit)

theorem State.startLaneTest_keeps : ∀ z s a1 a2 a3 a4, Keeps z s → Keeps z (State.startLaneTest s a1 a2 a3 a4) := by
  intros; unfold State.startLaneTest; (try dsimp only)
  repeat' first
    | (with_reducible first
        | assumption | apply State.setLane_keeps | apply State.askTest_keeps | apply State.startStep_keeps
        | apply Keeps.foldl | apply Keeps.foldlPair | apply Keeps.foldlPair2)
    | intro _ | split

theorem State.endLaneTest_keeps : ∀ z s a1 a2, Keeps z s → Keeps z (State.endLaneTest s a1 a2) := by
  intros; unfold State.endLaneTest; (try dsimp only)
  repeat' first
    | (with_reducible first
        | assumption | apply State.setLane_keeps | apply State.retireLane_keeps)
    | split

theorem State.laserRead_keeps : ∀ z s a1, Keeps z s → Keeps z (State.laserRead s a1) := by
  intros; unfold State.laserRead; (try dsimp only)
  repeat' first
    | (with_reducible first
        | assumption | apply State.event_keeps | apply State.report_keeps | apply State.setLsm_keeps)
    | split

theorem State.spareOn_keeps : ∀ z s a1, Keeps z s → Keeps z (State.spareOn s a1) := by
  intros; unfold State.spareOn; (try dsimp only)
  repeat' first | (with_reducible first | assumption | apply State.event_keeps | apply State.setLsm_keeps) | split

theorem State.lsmDark_keeps : ∀ z s a1, Keeps z s → Keeps z (State.lsmDark s a1) := by
  intros; unfold State.lsmDark; (try dsimp only)
  repeat' first
    | (with_reducible first
        | assumption | apply State.setLsm_keeps | apply State.portState_keeps | apply Keeps.foldl)
    | intro _ | split

theorem State.lsmRelease_keeps : ∀ z s a1, Keeps z s → Keeps z (State.lsmRelease s a1) := by
  intros; unfold State.lsmRelease; (try dsimp only)
  repeat' first
    | (with_reducible first
        | assumption | apply State.setLsm_keeps | apply State.trunkCheck_keeps | apply State.setRoute_keeps
        | apply Keeps.foldl)
    | intro _ | split

theorem State.lsmReleased_keeps : ∀ z s a1, Keeps z s → Keeps z (State.lsmReleased s a1) := by
  intros; unfold State.lsmReleased; (try dsimp only)
  repeat' first
    | (with_reducible first
        | assumption | apply State.event_keeps | apply State.flushPort_keeps | apply State.setLsm_keeps
        | apply State.lsmDark_keeps | apply Keeps.foldl | apply Keeps.foldlPair | apply Keeps.foldlPair2)
    | intro _

theorem State.lsmClosed_keeps : ∀ z s a1 a2 a3, Keeps z s → Keeps z (State.lsmClosed s a1 a2 a3) := by
  intros; unfold State.lsmClosed; (try dsimp only)
  repeat' first
    | (with_reducible first
        | assumption | apply State.event_keeps | apply State.report_keeps | apply State.setLsm_keeps
        | apply Keeps.foldl | apply Keeps.foldlPair | apply Keeps.foldlPair2)
    | intro _ | split

theorem State.lsmLit_keeps : ∀ z s a1, Keeps z s → Keeps z (State.lsmLit s a1) := by
  intros; unfold State.lsmLit; (try dsimp only)
  repeat' first
    | (with_reducible first
        | assumption | apply State.setLsm_keeps | apply State.event_keeps | apply State.portState_keeps
        | apply Keeps.foldl)
    | intro _ | split

end Sys2Proof.Machine
end

