-- ==== Sys2Proof/Laws/KeepsGroups.lean ====
section
/-! SUPPORT. What the module does leaves the queue of commands alone and the memory in its form: collectives and
barriers. -/

namespace Sys2Proof.Machine

theorem State.setColl_keeps : ∀ z s a1, Keeps z s → Keeps z (State.setColl s a1) :=
  fun _ _ _ h => h

theorem State.setOp_keeps : ∀ z s a1 a2, Keeps z s → Keeps z (State.setOp s a1 a2) := by
  intros; unfold State.setOp
  repeat' first | (with_reducible first | assumption | apply State.setColl_keeps) | split

theorem State.setInst_keeps : ∀ z s a1 a2, Keeps z s → Keeps z (State.setInst s a1 a2) := by
  intros; unfold State.setInst
  repeat' first | (with_reducible first | assumption | apply State.setOp_keeps)

theorem State.dropChunk_keeps : ∀ z s a1, Keeps z s → Keeps z (State.dropChunk s a1) := by
  intros; unfold State.dropChunk; (try dsimp only)
  repeat' first
    | (with_reducible first
        | assumption | apply State.dropCtx_keeps | apply State.dropBench_keeps | apply State.free_keeps
        | apply Keeps.foldl)
    | intro _ | split

theorem State.claimChunk_keeps : ∀ z s a1 a2 a3 a4, Keeps z s → Keeps z (State.claimChunk s a1 a2 a3 a4).2 := by
  intros; unfold State.claimChunk; (try dsimp only)
  repeat' first
    | (with_reducible first
        | assumption | apply State.alloc_keeps | apply State.useCtx_keeps | apply State.dropBench_keeps
        | apply State.takeBenches_keeps (by with_reducible assumption) | apply Keeps.foldl)
    | (rename_i e; have e := congrArg Prod.snd e; dsimp only at e; subst e)
    | (rename_i e; have e := congrArg (fun q => q.2.2) e; dsimp only at e; subst e) | intro _ | split

theorem State.claimEach_keeps : ∀ z s a1 a2 a3, Keeps z s → Keeps z (State.claimEach s a1 a2 a3).2 := by
  intro z s a1 a2 a3
  induction a3 generalizing s a1 a2 with
  | zero =>
    intros; unfold State.claimEach
    repeat' first
      | (with_reducible first
          | assumption | apply State.dropChunk_keeps | apply State.claimChunk_keeps | apply Keeps.foldl
          | apply Keeps.foldlPair | apply Keeps.foldlPair2)
      | (rename_i e; have e := congrArg Prod.snd e; dsimp only at e; subst e)
      | (rename_i e; have e := congrArg (fun q => q.2.2) e; dsimp only at e; subst e) | intro _ | split
      | (fail_if_no_progress with_reducible apply Keeps.lit)
  | succ n ih =>
    intros
    unfold State.claimEach; (try dsimp only)
    repeat' first
      | (with_reducible first
          | assumption | apply ih | apply State.dropChunk_keeps | apply State.claimChunk_keeps | apply Keeps.foldl
          | apply Keeps.foldlPair | apply Keeps.foldlPair2)
      | (rename_i e; have e := congrArg Prod.snd e; dsimp only at e; subst e)
      | (rename_i e; have e := congrArg (fun q => q.2.2) e; dsimp only at e; subst e) | intro _ | split
      | (fail_if_no_progress with_reducible apply Keeps.lit)

theorem State.claimSlots_keeps : ∀ z s a1 a2, Keeps z s → Keeps z (State.claimSlots s a1 a2).2 := by
  intros; unfold State.claimSlots
  repeat' first
    | (with_reducible first
        | assumption | apply State.claimEach_keeps | apply Keeps.foldl | apply Keeps.foldlPair
        | apply Keeps.foldlPair2)
    | intro _ | split

theorem State.benchAdd_keeps : ∀ z s a1 a2 a3, Keeps z s → Keeps z (State.benchAdd s a1 a2 a3).2 := by
  intros; rename_i h; revert h; fun_induction State.benchAdd <;> intros <;> (try dsimp only) <;>
  (repeat' first
     | with_reducible assumption | with_reducible apply_assumption | with_reducible apply State.setBenchPair_keeps)

theorem State.absorb_keeps : ∀ z s a1 a2 a3, Keeps z s → Keeps z (State.absorb s a1 a2 a3).2.2 := by
  intros; unfold State.absorb; (try dsimp only)
  repeat' first | (with_reducible first | assumption | apply State.benchAdd_keeps | apply State.bump_keeps)

theorem State.badContrib_keeps : ∀ z s a1 a2, Keeps z s → Keeps z (State.badContrib s a1 a2) := by
  intros; unfold State.badContrib
  repeat' first
    | (with_reducible first
        | assumption | apply State.report_keeps | apply State.event_keeps | apply State.bump_keeps)

theorem State.partialFrame_keeps : ∀ z s a1 a2 a3 a4 a5 a6 a7 a8, Keeps z s → Keeps z (State.partialFrame s a1 a2
    a3 a4 a5 a6 a7 a8).2.2 := by
  intros; unfold State.partialFrame; (try dsimp only)
  repeat' first
    | (with_reducible first
        | assumption | apply State.raiseAll_keeps | apply State.countFlush_keeps | apply State.tookDraws_keeps
       )
   

theorem State.resultFrame_keeps : ∀ z s a1 a2 a3 a4 a5 a6 a7 a8, Keeps z s → Keeps z (State.resultFrame s a1 a2 a3 a4
    a5 a6 a7 a8).2.2.2 := by
  intros; unfold State.resultFrame; (try dsimp only)
  repeat' first
    | (with_reducible first
        | assumption | apply State.countFlush_keeps | apply State.tookDraws_keeps | apply State.raiseAll_keeps)

theorem State.attribute_keeps : ∀ z s a1, Keeps z s → Keeps z (State.attribute s a1) := by
  intros; unfold State.attribute; (try dsimp only)
  repeat' first
    | (with_reducible first
        | assumption | apply State.stamped_keeps | apply Keeps.foldl)
    | intro _ | split | (fail_if_no_progress with_reducible apply Keeps.lit)

theorem State.sendComplete_keeps : ∀ z s a1 a2 a3 a4 a5 a6 a7 a8, Keeps z s → Keeps z (State.sendComplete s a1 a2 a3
    a4 a5 a6 a7 a8) := by
  intros; unfold State.sendComplete; (try dsimp only)
  repeat' first
    | (with_reducible first
        | assumption | apply State.setOp_keeps | apply State.bump_keeps | apply State.send_keeps)
   

theorem State.findHedged_keeps : ∀ z s a1 a2 a3, Keeps z s → Keeps z (State.findHedged s a1 a2 a3).2 := by
  intros; unfold State.findHedged; (try dsimp only)
  repeat' first
    | (with_reducible first
        | assumption | apply State.bump_keeps | apply Keeps.foldl | apply Keeps.foldlPair | apply Keeps.foldlPair2)
    | intro _ | split

theorem State.countEnding_keeps : ∀ z s a1 a2, Keeps z s → Keeps z (State.countEnding s a1 a2) := by
  intros; unfold State.countEnding; (try dsimp only)
  repeat' first | (with_reducible first | assumption | apply State.bump_keeps) | split

theorem State.completeSettled_keeps : ∀ z s a1 a2, Keeps z s → Keeps z (State.completeSettled s a1 a2) := by
  intros; unfold State.completeSettled; (try dsimp only)
  repeat' first
    | (with_reducible first
        | assumption | apply State.setOp_keeps | apply State.dropChunk_keeps | apply Keeps.foldl)
    | intro _ | split

theorem State.endInstance_keeps : ∀ z s a1 a2, Keeps z s → Keeps z (State.endInstance s a1 a2) := by
  intros; unfold State.endInstance; (try dsimp only)
  repeat' first
    | (with_reducible first
        | assumption | apply State.bump_keeps | apply State.stamped_keeps | apply State.workEnded_keeps
        | apply State.setColl_keeps | apply State.setOp_keeps | apply State.sendComplete_keeps
        | apply State.findHedged_keeps | apply State.countEnding_keeps | apply State.completeSettled_keeps
        | apply Keeps.foldl | apply Keeps.foldlPair | apply Keeps.foldlPair2)
    | intro _ | split | (fail_if_no_progress with_reducible apply Keeps.lit)

theorem State.replayOr_keeps : ∀ z s a1 a2, Keeps z s → Keeps z (State.replayOr s a1 a2) := by
  intros; unfold State.replayOr
  repeat' first | (with_reducible first | assumption | apply State.endInstance_keeps) | split

theorem State.checkDone_keeps : ∀ z s a1, Keeps z s → Keeps z (State.checkDone s a1) := by
  intros; unfold State.checkDone; (try dsimp only)
  repeat' first | (with_reducible first | assumption | apply State.endInstance_keeps) | split

theorem State.freeSlot_keeps : ∀ z s a1 a2, Keeps z s → Keeps z (State.freeSlot s a1 a2) := by
  intros; unfold State.freeSlot; (try dsimp only)
  repeat' first
    | (with_reducible first
        | assumption | apply State.clearMem_keeps | apply State.checkDone_keeps | apply State.setInst_keeps
        | apply Keeps.foldl)
    | intro _ | split

theorem State.sendResults_keeps : ∀ z s a1 a2 a3 a4 a5 a6, Keeps z s → Keeps z (State.sendResults s a1 a2 a3 a4 a5
    a6) := by
  intros; unfold State.sendResults; (try dsimp only)
  repeat' first
    | (with_reducible first
        | assumption | apply State.send_keeps | apply State.setInst_keeps | apply State.resultFrame_keeps
        | apply Keeps.foldl | apply Keeps.foldlPair | apply Keeps.foldlPair2)
    | intro _

theorem State.sendHeld_keeps : ∀ z s a1 a2 a3 a4 a5, Keeps z s → Keeps z (State.sendHeld s a1 a2 a3 a4 a5) := by
  intros; unfold State.sendHeld; (try dsimp only)
  repeat' first | (with_reducible first | assumption | apply State.send_keeps | apply Keeps.foldl) | intro _

theorem State.finishChunk_keeps : ∀ z s a1 a2, Keeps z s → Keeps z (State.finishChunk s a1 a2) := by
  intros; unfold State.finishChunk; (try dsimp only)
  repeat' first
    | (with_reducible first
        | assumption | apply State.setColl_keeps | apply State.setOp_keeps | apply State.setInst_keeps
        | apply State.freeSlot_keeps | apply State.sendResults_keeps | apply State.sendHeld_keeps
        | apply Keeps.foldl | apply Keeps.foldlPair | apply Keeps.foldlPair2)
    | intro _ | split

theorem State.testSlices_keeps : ∀ z s a1 a2, Keeps z s → Keeps z (State.testSlices s a1 a2) := by
  intros; unfold State.testSlices; (try dsimp only)
  repeat' first
    | (with_reducible first
        | assumption | apply State.report_keeps | apply State.bump_keeps | apply State.stamped_keeps
        | apply State.replayOr_keeps | apply State.setInst_keeps | apply State.finishChunk_keeps)
    | split

theorem State.startInstance_keeps : ∀ z s a1 a2, Keeps z s → Keeps z (State.startInstance s a1 a2) := by
  intros; unfold State.startInstance; (try dsimp only)
  repeat' first
    | (with_reducible first
        | assumption | apply State.bump_keeps | apply State.setOp_keeps | apply State.claimSlots_keeps
        | apply State.attribute_keeps | apply State.endInstance_keeps | apply State.checkDone_keeps
        | apply Keeps.foldl | apply Keeps.foldlPair | apply Keeps.foldlPair2)
    | intro _ | split | (rename_i e; have e := congrArg Prod.snd e; dsimp only at e; subst e)
    | (rename_i e; have e := congrArg (fun q => q.2.2) e; dsimp only at e; subst e)
    | (fail_if_no_progress with_reducible apply Keeps.lit)

theorem State.admitGen_keeps : ∀ z s a1, Keeps z s → Keeps z (State.admitGen s a1).2 := by
  intros; unfold State.admitGen; (try dsimp only)
  repeat' first | (with_reducible first | assumption | apply State.startInstance_keeps) | split

theorem State.commitAbsorbed_keeps : ∀ z s a1 a2, Keeps z s → Keeps z (State.commitAbsorbed s a1 a2) := by
  intros; unfold State.commitAbsorbed; (try dsimp only)
  repeat' first | (with_reducible first | assumption | apply State.sendAck_keeps | apply State.setRx_keeps)

theorem State.clearIdle_keeps : ∀ z s a1 a2, Keeps z s → Keeps z (State.clearIdle s a1 a2) := by
  intros; unfold State.clearIdle
  repeat' first | (with_reducible first | assumption | apply State.setInst_keeps)

theorem State.rootSum_keeps : ∀ z s a1, Keeps z s → Keeps z (State.rootSum s a1) := by
  intros; unfold State.rootSum; (try dsimp only)
  repeat' first
    | (with_reducible first
        | assumption | apply State.refuseFrame_keeps | apply State.clearIdle_keeps
        | apply State.commitAbsorbed_keeps | apply State.bump_keeps | apply State.replayOr_keeps
        | apply State.badContrib_keeps | apply State.absorb_keeps | apply State.raiseAll_keeps
        | apply State.setInst_keeps | apply State.testSlices_keeps)
    | split

theorem State.rootReduction_keeps : ∀ z s a1, Keeps z s → Keeps z (State.rootReduction s a1) := by
  intros; unfold State.rootReduction
  repeat' first
    | (with_reducible first
        | assumption | apply State.ackAgain_keeps | apply State.admitGen_keeps | apply State.refuseFrame_keeps
        | apply State.rootSum_keeps | apply Keeps.foldl)
    | intro _ | split | (rename_i e; have e := congrArg Prod.snd e; dsimp only at e; subst e)

theorem State.rootData_keeps : ∀ z s a1, Keeps z s → Keeps z (State.rootData s a1) := by
  intros; unfold State.rootData; (try dsimp only)
  repeat' first
    | (with_reducible first
        | assumption | apply State.refuseFrame_keeps | apply State.setInst_keeps | apply State.checkDone_keeps
        | apply State.clearIdle_keeps | apply State.commitFrame_keeps | apply State.bump_keeps
        | apply State.writeMem_keeps | apply State.finishChunk_keeps)
    | split

theorem State.rootGather_keeps : ∀ z s a1, Keeps z s → Keeps z (State.rootGather s a1) := by
  intros; unfold State.rootGather
  repeat' first
    | (with_reducible first
        | assumption | apply State.ackAgain_keeps | apply State.admitGen_keeps | apply State.refuseFrame_keeps
        | apply State.rootData_keeps | apply Keeps.foldl)
    | intro _ | split | (rename_i e; have e := congrArg Prod.snd e; dsimp only at e; subst e)

theorem State.abortInstance_keeps : ∀ z s a1 a2, Keeps z s → Keeps z (State.abortInstance s a1 a2).2 := by
  intros; unfold State.abortInstance; (try dsimp only)
  repeat' first
    | (with_reducible first
        | assumption | apply State.endInstance_keeps | apply State.setOp_keeps)
    | split

theorem State.abortFrame_keeps : ∀ z s a1, Keeps z s → Keeps z (State.abortFrame s a1) := by
  intros; unfold State.abortFrame
  repeat' first
    | (with_reducible first
        | assumption | apply State.ackAgain_keeps | apply State.abortInstance_keeps | apply State.commitFrame_keeps
        | apply State.refuseFrame_keeps | apply Keeps.foldl)
    | intro _ | split | (rename_i e; have e := congrArg Prod.snd e; dsimp only at e; subst e)

theorem State.setMerge_keeps : ∀ z s a1 a2 a3 a4, Keeps z s → Keeps z (State.setMerge s a1 a2 a3 a4) := by
  intros; unfold State.setMerge
  repeat' first | (with_reducible first | assumption | apply State.setOp_keeps)

theorem State.dropMerge_keeps : ∀ z s a1 a2 a3, Keeps z s → Keeps z (State.dropMerge s a1 a2 a3) := by
  intros; unfold State.dropMerge
  repeat' first | (with_reducible first | assumption | apply State.setOp_keeps | apply State.dropChunk_keeps) | split

theorem State.passOn_keeps : ∀ z s a1, Keeps z s → Keeps z (State.passOn s a1) := by
  intros; unfold State.passOn; (try dsimp only)
  repeat' first
    | (with_reducible first
        | assumption | apply State.bump_keeps | apply State.takeCells_keeps | apply State.count_keeps
        | apply State.storeFrame_keeps | apply State.ratedRefusal_keeps | apply Keeps.foldl | apply Keeps.foldlPair
        | apply Keeps.foldlPair2)
    | intro _ | split | (rename_i e; have e := congrArg Prod.snd e; dsimp only at e; subst e)
   
   

theorem State.mergeInto_keeps : ∀ z s a1 a2 a3 a4 a5, Keeps z s → Keeps z (State.mergeInto s a1 a2 a3 a4 a5) := by
  intros; unfold State.mergeInto; (try dsimp only)
  repeat' first
    | (with_reducible first
        | assumption | apply State.transitAck_keeps | apply State.raiseAll_keeps | apply State.setOp_keeps
        | apply State.absorb_keeps | apply State.setMerge_keeps | apply Keeps.foldl | apply Keeps.foldlPair
        | apply Keeps.foldlPair2)
    | intro _ | split | (fail_if_no_progress with_reducible apply Keeps.lit)

theorem State.transitReduction_keeps : ∀ z s a1 a2 a3, Keeps z s → Keeps z (State.transitReduction s a1 a2 a3) := by
  intros; unfold State.transitReduction; (try dsimp only)
  repeat' first
    | (with_reducible first
        | assumption | apply State.bump_keeps | apply State.transitAck_keeps | apply State.setOp_keeps
        | apply State.dropChunk_keeps | apply State.claimChunk_keeps | apply State.badContrib_keeps
        | apply State.passOn_keeps | apply State.mergeInto_keeps | apply Keeps.foldl | apply Keeps.foldlPair
        | apply Keeps.foldlPair2)
    | (rename_i e; have e := congrArg Prod.snd e; dsimp only at e; subst e)
    | (rename_i e; have e := congrArg (fun q => q.2.2) e; dsimp only at e; subst e) | intro _ | split
    | (fail_if_no_progress with_reducible apply Keeps.lit)

theorem State.reduction_keeps : ∀ z s a1, Keeps z s → Keeps z (State.reduction s a1) := by
  intros; unfold State.reduction; (try dsimp only)
  repeat' first
    | (with_reducible first
        | assumption | apply State.receive_keeps | apply State.rootReduction_keeps
        | apply State.transitReduction_keeps | apply Keeps.foldl | apply Keeps.foldlPair | apply Keeps.foldlPair2)
    | intro _ | split

theorem State.sealBench_keeps : ∀ z s a1 a2 a3, Keeps z s → Keeps z (State.sealBench s a1 a2 a3) := by
  intros; unfold State.sealBench; (try dsimp only)
  repeat' first
    | (with_reducible first
        | assumption | apply State.send_keeps | apply State.setOp_keeps | apply State.partialFrame_keeps
        | apply State.setMerge_keeps | apply Keeps.foldl | apply Keeps.foldlPair | apply Keeps.foldlPair2)
    | intro _ | split

theorem State.markHedged_keeps : ∀ z s a1 a2, Keeps z s → Keeps z (State.markHedged s a1 a2) := by
  intros; unfold State.markHedged
  repeat' first
    | (with_reducible first
        | assumption | apply State.setOp_keeps | apply State.setInst_keeps | apply State.bump_keeps)
    | split

theorem State.markClosing_keeps : ∀ z s a1 a2 a3, Keeps z s → Keeps z (State.markClosing s a1 a2 a3) := by
  intros; unfold State.markClosing
  repeat' first
    | (with_reducible first
        | assumption | apply State.bump_keeps | apply State.setOp_keeps | apply Keeps.foldl | apply Keeps.foldlPair
        | apply Keeps.foldlPair2)
    | intro _ | split

theorem State.resultSettled_keeps : ∀ z s a1 a2 a3, Keeps z s → Keeps z (State.resultSettled s a1 a2 a3) := by
  intros; unfold State.resultSettled; (try dsimp only)
  repeat' first | (with_reducible first | assumption | apply State.setInst_keeps | apply State.freeSlot_keeps) | split

theorem State.collNote_keeps : ∀ z s a1 a2 a3 a4, Keeps z s → Keeps z (State.collNote s a1 a2 a3 a4) := by
  intros; unfold State.collNote; (try dsimp only)
  repeat' first
    | (with_reducible first
        | assumption | apply State.completeSettled_keeps | apply State.endInstance_keeps
        | apply State.markHedged_keeps | apply State.markClosing_keeps | apply State.resultSettled_keeps
        | apply Keeps.foldl | apply Keeps.foldlPair | apply Keeps.foldlPair2)
    | intro _ | split

theorem State.mergeNote_keeps : ∀ z s a1 a2 a3 a4, Keeps z s → Keeps z (State.mergeNote s a1 a2 a3 a4) := by
  intros; unfold State.mergeNote
  repeat' first
    | (with_reducible first
        | assumption | apply State.dropMerge_keeps | apply State.setMerge_keeps | apply State.withdraw_keeps)
    | split

theorem State.collLost_keeps : ∀ z s a1, Keeps z s → Keeps z (State.collLost s a1) := by
  intros; unfold State.collLost; (try dsimp only)
  repeat' first
    | (with_reducible first
        | assumption | apply State.dropMerge_keeps | apply State.withdraw_keeps | apply State.setOp_keeps
        | apply State.endInstance_keeps | apply State.replayOr_keeps | apply Keeps.foldl)
    | intro _ | split

theorem State.collTick_keeps : ∀ z s, Keeps z s → Keeps z (State.collTick s) := by
  intros; unfold State.collTick; (try dsimp only)
  repeat' first | (with_reducible first | assumption | apply State.setColl_keeps)

theorem State.idleTimeout_keeps : ∀ z s a1, Keeps z s → Keeps z (State.idleTimeout s a1) := by
  intros; unfold State.idleTimeout
  repeat' first
    | (with_reducible first
        | assumption | apply State.endInstance_keeps | apply State.setOp_keeps)
    | split

theorem State.collOpen_keeps : ∀ z s a1 a2 a3 a4, Keeps z s → Keeps z (State.collOpen s a1 a2 a3 a4).2 := by
  intros; unfold State.collOpen; (try dsimp only)
  repeat' first
    | (with_reducible first
        | assumption | apply State.setColl_keeps | apply State.useCtx_keeps | apply State.installGroup_keeps)
    | split

theorem State.removeColl_keeps : ∀ z s a1, Keeps z s → Keeps z (State.removeColl s a1) := by
  intros; unfold State.removeColl; (try dsimp only)
  repeat' first
    | (with_reducible first
        | assumption | apply State.dropCtx_keeps | apply State.removeGroup_keeps | apply State.setColl_keeps
        | apply State.dropChunk_keeps | apply Keeps.foldl | apply Keeps.foldlPair | apply Keeps.foldlPair2)
    | intro _ | split | (fail_if_no_progress with_reducible apply Keeps.lit)

theorem State.collClose_keeps : ∀ z s a1, Keeps z s → Keeps z (State.collClose s a1).2 := by
  intros; unfold State.collClose
  repeat' first | (with_reducible first | assumption | apply State.removeColl_keeps) | split

theorem State.barrierOpen_keeps : ∀ z s a1 a2 a3 a4 a5, Keeps z s → Keeps z (State.barrierOpen s a1 a2 a3 a4 a5).2 :=
    by
  intros; unfold State.barrierOpen; (try dsimp only)
  repeat' first
    | (with_reducible first
        | assumption | apply State.setColl_keeps | apply State.useCtx_keeps | apply State.installGroup_keeps)
    | split

theorem State.barrierRelease_keeps : ∀ z s a1 a2 a3, Keeps z s → Keeps z (State.barrierRelease s a1 a2 a3) := by
  intros; unfold State.barrierRelease; (try dsimp only)
  repeat' first
    | (with_reducible first
        | assumption | apply State.setColl_keeps | apply State.stamped_keeps | apply State.sendPlain_keeps)

theorem State.releaseCopyTo_keeps : ∀ z s a1 a2 a3, Keeps z s → Keeps z (State.releaseCopyTo s a1 a2 a3) := by
  intros; unfold State.releaseCopyTo; (try dsimp only)
  repeat' first
    | (with_reducible first
        | assumption | apply State.bump_keeps | apply State.admitOwn_keeps | apply Keeps.foldl
        | apply Keeps.foldlPair | apply Keeps.foldlPair2)
    | intro _ | split

theorem State.releaseAgain_keeps : ∀ z s a1, Keeps z s → Keeps z (State.releaseAgain s a1) := by
  intros; unfold State.releaseAgain
  repeat' first
    | (with_reducible first
        | assumption | apply State.releaseCopyTo_keeps | apply Keeps.foldl | apply Keeps.foldlPair
        | apply Keeps.foldlPair2)
    | intro _ | split

theorem State.barrierArrive_keeps : ∀ z s a1, Keeps z s → Keeps z (State.barrierArrive s a1) := by
  intros; unfold State.barrierArrive; (try dsimp only)
  repeat' first
    | (with_reducible first
        | assumption | apply State.commitFrame_keeps | apply State.ackAgain_keeps | apply State.refuseFrame_keeps
        | apply State.setColl_keeps | apply State.barrierRelease_keeps | apply State.releaseAgain_keeps
        | apply Keeps.foldl | apply Keeps.foldlPair | apply Keeps.foldlPair2)
    | intro _ | split

theorem State.barrierTimeout_keeps : ∀ z s a1, Keeps z s → Keeps z (State.barrierTimeout s a1) := by
  intros; unfold State.barrierTimeout; (try dsimp only)
  repeat' first | (with_reducible first | assumption | apply State.barrierRelease_keeps) | split

theorem State.fenceDone_keeps : ∀ z s a1 a2 a3, Keeps z s → Keeps z (State.fenceDone s a1 a2 a3) := by
  intros; unfold State.fenceDone
  repeat' first | (with_reducible first | assumption | apply State.sendPlain_keeps)

theorem State.fenceCheck_keeps : ∀ z s, Keeps z s → Keeps z (State.fenceCheck s) := by
  intros; unfold State.fenceCheck; (try dsimp only)
  repeat' first
    | (with_reducible first
        | assumption | apply State.fenceDone_keeps | apply Keeps.foldl)
    | intro _ | split | (fail_if_no_progress with_reducible apply Keeps.lit)

theorem State.fence_keeps : ∀ z s a1, Keeps z s → Keeps z (State.fence s a1) := by
  intros; unfold State.fence; (try dsimp only)
  repeat' first
    | (with_reducible first
        | assumption | apply State.fenceCheck_keeps | apply Keeps.foldl)
    | intro _ | split | (fail_if_no_progress with_reducible apply Keeps.lit)

end Sys2Proof.Machine
end

