-- ==== Sys2Proof/Laws/KeepsParams.lean ====
section
/-! SUPPORT. What the module does leaves the queue of commands alone and the memory in its form: training state,
the stash and Stozil mode. -/

namespace Sys2Proof.Machine

theorem State.setStash_keeps : ∀ z s a1, Keeps z s → Keeps z (State.setStash s a1) :=
  fun _ _ _ h => h

theorem State.setRes_keeps : ∀ z s a1 a2, Keeps z s → Keeps z (State.setRes s a1 a2) := by
  intros; unfold State.setRes
  repeat' first | (with_reducible first | assumption | apply State.setStash_keeps)

theorem State.returnSpans_keeps : ∀ z s a1, Keeps z s → Keeps z (State.returnSpans s a1) := by
  intros; unfold State.returnSpans; (try dsimp only)
  repeat' first | (with_reducible first | assumption | apply State.setRes_keeps) | split

theorem State.freeEntry_keeps : ∀ z s a1, Keeps z s → Keeps z (State.freeEntry s a1) := by
  intros; unfold State.freeEntry
  repeat' first | (with_reducible first | assumption | apply State.returnSpans_keeps | apply State.setStash_keeps)

theorem State.setEnt_keeps : ∀ z s a1, Keeps z s → Keeps z (State.setEnt s a1) := by
  intros; unfold State.setEnt
  repeat' first | (with_reducible first | assumption | apply State.setStash_keeps)

theorem State.withdrawGet_keeps : ∀ z s a1, Keeps z s → Keeps z (State.withdrawGet s a1) := by
  intros; unfold State.withdrawGet
  repeat' first | (with_reducible first | assumption | apply State.withdraw_keeps)

theorem State.getOver_keeps : ∀ z s a1 a2, Keeps z s → Keeps z (State.getOver s a1 a2) := by
  intros; unfold State.getOver; (try dsimp only)
  repeat' first
    | (with_reducible first
        | assumption | apply State.setStash_keeps | apply State.stamped_keeps | apply State.setEnt_keeps
        | apply State.bump_keeps | apply State.freeEntry_keeps)
    | split

theorem State.sendReply_keeps : ∀ z s a1 a2 a3, Keeps z s → Keeps z (State.sendReply s a1 a2 a3) := by
  intros; unfold State.sendReply; (try dsimp only)
  repeat' first
    | (with_reducible first
        | assumption | apply State.stamped_keeps | apply State.setStash_keeps | apply State.send_keeps)

theorem State.endGet_keeps : ∀ z s a1 a2 a3, Keeps z s → Keeps z (State.endGet s a1 a2 a3) := by
  intros; unfold State.endGet; (try dsimp only)
  repeat' first
    | (with_reducible first
        | assumption | apply State.withdrawGet_keeps | apply State.bump_keeps | apply State.sendReply_keeps
        | apply State.getOver_keeps)
    | split

theorem State.dropRes_keeps : ∀ z s a1, Keeps z s → Keeps z (State.dropRes s a1) := by
  intros; unfold State.dropRes
  repeat' first | (with_reducible first | assumption | apply State.setStash_keeps)

theorem State.stashRelease_keeps : ∀ z s a1, Keeps z s → Keeps z (State.stashRelease s a1) := by
  intros; unfold State.stashRelease; (try dsimp only)
  repeat' first
    | (with_reducible first
        | assumption | apply State.newGen_keeps | apply State.setRes_keeps | apply State.freeEntry_keeps
        | apply Keeps.foldl)
    | intro _ | split

theorem State.stashSweep_keeps : ∀ z s a1, Keeps z s → Keeps z (State.stashSweep s a1) := by
  intros; unfold State.stashSweep
  repeat' first
    | (with_reducible first
        | assumption | apply State.freeEntry_keeps | apply Keeps.foldl)
    | intro _ | split

theorem State.stashDrained_keeps : ∀ z s a1, Keeps z s → Keeps z (State.stashDrained s a1) := by
  intros; unfold State.stashDrained
  repeat' first
    | (with_reducible first
        | assumption | apply State.stashSweep_keeps | apply State.endGet_keeps | apply Keeps.foldl)
    | intro _ | split

theorem State.stashEnd_keeps : ∀ z s a1, Keeps z s → Keeps z (State.stashEnd s a1) := by
  intros; unfold State.stashEnd; (try dsimp only)
  repeat' first
    | (with_reducible first
        | assumption | apply State.withdrawGet_keeps | apply State.bump_keeps | apply State.setStash_keeps
        | apply Keeps.foldl)
    | intro _ | split

theorem State.drainStash_keeps : ∀ z s a1, Keeps z s → Keeps z (State.drainStash s a1) := by
  intros; unfold State.drainStash; (try dsimp only)
  repeat' first
    | (with_reducible first
        | assumption | apply State.workEnded_keeps | apply State.freeEntry_keeps | apply State.endGet_keeps
        | apply Keeps.foldl)
    | intro _

theorem State.stashPut_keeps : ∀ z s a1, Keeps z s → Keeps z (State.stashPut s a1) := by
  intros; unfold State.stashPut; (try dsimp only)
  repeat' first
    | (with_reducible first
        | assumption | apply State.ackAgain_keeps | apply State.refuseFrame_keeps | apply State.writeMem_keeps
        | apply State.commitFrame_keeps | apply State.bump_keeps | apply State.stamped_keeps
        | apply State.setEnt_keeps | apply State.workEnded_keeps | apply State.setRes_keeps
        | apply State.setStash_keeps)
    | split

theorem State.replyCheck_keeps : ∀ z s a1, Keeps z s → Keeps z (State.replyCheck s a1) := by
  intros; unfold State.replyCheck; (try dsimp only)
  repeat' first | (with_reducible first | assumption | apply State.sendReply_keeps) | split

theorem State.stashGet_keeps : ∀ z s a1, Keeps z s → Keeps z (State.stashGet s a1) := by
  intros; unfold State.stashGet; (try dsimp only)
  repeat' first
    | (with_reducible first
        | assumption | apply State.ackAgain_keeps | apply State.refuseFrame_keeps | apply State.setStash_keeps
        | apply State.stamped_keeps | apply State.setEnt_keeps | apply State.commitFrame_keeps
        | apply State.send_keeps | apply State.replyCheck_keeps | apply Keeps.foldl)
    | intro _ | split

theorem State.dropMatching_keeps : ∀ z s a1 a2 a3 a4, Keeps z s → Keeps z (State.dropMatching s a1 a2 a3 a4) := by
  intros; unfold State.dropMatching
  repeat' first
    | (with_reducible first
        | assumption | apply State.workEnded_keeps | apply State.bump_keeps | apply State.freeEntry_keeps
        | apply State.stamped_keeps | apply State.setEnt_keeps | apply Keeps.foldl)
    | intro _ | split

theorem State.stashDrop_keeps : ∀ z s a1, Keeps z s → Keeps z (State.stashDrop s a1) := by
  intros; unfold State.stashDrop; (try dsimp only)
  repeat' first
    | (with_reducible first
        | assumption | apply State.ackAgain_keeps | apply State.refuseFrame_keeps | apply State.commitFrame_keeps
        | apply State.dropMatching_keeps)
    | split

theorem State.stashNote_keeps : ∀ z s a1 a2 a3, Keeps z s → Keeps z (State.stashNote s a1 a2 a3) := by
  intros; unfold State.stashNote; (try dsimp only)
  repeat' first
    | (with_reducible first
        | assumption | apply State.bump_keeps | apply State.stashSweep_keeps | apply State.workEnded_keeps
        | apply State.getOver_keeps | apply State.replyCheck_keeps | apply State.setStash_keeps
        | apply State.endGet_keeps)
    | split

theorem State.putTimeout_keeps : ∀ z s a1 a2 a3, Keeps z s → Keeps z (State.putTimeout s a1 a2 a3) := by
  intros; unfold State.putTimeout
  repeat' first
    | (with_reducible first
        | assumption | apply State.workEnded_keeps | apply State.bump_keeps | apply State.freeEntry_keeps)
    | split

theorem State.stashTick_keeps : ∀ z s, Keeps z s → Keeps z (State.stashTick s) :=
  fun _ _ h => h

theorem State.stashHedged_keeps : ∀ z s, Keeps z s → Keeps z (State.stashHedged s) := by
  intros; unfold State.stashHedged
  repeat' first
    | (with_reducible first
        | assumption | apply State.stashSweep_keeps | apply State.workEnded_keeps | apply State.endGet_keeps
        | apply Keeps.foldl)
    | intro _

theorem State.stashLost_keeps : ∀ z s a1, Keeps z s → Keeps z (State.stashLost s a1) := by
  intros; unfold State.stashLost; (try dsimp only)
  repeat' first
    | (with_reducible first
        | assumption | apply State.withdrawGet_keeps | apply State.setStash_keeps | apply State.workEnded_keeps
        | apply State.bump_keeps | apply State.freeEntry_keeps | apply Keeps.foldl)
    | intro _ | split

theorem State.stashDamage_keeps : ∀ z s a1, Keeps z s → Keeps z (State.stashDamage s a1) := by
  intros; unfold State.stashDamage; (try dsimp only)
  repeat' first
    | (with_reducible first
        | assumption | apply State.bump_keeps | apply State.workEnded_keeps | apply State.setEnt_keeps
        | apply State.endGet_keeps | apply State.stashSweep_keeps | apply Keeps.foldl | apply Keeps.foldlPair
        | apply Keeps.foldlPair2)
    | intro _ | split

theorem State.giveExtents_keeps : ∀ z s a1 a2, Keeps z s → Keeps z (State.giveExtents s a1 a2) := by
  intros; rename_i h; revert h; fun_induction State.giveExtents <;> intros <;> (try dsimp only) <;>
  (repeat' first | with_reducible assumption | with_reducible apply_assumption)

theorem State.giveEntries_keeps : ∀ z s a1 a2, Keeps z s → Keeps z (State.giveEntries s a1 a2) := by
  intro z s a1 a2
  induction a2 generalizing s a1 with
  | nil =>
    intros; unfold State.giveEntries
    repeat' first
      | (with_reducible first
          | assumption | apply State.bump_keeps | apply State.workEnded_keeps | apply State.freeEntry_keeps
          | apply State.endGet_keeps | apply State.giveExtents_keeps | apply Keeps.foldl | apply Keeps.foldlPair
          | apply Keeps.foldlPair2)
      | intro _ | split | (rename_i e; have e := congrArg Prod.snd e; dsimp only at e; subst e)
      | (rename_i e; have e := congrArg (fun q => q.2.2) e; dsimp only at e; subst e)
      | (fail_if_no_progress with_reducible apply Keeps.lit)
  | cons e es ih =>
    intros
    unfold State.giveEntries; (try dsimp only)
    repeat' first
      | (with_reducible first
          | assumption | apply ih | apply State.bump_keeps | apply State.workEnded_keeps
          | apply State.freeEntry_keeps | apply State.endGet_keeps | apply State.giveExtents_keeps
          | apply Keeps.foldl | apply Keeps.foldlPair | apply Keeps.foldlPair2)
      | intro _ | split | (rename_i e; have e := congrArg Prod.snd e; dsimp only at e; subst e)
      | (rename_i e; have e := congrArg (fun q => q.2.2) e; dsimp only at e; subst e)
      | (fail_if_no_progress with_reducible apply Keeps.lit)

theorem State.stashShrink_keeps : ∀ z s, Keeps z s → Keeps z (State.stashShrink s) := by
  intros; unfold State.stashShrink; (try dsimp only)
  repeat' first
    | (with_reducible first
        | assumption | apply State.giveExtents_keeps | apply State.giveEntries_keeps | apply State.event_keeps
        | apply Keeps.foldl)
    | intro _ | split

theorem State.purge_keeps : ∀ z s a1 a2 a3 a4, Keeps z s → Keeps z (State.purge s a1 a2 a3 a4) := by
  intros; unfold State.purge; (try dsimp only)
  repeat' first | (with_reducible first | assumption | apply State.dropMatching_keeps | apply Keeps.foldl) | intro _

theorem State.setParm_keeps : ∀ z s a1, Keeps z s → Keeps z (State.setParm s a1) :=
  fun _ _ _ h => h

theorem State.setBlock_keeps : ∀ z s a1 a2, Keeps z s → Keeps z (State.setBlock s a1 a2) := by
  intros; unfold State.setBlock
  repeat' first | (with_reducible first | assumption | apply State.setParm_keeps) | split

theorem State.joinGroup_keeps : ∀ z s a1, Keeps z s → Keeps z (State.joinGroup s a1) := by
  intros; unfold State.joinGroup
  repeat' first | (with_reducible first | assumption | apply State.setGroup_keeps) | split

theorem State.declare_keeps : ∀ z s a1, Keeps z s → Keeps z (State.declare s a1).2 := by
  intros; unfold State.declare; dsimp only
  repeat' first
    | (with_reducible first
        | assumption | apply Keeps.ite2 | apply State.assignSubstitutes_keeps | apply State.setParm_keeps
        | apply State.useCtx_keeps | apply State.stamped_keeps | apply State.clearMem_keeps | apply State.undefine_keeps
        | apply State.joinGroup_keeps | apply State.installGroup_keeps | apply Keeps.foldl)
    | intro _ | split

theorem State.removeBlock_keeps : ∀ z s a1, Keeps z s → Keeps z (State.removeBlock s a1) := by
  intros; unfold State.removeBlock; (try dsimp only)
  repeat' first
    | (with_reducible first
        | assumption | apply State.dropCtx_keeps | apply State.free_keeps | apply State.withdraw_keeps
        | apply State.cancelJobs_keeps | apply State.leaveGroup_keeps | apply State.setParm_keeps
        | apply Keeps.foldl | apply Keeps.foldlPair | apply Keeps.foldlPair2)
    | intro _ | split

theorem State.blockState_keeps : ∀ z s a1 a2, Keeps z s → Keeps z (State.blockState s a1 a2) := by
  intros; unfold State.blockState; (try dsimp only)
  repeat' first | (with_reducible first | assumption | apply State.setBlock_keeps | apply State.stamped_keeps)

theorem State.blockEvent_keeps : ∀ z s a1 a2 a3, Keeps z s → Keeps z (State.blockEvent s a1 a2 a3) := by
  intros; unfold State.blockEvent
  repeat' first | (with_reducible first | assumption | apply State.event_keeps)

theorem State.clearAcc_keeps : ∀ z s a1, Keeps z s → Keeps z (State.clearAcc s a1) := by
  intros; unfold State.clearAcc
  repeat' first | (with_reducible first | assumption | apply State.clearMem_keeps | apply Keeps.foldl) | intro _

theorem State.discardStep_keeps : ∀ z s a1 a2, Keeps z s → Keeps z (State.discardStep s a1 a2) := by
  intros; unfold State.discardStep
  repeat' first
    | (with_reducible first
        | assumption | apply State.blockState_keeps | apply State.setBlock_keeps | apply State.clearAcc_keeps)
    | split

theorem State.publishEnd_keeps : ∀ z s a1 a2, Keeps z s → Keeps z (State.publishEnd s a1 a2) := by
  intros; unfold State.publishEnd
  repeat' first | (with_reducible first | assumption | apply State.setParm_keeps | apply State.setBlock_keeps) | split

theorem State.failBlock_keeps : ∀ z s a1 a2, Keeps z s → Keeps z (State.failBlock s a1 a2) := by
  intros; unfold State.failBlock; (try dsimp only)
  repeat' first
    | (with_reducible first
        | assumption | apply State.endRun_keeps | apply State.workEnded_keeps | apply State.setParm_keeps
        | apply State.blockState_keeps | apply State.setBlock_keeps | apply State.publishEnd_keeps
        | apply State.blockEvent_keeps | apply State.bump_keeps)
    | split

theorem State.reviewBlock_keeps : ∀ z s a1, Keeps z s → Keeps z (State.reviewBlock s a1) := by
  intros; unfold State.reviewBlock; (try dsimp only)
  repeat' first
    | (with_reducible first
        | assumption | apply State.discardStep_keeps | apply State.blockEvent_keeps | apply State.bump_keeps
        | apply State.setParm_keeps | apply State.blockState_keeps | apply State.setBlock_keeps)
    | split

theorem State.reviewBlocks_keeps : ∀ z s, Keeps z s → Keeps z (State.reviewBlocks s) := by
  intros; unfold State.reviewBlocks
  repeat' first
    | (with_reducible first
        | assumption | apply State.reviewBlock_keeps | apply Keeps.foldl)
    | intro _ | split

theorem State.pieceRaise_keeps : ∀ z s a1 a2 a3, Keeps z s → Keeps z (State.pieceRaise s a1 a2 a3) := by
  intros; unfold State.pieceRaise; (try dsimp only)
  repeat' first
    | (with_reducible first
        | assumption | apply State.raiseAll_keeps | apply State.setOp_keeps | apply State.setInst_keeps
        | apply Keeps.foldl | apply Keeps.foldlPair | apply Keeps.foldlPair2)
    | intro _ | split

theorem State.offerPiece_keeps : ∀ z s a1, Keeps z s → Keeps z (State.offerPiece s a1).2 := by
  intros; unfold State.offerPiece; (try dsimp only)
  repeat' first
    | (with_reducible first
        | assumption | apply State.writeMem_keeps | apply State.alloc_keeps | apply State.pieceRaise_keeps
        | apply Keeps.foldl | apply Keeps.foldlPair | apply Keeps.foldlPair2)
    | intro _ | split | (rename_i e; have e := congrArg Prod.snd e; dsimp only at e; subst e)
    | (rename_i e; have e := congrArg (fun q => q.2.2) e; dsimp only at e; subst e)
   

theorem State.offerPieces_keeps : ∀ z s, Keeps z s → Keeps z (State.offerPieces s) := by
  intros; unfold State.offerPieces; (try dsimp only)
  repeat' first
    | (with_reducible first
        | assumption | apply State.offerPiece_keeps | apply State.setParm_keeps | apply Keeps.foldl
        | apply Keeps.foldlPair | apply Keeps.foldlPair2)
    | intro _ | split

theorem State.handChunk_keeps : ∀ z s a1, Keeps z s → Keeps z (State.handChunk s a1) := by
  intros; unfold State.handChunk
  repeat' first
    | (with_reducible first
        | assumption | apply State.offerPieces_keeps | apply State.setParm_keeps)
    | split

theorem State.chunkCommitted_keeps : ∀ z s a1 a2 a3, Keeps z s → Keeps z (State.chunkCommitted s a1 a2 a3) := by
  intros; unfold State.chunkCommitted; (try dsimp only)
  repeat' first
    | (with_reducible first
        | assumption | apply State.setOp_keeps | apply State.freeSlot_keeps | apply State.completeSettled_keeps)
    | split

theorem State.accAdd_keeps : ∀ z s a1 a2 a3 a4 a5, Keeps z s → Keeps z (State.accAdd s a1 a2 a3 a4 a5).2 := by
  intros; rename_i h; revert h; fun_induction State.accAdd <;> intros <;> (try dsimp only) <;>
  (repeat' first
     | with_reducible assumption | with_reducible apply_assumption | with_reducible apply State.writeMem_keeps)

theorem State.pieceCommit_keeps : ∀ z s a1 a2 a3, Keeps z s → Keeps z (State.pieceCommit s a1 a2 a3) := by
  intros; unfold State.pieceCommit; (try dsimp only)
  repeat' first
    | (with_reducible first
        | assumption | apply State.bump_keeps | apply State.free_keeps | apply State.setParm_keeps
        | apply State.pieceRaise_keeps | apply State.chunkCommitted_keeps | apply State.accAdd_keeps
        | apply Keeps.foldl | apply Keeps.foldlPair | apply Keeps.foldlPair2)
    | intro _ | split

theorem State.instanceEnded_keeps : ∀ z s a1 a2, Keeps z s → Keeps z (State.instanceEnded s a1 a2) := by
  intros; unfold State.instanceEnded; (try dsimp only)
  repeat' first | (with_reducible first | assumption | apply State.setBlock_keeps | apply Keeps.foldl) | intro _

theorem State.writeForward_keeps : ∀ z s a1 a2 a3 a4 a5, Keeps z s → Keeps z (State.writeForward s a1 a2 a3 a4 a5) :=
    by
  intros; unfold State.writeForward; (try dsimp only)
  repeat' first | (with_reducible first | assumption | apply State.writeMem_keeps) | split

theorem State.blockRaise_keeps : ∀ z s a1 a2 a3, Keeps z s → Keeps z (State.blockRaise s a1 a2 a3) := by
  intros; unfold State.blockRaise; (try dsimp only)
  repeat' first
    | (with_reducible first
        | assumption | apply State.countFlush_keeps | apply State.tookDraws_keeps | apply State.raiseAll_keeps
        | apply State.setBlock_keeps)
    | split

theorem State.forwardFromMaster_keeps : ∀ z s a1 a2, Keeps z s → Keeps z (State.forwardFromMaster s a1 a2) := by
  intros; unfold State.forwardFromMaster; (try dsimp only)
  repeat' first
    | (with_reducible first
        | assumption | apply State.blockRaise_keeps | apply State.writeForward_keeps | apply Keeps.foldl)
    | intro _ | split

theorem State.transposeTile_keeps : ∀ z s a1 a2 a3 a4, Keeps z s → Keeps z (State.transposeTile s a1 a2 a3 a4) := by
  intros; unfold State.transposeTile; (try dsimp only)
  repeat' first
    | (with_reducible first
        | assumption | apply State.writeMem_keeps | apply State.blockRaise_keeps | apply Keeps.foldl
        | apply Keeps.foldlPair | apply Keeps.foldlPair2)
    | intro _ | split

theorem State.pushVersion_keeps : ∀ z s a1, Keeps z s → Keeps z (State.pushVersion s a1) := by
  intros; unfold State.pushVersion; (try dsimp only)
  repeat' first
    | (with_reducible first
        | assumption | apply State.setBlock_keeps | apply State.send_keeps | apply Keeps.foldl)
    | intro _ | split

theorem State.becomeCurrent_keeps : ∀ z s a1, Keeps z s → Keeps z (State.becomeCurrent s a1) := by
  intros; unfold State.becomeCurrent; (try dsimp only)
  repeat' first
    | (with_reducible first
        | assumption | apply State.setBlock_keeps | apply State.blockState_keeps | apply State.workEnded_keeps
        | apply State.pushVersion_keeps | apply State.publishEnd_keeps)
    | split

theorem State.issueTiles_keeps : ∀ z s a1 a2 a3, Keeps z s → Keeps z (State.issueTiles s a1 a2 a3).2 := by
  intro z s a1 a2 a3
  induction a3 generalizing s a1 a2 with
  | nil =>
    intros; unfold State.issueTiles
    repeat' first
      | (with_reducible first
          | assumption | apply State.setQueue_keeps | apply Keeps.foldl | apply Keeps.foldlPair
          | apply Keeps.foldlPair2)
      | intro _ | split | (rename_i e; have e := congrArg Prod.snd e; dsimp only at e; subst e)
      | (rename_i e; have e := congrArg (fun q => q.2.2) e; dsimp only at e; subst e)
      | (fail_if_no_progress with_reducible apply Keeps.lit)
  | cons e es ih =>
    intros
    unfold State.issueTiles; (try dsimp only)
    repeat' first
      | (with_reducible first
          | assumption | apply ih | apply State.setQueue_keeps | apply Keeps.foldl | apply Keeps.foldlPair
          | apply Keeps.foldlPair2)
      | intro _ | split | (rename_i e; have e := congrArg Prod.snd e; dsimp only at e; subst e)
      | (rename_i e; have e := congrArg (fun q => q.2.2) e; dsimp only at e; subst e)
      | (fail_if_no_progress with_reducible apply Keeps.lit)

theorem State.produce_keeps : ∀ z s a1 a2, Keeps z s → Keeps z (State.produce s a1 a2) := by
  intros; unfold State.produce; (try dsimp only)
  repeat' first
    | (with_reducible first
        | assumption | apply State.setBlock_keeps | apply State.becomeCurrent_keeps | apply State.issueTiles_keeps
        | apply Keeps.foldl | apply Keeps.foldlPair | apply Keeps.foldlPair2)
    | intro _ | split

theorem State.issueMore_keeps : ∀ z s, Keeps z s → Keeps z (State.issueMore s) := by
  intros; unfold State.issueMore; (try dsimp only)
  repeat' first
    | (with_reducible first
        | assumption | apply State.setBlock_keeps | apply State.issueTiles_keeps | apply Keeps.foldl
        | apply Keeps.foldlPair | apply Keeps.foldlPair2)
    | intro _ | split

theorem State.tileDone_keeps : ∀ z s a1 a2 a3 a4, Keeps z s → Keeps z (State.tileDone s a1 a2 a3 a4) := by
  intros; unfold State.tileDone; (try dsimp only)
  repeat' first
    | (with_reducible first
        | assumption | apply State.requeue_keeps | apply State.setBlock_keeps | apply State.transposeTile_keeps
        | apply State.becomeCurrent_keeps | apply State.issueTiles_keeps | apply Keeps.foldl | apply Keeps.foldlPair
        | apply Keeps.foldlPair2)
    | intro _ | split

theorem State.engineJobDone_keeps : ∀ z s a1 a2, Keeps z s → Keeps z (State.engineJobDone s a1 a2) := by
  intros; unfold State.engineJobDone; (try dsimp only)
  repeat' first
    | (with_reducible first
        | assumption | apply State.jobDone_keeps | apply State.tileDone_keeps | apply Keeps.foldl
        | apply Keeps.foldlPair | apply Keeps.foldlPair2)
    | intro _ | split

theorem State.startStage_keeps : ∀ z s a1, Keeps z s → Keeps z (State.startStage s a1) := by
  intros; unfold State.startStage; (try dsimp only)
  repeat' first
    | (with_reducible first
        | assumption | apply State.setBlock_keeps | apply State.failBlock_keeps | apply State.startRun_keeps
        | apply Keeps.foldl)
    | intro _ | split | (rename_i e; have e := congrArg Prod.snd e; dsimp only at e; subst e)

theorem State.stageEnd_keeps : ∀ z s a1, Keeps z s → Keeps z (State.stageEnd s a1) := by
  intros; unfold State.stageEnd; (try dsimp only)
  repeat' first
    | (with_reducible first
        | assumption | apply State.startStage_keeps | apply State.setBlock_keeps | apply State.bump_keeps)
    | split

theorem State.beginUpdate_keeps : ∀ z s a1, Keeps z s → Keeps z (State.beginUpdate s a1) := by
  intros; unfold State.beginUpdate; (try dsimp only)
  repeat' first
    | (with_reducible first
        | assumption | apply State.setParm_keeps | apply State.blockState_keeps | apply State.setBlock_keeps
        | apply State.forwardFromMaster_keeps | apply State.startStage_keeps)
    | split

theorem State.updateFrom_keeps : ∀ z s a1 a2 a3, Keeps z s → Keeps z (State.updateFrom s a1 a2 a3) := by
  intros; unfold State.updateFrom
  repeat' first | (with_reducible first | assumption | apply State.beginUpdate_keeps) | split

theorem State.holdExpired_keeps : ∀ z s a1 a2, Keeps z s → Keeps z (State.holdExpired s a1 a2) := by
  intros; unfold State.holdExpired
  repeat' first | (with_reducible first | assumption | apply State.failBlock_keeps) | split

theorem State.tieUnit_keeps : ∀ z s a1 a2 a3 a4 a5, Keeps z s → Keeps z (State.tieUnit s a1 a2 a3 a4 a5) := by
  intros; unfold State.tieUnit; (try dsimp only)
  repeat' first
    | (with_reducible first
        | assumption | apply State.writeMem_keeps | apply State.blockRaise_keeps | apply Keeps.foldl
        | apply Keeps.foldlPair | apply Keeps.foldlPair2)
    | intro _

theorem State.tieUnits_keeps : ∀ z s a1 a2 a3 a4, Keeps z s → Keeps z (State.tieUnits s a1 a2 a3 a4) := by
  intros; unfold State.tieUnits
  repeat' first
    | (with_reducible first
        | assumption | apply State.tieUnit_keeps | apply Keeps.foldl | apply Keeps.foldlPair
        | apply Keeps.foldlPair2)
    | intro _

theorem State.storeStream_keeps : ∀ z s a1 a2 a3 a4, Keeps z s → Keeps z (State.storeStream s a1 a2 a3 a4) := by
  intros; unfold State.storeStream; (try dsimp only)
  repeat' first
    | (with_reducible first
        | assumption | apply State.writeMem_keeps | apply State.writeForward_keeps | apply Keeps.foldl
        | apply Keeps.foldlPair | apply Keeps.foldlPair2)
    | intro _ | split

theorem State.keepForward_keeps : ∀ z s a1 a2 a3, Keeps z s → Keeps z (State.keepForward s a1 a2 a3) := by
  intros; unfold State.keepForward; (try dsimp only)
  repeat' first
    | (with_reducible first
        | assumption | apply State.writeForward_keeps | apply Keeps.foldl | apply Keeps.foldlPair
        | apply Keeps.foldlPair2)
    | intro _ | split

theorem State.kernelUnit_keeps : ∀ z s a1 a2 a3 a4 a5, Keeps z s → Keeps z (State.kernelUnit s a1 a2 a3 a4 a5) := by
  intros; unfold State.kernelUnit; (try dsimp only)
  repeat' first
    | (with_reducible first
        | assumption | apply State.writeMem_keeps | apply State.setEng_keeps | apply State.setBlock_keeps
        | apply State.blockRaise_keeps | apply State.storeStream_keeps | apply State.keepForward_keeps
        | apply Keeps.foldl | apply Keeps.foldlPair | apply Keeps.foldlPair2)
    | intro _ | split

theorem State.stepEnd_keeps : ∀ z s a1 a2, Keeps z s → Keeps z (State.stepEnd s a1 a2) := by
  intros; unfold State.stepEnd
  repeat' first
    | (with_reducible first
        | assumption | apply State.failBlock_keeps | apply State.stageEnd_keeps | apply Keeps.foldl
        | apply Keeps.foldlPair | apply Keeps.foldlPair2)
    | intro _ | split

theorem State.blockStep_keeps : ∀ z s a1 a2, Keeps z s → Keeps z (State.blockStep s a1 a2) := by
  intros; unfold State.blockStep; (try dsimp only)
  repeat' first
    | (with_reducible first
        | assumption | apply State.setParm_keeps | apply State.setBlock_keeps | apply State.tieUnits_keeps
        | apply State.kernelUnit_keeps | apply State.stepEnd_keeps | apply Keeps.foldl | apply Keeps.foldlPair
        | apply Keeps.foldlPair2)
    | intro _ | split

theorem State.ncuStep_keeps {z s s' : State} {ch : Nat} {late : Bool} (e : s.ncuStep ch late = some s')
    (h : Keeps z s) : Keeps z s' := by
  unfold State.ncuStep at e
  split at e
  · exact absurd e (by simp)
  · simp only [Option.some.injEq] at e
    rw [← e]
    apply State.setEng_keeps
    split
    · exact State.bump_keeps _ _ _ _ _ h
    · exact h

theorem State.kernelStep_keeps : ∀ z s a1 a2, Keeps z s → Keeps z (State.kernelStep s a1 a2) := by
  intros; unfold State.kernelStep
  split
  · assumption
  · rename_i e
    have e := State.ncuStep_keeps e (by assumption)
    repeat' first | (with_reducible first | assumption | apply State.blockStep_keeps) | split

theorem State.blockRunEnded_keeps : ∀ z s a1 a2, Keeps z s → Keeps z (State.blockRunEnded s a1 a2) := by
  intros; unfold State.blockRunEnded; (try dsimp only)
  repeat' first
    | (with_reducible first
        | assumption | apply State.setBlock_keeps | apply State.stageEnd_keeps | apply State.failBlock_keeps)
    | split

theorem State.nextStep_keeps : ∀ z s a1 a2, Keeps z s → Keeps z (State.nextStep s a1 a2) := by
  intros; unfold State.nextStep; (try dsimp only)
  repeat' first
    | (with_reducible first
        | assumption | apply State.removeBlock_keeps | apply State.blockState_keeps | apply State.setBlock_keeps
        | apply State.produce_keeps | apply State.workEnded_keeps)
    | split

theorem State.publish_keeps : ∀ z s a1 a2, Keeps z s → Keeps z (State.publish s a1 a2).2 := by
  intros; unfold State.publish; (try dsimp only)
  repeat' first
    | (with_reducible first
        | assumption | apply State.forwardFromMaster_keeps | apply State.setBlock_keeps | apply State.produce_keeps
        | apply State.reviewBlock_keeps | apply State.blockState_keeps)
    | split

theorem State.closeStep_keeps : ∀ z s a1 a2, Keeps z s → Keeps z (State.closeStep s a1 a2).2 := by
  intros; unfold State.closeStep; (try dsimp only)
  repeat' first
    | (with_reducible first
        | assumption | apply State.reviewBlock_keeps | apply State.blockState_keeps | apply Keeps.foldl)
    | intro _ | split

theorem State.fillRegion_keeps : ∀ z s a1 a2 a3, Keeps z s → Keeps z (State.fillRegion s a1 a2 a3) := by
  intros; unfold State.fillRegion; (try dsimp only)
  repeat' first | (with_reducible first | assumption | apply State.writeMem_keeps | apply Keeps.foldl) | intro _

theorem State.loadOptimizer_keeps : ∀ z s a1, Keeps z s → Keeps z (State.loadOptimizer s a1).2 := by
  intros; unfold State.loadOptimizer; (try dsimp only)
  repeat' first | (with_reducible first | assumption | apply State.setParm_keeps) | split

theorem State.bindProgram_keeps : ∀ z s a1 a2 a3 a4, Keeps z s → Keeps z (State.bindProgram s a1 a2 a3 a4).2 := by
  intros; unfold State.bindProgram; (try dsimp only)
  repeat' first | (with_reducible first | assumption | apply State.setBlock_keeps) | split

theorem State.dropHolds_keeps : ∀ z s a1 a2 a3, Keeps z s → Keeps z (State.dropHolds s a1 a2 a3) := by
  intros; unfold State.dropHolds; (try dsimp only)
  repeat' first | (with_reducible first | assumption | apply State.bump_keeps | apply State.setBlock_keeps) | split

theorem State.dropSubs_keeps : ∀ z s a1, Keeps z s → Keeps z (State.dropSubs s a1) := by
  intros; unfold State.dropSubs
  repeat' first
    | (with_reducible first
        | assumption | apply State.dropHolds_keeps | apply Keeps.foldl)
    | intro _ | split

theorem State.weightFetch_keeps : ∀ z s a1, Keeps z s → Keeps z (State.weightFetch s a1) := by
  intros; unfold State.weightFetch; (try dsimp only)
  repeat' first
    | (with_reducible first
        | assumption | apply State.ackAgain_keeps | apply State.refuseFrame_keeps | apply State.bump_keeps
        | apply State.commitFrame_keeps | apply State.setBlock_keeps | apply State.send_keeps | apply Keeps.foldl)
    | intro _ | split

theorem State.releaseIn_keeps : ∀ z s a1 a2 a3 a4, Keeps z s → Keeps z (State.releaseIn s a1 a2 a3 a4) := by
  intros; unfold State.releaseIn; (try dsimp only)
  repeat' first | (with_reducible first | assumption | apply State.bump_keeps | apply State.setBlock_keeps) | split

theorem State.versionRelease_keeps : ∀ z s a1, Keeps z s → Keeps z (State.versionRelease s a1) := by
  intros; unfold State.versionRelease; (try dsimp only)
  repeat' first
    | (with_reducible first
        | assumption | apply State.ackAgain_keeps | apply State.commitFrame_keeps | apply State.bump_keeps
        | apply State.releaseIn_keeps | apply Keeps.foldl)
    | intro _ | split

theorem State.pushNote_keeps : ∀ z s a1 a2 a3, Keeps z s → Keeps z (State.pushNote s a1 a2 a3) := by
  intros; unfold State.pushNote; (try dsimp only)
  repeat' first
    | (with_reducible first
        | assumption | apply State.setBlock_keeps | apply State.workEnded_keeps | apply State.bump_keeps)
    | split

theorem State.endBlocks_keeps : ∀ z s a1, Keeps z s → Keeps z (State.endBlocks s a1) := by
  intros; unfold State.endBlocks
  repeat' first
    | (with_reducible first
        | assumption | apply State.setBlock_keeps | apply State.removeBlock_keeps | apply Keeps.foldl)
    | intro _ | split

theorem State.drainBlocks_keeps : ∀ z s a1, Keeps z s → Keeps z (State.drainBlocks s a1) := by
  intros; unfold State.drainBlocks; (try dsimp only)
  repeat' first
    | (with_reducible first
        | assumption | apply State.failBlock_keeps | apply State.workEnded_keeps | apply State.setBlock_keeps
        | apply State.withdraw_keeps | apply Keeps.foldl)
    | intro _ | split

theorem State.setStz_keeps : ∀ z s a1, Keeps z s → Keeps z (State.setStz s a1) :=
  fun _ _ _ h => h

theorem State.setStzOp_keeps : ∀ z s a1 a2, Keeps z s → Keeps z (State.setStzOp s a1 a2) := by
  intros; unfold State.setStzOp
  repeat' first | (with_reducible first | assumption | apply State.setStz_keeps) | split

theorem State.stzClaim_keeps : ∀ z s a1, Keeps z s → Keeps z (State.stzClaim s a1).2 := by
  intros; unfold State.stzClaim
  repeat' first
    | (with_reducible first
        | assumption | apply State.useCtx_keeps | apply State.alloc_keeps | apply Keeps.foldl
        | apply Keeps.foldlPair | apply Keeps.foldlPair2)
    | intro _ | split | (rename_i e; have e := congrArg Prod.snd e; dsimp only at e; subst e)
    | (rename_i e; have e := congrArg (fun q => q.2.2) e; dsimp only at e; subst e)
   

theorem State.stzReturn_keeps : ∀ z s a1, Keeps z s → Keeps z (State.stzReturn s a1) := by
  intros; unfold State.stzReturn; (try dsimp only)
  repeat' first
    | (with_reducible first
        | assumption | apply State.free_keeps | apply State.dropCtx_keeps | apply State.setStz_keeps)
    | split

theorem State.stzComplete_keeps : ∀ z s a1 a2 a3 a4 a5, Keeps z s → Keeps z (State.stzComplete s a1 a2 a3 a4 a5) := by
  intros; unfold State.stzComplete; (try dsimp only)
  repeat' first | (with_reducible first | assumption | apply State.send_keeps) | split

theorem State.stzEnd_keeps : ∀ z s a1 a2, Keeps z s → Keeps z (State.stzEnd s a1 a2) := by
  intros; unfold State.stzEnd; (try dsimp only)
  repeat' first
    | (with_reducible first
        | assumption | apply State.bump_keeps | apply State.withdraw_keeps | apply State.stamped_keeps
        | apply State.workEnded_keeps | apply State.setStzOp_keeps | apply State.stzReturn_keeps
        | apply State.stzComplete_keeps | apply Keeps.foldl)
    | intro _ | split

theorem State.stzSend_keeps : ∀ z s a1 a2 a3 a4, Keeps z s → Keeps z (State.stzSend s a1 a2 a3 a4) := by
  intros; unfold State.stzSend; (try dsimp only)
  repeat' first
    | (with_reducible first
        | assumption | apply State.raiseAll_keeps | apply State.setStzOp_keeps | apply State.send_keeps
        | apply Keeps.foldl | apply Keeps.foldlPair | apply Keeps.foldlPair2)
    | intro _ | split

theorem State.stzAdd_keeps : ∀ z s a1 a2 a3 a4, Keeps z s → Keeps z (State.stzAdd s a1 a2 a3 a4).2 := by
  intros; rename_i h; revert h; fun_induction State.stzAdd <;> intros <;> (try dsimp only) <;>
  (repeat' first
     | with_reducible assumption | with_reducible apply_assumption | with_reducible apply State.setBenchPair_keeps)

theorem State.stzTake_keeps : ∀ z s a1 a2 a3 a4, Keeps z s → Keeps z (State.stzTake s a1 a2 a3 a4) := by
  intros; unfold State.stzTake; (try dsimp only)
  repeat' first
    | (with_reducible first
        | assumption | apply State.refuseFrame_keeps | apply State.commitAbsorbed_keeps | apply State.bump_keeps
        | apply State.clearMem_keeps | apply State.stzAdd_keeps | apply State.raiseAll_keeps
        | apply State.setStzOp_keeps | apply State.stzSend_keeps)
    | split

theorem State.stzStart_keeps : ∀ z s a1, Keeps z s → Keeps z (State.stzStart s a1) := by
  intros; unfold State.stzStart; (try dsimp only)
  repeat' first
    | (with_reducible first
        | assumption | apply State.bump_keeps | apply State.commitFrame_keeps | apply State.setStz_keeps
        | apply State.stzClaim_keeps | apply State.stzEnd_keeps | apply State.stzTake_keeps | apply Keeps.foldl
        | apply Keeps.foldlPair | apply Keeps.foldlPair2)
    | intro _ | split | (rename_i e; have e := congrArg Prod.snd e; dsimp only at e; subst e)
   
   

theorem State.stzRefuse_keeps : ∀ z s a1 a2, Keeps z s → Keeps z (State.stzRefuse s a1 a2) := by
  intros; unfold State.stzRefuse
  repeat' first | (with_reducible first | assumption | apply State.refuseFrame_keeps | apply State.bump_keeps) | split

theorem State.stozilFrame_keeps : ∀ z s a1, Keeps z s → Keeps z (State.stozilFrame s a1) := by
  intros; unfold State.stozilFrame; (try dsimp only)
  repeat' first
    | (with_reducible first
        | assumption | apply State.ackAgain_keeps | apply State.stzRefuse_keeps | apply State.refuseFrame_keeps
        | apply State.stzTake_keeps | apply State.stzStart_keeps)
    | split

theorem State.stzNote_keeps : ∀ z s a1 a2 a3 a4, Keeps z s → Keeps z (State.stzNote s a1 a2 a3 a4) := by
  intros; unfold State.stzNote; (try dsimp only)
  repeat' first | (with_reducible first | assumption | apply State.setStzOp_keeps | apply State.stzEnd_keeps) | split

theorem State.stzEndNote_keeps : ∀ z s a1, Keeps z s → Keeps z (State.stzEndNote s a1) := by
  intros; unfold State.stzEndNote
  repeat' first
    | (with_reducible first
        | assumption | apply State.stzReturn_keeps | apply State.setStzOp_keeps)
    | split

theorem State.stzTick_keeps : ∀ z s, Keeps z s → Keeps z (State.stzTick s) := by
  intros; unfold State.stzTick
  repeat' first | (with_reducible first | assumption | apply State.setStz_keeps)

theorem State.stzIdle_keeps : ∀ z s a1, Keeps z s → Keeps z (State.stzIdle s a1) := by
  intros; unfold State.stzIdle; (try dsimp only)
  repeat' first | (with_reducible first | assumption | apply State.stzEnd_keeps) | split

theorem State.stzLost_keeps : ∀ z s a1, Keeps z s → Keeps z (State.stzLost s a1) := by
  intros; unfold State.stzLost; (try dsimp only)
  repeat' first | (with_reducible first | assumption | apply State.stzEnd_keeps | apply Keeps.foldl) | intro _ | split

theorem State.drainStozil_keeps : ∀ z s a1, Keeps z s → Keeps z (State.drainStozil s a1) := by
  intros; unfold State.drainStozil
  repeat' first | (with_reducible first | assumption | apply State.stzEnd_keeps | apply Keeps.foldl) | intro _ | split

theorem State.stozilJobEnd_keeps : ∀ z s a1, Keeps z s → Keeps z (State.stozilJobEnd s a1) := by
  intros; unfold State.stozilJobEnd; (try dsimp only)
  repeat' first
    | (with_reducible first
        | assumption | apply State.withdraw_keeps | apply State.stzReturn_keeps | apply State.workEnded_keeps
        | apply State.bump_keeps | apply State.setStzEntries_keeps | apply Keeps.foldl)
    | intro _ | split

end Sys2Proof.Machine
end

