-- ==== Sys2Proof/Laws/KeepsCommands.lean ====
section
/-! SUPPORT. What the module does leaves the queue of commands alone and the memory in its form: power, start-up,
faults and the commands. -/

namespace Sys2Proof.Machine

theorem State.setMgt_keeps : ∀ z s a1, Keeps z s → Keeps z (State.setMgt s a1) :=
  fun _ _ _ h => h

theorem State.sensorRead_keeps : ∀ z s a1 a2, Keeps z s → Keeps z (State.sensorRead s a1 a2) := by
  intros; unfold State.sensorRead; (try dsimp only)
  repeat' first | (with_reducible first | assumption | apply State.setMgt_keeps | apply State.event_keeps) | split

theorem State.sensorSample_keeps : ∀ z s a1, Keeps z s → Keeps z (State.sensorSample s a1) := by
  intros; unfold State.sensorSample
  repeat' first
    | (with_reducible first
        | assumption | apply State.sensorRead_keeps | apply Keeps.foldl)
    | intro _ | split

theorem State.clearPeaks_keeps : ∀ z s, Keeps z s → Keeps z (State.clearPeaks s) := by
  intros; unfold State.clearPeaks
  repeat' first | (with_reducible first | assumption | apply State.setMgt_keeps)

theorem State.setSlot_keeps : ∀ z s a1 a2, Keeps z s → Keeps z (State.setSlot s a1 a2) := by
  intros; unfold State.setSlot
  repeat' first | (with_reducible first | assumption | apply State.setMgt_keeps)

theorem State.imageWrite_keeps : ∀ z s a1 a2 a3 a4, Keeps z s → Keeps z (State.imageWrite s a1 a2 a3 a4) := by
  intros; unfold State.imageWrite; (try dsimp only)
  repeat' first | (with_reducible first | assumption | apply State.setSlot_keeps | apply State.setMgt_keeps)

theorem State.imageActivate_keeps : ∀ z s a1 a2, Keeps z s → Keeps z (State.imageActivate s a1 a2).2 := by
  intros; unfold State.imageActivate; (try dsimp only)
  repeat' first
    | (with_reducible first
        | assumption | apply State.setMgt_keeps | apply State.setSlot_keeps | apply State.event_keeps
        | apply State.bump_keeps)
    | split

theorem State.endTrialAtBoot_keeps : ∀ z s, Keeps z s → Keeps z (State.endTrialAtBoot s) := by
  intros; unfold State.endTrialAtBoot
  repeat' first | (with_reducible first | assumption | apply State.setMgt_keeps | apply State.setSlot_keeps) | split

theorem State.bootTry_keeps : ∀ z s a1 l, Keeps z s → Keeps z (State.bootTry s a1 l).2.2 := by
  intro z s a1 l
  induction l generalizing s with
  | nil => exact id
  | cons e es ih =>
    intro h; unfold State.bootTry; (try dsimp only)
    repeat' first
      | with_reducible assumption | with_reducible apply ih | with_reducible apply State.setMgt_keeps
      | with_reducible apply State.setSlot_keeps
      | (rename_i e; have e := congrArg Prod.snd e; dsimp only at e; subst e)
      | (rename_i e; have e := congrArg (fun q => q.2.2) e; dsimp only at e; subst e)
      | with_reducible apply Keeps.foldl | with_reducible apply Keeps.foldlPair
      | with_reducible apply Keeps.foldlPair2 | intro _ | split

theorem State.trialEnd_keeps : ∀ z s, Keeps z s → Keeps z (State.trialEnd s) := by
  intros; unfold State.trialEnd; (try dsimp only)
  repeat' first | (with_reducible first | assumption | apply State.setMgt_keeps | apply State.setSlot_keeps) | split

theorem State.recordChannel_keeps : ∀ z s a1, Keeps z s → Keeps z (State.recordChannel s a1) :=
  fun _ _ _ h => h

theorem State.retireChannel_keeps : ∀ z s a1 a2, Keeps z s → Keeps z (State.retireChannel s a1 a2) := by
  intros; unfold State.retireChannel; (try dsimp only)
  repeat' first
    | (with_reducible first
        | assumption | apply State.setChannel_keeps | apply State.recordChannel_keeps | apply State.event_keeps
        | apply State.assignSubstitutes_keeps | apply State.stashShrink_keeps)
    | split

theorem State.granuleLost_keeps : ∀ z s a1 a2, Keeps z s → Keeps z (State.granuleLost s a1 a2) := by
  intros; unfold State.granuleLost; (try dsimp only)
  repeat' first
    | (with_reducible first
        | assumption | apply State.undefine_keeps | apply State.report_keeps | apply State.stashDamage_keeps
        | apply Keeps.foldl | apply Keeps.foldlPair | apply Keeps.foldlPair2)
    | intro _ | split

theorem State.migrationDone_keeps : ∀ z s a1 a2, Keeps z s → Keeps z (State.migrationDone s a1 a2) := by
  intros; unfold State.migrationDone; (try dsimp only)
  repeat' first
    | (with_reducible first
        | assumption | apply State.event_keeps | apply State.setChannel_keeps | apply State.granuleLost_keeps
        | apply Keeps.foldl | apply Keeps.foldlPair | apply Keeps.foldlPair2)
    | intro _ | split

theorem State.channelControl_keeps : ∀ z s a1 a2, Keeps z s → Keeps z (State.channelControl s a1 a2) := by
  intros; unfold State.channelControl; (try dsimp only)
  repeat' first
    | (with_reducible first
        | assumption | apply State.retireChannel_keeps | apply State.setChannel_keeps | apply Keeps.foldl)
    | intro _ | split | (fail_if_no_progress with_reducible apply Keeps.lit)

theorem State.marchDone_keeps : ∀ z s a1 a2, Keeps z s → Keeps z (State.marchDone s a1 a2) := by
  intros; unfold State.marchDone
  repeat' first | (with_reducible first | assumption | apply State.setChannel_keeps) | split

theorem State.uncorrectable_keeps : ∀ z s a1, Keeps z s → Keeps z (State.uncorrectable s a1) := by
  intros; unfold State.uncorrectable; (try dsimp only)
  repeat' first
    | (with_reducible first
        | assumption | apply State.setChannel_keeps | apply State.retireChannel_keeps)
    | split

theorem State.setPwr_keeps : ∀ z s a1, Keeps z s → Keeps z (State.setPwr s a1) :=
  fun _ _ _ h => h

theorem State.setTilePwr_keeps : ∀ z s a1 a2, Keeps z s → Keeps z (State.setTilePwr s a1 a2) := by
  intros; unfold State.setTilePwr
  repeat' first | (with_reducible first | assumption | apply State.setPwr_keeps)

theorem State.retarget_keeps : ∀ z s a1, Keeps z s → Keeps z (State.retarget s a1) := by
  intros; unfold State.retarget; (try dsimp only)
  repeat' first | (with_reducible first | assumption | apply State.setTilePwr_keeps) | split

theorem State.retargetAll_keeps : ∀ z s, Keeps z s → Keeps z (State.retargetAll s) := by
  intros; unfold State.retargetAll
  repeat' first | (with_reducible first | assumption | apply State.retarget_keeps | apply Keeps.foldl)

theorem State.slewComplete_keeps : ∀ z s a1, Keeps z s → Keeps z (State.slewComplete s a1) := by
  intros; unfold State.slewComplete; (try dsimp only)
  repeat' first | (with_reducible first | assumption | apply State.setTilePwr_keeps) | split

theorem State.freqSwitch_keeps : ∀ z s a1, Keeps z s → Keeps z (State.freqSwitch s a1) := by
  intros; unfold State.freqSwitch; (try dsimp only)
  repeat' first
    | (with_reducible first
        | assumption | apply State.setTilePwr_keeps | apply State.bump_keeps | apply State.event_keeps)
    | split

theorem State.setPhase_keeps : ∀ z s a1 a2, Keeps z s → Keeps z (State.setPhase s a1 a2) := by
  intros; unfold State.setPhase
  repeat' first
    | (with_reducible first
        | assumption | apply State.retarget_keeps | apply State.setTilePwr_keeps | apply Keeps.foldl)
    | intro _

theorem State.demandTick_keeps : ∀ z s, Keeps z s → Keeps z (State.demandTick s) := by
  intros; unfold State.demandTick; (try dsimp only)
  repeat' first
    | (with_reducible first
        | assumption | apply State.setTilePwr_keeps | apply Keeps.foldl)
    | intro _ | split

theorem State.demandRelease_keeps : ∀ z s a1, Keeps z s → Keeps z (State.demandRelease s a1) := by
  intros; unfold State.demandRelease; (try dsimp only)
  repeat' first
    | (with_reducible first
        | assumption | apply State.retarget_keeps | apply State.setTilePwr_keeps)
    | split

theorem State.droopOn_keeps : ∀ z s a1, Keeps z s → Keeps z (State.droopOn s a1) := by
  intros; unfold State.droopOn
  repeat' first | (with_reducible first | assumption | apply State.bump_keeps | apply State.setPwr_keeps) | split

theorem State.droopOff_keeps : ∀ z s a1, Keeps z s → Keeps z (State.droopOff s a1) := by
  intros; unfold State.droopOff
  repeat' first | (with_reducible first | assumption | apply State.setPwr_keeps)

theorem State.judgeEstimate_keeps : ∀ z s a1, Keeps z s → Keeps z (State.judgeEstimate s a1) := by
  intros; unfold State.judgeEstimate; (try dsimp only)
  repeat' first | (with_reducible first | assumption | apply State.setPwr_keeps)

theorem State.powerTick_keeps : ∀ z s a1, Keeps z s → Keeps z (State.powerTick s a1) := by
  intros; unfold State.powerTick; (try dsimp only)
  repeat' first
    | (with_reducible first
        | assumption | apply State.judgeEstimate_keeps | apply State.setTilePwr_keeps | apply State.setPwr_keeps
        | apply State.bump_keeps | apply State.event_keeps | apply Keeps.foldl)
    | intro _ | split

theorem State.applyBubbles_keeps : ∀ z s, Keeps z s → Keeps z (State.applyBubbles s) := by
  intros; unfold State.applyBubbles; (try dsimp only)
  repeat' first
    | (with_reducible first
        | assumption | apply State.setTilePwr_keeps | apply State.bump_keeps | apply State.setEngine_keeps
        | apply Keeps.foldl)
    | intro _ | split

theorem State.distrust_keeps : ∀ z s, Keeps z s → Keeps z (State.distrust s) := by
  intros; unfold State.distrust; (try dsimp only)
  repeat' first
    | (with_reducible first
        | assumption | apply State.bump_keeps | apply State.setPwr_keeps | apply State.event_keeps
        | apply State.report_keeps)
    | split

theorem State.retrust_keeps : ∀ z s, Keeps z s → Keeps z (State.retrust s) := by
  intros; unfold State.retrust
  repeat' first | (with_reducible first | assumption | apply State.event_keeps | apply State.setPwr_keeps) | split

theorem State.thermalSample_keeps : ∀ z s a1, Keeps z s → Keeps z (State.thermalSample s a1) := by
  intros; unfold State.thermalSample; (try dsimp only)
  repeat' first
    | (with_reducible first
        | assumption | apply State.setPwr_keeps | apply State.setTilePwr_keeps | apply State.report_keeps
        | apply Keeps.foldl)
    | intro _

theorem State.thermalStep_keeps : ∀ z s a1, Keeps z s → Keeps z (State.thermalStep s a1) := by
  intros; unfold State.thermalStep; (try dsimp only)
  repeat' first
    | (with_reducible first
        | assumption | apply State.bump_keeps | apply State.setTilePwr_keeps | apply State.retarget_keeps
        | apply State.event_keeps | apply State.report_keeps)
    | split

theorem State.thermalTick_keeps : ∀ z s, Keeps z s → Keeps z (State.thermalTick s) := by
  intros; unfold State.thermalTick
  repeat' first | (with_reducible first | assumption | apply State.setPwr_keeps)

theorem State.coolantHold_keeps : ∀ z s a1 a2, Keeps z s → Keeps z (State.coolantHold s a1 a2) := by
  intros; unfold State.coolantHold
  repeat' first
    | (with_reducible first
        | assumption | apply State.report_keeps | apply State.event_keeps | apply State.setPwr_keeps)
    | split

theorem State.coolantRelease_keeps : ∀ z s a1 a2, Keeps z s → Keeps z (State.coolantRelease s a1 a2) := by
  intros; unfold State.coolantRelease
  repeat' first | (with_reducible first | assumption | apply State.event_keeps | apply State.setPwr_keeps) | split

theorem State.setBoot_keeps : ∀ z s a1, Keeps z s → Keeps z (State.setBoot s a1) :=
  fun _ _ _ h => h

theorem State.enter_keeps : ∀ z s a1 a2, Keeps z s → Keeps z (State.enter s a1 a2) := by
  intros; unfold State.enter; (try dsimp only)
  repeat' first | (with_reducible first | assumption | apply State.event_keeps | apply State.setBoot_keeps)

theorem State.reseed_keeps : ∀ z s, Keeps z s → Keeps z (State.reseed s) :=
  fun _ _ h => h

theorem State.withoutData_keeps : ∀ z s, Keeps z s → Keeps z (State.withoutData s) :=
  fun _ _ h => ⟨h.1, fun _ => Memory.wf_nil⟩

theorem State.dataPlaneReset_keeps : ∀ z s, Keeps z s → Keeps z (State.dataPlaneReset s) := by
  intros; unfold State.dataPlaneReset; (try dsimp only)
  repeat' first
    | (with_reducible first
        | assumption | apply State.enter_keeps | apply State.setBoot_keeps | apply State.restartPlan_keeps
        | apply State.withoutData_keeps)

theorem State.downDone_keeps : ∀ z s, Keeps z s → Keeps z (State.downDone s) := by
  intros; unfold State.downDone; (try dsimp only)
  repeat' first
    | (with_reducible first
        | assumption | apply State.setBoot_keeps | apply Keeps.foldl)
    | intro _ | split | (fail_if_no_progress with_reducible apply Keeps.lit)

theorem State.startDown_keeps : ∀ z s, Keeps z s → Keeps z (State.startDown s) := by
  intros; unfold State.startDown; (try dsimp only)
  repeat' first | (with_reducible first | assumption | apply State.setBoot_keeps | apply State.downDone_keeps) | split

theorem State.downOrderStep_keeps : ∀ z s a1, Keeps z s → Keeps z (State.downOrderStep s a1) := by
  intros; unfold State.downOrderStep
  repeat' first | (with_reducible first | assumption | apply State.downDone_keeps | apply State.setBoot_keeps) | split

theorem State.saveCapture_keeps : ∀ z s a1, Keeps z s → Keeps z (State.saveCapture s a1) := by
  intros; unfold State.saveCapture; (try dsimp only)
  repeat' first
    | (with_reducible first
        | assumption | apply State.logPersist_keeps | apply Keeps.foldl)
    | intro _ | split | (fail_if_no_progress with_reducible apply Keeps.lit)

theorem State.saveCaptures_keeps : ∀ z s, Keeps z s → Keeps z (State.saveCaptures s) := by
  intros; unfold State.saveCaptures
  repeat' first | (with_reducible first | assumption | apply State.saveCapture_keeps | apply Keeps.foldl)

theorem State.withoutModule_keeps : ∀ z s, Keeps z s → Keeps z (State.withoutModule s) :=
  fun _ _ h => ⟨h.1, fun _ => Memory.wf_nil⟩

theorem State.moduleReset_keeps : ∀ z s a1, Keeps z s → Keeps z (State.moduleReset s a1) := by
  intros; unfold State.moduleReset; (try dsimp only)
  repeat' first
    | (with_reducible first
        | assumption | apply State.withoutModule_keeps | apply State.saveCaptures_keeps | apply State.event_keeps
        | apply State.startDown_keeps | apply Keeps.foldl)
    | intro _ | split | (fail_if_no_progress with_reducible apply Keeps.lit)

theorem State.fail_keeps : ∀ z s a1, Keeps z s → Keeps z (State.fail s a1) := by
  intros; unfold State.fail; (try dsimp only)
  repeat' first
    | (with_reducible first
        | assumption | apply State.setBoot_keeps | apply State.enter_keeps | apply State.startDown_keeps
        | apply Keeps.foldl | apply Keeps.foldlPair | apply Keeps.foldlPair2)
    | intro _ | split

theorem State.sequencingFault_keeps : ∀ z s a1, Keeps z s → Keeps z (State.sequencingFault s a1) := by
  intros; unfold State.sequencingFault; (try dsimp only)
  repeat' first
    | (with_reducible first
        | assumption | apply State.bump_keeps | apply State.report_keeps | apply State.fail_keeps)
    | split

theorem State.qualify_keeps : ∀ z s, Keeps z s → Keeps z (State.qualify s) := by
  intros; unfold State.qualify; (try dsimp only)
  repeat' first
    | (with_reducible first
        | assumption | apply State.enter_keeps | apply State.setBoot_keeps | apply State.sequencingFault_keeps
        | apply Keeps.foldl)
    | intro _ | split | (fail_if_no_progress with_reducible apply Keeps.lit)

theorem State.standby_keeps : ∀ z s, Keeps z s → Keeps z (State.standby s) := by
  intros; unfold State.standby; (try dsimp only)
  repeat' first
    | (with_reducible first
        | assumption | apply State.enter_keeps | apply State.setBoot_keeps | apply State.event_keeps
        | apply State.qualify_keeps | apply Keeps.foldl)
    | intro _ | split | (fail_if_no_progress with_reducible apply Keeps.lit)

theorem State.leaveReset_keeps : ∀ z s, Keeps z s → Keeps z (State.leaveReset s) := by
  intros; unfold State.leaveReset
  repeat' first | (with_reducible first | assumption | apply State.setBoot_keeps) | split

theorem State.resetLow_keeps : ∀ z s, Keeps z s → Keeps z (State.resetLow s) := by
  intros; unfold State.resetLow
  repeat' first | (with_reducible first | assumption | apply State.moduleReset_keeps | apply State.setBoot_keeps)

theorem State.polarity_keeps : ∀ z s a1, Keeps z s → Keeps z (State.polarity s a1) := by
  intros; unfold State.polarity
  repeat' first
    | (with_reducible first
        | assumption | apply State.setBoot_keeps | apply State.leaveReset_keeps | apply Keeps.foldl
        | apply Keeps.foldlPair | apply Keeps.foldlPair2)
    | intro _ | split

theorem State.vinQualified_keeps : ∀ z s a1 a2 a3, Keeps z s → Keeps z (State.vinQualified s a1 a2 a3) := by
  intros; unfold State.vinQualified; (try dsimp only)
  repeat' first
    | (with_reducible first
        | assumption | apply State.setBoot_keeps | apply State.qualify_keeps | apply State.polarity_keeps
        | apply Keeps.foldl | apply Keeps.foldlPair | apply Keeps.foldlPair2)
    | intro _ | split

theorem State.railStepGood_keeps : ∀ z s a1, Keeps z s → Keeps z (State.railStepGood s a1) := by
  intros; unfold State.railStepGood; (try dsimp only)
  repeat' first | (with_reducible first | assumption | apply State.setBoot_keeps | apply State.enter_keeps) | split

theorem State.inputLost_keeps : ∀ z s a1 a2, Keeps z s → Keeps z (State.inputLost s a1 a2) := by
  intros; unfold State.inputLost; (try dsimp only)
  repeat' first
    | (with_reducible first
        | assumption | apply State.setBoot_keeps | apply State.event_keeps | apply State.withoutData_keeps
        | apply State.restartPlan_keeps | apply State.startDown_keeps | apply State.standby_keeps | apply Keeps.foldl)
    | intro _ | split | (fail_if_no_progress with_reducible apply Keeps.lit)

theorem State.railFault_keeps : ∀ z s a1, Keeps z s → Keeps z (State.railFault s a1) := by
  intros; unfold State.railFault; (try dsimp only)
  repeat' first
    | (with_reducible first
        | assumption | apply State.bump_keeps | apply State.report_keeps | apply State.stopTile_keeps
        | apply State.setTilePwr_keeps | apply State.setBoot_keeps | apply State.withoutData_keeps
        | apply State.fail_keeps | apply Keeps.foldl | apply Keeps.foldlPair | apply Keeps.foldlPair2)
    | intro _ | split

theorem State.repower_keeps : ∀ z s a1, Keeps z s → Keeps z (State.repower s a1) := by
  intros; unfold State.repower
  repeat' first
    | (with_reducible first
        | assumption | apply State.setTilePwr_keeps | apply State.setBoot_keeps)
    | split

theorem State.resetHigh_keeps : ∀ z s, Keeps z s → Keeps z (State.resetHigh s) := by
  intros; unfold State.resetHigh
  repeat' first | (with_reducible first | assumption | apply State.leaveReset_keeps | apply State.setBoot_keeps)

theorem State.auxUp_keeps : ∀ z s, Keeps z s → Keeps z (State.auxUp s) := by
  intros; unfold State.auxUp
  repeat' first | (with_reducible first | assumption | apply State.leaveReset_keeps | apply State.setBoot_keeps)

theorem State.auxDown_keeps : ∀ z s, Keeps z s → Keeps z (State.auxDown s) := by
  intros; unfold State.auxDown; (try dsimp only)
  repeat' first | (with_reducible first | assumption | apply State.withoutModule_keeps | apply State.setBoot_keeps)

theorem State.bootChecked_keeps : ∀ z s a1, Keeps z s → Keeps z (State.bootChecked s a1) := by
  intros; unfold State.bootChecked; (try dsimp only)
  repeat' first
    | (with_reducible first
        | assumption | apply State.endTrialAtBoot_keeps | apply State.bootTry_keeps | apply State.setBoot_keeps
        | apply State.standby_keeps | apply State.event_keeps | apply Keeps.foldl)
    | intro _ | split

theorem State.reapply_keeps : ∀ z s, Keeps z s → Keeps z (State.reapply s) := by
  intros; unfold State.reapply; (try dsimp only)
  repeat' first
    | (with_reducible first
        | assumption | apply State.setLane_keeps | apply State.setEngine_keeps | apply Keeps.foldl)
    | intro _

theorem State.restoreChannels_keeps : ∀ z s, Keeps z s → Keeps z (State.restoreChannels s) := by
  intros; unfold State.restoreChannels; (try dsimp only)
  repeat' first
    | (with_reducible first
        | assumption | apply State.setChannel_keeps | apply Keeps.foldl)
    | intro _ | split | (fail_if_no_progress with_reducible apply Keeps.lit)

theorem State.trainingFailed_keeps : ∀ z s a1, Keeps z s → Keeps z (State.trainingFailed s a1) := by
  intros; unfold State.trainingFailed
  repeat' first
    | (with_reducible first
        | assumption | apply State.event_keeps | apply State.setChannel_keeps | apply State.recordChannel_keeps)

theorem State.memoryDone_keeps : ∀ z s a1 a2 a3, Keeps z s → Keeps z (State.memoryDone s a1 a2 a3) := by
  intros; unfold State.memoryDone; (try dsimp only)
  repeat' first
    | (with_reducible first
        | assumption | apply Keeps.litNil | apply State.trialEnd_keeps | apply State.assignSubstitutes_keeps
        | apply State.retargetAll_keeps
        | apply State.enter_keeps | apply State.setBoot_keeps | apply State.reseed_keeps
        | apply State.engineTestFailed_keeps | apply State.reapply_keeps | apply State.fail_keeps
        | apply State.setChannel_keeps | apply State.trainingFailed_keeps | apply State.restoreChannels_keeps
        | apply Keeps.foldl)
    | intro _ | split

theorem State.carve_keeps : ∀ z s a1 a2 a3 a4, Keeps z s → Keeps z (State.carve s a1 a2 a3 a4) := by
  intros; unfold State.carve; (try dsimp only)
  repeat' first
    | (with_reducible first
        | assumption | apply State.clearMem_keeps | apply State.assignSubstitutes_keeps | apply State.setBoot_keeps
        | apply State.enter_keeps | apply Keeps.foldl | apply Keeps.foldlPair | apply Keeps.foldlPair2)
    | intro _ | split | (fail_if_no_progress with_reducible apply Keeps.lit)

theorem State.setFlt_keeps : ∀ z s a1, Keeps z s → Keeps z (State.setFlt s a1) :=
  fun _ _ _ h => h

theorem State.levelSet_keeps : ∀ z s a1 a2, Keeps z s → Keeps z (State.levelSet s a1 a2) := by
  intros; unfold State.levelSet
  repeat' first | (with_reducible first | assumption | apply State.setReg_keeps) | split

theorem State.capture_keeps : ∀ z s a1 a2 a3, Keeps z s → Keeps z (State.capture s a1 a2 a3) := by
  intros; unfold State.capture; (try dsimp only)
  repeat' first
    | (with_reducible first
        | assumption | apply State.bump_keeps | apply State.stamped_keeps | apply State.setFlt_keeps)

theorem State.logFault_keeps : ∀ z s a1 a2 a3, Keeps z s → Keeps z (State.logFault s a1 a2 a3) := by
  intros; unfold State.logFault; (try dsimp only)
  repeat' first
    | (with_reducible first
        | assumption | apply State.bump_keeps | apply State.event_keeps | apply State.setFlt_keeps)
    | split

theorem State.enterSafe_keeps : ∀ z s a1 a2, Keeps z s → Keeps z (State.enterSafe s a1 a2) := by
  intros; unfold State.enterSafe; (try dsimp only)
  repeat' first
    | (with_reducible first
        | assumption | apply State.failBlock_keeps | apply State.bump_keeps | apply State.setFlt_keeps
        | apply Keeps.foldl)
    | intro _

theorem State.react_keeps : ∀ z s a1 a2, Keeps z s → Keeps z (State.react s a1 a2) := by
  intros; unfold State.react; (try dsimp only)
  repeat' first
    | (with_reducible first
        | assumption | apply State.capture_keeps | apply State.logFault_keeps | apply State.enterSafe_keeps)
    | split

theorem State.headless_keeps : ∀ z s, Keeps z s → Keeps z (State.headless s) := by
  intros; unfold State.headless
  repeat' first
    | (with_reducible first
        | assumption | apply State.emit_keeps | apply State.setMgt_keeps | apply State.setFlt_keeps)
    | split

theorem State.headlessOver_keeps : ∀ z s, Keeps z s → Keeps z (State.headlessOver s) := by
  intros; unfold State.headlessOver
  repeat' first | (with_reducible first | assumption | apply State.enterSafe_keeps) | split

theorem State.contain_keeps : ∀ z s a1, Keeps z s → Keeps z (State.contain s a1) := by
  intros; unfold State.contain; (try dsimp only)
  repeat' first
    | (with_reducible first
        | assumption | apply State.bump_keeps | apply State.free_keeps | apply State.dropStored_keeps
        | apply State.stashDamage_keeps | apply State.retireChannel_keeps | apply State.uncorrectable_keeps
        | apply State.engineRetired_keeps | apply State.endRun_keeps | apply State.stopTile_keeps
        | apply State.replayOr_keeps | apply State.setParm_keeps | apply State.failBlock_keeps
        | apply State.engineJobDone_keeps | apply State.setFlt_keeps | apply State.headless_keeps
        | apply Keeps.foldl | apply Keeps.foldlPair | apply Keeps.foldlPair2)
    | intro _ | split | (fail_if_no_progress with_reducible apply Keeps.lit)

theorem State.containUnit_keeps : ∀ z s a1, Keeps z s → Keeps z (State.containUnit s a1) := by
  intros; unfold State.containUnit
  repeat' first | (with_reducible first | assumption | apply State.contain_keeps) | split

theorem State.clearFaults_keeps : ∀ z s a1, Keeps z s → Keeps z (State.clearFaults s a1) := by
  intros; unfold State.clearFaults; (try dsimp only)
  repeat' first | (with_reducible first | assumption | apply State.setFlt_keeps)

theorem State.clearTile_keeps : ∀ z s a1 a2, Keeps z s → Keeps z (State.clearTile s a1 a2) := by
  intros; unfold State.clearTile; (try dsimp only)
  repeat' first | (with_reducible first | assumption | apply State.setFlt_keeps)

theorem State.setInjection_keeps : ∀ z s a1, Keeps z s → Keeps z (State.setInjection s a1) :=
  fun _ _ _ h => h

theorem State.injected_keeps : ∀ z s a1 a2, Keeps z s → Keeps z (State.injected s a1 a2) := by
  intros; unfold State.injected
  repeat' first | (with_reducible first | assumption | apply State.setFlt_keeps)

theorem State.containment_keeps : ∀ z s a1, Keeps z s → Keeps z (State.containment s a1) := by
  intros; unfold State.containment
  repeat' first
    | (with_reducible first
        | assumption | apply State.containUnit_keeps | apply State.contain_keeps)
    | split

theorem State.faultRaised_keeps : ∀ z s a1, Keeps z s → Keeps z (State.faultRaised s a1) := by
  intros; unfold State.faultRaised
  repeat' first
    | (with_reducible first
        | assumption | apply State.react_keeps | apply State.containment_keeps | apply State.injected_keeps)
    | split

theorem State.reactQueued_keeps : ∀ z s a1 a2, Keeps z s → Keeps z (State.reactQueued s a1 a2) := by
  intros; unfold State.reactQueued
  repeat' first | (with_reducible first | assumption | apply State.react_keeps | apply State.injected_keeps) | split

theorem State.reactAll_keeps : ∀ z s n, Keeps z s → Keeps z (State.reactAll s n) := by
  intro z s n
  induction n generalizing s with
  | zero => exact id
  | succ n ih =>
    intro h; unfold State.reactAll
    repeat' first
      | with_reducible assumption | with_reducible apply ih | with_reducible apply State.reactQueued_keeps
      | with_reducible apply State.setFlt_keeps
      | (rename_i e; have e := congrArg Prod.snd e; dsimp only at e; subst e)
      | (rename_i e; have e := congrArg (fun q => q.2.2) e; dsimp only at e; subst e)
      | with_reducible apply Keeps.foldl | with_reducible apply Keeps.foldlPair
      | with_reducible apply Keeps.foldlPair2 | intro _ | split

theorem State.injectionMissed_keeps : ∀ z s a1, Keeps z s → Keeps z (State.injectionMissed s a1) := by
  intros; unfold State.injectionMissed; (try dsimp only)
  repeat' first
    | (with_reducible first
        | assumption | apply State.bump_keeps | apply State.injected_keeps | apply State.react_keeps
        | apply State.containUnit_keeps)
    | split

theorem State.injectionRound_keeps : ∀ z s, Keeps z s → Keeps z (State.injectionRound s) := by
  intros; unfold State.injectionRound
  repeat' first | (with_reducible first | assumption | apply State.bump_keeps) | split

theorem State.injectTick_keeps : ∀ z s, Keeps z s → Keeps z (State.injectTick s) := by
  intros; unfold State.injectTick
  repeat' first | (with_reducible first | assumption | apply State.setFlt_keeps)

theorem State.injectTimeout_keeps : ∀ z s, Keeps z s → Keeps z (State.injectTimeout s) := by
  intros; unfold State.injectTimeout
  repeat' first | (with_reducible first | assumption | apply State.injected_keeps) | split

theorem State.thermalTrip_keeps : ∀ z s a1, Keeps z s → Keeps z (State.thermalTrip s a1) := by
  intros; unfold State.thermalTrip; (try dsimp only)
  repeat' first
    | (with_reducible first
        | assumption | apply State.react_keeps | apply State.moduleReset_keeps | apply Keeps.foldl)
    | intro _ | split | (fail_if_no_progress with_reducible apply Keeps.lit)

theorem State.setHost_keeps : ∀ z s a1, Keeps z s → Keeps z (State.setHost s a1) :=
  fun _ _ _ h => h

theorem State.admitJob_keeps : ∀ z s a1, Keeps z s → Keeps z (State.admitJob s a1) :=
  fun _ _ _ h => h

theorem State.endInstances_keeps : ∀ z s a1 a2, Keeps z s → Keeps z (State.endInstances s a1 a2) := by
  intros; unfold State.endInstances
  repeat' first | (with_reducible first | assumption | apply State.endInstance_keeps | apply Keeps.foldl) | intro _

theorem State.endRuns_keeps : ∀ z s a1 a2, Keeps z s → Keeps z (State.endRuns s a1 a2) := by
  intros; unfold State.endRuns
  repeat' first | (with_reducible first | assumption | apply State.endRun_keeps | apply Keeps.foldl) | intro _

theorem State.unload_keeps : ∀ z s a1, Keeps z s → Keeps z (State.unload s a1) := by
  intros; unfold State.unload; (try dsimp only)
  repeat' first
    | (with_reducible first
        | assumption | apply State.freeAll_keeps | apply State.dropCtx_keeps | apply State.setEng_keeps)
    | split

theorem State.endContexts_keeps : ∀ z s a1, Keeps z s → Keeps z (State.endContexts s a1) := by
  intros; unfold State.endContexts; (try dsimp only)
  repeat' first
    | (with_reducible first
        | assumption | apply State.removeColl_keeps | apply State.unload_keeps | apply Keeps.foldl)

theorem State.countEnded_keeps : ∀ z s a1 a2 a3, Keeps z s → Keeps z (State.countEnded s a1 a2 a3) := by
  intros; unfold State.countEnded
  repeat' first | (with_reducible first | assumption | apply State.setHost_keeps)

theorem State.endJob_keeps : ∀ z s a1, Keeps z s → Keeps z (State.endJob s a1) := by
  intros; unfold State.endJob; (try dsimp only)
  repeat' first
    | (with_reducible first
        | assumption | apply State.endInstances_keeps | apply State.endBlocks_keeps | apply State.endRuns_keeps
        | apply State.stozilJobEnd_keeps | apply State.stashEnd_keeps | apply State.reclaim_keeps
        | apply State.dropFlows_keeps | apply State.endContexts_keeps | apply State.countEnded_keeps
        | apply State.setHost_keeps)

theorem State.jobEnded_keeps : ∀ z s a1, Keeps z s → Keeps z (State.jobEnded s a1) :=
  fun _ _ _ h => h

theorem State.disable_keeps : ∀ z s a1 a2 a3, Keeps z s → Keeps z (State.disable s a1 a2 a3) := by
  intros; unfold State.disable
  repeat' first | (with_reducible first | assumption | apply State.setHost_keeps)

theorem State.setDisable_keeps : ∀ z s a1 a2 a3, Keeps z s → Keeps z (State.setDisable s a1 a2 a3) := by
  intros; unfold State.setDisable
  repeat' first | (with_reducible first | assumption | apply State.setHost_keeps)

theorem State.enable_keeps : ∀ z s a1 a2, Keeps z s → Keeps z (State.enable s a1 a2) := by
  intros; unfold State.enable
  repeat' first | (with_reducible first | assumption | apply State.setHost_keeps)

theorem State.drain_keeps : ∀ z s a1 a2, Keeps z s → Keeps z (State.drain s a1 a2) := by
  intros; unfold State.drain; (try dsimp only)
  repeat' first
    | (with_reducible first
        | assumption | apply State.endInstances_keeps | apply State.drainBlocks_keeps | apply State.drainStash_keeps
        | apply State.endRuns_keeps | apply State.drainStozil_keeps)
    | split

theorem State.drainTimeout_keeps : ∀ z s a1 a2, Keeps z s → Keeps z (State.drainTimeout s a1 a2) := by
  intros; unfold State.drainTimeout
  repeat' first | (with_reducible first | assumption | apply State.drain_keeps | apply State.setDisable_keeps) | split

theorem State.disableTick_keeps : ∀ z s, Keeps z s → Keeps z (State.disableTick s) := by
  intros; unfold State.disableTick
  repeat' first | (with_reducible first | assumption | apply State.setHost_keeps)

theorem State.regReadEffect_keeps : ∀ z s a1 a2, Keeps z s → Keeps z (State.regReadEffect s a1 a2) := by
  intros; unfold State.regReadEffect; (try dsimp only)
  repeat' first
    | (with_reducible first
        | assumption | apply State.stamped_keeps | apply State.setReg_keeps | apply Keeps.foldl)
    | intro _ | split | (fail_if_no_progress with_reducible apply Keeps.lit)

theorem State.writeRefused_keeps : ∀ z s a1 a2 a3 a4, Keeps z s → Keeps z (State.writeRefused s a1 a2 a3 a4) := by
  intros; unfold State.writeRefused
  repeat' first | (with_reducible first | assumption | apply State.event_keeps)

theorem State.clampReserves_keeps : ∀ z s, Keeps z s → Keeps z (State.clampReserves s) := by
  intros; unfold State.clampReserves; (try dsimp only)
  repeat' first
    | (with_reducible first
        | assumption | apply State.event_keeps | apply Keeps.foldl)
    | intro _ | split | (fail_if_no_progress with_reducible apply Keeps.lit)

theorem State.setPeriod_keeps : ∀ z s a1, Keeps z s → Keeps z (State.setPeriod s a1) := by
  intros; unfold State.setPeriod; (try dsimp only)
  repeat' first
    | (with_reducible first
        | assumption | apply State.setReg_keeps | apply State.setTick_keeps | apply State.clampReserves_keeps)

theorem State.tickJoin_keeps : ∀ z s, Keeps z s → Keeps z (State.tickJoin s) := by
  intros; unfold State.tickJoin; (try dsimp only)
  repeat' first
    | (with_reducible first
        | assumption | apply State.setReg_keeps | apply State.setTick_keeps | apply State.becomeRoot_keeps
        | apply State.tickEnter_keeps | apply State.setTopo_keeps | apply State.enter_keeps
        | apply State.lightLsms_keeps | apply State.enablePort_keeps | apply Keeps.foldl)
    | intro _ | split

theorem State.writeTickConfig_keeps : ∀ z s a1, Keeps z s → Keeps z (State.writeTickConfig s a1) := by
  intros; unfold State.writeTickConfig; (try dsimp only)
  repeat' first
    | (with_reducible first
        | assumption | apply State.setPeriod_keeps | apply State.setReg_keeps | apply State.tickJoin_keeps)
    | split

theorem State.regWrite_keeps : ∀ z s a1 a2 a3, Keeps z s → Keeps z (State.regWrite s a1 a2 a3) := by
  intros; unfold State.regWrite; (try dsimp only)
  repeat' first
    | (with_reducible first
        | assumption | apply State.writeTickConfig_keeps | apply State.clearFaults_keeps
        | apply State.clearTile_keeps | apply State.channelControl_keeps | apply State.clearPeaks_keeps
        | apply State.retargetAll_keeps | apply State.setReg_keeps | apply Keeps.foldl)
    | intro _ | split | (fail_if_no_progress with_reducible apply Keeps.lit)

theorem State.addrFault_keeps : ∀ z s a1 a2, Keeps z s → Keeps z (State.addrFault s a1 a2) :=
  fun _ _ _ _ h => h

theorem State.refReport_keeps : ∀ z s a1 a2 a3, Keeps z s → Keeps z (State.refReport s a1 a2 a3) := by
  intros; unfold State.refReport
  repeat' first
    | (with_reducible first
        | assumption | apply State.addrFault_keeps | apply Keeps.foldl | apply Keeps.foldlPair
        | apply Keeps.foldlPair2)
    | intro _ | split

theorem State.writeRef_keeps : ∀ z s a1 a2 a3 a4, Keeps z s → Keeps z (State.writeRef s a1 a2 a3 a4).2 := by
  intros; unfold State.writeRef
  repeat' first
    | (with_reducible first
        | assumption | apply State.emit_keeps | apply State.writeMem_keeps | apply State.refReport_keeps
        | apply Keeps.foldl | apply Keeps.foldlPair | apply Keeps.foldlPair2)
    | intro _ | split

theorem State.setMbox_keeps : ∀ z s a1 a2, Keeps z s → Keeps z (State.setMbox s a1 a2) := by
  intros; unfold State.setMbox
  repeat' first | (with_reducible first | assumption | apply State.setHost_keeps)

theorem State.deliver_keeps : ∀ z s a1 a2, Keeps z s → Keeps z (State.deliver s a1 a2) := by
  intros; unfold State.deliver; (try dsimp only)
  repeat' first
    | (with_reducible first
        | assumption | apply State.bump_keeps | apply State.emit_keeps | apply State.setMbox_keeps
        | apply State.setHost_keeps | apply State.send_keeps)
    | split

theorem State.complete_keeps : ∀ z s a1 a2 a3 a4, Keeps z s → Keeps z (State.complete s a1 a2 a3 a4) := by
  intros; unfold State.complete; (try dsimp only)
  repeat' first
    | (with_reducible first
        | assumption | apply State.setHost_keeps | apply State.stamped_keeps | apply State.bump_keeps
        | apply State.deliver_keeps)
    | split

theorem finished_keeps (z s : State) (r) (h : Keeps z s) : Keeps z (finished s r).2 := h

theorem denied_keeps (z s : State) (a b) (h : Keeps z s) : Keeps z (denied s a b).2 := h

theorem reports_keeps (z s : State) (a b) (h : Keeps z s) : Keeps z (reports s a b).2 := by unfold reports; split <;>
    exact h

theorem State.mboxBind_keeps : ∀ z s a1 a2 a3 a4 a5 a6 a7, Keeps z s → Keeps z (State.mboxBind s a1 a2 a3 a4 a5 a6
    a7).2 := by
  intros; unfold State.mboxBind; (try dsimp only)
  repeat' first
    | (with_reducible first
        | assumption | apply denied_keeps | apply State.draw_keeps | apply State.setMbox_keeps
        | apply State.deliver_keeps | apply finished_keeps | apply Keeps.foldl)
    | intro _ | split

theorem State.mboxUnbind_keeps : ∀ z s a1, Keeps z s → Keeps z (State.mboxUnbind s a1).2 := by
  intros; unfold State.mboxUnbind
  repeat' first | (with_reducible first | assumption | apply finished_keeps | apply State.setMbox_keeps)

theorem State.mboxCancel_keeps : ∀ z s a1 a2, Keeps z s → Keeps z (State.mboxCancel s a1 a2).2 := by
  intros; unfold State.mboxCancel
  repeat' first
    | (with_reducible first
        | assumption | apply finished_keeps | apply State.complete_keeps | apply denied_keeps)
    | split

theorem State.mboxStatus_keeps : ∀ z s a1, Keeps z s → Keeps z (State.mboxStatus s a1).2 := by
  intros; unfold State.mboxStatus
  repeat' first | (with_reducible first | assumption | apply finished_keeps)

theorem State.hostPortConfig_keeps : ∀ z s a1 a2 a3 a4 a5 a6, Keeps z s → Keeps z (State.hostPortConfig s a1 a2 a3 a4
    a5 a6).2 := by
  intros; unfold State.hostPortConfig; (try dsimp only)
  repeat' first
    | (with_reducible first
        | assumption | apply denied_keeps | apply finished_keeps | apply State.setHost_keeps)
    | split

theorem State.hostQpOpen_keeps : ∀ z s a1 a2 a3 a4 a5 a6 a7, Keeps z s → Keeps z (State.hostQpOpen s a1 a2 a3 a4 a5
    a6 a7).2 := by
  intros; unfold State.hostQpOpen; (try dsimp only)
  repeat' first
    | (with_reducible first
        | assumption | apply denied_keeps | apply State.draw_keeps | apply State.setHost_keeps
        | apply finished_keeps)
    | split

theorem State.hostQpClose_keeps : ∀ z s a1, Keeps z s → Keeps z (State.hostQpClose s a1).2 := by
  intros; unfold State.hostQpClose
  repeat' first
    | (with_reducible first
        | assumption | apply denied_keeps | apply finished_keeps | apply State.setHost_keeps)
    | split

theorem State.readImage_keeps {z s : State} {c : Sys2Proof.Instr} {h : Sys2Proof.CmdHdr} {r : Sys2Proof.Ref} {n : Nat}
    {len : List Byte → Nat} {x : Nat × State} (e : s.readImage c h r n len = .inl x) (k : Keeps z s) : Keeps z x.2 := by
  unfold State.readImage at e
  split at e
  · rw [← Sum.inl.inj e]; exact k
  · split at e
    · rw [← Sum.inl.inj e]; exact State.refReport_keeps _ _ _ _ _ k
    · split at e
      · rw [← Sum.inl.inj e]; exact k
      · split at e
        · rw [← Sum.inl.inj e]; exact State.refReport_keeps _ _ _ _ _ k
        · exact absurd e (by simp)

theorem State.jobAdmit_keeps : ∀ z s a1 a2 a3, Keeps z s → Keeps z (State.jobAdmit s a1 a2 a3).2 := by
  intros; unfold State.jobAdmit
  repeat' first
    | (with_reducible first
        | assumption | apply State.admitJob_keeps | apply finished_keeps | apply denied_keeps
        | apply State.readImage_keeps (by with_reducible assumption) | apply Keeps.foldl | apply Keeps.foldlPair
        | apply Keeps.foldlPair2)
    | intro _ | split

theorem State.jobEnd_keeps : ∀ z s a1, Keeps z s → Keeps z (State.jobEnd s a1).2 := by
  intros; unfold State.jobEnd; (try dsimp only)
  repeat' first | (with_reducible first | assumption | apply State.endJob_keeps)

theorem State.jobStatus_keeps : ∀ z s a1 a2, Keeps z s → Keeps z (State.jobStatus s a1 a2).2 := by
  intros; unfold State.jobStatus
  repeat' first | (with_reducible first | assumption | apply denied_keeps | apply reports_keeps) | split

theorem State.funcDisable_keeps : ∀ z s a1 a2 a3, Keeps z s → Keeps z (State.funcDisable s a1 a2 a3).2 := by
  intros; unfold State.funcDisable
  repeat' first
    | (with_reducible first
        | assumption | apply finished_keeps | apply denied_keeps | apply State.disable_keeps)
    | split

theorem State.funcEnable_keeps : ∀ z s a1 a2, Keeps z s → Keeps z (State.funcEnable s a1 a2).2 := by
  intros; unfold State.funcEnable
  repeat' first
    | (with_reducible first
        | assumption | apply denied_keeps | apply finished_keeps | apply State.enable_keeps)
    | split

theorem State.funcStatus_keeps : ∀ z s a1 a2, Keeps z s → Keeps z (State.funcStatus s a1 a2).2 := by
  intros; unfold State.funcStatus
  repeat' first | (with_reducible first | assumption | apply finished_keeps)

theorem State.straysAt_keeps : ∀ z s a1 a2 a3, Keeps z s → Keeps z (State.straysAt s a1 a2 a3) := by
  intros; unfold State.straysAt
  repeat' first
    | (with_reducible first
        | assumption | apply State.addrFault_keeps | apply Keeps.foldl | apply Keeps.foldlPair
        | apply Keeps.foldlPair2)
    | intro _ | split

theorem State.regReads_keeps {z s s' : State} {a n : Nat} {vs : List Nat} (e : s.regReads a n = some (vs, s'))
    (h : Keeps z s) : Keeps z s' := by
  induction n generalizing s a vs with
  | zero =>
    simp only [State.regReads, Option.some.injEq, Prod.mk.injEq] at e
    rw [← e.2]; exact h
  | succ n ih =>
    unfold State.regReads at e
    split at e
    · exact absurd e (by simp)
    · simp only [Option.map_eq_some_iff, Prod.mk.injEq] at e
      obtain ⟨x, hx, -, hs⟩ := e
      obtain ⟨v, t⟩ := x
      subst hs
      exact ih hx (State.regReadEffect_keeps _ _ _ _ h)

theorem State.readRegs_keeps : ∀ z s a1 a2 a3, Keeps z s → Keeps z (State.readRegs s a1 a2 a3).2 := by
  intros; unfold State.readRegs; (try dsimp only)
  repeat' first
    | (with_reducible first
        | assumption | apply finished_keeps | apply denied_keeps | apply State.straysAt_keeps
        | apply State.regReads_keeps (by with_reducible assumption) | apply Keeps.foldl | apply Keeps.foldlPair
        | apply Keeps.foldlPair2)
    | intro _ | split

theorem State.writeReg_keeps : ∀ z s a1 a2, Keeps z s → Keeps z (State.writeReg s a1 a2).2 := by
  intros; unfold State.writeReg
  repeat' first
    | (with_reducible first
        | assumption | apply State.writeRefused_keeps | apply State.regWrite_keeps | apply finished_keeps
        | apply denied_keeps | apply State.straysAt_keeps | apply Keeps.foldl | apply Keeps.foldlPair
        | apply Keeps.foldlPair2)
    | intro _ | split

theorem State.setupCarve_keeps : ∀ z s a1 a2 a3 a4, Keeps z s → Keeps z (State.setupCarve s a1 a2 a3 a4).2 := by
  intros; unfold State.setupCarve
  repeat' first
    | (with_reducible first
        | assumption | apply denied_keeps | apply finished_keeps | apply State.carve_keeps)
    | split

theorem State.resetModule_keeps : ∀ z s, Keeps z s → Keeps z (State.resetModule s).2 := by
  intros; unfold State.resetModule
  repeat' first
    | (with_reducible first
        | assumption | apply denied_keeps | apply finished_keeps | apply State.setBoot_keeps)
    | split

theorem State.resetDataPlane_keeps : ∀ z s, Keeps z s → Keeps z (State.resetDataPlane s).2 := by
  intros; unfold State.resetDataPlane
  repeat' first | (with_reducible first | assumption | apply denied_keeps | apply State.dataPlaneReset_keeps) | split

theorem State.resetTile_keeps : ∀ z s a1, Keeps z s → Keeps z (State.resetTile s a1).2 := by
  intros; unfold State.resetTile
  repeat' first
    | (with_reducible first
        | assumption | apply denied_keeps | apply State.stopTile_keeps | apply State.repower_keeps)
    | split

theorem State.resetPort_keeps : ∀ z s a1, Keeps z s → Keeps z (State.resetPort s a1).2 := by
  intros; unfold State.resetPort
  repeat' first
    | (with_reducible first
        | assumption | apply denied_keeps | apply finished_keeps | apply State.enablePort_keeps
        | apply State.disablePort_keeps)
    | split

theorem State.linkHedge_keeps : ∀ z s a1 a2 a3 a4 a5, Keeps z s → Keeps z (State.linkHedge s a1 a2 a3 a4 a5).2 := by
  intros; unfold State.linkHedge; (try dsimp only)
  repeat' first
    | (with_reducible first
        | assumption | apply denied_keeps | apply State.hedge_keeps | apply State.dropSubs_keeps
        | apply finished_keeps | apply State.stashHedged_keeps)
    | split

theorem State.linkLift_keeps : ∀ z s a1 a2 a3 a4 a5, Keeps z s → Keeps z (State.linkLift s a1 a2 a3 a4 a5).2 := by
  intros; unfold State.linkLift
  repeat' first | (with_reducible first | assumption | apply finished_keeps | apply State.lift_keeps)

theorem State.laneRetire_keeps : ∀ z s a1, Keeps z s → Keeps z (State.laneRetire s a1).2 := by
  intros; unfold State.laneRetire
  repeat' first | (with_reducible first | assumption | apply finished_keeps | apply State.retireLane_keeps) | split

theorem State.laneTest_keeps : ∀ z s a1 a2 a3 a4, Keeps z s → Keeps z (State.laneTest s a1 a2 a3 a4).2 := by
  intros; unfold State.laneTest
  repeat' first | (with_reducible first | assumption | apply denied_keeps | apply State.startLaneTest_keeps) | split

theorem State.laneLsmRelease_keeps : ∀ z s a1, Keeps z s → Keeps z (State.laneLsmRelease s a1).2 := by
  intros; unfold State.laneLsmRelease
  repeat' first | (with_reducible first | assumption | apply denied_keeps | apply State.lsmRelease_keeps) | split

theorem State.topoLoad_keeps : ∀ z s a1 a2 a3, Keeps z s → Keeps z (State.topoLoad s a1 a2 a3).2 := by
  intros; unfold State.topoLoad; (try dsimp only)
  repeat' first
    | (with_reducible first
        | assumption | apply State.loadPlan_keeps | apply State.enter_keeps | apply finished_keeps
        | apply denied_keeps | apply State.readImage_keeps (by with_reducible assumption) | apply Keeps.foldl
        | apply Keeps.foldlPair | apply Keeps.foldlPair2)
    | intro _ | split

theorem State.topoReadmit_keeps : ∀ z s a1, Keeps z s → Keeps z (State.topoReadmit s a1).2 := by
  intros; unfold State.topoReadmit
  repeat' first
    | (with_reducible first
        | assumption | apply denied_keeps | apply finished_keeps | apply State.reinstallGroups_keeps
        | apply State.readmit_keeps)
    | split

theorem State.routeReseed_keeps : ∀ z s a1, Keeps z s → Keeps z (State.routeReseed s a1).2 := by
  intros; unfold State.routeReseed
  repeat' first | (with_reducible first | assumption | apply finished_keeps | apply State.setTopo_keeps)

theorem State.schedReserve_keeps : ∀ z s a1 a2, Keeps z s → Keeps z (State.schedReserve s a1 a2).2 := by
  intros; unfold State.schedReserve; (try dsimp only)
  repeat' first
    | (with_reducible first
        | assumption | apply denied_keeps | apply finished_keeps | apply State.scaleEvent_keeps | apply Keeps.foldl)
    | intro _ | split | (fail_if_no_progress with_reducible apply Keeps.lit)

theorem State.poolSetup_keeps : ∀ z s a1 a2 a3 a4 a5 a6, Keeps z s → Keeps z (State.poolSetup s a1 a2 a3 a4 a5
    a6).2 := by
  intros; unfold State.poolSetup; (try dsimp only)
  repeat' first
    | (with_reducible first
        | assumption | apply State.assignSubstitutes_keeps | apply finished_keeps | apply denied_keeps
        | apply Keeps.foldl | apply Keeps.foldlPair | apply Keeps.foldlPair2)
    | intro _ | split | (fail_if_no_progress with_reducible apply Keeps.lit)

theorem State.poolQuota_keeps : ∀ z s a1 a2 a3 a4, Keeps z s → Keeps z (State.poolQuota s a1 a2 a3 a4).2 := by
  intros; unfold State.poolQuota; (try dsimp only)
  repeat' first
    | (with_reducible first
        | assumption | apply denied_keeps | apply finished_keeps | apply Keeps.foldl)
    | intro _ | split | (fail_if_no_progress with_reducible apply Keeps.lit)

theorem State.poolBind_keeps : ∀ z s a1 a2, Keeps z s → Keeps z (State.poolBind s a1 a2).2 := by
  intros; unfold State.poolBind; (try dsimp only)
  repeat' first
    | (with_reducible first
        | assumption | apply denied_keeps | apply finished_keeps | apply Keeps.foldl)
    | intro _ | split | (fail_if_no_progress with_reducible apply Keeps.lit)

theorem State.poolAlloc_keeps : ∀ z s a1 a2 a3 a4, Keeps z s → Keeps z (State.poolAlloc s a1 a2 a3 a4).2 := by
  intros; unfold State.poolAlloc
  repeat' first
    | (with_reducible first
        | assumption | apply denied_keeps | apply State.poolFail_keeps | apply State.alloc_keeps
        | apply finished_keeps | apply Keeps.foldl)
    | intro _ | split | (rename_i e; have e := congrArg Prod.snd e; dsimp only at e; subst e)
    | (rename_i e; have e := congrArg (fun q => q.2.2) e; dsimp only at e; subst e)

theorem State.poolRef_keeps : ∀ z s a1 a2, Keeps z s → Keeps z (State.poolRef s a1 a2).2 := by
  intros; unfold State.poolRef; (try dsimp only)
  repeat' first | (with_reducible first | assumption | apply State.reference_keeps)

theorem State.poolStatus_keeps : ∀ z s a1 a2 a3, Keeps z s → Keeps z (State.poolStatus s a1 a2 a3).2 := by
  intros; unfold State.poolStatus; (try dsimp only)
  repeat' first | (with_reducible first | assumption | apply reports_keeps)

theorem State.setCap_keeps : ∀ z s a1, Keeps z s → Keeps z (State.setCap s a1).2 := by
  intros; unfold State.setCap
  repeat' first | (with_reducible first | assumption | apply finished_keeps | apply State.setReg_keeps)

theorem State.setSeverity_keeps : ∀ z s a1 a2, Keeps z s → Keeps z (State.setSeverity s a1 a2).2 := by
  intros; unfold State.setSeverity
  repeat' first
    | (with_reducible first
        | assumption | apply finished_keeps | apply State.levelSet_keeps | apply denied_keeps)
    | split

theorem State.hostInject_keeps : ∀ z s a1, Keeps z s → Keeps z (State.hostInject s a1).2 := by
  intros; unfold State.hostInject
  repeat' first
    | (with_reducible first
        | assumption | apply State.setInjection_keeps | apply denied_keeps | apply Keeps.foldl
        | apply Keeps.foldlPair | apply Keeps.foldlPair2)
    | intro _ | split

theorem State.mgtImageWrite_keeps : ∀ z s a1 a2 a3 a4 a5 a6, Keeps z s → Keeps z (State.mgtImageWrite s a1 a2 a3
    a4 a5 a6).2 := by
  intros; unfold State.mgtImageWrite
  repeat' first
    | (with_reducible first
        | assumption | apply State.imageWrite_keeps | apply State.refReport_keeps | apply finished_keeps
        | apply denied_keeps | apply Keeps.foldl | apply Keeps.foldlPair | apply Keeps.foldlPair2)
    | intro _ | split

theorem State.mgtAttest_keeps : ∀ z s a1 a2, Keeps z s → Keeps z (State.mgtAttest s a1 a2).2 := by
  intros; unfold State.mgtAttest; (try dsimp only)
  repeat' first
    | (with_reducible first
        | assumption | apply State.bump_keeps | apply State.stamped_keeps | apply denied_keeps | apply Keeps.foldl
        | apply Keeps.foldlPair | apply Keeps.foldlPair2)
    | intro _ | split

theorem State.mgtLogRead_keeps : ∀ z s a1 a2 a3, Keeps z s → Keeps z (State.mgtLogRead s a1 a2 a3).2 := by
  intros; unfold State.mgtLogRead
  repeat' first | (with_reducible first | assumption | apply denied_keeps) | split

theorem State.engLoad_keeps : ∀ z s a1 a2 a3 a4, Keeps z s → Keeps z (State.engLoad s a1 a2 a3 a4).2 := by
  intros; unfold State.engLoad; (try dsimp only)
  repeat' first
    | (with_reducible first
        | assumption | apply State.useCtx_keeps | apply State.newGen_keeps | apply State.allocBuffers_keeps
        | apply State.setProg_keeps | apply finished_keeps | apply denied_keeps
        | apply State.readImage_keeps (by with_reducible assumption) | apply Keeps.foldl | apply Keeps.foldlPair
        | apply Keeps.foldlPair2)
    | intro _ | split | (rename_i e; have e := congrArg Prod.snd e; dsimp only at e; subst e)
    | (rename_i e; have e := congrArg (fun q => q.2.2) e; dsimp only at e; subst e)
   

theorem State.engUnload_keeps : ∀ z s a1, Keeps z s → Keeps z (State.engUnload s a1).2 := by
  intros; unfold State.engUnload
  repeat' first
    | (with_reducible first
        | assumption | apply denied_keeps | apply finished_keeps | apply State.unload_keeps)
    | split

theorem State.engRun_keeps : ∀ z s a1, Keeps z s → Keeps z (State.engRun s a1).2 := by
  intros; unfold State.engRun
  repeat' first
    | (with_reducible first
        | assumption | apply denied_keeps | apply State.startRun_keeps | apply Keeps.foldl)
    | intro _ | split | (rename_i e; have e := congrArg Prod.snd e; dsimp only at e; subst e)

theorem State.engAbort_keeps : ∀ z s a1, Keeps z s → Keeps z (State.engAbort s a1).2 := by
  intros; unfold State.engAbort
  repeat' first
    | (with_reducible first
        | assumption | apply denied_keeps | apply finished_keeps | apply State.endRun_keeps | apply State.loseOutputs_keeps)
    | split

theorem State.engKernel_keeps : ∀ z s a1 a2 a3 a4 a5, Keeps z s → Keeps z (State.engKernel s a1 a2 a3 a4 a5).2 := by
  intros; unfold State.engKernel
  repeat' first
    | (with_reducible first
        | assumption | apply State.setEng_keeps | apply State.refReport_keeps | apply finished_keeps
        | apply denied_keeps | apply Keeps.foldl | apply Keeps.foldlPair | apply Keeps.foldlPair2)
    | intro _ | split

theorem State.engTest_keeps : ∀ z s a1, Keeps z s → Keeps z (State.engTest s a1).2 := by
  intros; unfold State.engTest; (try dsimp only)
  repeat' first
    | (with_reducible first
        | assumption | apply State.setEng_keeps | apply finished_keeps | apply Keeps.foldl | apply Keeps.foldlPair
        | apply Keeps.foldlPair2)
    | intro _ | split

theorem State.groupWait_keeps : ∀ z s a1 a2 a3, Keeps z s → Keeps z (State.groupWait s a1 a2 a3).2 := by
  intros; unfold State.groupWait
  repeat' first | (with_reducible first | assumption | apply finished_keeps) | split

theorem State.collOpenCmd_keeps : ∀ z s a1 a2 a3 a4 a5 a6, Keeps z s → Keeps z (State.collOpenCmd s a1 a2 a3 a4 a5
    a6).2 := by
  intros; unfold State.collOpenCmd; (try dsimp only)
  repeat' first
    | (with_reducible first
        | assumption | apply State.collOpen_keeps | apply finished_keeps | apply denied_keeps
        | apply State.groupWait_keeps | apply State.readImage_keeps (by with_reducible assumption)
        | apply Keeps.foldl | apply Keeps.foldlPair | apply Keeps.foldlPair2)
    | (rename_i e; have e := congrArg Prod.snd e; dsimp only at e; subst e)
    | (rename_i e; have e := congrArg (fun q => q.2.2) e; dsimp only at e; subst e) | intro _ | split
   

theorem State.collBarrierCmd_keeps : ∀ z s a1 a2 a3 a4 a5 a6 a7, Keeps z s → Keeps z (State.collBarrierCmd s a1 a2
    a3 a4 a5 a6 a7).2 := by
  intros; unfold State.collBarrierCmd
  repeat' first
    | (with_reducible first
        | assumption | apply State.barrierOpen_keeps | apply denied_keeps | apply State.groupWait_keeps
        | apply State.readImage_keeps (by with_reducible assumption) | apply Keeps.foldl | apply Keeps.foldlPair
        | apply Keeps.foldlPair2)
    | intro _ | split | (rename_i e; have e := congrArg Prod.snd e; dsimp only at e; subst e)
   
   

theorem State.onBlock_keeps (z s : State) (a1 a2 : Nat) (a3 : Nat → Nat → Bool) (f : Nat → BlockSt → CmdEnd × State)
    (hs : Keeps z s)
    (h : ∀ c b, Keeps z (f c b).2) : Keeps z (State.onBlock s a1 a2 a3 f).2 := by
  unfold State.onBlock
  repeat' first | with_reducible assumption | with_reducible apply h | with_reducible apply denied_keeps | split

theorem State.paramDeclare_keeps : ∀ z s a1 a2 a3, Keeps z s → Keeps z (State.paramDeclare s a1 a2 a3).2 := by
  intro z s c h r k
  unfold State.paramDeclare
  split
  · rename_i e
    exact State.readImage_keeps e k
  · rename_i b _
    have d := State.declare_keeps z s b k
    dsimp only
    split
    · exact k
    · split
      · exact k
      · split
        · rename_i e
          rw [e] at d
          exact d
        · rename_i e
          rw [e] at d
          split
          · exact d
          · exact State.groupWait_keeps _ _ _ _ _ d

theorem State.paramInit_keeps : ∀ z s a1 a2 a3 a4 a5 a6 a7, Keeps z s → Keeps z (State.paramInit s a1 a2 a3 a4 a5
    a6 a7).2 := by
  intros; unfold State.paramInit; (try dsimp only)
  repeat' first
    | (with_reducible first
        | assumption | apply State.fillRegion_keeps | apply State.refReport_keeps | apply finished_keeps
        | apply denied_keeps | apply State.onBlock_keeps | apply Keeps.foldl | apply Keeps.foldlPair
        | apply Keeps.foldlPair2)
    | intro _ | split

theorem State.paramRead_keeps : ∀ z s a1 a2 a3 a4, Keeps z s → Keeps z (State.paramRead s a1 a2 a3 a4).2 := by
  intros; unfold State.paramRead
  repeat' first
    | (with_reducible first
        | assumption | apply State.onBlock_keeps | apply reports_keeps | apply denied_keeps)
    | intro _ | split

theorem State.paramOptimizer_keeps : ∀ z s a1 a2 a3, Keeps z s → Keeps z (State.paramOptimizer s a1 a2 a3).2 := by
  intro z s c h r k
  unfold State.paramOptimizer
  split
  · rename_i e
    exact State.readImage_keeps e k
  · rename_i b _
    split
    · exact k
    · exact State.loadOptimizer_keeps z s b k

theorem State.paramPublish_keeps : ∀ z s a1 a2, Keeps z s → Keeps z (State.paramPublish s a1 a2).2 := by
  intros; unfold State.paramPublish
  repeat' first
    | (with_reducible first
        | assumption | apply State.publish_keeps | apply denied_keeps | apply Keeps.foldl)
    | intro _ | split | (rename_i e; have e := congrArg Prod.snd e; dsimp only at e; subst e)

theorem State.paramUpdate_keeps : ∀ z s a1 a2, Keeps z s → Keeps z (State.paramUpdate s a1 a2).2 := by
  intros; unfold State.paramUpdate; (try dsimp only)
  repeat' first
    | (with_reducible first
        | assumption | apply State.onBlock_keeps | apply finished_keeps | apply State.reviewBlock_keeps
        | apply State.blockState_keeps)
    | intro _

theorem State.paramDiscard_keeps : ∀ z s a1 a2, Keeps z s → Keeps z (State.paramDiscard s a1 a2).2 := by
  intros; unfold State.paramDiscard
  repeat' first
    | (with_reducible first
        | assumption | apply State.onBlock_keeps | apply finished_keeps | apply State.discardStep_keeps)
    | intro _

theorem State.paramEvict_keeps : ∀ z s a1 a2, Keeps z s → Keeps z (State.paramEvict s a1 a2).2 := by
  intros; unfold State.paramEvict; (try dsimp only)
  repeat' first
    | (with_reducible first
        | assumption | apply State.onBlock_keeps | apply finished_keeps | apply State.dropHolds_keeps)
    | intro _ | split

theorem State.paramSpoil_keeps : ∀ z s a1 a2 a3 a4 a5, Keeps z s → Keeps z (State.paramSpoil s a1 a2 a3 a4 a5).2 := by
  intros; unfold State.paramSpoil
  repeat' first
    | (with_reducible first
        | assumption | apply State.writeMem_keeps | apply State.refReport_keeps | apply finished_keeps
        | apply denied_keeps | apply State.onBlock_keeps | apply Keeps.foldl | apply Keeps.foldlPair
        | apply Keeps.foldlPair2)
    | intro _ | split

theorem State.paramHyper_keeps : ∀ z s a1 a2 a3, Keeps z s → Keeps z (State.paramHyper s a1 a2 a3).2 := by
  intros; unfold State.paramHyper
  repeat' first
    | (with_reducible first
        | assumption | apply finished_keeps | apply State.setBlock_keeps | apply State.onBlock_keeps
        | apply Keeps.foldl)
    | intro _ | split

theorem State.paramStatus_keeps : ∀ z s a1 a2 a3, Keeps z s → Keeps z (State.paramStatus s a1 a2 a3).2 := by
  intros; unfold State.paramStatus
  repeat' first | (with_reducible first | assumption | apply State.onBlock_keeps | apply reports_keeps) | intro _

theorem State.paramRetire_keeps : ∀ z s a1 a2, Keeps z s → Keeps z (State.paramRetire s a1 a2).2 := by
  intros; unfold State.paramRetire
  repeat' first
    | (with_reducible first
        | assumption | apply State.onBlock_keeps | apply finished_keeps | apply State.removeBlock_keeps)
    | intro _

theorem State.stashReserve_keeps {z s s' : State} {j l n r m o : Nat} (e : s.stashReserve j l n r m = .inr (o, s'))
    (h : Keeps z s) : Keeps z s' := by
  unfold State.stashReserve at e
  dsimp only at e
  repeat' (split at e)
  all_goals first
    | (simp at e; done)
    | (simp only [Sum.inr.injEq, Prod.mk.injEq] at e
       rw [← e.2]
       repeat' first
         | with_reducible assumption | with_reducible apply State.setStash_keeps
         | with_reducible apply State.assignSubstitutes_keeps
         | with_reducible apply State.setRes_keeps | with_reducible apply State.newGen_keeps)

theorem State.stashReserveCmd_keeps : ∀ z s a1 a2 a3 a4 a5, Keeps z s → Keeps z (State.stashReserveCmd s a1 a2 a3
    a4 a5).2 := by
  intro z s j l n r m k
  unfold State.stashReserveCmd
  split
  · exact k
  · split
    · exact k
    · rename_i e
      exact State.stashReserve_keeps e k

theorem State.onStash_keeps (z s : State) (a1 : Nat) (f : StashRes → CmdEnd × State) (hs : Keeps z s)
    (h : ∀ r, Keeps z (f r).2) : Keeps z (State.onStash s a1 f).2 := by
  unfold State.onStash
  repeat' first | with_reducible assumption | with_reducible apply h | with_reducible apply denied_keeps | split

theorem State.stashReleaseCmd_keeps : ∀ z s a1, Keeps z s → Keeps z (State.stashReleaseCmd s a1).2 := by
  intros; unfold State.stashReleaseCmd; (try dsimp only)
  repeat' first
    | (with_reducible first
        | assumption | apply State.onStash_keeps | apply State.stashRelease_keeps | apply finished_keeps
        | apply State.dropRes_keeps)
    | intro _ | split

theorem State.stashEntryCmd_keeps : ∀ z s a1 a2 a3 a4, Keeps z s → Keeps z (State.stashEntryCmd s a1 a2 a3 a4).2 := by
  intros; unfold State.stashEntryCmd
  repeat' first
    | (with_reducible first
        | assumption | apply State.onStash_keeps | apply denied_keeps | apply reports_keeps)
    | intro _ | split

theorem ended_keeps (z : State) (x : Nat × State) (h : Keeps z x.2) : Keeps z (ended x).2 := h

theorem programEnd_keeps (z : State) (r : Nat) (x : Nat × State) (h : Keeps z x.2) : Keeps z (programEnd r x).2 := h

theorem State.runCmd_keeps : ∀ z s a1 a2, Keeps z s → Keeps z (State.runCmd s a1 a2).2 := by
  intros; unfold State.runCmd
  repeat' first
    | (with_reducible first
        | assumption | apply State.mboxBind_keeps | apply State.mboxUnbind_keeps | apply State.mboxCancel_keeps
        | apply State.mboxStatus_keeps | apply State.hostPortConfig_keeps | apply State.hostQpOpen_keeps
        | apply State.hostQpClose_keeps | apply State.jobAdmit_keeps | apply State.jobEnd_keeps
        | apply State.jobStatus_keeps | apply State.funcDisable_keeps | apply State.funcEnable_keeps
        | apply State.funcStatus_keeps | apply State.readRegs_keeps | apply State.setupCarve_keeps
        | apply State.resetModule_keeps | apply State.resetDataPlane_keeps | apply State.resetTile_keeps
        | apply State.resetPort_keeps | apply finished_keeps | apply State.rejoin_keeps
        | apply State.enablePort_keeps | apply State.disablePort_keeps | apply State.linkHedge_keeps
        | apply State.linkLift_keeps | apply State.laneRetire_keeps | apply State.restoreLane_keeps
        | apply State.laneTest_keeps | apply State.laneLsmRelease_keeps | apply State.topoLoad_keeps
        | apply State.topoReadmit_keeps | apply State.routeReseed_keeps | apply State.schedReserve_keeps
        | apply State.poolSetup_keeps | apply State.poolQuota_keeps | apply State.poolBind_keeps
        | apply State.poolAlloc_keeps | apply State.free_keeps | apply State.give_keeps | apply State.poolRef_keeps
        | apply State.poolStatus_keeps | apply State.engLoad_keeps | apply State.engUnload_keeps
        | apply State.engRun_keeps | apply State.engAbort_keeps | apply State.engKernel_keeps
        | apply State.retireEngine_keeps | apply State.restoreEngine_keeps | apply State.engTest_keeps
        | apply State.collOpenCmd_keeps | apply State.collClose_keeps | apply State.abortInstance_keeps
        | apply reports_keeps | apply State.collBarrierCmd_keeps | apply State.paramDeclare_keeps
        | apply State.paramInit_keeps | apply State.paramRead_keeps | apply State.paramOptimizer_keeps
        | apply State.bindProgram_keeps | apply State.paramPublish_keeps | apply State.closeStep_keeps
        | apply State.paramUpdate_keeps | apply State.paramDiscard_keeps | apply State.paramEvict_keeps
        | apply State.paramSpoil_keeps | apply State.paramHyper_keeps | apply State.paramStatus_keeps
        | apply State.paramRetire_keeps | apply State.stashReserveCmd_keeps | apply State.stashReleaseCmd_keeps
        | apply State.onStash_keeps | apply State.purge_keeps | apply State.stamped_keeps
        | apply State.stashEntryCmd_keeps | apply State.setPhase_keeps | apply State.setCap_keeps
        | apply State.setSeverity_keeps | apply State.hostInject_keeps | apply State.clearFaults_keeps
        | apply State.mgtImageWrite_keeps | apply State.imageActivate_keeps | apply State.mgtAttest_keeps
        | apply State.mgtLogRead_keeps | apply State.writeReg_keeps | apply ended_keeps | apply programEnd_keeps
        | apply finished_keeps | apply denied_keeps | apply reports_keeps)
    | intro _ | split

theorem State.setCtx_keeps : ∀ z s a1 a2, Keeps z s → Keeps z (State.setCtx s a1 a2) := by
  intros; unfold State.setCtx
  repeat' first | (with_reducible first | assumption | apply State.setHost_keeps)

theorem State.addCtx_keeps : ∀ z s a1 a2 a3 a4, Keeps z s → Keeps z (State.addCtx s a1 a2 a3 a4) := by
  intros; unfold State.addCtx
  repeat' first | (with_reducible first | assumption | apply State.setHost_keeps)

theorem State.perform_keeps : ∀ z s a1, Keeps z s → Keeps z (State.perform s a1) := by
  intros; unfold State.perform
  repeat' first
    | (with_reducible first
        | assumption | apply State.complete_keeps | apply State.runCmd_keeps | apply State.writeRef_keeps
        | apply State.setCtx_keeps | apply Keeps.foldl)
    | (rename_i e; have e := congrArg Prod.snd e; dsimp only at e; subst e)
    | (rename_i e; have e := congrArg (fun q => q.2.2) e; dsimp only at e; subst e) | intro _ | split

theorem State.hold_keeps : ∀ z s a1 a2, Keeps z s → Keeps z (State.hold s a1 a2) := by
  intros; unfold State.hold
  repeat' first
    | (with_reducible first
        | assumption | apply State.runCmd_keeps | apply State.setCtx_keeps | apply State.complete_keeps
        | apply Keeps.foldl)
    | intro _ | split | (rename_i e; have e := congrArg Prod.snd e; dsimp only at e; subst e)

theorem State.ready_keeps : ∀ z s a1 a2, Keeps z s → Keeps z (State.ready s a1 a2) := by
  intros; unfold State.ready
  repeat' first
    | (with_reducible first
        | assumption | apply State.setCtx_keeps | apply State.hold_keeps | apply State.perform_keeps)
    | split

theorem State.start_keeps : ∀ z s a1, Keeps z s → Keeps z (State.start s a1) := by
  intros; unfold State.start; (try dsimp only)
  repeat' first
    | (with_reducible first
        | assumption | apply State.setCtx_keeps | apply State.complete_keeps | apply State.hold_keeps
        | apply State.ready_keeps)
    | split

theorem State.dispatchOne_keeps : ∀ z s a1, Keeps z s → Keeps z (State.dispatchOne s a1) := by
  intros; unfold State.dispatchOne; (try dsimp only)
  repeat' first | (with_reducible first | assumption | apply State.setHost_keeps | apply State.start_keeps) | split

theorem State.pump_keeps : ∀ z s n, Keeps z s → Keeps z (State.pump s n) := by
  intro z s n
  induction n generalizing s with
  | zero => exact id
  | succ n ih =>
    intro h; unfold State.pump
    repeat' first
      | with_reducible assumption | with_reducible apply ih | with_reducible apply State.dispatchOne_keeps
      | (rename_i e; have e := congrArg Prod.snd e; dsimp only at e; subst e)
      | (rename_i e; have e := congrArg (fun q => q.2.2) e; dsimp only at e; subst e)
      | with_reducible apply Keeps.foldl | with_reducible apply Keeps.foldlPair
      | with_reducible apply Keeps.foldlPair2 | intro _ | split

theorem State.forget_keeps : ∀ z s a1, Keeps z s → Keeps z (State.forget s a1) := by
  intros; unfold State.forget
  repeat' first | (with_reducible first | assumption | apply State.enable_keeps) | split

theorem State.wake_keeps : ∀ z s a1, Keeps z s → Keeps z (State.wake s a1) := by
  intros; unfold State.wake
  repeat' first
    | (with_reducible first
        | assumption | apply State.ready_keeps | apply State.forget_keeps | apply State.complete_keeps)
    | split

theorem State.wakeAll_keeps : ∀ z s, Keeps z s → Keeps z (State.wakeAll s) := by
  intros; unfold State.wakeAll
  repeat' first | (with_reducible first | assumption | apply State.wake_keeps | apply Keeps.foldl) | intro _ | split

theorem State.finishKey_keeps : ∀ z s a1 a2 a3, Keeps z s → Keeps z (State.finishKey s a1 a2 a3) := by
  intros; unfold State.finishKey
  repeat' first | (with_reducible first | assumption | apply State.complete_keeps | apply Keeps.foldl) | intro _

theorem State.runOver_keeps : ∀ z s a1 a2, Keeps z s → Keeps z (State.runOver s a1 a2) := by
  intros; unfold State.runOver; (try dsimp only)
  repeat' first
    | (with_reducible first
        | assumption | apply State.blockRunEnded_keeps | apply State.finishKey_keeps | apply Keeps.foldl
        | apply Keeps.foldlPair | apply Keeps.foldlPair2)
    | intro _ | split | (fail_if_no_progress with_reducible apply Keeps.lit)

theorem State.groupNote_keeps : ∀ z s a1 a2 a3 a4, Keeps z s → Keeps z (State.groupNote s a1 a2 a3 a4) := by
  intros; unfold State.groupNote; (try dsimp only)
  repeat' first
    | (with_reducible first
        | assumption | apply State.setGroup_keeps | apply State.removeBlock_keeps | apply State.removeColl_keeps
        | apply State.complete_keeps)
    | split

theorem State.tell_keeps : ∀ z s a1 a2, Keeps z s → Keeps z (State.tell s a1 a2) := by
  intros; unfold State.tell
  repeat' first
    | (with_reducible first
        | assumption | apply State.collNote_keeps | apply State.mergeNote_keeps | apply State.groupNote_keeps
        | apply State.pushNote_keeps | apply State.stashNote_keeps | apply State.outputSettled_keeps
        | apply State.endRun_keeps | apply State.stzNote_keeps | apply State.stzEndNote_keeps)
    | split

theorem State.tellLost_keeps : ∀ z s a1, Keeps z s → Keeps z (State.tellLost s a1) := by
  intros; unfold State.tellLost
  repeat' first
    | (with_reducible first
        | assumption | apply State.stzLost_keeps | apply State.stashLost_keeps | apply State.pruneWaiting_keeps
        | apply State.dropSubs_keeps | apply State.collLost_keeps)

theorem State.passNotes_keeps : ∀ z s, Keeps z s → Keeps z (State.passNotes s) := by
  intros; unfold State.passNotes; (try dsimp only)
  repeat' first
    | (with_reducible first
        | assumption | apply State.setEng_keeps | apply State.setTopo_keeps | apply State.setColl_keeps
        | apply State.setParm_keeps | apply State.handChunk_keeps | apply State.instanceEnded_keeps
        | apply State.finishKey_keeps | apply State.runOver_keeps | apply State.tell_keeps
        | apply State.tellLost_keeps | apply Keeps.foldl | apply Keeps.foldlPair | apply Keeps.foldlPair2)
    | intro _ | split | (fail_if_no_progress with_reducible apply Keeps.lit)

theorem State.dropReleased_keeps : ∀ z s, Keeps z s → Keeps z (State.dropReleased s) := by
  intros; unfold State.dropReleased
  repeat' first | (with_reducible first | assumption | apply State.dropRes_keeps | apply Keeps.foldl)

theorem State.serviceCheck_keeps : ∀ z s, Keeps z s → Keeps z (State.serviceCheck s) := by
  intros; unfold State.serviceCheck
  repeat' first | (with_reducible first | assumption | apply State.enter_keeps) | split

theorem State.settleRound_keeps : ∀ z s, Keeps z s → Keeps z (State.settleRound s) := by
  intros; unfold State.settleRound; (try dsimp only)
  repeat' first
    | (with_reducible first
        | assumption | apply State.passNotes_keeps | apply State.reactAll_keeps | apply State.serviceCheck_keeps
        | apply State.fenceCheck_keeps | apply State.dropReleased_keeps | apply State.reviewBlocks_keeps
        | apply State.pump_keeps | apply State.wakeAll_keeps)

theorem State.rounds__keeps : ∀ z s n, Keeps z s → Keeps z (State.rounds_ s n) := by
  intro z s n
  induction n generalizing s with
  | zero => exact id
  | succ n ih =>
    intro h; unfold State.rounds_; (try dsimp only)
    repeat' first
      | with_reducible assumption | with_reducible apply ih | with_reducible apply State.settleRound_keeps
      | (rename_i e; have e := congrArg Prod.snd e; dsimp only at e; subst e)
      | (rename_i e; have e := congrArg (fun q => q.2.2) e; dsimp only at e; subst e)
      | with_reducible apply Keeps.foldl | with_reducible apply Keeps.foldlPair
      | with_reducible apply Keeps.foldlPair2 | intro _ | split

theorem State.settle_keeps : ∀ z s, Keeps z s → Keeps z (State.settle s) := by
  intros; unfold State.settle
  repeat' first | (with_reducible first | assumption | apply State.rounds__keeps) | split

theorem State.arrive_keeps : ∀ z s a1 a2 a3 a4, Keeps z s → Keeps z (State.arrive s a1 a2 a3 a4) := by
  intros; unfold State.arrive; (try dsimp only)
  repeat' first | (with_reducible first | assumption | apply State.addCtx_keeps | apply State.start_keeps) | split

theorem State.sideTake_keeps : ∀ z s, Keeps z s → Keeps z (State.sideTake s) := by
  intros; unfold State.sideTake; (try dsimp only)
  repeat' first | (with_reducible first | assumption | apply State.setHost_keeps)

theorem State.submit_keeps : ∀ z s a1 a2, Keeps z s → Keeps z (State.submit s a1 a2) := by
  intros; unfold State.submit; (try dsimp only)
  repeat' first
    | (with_reducible first
        | assumption | apply State.settle_keeps | apply State.arrive_keeps | apply State.setHost_keeps
        | apply State.sideTake_keeps)
    | split

end Sys2Proof.Machine
end

