-- ==== Sys2Proof/Laws/KeepsEvents.lean ====
section
/-! SUPPORT. What the module does leaves the queue of commands alone and the memory in its form: what the outside
does to the module. -/

namespace Sys2Proof.Machine

theorem State.inPort_keeps (z s : State) (p st : Nat) (f : State → State) (hs : Keeps z s) (h : ∀ s, Keeps z s →
    Keeps z (f s)) :
    Keeps z (State.inPort s p st f) := by
  unfold State.inPort; split
  · exact h _ hs
  · exact hs

theorem State.lightSeen_keeps : ∀ z s a1, Keeps z s → Keeps z (State.lightSeen s a1) := by
  intros; unfold State.lightSeen
  repeat' first
    | (with_reducible first
        | assumption | apply State.inPort_keeps | apply State.portState_keeps)
    | intro _ | split

theorem State.lockReached_keeps : ∀ z s a1, Keeps z s → Keeps z (State.lockReached s a1) := by
  intros; unfold State.lockReached
  repeat' first
    | (with_reducible first
        | assumption | apply State.inPort_keeps | apply State.sendCaps_keeps | apply State.portState_keeps)
    | intro _ | split

theorem State.exchangeOver_keeps : ∀ z s a1, Keeps z s → Keeps z (State.exchangeOver s a1) := by
  intros; unfold State.exchangeOver
  repeat' first
    | (with_reducible first
        | assumption | apply State.inPort_keeps | apply State.failAttempt_keeps)
    | intro _ | split

theorem State.stepUnanswered_keeps : ∀ z s a1, Keeps z s → Keeps z (State.stepUnanswered s a1) := by
  intros; unfold State.stepUnanswered
  repeat' first | (with_reducible first | assumption | apply State.toDetect_keeps) | split

theorem State.laneReturns_keeps : ∀ z s a1, Keeps z s → Keeps z (State.laneReturns s a1) := by
  intros; unfold State.laneReturns; (try dsimp only)
  repeat' first | (with_reducible first | assumption | apply State.startStep_keeps) | split

theorem State.creditUpdate_keeps : ∀ z s a1 a2, Keeps z s → Keeps z (State.creditUpdate s a1 a2) := by
  intros; unfold State.creditUpdate
  repeat' first | (with_reducible first | assumption | apply State.inPort_keeps | apply State.setPort_keeps) | intro _

theorem State.latchOpened_keeps : ∀ z s a1, Keeps z s → Keeps z (State.latchOpened s a1) := by
  intros; unfold State.latchOpened; (try dsimp only)
  repeat' first | (with_reducible first | assumption | apply State.setLsm_keeps | apply State.lsmDark_keeps) | split

theorem State.laneTestOver_keeps : ∀ z s a1, Keeps z s → Keeps z (State.laneTestOver s a1) := by
  intros; unfold State.laneTestOver; (try dsimp only)
  repeat' first
    | (with_reducible first
        | assumption | apply State.endLaneTest_keeps | apply State.writeRef_keeps | apply State.complete_keeps
        | apply Keeps.foldl)
    | intro _ | split | (rename_i e; have e := congrArg Prod.snd e; dsimp only at e; subst e)

theorem State.boundaryOne_keeps : ∀ z s a1, Keeps z s → Keeps z (State.boundaryOne s a1) := by
  intros; unfold State.boundaryOne
  repeat' first | (with_reducible first | assumption | apply State.setCtx_keeps | apply State.perform_keeps) | split

theorem State.boundaryCommands_keeps : ∀ z s, Keeps z s → Keeps z (State.boundaryCommands s) := by
  intros; unfold State.boundaryCommands
  repeat' first | (with_reducible first | assumption | apply State.boundaryOne_keeps | apply Keeps.foldl)

theorem State.ageCommands_keeps : ∀ z s, Keeps z s → Keeps z (State.ageCommands s) := by
  intros; unfold State.ageCommands
  repeat' first | (with_reducible first | assumption | apply State.setHost_keeps)

theorem State.logRate_keeps : ∀ z s, Keeps z s → Keeps z (State.logRate s) := by
  intros; unfold State.logRate; (try dsimp only)
  repeat' first | (with_reducible first | assumption | apply State.setMgt_keeps)

theorem State.creditBlocks_keeps : ∀ z s, Keeps z s → Keeps z (State.creditBlocks s) := by
  intros; unfold State.creditBlocks
  repeat' first | (with_reducible first | assumption | apply State.emit_keeps | apply Keeps.foldl) | intro _ | split

theorem State.topoTick_keeps : ∀ z s, Keeps z s → Keeps z (State.topoTick s) := by
  intros; unfold State.topoTick
  repeat' first | (with_reducible first | assumption | apply State.setTopo_keeps)

theorem State.boundarySends_keeps : ∀ z s a1, Keeps z s → Keeps z (State.boundarySends s a1) := by
  intros; unfold State.boundarySends
  repeat' first
    | (with_reducible first
        | assumption | apply State.announceChange_keeps | apply State.tsosTick_keeps | apply State.noticeTick_keeps
        | apply State.summaryCheck_keeps | apply State.helloTick_keeps | apply State.creditBlocks_keeps
        | apply State.topoTick_keeps)
   

theorem State.dataTick_keeps : ∀ z s a1, Keeps z s → Keeps z (State.dataTick s a1) := by
  intros; unfold State.dataTick; (try dsimp only)
  repeat' first
    | (with_reducible first
        | assumption | apply State.switchTick_keeps | apply State.scheduleTick_keeps | apply State.demandTick_keeps
        | apply State.powerTick_keeps | apply State.engineTick_keeps | apply State.applyBubbles_keeps
        | apply State.ageFlows_keeps | apply State.stzTick_keeps | apply State.stashTick_keeps
        | apply State.collTick_keeps)

theorem State.boundary_keeps : ∀ z s a1, Keeps z s → Keeps z (State.boundary s a1) := by
  intros; unfold State.boundary; (try dsimp only)
  repeat' first
    | (with_reducible first
        | assumption | apply State.retargetAll_keeps | apply State.thermalTick_keeps | apply State.tickAdvance_keeps
        | apply State.linkTick_keeps | apply State.injectTick_keeps | apply State.disableTick_keeps
        | apply State.boundaryCommands_keeps | apply State.ageCommands_keeps | apply State.logRate_keeps
        | apply State.boundarySends_keeps | apply State.dataTick_keeps | apply Keeps.foldl | apply Keeps.foldlPair
        | apply Keeps.foldlPair2)
    | intro _ | split

theorem State.tickReached_keeps : ∀ z s, Keeps z s → Keeps z (State.tickReached s) := by
  intros; unfold State.tickReached
  repeat' first | (with_reducible first | assumption | apply State.ready_keeps | apply Keeps.foldl) | intro _ | split

theorem State.tsosHeard_keeps : ∀ z s a1 a2 a3 a4 a5 a6 a7, Keeps z s → Keeps z (State.tsosHeard s a1 a2 a3 a4 a5 a6
    a7) := by
  intros; unfold State.tsosHeard
  repeat' first | (with_reducible first | assumption | apply State.tsos_keeps) | split

theorem State.unsync_keeps : ∀ z s a1, Keeps z s → Keeps z (State.unsync s a1) := by
  intros; unfold State.unsync
  repeat' first
    | (with_reducible first
        | assumption | apply State.announceChange_keeps | apply State.tickEnter_keeps | apply State.setTick_keeps)

theorem State.accessBad_keeps : ∀ z s a1, Keeps z s → Keeps z (State.accessBad s a1) := by
  intros; unfold State.accessBad
  repeat' first | (with_reducible first | assumption | apply State.emit_keeps | apply State.bump_keeps)

theorem State.writeRing_keeps : ∀ z s a1 a2 a3, Keeps z s → Keeps z (State.writeRing s a1 a2 a3) := by
  intros; unfold State.writeRing
  repeat' first | (with_reducible first | assumption | apply State.setMbox_keeps)

theorem State.fetchOne_keeps : ∀ z s a1 a2 a3, Keeps z s → Keeps z (State.fetchOne s a1 a2 a3) := by
  intros; unfold State.fetchOne; (try dsimp only)
  repeat' first | (with_reducible first | assumption | apply State.arrive_keeps)

theorem State.fetch_keeps : ∀ z s a1 a2 a3, Keeps z s → Keeps z (State.fetch s a1 a2 a3) := by
  intros; unfold State.fetch; (try dsimp only)
  repeat' first
    | (with_reducible first
        | assumption | apply State.setMbox_keeps | apply State.fetchOne_keeps | apply Keeps.foldl)
    | intro _

theorem State.doorbellBad_keeps : ∀ z s a1 a2, Keeps z s → Keeps z (State.doorbellBad s a1 a2) := by
  intros; unfold State.doorbellBad
  repeat' first | (with_reducible first | assumption | apply State.event_keeps | apply State.bump_keeps)

theorem State.ring_keeps : ∀ z s a1 a2 a3, Keeps z s → Keeps z (State.ring s a1 a2 a3) := by
  intros; unfold State.ring
  repeat' first
    | (with_reducible first
        | assumption | apply State.settle_keeps | apply State.fetch_keeps | apply State.doorbellBad_keeps)
    | split

theorem State.doorbell_keeps : ∀ z s a1 a2 a3 a4 a5, Keeps z s → Keeps z (State.doorbell s a1 a2 a3 a4 a5) := by
  intros; unfold State.doorbell
  repeat' first | (with_reducible first | assumption | apply State.ring_keeps | apply State.accessBad_keeps) | split

theorem State.mailboxSend_keeps : ∀ z s a1 a2 a3 a4, Keeps z s → Keeps z (State.mailboxSend s a1 a2 a3 a4) := by
  intros; unfold State.mailboxSend; (try dsimp only)
  repeat' first
    | (with_reducible first
        | assumption | apply State.accessBad_keeps | apply State.emit_keeps | apply State.ring_keeps
        | apply State.writeRing_keeps | apply Keeps.foldl)
    | intro _ | split

theorem State.rdmaAccess_keeps : ∀ z s a1 a2 a3 a4 a5, Keeps z s → Keeps z (State.rdmaAccess s a1 a2 a3 a4 a5) := by
  intros; unfold State.rdmaAccess; (try dsimp only)
  repeat' first
    | (with_reducible first
        | assumption | apply State.accessBad_keeps | apply State.writeRing_keeps | apply State.emit_keeps
        | apply State.doorbell_keeps)
    | split

theorem State.aged_keeps : ∀ z s a1 a2, Keeps z s → Keeps z (State.aged s a1 a2) := by
  intros; unfold State.aged; (try dsimp only)
  repeat' first | (with_reducible first | assumption | apply State.setHost_keeps)

theorem State.sideWrite_keeps : ∀ z s a1, Keeps z s → Keeps z (State.sideWrite s a1) := by
  intros; unfold State.sideWrite; (try dsimp only)
  repeat' first
    | (with_reducible first
        | assumption | apply State.setHost_keeps | apply State.settle_keeps | apply State.arrive_keeps
        | apply State.sideTake_keeps)
    | split

theorem State.sideStatus_keeps : ∀ z s, Keeps z s → Keeps z (State.sideStatus s) := by
  intros; unfold State.sideStatus; (try dsimp only)
  repeat' first | (with_reducible first | assumption | apply State.setHost_keeps | apply State.emit_keeps) | split

theorem State.assignAddress_keeps : ∀ z s a1, Keeps z s → Keeps z (State.assignAddress s a1) := by
  intros; unfold State.assignAddress; (try dsimp only)
  repeat' first | (with_reducible first | assumption | apply State.setHost_keeps) | split

theorem State.setQp_keeps : ∀ z s a1 a2, Keeps z s → Keeps z (State.setQp s a1 a2) := by
  intros; unfold State.setQp
  repeat' first | (with_reducible first | assumption | apply State.setHost_keeps) | split

theorem State.hostFrame_keeps : ∀ z s a1 a2, Keeps z s → Keeps z (State.hostFrame s a1 a2) := by
  intros; unfold State.hostFrame
  repeat' first
    | (with_reducible first
        | assumption | apply State.emit_keeps | apply State.setQp_keeps | apply State.bump_keeps)
    | split

theorem State.ackTimeout_keeps : ∀ z s a1, Keeps z s → Keeps z (State.ackTimeout s a1) := by
  intros; unfold State.ackTimeout
  repeat' first | (with_reducible first | assumption | apply State.emit_keeps | apply State.setQp_keeps) | split

theorem State.hostLink_keeps : ∀ z s a1 a2, Keeps z s → Keeps z (State.hostLink s a1 a2) := by
  intros; unfold State.hostLink
  repeat' first | (with_reducible first | assumption | apply State.setHost_keeps) | split

theorem State.mgmtFrame_keeps : ∀ z s a1, Keeps z s → Keeps z (State.mgmtFrame s a1) := by
  intros; unfold State.mgmtFrame; (try dsimp only)
  repeat' first
    | (with_reducible first
        | assumption | apply State.commitFrame_keeps | apply State.ackAgain_keeps | apply State.refuseFrame_keeps
        | apply State.receive_keeps | apply State.arrive_keeps | apply Keeps.foldl | apply Keeps.foldlPair
        | apply Keeps.foldlPair2)
    | intro _ | split

theorem State.data_keeps (z s : State) (f : State → State) (hs : Keeps z s) (h : ∀ s, Keeps z s → Keeps z (f s)) :
    Keeps z (State.data s f) := by
  unfold State.data; split
  · exact hs
  · exact State.settle_keeps _ _ (h _ hs)

theorem State.deliverTo_keeps : ∀ z s a1 a2, Keeps z s → (∀ t, Keeps z t → Keeps z (a2 t)) → Keeps z
    (State.deliverTo s a1 a2) := by
  intros; unfold State.deliverTo
  repeat' first
    | (with_reducible first
        | assumption | apply State.receive_keeps | apply State.data_keeps | apply Keeps.foldl
        | apply Keeps.foldlPair | apply Keeps.foldlPair2)
    | intro _

theorem State.linkLocal_keeps : ∀ z s a1 a2 a3, Keeps z s → (∀ t, Keeps z t → Keeps z (a3 t)) → Keeps z
    (State.linkLocal s a1 a2 a3) := by
  intro z s p kind f k hf
  unfold State.linkLocal
  exact State.data_keeps _ _ _ k fun _ k => State.inPort_keeps _ _ _ _ _ k fun _ k =>
    hf _ (State.takeLocal_keeps _ _ _ _ _ k)

theorem State.noReply_keeps : ∀ z s a1, Keeps z s → Keeps z (State.noReply s a1) := by
  intros; unfold State.noReply; (try dsimp only)
  repeat' first
    | (with_reducible first
        | assumption | apply State.summaryCheck_keeps | apply State.holdPort_keeps)
    | split

theorem State.linkState_keeps : ∀ z s a1 a2, Keeps z s → Keeps z (State.linkState s a1 a2) := by
  intros; unfold State.linkState; (try dsimp only)
  repeat' first
    | (with_reducible first
        | assumption | apply State.noticeHear_keeps | apply State.reinstallGroups_keeps)
    | split

theorem State.groupFrame_keeps : ∀ z s a1, Keeps z s → Keeps z (State.groupFrame s a1) := by
  intros; unfold State.groupFrame; (try dsimp only)
  repeat' first
    | (with_reducible first
        | assumption | apply State.groupTransit_keeps | apply State.transitAck_keeps | apply State.ackAgain_keeps
        | apply State.groupMember_keeps | apply State.refuseFrame_keeps | apply State.commitFrame_keeps
        | apply Keeps.foldl)
    | intro _ | split | (rename_i e; have e := congrArg Prod.snd e; dsimp only at e; subst e)

theorem State.lastUnit_keeps : ∀ z s a1 a2 a3 a4, Keeps z s → Keeps z (State.lastUnit s a1 a2 a3 a4) := by
  intros; unfold State.lastUnit; (try dsimp only)
  repeat' first
    | (with_reducible first
        | assumption | apply State.setRxFrame_keeps | apply State.dropRx_keeps | apply State.frameEnd_keeps
        | apply State.groupTransit_keeps | apply Keeps.foldl | apply Keeps.foldlPair | apply Keeps.foldlPair2)
    | intro _ | split

theorem State.memberIdle_keeps : ∀ z s a1, Keeps z s → Keeps z (State.memberIdle s a1) := by
  intros; unfold State.memberIdle
  repeat' first
    | (with_reducible first
        | assumption | apply State.idleTimeout_keeps | apply State.stzIdle_keeps)
    | split

theorem State.inputReady_keeps : ∀ z s a1 a2, Keeps z s → Keeps z (State.inputReady s a1 a2) := by
  intros; unfold State.inputReady
  repeat' first
    | (with_reducible first
        | assumption | apply State.issueStep_keeps | apply State.goOn_keeps | apply Keeps.foldl
        | apply Keeps.foldlPair | apply Keeps.foldlPair2)
    | intro _ | split

theorem State.jobIn_keeps : ∀ z s a1, Keeps z s → Keeps z (State.jobIn s a1) := by
  intros; unfold State.jobIn; (try dsimp only)
  repeat' first
    | (with_reducible first
        | assumption | apply State.ackAgain_keeps | apply State.refuseFrame_keeps | apply State.writeBuf_keeps
        | apply State.setProg_keeps | apply State.inputReady_keeps | apply State.commitFrame_keeps)
    | split

theorem State.powerPeriod_keeps : ∀ z s a1, Keeps z s → Keeps z (State.powerPeriod s a1) := by
  intros; unfold State.powerPeriod
  repeat' first
    | (with_reducible first
        | assumption | apply State.powerTick_keeps | apply State.applyBubbles_keeps)
    | split

theorem State.tapLoad_keeps : ∀ z s a1, Keeps z s → Keeps z (State.tapLoad s a1) := by
  intros; unfold State.tapLoad
  repeat' first | (with_reducible first | assumption | apply State.setBoot_keeps) | split

theorem State.slotSpoiled_keeps : ∀ z s a1, Keeps z s → Keeps z (State.slotSpoiled s a1) := by
  intros; unfold State.slotSpoiled; (try dsimp only)
  repeat' first | (with_reducible first | assumption | apply State.setHost_keeps | apply State.setMbox_keeps) | split

end Sys2Proof.Machine
end

