-- ==== Sys2Proof/WellFormed.lean ====
section
/-! DEFINITION. Which terms of `Instr` the hardware can be given: fields no wider than the spec makes them, and units that
some module has. What the machine answers to the rest is its own business: a command is refused, an event of a unit that is
not there is a fault. -/

namespace Sys2Proof

/-- A value of `n` bytes. -/
def inBytes (n v : Nat) : Bool := decide (v < 256 ^ n)

/-- The widest port numbers: 512 ports of two lanes (Table 3.3). -/
def portFits (p : Nat) : Bool := decide (p < Config.lanes / 2)
def laneFits (n : Nat) : Bool := decide (n < Config.lanes)
def tileFits (k : Nat) : Bool := decide (k < 8)
def lsmFits (j : Nat) : Bool := decide (j < 16)
def channelFits (c : Nat) : Bool := decide (c < 128)

/-- An operation put to the pool arbiters (R157, R159). -/
def PoolOp.wellFormed (o : PoolOp) : Bool :=
  inBytes 2 o.unit && decide (o.requester ≤ 1023) && decide (1 ≤ o.op) && decide (o.op ≤ 5) && inBytes 8 o.addr &&
  tileFits o.tile

/-- An engine's number: tile × 256 + index (R9). -/
def engineFits (e : Nat) : Bool := decide (e / 256 < 8) && decide (e % 256 < Config.enginesPerTile)

/-- A path: 64 mailboxes; an MGMT frame's fields as wide as its header's (R302, Table 4.3). -/
def Path.wf : Path → Bool
  | .mailbox m => decide (m < 64)
  | .sideband => true
  | .fabric job node ep cls opId => decide (job < 4096) && inBytes 2 node && inBytes 2 ep && decide (cls < 8) && inBytes 4 opId

/-- Table 13.3: a count of four bytes, an effective tick of eight. -/
def CmdHdr.wf (h : CmdHdr) : Bool := h.path.wf && inBytes 4 h.number && inBytes 8 h.effTick

/-- Table 13.8. -/
def Ref.wf (r : Ref) : Bool := inBytes 8 r.addr && inBytes 4 r.key && inBytes 4 r.len

/-- Table 4.3. -/
def Hdr.wf (h : Hdr) : Bool :=
  decide (h.version < 16) && inBytes 1 h.opcode && decide (h.cls < 8) && decide (h.vc < 8) && decide (h.colour < 4) &&
  decide (h.ttl < 64) && decide (h.phase < 2) && inBytes 2 h.dstNode && inBytes 2 h.dstEp && inBytes 2 h.srcNode &&
  inBytes 2 h.srcEp && inBytes 2 h.via && decide (h.job < 4096) && inBytes 1 h.units && inBytes 2 h.srcRank &&
  inBytes 4 h.seq && inBytes 4 h.opId && inBytes 4 h.position && decide (h.rsv < 4096)

/-- Table 4.4. -/
def Ext.wf (e : Ext) : Bool :=
  inBytes 2 e.member && inBytes 2 e.contributors && inBytes 1 e.format && inBytes 1 e.flags && inBytes 2 e.flushed

/-- A frame: a payload of whole units of 64 B, as many as its header says (R88). -/
def Frame.wf (f : Frame) : Bool := f.hdr.wf && (f.extn.map Ext.wf).getD true && f.payload.length == 64 * f.hdr.units

/-- A delivery. -/
def Delivery.wf (d : Delivery) : Bool := d.frame.wf && (d.port.map portFits).getD true

/-- Table 5.5a. -/
def Disc.wf (d : Disc) : Bool :=
  inBytes 1 d.kind && inBytes 1 d.portState && inBytes 1 d.event && inBytes 1 d.portReason && d.coord.all (inBytes 1) &&
  inBytes 2 d.node && inBytes 2 d.port && inBytes 2 d.trunk && inBytes 4 d.planId && inBytes 4 d.epoch &&
  d.coord.length == 3 && inBytes 2 d.originNode && inBytes 2 d.originTrunk && inBytes 4 d.lsSeq && inBytes 4 d.digest

/-- Table 2.4. -/
def Announce.wf (a : Announce) : Bool :=
  inBytes 2 a.rootNode && inBytes 1 a.rootPriority && inBytes 1 a.depth && inBytes 2 a.sender && inBytes 1 a.state &&
  inBytes 1 a.period && inBytes 4 a.rootSeq && inBytes 8 a.rootSince

/-- Table 3.5. -/
def CapSet.wf (c : CapSet) : Bool :=
  inBytes 1 c.version && inBytes 1 c.kind && inBytes 1 c.period && inBytes 2 c.id && inBytes 2 c.port && inBytes 1 c.nominal &&
  inBytes 1 c.lane && inBytes 1 c.usable && inBytes 1 c.widthAck && inBytes 1 c.tickState && inBytes 1 c.vcs &&
  inBytes 2 c.maxPayload && inBytes 4 c.planId

/-- A term that the hardware can be given. -/
def Instr.wf : Instr → Bool
  | .setupCarve h a b c d => h.wf && inBytes 1 a && inBytes 1 b && inBytes 1 c && inBytes 1 d
  | .resetModule h | .resetDataPlane h | .tickRejoin h | .mboxNop h | .tickEnableWrite h | .tickCountRead h
  | .mgtSensorClearPeaks h => h.wf
  | .moduleResetShutdown | .retirementWindowEnd | .parentLost | .announceTimer | .joinTimeout | .rootSeqStale
  | .holdLimitExpired | .pendingLimitExpired | .digestTimer | .fltInjectTimeout | .effectiveTickReached | .sidebandStatusRead
  | .assignmentPoint | .pieceRetry | .estimateDisagreeLimit | .estimateRetrust | .poweringTimeout | .auxLoss | .resetNLow
  | .resetNHigh | .bootTimeout | .safeStateDpReset | .safeStateModuleReset | .injectionRound | .mgtWatchdogExpired
  | .headlessTimeout | .aux3v3InRange | .refclkPresent => true
  | .resetTile h k => h.wf && inBytes 1 k
  | .tileResetComplete k failed => tileFits k && failed.all fun i => decide (i < Config.enginesPerTile)
  | .resetPort h p | .linkEnable h p | .linkDisable h p => h.wf && inBytes 2 p
  | .linkHedge h sc p j n e | .linkLift h sc p j n e =>
    h.wf && inBytes 1 sc && inBytes 2 p && inBytes 2 j && inBytes 2 n && inBytes 2 e
  | .laneRetire h n | .laneRestore h n => h.wf && inBytes 2 n
  | .laneTest h n after ticks r => h.wf && inBytes 2 n && inBytes 1 after && inBytes 4 ticks && r.wf
  | .laneTestEnd n | .losAssert n | .losClear n | .lolAssert n | .lolClear n | .detectLightQualified n
  | .laneRestoreHoldElapsed n | .laneAutoRetire n => laneFits n
  | .laneLsmRelease h j => h.wf && inBytes 1 j
  | .lsmReleaseDrained j | .spareLaserSwitched j | .lsmLatchOpen j | .lsmLasersLit j => lsmFits j
  | .lsmLatchClose j _ i => lsmFits j && i.grid.length == 4 && i.setPoints.length == 5 && i.limits.length == 5
  | .topoLoad h r => h.wf && r.wf
  | .topoReadmit h n => h.wf && inBytes 2 n
  | .routeReseed h x => h.wf && inBytes 4 x
  | .schedReserve h p r => h.wf && inBytes 2 p && inBytes 1 r
  | .poolSetup h a b c m n base => h.wf && inBytes 1 a && inBytes 1 b && inBytes 1 c && inBytes 1 m && inBytes 2 n && inBytes 8 base
  | .poolQuota h r k mn mx => h.wf && inBytes 2 r && inBytes 1 k && inBytes 4 mn && inBytes 4 mx
  | .poolBind h r j => h.wf && inBytes 2 r && inBytes 2 j
  | .poolAlloc h r t sp n => h.wf && inBytes 2 r && inBytes 1 t && inBytes 1 sp && inBytes 4 n
  | .poolFree h r a => h.wf && inBytes 2 r && inBytes 8 a
  | .poolGive h r q a => h.wf && inBytes 2 r && inBytes 2 q && inBytes 8 a
  | .poolRef h n a => h.wf && decide (-2147483648 ≤ n) && decide (n < 2147483648) && inBytes 8 a
  | .poolStatus h k r out => h.wf && inBytes 1 k && inBytes 2 r && out.wf
  | .settRequest u r a ops => (PoolOp.mk a u r).wellFormed && a.op == 1 && ops.all PoolOp.wellFormed
  | .settRelease u r a ops => (⟨a, u, r⟩ :: ops : List PoolOp).all fun o => o.wellFormed && o.op != 1
  | .engLoad h j r => h.wf && inBytes 2 j && r.wf
  | .engUnload h o | .engRun h o | .engAbort h o | .collAbort h o => h.wf && inBytes 4 o
  | .engKernel h k r t => h.wf && inBytes 2 k && r.wf && t.wf
  | .engRetire h e | .engRestore h e | .engTest h e => h.wf && inBytes 2 e
  | .collOpen h j g n r => h.wf && inBytes 2 j && inBytes 2 g && inBytes 4 n && r.wf
  | .collClose h n => h.wf && inBytes 4 n
  | .collStatus h n r => h.wf && inBytes 4 n && r.wf
  | .collBarrier h j g n m r => h.wf && inBytes 2 j && inBytes 2 g && inBytes 4 n && inBytes 2 m && r.wf
  | .paramDeclare h r | .paramOptimizer h r | .jobAdmit h r => h.wf && r.wf
  | .paramInit h b j k z r => h.wf && inBytes 4 b && inBytes 2 j && inBytes 1 k && inBytes 1 z && r.wf
  | .paramRead h b j k r => h.wf && inBytes 4 b && inBytes 2 j && inBytes 1 k && r.wf
  | .paramProgram h b j k o => h.wf && inBytes 4 b && inBytes 2 j && inBytes 1 k && inBytes 4 o
  | .paramPublish h b j | .paramClose h b j | .paramUpdate h b j | .paramDiscard h b j | .paramEvict h b j
  | .paramRetire h b j => h.wf && inBytes 4 b && inBytes 2 j
  | .paramHyper h b j _ => h.wf && inBytes 4 b && inBytes 2 j
  | .paramSpoil h b j r | .paramStatus h b j r => h.wf && inBytes 4 b && inBytes 2 j && r.wf
  | .stashReserve h j l n r m => h.wf && inBytes 2 j && inBytes 1 l && inBytes 4 n && inBytes 8 r && inBytes 8 m
  | .stashRelease h j | .jobEnd h j => h.wf && inBytes 2 j
  | .stashReleaseDrainTimeout j | .jobEndComplete j => decide (j < 4096)
  | .stashPurge h j r t m => h.wf && inBytes 2 j && inBytes 2 r && inBytes 8 t && inBytes 8 m
  | .stashStatus h j r | .jobStatus h j r => h.wf && inBytes 2 j && r.wf
  | .stashEntry h j r t out => h.wf && inBytes 2 j && inBytes 2 r && inBytes 8 t && out.wf
  | .pwrPhase h p m => h.wf && inBytes 1 p && inBytes 1 m
  | .pwrCap h w => h.wf && inBytes 2 w
  | .fltSeverity h c l => h.wf && inBytes 2 c && inBytes 1 l
  | .fltInject h c => h.wf && inBytes 2 c
  | .fltClear h m | .fltStatusClear h m | .memarbShareWrite h m | .engSrSeedWrite h m => h.wf && inBytes 8 m
  | .mgtImageWrite h k off r d => h.wf && inBytes 1 k && inBytes 4 off && r.wf && decide (d.length ≤ 24)
  | .mgtImageActivate h k => h.wf && inBytes 1 k
  | .mgtAttest h n r => h.wf && n.length == 32 && r.wf
  | .mgtLogRead h a n r => h.wf && inBytes 4 a && inBytes 4 n && r.wf
  | .mboxBind h m p e q d r => h.wf && inBytes 1 m && inBytes 1 p && inBytes 1 e && inBytes 4 q && inBytes 4 d && r.wf
  | .mboxUnbind h m | .mboxStatus h m => h.wf && inBytes 1 m
  | .mboxCancel h m n => h.wf && inBytes 1 m && inBytes 4 n
  | .hostPortConfig h p f c v a b => h.wf && inBytes 1 p && inBytes 1 f && inBytes 1 c && inBytes 2 v && inBytes 4 a && inBytes 16 b
  | .hostQpOpen h p d m q n mac g =>
    h.wf && inBytes 1 p && inBytes 1 d && inBytes 1 m && inBytes 4 q && inBytes 4 n && inBytes 8 mac && inBytes 16 g
  | .hostQpClose h q => h.wf && inBytes 4 q
  | .funcDisable h f j n => h.wf && inBytes 1 f && inBytes 2 j && inBytes 4 n
  | .funcDisableDrained f j | .drainTimeout f j => decide (f ≤ 5) && inBytes 2 j
  | .funcEnable h f j | .funcStatus h f j => h.wf && inBytes 1 f && inBytes 2 j
  | .regRead h a n r => h.wf && inBytes 8 a && inBytes 4 n && r.wf
  | .regWrite h a v => h.wf && inBytes 8 a && inBytes 8 v
  | .tickPeriodWrite h p => h.wf && decide (p < 4)
  | .poolLowWaterRead h k => h.wf && decide (k ≤ 4)
  | .fltMcRetire h c | .fltMcTest h c | .fltMcRestore h c => h.wf && channelFits c
  | .mcMarchDone c _ | .ncuKernelStepComplete c _ | .channelMigrationDone c _ => channelFits c
  | .doorbell m q k d _ => decide (m < 64) && inBytes 4 q && inBytes 4 k && inBytes 8 d
  | .mailboxSend m q sl _ => decide (m < 64) && inBytes 4 q && sl.all fun x => x.length == 64
  | .hostRdmaAccess q k a w n => inBytes 4 q && inBytes 4 k && inBytes 8 a && (w.all fun b => b.length == n)
  | .commandAged m n => decide (m < 64) && inBytes 4 n
  | .sidebandSlotWrite sl => sl.length == 64
  | .hostFrameReceived p _ | .hostPortLinkChange p _ => decide (p < 4)
  | .cnpReceived q | .rateRecoveryTimer q | .qpRetryExhausted q | .localAckTimeout q => inBytes 3 q
  | .trainComplete p | .trainTimeout p | .lockAchieved p | .lockTimeout p | .exchangeTimeout p | .widthStepSwitch p
  | .widthMarker p | .widthAckTimeout p | .helloNoReplyTimeout p => portFits p
  | .capabilitySet p x => portFits p && laneFits x.lane && x.caps.wf
  | .widthRequest p u => portFits p && inBytes 1 u
  | .widthAck p u w => portFits p && inBytes 1 u && inBytes 1 w
  | .creditUpdate p g => portFits p && g.length == 8 && g.all (inBytes 3)
  | .laserSample rs => rs.all fun r => lsmFits r.lsm && decide (r.laser < 5)
  | .tickBoundary i => i.fec.all fun f => laneFits f.lane
  | .tsosReceived p _ _ _ _ _ _ _ => portFits p
  | .tickAnnounce p a => portFits p && a.wf
  | .hello p d | .helloReply p d | .linkState p d | .digest p d => portFits p && d.wf
  | .groupSetup d | .ack d | .fence d | .barrierArrive d | .redContrib d | .redPartial d | .collData d | .collAbortFrame d
  | .weightFetch d | .versionRelease d | .stashPut d | .stashGet d | .stashDrop d | .engJobIn d | .mgmt d
  | .stozilOp d => d.wf
  | .frameHeaderReceived p b h e => portFits p && inBytes 1 b && h.wf && (e.map Ext.wf).getD true
  | .frameEndReceived p pay _ _ => portFits p && pay.length % 64 == 0
  | .frameTransmitted p t c => portFits p && tileFits t && decide (c < 8)
  | .retransmitTimeout a b j _ q => inBytes 2 a.1 && inBytes 2 a.2 && inBytes 2 b.1 && inBytes 2 b.2 && decide (j < 4096) && inBytes 4 q
  | .barrierMemberTimeout n | .memberIdleTimeout n => decide (n < Config.contexts)
  | .benchSeal n g _ => decide (n < Config.contexts) && decide (g < 4096)
  | .putTimeout j h t => decide (j < 4096) && inBytes 2 h && inBytes 8 t
  | .tickJobComplete e _ => engineFits e
  | .engineTestStart t | .slewComplete t | .freqSwitch t | .demandRaiseRelease t | .thermalPointStep t => tileFits t
  | .engineTestComplete e _ => engineFits e
  | .nextStepOpen b j | .holdWaitEnd b j | .holdTimeout b j | .updateStart b j => inBytes 4 b && decide (j < 4096)
  | .pieceCommit b j u => inBytes 4 b && decide (j < 4096) && inBytes 4 u
  | .droopAssert d | .droopClear d => decide (d < 16)
  | .thermalSample xs => xs.all fun x => decide (x.1 < 84)
  | .thermalTrip x => decide (x < 68)
  | .coolantOutOfRange _ f | .coolantHoldRelease _ f => inBytes 2 f
  | .vinQualified _ f xs => inBytes 2 f && xs.all fun x => decide (x.1 < 84)
  | .railStepGood k | .downOrderStep k => decide (1 ≤ k) && decide (k ≤ 11)
  | .sequencingFault r | .railFault r => decide (r < 43)
  | .inputExcursion v => decide (-0x8000 ≤ v) && decide (v < 0x8000)
  | .inputUndervoltage v => inBytes 2 v
  | .bootImageChecked k => inBytes 1 k
  | .memoryPhaseDone cs _ es => (cs.all channelFits) && es.all engineFits
  | .faultRaised r => decide (r.cls < 28) && inBytes 2 r.master
  | .dualRailStuck m | .injectionNotSeen m => inBytes 2 m
  | .sensorSample xs => xs.all fun x => decide (x.1 < 338)
  | .powerControlInternalPeriod x => x.tiles.length ≤ 8
  | .dynamicAddressAssignment a _ => decide (a < 128)
  | .tapInstruction c => decide (c < 4)

end Sys2Proof
end

