-- ==== Sys2Proof/Tests/Slice0.lean ====
section
/-! SUPPORT. Tests: terms that the hardware cannot be given, single steps whose result the spec states, and for every
statement with hypotheses a state and operands that meet them. -/

namespace Sys2Proof.Tests

set_option Elab.async false

open Sys2Proof Sys2Proof.Machine

/-! ## Ill-formed terms: each is refused by the check it breaks -/

/-- A command header of mailbox 0. -/
def hd : CmdHdr := {}

/-- Headers, references, frames and records with one field too wide. -/
theorem test_ill_formed_parts :
    Path.wf (.mailbox 64) = false ∧ Path.wf (.fabric 4096 0 0 0 0) = false ∧ Path.wf (.fabric 0 0x10000 0 0 0) = false ∧
    Path.wf (.fabric 0 0 0 8 0) = false ∧ CmdHdr.wf { number := 2 ^ 32 } = false ∧ CmdHdr.wf { effTick := 2 ^ 64 } = false ∧
    Ref.wf { addr := 2 ^ 64 } = false ∧ Ref.wf { key := 2 ^ 32 } = false ∧ Ref.wf { len := 2 ^ 32 } = false ∧
    Hdr.wf { version := 16 } = false ∧ Hdr.wf { cls := 8 } = false ∧ Hdr.wf { vc := 8 } = false ∧
    Hdr.wf { ttl := 64 } = false ∧ Hdr.wf { dstNode := 0x10000 } = false ∧ Hdr.wf { job := 4096 } = false ∧
    Hdr.wf { units := 256 } = false ∧ Hdr.wf { rsv := 4096 } = false ∧ Ext.wf { format := 256 } = false ∧
    Ext.wf { member := 0x10000 } = false ∧ CapSet.wf { period := 256 } = false ∧ CapSet.wf { maxPayload := 0x10000 } = false ∧ Hdr.wf { seq := 2 ^ 32 } = false ∧ Hdr.wf { position := 2 ^ 32 } = false ∧
    Frame.wf { payload := zeros 63 } = false ∧ Delivery.wf { frame := { payload := zeros 64 }, port := some 512 } = false ∧
    Disc.wf { node := 0x10000 } = false ∧ Disc.wf { coord := [0, 0] } = false ∧ Disc.wf { digest := 2 ^ 32 } = false ∧
    Announce.wf { state := 256 } = false ∧ Announce.wf { period := 256 } = false ∧ Announce.wf { depth := 256 } = false := by
  decide

/-- Commands of hosts. -/
theorem test_ill_formed_commands : ∀ c ∈ [
    Instr.setupCarve hd 256 0 0 0, .resetTile hd 256, .resetPort hd 0x10000, .linkHedge hd 256 0 0 0 0,
    .linkLift hd 0 0 0 0 0x10000, .laneRetire hd 0x10000, .laneTest hd 0 256 0 {}, .laneLsmRelease hd 256,
    .topoLoad hd { key := 2 ^ 32 }, .topoReadmit hd 0x10000, .routeReseed hd (2 ^ 32), .schedReserve hd 0 256,
    .poolSetup hd 0 0 0 0 0x10000 0, .poolQuota hd 0 256 0 0, .poolBind hd 0x10000 0, .poolAlloc hd 0 256 0 0,
    .poolFree hd 0 (2 ^ 64), .poolGive hd 0 0x10000 0, .poolRef hd (-2147483649) 0, .poolRef hd 2147483648 0,
    .poolStatus hd 256 0 {}, .engLoad hd 0x10000 {}, .engUnload hd (2 ^ 32), .engKernel hd 0x10000 {} {},
    .engTest hd 0x10000, .collOpen hd 0x10000 0 0 {}, .collClose hd (2 ^ 32), .collStatus hd (2 ^ 32) {},
    .collBarrier hd 0x10000 0 0 0 {}, .jobAdmit hd { len := 2 ^ 32 }, .paramInit hd 0 0 256 0 {},
    .paramRead hd (2 ^ 32) 0 0 {}, .paramProgram hd 0 0 256 0, .paramClose hd (2 ^ 32) 0, .paramHyper hd 0 0x10000 0,
    .paramSpoil hd 0 0x10000 {}, .stashReserve hd 0 256 0 0 0, .stashRelease hd 0x10000, .stashPurge hd 0 0 (2 ^ 64) 0,
    .stashStatus hd 0x10000 {}, .stashEntry hd 0 0x10000 0 {}, .pwrPhase hd 256 0, .pwrCap hd 0x10000,
    .fltSeverity hd 0 256, .fltInject hd 0x10000, .fltClear hd (2 ^ 64), .mgtImageWrite hd 0 0 {} (zeros 25),
    .mgtImageActivate hd 256, .mgtAttest hd (zeros 31) {}, .mgtLogRead hd (2 ^ 32) 0 {},
    .mboxBind hd 256 0 0 0 0 {}, .mboxStatus hd 256, .mboxCancel hd 0 (2 ^ 32), .hostPortConfig hd 0 0 0 0x10000 0 0,
    .hostQpOpen hd 0 0 0 (2 ^ 32) 0 0 0, .hostQpClose hd (2 ^ 32), .funcDisable hd 256 0 0, .funcStatus hd 0 0x10000,
    .regRead hd (2 ^ 64) 0 {}, .regWrite hd 0 (2 ^ 64), .tickPeriodWrite hd 4, .poolLowWaterRead hd 5,
    .fltMcRetire hd 128, .mboxNop { path := .mailbox 64 }], c.wf = false := by
  decide

/-- What a sound laser source module tells as its latch closes. -/
def sound : LsmIdent := { setPoints := List.replicate 5 33000, limits := List.replicate 5 2000 }

/-- Events of the mailboxes, the ports, the fabric and the units. -/
theorem test_ill_formed_events : ∀ c ∈ [
    Instr.tileResetComplete 8 [], .tileResetComplete 0 [136], .losAssert 1024, .laneTestEnd 1024, .lsmLatchOpen 16,
    .lsmLatchClose 16 true sound, .lsmLatchClose 0 true { sound with grid := [] }, .lsmLatchClose 0 true { sound with limits := [] },
    .lsmReleaseDrained 16, .settRequest 0 1024 { op := 1 } [], .settRequest 0 0 { op := 1, tile := 8 } [],
    .settRequest 0 0 { op := 1 } [⟨{ op := 6 }, 0, 0⟩], .settRequest 0 0 { op := 2 } [],
    .settRelease 0 0 { op := 2, addr := 2 ^ 64 } [], .settRelease 0 0 { op := 2 } [⟨{ op := 1 }, 0, 0⟩], .stashReleaseDrainTimeout 4096, .jobEndComplete 4096, .funcDisableDrained 6 0,
    .mcMarchDone 128 false, .channelMigrationDone 128 [], .doorbell 64 0 0 0 [], .mailboxSend 0 0 [zeros 63] [],
    .hostRdmaAccess 0 0 0 (some [0]) 2, .commandAged 64 0, .sidebandSlotWrite (zeros 63),
    .hostFrameReceived 4 .other, .hostPortLinkChange 4 true, .cnpReceived (2 ^ 24), .trainComplete 512,
    .capabilitySet 0 ⟨0, true, { version := 256 }⟩, .capabilitySet 0 ⟨1024, true, {}⟩, .widthRequest 0 256, .widthAck 0 0 256, .creditUpdate 0 [0],
    .creditUpdate 0 (List.replicate 8 (2 ^ 24)),
    .laserSample [⟨0, 5, 0, 0⟩],
    .tickBoundary { fec := [{ lane := 1024 }] }, .tsosReceived 512 true 0 0 0 0 0 0, .tickAnnounce 512 {},
    .hello 512 {}, .groupSetup {}, .stozilOp {}, .frameHeaderReceived 0 256 {} none, .frameEndReceived 0 (zeros 63) 0 none,
    .frameTransmitted 0 8 0, .frameTransmitted 0 0 8, .retransmitTimeout (0x10000, 0) (0, 0) 0 false 0,
    .retransmitTimeout (0, 0) (0, 0) 4096 false 0, .memberIdleTimeout 1048576, .benchSeal 0 4096 0,
    .putTimeout 4096 0 0, .tickJobComplete 136 .good, .tickJobComplete 2048 .good, .engineTestStart 8,
    .engineTestComplete 136 true, .nextStepOpen (2 ^ 32) 0, .holdTimeout 0 4096, .pieceCommit 0 0 (2 ^ 32),
    .droopAssert 16, .thermalSample [(84, 0)], .thermalTrip 68, .coolantOutOfRange 0 0x10000, .vinQualified 0 0 [(84, 0)],
    .railStepGood 0, .railStepGood 12, .downOrderStep 12, .sequencingFault 43, .inputExcursion 0x8000,
    .inputUndervoltage 0x10000,
    .bootImageChecked 256, .memoryPhaseDone [128] false [], .memoryPhaseDone [] false [2048],
    .faultRaised { cls := 28 }, .dualRailStuck 0x10000, .sensorSample [(338, none)],
    .powerControlInternalPeriod { tiles := List.replicate 9 0 }, .dynamicAddressAssignment 128 true, .tapInstruction 4],
    c.wf = false := by
  decide

/-- Terms at the edge of each field that the hardware can be given. -/
theorem test_well_formed : ∀ c ∈ [
    Instr.losAssert 1023, .laneRetire { path := .mailbox 63, number := 2 ^ 32 - 1, effTick := 2 ^ 64 - 1 } 0xFFFF,
    .poolRef hd (-2147483648) 0, .settRequest 0xFFFF 1023 { op := 1, tile := 7, spill := true } [],
    .inputExcursion (-0x8000), .lsmLatchClose 15 false sound, .frameTransmitted 511 7 7, .tickJobComplete (7 * 256 + 135) .good,
    .thermalTrip 67, .railStepGood 1, .downOrderStep 11, .sequencingFault 42, .tapInstruction 3, .widthAck 0 255 8,
    .mgtImageWrite hd 1 0 {} (zeros 24), .fltMcRestore hd 127, .pieceCommit (2 ^ 32 - 1) 4095 (2 ^ 32 - 1)], c.wf = true := by
  decide

/-! ## States that meet the hypotheses of the statements -/

/-- A module with its power up, in a phase. -/
def inPhase (p : Nat) : State :=
  { boot := { phase := p, aux := true, resetN := true, refclk := true, vin := true, upStep := 11, powerGood := true,
              hostPowered := true } }

/-- A carved module. -/
def carved : State := { inPhase Phase.carved with boot := { (inPhase Phase.carved).boot with carving := some ⟨3, 3, 2, true⟩ } }

/-- The module in the safe state, at a level. -/
def safeAt (l : Nat) : State := { inPhase Phase.service with flt := { safe := some 5, safeLevel := l } }

/-- A plan of two nodes, this one 0: port 0 leads to node 1 by trunk 0, the others are unused. -/
def plan2 : Plan :=
  { planId := 7, shape := 0, dims := 1, wrap := 0, maxHops := 1, extent := [2, 1, 1], this := 0, portMode := 0, seed := 0,
    pendingLimit := 32, nodes := [⟨0, [0, 0, 0], 0⟩, ⟨1, [1, 0, 0], 1⟩],
    ports := [{ role := 2, trunk := 0, c7 := 8, peer := 1, peerPort := 0 }], record := [] }

/-- A module with the plan loaded. -/
def planned : State := { carved with boot := { carved.boot with phase := Phase.planned }, topo := { plan := some plan2 } }

/-- The planned module with its tick running and nothing else done. -/
def running : State := { planned with boot := { planned.boot with phase := Phase.service }, tick := { state := 4, counter := 9 } }

/-- The running module with one job, 5, whose ranks 0 and 1 are on the two nodes. -/
def withJob : State :=
  { running with host := { jobs := [(5, { table := [(0, 0x40), (1, 0x40)], ctxBase := 16, ctxCount := 16, record := zeros 512 })] } }

/-- The running module whose port 0 is ACTIVE at full width and in service. -/
def linked : State :=
  { running with link := { ports := [(0, { state := 5, width := 8, rxGranted := List.replicate 8 100,
                                           txGranted := List.replicate 8 100 })] },
                 topo := { plan := some plan2, ports := [(0, { state := 2 })] } }

/-- A state with a port in a state of Table 3.4. -/
def portIn (st : Nat) : State := { carved with link := { ports := [(0, { state := st })] } }

/-- A frame of node 1 for an endpoint of this module. -/
def frameOf (op : Nat) (payload : List Byte) : Frame :=
  { hdr := { opcode := op, dstNode := 0, dstEp := 0xFFF0, srcNode := 1, srcEp := 0x40, job := 5, units := payload.length / 64 },
    payload := payload }

theorem test_CommandsAreChecked_meets :
    carved.answering = true ∧ carved.host.ctxs = [] ∧ cmdOf (.linkEnable hd 0) = some (0x0901, hd) ∧
    carved.pathFree hd.path = true ∧
    -- the first check: the safe state, a phase, and neither
    ((safeAt 3).isSafe && !safeCmd 0x0901) = true ∧ (inPhase Phase.standby).phaseOk (.linkEnable hd 0) 0x0901 hd.path = false ∧
    (carved.isSafe && !safeCmd 0x0E08) = false ∧ carved.phaseOk (.poolStatus hd 0 0xFFFF {}) 0x0E08 hd.path = true ∧
    -- the path, the arguments and the use of an effective tick
    carved.pathOk (.poolStatus { path := .sideband } 0 0xFFFF { key := 1 }) 0x0E08 .sideband = false ∧
    carved.pathOk (.poolStatus hd 0 0xFFFF {}) 0x0E08 hd.path = true ∧
    carved.argsOk (.laneRetire hd 1024) = false ∧ carved.argsOk (.laneRetire hd 1023) = true ∧
    tickUse 0x0901 = 0 ∧ tickUse 0x0B02 = 2 ∧ tickUse 0x0302 ≠ 2 ∧
    -- the job
    carved.argsOk (.jobEnd hd 5) = true ∧ jobNamed (.jobEnd hd 5) = some 5 ∧ carved.host.jobs.get? 5 = none := by
  decide

/-- A command with an effective tick, and one that waits for the boundary, pass the checks. -/
theorem test_CommandsAreChecked_held :
    withJob.checks (withJob.ctxFor (.pwrCap { effTick := 20 } 1500) { effTick := 20 }) = none ∧
    ((withJob.withCommand (.pwrCap { effTick := 20 } 1500) { effTick := 20 }).runCmd (.pwrCap { effTick := 20 } 1500)
      { effTick := 20 }).1 = .done 0 ∧
    ((withJob.withCommand (.jobEnd { effTick := 20 } 5) { effTick := 20 }).runCmd (.jobEnd { effTick := 20 } 5)
      { effTick := 20 }).1 = .wait (.job 5) ∧
    withJob.checks (withJob.ctxFor (.engRun { effTick := 20 } 18) { effTick := 20 }) = none ∧
    ((withJob.withCommand (.engRun { effTick := 20 } 18) { effTick := 20 }).runCmd (.engRun { effTick := 20 } 18)
      { effTick := 20 }).1 = .done Status.contextStale ∧
    withJob.ticking = true ∧ withJob.atBoundary (.pwrCap hd 1500) = true ∧
    withJob.checks (withJob.ctxFor (.pwrCap hd 1500) hd) = none := by
  and_intros <;> rfl

theorem test_SafeStateStopsTheDataPlane_meets :
    (safeAt 3).isSafe = true ∧ dataPlane .assignmentPoint = true ∧ (safeAt 3).hasUnits .assignmentPoint = true := by
  decide

theorem test_Memory_meets :
    Memory.wf [(3, 1), (5, 2)] ∧ Memory.wf ([] : List Host.Cell) ∧ (∀ a, Memory.read [] a = Memory.read ([] : List Host.Cell) a) ∧
    Memory.wf State.reset.mem ∧ Sys2Proof.Machine.step State.reset = .next State.reset ∧
    Memory.read (Memory.writes [] 4 [7, 8]) 5 = 8 ∧ Memory.read (Memory.writes [] 4 [7, 8]) 6 = 0 := by
  and_intros <;> first | rfl | exact fun _ => rfl | decide

theorem test_QueueIsServedInOrder_meets :
    ({ pending := [.resetNHigh, .auxLoss] } : State).pending = .resetNHigh :: [.auxLoss] ∧
    Sys2Proof.Machine.step { pending := [.resetNHigh, .auxLoss] } =
      .next { pending := [.auxLoss], boot := { resetN := true } } := ⟨rfl, rfl⟩

/-- A module in STANDBY, and one in POWERING after `k` steps. -/
def standing : State := { boot := { phase := Phase.standby, aux := true, resetN := true, refclk := true } }
def powering (k : Nat) : State := { standing with boot := { standing.boot with phase := Phase.powering, vin := true, upStep := k } }
def goingDown (k : Nat) : State := { powering 3 with boot := { (powering 3).boot with phase := Phase.failed, downStep := some k } }

theorem test_PowerUpIsChecked_meets :
    standing.boot.phase = Phase.standby ∧ standing.boot.aux = true ∧ standing.boot.refclk = true ∧
    standing.boot.downStep = none ∧ (240 : Int) ≤ 720 ∧ 2000 ≤ 2000 ∧ ¬(240 : Int) ≤ 239 ∧
    (powering 0).boot.phase = Phase.powering ∧ (powering 0).boot.downStep = none ∧ 42 < 43 ∧
    (goingDown 11).boot.downStep = some 11 ∧ (goingDown 1).boot.downStep = some 1 := by
  decide

/-- The running module with mailbox 1 bound to queue pair 0x100, whose keys are draws 3 and 4. -/
def bound : State :=
  { withJob with host := { withJob.host with
      qps := [(0x100, { port := 0 })], ports := [(0, { up := true })],
      mboxes := [(1, { qp := some 0x100, ringKey := 3, doorKey := 4, p := 2 ^ 32 - 1, everBound := true })] } }

/-- A bound mailbox's accesses: the key as it was drawn, room for the number after the last, none after 256, a slot whose
count differs and one whose count is the number. -/
theorem test_MailboxDoorbells_meets :
    bound.answering = true ∧ bound.fromBound 1 0x100 = true ∧ bound.fromBound 1 0x101 = false ∧
    bound.roomFor 1 (((bound.mbox 1).p + 1) % 2 ^ 32) = true ∧ bound.roomFor 1 255 = true ∧ bound.roomFor 1 256 = false ∧
    bound.host.ctxs = [] ∧ (bound.mbox 1).p < 2 ^ 32 ∧
    getLE (bound.ringSlot 1 7) 4 4 ≠ 7 ∧ (bound.ringSlot 1 0).length = 64 ∧ 0x3FFF < 0x4000 := by
  decide +kernel

theorem test_MailboxDoorbells_keys :
    keyOk (bound.mbox 1).doorKey (Config.freeWord 4).toNat = true ∧ keyOk (bound.mbox 1).ringKey (Config.freeWord 3).toNat = true ∧
    keyOk (bound.mbox 1).doorKey ((Config.freeWord 4).toNat + 1) = false := by
  refine ⟨?_, ?_, ?_⟩ <;> simp [keyOk, bound, State.mbox, NMap.getD, NMap.get?]

theorem test_MiscountedSlotsFail_meets :
    (0xFFFFFFFE : Nat) < 2 ^ 32 ∧
    let s : State := { bound with host := { bound.host with
      mboxes := [(1, { qp := some 0x100, ringKey := 3, doorKey := 4, p := 6, everBound := true })] } }
    s.answering = true ∧ s.host.ctxs = [] ∧ s.fromBound 1 0x100 = true ∧ (s.mbox 1).p < 2 ^ 32 ∧
    s.roomFor 1 (((s.mbox 1).p + 1) % 2 ^ 32) = true ∧
    getLE (s.ringSlot 1 (((s.mbox 1).p + 1) % 2 ^ 32)) 4 4 ≠ ((s.mbox 1).p + 1) % 2 ^ 32 := by
  decide +kernel

theorem test_NaNsAreCanonical_meets :
    decodeElem 3 (convert 3 0 0 .nan).1 = .nan ∧ decodeElem 4 (convert 4 0 0 .nan).1 = .nan ∧
    decodeElem 0 (encodeElem 0 0 0 0 .nan).1 = .nan ∧ decodeElem 1 (encodeElem 1 0 0 0 .nan).1 = .nan ∧
    f32IsNan 0xFF800001 = true ∧ f32IsNan (f32Add 0x7F800000 0xFF800000).1 = true ∧
    f32IsNan (f32Sub 0x7F800000 0x7F800000).1 = true ∧ f32IsNan (f32Mul 0 0x7F800000).1 = true ∧
    f32IsNan (f32Fma 0 0x7F800000 0x3F800000).1 = true := by
  decide +kernel

/-- The input qualified and the coolant in range; the ten steps before the last, and the last; BOOT with no trial; MEMORY
with and without a kept phase, up to four failed channels. -/
theorem test_PhasesOnTheWayUp_meets :
    let q : State := { standing with boot := { standing.boot with vin := true, coolOk := true, refclk := false } }
    let m : State := inPhase Phase.memory
    q.boot.phase = Phase.standby ∧ q.boot.vin = true ∧ q.boot.coolOk = true ∧ q.boot.downStep = none ∧
    (powering 9).boot.phase = Phase.powering ∧ 10 = (powering 9).boot.upStep + 1 ∧ (powering 10).boot.upStep = 10 ∧
    (inPhase Phase.boot).boot.phase = Phase.boot ∧ (inPhase Phase.boot).mgt.trial = none ∧
    m.boot.phase = Phase.memory ∧ m.boot.kept = none ∧ [0, 1, 2, 127].length ≤ bits (m.reg .mgtBringupCfg) 4 0 ∧
    (∀ c ∈ [0, 1, 2, 127], c < 128) ∧ (∀ e ∈ [0, 7 * 256 + 135], engineIn e = true) ∧
    ({ m with boot := { m.boot with kept := some Phase.carved } } : State).boot.kept = some Phase.carved := by
  decide +kernel

theorem test_InputAndRailFaults_meets :
    Phase.powering ≤ (powering 0).boot.phase ∧ (powering 0).boot.phase ≠ Phase.failed ∧
    standing.boot.phase < Phase.powering ∧ standing.boot.reversed = false ∧ (-1 : Int) < 0 ∧ 42 < 43 ∧ Phase.memory ≤ carved.boot.phase ∧ carved.boot.phase ≠ Phase.failed ∧
    engineRail 15 = some 0 ∧ engineRail 22 = some 7 ∧ engineRail 14 = none ∧ engineRail 23 = none := by
  decide

/-- The carved module with tile 7 in a state of its operating point, and droop responses active. -/
def tileAt (x : TilePwr) (droops : List Nat := []) : State := { carved with pwr := { tiles := [(7, x)], droops := droops } }

theorem test_DroopAndOperatingPoints_meets :
    15 ∉ (tileAt {}).pwr.droops ∧ 15 ∈ (tileAt {} [15]).pwr.droops ∧
    carved.pwr.trusted = true ∧
    carved.cfg .pwrEstCfg 0 7 8 < ({ carved with pwr := { disagree := 256 } } : State).pwr.disagree ∧
    carved.cfg .pwrEstCfg 0 17 11 ≤ ({ carved with pwr := { trusted := false, agree := 2047 } } : State).pwr.agree ∧
    -- a slew down, one at the point, a switch, a deferred switch, a quiet demand, a sample
    ((tileAt { changing := true, target := 3 }).tilePwr 7).target < ((tileAt { changing := true, target := 3 }).tilePwr 7).op ∧
    ((tileAt { changing := true }).tilePwr 7).target = ((tileAt { changing := true }).tilePwr 7).op ∧ 7 ∉ (tileAt {}).pwr.droops ∧
    ((tileAt { changing := true, ready := true, target := 3 }).tilePwr 7).ready = true ∧
    ((tileAt { changing := true, ready := true, target := 3 }).tilePwr 7).target ≠ 5 ∧ 7 ∈ (tileAt {} [7]).pwr.droops ∧
    ((tileAt { raised := some 2, quiet := 16 }).tilePwr 7).raised.isSome = true ∧
    16 ≤ ((tileAt { raised := some 2, quiet := 16 }).tilePwr 7).quiet ∧
    carved.ticking = false ∧ Phase.memory ≤ carved.boot.phase ∧ ({} : PowerSample).late = false := by
  decide +kernel

theorem test_HeatIsHeld_meets :
    (∀ x ∈ [((0 : Nat), (1600 : Int)), (67, 800)], x.1 < 68) ∧ ([((0 : Nat), (1600 : Int)), (67, 800)].map Prod.fst).Nodup ∧
    ((tileAt { hot := true, hotAge := 256, thermal := 6 }).tilePwr 7).hot = true ∧
    256 ≤ ((tileAt { hot := true, hotAge := 256, thermal := 6 }).tilePwr 7).hotAge ∧
    ((tileAt { hot := true, hotAge := 256, thermal := 6 }).tilePwr 7).thermal < 7 ∧
    ((tileAt { cool := true, coolAge := 1024, thermal := 1 }).tilePwr 7).hot = false ∧
    1024 ≤ ((tileAt { cool := true, coolAge := 1024, thermal := 1 }).tilePwr 7).coolAge ∧
    0 < ((tileAt { cool := true, coolAge := 1024, thermal := 1 }).tilePwr 7).thermal ∧
    2 ≤ ({ carved with pwr := { trips := [(67, 2)] } } : State).pwr.trips.getD 67 0 ∧
    carved.pwr.coolantLow = false ∧ (45 : Int) * 16 < 721 ∧ 1999 < 2000 ∧
    ({ carved with pwr := { coolantLow := true } } : State).pwr.coolantLow = true := by
  decide +kernel

theorem test_FaultReactionAndResets_meets :
    (27 < 28) ∧ bit (4 : Nat) 2 = true ∧ carved.isSafe = false ∧
    (∃ c < 28, 3 ≤ carved.repLevel { cls := c }) ∧ (∃ c < 28, carved.repLevel { cls := c } < 3) ∧
    (safeAt 4).isSafe = true ∧ (safeAt 4).flt.headless = false ∧ (safeAt 4).flt.safeLevel = 4 ∧
    (safeAt 4).boot.kept = none ∧ (safeAt 5).flt.safeLevel = 5 := by
  decide +kernel

theorem test_FaultRowsAndChannels_meets :
    Phase.standby ≤ carved.boot.phase ∧ carved.injectionFor 27 (masterId 9 15 0) = none ∧
    carved.injectionFor 0 0 = none ∧ ringBase 63 + 64 * 255 = ringBase 63 + 0x3FC0 ∧
    ({ carved with flt := { injection := some { cls := 5, master := 9, live := false, age := 64 } } } : State).flt.injection =
      some { cls := 5, master := 9, live := false, age := 64 } ∧
    carved.isSafe = false ∧ Phase.memory ≤ carved.boot.phase ∧ carved.boot.phase ≠ Phase.failed ∧ carved.flt.injection = none ∧
    carved.managed = true ∧ ({ carved with flt := { headless := true } } : State).flt.headless = true ∧
    (({ carved with flt := { channels := [(127, { marching := true, migrating := true })] } } : State).channel 127).marching = true ∧
    (({ carved with flt := { channels := [(127, { marching := true, migrating := true })] } } : State).channel 127).migrating = true ∧
    carved.flt.headless = false ∧ 337 < 338 := by
  decide +kernel

/-- A command of mailbox 1 that has waited. -/
def waiter (n : Nat) : Ctx :=
  { id := 0, cmd := .mboxNop { path := .mailbox 1, number := 9 }, hdr := { path := .mailbox 1, number := 9 }, code := 0x0104,
    waited := n }

/-- The bound module with a command of mailbox 1 that has waited, the sideband as given, and a job that may send MGMT. -/
def waitingCmd (n : Nat) (side : SidebandSt := {}) : State :=
  { bound with host := { bound.host with
      ctxs := [waiter n]
      side := side, jobs := [(5, { mgmtFabric := true, table := [(0, 0x40), (1, 0x40)] })] } }

theorem test_OtherPathsOfCommands_meets :
    (waitingCmd 256).host.ctxs[0]? = some (waiter 256) ∧ (waiter 256).state = .waiting ∧
    (waiter 256).hdr.path = .mailbox 1 ∧ (waiter 256).hdr.number = 9 ∧ 256 ≤ (waiter 256).waited ∧
    (zeros 64).length = 64 ∧ (waitingCmd 0 { busy := true }).host.side.busy = true ∧
    (waitingCmd 0).host.side.busy = false ∧ (waitingCmd 0).answering = true ∧ (waitingCmd 0).boot.phase ≠ Phase.reset ∧
    (inPhase Phase.boot).answering = false ∧ (inPhase Phase.boot).boot.phase ≠ Phase.reset ∧
    (waiter 255).waited < 256 ∧ (waitingCmd 0).boot.aux = true ∧ 127 < 128 ∧
    (waitingCmd 0).newFrame { frame := frameOf 0x41 (zeros 64) } = true ∧ (frameOf 0x41 (zeros 64)).hdr.sys = false ∧
    ((waitingCmd 0).takeInternal { frame := frameOf 0x41 (zeros 64) }).mgmtRefusal 5 = none ∧
    withJob.newFrame { frame := frameOf 0x41 (zeros 64) } = true ∧ withJob.answering = true ∧
    (withJob.takeInternal { frame := frameOf 0x41 (zeros 64) }).mgmtRefusal 5 = some Status.notPermitted := by
  decide +kernel

/-- The bound module with another state of its queue pair. -/
def withQp (x : QpSt) : State := { bound with host := { bound.host with qps := [(0x100, x)] } }

theorem test_HostPortsAndQueuePairs_meets :
    bound.host.qps.get? 0x100 = some { port := 0 } ∧ (withQp { port := 0, retries := 6 }).host.qps.get? 0x100 =
      some { port := 0, retries := 6 } ∧ 6 < 7 ∧ 7 ≤ 7 ∧ (bound.host.ports.getD 0 {}).up = true ∧
    bound.cnpDue { port := 0 } = true ∧ bound.boot.hostPowered = true := by
  decide +kernel

/-- The module with functions disabled. -/
def disabledFn (d : DisableSt) : State := { withJob with host := { withJob.host with disables := [d] } }

theorem test_WaitsEnd_meets :
    ({ carved with boot := { carved.boot with shutdownDue := true } } : State).boot.shutdownDue = true ∧
    7 ∈ ({ carved with eng := { inReset := [7] } } : State).eng.inReset ∧ (∀ i ∈ [0, 135], i < 136) ∧
    5 ∈ ({ carved with host := { ending := [5] } } : State).host.ending ∧
    ({ carved with host := { ending := [5] } } : State).jobFree 5 = true ∧
    (disabledFn { func := 2, job := 5, inEffect := true }).disableOf 2 5 = some { func := 2, job := 5, inEffect := true } ∧
    (disabledFn { func := 2, job := 5, inEffect := true }).workIn 2 (scopeOf 5) = 0 ∧
    (disabledFn { func := 2, job := 65535, inEffect := true, age := 4096 }).disableOf 2 65535 =
      some { func := 2, job := 65535, inEffect := true, age := 4096 } := by
  decide +kernel

/-- A module with one lane, 1023, and its port, 127, in given states. -/
def laneAt (l : LaneSt) (p : PortSt) : State := { running with link := { lanes := [(1023, l)], ports := [(127, p)] } }

/-- A lane that has light and lock. -/
def goodLane : LaneSt := { los := false, lol := false, inUse := true }

theorem test_LanesAndPortStages_meets :
    ((laneAt goodLane { state := 5 }).lane 1023).los = false ∧ ((laneAt goodLane { state := 5 }).lane 1023).lol = false ∧
    (laneAt goodLane { state := 5 }).portOf 1023 = 127 ∧ ((laneAt goodLane { state := 4 }).port 127).state ≠ 5 ∧
    ((laneAt goodLane { state := 5 }).port 127).state = 5 ∧
    (∀ m ∈ (laneAt goodLane { state := 5 }).lanesOf 127, m ≠ 1023 → ((laneAt goodLane { state := 5 }).lane m).los = true) ∧
    ((laneAt goodLane { state := 1 }).port 127).state = 1 ∧ ((laneAt goodLane { state := 1 }).lsm (1023 / 64)).refused = 0 ∧
    127 < running.portCount ∧
    ((laneAt goodLane { state := 2, attempts := 14 }).port 127).attempts < 15 ∧
    15 ≤ ((laneAt goodLane { state := 2, attempts := 15 }).port 127).attempts ∧
    ((laneAt goodLane { state := 2 }).port 127).state = 2 ∧
    ((laneAt goodLane { state := 3 }).port 127).state = 3 ∧ (laneAt goodLane { state := 3 }).usableLanes 127 ≠ 0 ∧
    ((laneAt goodLane { state := 4 }).port 127).refusal = 0 ∧
    (let c : CapSet := { widthAck := 1, usable := 0x80 }
     let s := laneAt { goodLane with caps := some (c, 2) } { state := 4 }
     (s.lane 1023).caps = some (c, 2) ∧ c.version = 1 ∧ c.period = s.period ∧
     c.widthAck = s.widthFor (s.usableLanes 127 &&& c.usable) ∧ c.widthAck ≠ 0) := by
  decide +kernel

theorem test_WidthStepsAndLaneTests_meets :
    (laneAt goodLane { state := 5 }).widthFor ((laneAt goodLane { state := 5 }).usableLanes 127 &&& 0xFF) ≠ 0 ∧
    ((laneAt goodLane { state := 5, step := some { own := true, usable := 0x80, age := 4 } }).port 127).step =
      some { own := true, usable := 0x80, age := 4 } ∧
    ((laneAt goodLane { state := 5, step := some { own := false, usable := 0x80, width := 1, acked := true, age := 2 } }).port
      127).step = some { own := false, usable := 0x80, width := 1, acked := true, age := 2, sent := false, followed := false } ∧
    (let s := laneAt { goodLane with inUse := false, lockTicks := 8191 } { state := 5, peer := some {} }
     (s.lane 1023).inUse = false ∧ (s.lane 1023).locked = true ∧ s.cfg .laneRetireCfg 0 35 13 ≤ (s.lane 1023).lockTicks ∧
     (s.port 127).step = none ∧ s.widthFor (s.usableLanes 127 &&& ((s.port 127).peer.map CapSet.usable).getD 0) ≠ 0) ∧
    1024 ≤ ({ running with link := { window := 1024 } } : State).link.window ∧
    (laneAt { winSym := 2 ^ 26 } {}).retireCause 1023 = some 1 ∧ (laneAt { winUncorr := 256 } {}).retireCause 1023 = some 2 ∧
    (laneAt { winFlap := 256 } {}).retireCause 1023 = some 3 ∧ (laneAt {} {}).cfg .laneRetireCfg 0 34 1 = 1 ∧
    ((laneAt { winFlap := 256 } {}).lane 1023).retired = false ∧ ((laneAt { winFlap := 256 } {}).lane 1023).inUse = false ∧
    ((laneAt { test := some { ticks := 9, left := 0, retireAfter := false, asked := true } } {}).lane 1023).test =
      some { ticks := 9, left := 0, retireAfter := false, asked := true } ∧
    ((laneAt { test := some { ticks := 9, left := 0, retireAfter := true, asked := true } } {}).lane 1023).test =
      some { ticks := 9, left := 0, retireAfter := true, asked := true } ∧ (laneAt {} {}).host.ctxs = [] := by
  decide +kernel

/-- A module whose laser source module 15 is in a given state. -/
def lsmAt (x : LsmSt) : State := { linked with link := { linked.link with lsms := [(15, x)] } }

theorem test_LaserSourceModules_meets :
    ((lsmAt { lit := true }).lsm 15).lit = true ∧ 3 ∉ ((lsmAt { lit := true }).lsm 15).failed ∧
    ((lsmAt { lit := true }).lsm 15).spare = none ∧ 4 ∉ ((lsmAt { lit := true }).lsm 15).failed ∧
    (lsmAt { lit := true, ident := some sound }).powerLow ⟨15, 3, 32845, 2000⟩ = true ∧
    (lsmAt { lit := true, ident := some sound }).powerLow ⟨15, 3, 32846, 2000⟩ = false ∧
    (lsmAt { lit := true, ident := some sound }).biasHigh ⟨15, 3, 33000, 2001⟩ = true ∧
    (lsmAt { lit := true, ident := some sound }).biasHigh ⟨15, 3, 33000, 2000⟩ = false ∧
    sound.grid = [1271, 1291, 1311, 1331] ∧ { sound with grid := [1271] }.grid ≠ [1271, 1291, 1311, 1331] ∧
    ((lsmAt { lit := true, spare := some 3 }).lsm 15).spare = some 3 ∧ ((lsmAt { lit := true, spare := some 3 }).lsm 15).switched = false ∧
    ((lsmAt { latchOpen := true }).lsm 15).latchOpen = true ∧ ((lsmAt { warming := true }).lsm 15).warming = true ∧
    (lsmAt { lit := true, draining := some 0 }).lsmDrained 15 = true ∧ (lsmAt { lit := true, draining := some 64 }).lsmDrained 15 = true := by
  decide +kernel

/-- A held command, whose effective tick is `t`, in a running module that has begun tick 9. -/
def heldAt (t : Nat) (c : Instr := .routeReseed { effTick := 20 } 1) : State :=
  { running with tick := { running.tick with issued := 9 },
                 host := { ctxs := [{ id := 0, cmd := c, hdr := { effTick := 20 }, code := 0x0C01, state := .started (.tick t) }], nextId := 1 } }

theorem test_BoundariesCount_meets :
    (∀ f ∈ [({ lane := 1023 } : FecCount)], f.lane < Config.lanes) ∧ carved.ticking = false ∧ running.ticking = true ∧
    running.host.ctxs = [] ∧ (heldAt 9).ticking = true ∧ (heldAt 9).host.ctxs.length = 1 ∧
    (heldAt 9).host.ctxs.map Ctx.state = [.started (.tick 9)] ∧ 9 ≤ (heldAt 9).tick.issued ∧ (heldAt 10).tick.issued < 10 := by
  decide +kernel

/-- The linked module in a state of the tick keeper. -/
def tickIn (x : TickSt) : State := { linked with tick := x }

theorem test_TickKeeperHearsAndTimes_meets :
    0 < linked.portCount ∧ linked.isSafe = false ∧ (linked.port 0).state = 5 ∧ linked.ticking = true ∧ linked.tick.parent ≠ some 0 ∧
    256 ≤ (tickIn { state := 7, announceAge := 256 }).tick.announceAge ∧ (tickIn { state := 2, inState := 256 }).tick.state = 2 ∧
    256 ≤ (tickIn { state := 2, inState := 256 }).tick.inState ∧
    (tickIn {}).cfg .tickHoldLimit 0 0 16 ≤ (tickIn { state := 5, inState := 65535 }).tick.inState ∧
    (let s := tickIn { state := 3, parent := some 1 }
     s.tooDeep = false ∧ s.eligible 1 = false ∧
     ({ s with tick := { s.tick with nbrs := s.tick.nbrs.filter fun kv => kv.1 != 1 } } : State).bestParent = none) ∧
    1024 ≤ (tickIn { state := 5, seqAge := 1024 }).tick.seqAge ∧
    ({ tickIn { state := 5, seqAge := 1024 } with regs := [(Reg.tickConfig.key 0, 4)] } : State).rootPriority < 255 := by
  decide +kernel

/-- The linked module whose port 0 is in a state of Table 5.5. -/
def routed (r : RouteSt) (x : TopoSt := {}) : State :=
  { linked with topo := { x with plan := some plan2, ports := [(0, r)] },
                link := { ports := [(0, { state := 5, width := 8, peer := some {} })] } }

/-- What the planned peer says of itself, and what others say. -/
def peerDisc : Disc := { node := 1, port := 0, planId := 7, epoch := 4, coord := [1, 0, 0] }

theorem test_DiscoveryAndNotices_meets :
    (routed { state := 1 }).flt.headless = false ∧ (routed { state := 1 }).role 0 = 2 ∧ ((routed { state := 1 }).route 0).state = 1 ∧
    ((routed { state := 4 }).route 0).state = 4 ∧ ((routed { state := 3, reason := 6 }).route 0).reason = 6 ∧
    (((routed { state := 1 }).port 0).peer.map CapSet.kind).getD 0 = 0 ∧
    -- the kinds of peer
    ((({ state := 5, peer := some { kind := 1 } } : PortSt).peer.map CapSet.kind).getD 0 ≠ 0) ∧
    ¬(peerDisc.node ≠ ((routed {}).portEntry 0).peer ∨
      ((routed {}).portEntry 0).peerPort ≠ 0xFFFF ∧ peerDisc.port ≠ ((routed {}).portEntry 0).peerPort) ∧
    ¬(peerDisc.planId ≠ plan2.planId ∨ peerDisc.coord ≠ plan2.coord peerDisc.node) ∧
    (routed {} { epochs := [(1, 3)] }).topo.epochs.get? 1 = some 3 ∧ (routed {} { nodes := [(1, { lost := true })] }).isLost 1 = true ∧
    -- the timers
    16 ≤ ((routed { state := 1, helloAge := 16 }).route 0).helloAge ∧
    (routed {} { pendingAge := some 32 }).topo.pendingAge = some 32 ∧ plan2.pendingLimit ≤ 32 ∧
    256 ≤ (routed {} { digestAge := 256 }).topo.digestAge ∧ ((routed { mismatch := 1 }).route 0).mismatch = 1 ∧
    -- a notice that is not newer, one that is, one that readmits
    (routed {}).me = 0 ∧ ((routed {} { nodes := [(1, { seq := some 5 })] }).ls 1).seq = some 5 ∧
    serialNewer 32 5 5 = false ∧ serialNewer 32 6 5 = true ∧
    (routed {}).readmitted { originNode := 0, originTrunk := 0, event := 2 } = some 1 := by
  decide +kernel

theorem test_Digest_meets : ∃ d : Disc, d.digest = (routed {}).lsDigest ∧ ∃ e : Disc, e.digest ≠ (routed {}).lsDigest :=
  ⟨{ digest := (routed {}).lsDigest }, rfl, { digest := (routed {}).lsDigest + 1 }, Nat.succ_ne_self _⟩

/-- A frame in reception on port 0, as it passes, as it fails its header and as it came without credit. -/
def rxOf (v : Verdict) (c : Option Nat := none) : RxFrame :=
  { hdr := (frameOf 0x10 (zeros 64)).hdr, extn := none, verdict := v, cells := [0], copies := [{ port := none }],
    covered := c != some Reg.portCreditViol.ctorIdx, counts := c.toList.map fun r => (r, 0, 1) }

def receiving (f : RxFrame) : State := { linked with sw := { rx := [(0, f)] } }

/-- The linked module whose port 0 discards units, and one whose credit is spent. -/
def discards : State := { linked with link := { ports := [(0, { state := 5, discarding := true, rxGranted := initialGrant })] } }

theorem test_FramesAreChecked_meets :
    0x58 ∈ [0x00, 0x58, 0x59, 0x5A, 0x5C, 0x5E] ∧ 0x5F ∈ [0x5B, 0x5D, 0x5F] ∧
    0x57 ∉ [0x00, 0x58, 0x59, 0x5A, 0x5B, 0x5C, 0x5D, 0x5E, 0x5F, 0x01, 0x11, 0x21, 0x31] ∧
    (linked.port 0).discarding = false ∧ (discards.port 0).discarding = true ∧ (discards.port 0).state = 5 ∧
    0x31 ∈ [0x01, 0x11, 0x21, 0x31] ∧ 0x31 ∉ [0x00, 0x58, 0x59, 0x5A, 0x5B, 0x5C, 0x5D, 0x5E, 0x5F] ∧
    creditLeft 0 0 < frameCredit (frameOf 0x10 (zeros 64)).hdr ∧ frameCredit (frameOf 0x10 (zeros 64)).hdr ≤ creditLeft 2 0 ∧
    headerOk (frameOf 0 (zeros 64)).hdr = false ∧ headerOk (frameOf Op.barrierArrive (zeros 64)).hdr = true ∧
    ((routed { state := 3 }).route 0).state ≠ 2 ∧ Op.barrierArrive ≠ Op.discovery ∧ Op.barrierArrive ≠ Op.tickAnnounce ∧
    (receiving (rxOf .taken)).sw.rx.get? 0 = some (rxOf .taken) ∧
    (receiving (rxOf .taken)).passesSetup (rxOf .taken) (zeros 64) 0 (some 0) = false ∧ (rxOf .taken).covered = true ∧
    (rxOf .taken).counts = [] ∧ (rxOf (.drop none) (some Reg.portCreditViol.ctorIdx)).covered = false ∧
    (rxOf (.drop none) (some Reg.portHdrDrop.ctorIdx)).counts = [(Reg.portHdrDrop.ctorIdx, 0, 1)] ∧
    (rxOf (.drop none) (some Reg.portHdrDrop.ctorIdx)).verdict = .drop none ∧
    hopCrc (rxOf .taken).hdr none (zeros 64) 0 ≠ 0 ∧ (zeros 64).length = (rxOf .taken).hdr.units * 64 ∧
    e2eCrc (rxOf .taken).hdr none (zeros 64) ≠ 0 ∧ (rxOf .taken).copies ≠ [] ∧
    ∀ c ∈ (rxOf .taken).copies, ∀ o, c.port = some o → (receiving (rxOf .taken)).portOpen o = true := by
  decide +kernel

/-- The linked module with a frame queued for port 0 in a class, and the plan of the tick. -/
def queued (cls granted : Nat) : State :=
  { linked with
    link := { ports := [(0, { state := 5, width := 8, txGranted := List.replicate 8 granted })] }
    sw := { voqs := [(voqKey 7 0 cls, [⟨0, { port := some 0 }⟩])]
            stored := [(0, { id := 0, tile := 7, cls := cls, cells := [0], refs := 1, frame := frameOf 0x10 (zeros 64) })]
            plan := [{ port := 0, cls := 3, tile := 7, cells := 1 }], budget := [(0, 1)] } }

/-- The scheduler's choice of the frame queued, with the peer's credit and without it. -/
def turn (s : State) (cls : Nat) : Bool := (s.serves 0 7 cls fun t c => (t == 7 && c == cls) || s.covered 0 t c).isSome

theorem test_FramesAreTransmitted_meets :
    ((queued 7 1).port 0).state = 5 ∧ (queued 7 1).sw.voqs.get? (voqKey 7 0 7) = some [⟨0, { port := some 0 }⟩] ∧
    ((queued 7 1).sw.stored.get? 0).isSome = true ∧ turn (queued 7 1) 7 = true ∧ (queued 7 1).covered 0 7 7 = false ∧
    turn (queued 7 2) 7 = true ∧ (queued 7 2).covered 0 7 7 = true ∧ turn (queued 3 2) 3 = true ∧
    (queued 3 2).covered 0 7 3 = true ∧ turn (queued 0 2) 0 = true ∧ (queued 7 2).inBudget 0 7 = true := by
  decide +kernel

/-- A GROUP_SETUP payload: install or remove group 9, with its local members. -/
def setupFrame (dst kind n : Nat) : Delivery :=
  let f := frameOf Op.groupSetup (padTo 64 (leBytes 2 kind ++ leBytes 2 9 ++ leBytes 2 1 ++ leBytes 2 n ++ leBytes 2 0x40))
  { frame := { f with hdr := { f.hdr with dstNode := dst, sys := true, job := 0 } }, port := some 0 }

theorem test_GroupsAreInstalled_meets :
    (setupFrame 0 1 1).frame.hdr.dstNode = linked.me ∧ (linked.takeInternal (setupFrame 0 1 1)).duplicate (setupFrame 0 1 1).frame.hdr = false ∧
    (let s : State := { linked with flow := { rx := [{ key := flowOf (setupFrame 0 1 1).frame.hdr, next := 1 }] } }
     (s.takeInternal (setupFrame 0 1 1)).duplicate (setupFrame 0 1 1).frame.hdr = true) ∧
    getLE (setupFrame 0 1 1).frame.payload 0 1 = 1 ∧ getLE (setupFrame 0 1 512).frame.payload 6 2 ≤ 512 ∧
    linked.topo.groups.length < 65536 ∧ 512 < getLE (setupFrame 0 1 513).frame.payload 6 2 ∧
    getLE (setupFrame 0 2 0).frame.payload 0 1 ≠ 1 ∧ (setupFrame 1 1 1).frame.hdr.dstNode ≠ linked.me ∧
    linked.groupRoom 1 9 1 = true ∧ linked.reaches (setupFrame 0 1 1) = true ∧ linked.reaches (setupFrame 1 1 1) = true := by
  decide +kernel

/-- A flow of this module to node 1, with frame 6 sent `n` times and of age `a`. -/
def openFlow (n a : Nat) : TxFlow :=
  { key := ⟨0, 0x40, 1, 0x40, 5, false, false⟩, next := 7,
    open_ := [{ seq := 6, frame := frameOf 0x10 (zeros 64), owner := .coll 16 0 0, sends := n, age := a }] }
def sending (n a : Nat) : State := { withJob with flow := { tx := [openFlow n a] } }

/-- The acknowledgement of the frames through `t`. -/
def ackOf (t : Nat) : Delivery :=
  { frame := { hdr := { opcode := Op.ack, dstNode := 0, dstEp := 0x40, srcNode := 1, srcEp := 0x40, job := 5 },
               payload := padTo 64 (leBytes 4 t) } }

theorem test_FlowsAndFences_meets :
    (sending 1 0).isSafe = false ∧ openFlow 1 0 ∈ (sending 1 0).flow.tx ∧ (openFlow 1 0).queue = [] ∧
    (sending 1 0).txFlow (openFlow 1 0).key = openFlow 1 0 ∧ (ackInfo (ackOf 6).frame.payload).multicast = false ∧
    (openFlow 1 0).key = ⟨(ackOf 6).frame.hdr.dstNode, (ackOf 6).frame.hdr.dstEp, (ackOf 6).frame.hdr.srcNode,
      (ackOf 6).frame.hdr.srcEp, (ackOf 6).frame.hdr.job, (ackOf 6).frame.hdr.sys, false⟩ ∧
    (ackInfo (ackOf 6).frame.payload).covers 6 = true ∧ (ackInfo (ackOf 5).frame.payload).covers 6 = false ∧
    (openFlow 1 0).open_.find? (fun y => y.seq == 6) =
      some { seq := 6, frame := frameOf 0x10 (zeros 64), owner := .coll 16 0 0, sends := 1, age := 0 } ∧
    63 < (sending 7 63).rto (openFlow 7 63).key ∧ (sending 7 64).rto (openFlow 7 64).key ≤ 64 ∧
    (sending 7 64).jobHedged 5 = false ∧ (sending 1 0).reaches (ackOf 6) = true ∧
    (sending 7 64).reaches { frame := frameOf Op.fence (zeros 64) } = true ∧
    (sending 7 64).destHedged 1 0x40 = false ∧ (7 < 8) ∧ (8 ≤ 8) ∧ Owner.coll 16 0 0 ≠ .none ∧
    (sending 7 64).flow.fences = [] ∧
    (((sending 1 0).takeInternal { frame := frameOf Op.fence (zeros 64) }).rxFlow
      (flowOf (frameOf Op.fence (zeros 64)).hdr)).settledBelow 0 = true ∧
    (((sending 1 0).takeInternal { frame := frameOf Op.fence (zeros 64) }).rxFlow
      (flowOf (frameOf Op.fence (zeros 64)).hdr)).settledBelow 1 = false := by
  decide +kernel

/-- A barrier of two ranks at generation 0, on which rank 0 has arrived or not. -/
def barred (arrived since : Nat) : State :=
  { withJob with coll := { barriers := [(16, { job := 5, group := 9, ranks := [0, 1], arrived := arrived, since := since })] },
                 tick := { withJob.tick with counter := 4096 } }

/-- An arrival of a member at a generation. -/
def arrivalOf (m g : Nat) : Frame :=
  let f := frameOf Op.barrierArrive (padTo 64 (leBytes 4 m ++ leBytes 4 g))
  { f with hdr := { f.hdr with opId := 16 } }

theorem test_BarriersRelease_meets :
    (barred 0 0).coll.barriers.get? (arrivalOf 1 0).hdr.opId = some { job := 5, group := 9, ranks := [0, 1] } ∧
    1 = getLE (arrivalOf 1 0).payload 0 2 ∧ (barred 0 0).newFrame ⟨arrivalOf 1 0, some 0⟩ = true ∧
    2 ≤ getLE (arrivalOf 2 0).payload 0 2 ∧ serialNewer 32 (getLE (arrivalOf 1 1).payload 4 4) 0 = true ∧
    getLE (arrivalOf 1 0).payload 4 4 = 0 ∧ bit 2 1 = true ∧ bit 1 1 = false ∧ (0 + 2 ^ 1 + 1 ≠ 2 ^ 2) ∧ (1 + 2 ^ 1 + 1 = 2 ^ 2) ∧
    (barred 1 0).isSafe = false ∧ 0 + (((barred 1 0).host.jobs.get? 5).map JobSt.memberTimeout).getD 4096 ≤ (barred 1 0).tick.counter ∧
    (barred 1 1).tick.counter < 1 + (((barred 1 1).host.jobs.get? 5).map JobSt.memberTimeout).getD 4096 := by
  decide +kernel

/-- The descriptor of an all-reduce of 64 F32 elements by ranks 0 and 1, at this root. -/
def redDesc : CollDesc := { kind := 1, fmt := 4, pfmt := 4, rfmt := 4, elements := 64, chunkLog2 := 7, window := 1, ranks := [0, 1] }

/-- Its instance of generation 0, whose slot 0 serves a chunk with a slice of some members. -/
def instOf (chunk bitmap : Nat) (held : NMap Ext := []) (sent : List Nat := []) : InstSt :=
  { gen := 0, idle := [0, 0], sentAll := sent,
    slots := [{ c := { chunk := chunk, ctx := 16, slices := [{ bitmap := bitmap }] }, held := held }] }

def opOf (d : CollDesc) (i : InstSt) : CollSt := { job := 5, desc := d, next := 0, inst := some i }

def rootOf (c : CollSt) : State := { withJob with coll := { ops := [(16, c)] } }

/-- A contribution of member 1 to a chunk; its check is right for zeros. -/
def contribOf (chunk check : Nat) : Frame :=
  let f := frameOf Op.redContrib (zeros 128)
  { f with hdr := { f.hdr with opId := 16, position := chunk * 256, ext := true },
           extn := some { member := 1, format := 4, checkSum := BitVec.ofNat 32 check } }

theorem test_ContributionsAndBenches_meets :
    (rootOf (opOf redDesc (instOf 0 0))).newFrame ⟨contribOf 0 0, some 0⟩ = true ∧
    (rootOf (opOf redDesc (instOf 0 0))).coll.ops.get? ((contribOf 0 0).hdr.opId % 1048576) =
      some (opOf redDesc (instOf 0 0)) ∧
    (opOf redDesc (instOf 0 0)).inst = some (instOf 0 0) ∧ (contribOf 0 0).hdr.opId / 1048576 = 0 ∧
    (opOf redDesc (instOf 0 0)).committed.contains 0 = false ∧ redDesc.root = (rootOf (opOf redDesc (instOf 0 0))).me ∧ redDesc.reduces = true ∧
    (redDesc.arrival (contribOf 0 0)).isSome = true ∧ redDesc.slots = 1 ∧ redDesc.chunks = 2 ∧
    (redDesc.arrival (contribOf 0 0)).map (fun a => (instOf 0 0).slots.map fun x => x.c.standing a) = some [.disjoint] ∧
    (redDesc.arrival (contribOf 0 0)).map (fun a => (instOf 0 2).slots.map fun x => x.c.standing a) = some [.duplicate] ∧
    redDesc.checksOk (contribOf 0 0) = true ∧ redDesc.checksOk (contribOf 0 1) = false ∧
    (redDesc.arrival (contribOf 0 0)).map (fun a => (absorbSlices a [{}]).map SliceSt.bitmap) = some [2] ∧ redDesc.full = 3 := by
  decide +kernel

/-- A merge bench of generation 0 for chunk 0, opened at tick `t`, on a module that is not the root. -/
def mergeAt (t : Nat) (bitmap : Nat) (shut : Bool) : MergeSt :=
  { gen := 0, c := { chunk := 0, ctx := 16, slices := [{ bitmap := bitmap }] }, opened := t, sealed_ := shut }
def mergeOp (m : MergeSt) : CollSt := { job := 5, desc := { redDesc with root := 1, mergeWindow := 4 }, next := 0, high := some 0, merges := [m] }

theorem test_MergeBenches_meets :
    (rootOf (mergeOp (mergeAt 5 2 false))).isSafe = false ∧
    ((mergeOp (mergeAt 5 2 false)).merges.find? fun m => m.gen == 0 && m.c.chunk == 0) = some (mergeAt 5 2 false) ∧
    (mergeAt 5 2 true).sealed_ = true ∧
    (rootOf (mergeOp (mergeAt 5 3 false))).maySeal (mergeOp (mergeAt 5 3 false)) (mergeAt 5 3 false) = true ∧
    (rootOf (mergeOp (mergeAt 5 2 false))).maySeal (mergeOp (mergeAt 5 2 false)) (mergeAt 5 2 false) = false ∧
    (rootOf (mergeOp (mergeAt 6 3 false))).maySeal (mergeOp (mergeAt 6 3 false)) (mergeAt 6 3 false) = false ∧
    (mergeOp (mergeAt 5 2 false)).high = some 0 ∧ (contribOf 0 0).hdr.opId = 16 ∧
    (rootOf (mergeOp (mergeAt 5 2 false))).reaches ⟨{ contribOf 0 0 with hdr := { (contribOf 0 0).hdr with dstNode := 1 } }, some 0⟩ = true ∧
    (mergeOp (mergeAt 5 2 false)).desc.root ≠ (rootOf (mergeOp (mergeAt 5 2 false))).me ∧
    ({ redDesc with root := 1 }.arrival (contribOf 0 0)).map (fun a => (mergeAt 5 2 false).c.standing a) = some .duplicate := by
  decide +kernel

/-- A gather of two shards, one chunk of two segments each, and an all-to-all. -/
def gatherDesc : CollDesc := { kind := 5, fmt := 4, elements := 4096, chunkLog2 := 13, window := 1, ranks := [0, 1] }
def dataOf (pos : Nat) (payload : List Byte) : Frame :=
  let f := frameOf Op.collData payload
  { f with hdr := { f.hdr with opId := 16, position := pos, ext := true }, extn := some { member := 1, format := 4 } }

theorem test_GatherDataAndEndings_meets :
    (rootOf (opOf gatherDesc (instOf 1 0))).newFrame ⟨dataOf 256 (zeros 4096), some 0⟩ = true ∧
    (rootOf (opOf gatherDesc (instOf 1 0))).senderMember 5 gatherDesc (dataOf 256 (zeros 4096)).hdr = some 1 ∧
    gatherDesc.shardOwner 1 = 1 ∧ 1 < gatherDesc.chunks ∧ 0 < gatherDesc.segs 1 4 ∧
    (zeros 4096).length = segBytes 4 (gatherDesc.segLen 1 4 0) ∧ gatherDesc.slots = 1 ∧
    (instOf 0 0).slots.map (fun x => x.c.chunk) = [0] ∧ 0 < 1 ∧
    ((instOf 1 0 [(0, {})]).slots.map fun x => (x.held.get? 0).isSome) = [true] ∧
    ((instOf 1 0).slots.map fun x => (x.held.get? 0).isSome) = [false] ∧ 0 + 1 ≠ gatherDesc.segs 1 4 ∧
    isMarker (dataOf 0xFFFFFF00 (zeros 64)) = true ∧
    (∃ n, n < ({ gatherDesc with kind := 7, ranks := [0, 1, 2] } : CollDesc).members ∧ n ≠ 1 ∧ n ∉ (instOf 1 0).sentAll) ∧
    (rootOf (opOf gatherDesc (instOf 1 0))).isSafe = false ∧
    (let i := { instOf 1 0 with idle := [0, 4096] }
     let s := rootOf (opOf gatherDesc i)
     (List.range i.idle.length).find? (fun m => decide (s.memberTimeout (opOf gatherDesc i) ≤ i.idle.getD m 0)) = some 1) ∧
    (let i := { instOf 1 0 with idle := [0, 4095] }
     let s := rootOf (opOf gatherDesc i)
     ∀ m, m < i.idle.length → i.idle.getD m 0 < s.memberTimeout (opOf gatherDesc i)) := by
  decide +kernel

/-- A block of job 5 with one subscriber, rank 1. -/
def blk : BlockSt :=
  { job := 5, id := 3, kind := 2, rows := 64, cols := 64, ep := 4096, size := 0x10000, base := 0x1000000, subs := [1], group := 9,
    version := 4, published := true, window := 2 }
def owning (b : BlockSt) : State := { withJob with parm := { blocks := [(17, b)] }, ctxUse := [(17, Use.block)] }

/-- A fetch of segment 0 of a version; a release of a version. -/
def fetchOf (version flags : Nat) : Frame :=
  let f := frameOf Op.weightFetch (padTo 64 (leBytes 4 3 ++ leBytes 4 version ++ leBytes 1 0 ++ leBytes 1 flags ++ leBytes 2 0 ++
    leBytes 4 0 ++ leBytes 4 1))
  f
def releaseOf (block version : Nat) : Frame :=
  frameOf Op.versionRelease (padTo 64 (leBytes 4 block ++ leBytes 4 9 ++ leBytes 4 version))

theorem test_WeightsAreServed_meets :
    (owning blk).newFrame ⟨fetchOf 4 0, some 0⟩ = true ∧ (owning blk).disabled 1 5 = false ∧
    (owning blk).fetchRefusal 5 (fetchOf 4 0).payload = none ∧ (owning blk).fetchRefusal 5 (fetchOf 3 0).payload = none ∧
    (owning blk).fetchRefusal 5 (fetchOf 5 0).payload ≠ none ∧ (owning blk).fetchRefusal 5 (fetchOf 2 0).payload ≠ none ∧
    (owning blk).blockOf 5 (getLE (fetchOf 4 0).payload 0 4) = some (17, blk) ∧ (owning blk).subOf blk (fetchOf 4 0).hdr = some 0 ∧
    bit (getLE (fetchOf 4 1).payload 9 1) 0 = true ∧ bit (getLE (fetchOf 4 0).payload 9 1) 0 = false ∧
    getLE (releaseOf 3 4).payload 0 4 ≠ 0xFFFFFFFF ∧
    ((owning blk).parm.blocks.filter fun kv => kv.2.job == 5 && kv.2.kind != 3 && kv.2.id == getLE (releaseOf 3 4).payload 0 4) =
      [(17, blk)] ∧
    (∀ kv ∈ (owning blk).parm.blocks, kv.2.id ≠ getLE (releaseOf 4 4).payload 0 4) ∧
    bit (({ blk with holds := [(4, 1)] } : BlockSt).holds.getD 4 0) 0 = true ∧ bit (blk.holds.getD 4 0) 0 = false := by
  decide +kernel

/-- A block in another state, with the drained list. -/
def inState (st : Nat) (b : BlockSt := blk) : State :=
  let s := owning { b with state := st }
  { s with parm := { s.parm with ready := [17], opts := [(5 * 2 ^ 32, { params := [], stages := [⟨1, true, 2, 0, 1, []⟩] })] },
           eng := { kernels := [(2, ⟨zeros 8, []⟩)] }, tick := { s.tick with counter := 5000 } }

theorem test_StepsAndUpdates_meets :
    (inState 5).isSafe = false ∧ (inState 5).blockOf 5 3 = some (17, { blk with state := 5 }) ∧ (inState 2).blockOf 5 3 ≠ none ∧
    ({ blk with state := 5, committedAt := some 4999 } : BlockSt).committedAt = some 4999 ∧ 4999 < (inState 5).tick.counter ∧
    (inState 5).tick.counter ≤ 5000 ∧ blk.doomed = false ∧ ({ blk with doomed := true } : BlockSt).doomed = true ∧
    ((inState 5).channel (naturalChannel (unitPosition 4))).migrating = false ∧ ({ blk with kind := 1 } : BlockSt).noTrans = false ∧ blk.kind ≠ 1 ∧
    (let p : Piece := { ctx := 16, gen := 0, chunk := 0, block := 17, unit := 4, lo := 0, n := 1, at_ := 0, sett := some (0x3000000, 0) }
     let s : State := { inState 5 with parm := { (inState 5).parm with pieces := [p] } }
     (s.parm.pieces.find? fun p => p.block == 17 && p.unit == 4 && p.sett.isSome) = some p ∧
     (∀ p ∈ s.parm.pieces, p.sett.isSome = true) ∧ (∀ p ∈ s.parm.pieces, p.block = 17 → p.unit = 5 → p.sett = none)) ∧
    (inState 3).mayUpdate 17 = true ∧ (inState 4).mayUpdate 17 = true ∧ (inState 6).mayUpdate 17 = false ∧
    blk.publishing = false ∧ (inState 3).tieMembers { blk with state := 3 } = [] ∧
    ((inState 3).optOf { blk with state := 3 }).stages[0]? = some ⟨1, true, 2, 0, 1, []⟩ ∧
    ((inState 3).eng.kernels.get? 2).isSome = true ∧
    (inState 4).tick.counter < 905 + blk.holdTimeout ∧ 904 + blk.holdTimeout ≤ (inState 4).tick.counter := by
  decide +kernel

/-- A reservation of job 5 with room for entries, and entries of rank 1. -/
def stashRes : StashRes := { reserved := 2 ^ 24, limit := 2 ^ 24, maxEntries := 4, extentLog2 := 16, opId := 0, spans := [(20, 1)] }
def stashed (es : List StashEnt) (gets : List StashGet := []) (r : StashRes := stashRes) : State :=
  { withJob with stash := { res := [(5, r)], ents := es, gets := gets } }
def stashEntOf (st committed : Nat) : StashEnt := { job := 5, holder := 1, tag := 8, state := st, bytes := 8192, committed := committed, extents := [20 * 2 ^ 24] }
def stashFrame (op tag a b seg : Nat) (data : Nat) : Frame :=
  let f := frameOf op (padTo 64 (leBytes 8 tag ++ leBytes 4 a ++ leBytes 4 b) ++ zeros data)
  { f with hdr := { f.hdr with srcRank := 1, position := seg } }

theorem test_StashFrames_meets :
    (stashed []).newFrame ⟨stashFrame Op.stashPut 8 8192 0 0 4096, some 0⟩ = true ∧
    (stashed []).stash.res.get? 5 = some stashRes ∧
    (stashed []).stashRefusal (stashFrame Op.stashPut 8 8192 0 0 4096).hdr = none ∧
    (stashed [] [] { stashRes with releasing := true }).stashRefusal (stashFrame Op.stashPut 8 8192 0 0 4096).hdr ≠ none ∧
    (stashed []).putRefusal (stashFrame Op.stashPut 8 8192 0 0 4096).hdr stashRes (stashFrame Op.stashPut 8 8192 0 0 4096).payload =
      none ∧
    (stashed []).putRefusal (stashFrame Op.stashPut 8 8192 1 1 4096).hdr stashRes (stashFrame Op.stashPut 8 8192 1 1 4096).payload ≠
      none ∧ (stashed []).disabled 2 5 = false ∧
    (stashed [stashEntOf 1 1]).stashEnt 5 1 8 = some (stashEntOf 1 1) ∧ (stashed []).stashEnt 5 1 8 = none ∧
    ((stashed []).stashRoom 5 stashRes (ceilDiv 8192 stashRes.extent)).isSome = true ∧
    (stashed [] [] { stashRes with maxEntries := 0 }).stashRoom 5 { stashRes with maxEntries := 0 } 1 = none ∧
    (stashEntOf 1 1).age < (stashed []).cfg .stashCfg 0 0 16 ∧ (stashed []).cfg .stashCfg 0 0 16 ≤ 65535 ∧
    -- gets and drops
    (stashed [stashEntOf 2 2]).getRefusal (stashFrame Op.stashGet 8 0 0 0 0).hdr (stashFrame Op.stashGet 8 0 0 0 0).payload = none ∧
    (stashed [stashEntOf 1 1]).getRefusal (stashFrame Op.stashGet 8 0 0 0 0).hdr (stashFrame Op.stashGet 8 0 0 0 0).payload ≠ none ∧
    getLE (stashFrame Op.stashDrop 8 0xFFFFFFFF 0xFFFFFFFF 0 0).payload 8 8 = 2 ^ 64 - 1 ∧
    ((stashed [stashEntOf 2 2]).stash.ents.filter fun x => x.job == 5 && x.holder == 1 && x.tag == 8) = [stashEntOf 2 2] ∧
    ((stashed [stashEntOf 2 2]).getsOn (stashEntOf 2 2)).isEmpty = true := by
  decide +kernel

/-- A Stozil operation of 16 elements with tag 3, and the carving with Stozil mode off. -/
def stzOp (low : Nat) : StzOp :=
  { job := 5, tag := 3, desc := leBytes 4 0x1000 ++ zeros 12, pair := some (2, 0), ctx := some 18, chunks := [{ chunk := 0, low := low }] }

theorem test_StozilContributions_meets :
    (withJob.stozilOn = true) ∧ ({ withJob with boot := { withJob.boot with carving := some ⟨3, 3, 2, false⟩ } } : State).stozilOn = false ∧
    (withJob.host.jobs.get? 5).map JobSt.stozil = some false ∧ getLE (zeros 64) 16 1 = 0 ∧
    (let s : State := { withJob with stz := { ops := [(0, stzOp 2)] } }
     s.stzFind 5 3 = some (0, stzOp 2) ∧ s.stz.ops.get? 0 = some (stzOp 2)) ∧ (stzOp 2).pair = some (2, 0) ∧
    (stzOp 2).inWindow 0 = true ∧ (stzOp 2).inWindow 1 = false ∧
    ((stzOp 2).desc ++ zeros 112).take 16 = (stzOp 2).desc ∧ (stzOp 2).segLen 0 0 = 16 ∧
    ((stzOp 2).desc ++ zeros 112).length = 64 + 4 * (stzOp 2).segLen 0 0 ∧
    bit ((stzOp 2).chunk 0).low 1 = true ∧ bit ((stzOp 0).chunk 0).low 1 = false := by
  decide +kernel

/-- A module whose engine 135 of tile 7 is in a state. -/
def engAt (e : EngSt) : State := { running with eng := { engines := [(7 * 136 + 135, e)] } }

/-- A program of job 5 in context 18 with a kind-4 buffer of 128 bytes. -/
def prog : ProgSt :=
  { job := 5, programId := 1, homeTile := 0, flags := 0, engclk := 17, benchCount := 0, fallback := 0, outNode := 0, outEp := 0,
    buffers := [{ address := 0x2000000, size := 128, kind := 4 }], steps := [], jobs := [] }
def programmed : State := { withJob with eng := { progs := [(18, prog)] }, ctxUse := [(18, Use.program)] }
def jobInOf (op pos : Nat) : Frame :=
  let f := frameOf Op.engJobIn (zeros 64)
  { f with hdr := { f.hdr with opId := op, position := pos } }

theorem test_EnginesAndAssignment_meets :
    engineIn (7 * 256 + 135) = true ∧ engineKey (7 * 256 + 135) = 7 * 136 + 135 ∧
    ((engAt { state := 1 }).engine (7 * 136 + 135)).running = none ∧
    ((engAt { state := 1, running := some ⟨18, 0, 0⟩, suppressed := true }).engine (7 * 136 + 135)).running = some ⟨18, 0, 0⟩ ∧
    JobEnd.good ≠ .checkFailed ∧
    (∀ k ∈ tileEngines 7, ((engAt { state := 1 }).engine k).state ≠ 2 ∧
      ¬(((engAt { state := 1 }).engine k).state = 3 ∧ ((engAt { state := 1 }).engine k).forTest = true)) ∧
    ((rotated 136 135).find? fun i => ((engAt { state := 1 }).engine (7 * 136 + i)).state ≤ 1) = some 135 ∧
    (7 * 136 + 135) ∈ tileEngines 7 ∧ ((engAt { state := 2 }).engine (7 * 136 + 135)).state = 2 ∧
    ((engAt { state := 1 }).engine (7 * 136 + 135)).state ≠ 2 ∧ running.nextForNcu 127 = none ∧
    running.eng.ncuNext.getD 127 0 ≤ running.tick.counter ∧
    running.tick.counter < ({ running with eng := { ncuNext := [(127, 10)] } } : State).eng.ncuNext.getD 127 0 ∧
    running.isSafe = false ∧ programmed.newFrame ⟨jobInOf 18 0, none⟩ = true ∧ programmed.jobInRefusal (jobInOf 18 0) = none ∧
    programmed.jobInRefusal (jobInOf 18 1) = none ∧ programmed.jobInRefusal (jobInOf 18 2) ≠ none ∧
    programmed.prog? 18 = some prog ∧ prog.run = none := by
  decide +kernel

/-! ## Commands that are taken at once -/

/-- The planned module in SERVICE with no tick running, job 5, mailbox 0 bound, and pools set up. -/
def ready : State :=
  { withJob with tick := {}, pool := { p1 := 8, p2 := 8, p3 := 16 },
                 host := { withJob.host with qps := [(0x100, { port := 0 })], mboxes := [(0, { qp := some 0x100, everBound := true })] } }

/-- The command is one of a host's, and is taken at once. -/
def taken (s : State) (c : Instr) : Bool := match cmdOf c with
  | some (_, h) => s.takesNow c h
  | none => false

theorem test_commands_are_taken : ∀ c ∈ [
    Instr.mboxNop hd, .mboxBind hd 63 3 1 0x100 0 { key := 1, len := 16384 }, .mboxUnbind hd 63, .mboxStatus hd 0, .mboxCancel hd 0 9,
    .hostPortConfig hd 3 3 7 4095 0 0, .hostQpOpen hd 3 63 2 0xFFFFFF 0xFFFFFF 0 0, .hostQpClose hd 0x100, .jobAdmit hd {},
    .jobEnd hd 5, .jobStatus hd 5 {}, .funcDisable hd 5 65535 0, .funcDisable hd 0 5 1, .funcEnable hd 0 5, .funcStatus hd 5 65535,
    .regRead hd (regAddr .tickStatus) 1 {}, .tickCountRead hd, .poolLowWaterRead hd 4, .regWrite hd (regAddr .engSrSeed) 1,
    .tickEnableWrite hd, .tickPeriodWrite hd 2, .memarbShareWrite hd 0, .engSrSeedWrite hd 7, .fltStatusClear hd 1, .fltMcRetire hd 127,
    .fltMcTest hd 127, .fltMcRestore hd 127, .mgtSensorClearPeaks hd, .setupCarve hd 2 2 4 1, .resetModule hd, .resetDataPlane hd,
    .resetTile hd 7, .resetPort hd 127, .tickRejoin hd, .linkEnable hd 127, .linkDisable hd 127, .linkHedge hd 1 0 0 1 0x40,
    .linkHedge hd 2 0 5 0 0, .linkLift hd 0 127 0 0 0, .laneRetire hd 1023, .laneRestore hd 0, .laneTest hd 1023 1 1 { len := 32 },
    .laneLsmRelease hd 15, .topoLoad hd {}, .schedReserve hd 127 255] , taken ready c = true := by
  decide +kernel

theorem test_more_commands_are_taken : ∀ c ∈ [
    Instr.poolSetup hd 8 8 16 15 0 0, .poolQuota hd 1023 4 0 2097151, .poolBind hd 1023 5, .poolAlloc hd 26 7 1 1, .poolFree hd 26 0,
    .poolGive hd 26 1023 0, .poolRef hd 1 0, .poolStatus hd 4 0xFFFF {}, .engLoad hd 5 {}, .engUnload hd 0, .engRun hd 0, .engAbort hd 0,
    .engKernel hd 0xFFFF {} {}, .engRetire hd (7 * 256 + 135), .engRestore hd 0, .engTest hd 0, .collOpen hd 5 4095 16 {},
    .collClose hd 16, .collAbort hd 16, .collStatus hd 1048575 {}, .collBarrier hd 5 9 16 512 {}, .paramDeclare hd {},
    .paramInit hd 3 5 6 1 {}, .paramRead hd 3 5 10 {}, .paramOptimizer hd {}, .paramProgram hd 3 5 3 0, .paramPublish hd 3 5,
    .paramClose hd 3 5, .paramUpdate hd 3 5, .paramDiscard hd 3 5, .paramEvict hd 3 5, .paramSpoil hd 3 5 {}, .paramHyper hd 0 5 0,
    .paramStatus hd 3 5 {}, .paramRetire hd 3 5, .stashReserve hd 5 16 1 0 0, .stashRelease hd 5, .stashPurge hd 5 0xFFFF 0 0,
    .stashStatus hd 5 {}, .stashEntry hd 5 0 0 {}, .pwrPhase hd 7 255, .pwrCap hd 1500, .pwrCap hd 2000, .fltSeverity hd 0 5,
    .fltInject hd 0, .fltClear hd 1, .mgtImageWrite hd 1 0 { len := 8 } (zeros 8), .mgtImageActivate hd 1, .mgtAttest hd (zeros 32) {},
    .mgtLogRead hd 0 65536 {}], taken ready c = true := by
  decide +kernel

/-- A mailbox that holds a command until its effective tick, and one that cancels it. -/
theorem test_MailboxCommands_meets :
    (ready.host.qps.get? 0x100).isSome = true ∧ (ready.host.qps.get? 0x101).isSome = false ∧ (ready.mbox 63).qp = none ∧
    (let x : Ctx := { id := 0, cmd := .pwrCap { path := .mailbox 1, number := 9, effTick := 20 } 1500,
                      hdr := { path := .mailbox 1, number := 9, effTick := 20 }, code := 0x1302, state := .started (.tick 20) }
     let s : State := { bound with host := { bound.host with ctxs := [x], nextId := 1 } }
     let h : CmdHdr := { path := .mailbox 1, number := 10 }
     s.answering = true ∧ s.host.ctxs = [x] ∧ s.tick.issued < 20 ∧ x.id < s.host.nextId ∧ ¬((1 : Nat) = 1 ∧ h.number = 9) ∧
     ({ s with host := { s.host with ctxs := [] } } : State).calm = true ∧ s.checks (s.ctxFor (.mboxCancel h 1 9) h) = none) := by
  decide +kernel

theorem test_HostPortCommands_meets :
    (∀ kv ∈ ready.host.qps, kv.2.port ≠ 3) ∧ (∃ kv ∈ ready.host.qps, kv.2.port = 0) ∧
    ready.host.qps.get? 0x101 = none ∧ (∀ o, 0x100 ≤ o → o < 0x101 → (ready.host.qps.get? o).isSome = true) ∧
    (∃ kv ∈ ready.host.mboxes, kv.2.qp = some 0x100) ∧
    (∀ kv ∈ ({ ready with host := { ready.host with mboxes := [] } } : State).host.mboxes, kv.2.qp ≠ some 0x100) := by
  refine ⟨by decide, by decide, by decide, fun o h1 h2 => ?_, by decide, by decide⟩
  obtain rfl : o = 0x100 := by omega
  decide

/-- Every queue pair number is taken. -/
theorem test_no_free_qp : ∃ s : State, ∀ q, 0x100 ≤ q → q < 0x1100 → (s.host.qps.get? q).isSome = true := by
  have key : ∀ (x : QpSt) (n a q : Nat), a ≤ q → q < a + n →
      (NMap.get? ((List.range n).map fun i => (a + i, x)) q).isSome = true := by
    intro x n
    induction n with
    | zero => intro a q h1 h2; omega
    | succ n ih =>
      intro a q h1 h2
      rw [List.range_succ_eq_map]
      by_cases h : a = q
      · simp [NMap.get?, h]
      · have e : ((fun i => (a + i, x)) ∘ Nat.succ) = fun i => (a + 1 + i, x) := by
          funext i
          simp only [Function.comp, Prod.mk.injEq, and_true]
          omega
        have := ih (a + 1) q (by omega) (by omega)
        rw [← e] at this
        simpa only [List.map_cons, List.map_map, NMap.get?, Nat.add_zero, if_neg h] using this
  obtain ⟨m, hm⟩ : ∃ m : NMap QpSt, ∀ q, 0x100 ≤ q → q < 0x1100 → (m.get? q).isSome = true :=
    ⟨_, fun q h1 h2 => key { port := 0 } 0x1000 0x100 q h1 (by omega)⟩
  exact ⟨{ host := { qps := m } }, hm⟩

/-- A record with its CRC-32C at an offset. -/
def sealAt (off : Nat) (b : List Byte) : List Byte := b.take off ++ leBytes 4 (crcZeroAt b off) ++ b.drop (off + 4)

/-- A header whose host holds a record, and the reference to it. -/
def hdOf (b : List Byte) : CmdHdr := { reads := [{ key := 1, addr := 0, bytes := b }] }
def refOf (b : List Byte) : Ref := { addr := 0, key := 1, len := b.length }

/-- A record of job 6 with one rank, on node 0, and 16 contexts from 64 on. -/
def jobRecord : List Byte :=
  sealAt 60 (leBytes 2 6 ++ zeros 2 ++ leBytes 4 1 ++ leBytes 4 64 ++ leBytes 4 16 ++ zeros 7 ++ [1, 1, 1] ++ zeros 38 ++
    leBytes 2 0 ++ leBytes 2 0x41 ++ zeros 60)

theorem test_JobAndFunctionCommands_meets :
    (let s : State := { ready with tick := { state := 4, counter := 9 } }
     s.takesNow (.jobAdmit (hdOf jobRecord) (refOf jobRecord)) (hdOf jobRecord) = true ∧ s.topo.plan.isSome = true ∧
     (s.withCommand (.jobAdmit (hdOf jobRecord) (refOf jobRecord)) (hdOf jobRecord)).readImage
       (.jobAdmit (hdOf jobRecord) (refOf jobRecord)) (hdOf jobRecord) (refOf jobRecord) 64 jobLength = .inr jobRecord ∧
     s.admitRefusal jobRecord = none ∧ ready.admitRefusal jobRecord ≠ none) ∧
    carved.topo.plan = none ∧ (ready.host.jobs.get? 5).isSome = true ∧ ready.disableOf 0 5 = none ∧
    (disabledFn { func := 2, job := 5 }).disableOf 2 5 = some { func := 2, job := 5 } ∧
    (disabledFn { func := 2, job := 5, done := true }).disableOf 2 5 = some { func := 2, job := 5, done := true } ∧
    (disabledFn { func := 2, job := 5 }).funcState 2 5 = 1 ∧ ready.funcState 2 5 ≠ 1 := by
  decide +kernel

/-- A register to read, one with RC fields, an address with none; writes that Table 0.4 accepts and refuses. -/
theorem test_RegisterAccesses_meets :
    regAt (regAddr .pwrCap) = some (.pwrCap, 0) ∧ (∀ f ∈ Reg.pwrCap.fieldsAt 0, f.access ≠ .rc) ∧
    (∃ f ∈ Reg.portFrameErr.fieldsAt 511, f.access = .rc) ∧ regAt (regAddr .portFrameErr 511) = some (.portFrameErr, 511) ∧
    regAt 0 = none ∧ regAt (regAddr .tickCount + 4) = none ∧ ({} : Ref).len < 8 * 4 ∧
    (Reg.writable .pwrCap 0 = true ∧ ready.writeReason .pwrCap 0 2000 = none ∧ ready.writeReason .pwrCap 0 2001 ≠ none) ∧
    Reg.writable .tickStatus 0 = false ∧ ready.writeReason .tickStatus 0 0 = none := by
  decide +kernel

theorem test_WritesWithRowsOfTheirOwn_meets :
    (let s : State := { ready with boot := { ready.boot with phase := Phase.planned } }
     taken s (.tickEnableWrite hd) = true ∧ s.boot.phase = Phase.planned ∧ s.tickEnable = false ∧ s.period ≤ 2) ∧
    ready.boot.phase ≠ Phase.planned ∧ (2 ≤ 2) ∧ ready.writeReason .mgtMemarbShare 0 0 ≠ none ∧
    ready.writeReason .mgtMemarbShare 0 (ready.reg .mgtMemarbShare 0) = none ∧
    ready.mgt.channels.contains 127 = false ∧ ({ ready with mgt := { channels := [127] } } : State).mgt.channels.contains 127 = true := by
  decide +kernel

theorem test_SetupAndResetCommands_meets :
    (let s : State := { ready with boot := { ready.boot with phase := Phase.uncarved, carving := none } }
     taken s (.setupCarve hd 2 2 4 1) = true ∧ s.carveRefusal 2 2 4 1 = none ∧ s.carveRefusal 2 2 3 1 = some (Status.descInvalid, 2) ∧
     taken s (.resetTile hd 7) = true ∧ s.boot.phase < Phase.carved) ∧
    ({ ready with boot := { ready.boot with shutdownDue := true } } : State).bigReset = true ∧ ready.bigReset = false ∧
    Phase.memory ≤ ready.boot.phase ∧ Phase.carved ≤ ready.boot.phase ∧ 7 ∉ ready.eng.inReset ∧ (ready.tilePwr 7).railOff = false ∧
    ready.portTied 127 = false ∧
    ({ ready with link := { lsms := [(15, { draining := some 3 })] } } : State).portTied 127 = true := by
  decide +kernel

theorem test_LinkAndLaneCommands_meets :
    (ready.port 127).state = 0 ∧ (linked.port 0).state ≠ 0 ∧ (linked.port 0).state ≠ 6 ∧
    ((ready.withCommand (.linkHedge hd 1 0 0 1 0x40) hd).otherDestHedges 1 0x40).length < 512 ∧
    ((laneAt { retired := true } {}).lane 1023).retired = true ∧ ((laneAt goodLane {}).lane 1023).inUse = true ∧
    ((laneAt {} {}).lane 1023).inUse = false ∧
    (laneAt {} { state := 5 }).laneTestRefusal 1023 = none ∧ (laneAt {} { state := 4 }).laneTestRefusal 1023 = some Status.opBusy ∧
    ((lsmAt { draining := some 0 }).lsm 15).draining.isSome = true ∧ (ready.lsm 15).draining = none := by
  decide +kernel

/-- 512 other destinations are hedged. -/
theorem test_LinkCommands_full : ∃ s : State, s.otherDestHedges 1 0x40 = (List.range 512).map fun i => (2, i) := by
  refine ⟨{ topo := { hedges := (List.range 512).map fun i => { scope := 1, node := 2, ep := i } } }, ?_⟩
  have h1 : ((List.range 512).map fun i => (2, i) : List (Nat × Nat)).Nodup :=
    List.nodup_range.map fun a b h => (Prod.mk.inj h).2
  have h2 : ((List.range 512).filter ((fun h : Hedge => h.scope == 1) ∘ fun i => { scope := 1, node := 2, ep := i })) =
      List.range 512 := List.filter_eq_self.2 (by simp)
  simp only [State.otherDestHedges, List.filterMap_nil, List.nil_append, List.filter_map, List.map_map, h2]
  rw [show ((fun h : Hedge => (h.node, h.ep)) ∘ fun i => { scope := 1, node := 2, ep := i }) =
    fun i => ((2 : Nat), i) from rfl, h1.dedup, List.filter_eq_self.2 (by simp)]

/-- The record of a line of two nodes, this one 0, with port 0 planned and 127 ports unused. -/
def planRecord (id : Nat) : List Byte :=
  sealAt 60 (leBytes 4 id ++ [0, 1, 0, 1] ++ leBytes 2 2 ++ leBytes 2 1 ++ leBytes 2 1 ++ leBytes 2 2 ++ leBytes 2 0 ++ [0, 0] ++
    zeros 44 ++ (leBytes 2 0 ++ [0, 0, 0, 0] ++ zeros 2) ++ (leBytes 2 1 ++ [1, 0, 0, 1] ++ zeros 2) ++
    ([2] ++ leBytes 2 0 ++ [8] ++ leBytes 2 1 ++ leBytes 2 0) ++
    (List.range 127).flatMap fun _ => [0] ++ leBytes 2 0xFFFF ++ [0] ++ leBytes 2 0xFFFF ++ leBytes 2 0xFFFF)

/-- The ready module without its job. -/
def jobless : State := { ready with host := { ready.host with jobs := [] } }

set_option maxRecDepth 100000 in
theorem test_TopologyCommands_meets :
    (let h := hdOf (planRecord 7)
     let r := refOf (planRecord 7)
     taken jobless (.topoLoad h r) = true ∧ jobless.host.jobs = [] ∧
     (jobless.withCommand (.topoLoad h r) h).readImage (.topoLoad h r) h r 64 (fun b => planLength b jobless.portCount) =
       .inr (planRecord 7) ∧ jobless.planOk (planRecord 7) = true ∧ jobless.planOk (planRecord 0) = false) ∧
    ready.host.jobs ≠ [] ∧ ready.tick.state ≠ 6 ∧ (tickIn { state := 6 }).tick.nbrs = [] ∧
    ready.c7Limit < 126 ∧ (125 ≤ ready.c7Limit) ∧ ready.role 0 = 2 ∧ ready.role 1 ≠ 2 ∧
    -- READMIT and RESEED, held and when their tick has come
    (let s : State := { heldAt 9 (.topoReadmit { effTick := 20 } 1) with
        topo := { plan := some plan2, ports := [(0, { state := 3, reason := 5, hello := some peerDisc })] }
        tick := { state := 4, counter := 9, issued := 9, nbrs := [(0, { sender := 1, state := 4 })] } }
     s.ticking = true ∧ s.readmitRefusal 1 = none ∧ 1 ≠ s.me ∧ s.heldFor 1 = [0] ∧ 9 ≤ s.tick.issued ∧
     ({ s with host := { s.host with ctxs := [] } } : State).checks
       (s.ctxFor (.topoReadmit { effTick := 20 } 1) { effTick := 20 }) = none ∧
     ({ s with topo := { s.topo with ownMissing := s.missingNow } } : State).missingNow = s.missingNow) ∧
    running.readmitRefusal 1 = some Status.notDiscovered ∧
    running.checks (running.ctxFor (.routeReseed { effTick := 20 } 1) { effTick := 20 }) = none := by
  decide +kernel

/-- The ready module with a sett of a pool at its first address, held by a requester. -/
def withSett (k : Nat) (owner count modes : Nat) : State :=
  let s : State := { ready with pool := { ready.pool with modes := modes, binds := [(64, 5)] } }
  { s with pool := { s.pool with setts := [(s.poolBase k 0, { pool := k, owner := owner, count := count })] } }

theorem test_PoolSetupCommands_meets :
    (let t : State := { jobless with pool := jobless.poolPlan 16 8 8 0 0 0 }
     (8 + 8 + 15 ≠ (jobless.boot.carving.map Carving.staging).getD 0 * 16) ∧
     16 + 8 + 8 = (jobless.boot.carving.map Carving.staging).getD 0 * 16 ∧ jobless.host.jobs = [] ∧
     (∀ k ∈ [1, 2, 3, 4], jobless.poolChanged t k = true → jobless.allocated k = 0) ∧ jobless.p4Fits 0 0 = true ∧
     (∀ k ∈ [1, 2, 3, 4], ((jobless.pool.quotas.filter fun q => q.1 % 8 == k).map fun q => q.2.1).sum ≤ t.pool.total k)) ∧
    (∃ k ∈ [1, 2, 3, 4], (withSett 1 64 1 0).poolChanged { withSett 1 64 1 0 with pool := (withSett 1 64 1 0).poolPlan 16 8 8 0 0 0 } k =
      true ∧ (withSett 1 64 1 0).allocated k ≠ 0) ∧
    ready.quotaBad 64 1 2 1 = true ∧ ready.quotaBad 64 1 0 2 = false ∧
    ((withSett 1 64 1 0).pool.binds.get? 64).isSome = true ∧ ready.pool.binds.get? 64 = none ∧ ready.host.jobs ≠ [] := by
  decide +kernel

theorem test_SettCommands_meets :
    ((ready.tryPools 26 0 (poolsFor 1 false)).1).isSome = true ∧ requesterOk 26 = true ∧ 26 ≠ 64 ∧
    ((withSett 1 64 1 0).tryPools 64 7 (poolsFor (16 * mib) true)).1 = none ∧ ready.pool.binds.get? 1023 = none ∧
    (withSett 1 64 1 0).settAt ((withSett 1 64 1 0).poolBase 1 0) = (some 1, true) ∧ (withSett 1 64 1 0).refcount 1 = false ∧
    (withSett 1 64 1 0).pool.setts.get? ((withSett 1 64 1 0).poolBase 1 0) = some { pool := 1, owner := 64 } ∧
    (ready.settAt 0).1 = none ∧ (withSett 1 64 1 0).recipientOk 1023 = false ∧ (withSett 1 64 1 0).recipientOk 26 = true ∧
    (withSett 1 64 1 0).quotaRefusal 26 1 = none ∧
    (withSett 1 64 4094 1).refcount 1 = true ∧ (4094 : Int) + 1 ≤ 4095 ∧ (0 : Int) < 4094 + 1 ∧ (4094 : Int) + -4094 = 0 := by
  decide +kernel

theorem test_SettsOfUnits_meets :
    ((ready.tryPools 1 7 (poolsFor (16 * mib) true)).1 = none) ∧ ((ready.tryPools 1 7 (poolsFor 65536 false)).1).isSome = true ∧
    requesterOk 1 = true ∧ (16 * mib ≤ 16 * mib) ∧ ready.isSafe = false ∧
    (withSett 1 1 3 1).pool.setts.get? ((withSett 1 1 3 1).poolBase 1 0) = some { pool := 1, owner := 1, count := 3 } ∧
    3 + 4092 ≤ 4095 ∧ 2 < 3 ∧ 3 = 3 ∧ 3 < 4 := by
  decide +kernel

/-- A program of job 5: one step of one element job over a kind-4 and a kind-2 buffer. -/
def progImage (kind : Nat) : List Byte :=
  let buf := fun (k : Nat) => zeros 8 ++ leBytes 8 1024 ++ leBytes 4 64 ++ leBytes 1 k ++ [4, 0xFF] ++ zeros 9
  let job := leBytes 1 kind ++ [0x44, 4, 0, 1, 1, 0, 0] ++ leBytes 4 0x3F800000 ++ zeros 4 ++ zeros 40 ++ leBytes 8 (2 ^ 60) ++
    zeros 12 ++ leBytes 2 48 ++ zeros 18
  sealAt 60 (leBytes 4 9 ++ leBytes 2 5 ++ [0, 0] ++ leBytes 2 1 ++ leBytes 2 400 ++ leBytes 4 1 ++ zeros 48 ++
    buf 4 ++ buf 2 ++ zeros 448 ++ (leBytes 4 0 ++ leBytes 4 1 ++ zeros 8) ++ job)

/-- The ready module with a program in context 18, which runs or not. -/
def withProg (r : Option RunSt) : State :=
  { ready with eng := { progs := [(18, { prog with run := r })] }, ctxUse := [(18, Use.program)] }

set_option maxRecDepth 100000 in
theorem test_EngineCommands_meets :
    (let h := hdOf (progImage 2)
     let r := refOf (progImage 2)
     taken ready (.engLoad h 5 r) = true ∧ ready.stozilJob 5 = false ∧
     (ready.withCommand (.engLoad h 5 r) h).readImage (.engLoad h 5 r) h r 64 progLength = .inr (progImage 2) ∧
     ready.progRefusal (progImage 2) (parseProg (progImage 2)) 5 = none ∧
     ready.progRefusal (progImage 3) (parseProg (progImage 3)) 5 = some (0, 1) ∧ ready.freeCtx.isSome = true ∧
     ((ready.withCommand (.engLoad h 5 r) h).allocBuffers (ready.progRequester 5 0) 0 (parseProg (progImage 2)).buffers.zipIdx).1 = none) ∧
    (let s : State := { ready with pool := {} }
     let h := hdOf (progImage 2)
     ((s.withCommand (.engLoad h 5 (refOf (progImage 2))) h).allocBuffers (s.progRequester 5 0) 0
       (parseProg (progImage 2)).buffers.zipIdx).1 ≠ none) ∧
    ready.progFor 18 = none ∧ (withProg none).progFor 18 = some (18, prog) ∧ (withProg (some {})).progFor 18 = some (18, { prog with run := some {} }) ∧
    (withProg none).stozilJob prog.job = false ∧ prog.run = none ∧ ((withProg none).takeBenches 0 1 2 prog.benchCount).isSome = true ∧
    (({ ready with boot := { ready.boot with carving := none } } : State).takeBenches 0 1 2 1).isNone = true ∧ prog.fallback = 0 ∧
    ((engAt { state := 4 }).engine (7 * 136 + 135)).state = 4 ∧
    ((engAt { state := 1, running := some ⟨18, 0, 0⟩ }).engine (7 * 136 + 135)).running ≠ none := by
  decide +kernel

set_option maxRecDepth 100000 in
/-- A kernel of 4,096 bytes and one that is not of whole words. -/
theorem test_EngKernel_meets :
    let h : CmdHdr := { reads := [{ key := 1, addr := 0, bytes := zeros 4096 }] }
    let c := Instr.engKernel h 0 { key := 1, len := 4096 } { key := 1 }
    taken ready c = true ∧ (ready.withCommand c h).readRef c h { key := 1, len := 4096 } 4096 = some (zeros 4096) ∧
    (ready.withCommand c h).readRef c h { key := 1 } 0 = some [] ∧ (zeros 4096).length % 8 = 0 ∧ (zeros 4097).length % 8 ≠ 0 := by
  decide +kernel

/-- A descriptor image of two members of job 5, with root 1 and one tensor of 2,048 elements. -/
def collImage (root : Nat) : List Byte :=
  sealAt 60 ([1, 4, 4, 4, 0, 0] ++ leBytes 2 2 ++ leBytes 4 2048 ++ [12, 1, 4, 0] ++ leBytes 2 root ++ leBytes 2 0xFFFF ++ leBytes 2 9 ++
    leBytes 2 1 ++ zeros 40 ++ leBytes 2 0 ++ leBytes 2 1 ++ zeros 60 ++ leBytes 4 2048 ++ zeros 12)

theorem test_CollectiveCommands_meets :
    (let h := hdOf (collImage 1)
     let r := refOf (collImage 1)
     taken ready (.collOpen h 5 0 16 r) = true ∧ ready.host.jobs.get? 5 ≠ none ∧
     (ready.withCommand (.collOpen h 5 0 16 r) h).readImage (.collOpen h 5 0 16 r) h r 64 collLength = .inr (collImage 1) ∧
     (ready.host.jobs.get? 5).map (fun x => ready.collRefusal 5 x 16 (collImage 1)) = some none ∧
     (ready.host.jobs.get? 5).map (fun x => ready.collRefusal 5 x 16 (collImage 2)) = some (some 7) ∧
     ready.ctxUse.get? 16 = none ∧ (parseColl (collImage 1)).root ≠ ready.me ∧ ready.ctxGen.get? 16 = none) ∧
    serialNewer 12 0 0 = false ∧ ({ ready with ctxGen := [(16, 0)] } : State).ctxGen.get? 16 = some 0 ∧
    ((rootOf (opOf redDesc (instOf 0 0))).coll.ops.get? 16).map CollSt.inst ≠ some none ∧
    (mergeOp (mergeAt 5 2 false)).inst = none ∧ (mergeOp (mergeAt 5 2 false)).closing = [] ∧ ready.coll.ops.get? 16 = none ∧
    -- a barrier of ranks 0 and 1
    (let b := leBytes 2 0 ++ leBytes 2 1
     let h := hdOf b
     let c := Instr.collBarrier h 5 9 16 2 (refOf b)
     taken ready c = true ∧ (ready.withCommand c h).readImage c h (refOf b) 4 (fun _ => 4) = .inr b ∧
     (ready.host.jobs.get? 5).map (fun x => x.inRange 16) = some true ∧ ((List.range 2).map fun i => getLE b (2 * i) 2).Nodup ∧
     (ready.host.jobs.get? 5).map (fun x => (List.range 2).all fun i => (x.addr (getLE b (2 * i) 2)).isSome) = some true ∧
     ready.groupUsed 9 = false ∧ ready.topo.groups.length < 65536 ∧ Use.coll ≠ Use.barrier) := by
  decide +kernel

/-- A declaration of a vector of 512 elements of job 5 with one subscriber, rank 1; an optimizer record of one commit stage. -/
def declRecord (id : Nat) : List Byte :=
  sealAt 60 (leBytes 4 id ++ leBytes 2 5 ++ [2, 0] ++ leBytes 4 512 ++ zeros 4 ++ [3, 0, 2, 0] ++ zeros 8 ++ leBytes 4 0 ++ zeros 4 ++
    leBytes 2 1 ++ zeros 2 ++ leBytes 2 9 ++ leBytes 2 1 ++ zeros 20 ++ leBytes 2 1 ++ zeros 62)
def optRecord (units : Nat) : List Byte :=
  sealAt 60 (leBytes 4 0 ++ leBytes 2 5 ++ [1] ++ zeros 281 ++ ([1, 1] ++ leBytes 2 2 ++ [0] ++ leBytes 1 units ++ List.replicate 8 15 ++ zeros 2))

/-- The ready module with a kernel, an optimizer and a block in a state. -/
def blocks (b : Option BlockSt) : State :=
  { ready with parm := { blocks := (b.map fun b => [(17, b)]).getD [], opts := [(5 * 2 ^ 32, { params := [], stages := [] })] }
               ctxUse := (b.map fun _ => [(17, Use.block)]).getD [], eng := { kernels := [(2, ⟨zeros 8, []⟩)], progs := [(18, prog)] } }

set_option maxRecDepth 100000 in
theorem test_BlocksAreDeclared_meets :
    (let h := hdOf (declRecord 3)
     let r := refOf (declRecord 3)
     taken (blocks none) (.paramDeclare h r) = true ∧
     ((blocks none).withCommand (.paramDeclare h r) h).readImage (.paramDeclare h r) h r 64 declLength = .inr (declRecord 3) ∧
     (blocks none).imageJob h (parseBlock (declRecord 3)).job = none ∧ (blocks none).stozilJob 5 = false ∧
     ((blocks none).withCommand (.paramDeclare h r) h |>.declare (declRecord 3)).1.isRight = true ∧
     ((blocks none).withCommand (.paramDeclare h r) h |>.declare (declRecord 0)).1 = .inl Status.descInvalid) ∧
    (blocks (some { blk with state := 1 })).blockOf 5 3 = some (17, { blk with state := 1 }) ∧
    (let s := blocks (some { blk with state := 1 })
     notBegun (s.stateOf 17 { blk with state := 1 }).1 (s.stateOf 17 { blk with state := 1 }).2 = true) ∧
    (let s := blocks (some { blk with state := 5 })
     notBegun (s.stateOf 17 { blk with state := 5 }).1 (s.stateOf 17 { blk with state := 5 }).2 = false) ∧
    blk.hasRegion 0 = true ∧ blk.hasRegion 4 = false ∧
    (let h := hdOf (optRecord 1)
     let r := refOf (optRecord 1)
     taken (blocks none) (.paramOptimizer h r) = true ∧
     ((blocks none).withCommand (.paramOptimizer h r) h).readImage (.paramOptimizer h r) h r 64 (fun b => 288 + 16 * getLE b 6 1) =
       .inr (optRecord 1) ∧ (blocks none).imageJob h (getLE (optRecord 1) 4 2 % 4096) = none ∧
     (blocks none).optimizerOk (optRecord 1) = true ∧ (blocks none).optimizerOk (optRecord 65) = false) ∧
    (blocks (some { blk with state := 1 })).prog? 18 = some prog ∧ (blocks (some { blk with state := 1 })).opId 18 = 18 ∧
    prog.job = 5 ∧ ({ blk with state := 1 } : BlockSt).progOverlaps prog = false := by
  decide +kernel

set_option maxRecDepth 100000 in
/-- Zeros, and data, for the master region of a block of 512 elements that has not begun. -/
theorem test_ParamInit_meets :
    let b : BlockSt := { blk with rows := 512, ep := 512 }
    let s := blocks (some b)
    let h := hdOf (zeros 2048)
    let c := Instr.paramInit h 3 5 0 0 (refOf (zeros 2048))
    taken s c = true ∧ s.blockOf 5 3 = some (17, b) ∧ notBegun (s.stateOf 17 b).1 (s.stateOf 17 b).2 = true ∧ b.hasRegion 0 = true ∧
    b.codeBytes 0 ≤ (refOf (zeros 2048)).len ∧ (s.withCommand c h).readRef c h (refOf (zeros 2048)) (b.codeBytes 0) = some (zeros 2048) := by
  decide +kernel

theorem test_BlocksAreSteppedByCommand_meets :
    (∀ st ∈ [1, 2, 3, 5, 6], ((blocks (some { blk with state := st })).blockOf 5 3).isSome = true) ∧
    (∀ c ∈ [Instr.paramPublish hd 3 5, .paramClose hd 3 5, .paramUpdate hd 3 5, .paramDiscard hd 3 5, .paramEvict hd 3 5,
      .paramHyper hd 3 5 0, .paramHyper hd 0 5 0, .paramStatus hd 3 5 {}, .paramRetire hd 3 5], taken (blocks (some blk)) c = true) ∧
    blk.kind ≠ 3 ∧ blk.publishing = false ∧ blk.producing = none ∧ blk.started = 0 ∧ (0 : Nat) < blk.maskBytes ∧
    (let h := hdOf (zeros 64)
     let c := Instr.paramSpoil h 3 5 (refOf (zeros 64))
     taken (blocks (some blk)) c = true ∧
     ((blocks (some blk)).withCommand c h).readRef c h (refOf (zeros 64)) blk.maskBytes = some (zeros blk.maskBytes)) ∧
    notBegun 1 3 = true ∧ notBegun 2 0 = true ∧ notBegun 2 1 = false := by
  decide +kernel

/-- The module with entries in the stash, one of which a get uses. -/
def getting : StashGet := { id := 0, job := 5, holder := 1, tag := 8, seq := 0, node := 1, ep := 0x40, cls := 0, opId := 0, left := 1, segments := 2 }

theorem test_StashCommands_meets :
    ready.stozilJob 5 = false ∧ ready.stashReserve 5 15 1 0 0 = .inl Status.descInvalid ∧
    (ready.stashReserve 5 16 262144 (2 ^ 24) (2 ^ 40)).isRight = true ∧
    ((stashed []).stash.res.get? 5).isSome = true ∧ 2 ^ 24 + Config.contextBytes ≤ (stashed []).usable ∧
    ((stashed [stashEntOf 2 2]).stashEnts 5).all (fun e => ((stashed [stashEntOf 2 2]).getsOn e).isEmpty) = true ∧
    ((stashed [stashEntOf 2 2] [getting]).stashEnts 5).all (fun e => ((stashed [stashEntOf 2 2] [getting]).getsOn e).isEmpty) = false ∧
    ready.stash.res.get? 5 = none ∧ (stashed [stashEntOf 2 2]).stashEnt 5 1 8 = some (stashEntOf 2 2) ∧
    (stashed []).isSafe = false ∧ ({ stashRes with releasing := true, drain := 65535 } : StashRes).releasing = true ∧
    (stashed []).cfg .stashCfg 0 16 16 ≤ 65535 ∧ stashRes.releasing = false := by
  decide +kernel

theorem test_PowerAndFaultCommands_meets :
    bit 255 7 = true ∧ bit 254 0 = false ∧ levelOk 0 5 = true ∧ levelOk 0 6 = false ∧ levelOk 28 5 = false ∧
    ready.injectRefusal 0 = none ∧ (1 : Nat) ∉ injectable ∧ bit (64 + 24) 6 = true ∧
    ready.cfg .fltInjectTarget 0 0 16 = 0xFFFF ∧
    (let s : State := { ready with regs := [(Reg.fltInjectTarget.key 0, unitName 0 1)] }
     s.injectRefusal 0 = none ∧ s.cfg .fltInjectTarget 0 0 16 ≠ 0xFFFF) := by
  decide +kernel

/-- The module running slot 0, with slot 1 free, being written by another path, or at an offset. -/
theorem test_ManagementCommands_meets :
    (let s : State := { ready with mgt := { slotB := { bytes := some [] } } }
     s.imageWriteRefusal hd.path 1 0 8 = none ∧ s.imageWriteRefusal hd.path 0 0 8 = some Status.opBusy ∧
     s.imageWriteRefusal hd.path 1 8 8 = some Status.descInvalid ∧ s.boot.slot = 0 ∧ 2 ≤ s.boot.phase ∧
     ¬(s.boot.phase = 15 ∧ s.boot.failReason = 1) ∧ s.boot.slot ≠ 1 ∧ s.imageCheck (s.slotBytes 1) = Status.imageInvalid) ∧
    (let s : State := { ready with mgt := { session := some ⟨1, .sideband, 8⟩ } }
     s.mgt.session = some ⟨1, .sideband, 8⟩ ∧ Path.sideband ≠ hd.path ∧ s.imageWriteRefusal .sideband 1 8 8 = none) ∧
    (if (8 : Nat) ≤ 24 then some (padTo 8 (zeros 8)) else none) = some (zeros 8) ∧
    ({ len := 64 } : Ref).len < 64 * 2 ∧ 64 * 1 ≤ ({ len := 64 } : Ref).len := by
  decide +kernel

/-! ## Examples of the spec, and single steps -/

/-- The check value of CRC-32C for the digits 1 to 9. -/
theorem test_crc32c : crc32c ([0x31, 0x32, 0x33, 0x34, 0x35, 0x36, 0x37, 0x38, 0x39] : List Byte) = 0xE3069283 := by decide +kernel

/-- R28: engine CT3.E041 and the NCU of MC071. -/
theorem test_masterId : masterId 0 3 41 = 0x0329 ∧ masterId 1 4 7 = 0x1407 := by decide

/-- R91's example: a contribution of member 17 in F8G, its header bytes, length and cells. -/
theorem test_contribution_header :
    let h : Hdr := { ext := true, opcode := 0x10, cls := 2, vc := 2, dstNode := 0x0123, dstEp := 0xFFF1, srcNode := 0x0040, srcEp := 7,
                     job := 0x2A, units := 66, srcRank := 1234, opId := 5 * 2 ^ 20 + 0x41A2C, position := 3 * 256 + 5 }
    (hdrBytes h).take 18 = [0x11, 0x10, 0x12, 0x3F, 0x23, 0x01, 0xF1, 0xFF, 0x40, 0x00, 0x07, 0x00, 0xFF, 0xFF, 0x2A, 0x00, 0x42, 0x00] ∧
    (hdrBytes h).drop 24 = [0x2C, 0x1A, 0x54, 0x00, 0x05, 0x03, 0x00, 0x00] ∧ frameLength h = 4280 ∧ frameCells h = 9 := by
  decide +kernel

/-- R154, R155, R161: BT2's staging at the default carving, the pool for 67,584 B, and an address that is no sett's. -/
theorem test_staging_example :
    let s : State := { boot := { carving := some ⟨3, 4, 1, false⟩ }, pool := { p1 := 4, p2 := 4, p3 := 8 } }
    s.stagingBase 2 = 0x4000000017000000 ∧ s.poolBase 2 2 = 0x4000000017400000 ∧ s.poolBase 3 2 = 0x4000000017800000 ∧
    (poolsFor 67584 false) = [3] ∧ s.settAt 0x4000000017408000 = (some 2, false) := by
  decide +kernel

/-- R177's example: 1,000 and 31 elements of 0.003 in F8A and in F8G: the large element's code and the scale byte. -/
theorem test_encode_block_example :
    let vs := f32Num 0x447A0000 :: List.replicate 31 (f32Num 0x3B449BA6)
    (encodeBlock 0 0 (fun i => (i, 0)) 0 {} vs).1.take 2 = [0x78, 0] ∧ (encodeBlock 0 0 (fun i => (i, 0)) 0 {} vs).2.1 = 0x81 ∧
    (encodeBlock 0 0 (fun i => (i, 0)) 0 {} vs).2.2.flushed = 31 ∧
    (encodeBlock 1 0 (fun i => (i, 0)) 0 {} vs).1.head? = some 0x78 ∧ (encodeBlock 1 0 (fun i => (i, 0)) 0 {} vs).2.1 = 0x7A := by
  decide +kernel

/-- R186's example: the three products of a group, 60 less 1.75 units of 2^-20. -/
theorem test_group_example :
    (groupSum [.mk false 3 4, .mk false 9 (-21), .mk true 5 (-21)] [.mk false 5 (-2), .mk false 7 (-2), .mk false 5 (-2)]).1 =
      .mk false (60 * 2 ^ 20 + 7 - 4) (-20) := by
  decide +kernel

/-- R190's example: 2^-25 added four times to 1. -/
theorem test_addF32_example :
    (addF32 (0x3F800000, 0) 0x33000000).1 = (0x3F800000, 0x33000000) ∧
    (addF32 (0x3F800000, 0x33000000) 0x33000000).1 = (0x3F800000, 0x33800000) ∧
    (addF32 (0x3F800000, 0x33800000) 0x33000000).1 = (0x3F800001, 0xB3000000) ∧
    (addF32 (0x3F800001, 0xB3000000) 0x33000000).1 = (0x3F800001, 0) := by
  decide +kernel

/-- Forty fused tensors (chapter 10): two chunks, the second of 54,784 elements in 14 segments, the last of 1,536 and 25 units. -/
theorem test_fusion_example :
    let d : CollDesc := { kind := 1, fmt := 1, elements := 40 * 3008 }
    d.chunks = 2 ∧ d.chunkLen 1 = 54784 ∧ d.segs 1 1 = 14 ∧ d.segLen 1 1 13 = 1536 ∧ segBytes 1 1536 = 25 * 64 := by
  decide +kernel

/-- R251's example: a 4,096 × 4,096 block with compensation, two F32 slots and two F8A versions. -/
theorem test_block_capacity_example :
    ({ job := 0, id := 1, kind := 1, comp := true, rows := 4096, cols := 4096, pubFmt := 0, window := 2, stateFmts := [4, 4],
       ep := shapeEp 1 4096 4096 } : BlockSt).capacity = 472383488 := by
  decide +kernel

/-- A serial comparison over the wrap (R97). -/
theorem test_serial_wrap : serialNewer 32 0 (2 ^ 32 - 1) = true ∧ serialNewer 32 (2 ^ 32 - 1) 0 = false ∧ serialNewer 32 (2 ^ 31) 0 = false := by
  decide

/-- What a next state holds. -/
def after {α : Type} (o : Host.Outcome State Fault Refusal) (f : State → α) : Option α := match o with
  | .next t => some (f t)
  | _ => none

/-- R327: RESET_N released with AUX up leads to BOOT; a lane beyond the last is a fault. -/
theorem test_reset_release :
    after (exec .resetNHigh { boot := { aux := true } }) (fun t => t.boot.phase) = some Phase.boot ∧
    exec (.losAssert 1024) State.reset = .fault .noSuchUnit := by
  exact ⟨by decide +kernel, rfl⟩

/-- R347: the eleventh rail step ends POWERING. -/
theorem test_last_rail_step :
    after (exec (.railStepGood 11) (powering 10)) (fun t => (t.boot.phase, t.boot.powerGood)) = some (Phase.memory, true) := by
  decide +kernel

/-- R331: SETUP.CARVE with its sum 7 is refused with detail 2; with 8 it leads to CARVED, the default pools set. -/
theorem test_carve :
    let s : State := { ready with boot := { ready.boot with phase := Phase.uncarved, carving := none } }
    after (exec (.setupCarve hd 3 3 1 0) s) (fun t => t.boot.phase) = some Phase.uncarved ∧
    after (exec (.setupCarve hd 3 4 1 0) s) (fun t => (t.boot.phase, t.pool.p1, t.pool.p2, t.pool.p3)) =
      some (Phase.carved, 4, 4, 8) := by
  decide +kernel

/-- R302, R308: a NOP completes with OK into mailbox 0. -/
theorem test_nop_completes :
    after (exec (.mboxNop { number := 3 }) ready) (fun t => t.out.any fun o => match o with
      | .completion p n c st _ _ _ => p == .mailbox 0 && n == 3 && c == 0x0104 && st == 0
      | _ => false) = some true := by
  decide +kernel

/-- R63: LINK.ENABLE takes a DISABLED port to DETECT. -/
theorem test_link_enable : after (exec (.linkEnable hd 127) ready) (fun t => (t.port 127).state) = some 1 := by decide +kernel

/-- R367: PWR.CAP writes the limit; 1,499 W is refused and the register keeps its value. -/
theorem test_cap :
    after (exec (.pwrCap hd 1500) ready) (fun t => t.reg .pwrCap) = some 1500 ∧
    after (exec (.pwrCap hd 1499) ready) (fun t => t.reg .pwrCap) = some (ready.reg .pwrCap) := by
  decide +kernel

/-- R155: a request of 67,584 B takes a P3 sett of tile 2, the lowest. -/
theorem test_sett_request :
    let s : State := { ready with boot := { ready.boot with carving := some ⟨3, 4, 1, false⟩ }, pool := { p1 := 4, p2 := 4, p3 := 8 } }
    after (exec (.settRequest (masterId 0 2 0) 1 { op := 1, size := 67584, tile := 2 } []) s) (fun t => t.pool.setts) =
      some [(0x4000000017800000, { pool := 3, owner := 1 })] := by
  decide +kernel

/-- R104: the second of two members releases generation 0. -/
theorem test_barrier_release :
    after (exec (.barrierArrive ⟨arrivalOf 1 0, some 0⟩) (barred 1 0)) (fun t =>
      (t.coll.barriers.get? 16).map fun b => (b.gen, b.arrived)) = some (some (1, 0)) := by
  decide +kernel

/-- R228: a contribution is absorbed once; its duplicate is counted. -/
theorem test_contribution :
    after (exec (.redContrib ⟨contribOf 0 0, some 0⟩) (rootOf (opOf redDesc (instOf 0 0)))) (fun t => t.reg .collAbsorbed) = some 1 ∧
    after (exec (.redContrib ⟨contribOf 0 0, some 0⟩) (rootOf (opOf redDesc (instOf 0 2)))) (fun t => t.reg .collDupDrop) = some 1 := by
  decide +kernel

/-- R284: segment 0 of a put of 8,192 B makes a FILLING entry. -/
theorem test_stash_put :
    after (exec (.stashPut ⟨stashFrame Op.stashPut 8 8192 0 0 4096, some 0⟩) (stashed [])) (fun t =>
      t.stash.ents.map fun e => (e.tag, e.state, e.committed)) = some [(8, 1, 1)] := by
  decide +kernel

/-- R374: in the safe state the same frame changes nothing. -/
theorem test_safe_stash_put :
    after (exec (.stashPut ⟨stashFrame Op.stashPut 8 8192 0 0 4096, some 0⟩) { stashed [] with flt := { safe := some 5 } }) (fun t =>
      t.stash.ents) = some [] := by
  decide +kernel

/-- R36: a boundary advances the count of a running tick keeper by one. -/
theorem test_boundary : after (exec (.tickBoundary {}) running) (fun t => t.tick.counter) = some 10 := by decide +kernel

/-- R370, R373: a fault of class 5 is latched in FLT_STATUS. -/
theorem test_fault_latched : after (exec (.faultRaised { cls := 5 }) carved) (fun t => bit t.flt.status 5) = some true := by
  decide +kernel

/-- No row has bits of its own in the table: no word spells a command. -/
theorem test_no_words : decodeTableWord 64 0 = none := rfl

/-! ## Clauses that other states meet -/

/-- Engines that retire, are tested or are assigned a job. -/
theorem test_EngineCommands_states :
    ((engAt { state := 3 }).engine (engineKey (7 * 256 + 135))).state = 3 ∧
    (let s := fun (e : EngSt) => ({ ready with eng := { engines := [(7 * 136 + 135, e)] } } : State)
     (∀ st ∈ [0, 1, 2, 3, 4], taken (s { state := st }) (.engRetire hd (7 * 256 + 135)) = true ∧
       taken (s { state := st }) (.engTest hd (7 * 256 + 135)) = true ∧ taken (s { state := st }) (.engRestore hd (7 * 256 + 135)) = true ∧
       ((s { state := st }).engine (engineKey (7 * 256 + 135))).state = st) ∧
     ((s { state := 1, assigned := some ⟨18, 0, 0⟩ }).engine (engineKey (7 * 256 + 135))).assigned ≠ none) := by
  decide +kernel

/-- A descriptor whose root is this module, with a group, and with none; one whose group another operation has. -/
theorem test_CollectiveCommands_root :
    (let h := hdOf (collImage 0)
     let r := refOf (collImage 0)
     taken ready (.collOpen h 5 0 16 r) = true ∧
     (ready.withCommand (.collOpen h 5 0 16 r) h).readImage (.collOpen h 5 0 16 r) h r 64 collLength = .inr (collImage 0) ∧
     (ready.host.jobs.get? 5).map (fun x => ready.collRefusal 5 x 16 (collImage 0)) = some none ∧
     (parseColl (collImage 0)).root = ready.me ∧ (parseColl (collImage 0)).hasGroup = true ∧
     ready.groupTaken (parseColl (collImage 0)) = false ∧ ready.groupUsed (parseColl (collImage 0)).group = false) ∧
    ({ ready with coll := { ops := [(17, { job := 5, desc := parseColl (collImage 0), next := 0 })] } } : State).groupTaken
      (parseColl (collImage 0)) = true ∧
    (let c : CollSt := { job := 5, desc := redDesc, next := 1, closing := [{ gen := 0, slots := [], unacked := 1 }] }
     c.inst = none ∧ (∃ x ∈ c.closing, x.unacked ≠ 0) ∧
     taken { ready with coll := { ops := [(16, c)] } } (.collClose hd 16) = true) ∧
    (let c : CollSt := { job := 5, desc := redDesc, next := 1, closing := [{ gen := 0, slots := [], unacked := 0 }] }
     c.inst = none ∧ (∀ x ∈ c.closing, x.unacked = 0) ∧
     taken { ready with coll := { ops := [(16, c)] } } (.collClose hd 16) = true) := by
  decide +kernel

/-- An image write whose host buffer is not there; the tick enabled before; a tile with its rail off; a data queue pair in use;
addresses with no register, inside the map and outside. -/
theorem test_HostCommands_clauses :
    (let s : State := { ready with mgt := { slotB := { bytes := some [] } } }
     let r : Ref := { key := 9, addr := 0x1000, len := 64 }
     s.imageWriteRefusal hd.path 1 0 64 = none ∧ ¬(r.key = 0 ∧ r.addr = 0 ∧ r.len ≤ 24) ∧
     (s.withCommand (.mgtImageWrite hd 1 0 r (zeros 0)) hd).readRef (.mgtImageWrite hd 1 0 r (zeros 0)) hd r 64 = none) ∧
    (let s : State := { ready with regs := [(Reg.tickConfig.key 0, 2 ^ 10 + 1)] }
     taken s (.tickEnableWrite hd) = true ∧ s.tickEnable = true ∧ s.period ≤ 2) ∧
    ((tileAt { railOff := true }).tilePwr 7).railOff = true ∧ ((tileAt { railOff := true }).tilePwr 7).railAgain = false ∧
    (let m : MboxSt := { qp := some 0x100, dataQp := 0x101 }
     let s : State := { ready with host := { ready.host with qps := [(0x100, { port := 0 }), (0x101, { port := 0 })], mboxes := [(3, m)] } }
     taken s (.hostQpClose hd 0x101) = true ∧ (∀ kv ∈ s.host.mboxes, kv.2.dataQp = 0x101)) ∧
    regAt 4 = none ∧ ready.mapped (2 ^ 63 + 2 ^ 62) 8 = false ∧ regAt (2 ^ 63 + 2 ^ 62) = none ∧
    regAt (regAddr .tickCount + 4) = none ∧ ready.mapped (regAddr .tickCount + 4) 8 = true := by
  decide +kernel

/-- A P4 region that does not fit; a count of setts below what quotas keep. -/
theorem test_PoolSetup_clauses :
    (let t : State := { jobless with pool := jobless.poolPlan 8 8 16 0 1 (2 ^ 50) }
     (∀ k ∈ [1, 2, 3, 4], jobless.poolChanged t k = true → jobless.allocated k = 0) ∧ jobless.p4Fits 1 (2 ^ 50) = false) ∧
    (let s : State := { jobless with pool := { jobless.pool with quotas := [(26 * 8 + 1, (8193, 8193))] } }
     let t : State := { s with pool := s.poolPlan 8 8 16 0 0 0 }
     (∀ k ∈ [1, 2, 3, 4], s.poolChanged t k = true → s.allocated k = 0) ∧ s.p4Fits 0 0 = true ∧
     ∃ k ∈ [1, 2, 3, 4], t.pool.total k < ((s.pool.quotas.filter fun q => q.1 % 8 == k).map fun q => q.2.1).sum) := by
  decide +kernel

end Sys2Proof.Tests
end

section
/-! What a doorbell for one command fetches, and how a slot whose count differs ends (R305, R307). -/

namespace Sys2Proof.Machine

open Sys2Proof (Instr CmdHdr HostBuf Path)

/-! ## One mailbox changed -/

/-- A state that differs from `s` in the host side alone keeps every other part. -/
theorem State.keepsBut_of_host {s t : State} (h : t = { s with host := t.host }) : s.keepsBut [.host] t := by
  intro p
  rw [h]
  cases p
  case host => exact .inl (by simp)
  all_goals exact .inr (by simp [State.same])

@[simp] theorem State.mbox_setMbox (s : State) (m : Nat) (f : MboxSt → MboxSt) : (s.setMbox m f).mbox m = f (s.mbox m) := by
  simp [State.mbox, State.setMbox]

theorem State.mbox_setMbox_ne (s : State) {k m : Nat} (f : MboxSt → MboxSt) (h : k ≠ m) :
    (s.setMbox m f).mbox k = s.mbox k := by
  simp [State.mbox, State.setMbox, NMap.getD_upd_ne _ _ _ _ h]

/-! ## Slots whose count differs -/

@[simp] theorem parseSlot_path (slot : List Byte) (path : Path) (number : Nat) (countOk : Bool) (reads : List HostBuf) :
    (parseSlot slot path number countOk reads).2.1.path = path := by
  cases h : argSizes (getLE slot 0 2) <;> simp [parseSlot, h]

@[simp] theorem parseSlot_number (slot : List Byte) (path : Path) (number : Nat) (countOk : Bool) (reads : List HostBuf) :
    (parseSlot slot path number countOk reads).2.1.number = number := by
  cases h : argSizes (getLE slot 0 2) <;> simp [parseSlot, h]

/-- A slot whose count differs is marked BAD_SLOT, whatever else stands in it. -/
@[simp] theorem parseSlot_miscounted (slot : List Byte) (path : Path) (number : Nat) (reads : List HostBuf) :
    (parseSlot slot path number false reads).2.2.2 = Status.badSlot := by
  cases h : argSizes (getLE slot 0 2) <;> simp [parseSlot, h]

/-- The count is the first check of Table 13.5. -/
theorem State.checks_of_badSlot (s : State) {x : Ctx} (h : x.bad = Status.badSlot) : s.checks x = some Status.badSlot := by
  simp [State.checks, h]

/-- The state in which a command that has arrived is in its context, started. -/
def State.entered (s : State) (x : Ctx) : State :=
  (s.addCtx x.cmd x.hdr x.code x.bad).setCtx x.id fun y => { y with state := .started (.object false) }

@[simp] theorem State.entered_mbox (s : State) (x : Ctx) (m : Nat) : (s.entered x).mbox m = s.mbox m := rfl

/-- An idle device starts a command whose count differs, and it completes with BAD_SLOT and no effect of its own. -/
theorem State.arrive_idle_badSlot {s : State} (hs : s.host.ctxs = []) (c : Instr) (h : CmdHdr) (code : Nat) :
    s.arrive c h code Status.badSlot =
      (s.entered { id := s.host.nextId, cmd := c, hdr := h, code := code, bad := Status.badSlot }).complete
        { id := s.host.nextId, cmd := c, hdr := h, code := code, bad := Status.badSlot } Status.badSlot := by
  simp only [State.arrive, hs, List.isEmpty_nil, if_true, State.start]
  rw [State.checks_of_badSlot _ rfl]
  rfl

/-! ## A doorbell for one command -/

/-- The number after P is one ahead of it, also where P wraps. -/
theorem nextNumber_ahead {p : Nat} (hp : p < 2 ^ 32) : ((p + 1) % 2 ^ 32 + 2 ^ 32 - p) % 2 ^ 32 = 1 := by omega

/-- The state in which a doorbell has moved P of a mailbox to `d`. -/
def State.accepted (s : State) (m d : Nat) : State := s.setMbox m fun b => { b with p := d }

@[simp] theorem State.accepted_mbox (s : State) (m d : Nat) : (s.accepted m d).mbox m = { s.mbox m with p := d } :=
  State.mbox_setMbox s m _

theorem State.accepted_mbox_ne (s : State) {k m : Nat} (d : Nat) (h : k ≠ m) : (s.accepted m d).mbox k = s.mbox k :=
  State.mbox_setMbox_ne s _ h

@[simp] theorem State.accepted_ringSlot (s : State) (m d c : Nat) : (s.accepted m d).ringSlot m c = s.ringSlot m c := by
  simp [State.ringSlot]

/-- A doorbell for the next command fetches that one alone. -/
theorem State.fetch_next {s : State} {m d : Nat} (hp : (s.mbox m).p < 2 ^ 32) (hd : ((s.mbox m).p + 1) % 2 ^ 32 = d)
    (reads : List HostBuf) : s.fetch m d reads = (s.accepted m d).fetchOne m reads d := by
  subst hd
  simp only [State.fetch, nextNumber_ahead hp]
  rfl

/-- The doorbell of the bound queue pair with its key, for a number that there is room for, fetches (R305). -/
theorem exec_doorbell_accepted {s : State} {m qp key d : Nat} (reads : List HostBuf) (ha : s.answering = true)
    (hq : s.fromBound m qp = true) (hk : keyOk (s.mbox m).doorKey key = true) (hd : d < 2 ^ 32)
    (hr : s.roomFor m d = true) : exec (.doorbell m qp key d reads) s = .next (s.fetch m d reads).settle := by
  have h : exec (.doorbell m qp key d reads) s = .next (s.doorbell m qp key d reads) := rfl
  have hroom : (decide (d < 2 ^ 32) && s.roomFor m d) = true := by rw [hr, decide_eq_true hd]; rfl
  simp only [h, State.doorbell, State.ring, ha, hq, hk, hroom, Bool.and_self, Bool.not_true, Bool.false_eq_true, if_true,
    if_false]

/-- An idle device fetches a slot whose count differs into a context, where it completes with BAD_SLOT. -/
theorem State.fetchOne_miscounted {s : State} {m c : Nat} (reads : List HostBuf) (hs : s.host.ctxs = [])
    (hc : getLE (s.ringSlot m c) 4 4 ≠ c) :
    ∃ x : Ctx, s.fetchOne m reads c = (s.entered x).complete x Status.badSlot ∧
      x.hdr.path = .mailbox m ∧ x.hdr.number = c := by
  have hcount : (getLE (s.ringSlot m c) 4 4 == c) = false := beq_eq_false_iff_ne.2 hc
  simp only [State.fetchOne, hcount, parseSlot_miscounted, State.arrive_idle_badSlot hs]
  exact ⟨_, rfl, by simp, by simp⟩

/-- Settles O10: the slot is fetched alone, its count is the first check, and completing is all that follows. -/
theorem miscountedSlotsFail : Obligations.MiscountedSlotsFail := by
  unfold Obligations.MiscountedSlotsFail
  intro s m qp key reads ha hs hq hk hp hr hc
  have hlt : ((s.mbox m).p + 1) % 2 ^ 32 < 2 ^ 32 := Nat.mod_lt _ (by decide)
  generalize hd : ((s.mbox m).p + 1) % 2 ^ 32 = d at hr hc hlt ⊢
  obtain ⟨x, hx, hpath, hnumber⟩ := State.fetchOne_miscounted (s := s.accepted m d) (m := m) reads hs (by simpa using hc)
  refine ⟨(s.accepted m d).entered x, x, ?_, hpath, hnumber, State.keepsBut_of_host rfl, by simp, fun k hne => ?_,
    rfl, rfl, rfl⟩
  · rw [exec_doorbell_accepted reads ha hq hk hlt hr, State.fetch_next hp hd, hx]
  · rw [State.entered_mbox, State.accepted_mbox_ne s d hne]

end Sys2Proof.Machine
end

section
/-! What the sequencer does with a failed check or rail on the way up, and how the rails go down (R348–R350). -/

namespace Sys2Proof.Machine

/-! ## What raising an event leaves unchanged -/

theorem State.keepsBut_refl (ch : List Part) (s : State) : s.keepsBut ch s :=
  fun p => .inr (by cases p <;> simp [State.same])

theorem State.same_trans {s t u : State} {p : Part} (h : s.same t p) (h' : t.same u p) : s.same u p := by
  cases p
  case ctxs | mem => exact ⟨h'.1.trans h.1, h'.2.trans h.2⟩
  all_goals exact Eq.trans h' h

theorem State.keepsBut_trans {ch : List Part} {s t u : State} (h : s.keepsBut ch t) (h' : t.keepsBut ch u) :
    s.keepsBut ch u := by
  intro p
  obtain hp | hp := h p
  · exact .inl hp
  · exact (h' p).imp id (State.same_trans hp)

/-- The parts that an event is written to: both logs with their counters, its stamp, and what is sent on a mailbox. -/
def eventParts : List Part := [.fresh, .regs, .mgt, .out]

/-- A state that differs from `s` in the parts of an event alone keeps every other part. -/
theorem State.keepsBut_of_event {s t : State}
    (h : t = { s with fresh := t.fresh, regs := t.regs, mgt := t.mgt, out := t.out }) : s.keepsBut eventParts t := by
  intro p
  rw [h]
  cases p
  case fresh | regs | mgt | out => exact .inl (by simp [eventParts])
  all_goals exact .inr (by simp [State.same])

theorem State.logOnChip_keepsBut (s : State) (e : Event) : s.keepsBut eventParts (s.logOnChip e) := by
  apply State.keepsBut_of_event
  simp only [State.logOnChip]
  split <;> rfl

theorem State.logPersistRated_keepsBut (s : State) (e : Event) : s.keepsBut eventParts (s.logPersistRated e) := by
  unfold State.logPersistRated
  split
  · exact State.keepsBut_refl _ s
  · split <;> exact State.keepsBut_of_event rfl

theorem State.sendEvent_keepsBut (s : State) (e : Event) (m : Nat) : s.keepsBut eventParts (s.sendEvent e m) := by
  simp only [State.sendEvent]
  split
  · split <;> exact State.keepsBut_of_event rfl
  · exact State.keepsBut_refl _ s

/-- An event changes nothing but what it is written to (R392–R396, R310). -/
theorem State.event_keepsBut (s : State) (severity source code : Nat) (data : List Byte) (status master : Nat) :
    s.keepsBut eventParts (s.event severity source code data status master) := by
  simp only [State.event]
  split
  · refine List.foldlRecOn _ _ ?_ fun t ht m _ => State.keepsBut_trans ht (State.sendEvent_keepsBut t _ m)
    refine State.keepsBut_trans ?_ (State.logPersistRated_keepsBut _ _)
    refine State.keepsBut_trans ?_ (State.logOnChip_keepsBut _ _)
    exact State.keepsBut_of_event rfl
  · exact State.keepsBut_refl _ s

@[simp] theorem State.event_boot (s : State) (severity source code : Nat) (data : List Byte) (status master : Nat) :
    (s.event severity source code data status master).boot = s.boot :=
  (s.event_keepsBut severity source code data status master .boot).resolve_left (by decide)

@[simp] theorem State.event_flt (s : State) (severity source code : Nat) (data : List Byte) (status master : Nat) :
    (s.event severity source code data status master).flt = s.flt :=
  (s.event_keepsBut severity source code data status master .flt).resolve_left (by decide)

/-! ## Phases -/

@[simp] theorem State.enter_boot (s : State) (p reason : Nat) :
    (s.enter p reason).boot = { s.boot with phase := p, failReason := reason } := by
  simp [State.enter]

@[simp] theorem State.enter_flt (s : State) (p reason : Nat) : (s.enter p reason).flt = s.flt := by
  simp [State.enter]

/-- Outside RESET the end of the down order leaves the phase as it is. -/
theorem State.downDone_boot {s : State} (h : s.boot.phase ≠ Phase.reset) :
    s.downDone.boot = { s.boot with downStep := none, upStep := 0, railsOff := [] } := by
  simp [State.downDone, h]

/-- Whatever the phase, no rail is left up, off alone or going down when the down order ends. -/
theorem State.downDone_rails (s : State) :
    s.downDone.boot.downStep = none ∧ s.downDone.boot.upStep = 0 ∧ s.downDone.boot.railsOff = [] := by
  simp only [State.downDone]
  split <;> exact ⟨rfl, rfl, rfl⟩

@[simp] theorem State.downDone_flt (s : State) : s.downDone.flt = s.flt := by
  simp only [State.downDone]
  split <;> rfl

@[simp] theorem State.startDown_flt (s : State) : s.startDown.flt = s.flt := by
  simp only [State.startDown]
  split
  · rfl
  · split <;> simp

/-- Where no down order runs, it starts from the highest step that is up, with POWER_GOOD and the host ports' power gone. -/
theorem State.startDown_boot {s : State} (hp : s.boot.phase ≠ Phase.reset) (hd : s.boot.downStep = none) :
    s.startDown.boot = { s.boot with
      powerGood := false, hostPowered := false
      downStep := if s.boot.upStep = 0 then none else some s.boot.upStep
      railsOff := if s.boot.upStep = 0 then [] else s.boot.railsOff } := by
  by_cases hu : s.boot.upStep = 0
  · have h := State.downDone_boot (s := s.setBoot fun b => { b with powerGood := false, hostPowered := false }) hp
    simp [State.startDown, hd, hu, h]
  · simp [State.startDown, hd, hu]

/-! ## Sequencing faults -/

/-- What a sequencing fault in POWERING has done to the bring-up state, the rails going down (R350). -/
def BootSt.sequencingFailed (b : BootSt) : BootSt :=
  { b with
    phase := Phase.failed, failReason := 2, powerGood := false, hostPowered := false
    downStep := if b.upStep = 0 then none else some b.upStep
    railsOff := if b.upStep = 0 then [] else b.railsOff }

theorem State.fail_sequencing_boot {s : State} (hd : s.boot.downStep = none) :
    (s.fail 2).boot = s.boot.sequencingFailed := by
  simp only [State.fail, if_true]
  rw [State.startDown_boot (by simp) (by simpa using hd)]
  simp [BootSt.sequencingFailed]

@[simp] theorem State.fail_flt (s : State) (reason : Nat) : (s.fail reason).flt = s.flt := by
  simp only [State.fail]
  split <;> simp

/-- A sequencing fault in POWERING, of a rail or of the check of R348, which names none. -/
theorem State.sequencingFault_boot {s : State} (rail : Option Nat) (hp : s.boot.phase = Phase.powering)
    (hd : s.boot.downStep = none) : (s.sequencingFault rail).boot = s.boot.sequencingFailed := by
  cases rail <;> simp only [State.sequencingFault, hp, ne_eq, not_true, if_false, State.report_boot]
  case none => exact State.fail_sequencing_boot hd
  case some r => exact State.fail_sequencing_boot (s := s.bump .pwrRailFault r) hd

/-- The sequencing fault is reported in the power source class, with its rail as the detail. -/
theorem State.sequencingFault_todo {s : State} (rail : Option Nat) (hp : s.boot.phase = Phase.powering) :
    (s.sequencingFault rail).flt.todo = s.flt.todo ++ [({ cls := 21, detail := rail.getD 0 }, false)] := by
  cases rail <;> simp [State.sequencingFault, hp]

/-! ## The check before step 1 -/

/-- The check of R348 as the sequencer makes it. -/
def powerUpOk (inlet : Int) (flow : Nat) (js : List (Nat × Int)) : Bool :=
  coolantOk inlet flow && js.all fun x => decide (x.2 ≤ 70 * 16)

theorem powerUpOk_iff (inlet : Int) (flow : Nat) (js : List (Nat × Int)) :
    powerUpOk inlet flow js = true ↔ 240 ≤ inlet ∧ inlet ≤ 720 ∧ 2000 ≤ flow ∧ ∀ x ∈ js, x.2 ≤ 1120 := by
  simp [powerUpOk, coolantOk, and_assoc]

/-- Outside RESET the right polarity is noted, and the phase stays. -/
theorem State.polarity_right_boot {s : State} (h : s.boot.phase ≠ Phase.reset) :
    (s.polarity false).boot = { s.boot with reversed := false } := by
  cases hr : s.boot.reversed
  · rw [show s.polarity false = s by simp [State.polarity, hr], ← hr]
  · simp [State.polarity, State.leaveReset, hr, h]

@[simp] theorem State.leaveReset_flt (s : State) : s.leaveReset.flt = s.flt := by
  unfold State.leaveReset
  split <;> rfl

@[simp] theorem State.polarity_flt (s : State) (reversed : Bool) : (s.polarity reversed).flt = s.flt := by
  unfold State.polarity
  split <;> simp

/-- The 44 V input is noted as qualified, with what the check gave. -/
def State.vinNoted (s : State) (ok : Bool) : State :=
  (s.polarity false).setBoot fun b => { b with vin := true, coolOk := ok }

theorem State.vinNoted_boot {s : State} (ok : Bool) (h : s.boot.phase ≠ Phase.reset) :
    (s.vinNoted ok).boot = { s.boot with reversed := false, vin := true, coolOk := ok } := by
  simp [State.vinNoted, State.polarity_right_boot h]

@[simp] theorem State.vinNoted_flt (s : State) (ok : Bool) : (s.vinNoted ok).flt = s.flt := by
  simp [State.vinNoted]

theorem State.vinQualified_of_aux {s : State} (ha : s.boot.aux = true) (inlet : Int) (flow : Nat) (js : List (Nat × Int)) :
    s.vinQualified inlet flow js = (s.vinNoted (powerUpOk inlet flow js)).qualify := by
  simp [State.vinQualified, ha, State.vinNoted, powerUpOk]

/-- POWERING is entered, with REFCLK there. -/
def State.poweringEntered (s : State) : State :=
  (s.setBoot fun b => { b with refclkMissing := false }).enter Phase.powering

@[simp] theorem State.poweringEntered_boot (s : State) :
    s.poweringEntered.boot = { s.boot with refclkMissing := false, phase := Phase.powering, failReason := 0 } := by
  simp [State.poweringEntered]

@[simp] theorem State.poweringEntered_flt (s : State) : s.poweringEntered.flt = s.flt := by
  simp [State.poweringEntered]

/-- STANDBY with both 44 V and REFCLK leads to POWERING, where a failed check is a sequencing fault. -/
theorem State.qualify_standby {s : State} (hp : s.boot.phase = Phase.standby) (hv : s.boot.vin = true)
    (hr : s.boot.refclk = true) (hd : s.boot.downStep = none) :
    s.qualify =
      if s.boot.coolOk = true then { s.poweringEntered with mgt := { s.poweringEntered.mgt with auxRails := true } }
      else s.poweringEntered.sequencingFault none := by
  have hcool : s.poweringEntered.boot.coolOk = s.boot.coolOk := by simp
  rw [← hcool]
  exact if_neg (by simp [hp, hv, hr, hd])

/-- With everything in range the qualified input leads to POWERING (R348). -/
theorem State.vinQualified_passed {s : State} {inlet : Int} {flow : Nat} {js : List (Nat × Int)}
    (hp : s.boot.phase = Phase.standby) (ha : s.boot.aux = true) (hr : s.boot.refclk = true) (hd : s.boot.downStep = none)
    (hok : powerUpOk inlet flow js = true) :
    (s.vinQualified inlet flow js).boot = { s.boot with
      reversed := false, vin := true, coolOk := true, refclkMissing := false, phase := Phase.powering, failReason := 0 } ∧
    (s.vinQualified inlet flow js).flt = s.flt := by
  have hb := State.vinNoted_boot (s := s) true (by rw [hp]; decide)
  rw [State.vinQualified_of_aux ha, hok, State.qualify_standby] <;> simp [hb, hp, hr, hd]

/-- A failed check in the qualified input is a sequencing fault, reported without a rail (R348, R350). -/
theorem State.vinQualified_failed {s : State} {inlet : Int} {flow : Nat} {js : List (Nat × Int)}
    (hp : s.boot.phase = Phase.standby) (ha : s.boot.aux = true) (hr : s.boot.refclk = true) (hd : s.boot.downStep = none)
    (hbad : powerUpOk inlet flow js = false) :
    (s.vinQualified inlet flow js).boot = BootSt.sequencingFailed { s.boot with
      reversed := false, vin := true, coolOk := false, refclkMissing := false, phase := Phase.powering, failReason := 0 } ∧
    (s.vinQualified inlet flow js).flt.todo = s.flt.todo ++ [({ cls := 21 }, false)] := by
  have hb := State.vinNoted_boot (s := s) false (by rw [hp]; decide)
  rw [State.vinQualified_of_aux ha, hbad, State.qualify_standby, if_neg, State.sequencingFault_boot,
    State.sequencingFault_todo] <;> simp [hb, hp, hr, hd]

/-! ## The rows -/

theorem leads_vinQualified (s : State) (inlet : Int) (flow : Nat) (js : List (Nat × Int)) :
    Leads s (.vinQualified inlet flow js) (s.vinQualified inlet flow js) := rfl

theorem leads_sequencingFault (s : State) {r : Nat} (h : r < 43) :
    Leads s (.sequencingFault r) (s.sequencingFault (some r)) := by
  have hexec : exec (.sequencingFault r) s = onUnit (railIn r) (s.sequencingFault (some r)).settle := rfl
  simp [Leads, hexec, onUnit, railIn, h]

theorem leads_downOrderStep (s : State) {k : Nat} (h1 : 1 ≤ k) (h11 : k ≤ 11) :
    Leads s (.downOrderStep k) (s.downOrderStep k) := by
  have hexec : exec (.downOrderStep k) s =
    onUnit (decide (1 ≤ k) && decide (k ≤ 11)) (s.downOrderStep k).settle := rfl
  simp [Leads, hexec, onUnit, h1, h11]

/-- Settles O9: a failed check and a bad rail end in the same sequencing fault, and the down order counts its steps to 1. -/
theorem powerUpIsChecked : Obligations.PowerUpIsChecked := by
  unfold Obligations.PowerUpIsChecked
  intro s
  refine ⟨fun inlet flow js hp ha hr hd => ?_, fun r h43 hp hd => ?_, fun k h2 h11 hk => ?_, fun h1 => ?_⟩
  · rw [← powerUpOk_iff]
    have hlead := leads_vinQualified s inlet flow js
    refine ⟨fun hok => ⟨_, hlead, ?_⟩, fun hbad => ⟨_, hlead, ?_⟩⟩
    · obtain ⟨hb, hf⟩ := State.vinQualified_passed hp ha hr hd hok
      rw [hb, hf]
      exact ⟨rfl, rfl, rfl, rfl⟩
    · obtain ⟨hb, hf⟩ := State.vinQualified_failed hp ha hr hd ((Bool.not_eq_true _).mp hbad)
      rw [hb, hf]
      exact ⟨rfl, rfl, rfl, rfl, rfl⟩
  · refine ⟨_, leads_sequencingFault s h43, ?_⟩
    rw [State.sequencingFault_boot _ hp hd, State.sequencingFault_todo _ hp]
    exact ⟨rfl, rfl, rfl, rfl, rfl, rfl⟩
  · have hstep : s.downOrderStep k = { s with boot := { s.boot with downStep := some (k - 1) } } := by
      simp [State.downOrderStep, hk, State.setBoot, show ¬ k ≤ 1 by omega]
    exact hstep ▸ leads_downOrderStep s (by omega) h11
  · have hstep : s.downOrderStep 1 = s.downDone := by simp [State.downOrderStep, h1]
    exact ⟨_, hstep ▸ leads_downOrderStep s (by decide) (by decide), s.downDone_rails⟩

end Sys2Proof.Machine
end

section
/-! What the pins do to the module: a module reset and the loss of AUX_3V3 keep the persistent storage, and RESET is left
where both pins allow it (R327, R346, R407, R428, R435). -/

namespace Sys2Proof.Machine

/-! ## The persistent storage -/

/-- What the persistent storage holds besides its log, which events and captures are written to. -/
def MgtSt.storage (m : MgtSt) : MgtSt :=
  { slotA := m.slotA, slotB := m.slotB, trial := m.trial, floor := m.floor, revoked := m.revoked, lanes := m.lanes,
    engines := m.engines, engineFaults := m.engineFaults, channels := m.channels, restores := m.restores }

/-- Equal storage is equal in what is retired and in what the fuses hold. -/
theorem MgtSt.storage_parts {m n : MgtSt} (h : m.storage = n.storage) :
    m.lanes = n.lanes ∧ m.engines = n.engines ∧ m.channels = n.channels ∧ m.floor = n.floor ∧ m.revoked = n.revoked :=
  ⟨(congrArg MgtSt.lanes h :), (congrArg MgtSt.engines h :), (congrArg MgtSt.channels h :), (congrArg MgtSt.floor h :),
    (congrArg MgtSt.revoked h :)⟩

@[simp] theorem State.logOnChip_storage (s : State) (e : Event) : (s.logOnChip e).mgt.storage = s.mgt.storage := by
  simp only [State.logOnChip]
  split <;> rfl

@[simp] theorem State.logPersist_storage (s : State) (e : Event) : (s.logPersist e).mgt.storage = s.mgt.storage := rfl

@[simp] theorem State.logPersistRated_storage (s : State) (e : Event) :
    (s.logPersistRated e).mgt.storage = s.mgt.storage := by
  unfold State.logPersistRated
  split
  · rfl
  · split <;> rfl

@[simp] theorem State.sendEvent_mgt (s : State) (e : Event) (m : Nat) : (s.sendEvent e m).mgt = s.mgt := by
  simp only [State.sendEvent]
  split
  · split <;> rfl
  · rfl

/-- An event writes nothing of the persistent storage but its log (R396). -/
@[simp] theorem State.event_storage (s : State) (severity source code : Nat) (data : List Byte) (status master : Nat) :
    (s.event severity source code data status master).mgt.storage = s.mgt.storage := by
  simp only [State.event]
  split
  · refine List.foldlRecOn (motive := fun (t : State) => t.mgt.storage = s.mgt.storage) _ _ ?_ fun t ht m _ => by simpa using ht
    rw [State.logPersistRated_storage, State.logOnChip_storage]
    rfl
  · rfl

theorem State.saveCaptures_boot_storage (s : State) :
    s.saveCaptures.boot = s.boot ∧ s.saveCaptures.mgt.storage = s.mgt.storage :=
  List.foldlRecOn (motive := fun (t : State) => t.boot = s.boot ∧ t.mgt.storage = s.mgt.storage) _ _ ⟨rfl, rfl⟩
    fun _ ht _ _ => ht

/-! ## RESET_N low -/

/-- With RESET_N low the end of the down order does not leave RESET. -/
theorem State.downDone_boot_of_resetN {s : State} (h : s.boot.resetN = false) :
    s.downDone.boot = { s.boot with downStep := none, upStep := 0, railsOff := [] } := by
  simp [State.downDone, h]

theorem State.downDone_memory_storage (s : State) :
    s.downDone.memory = s.memory ∧ s.downDone.mgt.storage = s.mgt.storage := by
  simp only [State.downDone]
  split <;> exact ⟨rfl, rfl⟩

/-- With RESET_N low the down order, begun or over at once, changes the rails and what they power and nothing else of the
bring-up state (R349). -/
theorem State.startDown_boot_of_resetN {s : State} (h : s.boot.resetN = false) :
    s.startDown.boot = { s.boot with
      powerGood := false, hostPowered := false, downStep := s.startDown.boot.downStep
      upStep := s.startDown.boot.upStep, railsOff := s.startDown.boot.railsOff } := by
  simp only [State.startDown]
  split
  · rfl
  · split
    · rw [State.downDone_boot_of_resetN (by exact h)]
      rfl
    · rfl

/-- Whether begun or over at once, the down order leaves the memory and the persistent storage. -/
theorem State.startDown_memory_storage (s : State) :
    s.startDown.memory = s.memory ∧ s.startDown.mgt.storage = s.mgt.storage := by
  simp only [State.startDown]
  split
  · exact ⟨rfl, rfl⟩
  · split
    · exact State.downDone_memory_storage _
    · exact ⟨rfl, rfl⟩

/-- What a module reset has left when the down order begins. -/
def State.moduleLost (s : State) (tripped : Bool) : State :=
  let t := (s.event 0 0x0C 0x0010 (leBytes 1 s.boot.phase)).saveCaptures.withoutModule
  { t with flt := { t.flt with tripped := tripped } }

theorem State.moduleReset_eq (s : State) (tripped : Bool) : s.moduleReset tripped = (s.moduleLost tripped).startDown := rfl

/-- The captures and the change of phase are logged before anything is lost: the bring-up state left is that of `s`. -/
theorem State.moduleLost_boot (s : State) (tripped : Bool) : (s.moduleLost tripped).boot = s.withoutModule.boot := by
  simp [State.moduleLost, State.withoutModule, State.saveCaptures_boot_storage]

theorem State.withoutModule_storage (s : State) : s.withoutModule.mgt.storage = s.mgt.storage := rfl

theorem State.moduleLost_storage (s : State) (tripped : Bool) : (s.moduleLost tripped).mgt.storage = s.mgt.storage := by
  simp [State.moduleLost, State.withoutModule_storage, State.saveCaptures_boot_storage]

/-- A module reset empties the memory and keeps the persistent storage (Table 14.5). -/
theorem State.moduleReset_memory_storage (s : State) (tripped : Bool) :
    (s.moduleReset tripped).memory = ([], []) ∧ (s.moduleReset tripped).mgt.storage = s.mgt.storage := by
  obtain ⟨hmem, hstore⟩ := State.startDown_memory_storage (s.moduleLost tripped)
  exact ⟨hmem, hstore.trans (s.moduleLost_storage tripped)⟩

/-- With RESET_N low a module reset leaves the module in RESET, powered down, with its epoch (R337, R435). -/
theorem State.moduleReset_boot_of_resetN {s : State} (tripped : Bool) (h : s.boot.resetN = false) :
    (s.moduleReset tripped).boot = { s.withoutModule.boot with
      powerGood := false, hostPowered := false, downStep := (s.moduleReset tripped).boot.downStep
      upStep := (s.moduleReset tripped).boot.upStep, railsOff := (s.moduleReset tripped).boot.railsOff } := by
  have hb := State.moduleLost_boot s tripped
  have hd := State.startDown_boot_of_resetN (s := s.moduleLost tripped) (by rw [hb]; exact h)
  rwa [hb] at hd

/-! ## The release of RESET, and the test port -/

/-- RESET is left for BOOT where both pins allow it, the polarity is right and no down order runs (R327, R428). -/
theorem State.leaveReset_eq (s : State) :
    s.leaveReset = { s with boot := { s.boot with
      phase := if s.boot.phase = Phase.reset ∧ s.boot.resetN = true ∧ s.boot.aux = true ∧ s.boot.reversed = false ∧
          s.boot.downStep = none then Phase.boot else s.boot.phase } } := by
  simp only [State.leaveReset, Bool.not_eq_true, Option.isNone_iff_eq_none]
  split <;> rfl

/-- An instruction that is not loaded leaves the one in force (R407). -/
theorem State.tapLoad_eq (s : State) (code : Nat) :
    s.tapLoad code = { s with boot := { s.boot with
      tap := if code < 3 ∨ (code = 3 ∧ s.boot.resetN = false) then code else s.boot.tap } } := by
  simp only [State.tapLoad, Bool.not_eq_true]
  split <;> rfl

/-- Settles O12: RESET_N low is a module reset that the low pin holds in RESET; AUX loss keeps what is stored. -/
theorem pinsResetTheModule : Obligations.PinsResetTheModule := by
  unfold Obligations.PinsResetTheModule
  intro s
  refine ⟨⟨s.resetLow, rfl, ?_⟩, ⟨s.auxDown, rfl, ?_⟩, ?_, ?_, fun code => ?_⟩
  · have hboot := State.moduleReset_boot_of_resetN (s := s.setBoot fun b => { b with resetN := false }) false rfl
    obtain ⟨hmem, hstore⟩ := State.moduleReset_memory_storage (s.setBoot fun b => { b with resetN := false }) false
    have hpending : s.resetLow.pending = s.pending := (State.resetLow_keeps s s (Keeps.rfl' s)).1
    exact ⟨(congrArg BootSt.phase hboot :), (congrArg BootSt.resetN hboot :), (congrArg BootSt.powerGood hboot :),
      (congrArg BootSt.hostPowered hboot :), hmem, hpending, (congrArg BootSt.epoch hboot :),
      MgtSt.storage_parts hstore⟩
  · exact ⟨rfl, rfl, rfl, rfl, rfl, rfl, rfl, rfl, rfl, MgtSt.storage_parts s.withoutModule_storage⟩
  · have hexec : exec .resetNHigh s = .next s.resetHigh := rfl
    rw [hexec, State.resetHigh, State.leaveReset_eq]
    simp [State.setBoot]
  · have hexec : exec .aux3v3InRange s = .next s.auxUp := rfl
    rw [hexec, State.auxUp, State.leaveReset_eq]
    simp [State.setBoot]
  · have hexec : exec (.tapInstruction code) s = .next (s.tapLoad code) := rfl
    rw [hexec, State.tapLoad_eq]

end Sys2Proof.Machine
end

section

-- One declaration after another: elaborated side by side, they take more threads than the check allows.
set_option Elab.async false

/-! What every row of the table does, whatever the command: its outcome is a next state but for an event of a unit that is not
there, and the next state has the same commands waiting and a memory in canonical form. -/

namespace Sys2Proof.Machine

open Sys2Proof (Instr)

theorem Keeps.ite {z a b : State} {c : Prop} [Decidable c] (ha : Keeps z a) (hb : Keeps z b) :
    Keeps z (if c then a else b) := by split <;> assumption

theorem onUnit_true {ok : Bool} (h : ok = true) (s : State) : onUnit ok s = .next s := by simp [onUnit, h]

theorem onUnit_false {ok : Bool} (h : ok = false) (s : State) : onUnit ok s = .fault .noSuchUnit := by simp [onUnit, h]

/-- A row leads to one state where its units exist, and that state keeps the queue and the memory's form. -/
theorem exec_row (c : Instr) (s : State) : ∃ t, exec c s = onUnit (s.hasUnits c) t ∧ Keeps s t := by
  have hs := Keeps.rfl' s
  cases c
  case losAssert | lolAssert => exact ⟨_, rfl, State.settle_keeps _ _ (State.laneLoss_keeps _ _ _ _ hs)⟩
  case losClear | lolClear => exact ⟨_, rfl, State.settle_keeps _ _ (State.laneGain_keeps _ _ _ _ hs)⟩
  case detectLightQualified => exact ⟨_, rfl, State.settle_keeps _ _ (State.lightSeen_keeps _ _ _ hs)⟩
  case trainComplete =>
    exact ⟨_, rfl, State.settle_keeps _ _ (State.inPort_keeps _ _ _ _ _ hs fun _ hs => State.portState_keeps _ _ _ _
    hs)⟩
  case trainTimeout | lockTimeout =>
    exact ⟨_, rfl, State.settle_keeps _ _ (State.inPort_keeps _ _ _ _ _ hs fun _ hs => State.failAttempt_keeps _ _ _
    hs)⟩
  case lockAchieved => exact ⟨_, rfl, State.settle_keeps _ _ (State.lockReached_keeps _ _ _ hs)⟩
  case capabilitySet => exact ⟨_, rfl, State.settle_keeps _ _ (State.hearCaps_keeps _ _ _ _ _ _ hs)⟩
  case exchangeTimeout => exact ⟨_, rfl, State.settle_keeps _ _ (State.exchangeOver_keeps _ _ _ hs)⟩
  case widthRequest => exact ⟨_, rfl, State.settle_keeps _ _ (State.answerStep_keeps _ _ _ _ hs)⟩
  case widthAck => exact ⟨_, rfl, State.settle_keeps _ _ (State.stepAcked_keeps _ _ _ _ _ hs)⟩
  case widthStepSwitch => exact ⟨_, rfl, State.settle_keeps _ _ (State.stepSwitch_keeps _ _ _ hs)⟩
  case widthMarker => exact ⟨_, rfl, State.settle_keeps _ _ (State.stepMarker_keeps _ _ _ hs)⟩
  case widthAckTimeout => exact ⟨_, rfl, State.settle_keeps _ _ (State.stepUnanswered_keeps _ _ _ hs)⟩
  case laneRestoreHoldElapsed => exact ⟨_, rfl, State.settle_keeps _ _ (State.laneReturns_keeps _ _ _ hs)⟩
  case laneAutoRetire => exact ⟨_, rfl, State.settle_keeps _ _ (State.autoRetire_keeps _ _ _ hs)⟩
  case retirementWindowEnd => exact ⟨_, rfl, State.settle_keeps _ _ (State.windowEnd_keeps _ _ hs)⟩
  case creditUpdate => exact ⟨_, rfl, State.settle_keeps _ _ (State.creditUpdate_keeps _ _ _ _ hs)⟩
  case spareLaserSwitched => exact ⟨_, rfl, State.settle_keeps _ _ (State.spareOn_keeps _ _ _ hs)⟩
  case lsmLatchOpen => exact ⟨_, rfl, State.settle_keeps _ _ (State.latchOpened_keeps _ _ _ hs)⟩
  case laneTestEnd => exact ⟨_, rfl, State.settle_keeps _ _ (State.laneTestOver_keeps _ _ _ hs)⟩
  case tickBoundary => exact ⟨_, rfl, State.settle_keeps _ _ (State.boundary_keeps _ _ _ hs)⟩
  case tsosReceived => exact ⟨_, rfl, State.settle_keeps _ _ (State.tsosHeard_keeps _ _ _ _ _ _ _ _ _ hs)⟩
  case commandAged => exact ⟨_, rfl, State.settle_keeps _ _ (State.aged_keeps _ _ _ _ hs)⟩
  case drainTimeout => exact ⟨_, rfl, State.settle_keeps _ _ (State.drainTimeout_keeps _ _ _ _ hs)⟩
  case laserSample =>
    exact ⟨_, rfl, State.settle_keeps _ _ (Keeps.foldl hs fun _ _ hs => State.laserRead_keeps _ _ _ hs)⟩
  case lsmLatchClose => exact ⟨_, rfl, Keeps.ite (State.settle_keeps _ _ (State.lsmClosed_keeps _ _ _ _ _ hs)) hs⟩
  case lsmLasersLit => exact ⟨_, rfl, Keeps.ite (State.settle_keeps _ _ (State.lsmLit_keeps _ _ _ hs)) hs⟩
  case lsmReleaseDrained => exact ⟨_, rfl, Keeps.ite (State.settle_keeps _ _ (State.lsmReleased_keeps _ _ _ hs)) hs⟩
  case effectiveTickReached => exact ⟨_, rfl, Keeps.ite (State.settle_keeps _ _ (State.tickReached_keeps _ _ hs)) hs⟩
  case announceTimer => exact ⟨_, rfl, Keeps.ite (State.settle_keeps _ _ (State.announcePeriodic_keeps _ _ hs)) hs⟩
  case joinTimeout | holdLimitExpired =>
    exact ⟨_, rfl, Keeps.ite (State.settle_keeps _ _ (State.unsync_keeps _ _ _ hs)) hs⟩
  case rootSeqStale => exact ⟨_, rfl, Keeps.ite (State.settle_keeps _ _ (State.reRoot_keeps _ _ hs)) hs⟩
  case tileResetComplete => exact ⟨_, rfl, Keeps.ite (State.settle_keeps _ _ (State.startTile_keeps _ _ _ _ hs)) hs⟩
  case jobEndComplete => exact ⟨_, rfl, Keeps.ite (State.settle_keeps _ _ (State.jobEnded_keeps _ _ _ hs)) hs⟩
  case funcDisableDrained => exact ⟨_, rfl, Keeps.ite (State.settle_keeps _ _ (State.setDisable_keeps _ _ _ _ _ hs)) hs⟩
  case pendingLimitExpired => exact ⟨_, rfl, Keeps.ite (State.settle_keeps _ _ (State.pendingExpired_keeps _ _ hs)) hs⟩
  case poweringTimeout => exact ⟨_, rfl, Keeps.ite (State.settle_keeps _ _ (State.fail_keeps _ _ _ hs)) hs⟩
  case safeStateDpReset => exact ⟨_, rfl, Keeps.ite (State.settle_keeps _ _ (State.dataPlaneReset_keeps _ _ hs)) hs⟩
  case mgtWatchdogExpired => exact ⟨_, rfl, Keeps.ite (State.settle_keeps _ _ (State.faultRaised_keeps _ _ _ hs)) hs⟩
  case moduleResetShutdown | safeStateModuleReset => exact ⟨_, rfl, Keeps.ite (State.moduleReset_keeps _ _ _ hs) hs⟩
  case bootTimeout => exact ⟨_, rfl, Keeps.ite (State.setBoot_keeps _ _ _ hs) hs⟩
  case mgmt => exact ⟨_, rfl, Keeps.ite hs (State.settle_keeps _ _ (State.mgmtFrame_keeps _ _ _ hs))⟩
  case tickAnnounce =>
    exact ⟨_, rfl, Keeps.ite hs (State.settle_keeps _ _ (State.inPort_keeps _ _ _ _ _ hs fun _ hs =>
    State.tickHear_keeps _ _ _ _ (State.takeLocal_keeps _ _ _ _ _ hs)))⟩
  case parentLost =>
    exact ⟨_, rfl, State.settle_keeps _ _ (State.announceChange_keeps _ _ (State.tickReview_keeps _ _ hs))⟩
  case doorbell => exact ⟨_, rfl, State.doorbell_keeps _ _ _ _ _ _ _ hs⟩
  case mailboxSend => exact ⟨_, rfl, State.mailboxSend_keeps _ _ _ _ _ _ hs⟩
  case hostRdmaAccess => exact ⟨_, rfl, State.rdmaAccess_keeps _ _ _ _ _ _ _ hs⟩
  case sidebandSlotWrite => exact ⟨_, rfl, State.sideWrite_keeps _ _ _ hs⟩
  case sidebandStatusRead => exact ⟨_, rfl, State.sideStatus_keeps _ _ hs⟩
  case dynamicAddressAssignment => exact ⟨_, rfl, State.assignAddress_keeps _ _ _ hs⟩
  case hostFrameReceived => exact ⟨_, rfl, State.hostFrame_keeps _ _ _ _ hs⟩
  case cnpReceived | rateRecoveryTimer | qpRetryExhausted => exact ⟨_, rfl, State.setQp_keeps _ _ _ _ hs⟩
  case localAckTimeout => exact ⟨_, rfl, State.ackTimeout_keeps _ _ _ hs⟩
  case hostPortLinkChange => exact ⟨_, rfl, State.hostLink_keeps _ _ _ _ hs⟩
  case auxLoss => exact ⟨_, rfl, State.auxDown_keeps _ _ hs⟩
  case aux3v3InRange => exact ⟨_, rfl, State.auxUp_keeps _ _ hs⟩
  case resetNLow => exact ⟨_, rfl, State.resetLow_keeps _ _ hs⟩
  case resetNHigh => exact ⟨_, rfl, State.resetHigh_keeps _ _ hs⟩
  case tapInstruction => exact ⟨_, rfl, State.tapLoad_keeps _ _ _ hs⟩
  case hello | helloReply =>
    exact ⟨_, rfl, State.linkLocal_keeps _ _ _ _ _ hs fun _ hs => State.summaryCheck_keeps _ _ (State.helloHear_keeps _
    _ _ _ _ hs)⟩
  case helloNoReplyTimeout =>
    exact ⟨_, rfl, State.data_keeps _ _ _ hs fun _ hs => State.inPort_keeps _ _ _ _ _ hs fun _ hs => State.noReply_keeps
    _ _ _ hs⟩
  case linkState =>
    exact ⟨_, rfl, State.linkLocal_keeps _ _ _ _ _ hs fun _ hs => State.peerReports_keeps _ _ _ _ (State.linkState_keeps
    _ _ _ _ hs)⟩
  case digest =>
    exact ⟨_, rfl, State.linkLocal_keeps _ _ _ _ _ hs fun _ hs => State.peerReports_keeps _ _ _ _
    (State.digestHear_keeps _ _ _ _ hs)⟩
  case digestTimer =>
    exact ⟨_, rfl, State.data_keeps _ _ _ hs fun _ hs => Keeps.ite (State.sendDigests_keeps _ _ hs) hs⟩
  case groupSetup => exact ⟨_, rfl, State.deliverTo_keeps _ _ _ _ hs fun _ hs => State.groupFrame_keeps _ _ _ hs⟩
  case ack => exact ⟨_, rfl, State.deliverTo_keeps _ _ _ _ hs fun _ hs => State.settleAck_keeps _ _ _ _ hs⟩
  case fence => exact ⟨_, rfl, State.deliverTo_keeps _ _ _ _ hs fun _ hs => State.fence_keeps _ _ _ hs⟩
  case barrierArrive => exact ⟨_, rfl, State.deliverTo_keeps _ _ _ _ hs fun _ hs => State.barrierArrive_keeps _ _ _ hs⟩
  case collData => exact ⟨_, rfl, State.deliverTo_keeps _ _ _ _ hs fun _ hs => State.rootGather_keeps _ _ _ hs⟩
  case collAbortFrame => exact ⟨_, rfl, State.deliverTo_keeps _ _ _ _ hs fun _ hs => State.abortFrame_keeps _ _ _ hs⟩
  case weightFetch => exact ⟨_, rfl, State.deliverTo_keeps _ _ _ _ hs fun _ hs => State.weightFetch_keeps _ _ _ hs⟩
  case versionRelease =>
    exact ⟨_, rfl, State.deliverTo_keeps _ _ _ _ hs fun _ hs => State.versionRelease_keeps _ _ _ hs⟩
  case stashPut => exact ⟨_, rfl, State.deliverTo_keeps _ _ _ _ hs fun _ hs => State.stashPut_keeps _ _ _ hs⟩
  case stashGet => exact ⟨_, rfl, State.deliverTo_keeps _ _ _ _ hs fun _ hs => State.stashGet_keeps _ _ _ hs⟩
  case stashDrop => exact ⟨_, rfl, State.deliverTo_keeps _ _ _ _ hs fun _ hs => State.stashDrop_keeps _ _ _ hs⟩
  case stozilOp => exact ⟨_, rfl, State.deliverTo_keeps _ _ _ _ hs fun _ hs => State.stozilFrame_keeps _ _ _ hs⟩
  case engJobIn => exact ⟨_, rfl, State.deliverTo_keeps _ _ _ _ hs fun _ hs => State.jobIn_keeps _ _ _ hs⟩
  case frameHeaderReceived =>
    exact ⟨_, rfl, State.data_keeps _ _ _ hs fun _ hs => State.headerReceived_keeps _ _ _ _ _ _ _ hs⟩
  case frameEndReceived => exact ⟨_, rfl, State.data_keeps _ _ _ hs fun _ hs => State.lastUnit_keeps _ _ _ _ _ _ hs⟩
  case frameTransmitted => exact ⟨_, rfl, State.data_keeps _ _ _ hs fun _ hs => State.transmit_keeps _ _ _ _ _ hs⟩
  case retransmitTimeout => exact ⟨_, rfl, State.data_keeps _ _ _ hs fun _ hs => State.retransmit_keeps _ _ _ _ hs⟩
  case settRequest | settRelease =>
    exact ⟨_, rfl, State.data_keeps _ _ _ hs fun _ hs => State.arbitrate_keeps _ _ _ _ hs⟩
  case barrierMemberTimeout => exact ⟨_, rfl, State.data_keeps _ _ _ hs fun _ hs => State.barrierTimeout_keeps _ _ _ hs⟩
  case redContrib | redPartial => exact ⟨_, rfl, State.data_keeps _ _ _ hs fun _ hs => State.reduction_keeps _ _ _ hs⟩
  case benchSeal => exact ⟨_, rfl, State.data_keeps _ _ _ hs fun _ hs => State.sealBench_keeps _ _ _ _ _ hs⟩
  case memberIdleTimeout => exact ⟨_, rfl, State.data_keeps _ _ _ hs fun _ hs => State.memberIdle_keeps _ _ _ hs⟩
  case nextStepOpen => exact ⟨_, rfl, State.data_keeps _ _ _ hs fun _ hs => State.nextStep_keeps _ _ _ _ hs⟩
  case pieceCommit => exact ⟨_, rfl, State.data_keeps _ _ _ hs fun _ hs => State.pieceCommit_keeps _ _ _ _ _ hs⟩
  case pieceRetry => exact ⟨_, rfl, State.data_keeps _ _ _ hs fun _ hs => State.offerPieces_keeps _ _ hs⟩
  case holdWaitEnd | updateStart =>
    exact ⟨_, rfl, State.data_keeps _ _ _ hs fun _ hs => State.updateFrom_keeps _ _ _ _ _ hs⟩
  case holdTimeout => exact ⟨_, rfl, State.data_keeps _ _ _ hs fun _ hs => State.holdExpired_keeps _ _ _ _ hs⟩
  case putTimeout => exact ⟨_, rfl, State.data_keeps _ _ _ hs fun _ hs => State.putTimeout_keeps _ _ _ _ _ hs⟩
  case stashReleaseDrainTimeout =>
    exact ⟨_, rfl, State.data_keeps _ _ _ hs fun _ hs => State.stashDrained_keeps _ _ _ hs⟩
  case tickJobComplete => exact ⟨_, rfl, State.data_keeps _ _ _ hs fun _ hs => State.engineJobDone_keeps _ _ _ _ hs⟩
  case engineTestStart => exact ⟨_, rfl, State.data_keeps _ _ _ hs fun _ hs => State.testTurn_keeps _ _ _ hs⟩
  case engineTestComplete => exact ⟨_, rfl, State.data_keeps _ _ _ hs fun _ hs => State.testEnd_keeps _ _ _ _ hs⟩
  case ncuKernelStepComplete => exact ⟨_, rfl, State.data_keeps _ _ _ hs fun _ hs => State.kernelStep_keeps _ _ _ _ hs⟩
  case assignmentPoint =>
    exact ⟨_, rfl, State.data_keeps _ _ _ hs fun _ hs => State.issueMore_keeps _ _ (State.assignmentPoint_keeps _ _ hs)⟩
  case estimateDisagreeLimit => exact ⟨_, rfl, State.settle_keeps _ _ (State.distrust_keeps _ _ hs)⟩
  case estimateRetrust => exact ⟨_, rfl, State.settle_keeps _ _ (State.retrust_keeps _ _ hs)⟩
  case droopAssert => exact ⟨_, rfl, State.settle_keeps _ _ (State.droopOn_keeps _ _ _ hs)⟩
  case droopClear => exact ⟨_, rfl, State.settle_keeps _ _ (State.droopOff_keeps _ _ _ hs)⟩
  case slewComplete => exact ⟨_, rfl, State.settle_keeps _ _ (State.slewComplete_keeps _ _ _ hs)⟩
  case freqSwitch => exact ⟨_, rfl, State.settle_keeps _ _ (State.freqSwitch_keeps _ _ _ hs)⟩
  case demandRaiseRelease => exact ⟨_, rfl, State.settle_keeps _ _ (State.demandRelease_keeps _ _ _ hs)⟩
  case thermalSample => exact ⟨_, rfl, State.settle_keeps _ _ (State.thermalSample_keeps _ _ _ hs)⟩
  case thermalPointStep => exact ⟨_, rfl, State.settle_keeps _ _ (State.thermalStep_keeps _ _ _ hs)⟩
  case thermalTrip => exact ⟨_, rfl, State.settle_keeps _ _ (State.thermalTrip_keeps _ _ _ hs)⟩
  case coolantOutOfRange => exact ⟨_, rfl, State.settle_keeps _ _ (State.coolantHold_keeps _ _ _ _ hs)⟩
  case coolantHoldRelease => exact ⟨_, rfl, State.settle_keeps _ _ (State.coolantRelease_keeps _ _ _ _ hs)⟩
  case powerControlInternalPeriod => exact ⟨_, rfl, State.settle_keeps _ _ (State.powerPeriod_keeps _ _ _ hs)⟩
  case vinQualified => exact ⟨_, rfl, State.settle_keeps _ _ (State.vinQualified_keeps _ _ _ _ _ hs)⟩
  case railStepGood => exact ⟨_, rfl, State.settle_keeps _ _ (State.railStepGood_keeps _ _ _ hs)⟩
  case sequencingFault => exact ⟨_, rfl, State.settle_keeps _ _ (State.sequencingFault_keeps _ _ _ hs)⟩
  case railFault => exact ⟨_, rfl, State.settle_keeps _ _ (State.railFault_keeps _ _ _ hs)⟩
  case inputUndervoltage => exact ⟨_, rfl, State.settle_keeps _ _ (State.inputLost_keeps _ _ _ _ hs)⟩
  case downOrderStep => exact ⟨_, rfl, State.settle_keeps _ _ (State.downOrderStep_keeps _ _ _ hs)⟩
  case bootImageChecked => exact ⟨_, rfl, State.settle_keeps _ _ (State.bootChecked_keeps _ _ _ hs)⟩
  case memoryPhaseDone => exact ⟨_, rfl, State.settle_keeps _ _ (State.memoryDone_keeps _ _ _ _ _ hs)⟩
  case dualRailStuck => exact ⟨_, rfl, State.settle_keeps _ _ (State.faultRaised_keeps _ _ _ hs)⟩
  case injectionRound => exact ⟨_, rfl, State.settle_keeps _ _ (State.injectionRound_keeps _ _ hs)⟩
  case injectionNotSeen => exact ⟨_, rfl, State.settle_keeps _ _ (State.injectionMissed_keeps _ _ _ hs)⟩
  case fltInjectTimeout => exact ⟨_, rfl, State.settle_keeps _ _ (State.injectTimeout_keeps _ _ hs)⟩
  case mcMarchDone => exact ⟨_, rfl, State.settle_keeps _ _ (State.marchDone_keeps _ _ _ _ hs)⟩
  case channelMigrationDone => exact ⟨_, rfl, State.settle_keeps _ _ (State.migrationDone_keeps _ _ _ _ hs)⟩
  case headlessTimeout => exact ⟨_, rfl, State.settle_keeps _ _ (State.headlessOver_keeps _ _ hs)⟩
  case sensorSample => exact ⟨_, rfl, State.settle_keeps _ _ (State.sensorSample_keeps _ _ _ hs)⟩
  case inputExcursion =>
    exact ⟨_, rfl, State.settle_keeps _ _ (State.inputLost_keeps _ _ _ _ (State.polarity_keeps _ _ _ hs))⟩
  case refclkPresent => exact ⟨_, rfl, State.settle_keeps _ _ (State.qualify_keeps _ _ (State.setBoot_keeps _ _ _ hs))⟩
  case faultRaised =>
    exact ⟨_, rfl, State.settle_keeps _ _ (State.faultRaised_keeps _ _ _ (State.slotSpoiled_keeps _ _ _ hs))⟩
  all_goals exact ⟨_, rfl, State.submit_keeps _ _ _ _ hs⟩

/-- Whatever the command, a next state has the same commands waiting and a memory in canonical form if there was one. -/
theorem exec_keeps {c : Instr} {s t : State} (h : exec c s = .next t) : Keeps s t := by
  obtain ⟨u, hu, hk⟩ := exec_row c s
  rw [hu] at h
  cases hunits : s.hasUnits c with
  | true => rw [onUnit_true hunits] at h; exact Host.Outcome.next.inj h ▸ hk
  | false => rw [onUnit_false hunits] at h; cases h

theorem step_cons {s : State} {c : Instr} {cs : List Instr} (h : s.pending = c :: cs) :
    Sys2Proof.Machine.step s = exec c { s with pending := cs } := by simp only [Sys2Proof.Machine.step, h]

theorem step_nil {s : State} (h : s.pending = []) : Sys2Proof.Machine.step s = .next s := by
  simp only [Sys2Proof.Machine.step, h]

/-- Settles O7: an idle step changes nothing, and every row keeps the form. -/
theorem memoryStaysCanonical : Obligations.MemoryStaysCanonical := by
  unfold Obligations.MemoryStaysCanonical
  intro s t hwf hstep
  cases hq : s.pending with
  | nil => rw [step_nil hq] at hstep; exact Host.Outcome.next.inj hstep ▸ hwf
  | cons c cs => rw [step_cons hq] at hstep; exact (exec_keeps hstep).2 hwf

/-- Settles O8: the row runs on the state with the queue's rest, and keeps it. -/
theorem queueIsServedInOrder : Obligations.QueueIsServedInOrder := by
  unfold Obligations.QueueIsServedInOrder
  intro s t c cs hq hstep
  rw [step_cons hq] at hstep
  exact (exec_keeps hstep).1

/-- Settles O3: the one state that a row leads to is its next state exactly where the units exist. -/
theorem outcomesAreNamed : Obligations.OutcomesAreNamed := by
  unfold Obligations.OutcomesAreNamed
  intro c s
  obtain ⟨t, ht, -⟩ := exec_row c s
  exact ⟨fun h => ⟨t, ht.trans (onUnit_true h t)⟩, fun h => ht.trans (onUnit_false h t)⟩

/-- Settles O1. -/
theorem stepTakesTheFront : Obligations.StepTakesTheFront := by
  unfold Obligations.StepTakesTheFront
  intro c cs s
  exact ⟨step_cons rfl, step_nil rfl⟩

end Sys2Proof.Machine
end

section

-- One declaration after another: elaborated side by side, they take more threads than the check allows.
set_option Elab.async false

/-! The register map: an address and the register word it finds determine each other (R10, R325). -/

namespace Sys2Proof.Machine

/-- The words of the registers in a list. -/
def wordsIn (l : List Reg) : Nat := (l.map fun r => r.info.count).sum

/-- The place of a word of a listed register finds it. -/
theorem findReg_regOffset {l : List Reg} {r : Reg} {i : Nat} (hr : r ∈ l) (hi : i < r.info.count) :
    findReg l (regOffset l r + i) = some (r, i) := by
  induction l with
  | nil => cases hr
  | cons x l ih =>
    by_cases hx : x = r
    · subst hx; simp [findReg, regOffset, hi]
    · have hl : r ∈ l := (List.mem_cons.1 hr).resolve_left (Ne.symm hx)
      have hrest : x.info.count + regOffset l r + i - x.info.count = regOffset l r + i := by omega
      simp [findReg, regOffset, hx, Nat.add_assoc, ← ih hl]

/-- What is found at a place is listed, and its word has that place. -/
theorem regOffset_of_findReg {l : List Reg} {w i : Nat} {r : Reg} (hl : l.Nodup) (h : findReg l w = some (r, i)) :
    r ∈ l ∧ regOffset l r + i = w ∧ i < r.info.count := by
  induction l generalizing w with
  | nil => cases h
  | cons x l ih =>
    obtain ⟨hx, hl⟩ := List.nodup_cons.1 hl
    unfold findReg at h
    split at h
    · rename_i hw
      obtain ⟨rfl, rfl⟩ := Prod.mk.inj (Option.some.inj h)
      simp [regOffset, hw]
    · obtain ⟨hr, hoff, hi⟩ := ih hl h
      have hne : x ≠ r := fun e => hx (e ▸ hr)
      exact ⟨List.mem_cons_of_mem x hr, by simp only [regOffset, hne, if_false]; omega, hi⟩

/-- Places stay below the number of words. -/
theorem regOffset_lt_wordsIn {l : List Reg} {r : Reg} {i : Nat} (hr : r ∈ l) (hi : i < r.info.count) :
    regOffset l r + i < wordsIn l := by
  induction l with
  | nil => cases hr
  | cons x l ih =>
    by_cases hx : x = r
    · subst hx; simp [regOffset, wordsIn]; omega
    · have h := ih ((List.mem_cons.1 hr).resolve_left (Ne.symm hx))
      simp only [regOffset, hx, if_false, wordsIn, List.map_cons, List.sum_cons] at h ⊢
      omega

theorem Reg.mem_all (r : Reg) : r ∈ Reg.all := by cases r <;> decide

theorem Reg.all_nodup : Reg.all.Nodup := List.Nodup.of_map Reg.ctorIdx (by decide +kernel)

/-- A window has room for every register that there is. -/
theorem wordsIn_all : wordsIn Reg.all ≤ 2 ^ 21 := by decide +kernel

/-- The registers of one window. -/
def windowRegs (w : Nat) : List Reg := Reg.all.filter fun r => r.info.window == w

theorem mem_windowRegs {r : Reg} {w : Nat} : r ∈ windowRegs w ↔ r.info.window = w := by
  simp [windowRegs, Reg.mem_all]

theorem windowRegs_nodup (w : Nat) : (windowRegs w).Nodup := Reg.all_nodup.filter _

theorem wordsIn_windowRegs (w : Nat) : wordsIn (windowRegs w) ≤ 2 ^ 21 :=
  le_trans ((List.filter_sublist.map _).sum_le_sum fun _ _ => Nat.zero_le _) wordsIn_all

theorem regAddr_eq (r : Reg) (i : Nat) :
    regAddr r i = regSpace + r.info.window * 2 ^ 24 + 8 * (regOffset (windowRegs r.info.window) r + i) := rfl

theorem regAt_eq (a : Nat) : regAt a = if a < regSpace ∨ a % 8 ≠ 0 then none else
    findReg (windowRegs ((a - regSpace) / 2 ^ 24)) ((a - regSpace) % 2 ^ 24 / 8) := rfl

/-- The address of a word finds it. -/
theorem regAt_regAddr {r : Reg} {i : Nat} (hi : i < r.info.count) : regAt (regAddr r i) = some (r, i) := by
  have hr : r ∈ windowRegs r.info.window := mem_windowRegs.2 rfl
  have hlt := lt_of_lt_of_le (regOffset_lt_wordsIn hr hi) (wordsIn_windowRegs r.info.window)
  have hfind := findReg_regOffset hr hi
  rw [regAddr_eq]
  generalize regOffset (windowRegs r.info.window) r + i = o at hlt hfind ⊢
  rw [regAt_eq, if_neg (by unfold regSpace; omega)]
  have hw : (regSpace + r.info.window * 2 ^ 24 + 8 * o - regSpace) / 2 ^ 24 = r.info.window := by omega
  have ho : (regSpace + r.info.window * 2 ^ 24 + 8 * o - regSpace) % 2 ^ 24 / 8 = o := by omega
  rw [hw, ho, hfind]

/-- An address finds the word whose address it is. -/
theorem regAddr_of_regAt {a i : Nat} {r : Reg} (h : regAt a = some (r, i)) : regAddr r i = a ∧ i < r.info.count := by
  rw [regAt_eq] at h
  split at h
  · cases h
  · obtain ⟨hr, ho, hi⟩ := regOffset_of_findReg (windowRegs_nodup _) h
    rw [regAddr_eq, mem_windowRegs.1 hr, ho]
    exact ⟨by unfold regSpace at *; omega, hi⟩

/-- Settles O45. -/
theorem registerAddressesAgree : Obligations.RegisterAddressesAgree := by
  unfold Obligations.RegisterAddressesAgree
  exact ⟨fun r i hi => regAt_regAddr hi, fun a r i h => regAddr_of_regAt h⟩

end Sys2Proof.Machine
end

section
/-! The state after reset, what memory reads, and what stops in the safe state (R10, R327, R339, R374, R375). -/

namespace Sys2Proof

namespace NMap

/-- Two maps in canonical form that hold the same values are equal. -/
theorem Rising.ext {α : Type} {m n : NMap α} (hm : m.Rising) (hn : n.Rising) (h : ∀ k, get? m k = get? n k) : m = n := by
  induction m generalizing n with
  | nil =>
    cases n with
    | nil => rfl
    | cons y n => have := h y.1; simp [get?] at this
  | cons x m ih =>
    cases n with
    | nil => have := h x.1; simp [get?] at this
    | cons y n =>
      obtain ⟨k, v⟩ := x
      obtain ⟨k', v'⟩ := y
      simp only [Rising, List.map_cons, List.pairwise_cons, List.mem_map, forall_exists_index, and_imp,
        forall_apply_eq_imp_iff₂] at hm hn
      obtain ⟨hkm, hm⟩ := hm
      obtain ⟨hkn, hn⟩ := hn
      have hhead : k = k' := by
        rcases lt_trichotomy k k' with hlt | heq | hlt
        · have := h k
          rw [get?_cons, if_pos rfl, get?_of_lt (k := k)] at this
          · cases this
          · exact List.forall_mem_cons.2 ⟨hlt, fun z hz => lt_trans hlt (hkn z hz)⟩
        · exact heq
        · have := h k'
          rw [get?_of_lt (k := k'), get?_cons, if_pos rfl] at this
          · cases this
          · exact List.forall_mem_cons.2 ⟨hlt, fun z hz => lt_trans hlt (hkm z hz)⟩
      subst hhead
      have hv : v = v' := by simpa [get?] using h k
      have htail : ∀ j, get? m j = get? n j := by
        intro j
        by_cases hj : k = j
        · subst hj; rw [get?_of_lt hkm, get?_of_lt hkn]
        · have := h j; rwa [get?_cons, get?_cons, if_neg hj, if_neg hj] at this
      rw [hv, ih hm hn htail]

/-- A value found under a key is in the map with it. -/
theorem mem_of_get? {α : Type} {m : NMap α} {k : Nat} {v : α} (h : m.get? k = some v) : (k, v) ∈ m := by
  induction m with
  | nil => cases h
  | cons x m ih =>
    obtain ⟨k', v'⟩ := x
    rw [get?_cons] at h
    split at h
    · rename_i hk; cases h; exact hk ▸ List.mem_cons_self
    · exact List.mem_cons_of_mem _ (ih h)

end NMap

namespace Machine

open Sys2Proof (Instr)

/-! ## Reset -/

/-- Settles O2: every register and byte reads its reset value, for nothing is written; the rest is the state's own default. -/
theorem resetLeavesTheModuleOff : Obligations.ResetLeavesTheModuleOff := by
  unfold Obligations.ResetLeavesTheModuleOff
  exact ⟨Memory.wf_nil, rfl, rfl, rfl, rfl, rfl, rfl, rfl, rfl, rfl, rfl, rfl, rfl, rfl, rfl, rfl, rfl,
    fun _ _ => rfl, fun _ => rfl⟩

/-! ## Memory -/

theorem Memory.read_write (m : List Host.Cell) (a c : Nat) (b : Byte) :
    Memory.read (Memory.write m a b) c = if c = a then b else Memory.read m c := by
  unfold Memory.read Memory.write
  by_cases hc : c = a
  · subst hc; split <;> simp_all
  · split <;> simp [hc, NMap.get?_erase_ne, NMap.get?_set_ne]

theorem Memory.read_writes (m : List Host.Cell) (a b : Nat) (bs : List Byte) :
    Memory.read (Memory.writes m a bs) b = if a ≤ b ∧ b < a + bs.length then bs.getD (b - a) 0 else Memory.read m b := by
  induction bs generalizing m a with
  | nil => rw [if_neg (by simp)]; rfl
  | cons x bs ih =>
    rw [Memory.writes, ih, Memory.read_write]
    by_cases hb : b = a
    · subst hb; simp
    · by_cases hin : a + 1 ≤ b ∧ b < a + 1 + bs.length
      · have hsub : b - a = b - (a + 1) + 1 := by omega
        rw [if_pos hin, if_pos (by simp; omega), hsub, List.getD_cons_succ]
      · rw [if_neg hin, if_neg hb, if_neg (by simp; omega)]

/-- In canonical form an address that reads zero is not listed. -/
theorem Memory.get?_eq_of_read {m : List Host.Cell} (h : Memory.wf m) (a : Nat) :
    NMap.get? m a = if Memory.read m a = 0 then none else some (Memory.read m a) := by
  unfold Memory.read
  cases hg : NMap.get? m a with
  | none => simp
  | some v =>
    have hv : v ≠ 0 := h.2 _ (NMap.mem_of_get? hg)
    rw [Option.getD_some, if_neg hv]

theorem Memory.ext {m n : List Host.Cell} (hm : Memory.wf m) (hn : Memory.wf n)
    (h : ∀ a, Memory.read m a = Memory.read n a) : m = n :=
  NMap.Rising.ext hm.1 hn.1 fun a => by rw [Memory.get?_eq_of_read hm, Memory.get?_eq_of_read hn, h]

theorem State.writeMem_safe {s : State} (h : s.isSafe = true) (a : Nat) (bs : List Byte) : s.writeMem a bs = s := by
  simp [State.writeMem, h]

theorem State.writeMem_open {s : State} (h : s.isSafe = false) (a : Nat) (bs : List Byte) :
    s.writeMem a bs = { s with mem := Memory.writes s.mem a bs, undef := s.undef.flatMap (cutRange a bs.length) } := by
  simp [State.writeMem, h]

/-- A range reads as it was written. -/
theorem State.readMem_writeMem {s : State} (h : s.isSafe = false) (a : Nat) (bs : List Byte) :
    (s.writeMem a bs).readMem a bs.length = bs := by
  apply List.ext_getElem
  · simp [State.readMem, rangeFrom]
  · intro i hi hi'
    have hbyte := State.byte_written h a bs (b := a + i) (by omega) (by omega)
    simp [State.readMem, rangeFrom, hbyte, Memory.read_writes, hi']

/-- From `s` to `t` each part is listed or the same: the parts one by one. -/
theorem State.keepsBut_iff {ch : List Part} {s t : State} : s.keepsBut ch t ↔
    (.queue ∈ ch ∨ t.pending = s.pending) ∧ (.fresh ∈ ch ∨ t.fresh = s.fresh) ∧ (.regs ∈ ch ∨ t.regs = s.regs) ∧
    (.tick ∈ ch ∨ t.tick = s.tick) ∧ (.link ∈ ch ∨ t.link = s.link) ∧ (.boot ∈ ch ∨ t.boot = s.boot) ∧
    (.flt ∈ ch ∨ t.flt = s.flt) ∧ (.mgt ∈ ch ∨ t.mgt = s.mgt) ∧ (.host ∈ ch ∨ t.host = s.host) ∧
    (.topo ∈ ch ∨ t.topo = s.topo) ∧ (.flow ∈ ch ∨ t.flow = s.flow) ∧ (.sw ∈ ch ∨ t.sw = s.sw) ∧
    (.pool ∈ ch ∨ t.pool = s.pool) ∧ (.eng ∈ ch ∨ t.eng = s.eng) ∧ (.coll ∈ ch ∨ t.coll = s.coll) ∧
    (.parm ∈ ch ∨ t.parm = s.parm) ∧ (.stash ∈ ch ∨ t.stash = s.stash) ∧ (.stz ∈ ch ∨ t.stz = s.stz) ∧
    (.pwr ∈ ch ∨ t.pwr = s.pwr) ∧ (.ctxs ∈ ch ∨ t.ctxUse = s.ctxUse ∧ t.ctxGen = s.ctxGen) ∧
    (.mem ∈ ch ∨ t.mem = s.mem ∧ t.undef = s.undef) ∧ (.out ∈ ch ∨ t.out = s.out) := by
  constructor
  · intro h
    exact ⟨h .queue, h .fresh, h .regs, h .tick, h .link, h .boot, h .flt, h .mgt, h .host, h .topo, h .flow, h .sw,
      h .pool, h .eng, h .coll, h .parm, h .stash, h .stz, h .pwr, h .ctxs, h .mem, h .out⟩
  · rintro ⟨_, _, _, _, _, _, _, _, _, _, _, _, _, _, _, _, _, _, _, _, _, _⟩ p
    cases p <;> assumption

/-- Settles O6. -/
theorem memoryReadsWhatWasWritten : Obligations.MemoryReadsWhatWasWritten := by
  unfold Obligations.MemoryReadsWhatWasWritten
  refine ⟨Memory.read_writes, fun m n => Memory.ext, fun s a bs => ⟨fun h => State.writeMem_safe h a bs, fun h => ?_⟩⟩
  refine ⟨State.readMem_writeMem h a bs, ?_⟩
  rw [State.writeMem_open h]
  simp [State.keepsBut_iff]

/-! ## The safe state -/

theorem State.data_safe {s : State} (h : s.isSafe = true) (f : State → State) : s.data f = s := by simp [State.data, h]

/-- A row of the data plane does its work as the safe state allows. -/
theorem exec_dataPlane {c : Instr} (h : dataPlane c = true) (s : State) :
    ∃ f, exec c s = onUnit (s.hasUnits c) (s.data f) := by
  cases c <;> simp only [dataPlane, Bool.false_eq_true] at h <;> exact ⟨_, rfl⟩

/-- Settles O5. -/
theorem safeStateStopsTheDataPlane : Obligations.SafeStateStopsTheDataPlane := by
  unfold Obligations.SafeStateStopsTheDataPlane
  intro s c hsafe hdata hunits
  obtain ⟨f, hf⟩ := exec_dataPlane hdata s
  rw [hf, onUnit_true hunits, State.data_safe hsafe]

end Machine

end Sys2Proof
end

section

-- One declaration after another: elaborated side by side, they take more threads than the check allows.
set_option Elab.async false

/-! What an operation leaves unchanged: rules for the parts a state keeps, for events, and for the registers a counter leaves. -/

namespace Sys2Proof.Machine

open Sys2Proof (Instr)

/-! ## Rows of units -/

/-- A row on units that exist leads to the state it gives. -/
theorem leads_of_unit {c : Instr} {s u : State} {ok : Bool} (he : exec c s = onUnit ok u.settle) (h : ok = true) :
    Leads s c u := he.trans (onUnit_true h _)

/-! ## Parts kept -/

theorem State.keepsBut_mono {ch ch' : List Part} {s t : State} (h : s.keepsBut ch t) (hc : ch ⊆ ch') : s.keepsBut ch' t :=
  fun p => (h p).imp (fun hp => hc hp) id

/-- What keeps the first parts, then the second, keeps both together. -/
theorem State.keepsBut_append {ch ch' : List Part} {s t u : State} (h : s.keepsBut ch t) (h' : t.keepsBut ch' u) :
    s.keepsBut (ch ++ ch') u :=
  State.keepsBut_trans (State.keepsBut_mono h (List.subset_append_left _ _))
    (State.keepsBut_mono h' (List.subset_append_right _ _))

/-- An event comes on top of what has changed. -/
theorem State.event_within {ch : List Part} {z s : State} (h : z.keepsBut ch s) (hc : eventParts ⊆ ch)
    (severity source code : Nat) (data : List Byte) (status master : Nat) :
    z.keepsBut ch (s.event severity source code data status master) :=
  State.keepsBut_trans h (State.keepsBut_mono (s.event_keepsBut severity source code data status master) hc)

/-! ## What an event leaves -/

@[simp] theorem State.event_pending (s : State) (severity source code : Nat) (data : List Byte) (status master : Nat) :
    (s.event severity source code data status master).pending = s.pending :=
  (s.event_keepsBut severity source code data status master .queue).resolve_left (by decide)

@[simp] theorem State.event_tick (s : State) (severity source code : Nat) (data : List Byte) (status master : Nat) :
    (s.event severity source code data status master).tick = s.tick :=
  (s.event_keepsBut severity source code data status master .tick).resolve_left (by decide)

@[simp] theorem State.event_link (s : State) (severity source code : Nat) (data : List Byte) (status master : Nat) :
    (s.event severity source code data status master).link = s.link :=
  (s.event_keepsBut severity source code data status master .link).resolve_left (by decide)

@[simp] theorem State.event_host (s : State) (severity source code : Nat) (data : List Byte) (status master : Nat) :
    (s.event severity source code data status master).host = s.host :=
  (s.event_keepsBut severity source code data status master .host).resolve_left (by decide)

@[simp] theorem State.event_topo (s : State) (severity source code : Nat) (data : List Byte) (status master : Nat) :
    (s.event severity source code data status master).topo = s.topo :=
  (s.event_keepsBut severity source code data status master .topo).resolve_left (by decide)

@[simp] theorem State.event_flow (s : State) (severity source code : Nat) (data : List Byte) (status master : Nat) :
    (s.event severity source code data status master).flow = s.flow :=
  (s.event_keepsBut severity source code data status master .flow).resolve_left (by decide)

@[simp] theorem State.event_sw (s : State) (severity source code : Nat) (data : List Byte) (status master : Nat) :
    (s.event severity source code data status master).sw = s.sw :=
  (s.event_keepsBut severity source code data status master .sw).resolve_left (by decide)

@[simp] theorem State.event_pool (s : State) (severity source code : Nat) (data : List Byte) (status master : Nat) :
    (s.event severity source code data status master).pool = s.pool :=
  (s.event_keepsBut severity source code data status master .pool).resolve_left (by decide)

@[simp] theorem State.event_eng (s : State) (severity source code : Nat) (data : List Byte) (status master : Nat) :
    (s.event severity source code data status master).eng = s.eng :=
  (s.event_keepsBut severity source code data status master .eng).resolve_left (by decide)

@[simp] theorem State.event_coll (s : State) (severity source code : Nat) (data : List Byte) (status master : Nat) :
    (s.event severity source code data status master).coll = s.coll :=
  (s.event_keepsBut severity source code data status master .coll).resolve_left (by decide)

@[simp] theorem State.event_parm (s : State) (severity source code : Nat) (data : List Byte) (status master : Nat) :
    (s.event severity source code data status master).parm = s.parm :=
  (s.event_keepsBut severity source code data status master .parm).resolve_left (by decide)

@[simp] theorem State.event_stash (s : State) (severity source code : Nat) (data : List Byte) (status master : Nat) :
    (s.event severity source code data status master).stash = s.stash :=
  (s.event_keepsBut severity source code data status master .stash).resolve_left (by decide)

@[simp] theorem State.event_stz (s : State) (severity source code : Nat) (data : List Byte) (status master : Nat) :
    (s.event severity source code data status master).stz = s.stz :=
  (s.event_keepsBut severity source code data status master .stz).resolve_left (by decide)

@[simp] theorem State.event_pwr (s : State) (severity source code : Nat) (data : List Byte) (status master : Nat) :
    (s.event severity source code data status master).pwr = s.pwr :=
  (s.event_keepsBut severity source code data status master .pwr).resolve_left (by decide)

@[simp] theorem State.event_memory (s : State) (severity source code : Nat) (data : List Byte) (status master : Nat) :
    (s.event severity source code data status master).memory = s.memory := by
  obtain ⟨hm, hu⟩ := (s.event_keepsBut severity source code data status master .mem).resolve_left (by decide)
  simp [State.memory, hm, hu]

@[simp] theorem State.event_tilePwr (s : State) (severity source code : Nat) (data : List Byte) (status master t : Nat) :
    (s.event severity source code data status master).tilePwr t = s.tilePwr t := by
  simp [State.tilePwr]

/-! ## Registers -/

/-- Words of different registers have different places. -/
theorem Reg.key_ne {r q : Reg} (h : r.ctorIdx ≠ q.ctorIdx) {i j : Nat} (hi : i < 8192) (hj : j < 8192) :
    r.key i ≠ q.key j := by
  unfold Reg.key; omega

theorem Reg.key_inj (r : Reg) {i j : Nat} : r.key i = r.key j ↔ i = j := by unfold Reg.key; omega

theorem State.reg_congr {s t : State} (h : t.regs = s.regs) (r : Reg) (i : Nat) : t.reg r i = s.reg r i := by
  simp [State.reg, h]

@[simp] theorem State.reg_setReg (s : State) (r : Reg) (i v : Nat) : (s.setReg r i v).reg r i = v := by
  simp [State.reg]

theorem State.reg_setReg_ne (s : State) {r q : Reg} {i j : Nat} (v : Nat) (h : q.key j ≠ r.key i) :
    (s.setReg r i v).reg q j = s.reg q j := by
  simp [State.reg, NMap.get?_set_ne _ _ h]

@[simp] theorem State.reg_bump (s : State) (r : Reg) (i n : Nat) : (s.bump r i n).reg r i = s.countedUp r i n := by
  simp [State.bump, State.countedUp]

theorem State.reg_bump_ne (s : State) {r q : Reg} {i j : Nat} (n : Nat) (h : q.key j ≠ r.key i) :
    (s.bump r i n).reg q j = s.reg q j := State.reg_setReg_ne s _ h

/-- The counters that events raise. -/
def eventRegs : List Reg := [.mgtEventsLogged, .mgtEventOverwritten, .mgtPlogWritten, .mgtPlogSuppressed, .mgtEventDrop]

/-- A register word that no event counts in. -/
def Reg.quiet (r : Reg) (i : Nat) : Prop := ∀ q ∈ eventRegs, r.key i ≠ q.key 0

theorem Reg.quiet_of_lt {r : Reg} (hr : ∀ q ∈ eventRegs, r.ctorIdx ≠ q.ctorIdx) {i : Nat} (hi : i < 8192) : r.quiet i :=
  fun q hq => Reg.key_ne (hr q hq) hi (by decide)

theorem State.logOnChip_reg {s : State} {r : Reg} {i : Nat} (h : r.quiet i) (e : Event) :
    (s.logOnChip e).reg r i = s.reg r i := by
  have hlogged := h .mgtEventsLogged (by decide)
  have hover := h .mgtEventOverwritten (by decide)
  simp only [State.logOnChip]
  rw [State.reg_bump_ne _ _ hlogged]
  split
  · exact State.reg_bump_ne s 1 hover
  · rfl

theorem State.logPersistRated_reg {s : State} {r : Reg} {i : Nat} (h : r.quiet i) (e : Event) :
    (s.logPersistRated e).reg r i = s.reg r i := by
  have hwritten := h .mgtPlogWritten (by decide)
  have hsuppressed := h .mgtPlogSuppressed (by decide)
  unfold State.logPersistRated
  split
  · rfl
  · split
    · exact State.reg_bump_ne s 1 hsuppressed
    · exact State.reg_bump_ne _ 1 hwritten

theorem State.sendEvent_reg {s : State} {r : Reg} {i : Nat} (h : r.quiet i) (e : Event) (m : Nat) :
    (s.sendEvent e m).reg r i = s.reg r i := by
  have hdrop := h .mgtEventDrop (by decide)
  simp only [State.sendEvent]
  split
  · split
    · rfl
    · exact State.reg_bump_ne _ 1 hdrop
  · rfl

/-- An event counts in the counters of events alone. -/
theorem State.event_reg {s : State} {r : Reg} {i : Nat} (h : r.quiet i) (severity source code : Nat) (data : List Byte)
    (status master : Nat) : (s.event severity source code data status master).reg r i = s.reg r i := by
  simp only [State.event]
  split
  · refine List.foldlRecOn (motive := fun (t : State) => t.reg r i = s.reg r i) _ _ ?_ fun t ht m _ =>
      (State.sendEvent_reg h _ m).trans ht
    rw [State.logPersistRated_reg h, State.logOnChip_reg h]
    rfl
  · rfl

end Sys2Proof.Machine
end

section

-- One declaration after another: elaborated side by side, they take more threads than the check allows.
set_option Elab.async false

/-! Droop responses, the estimator, and the operating points of compute tiles (R353–R361). -/

namespace Sys2Proof.Machine

open Sys2Proof (PowerSample)

/-! ## Tiles -/

@[simp] theorem State.tilePwr_setTilePwr (s : State) (t : Nat) (f : TilePwr → TilePwr) :
    (s.setTilePwr t f).tilePwr t = f (s.tilePwr t) := by
  simp [State.tilePwr, State.setTilePwr, State.setPwr]

@[simp] theorem State.tilePwr_bump (s : State) (r : Reg) (i n t : Nat) : (s.bump r i n).tilePwr t = s.tilePwr t := rfl

theorem State.tilePwr_setTilePwr_ne (s : State) {t k : Nat} (f : TilePwr → TilePwr) (h : k ≠ t) :
    (s.setTilePwr t f).tilePwr k = s.tilePwr k := by
  simp [State.tilePwr, State.setTilePwr, State.setPwr, NMap.getD_upd_ne _ _ _ _ h]

/-- What a loop's turns leave, the loop leaves. -/
theorem foldl_leaves {α β γ : Type} {p : β → γ} {f : β → α → β} (h : ∀ b a, p (f b a) = p b) (l : List α) (b : β) :
    p (l.foldl f b) = p b := by
  induction l generalizing b with
  | nil => rfl
  | cons a l ih => exact (ih (f b a)).trans (h b a)

/-- A loop keeps the parts that its turns keep. -/
theorem State.foldl_keepsBut {α : Type} {ch : List Part} {f : State → α → State} (h : ∀ (s : State) x, s.keepsBut ch (f s x))
    (l : List α) (s : State) : s.keepsBut ch (l.foldl f s) := by
  induction l generalizing s with
  | nil => exact State.keepsBut_refl ch s
  | cons a l ih => exact State.keepsBut_trans (h s a) (ih (f s a))

theorem State.setPwr_keepsBut (s : State) (f : PwrSt → PwrSt) : s.keepsBut [.pwr] (s.setPwr f) := by
  simp [State.keepsBut_iff]

theorem State.setTilePwr_keepsBut (s : State) (t : Nat) (f : TilePwr → TilePwr) : s.keepsBut [.pwr] (s.setTilePwr t f) :=
  s.setPwr_keepsBut _

theorem State.bump_keepsBut (s : State) (r : Reg) (i n : Nat) : s.keepsBut [.regs] (s.bump r i n) := by
  simp [State.keepsBut_iff]

theorem State.report_keepsBut (s : State) (r : Sys2Proof.FaultRep) (b : Bool) : s.keepsBut [.flt] (s.report r b) := by
  simp [State.keepsBut_iff]

/-! ## Droop and the estimator -/

theorem State.droopOn_new {s : State} {d : Nat} (h : d ∉ s.pwr.droops) :
    s.droopOn d = (s.setPwr fun p => { p with droops := d :: p.droops }).bump .pwrDroopEvents d := by
  simp [State.droopOn, h]

theorem State.distrust_of_limit {s : State} (ht : s.pwr.trusted = true) (hd : s.cfg .pwrEstCfg 0 7 8 < s.pwr.disagree) :
    s.distrust.pwr = { s.pwr with trusted := false, agree := 0 } ∧
    s.distrust.reg .pwrUntrusted 0 = s.countedUp .pwrUntrusted 0 ∧
    s.distrust.flt.todo = s.flt.todo ++ (if s.cfg .pwrEstCfg 0 15 2 = 2 then [({ cls := 21 }, false)] else []) := by
  let t := (s.setPwr fun p => { p with trusted := false, agree := 0 }).bump .pwrUntrusted
  have hquiet : Reg.quiet .pwrUntrusted 0 := Reg.quiet_of_lt (by decide) (by decide)
  have hcfg : t.cfg .pwrEstCfg 0 15 2 = s.cfg .pwrEstCfg 0 15 2 := by
    simp only [State.cfg]
    rw [State.reg_bump_ne _ 1 (by decide : Reg.pwrEstCfg.key 0 ≠ Reg.pwrUntrusted.key 0)]
    rfl
  have hreg : t.reg .pwrUntrusted 0 = s.countedUp .pwrUntrusted 0 := State.reg_bump _ _ _ _
  have hdef : s.distrust =
      let level := t.cfg .pwrEstCfg 0 15 2
      let u := if 1 ≤ level then
        t.event 2 0x0A 0x0012 (leBytes 1 0 ++ zeros 1 ++ leBytes 2 t.pwr.est ++ leBytes 2 t.pwr.meas) else t
      if level = 2 then u.report { cls := 21 } else u := by
    rw [State.distrust, if_neg (by simp [ht, hd])]
  rw [hdef, hcfg]
  generalize s.cfg .pwrEstCfg 0 15 2 = level
  by_cases h2 : level = 2
  · simp only [h2, Nat.reduceLeDiff, if_true, State.report_pwr, State.event_pwr, State.report_flt, State.event_flt]
    exact ⟨rfl, (State.event_reg hquiet _ _ _ _ _ _).trans hreg, rfl⟩
  · by_cases h1 : 1 ≤ level
    · simp only [h1, h2, if_true, if_false, State.event_pwr, State.event_flt, State.event_reg hquiet, List.append_nil]
      exact ⟨rfl, hreg, rfl⟩
    · simp only [h1, h2, if_false, List.append_nil]
      exact ⟨rfl, hreg, rfl⟩

theorem State.retrust_of_limit {s : State} (ht : s.pwr.trusted = false) (ha : s.cfg .pwrEstCfg 0 17 11 ≤ s.pwr.agree) :
    s.retrust.pwr = { s.pwr with trusted := true, disagree := 0 } := by
  rw [State.retrust, if_neg (by simp [ht, ha]), State.event_pwr]
  rfl

/-! ## Operating points -/

/-- A switch that no droop response defers. -/
theorem State.freqSwitch_clear {s : State} {t : Nat} (hc : (s.tilePwr t).changing = true)
    (hr : (s.tilePwr t).ready = true) (hne : (s.tilePwr t).target ≠ (s.tilePwr t).op) (hd : t ∉ s.pwr.droops) :
    s.freqSwitch t = (s.bump .pwrFreqChanges t).setTilePwr t fun p =>
      { p with op := p.target, ready := false, deferred := 0, changing := decide (p.op < p.target) } := by
  simp [State.freqSwitch, hc, hr, hne, hd]

/-- A switch that a droop response defers keeps the point and counts. -/
theorem State.freqSwitch_deferred {s : State} {t : Nat} (hc : (s.tilePwr t).changing = true)
    (hr : (s.tilePwr t).ready = true) (hne : (s.tilePwr t).target ≠ (s.tilePwr t).op) (hd : t ∈ s.pwr.droops) :
    (s.freqSwitch t).tilePwr t = { s.tilePwr t with deferred := ((s.tilePwr t).deferred + 1) % 64 } := by
  simp only [State.freqSwitch, hc, hr, hd, hne, List.contains_eq_mem, Bool.not_true, Bool.false_or, beq_iff_eq, if_false,
    decide_true, if_true]
  split <;> simp [hc, hr]

theorem State.retarget_keepsBut (s : State) (t : Nat) : s.keepsBut [.pwr] (s.retarget t) := by
  simp only [State.retarget]
  split
  · exact State.keepsBut_refl _ s
  · exact s.setTilePwr_keepsBut t _

/-- A new target changes nothing of the tile but the target and the change under way. -/
theorem State.retarget_tilePwr (s : State) (t : Nat) : (s.retarget t).tilePwr t = { s.tilePwr t with
    target := ((s.retarget t).tilePwr t).target, changing := ((s.retarget t).tilePwr t).changing
    ready := ((s.retarget t).tilePwr t).ready } := by
  simp only [State.retarget]
  split
  · rfl
  · rw [State.tilePwr_setTilePwr]

theorem State.demandRelease_of_quiet {s : State} {t : Nat} (hr : (s.tilePwr t).raised.isSome = true)
    (hq : 16 ≤ (s.tilePwr t).quiet) :
    s.demandRelease t = (s.setTilePwr t fun p => { p with raised := none }).retarget t := by
  simp [State.demandRelease, hr, hq]

/-! ## A period of the power controller before tick join -/

/-- What bubbles and the shares of tiles leave of the power controller: its measurements. -/
def PwrSt.measured (p : PwrSt) : Nat × Nat × Nat := (p.meas, p.est, p.measBefore)

theorem State.setTilePwr_measured (s : State) (t : Nat) (f : TilePwr → TilePwr) :
    (s.setTilePwr t f).pwr.measured = s.pwr.measured := rfl

theorem State.setEngine_measured (s : State) (k : Nat) (f : EngSt → EngSt) :
    (s.setEngine k f).pwr.measured = s.pwr.measured := rfl

theorem State.applyBubbles_measured (s : State) : s.applyBubbles.pwr.measured = s.pwr.measured := by
  unfold State.applyBubbles
  refine foldl_leaves (p := fun (u : State) => u.pwr.measured) (fun u t => ?_) _ s
  dsimp only
  refine (foldl_leaves (p := fun (u : State) => u.pwr.measured) (fun v k => v.setEngine_measured k _) _ _).trans ?_
  split <;> rfl

/-- The event of a cap unmet for 16 ticks leaves the measurements. -/
theorem State.unmetEvent_measured (s : State) (c : Prop) [Decidable c] (severity source code : Nat) (data : List Byte) :
    (if c then (s.setPwr fun p => { p with unmetRun := 0 }).event severity source code data else s).pwr.measured =
      s.pwr.measured := by
  split
  · rw [State.event_pwr]; rfl
  · rfl

/-- A sample that is not late is what the controller has measured; the one before is kept (R359, R362). -/
theorem State.powerTick_measured (s : State) {x : PowerSample} (h : x.late = false) :
    (s.powerTick x).pwr.measured = (x.meas, x.est, s.pwr.meas) := by
  have hshares : ∀ (parts : List Nat) (u : State), ((List.range 8).foldl (fun (u : State) t =>
      u.setTilePwr t fun p => { p with next := parts.getD t 0 }) u).pwr.measured = u.pwr.measured := fun parts u =>
    foldl_leaves (p := fun (u : State) => u.pwr.measured) (fun u t => u.setTilePwr_measured t _) _ u
  simp only [State.powerTick, h, Bool.false_eq_true, if_false]
  rw [State.unmetEvent_measured]
  generalize apportion _ _ _ = parts
  have hmeas := congrArg Prod.fst (hshares parts (s.judgeEstimate x))
  split <;> exact Prod.ext rfl (Prod.ext rfl hmeas)

theorem State.powerPeriod_measured {s : State} {x : PowerSample} (ht : s.ticking = false) (h4 : Phase.memory ≤ s.boot.phase)
    (hf : s.boot.phase ≠ Phase.failed) (h : x.late = false) :
    (s.powerPeriod x).pwr.measured = (x.meas, x.est, s.pwr.meas) := by
  have hbefore := congrArg Prod.fst s.applyBubbles_measured
  rw [State.powerPeriod, if_neg (by simp [ht, h4, hf]), State.powerTick_measured _ h]
  exact Prod.ext rfl (Prod.ext rfl hbefore)

/-- Settles O15. -/
theorem droopAndOperatingPoints : Obligations.DroopAndOperatingPoints := by
  unfold Obligations.DroopAndOperatingPoints
  refine ⟨fun s d hd => ?_, fun s t ht => ?_⟩
  · have hunit : domainIn d = true := decide_eq_true hd
    refine ⟨fun hnew => ?_, fun hold => ?_, ?_, fun htrust hlimit => ?_, fun htrust hlimit => ?_⟩
    · refine ⟨_, leads_of_unit rfl hunit, ?_⟩
      rw [State.droopOn_new hnew]
      exact ⟨rfl, State.reg_bump _ _ _ _, State.keepsBut_append (s.setPwr_keepsBut _) (State.bump_keepsBut _ _ _ _)⟩
    · have hsame : s.droopOn d = s := by simp [State.droopOn, hold]
      exact leads_of_unit (congrArg (fun u => onUnit _ (State.settle u)) hsame) hunit
    · exact ⟨_, leads_of_unit rfl hunit, by simp [State.droopOff], fun e he => by simp [State.droopOff, he],
        s.setPwr_keepsBut _⟩
    · exact ⟨_, rfl, State.distrust_of_limit htrust hlimit⟩
    · exact ⟨_, rfl, State.retrust_of_limit htrust hlimit⟩
  · have hunit : tileIn t = true := decide_eq_true ht
    refine ⟨fun hc hlt => ⟨_, leads_of_unit rfl hunit, ?_⟩, fun hc heq hd => ⟨_, leads_of_unit rfl hunit, ?_⟩,
      fun hc hr hne hd => ⟨_, leads_of_unit rfl hunit, ?_⟩, fun hc hr hne hd => ⟨_, leads_of_unit rfl hunit, ?_⟩,
      fun hr hq => ⟨_, leads_of_unit rfl hunit, ?_⟩, fun x hx h4 hf hl => ⟨_, rfl, ?_⟩⟩
    · have hstep : s.slewComplete t = s.setTilePwr t fun p => { p with ready := true } := by
        simp [State.slewComplete, hc, hlt, hlt.ne]
      rw [hstep]
      exact ⟨State.tilePwr_setTilePwr s t _, s.setTilePwr_keepsBut t _⟩
    · have hstep : s.slewComplete t = s.setTilePwr t fun p => { p with changing := false, ready := false } := by
        simp [State.slewComplete, hc, heq, hd]
      rw [hstep]
      exact ⟨State.tilePwr_setTilePwr s t _, s.setTilePwr_keepsBut t _⟩
    · rw [State.freqSwitch_clear hc hr hne hd, State.tilePwr_setTilePwr]
      exact ⟨rfl, rfl, rfl, decide_eq_true_iff, State.reg_bump s _ _ _,
        State.keepsBut_mono (State.keepsBut_append (s.bump_keepsBut _ _ _) (State.setTilePwr_keepsBut _ t _)) (by decide)⟩
    · rw [State.freqSwitch_deferred hc hr hne hd]
      exact ⟨rfl, rfl⟩
    · rw [State.demandRelease_of_quiet hr hq, State.retarget_tilePwr, State.tilePwr_setTilePwr]
      exact ⟨rfl, State.keepsBut_trans (s.setTilePwr_keepsBut t _) (State.retarget_keepsBut _ t)⟩
    · have hm := State.powerPeriod_measured hx h4 hf hl
      exact ⟨congrArg Prod.fst hm, congrArg (fun m => m.2.1) hm, congrArg (fun m => m.2.2) hm⟩

end Sys2Proof.Machine
end

section

-- One declaration after another: elaborated side by side, they take more threads than the check allows.
set_option Elab.async false

/-! Frames: the parts that each operation keeps, built up from the operations it is made of. -/

namespace Sys2Proof.Machine

open Sys2Proof (Instr)

/-- After what keeps `ch` comes an operation that changes fewer parts. -/
theorem State.keepsBut_then {z s t : State} {ch ch' : List Part} (h' : s.keepsBut ch' t) (h : z.keepsBut ch s)
    (hc : ch'.all ch.contains = true) : z.keepsBut ch t :=
  State.keepsBut_trans h (State.keepsBut_mono h' fun p hp => by simpa using List.all_eq_true.1 hc p hp)

/-- A loop whose turns keep `ch` comes after what keeps `ch`. -/
theorem State.keepsBut_foldl {α : Type} {ch : List Part} {z s : State} {f : State → α → State} {l : List α}
    (h : ∀ (s : State) x, s.keepsBut ch (f s x)) (hs : z.keepsBut ch s) : z.keepsBut ch (l.foldl f s) :=
  State.keepsBut_trans hs (State.foldl_keepsBut h l s)

theorem State.keepsBut_foldlPair {α β : Type} {ch : List Part} {z : State} {f : β × State → α → β × State} {l : List α}
    {x : β × State} (h : ∀ (x : β × State) a, x.2.keepsBut ch (f x a).2) (hs : z.keepsBut ch x.2) : z.keepsBut ch (l.foldl f x).2 := by
  induction l generalizing x with
  | nil => exact hs
  | cons a l ih => exact ih (State.keepsBut_trans hs (h x a))

theorem State.keepsBut_foldlPair2 {α β γ : Type} {ch : List Part} {z : State} {f : β × γ × State → α → β × γ × State}
    {l : List α} {x : β × γ × State} (h : ∀ (x : β × γ × State) a, x.2.2.keepsBut ch (f x a).2.2) (hs : z.keepsBut ch x.2.2) :
    z.keepsBut ch (l.foldl f x).2.2 := by
  induction l generalizing x with
  | nil => exact hs
  | cons a l ih => exact ih (State.keepsBut_trans hs (h x a))

/-- The state that a match takes from a pair is the pair's. -/
theorem State.keepsBut_snd {α : Type} {ch : List Part} {z s : State} {a : α} {p : α × State} (hp : p = (a, s))
    (h : z.keepsBut ch p.2) : z.keepsBut ch s := by rw [hp] at h; exact h

theorem State.keepsBut_with_fresh {z s : State} {ch : List Part} (x) (h : z.keepsBut ch s)
    (hc : ch.contains .fresh = true) : z.keepsBut ch { s with fresh := x } :=
  State.keepsBut_then (State.keepsBut_iff.2 (by simp) : s.keepsBut [.fresh] _) h (by simpa using hc)

theorem State.keepsBut_with_tick {z s : State} {ch : List Part} (x) (h : z.keepsBut ch s)
    (hc : ch.contains .tick = true) : z.keepsBut ch { s with tick := x } :=
  State.keepsBut_then (State.keepsBut_iff.2 (by simp) : s.keepsBut [.tick] _) h (by simpa using hc)

theorem State.keepsBut_with_link {z s : State} {ch : List Part} (x) (h : z.keepsBut ch s)
    (hc : ch.contains .link = true) : z.keepsBut ch { s with link := x } :=
  State.keepsBut_then (State.keepsBut_iff.2 (by simp) : s.keepsBut [.link] _) h (by simpa using hc)

theorem State.keepsBut_with_flt {z s : State} {ch : List Part} (x) (h : z.keepsBut ch s)
    (hc : ch.contains .flt = true) : z.keepsBut ch { s with flt := x } :=
  State.keepsBut_then (State.keepsBut_iff.2 (by simp) : s.keepsBut [.flt] _) h (by simpa using hc)

theorem State.keepsBut_with_mgt {z s : State} {ch : List Part} (x) (h : z.keepsBut ch s)
    (hc : ch.contains .mgt = true) : z.keepsBut ch { s with mgt := x } :=
  State.keepsBut_then (State.keepsBut_iff.2 (by simp) : s.keepsBut [.mgt] _) h (by simpa using hc)

theorem State.keepsBut_with_host {z s : State} {ch : List Part} (x) (h : z.keepsBut ch s)
    (hc : ch.contains .host = true) : z.keepsBut ch { s with host := x } :=
  State.keepsBut_then (State.keepsBut_iff.2 (by simp) : s.keepsBut [.host] _) h (by simpa using hc)

theorem State.keepsBut_with_topo {z s : State} {ch : List Part} (x) (h : z.keepsBut ch s)
    (hc : ch.contains .topo = true) : z.keepsBut ch { s with topo := x } :=
  State.keepsBut_then (State.keepsBut_iff.2 (by simp) : s.keepsBut [.topo] _) h (by simpa using hc)

theorem State.keepsBut_with_flow {z s : State} {ch : List Part} (x) (h : z.keepsBut ch s)
    (hc : ch.contains .flow = true) : z.keepsBut ch { s with flow := x } :=
  State.keepsBut_then (State.keepsBut_iff.2 (by simp) : s.keepsBut [.flow] _) h (by simpa using hc)

theorem State.keepsBut_with_sw {z s : State} {ch : List Part} (x) (h : z.keepsBut ch s)
    (hc : ch.contains .sw = true) : z.keepsBut ch { s with sw := x } :=
  State.keepsBut_then (State.keepsBut_iff.2 (by simp) : s.keepsBut [.sw] _) h (by simpa using hc)

theorem State.keepsBut_with_pool {z s : State} {ch : List Part} (x) (h : z.keepsBut ch s)
    (hc : ch.contains .pool = true) : z.keepsBut ch { s with pool := x } :=
  State.keepsBut_then (State.keepsBut_iff.2 (by simp) : s.keepsBut [.pool] _) h (by simpa using hc)

theorem State.keepsBut_with_parm {z s : State} {ch : List Part} (x) (h : z.keepsBut ch s)
    (hc : ch.contains .parm = true) : z.keepsBut ch { s with parm := x } :=
  State.keepsBut_then (State.keepsBut_iff.2 (by simp) : s.keepsBut [.parm] _) h (by simpa using hc)

theorem State.keepsBut_with_stash {z s : State} {ch : List Part} (x) (h : z.keepsBut ch s)
    (hc : ch.contains .stash = true) : z.keepsBut ch { s with stash := x } :=
  State.keepsBut_then (State.keepsBut_iff.2 (by simp) : s.keepsBut [.stash] _) h (by simpa using hc)

theorem State.keepsBut_with_mem {z s : State} {ch : List Part} (x y) (h : z.keepsBut ch s)
    (hc : ch.contains .mem = true) : z.keepsBut ch { s with mem := x, undef := y } :=
  State.keepsBut_then (State.keepsBut_iff.2 (by simp) : s.keepsBut [.mem] _) h (by simpa using hc)

theorem State.keepsBut_with_ctxs {z s : State} {ch : List Part} (x y) (h : z.keepsBut ch s)
    (hc : ch.contains .ctxs = true) : z.keepsBut ch { s with ctxUse := x, ctxGen := y } :=
  State.keepsBut_then (State.keepsBut_iff.2 (by simp) : s.keepsBut [.ctxs] _) h (by simpa using hc)

theorem State.keepsBut_regs {s t : State} {ch : List Part} (h : s.keepsBut ch t) (hc : .regs ∉ ch := by decide) :
    t.regs = s.regs := (h .regs).resolve_left hc

theorem State.keepsBut_tick {s t : State} {ch : List Part} (h : s.keepsBut ch t) (hc : .tick ∉ ch := by decide) :
    t.tick = s.tick := (h .tick).resolve_left hc

theorem State.keepsBut_link {s t : State} {ch : List Part} (h : s.keepsBut ch t) (hc : .link ∉ ch := by decide) :
    t.link = s.link := (h .link).resolve_left hc

theorem State.keepsBut_boot {s t : State} {ch : List Part} (h : s.keepsBut ch t) (hc : .boot ∉ ch := by decide) :
    t.boot = s.boot := (h .boot).resolve_left hc

theorem State.keepsBut_flt {s t : State} {ch : List Part} (h : s.keepsBut ch t) (hc : .flt ∉ ch := by decide) :
    t.flt = s.flt := (h .flt).resolve_left hc

theorem State.keepsBut_mgt {s t : State} {ch : List Part} (h : s.keepsBut ch t) (hc : .mgt ∉ ch := by decide) :
    t.mgt = s.mgt := (h .mgt).resolve_left hc

theorem State.keepsBut_host {s t : State} {ch : List Part} (h : s.keepsBut ch t) (hc : .host ∉ ch := by decide) :
    t.host = s.host := (h .host).resolve_left hc

theorem State.keepsBut_topo {s t : State} {ch : List Part} (h : s.keepsBut ch t) (hc : .topo ∉ ch := by decide) :
    t.topo = s.topo := (h .topo).resolve_left hc

theorem State.keepsBut_flow {s t : State} {ch : List Part} (h : s.keepsBut ch t) (hc : .flow ∉ ch := by decide) :
    t.flow = s.flow := (h .flow).resolve_left hc

theorem State.keepsBut_sw {s t : State} {ch : List Part} (h : s.keepsBut ch t) (hc : .sw ∉ ch := by decide) :
    t.sw = s.sw := (h .sw).resolve_left hc

theorem State.keepsBut_pool {s t : State} {ch : List Part} (h : s.keepsBut ch t) (hc : .pool ∉ ch := by decide) :
    t.pool = s.pool := (h .pool).resolve_left hc

theorem State.keepsBut_eng {s t : State} {ch : List Part} (h : s.keepsBut ch t) (hc : .eng ∉ ch := by decide) :
    t.eng = s.eng := (h .eng).resolve_left hc

theorem State.keepsBut_coll {s t : State} {ch : List Part} (h : s.keepsBut ch t) (hc : .coll ∉ ch := by decide) :
    t.coll = s.coll := (h .coll).resolve_left hc

theorem State.keepsBut_parm {s t : State} {ch : List Part} (h : s.keepsBut ch t) (hc : .parm ∉ ch := by decide) :
    t.parm = s.parm := (h .parm).resolve_left hc

theorem State.keepsBut_stash {s t : State} {ch : List Part} (h : s.keepsBut ch t) (hc : .stash ∉ ch := by decide) :
    t.stash = s.stash := (h .stash).resolve_left hc

theorem State.keepsBut_pwr {s t : State} {ch : List Part} (h : s.keepsBut ch t) (hc : .pwr ∉ ch := by decide) :
    t.pwr = s.pwr := (h .pwr).resolve_left hc

theorem State.keepsBut_out {s t : State} {ch : List Part} (h : s.keepsBut ch t) (hc : .out ∉ ch := by decide) :
    t.out = s.out := (h .out).resolve_left hc

theorem State.keepsBut_pending {s t : State} {ch : List Part} (h : s.keepsBut ch t) (hc : .queue ∉ ch := by decide) :
    t.pending = s.pending := (h .queue).resolve_left hc

theorem State.keepsBut_memory {s t : State} {ch : List Part} (h : s.keepsBut ch t) (hc : .mem ∉ ch := by decide) :
    t.memory = s.memory := by
  obtain ⟨hm, hu⟩ := (h .mem).resolve_left hc
  simp [State.memory, hm, hu]

theorem State.keepsBut_ctxs {s t : State} {ch : List Part} (h : s.keepsBut ch t) (hc : .ctxs ∉ ch := by decide) :
    t.ctxUse = s.ctxUse ∧ t.ctxGen = s.ctxGen := (h .ctxs).resolve_left hc

theorem State.setHost_keepsBut (s : State) (f : HostSt → HostSt) : s.keepsBut [.host] (s.setHost f) := by
  simp [State.setHost, State.keepsBut_iff]

theorem State.stamped_keepsBut (s : State) : s.keepsBut [.fresh] (s.stamped) := by
  simp [State.stamped, State.keepsBut_iff]

theorem State.emit_keepsBut (s : State) (o : Out) : s.keepsBut [.out] (s.emit o) := by
  simp [State.emit, State.keepsBut_iff]

theorem State.setMbox_keepsBut (s : State) (m : Nat) (f : MboxSt → MboxSt) : s.keepsBut [.host] (s.setMbox m f) :=
  State.setHost_keepsBut _ _

theorem State.setTx_keepsBut (s : State) (f : TxFlow) : s.keepsBut [.flow] (s.setTx f) := by
  simp [State.setTx, State.keepsBut_iff]

theorem State.note_keepsBut (s : State) (o : Owner) (n : Note) : s.keepsBut [.flow] (s.note o n) := by
  unfold State.note
  repeat' first
    | with_reducible exact State.keepsBut_refl _ _
    | rfl
    | split
    | with_reducible apply State.keepsBut_with_flow

theorem State.count_keepsBut (s : State) (cs : Counts) : s.keepsBut [.regs] (s.count cs) := by
  unfold State.count
  repeat' first
    | with_reducible exact State.keepsBut_refl _ _
    | with_reducible apply State.keepsBut_then (State.bump_keepsBut _ _ _ _)
    | (with_reducible apply State.keepsBut_foldl) <;> try intro _ _
    | rfl

theorem State.poolRefused_keepsBut (s : State) (m : Nat) (op : Nat) (k : Nat) (r : Nat) (status : Nat) (addr : Nat) :
    s.keepsBut [.fresh, .regs, .flt, .mgt, .out] (s.poolRefused m op k r status addr) := by
  unfold State.poolRefused
  dsimp only
  repeat' first
    | with_reducible exact State.keepsBut_refl _ _
    | with_reducible apply State.keepsBut_then (State.event_keepsBut _ _ _ _ _ _ _)
    | with_reducible apply State.keepsBut_then (State.report_keepsBut _ _ _)
    | rfl
    | split

theorem State.poolFail_keepsBut (s : State) (m : Nat) (op : Nat) (k : Nat) (r : Nat) (status : Nat) (addr : Nat) :
    s.keepsBut [.fresh, .regs, .flt, .mgt, .out] (s.poolFail m op k r status addr) := by
  unfold State.poolFail
  dsimp only
  repeat' first
    | with_reducible exact State.keepsBut_refl _ _
    | with_reducible apply State.keepsBut_then (State.bump_keepsBut _ _ _ _)
    | with_reducible apply State.keepsBut_then (State.poolRefused_keepsBut _ _ _ _ _ _ _)
    | rfl
    | split

theorem State.charge_keepsBut (s : State) (tile : Nat) (cls : Nat) (n : Nat) (shared : Bool) :
    s.keepsBut [.sw] (s.charge tile cls n shared) := by
  unfold State.charge
  repeat' first
    | with_reducible exact State.keepsBut_refl _ _
    | rfl
    | with_reducible apply State.keepsBut_with_sw

theorem State.noteLow_keepsBut (s : State) (k : Nat) (free : Nat) (total : Nat) :
    s.keepsBut [.pool] (s.noteLow k free total) := by
  simp [State.noteLow, State.keepsBut_iff]

theorem State.giveCells_keepsBut (s : State) (as : List Nat) (count : Nat) :
    s.keepsBut [.regs, .pool] (s.giveCells as count) := by
  unfold State.giveCells
  dsimp only
  repeat' first
    | with_reducible exact State.keepsBut_refl _ _
    | with_reducible apply State.keepsBut_then (State.noteLow_keepsBut _ _ _ _)
    | with_reducible apply State.keepsBut_then (State.bump_keepsBut _ _ _ _)
    | rfl
    | with_reducible apply State.keepsBut_with_pool

theorem State.takeCells_keepsBut (s : State) (tile : Nat) (cls : Nat) (n : Nat) (count : Nat) :
    s.keepsBut [.fresh, .regs, .flt, .mgt, .sw, .pool, .out] (s.takeCells tile cls n count).2 := by
  unfold State.takeCells
  dsimp only
  repeat' first
    | with_reducible exact State.keepsBut_refl _ _
    | with_reducible apply State.keepsBut_then (State.poolFail_keepsBut _ _ _ _ _ _ _)
    | with_reducible apply State.keepsBut_then (State.charge_keepsBut _ _ _ _ _)
    | with_reducible apply State.keepsBut_then (State.giveCells_keepsBut _ _ _)
    | rfl
    | split

theorem State.returnSett_keepsBut (s : State) (a : Nat) (k : Nat) : s.keepsBut [.regs, .pool] (s.returnSett a k) := by
  unfold State.returnSett
  repeat' first
    | with_reducible exact State.keepsBut_refl _ _
    | with_reducible apply State.keepsBut_then (State.bump_keepsBut _ _ _ _)
    | rfl
    | with_reducible apply State.keepsBut_with_pool

theorem State.uncharge_keepsBut (s : State) (tile : Nat) (cls : Nat) (n : Nat) (shared : Bool) :
    s.keepsBut [.sw] (s.uncharge tile cls n shared) := by
  unfold State.uncharge
  repeat' first
    | with_reducible exact State.keepsBut_refl _ _
    | rfl
    | with_reducible apply State.keepsBut_with_sw

theorem State.returnCells_keepsBut (s : State) (tile : Nat) (cls : Nat) (as : List Nat) (shared : Bool) :
    s.keepsBut [.regs, .sw, .pool] (s.returnCells tile cls as shared) := by
  unfold State.returnCells
  repeat' first
    | with_reducible exact State.keepsBut_refl _ _
    | with_reducible apply State.keepsBut_then (State.returnSett_keepsBut _ _ _)
    | with_reducible apply State.keepsBut_then (State.uncharge_keepsBut _ _ _ _ _)
    | (with_reducible apply State.keepsBut_foldl) <;> try intro _ _
    | rfl

theorem State.setStzEntries_keepsBut (s : State) (f : List StzEntry → List StzEntry) :
    s.keepsBut [.stz] (s.setStzEntries f) := by
  simp [State.setStzEntries, State.keepsBut_iff]

theorem State.stzContribution_keepsBut (s : State) (p : Nat) (h : Hdr) :
    s.keepsBut [.stz] (s.stzContribution p h) := by
  unfold State.stzContribution
  dsimp only
  repeat' first
    | with_reducible exact State.keepsBut_refl _ _
    | with_reducible apply State.keepsBut_then (State.setStzEntries_keepsBut _ _)
    | rfl
    | split

theorem State.stzClose_keepsBut (s : State) (p : Nat) (h : Hdr) (a : AckInfo) :
    s.keepsBut [.stz] (s.stzClose p h a) := by
  unfold State.stzClose
  repeat' first
    | with_reducible exact State.keepsBut_refl _ _
    | with_reducible apply State.keepsBut_then (State.setStzEntries_keepsBut _ _)
    | rfl

theorem State.stzCompletion_keepsBut (s : State) (p : Nat) (h : Hdr) : s.keepsBut [.stz] (s.stzCompletion p h) := by
  unfold State.stzCompletion
  repeat' first
    | with_reducible exact State.keepsBut_refl _ _
    | with_reducible apply State.keepsBut_then (State.setStzEntries_keepsBut _ _)
    | rfl

theorem State.stzOpen_keepsBut (s : State) (p : Nat) (h : Hdr) (a : AckInfo) :
    s.keepsBut [.stz] (s.stzOpen p h a) := by
  unfold State.stzOpen
  dsimp only
  repeat' first
    | with_reducible exact State.keepsBut_refl _ _
    | with_reducible apply State.keepsBut_then (State.setStzEntries_keepsBut _ _)
    | rfl

theorem State.stzWatch_keepsBut (s : State) (f : Frame) (port : Option Nat) (copies : List Copy) :
    s.keepsBut [.stz] (s.stzWatch f port copies) := by
  unfold State.stzWatch
  dsimp only
  repeat' first
    | with_reducible exact State.keepsBut_refl _ _
    | with_reducible apply State.keepsBut_then (State.stzContribution_keepsBut _ _ _)
    | with_reducible apply State.keepsBut_then (State.stzClose_keepsBut _ _ _ _)
    | with_reducible apply State.keepsBut_then (State.stzCompletion_keepsBut _ _ _)
    | with_reducible apply State.keepsBut_then (State.stzOpen_keepsBut _ _ _ _)
    | (with_reducible apply State.keepsBut_foldl) <;> try intro _ _
    | rfl
    | split

theorem State.enqueue_keepsBut (s : State) (id : Nat) (tile : Nat) (cls : Nat) (cells : Nat) (h : Hdr) (c : Copy) :
    s.keepsBut [.sw] (s.enqueue id tile cls cells h c) := by
  unfold State.enqueue
  dsimp only
  repeat' first
    | with_reducible exact State.keepsBut_refl _ _
    | rfl
    | split
    | with_reducible apply State.keepsBut_with_sw

theorem State.storeFrame_keepsBut (s : State) (f : Frame) (port : Option Nat) (tile : Nat) (cls : Nat) (cells : List Nat × Bool) (marked : Bool) (copies : List Copy) :
    s.keepsBut [.regs, .sw, .pool, .stz] (s.storeFrame f port tile cls cells marked copies) := by
  unfold State.storeFrame
  dsimp only
  repeat' first
    | with_reducible exact State.keepsBut_refl _ _
    | with_reducible apply State.keepsBut_then (State.returnCells_keepsBut _ _ _ _ _)
    | with_reducible apply State.keepsBut_then (State.stzWatch_keepsBut _ _ _ _)
    | with_reducible apply State.keepsBut_then (State.enqueue_keepsBut _ _ _ _ _ _ _)
    | (with_reducible apply State.keepsBut_foldl) <;> try intro _ _
    | rfl
    | split
    | with_reducible apply State.keepsBut_with_sw

theorem State.admitOwn_keepsBut (s : State) (f : Frame) (copies : List Copy) (tile : Nat) :
    s.keepsBut [.fresh, .regs, .flt, .mgt, .sw, .pool, .stz, .out] (s.admitOwn f copies tile) := by
  unfold State.admitOwn
  repeat' first
    | with_reducible exact State.keepsBut_refl _ _
    | with_reducible apply State.keepsBut_then (State.takeCells_keepsBut _ _ _ _ _)
    | with_reducible apply State.keepsBut_then (State.storeFrame_keepsBut _ _ _ _ _ _ _ _)
    | refine State.keepsBut_snd (by assumption) ?_
    | rfl
    | split

theorem State.inject_keepsBut (s : State) (f : Frame) (at_ : Option Nat) :
    s.keepsBut [.fresh, .regs, .flt, .mgt, .sw, .pool, .stz, .out] (s.inject f at_).2 := by
  unfold State.inject
  dsimp only
  repeat' first
    | with_reducible exact State.keepsBut_refl _ _
    | with_reducible apply State.keepsBut_then (State.count_keepsBut _ _)
    | with_reducible apply State.keepsBut_then (State.admitOwn_keepsBut _ _ _ _)
    | with_reducible apply State.keepsBut_then (State.bump_keepsBut _ _ _ _)
    | rfl
    | split

theorem State.sendAck_keepsBut (s : State) (h : Hdr) (ep : Nat) (a : AckInfo) :
    s.keepsBut [.fresh, .regs, .flt, .mgt, .sw, .pool, .stz, .out] (s.sendAck h ep a) := by
  unfold State.sendAck
  dsimp only
  repeat' first
    | with_reducible exact State.keepsBut_refl _ _
    | with_reducible apply State.keepsBut_then (State.bump_keepsBut _ _ _ _)
    | with_reducible apply State.keepsBut_then (State.inject_keepsBut _ _ _)
    | rfl
    | split

theorem State.transitAck_keepsBut (s : State) (h : Hdr) (scope : Nat) (status : Nat) :
    s.keepsBut [.fresh, .regs, .flt, .mgt, .sw, .pool, .stz, .out] (s.transitAck h scope status) := by
  unfold State.transitAck
  repeat' first
    | with_reducible exact State.keepsBut_refl _ _
    | with_reducible apply State.keepsBut_then (State.sendAck_keepsBut _ _ _ _)
    | rfl

theorem State.ratedRefusal_keepsBut (s : State) (h : Hdr) (status : Nat) :
    s.keepsBut [.fresh, .regs, .flt, .mgt, .flow, .sw, .pool, .stz, .out] (s.ratedRefusal h status) := by
  unfold State.ratedRefusal
  dsimp only
  repeat' first
    | with_reducible exact State.keepsBut_refl _ _
    | with_reducible apply State.keepsBut_then (State.transitAck_keepsBut _ _ _ _)
    | rfl
    | split
    | with_reducible apply State.keepsBut_with_flow

theorem State.originate_keepsBut (s : State) (f : Frame) (at_ : Option Nat) :
    s.keepsBut [.fresh, .regs, .flt, .mgt, .flow, .sw, .pool, .stz, .out] (s.originate f at_) := by
  unfold State.originate
  dsimp only
  repeat' first
    | with_reducible exact State.keepsBut_refl _ _
    | with_reducible apply State.keepsBut_then (State.inject_keepsBut _ _ _)
    | with_reducible apply State.keepsBut_then (State.ratedRefusal_keepsBut _ _ _)
    | rfl
    | split

theorem State.send_keepsBut (s : State) (f : Frame) (o : Owner) :
    s.keepsBut [.fresh, .regs, .flt, .mgt, .flow, .sw, .pool, .stz, .out] (s.send f o) := by
  unfold State.send
  dsimp only
  repeat' first
    | with_reducible exact State.keepsBut_refl _ _
    | with_reducible apply State.keepsBut_then (State.setTx_keepsBut _ _)
    | with_reducible apply State.keepsBut_then (State.bump_keepsBut _ _ _ _)
    | with_reducible apply State.keepsBut_then (State.note_keepsBut _ _ _)
    | with_reducible apply State.keepsBut_then (State.originate_keepsBut _ _ _)
    | (with_reducible apply State.keepsBut_foldl) <;> try intro _ _
    | rfl
    | split

theorem State.draw_keepsBut (s : State) : s.keepsBut [.fresh] (s.draw).2 := by
  simp [State.draw, State.keepsBut_iff]

theorem State.dropFlows_keepsBut (s : State) (job : Nat) : s.keepsBut [.flow] (s.dropFlows job) := by
  simp [State.dropFlows, State.keepsBut_iff]

theorem State.admitJob_keepsBut (s : State) (b : List Byte) : s.keepsBut [.host, .flow] (s.admitJob b) := by
  unfold State.admitJob
  dsimp only
  repeat' first
    | with_reducible exact State.keepsBut_refl _ _
    | with_reducible apply State.keepsBut_then (State.dropFlows_keepsBut _ _)
    | with_reducible apply State.keepsBut_then (State.setHost_keepsBut _ _)
    | rfl

theorem State.countEnding_keepsBut (s : State) (d : CollDesc) (status : Nat) :
    s.keepsBut [.regs] (s.countEnding d status) := by
  unfold State.countEnding
  dsimp only
  repeat' first
    | with_reducible exact State.keepsBut_refl _ _
    | with_reducible apply State.keepsBut_then (State.bump_keepsBut _ _ _ _)
    | rfl
    | split

theorem State.findHedged_keepsBut (s : State) (job : Nat) (d : CollDesc) (i : InstSt) :
    s.keepsBut [.regs] (s.findHedged job d i).2 := by
  unfold State.findHedged
  dsimp only
  repeat' first
    | with_reducible exact State.keepsBut_refl _ _
    | with_reducible apply State.keepsBut_then (State.bump_keepsBut _ _ _ _)
    | rfl
    | split

theorem State.setColl_keepsBut (s : State) (f : CollsSt → CollsSt) : s.keepsBut [.coll] (s.setColl f) := by
  simp [State.setColl, State.keepsBut_iff]

theorem State.setOp_keepsBut (s : State) (ctx : Nat) (f : CollSt → CollSt) : s.keepsBut [.coll] (s.setOp ctx f) := by
  unfold State.setOp
  repeat' first
    | with_reducible exact State.keepsBut_refl _ _
    | with_reducible apply State.keepsBut_then (State.setColl_keepsBut _ _)
    | rfl
    | split

theorem State.workEnded_keepsBut (s : State) (f : Nat) (job : Nat) (drained : Bool) :
    s.keepsBut [.host] (s.workEnded f job drained) := by
  unfold State.workEnded
  repeat' first
    | with_reducible exact State.keepsBut_refl _ _
    | rfl
    | split
    | with_reducible apply State.keepsBut_with_host

theorem State.sendComplete_keepsBut (s : State) (ctx : Nat) (gen : Nat) (job : Nat) (d : CollDesc) (i : InstSt) (status : Nat) (t : Stamp) (m : Nat) :
    s.keepsBut [.fresh, .regs, .flt, .mgt, .flow, .sw, .pool, .stz, .out] (s.sendComplete ctx gen job d i status t m) := by
  unfold State.sendComplete
  dsimp only
  repeat' first
    | with_reducible exact State.keepsBut_refl _ _
    | with_reducible apply State.keepsBut_then (State.send_keepsBut _ _ _)
    | rfl

theorem State.setEng_keepsBut (s : State) (f : EngsSt → EngsSt) : s.keepsBut [.eng] (s.setEng f) := by
  simp [State.setEng, State.keepsBut_iff]

theorem State.dropBench_keepsBut (s : State) (b : Nat × Nat) : s.keepsBut [.eng] (s.dropBench b) :=
  State.setEng_keepsBut _ _

theorem State.dropCtx_keepsBut (s : State) (n : Nat) : s.keepsBut [.ctxs] (s.dropCtx n) := by
  simp [State.dropCtx, State.keepsBut_iff]

theorem State.opFail_keepsBut (s : State) (m : Nat) (op : Nat) (k : Nat) (r : Nat) (st : Nat) (a : Nat) :
    s.keepsBut [.fresh, .regs, .flt, .mgt, .out] (s.opFail m op k r st a).2 :=
  State.poolFail_keepsBut _ _ _ _ _ _ _

theorem State.setCount_keepsBut (s : State) (a : Nat) (x : Sett) (n : Nat) :
    s.keepsBut [.pool] (s.setCount a x n) := by
  simp [State.setCount, State.keepsBut_iff]

theorem State.free_keepsBut (s : State) (m : Nat) (r : Nat) (a : Nat) :
    s.keepsBut [.fresh, .regs, .flt, .mgt, .pool, .out] (s.free m r a).2 := by
  unfold State.free
  repeat' first
    | with_reducible exact State.keepsBut_refl _ _
    | with_reducible apply State.keepsBut_then (State.opFail_keepsBut _ _ _ _ _ _ _)
    | with_reducible apply State.keepsBut_then (State.returnSett_keepsBut _ _ _)
    | with_reducible apply State.keepsBut_then (State.setCount_keepsBut _ _ _ _)
    | refine State.keepsBut_snd (by assumption) ?_
    | rfl
    | split

theorem State.dropChunk_keepsBut (s : State) (c : ChunkSt) :
    s.keepsBut [.fresh, .regs, .flt, .mgt, .pool, .eng, .ctxs, .out] (s.dropChunk c) := by
  unfold State.dropChunk
  dsimp only
  repeat' first
    | with_reducible exact State.keepsBut_refl _ _
    | with_reducible apply State.keepsBut_then (State.dropBench_keepsBut _ _)
    | with_reducible apply State.keepsBut_then (State.dropCtx_keepsBut _ _)
    | with_reducible apply State.keepsBut_then (State.free_keepsBut _ _ _ _)
    | (with_reducible apply State.keepsBut_foldl) <;> try intro _ _
    | rfl
    | split

theorem State.completeSettled_keepsBut (s : State) (ctx : Nat) (gen : Nat) :
    s.keepsBut [.fresh, .regs, .flt, .mgt, .pool, .eng, .coll, .ctxs, .out] (s.completeSettled ctx gen) := by
  unfold State.completeSettled
  dsimp only
  repeat' first
    | with_reducible exact State.keepsBut_refl _ _
    | with_reducible apply State.keepsBut_then (State.dropChunk_keepsBut _ _)
    | with_reducible apply State.keepsBut_then (State.setOp_keepsBut _ _ _)
    | (with_reducible apply State.keepsBut_foldl) <;> try intro _ _
    | rfl
    | split

theorem State.endInstance_keepsBut (s : State) (ctx : Nat) (status : Nat) :
    s.keepsBut [.fresh, .regs, .flt, .mgt, .host, .flow, .sw, .pool, .eng, .coll, .stz, .ctxs, .out] (s.endInstance ctx status) := by
  unfold State.endInstance
  dsimp only
  repeat' first
    | with_reducible exact State.keepsBut_refl _ _
    | with_reducible apply State.keepsBut_then (State.stamped_keepsBut _)
    | with_reducible apply State.keepsBut_then (State.bump_keepsBut _ _ _ _)
    | with_reducible apply State.keepsBut_then (State.countEnding_keepsBut _ _ _)
    | with_reducible apply State.keepsBut_then (State.findHedged_keepsBut _ _ _ _)
    | with_reducible apply State.keepsBut_then (State.setOp_keepsBut _ _ _)
    | with_reducible apply State.keepsBut_then (State.setColl_keepsBut _ _)
    | with_reducible apply State.keepsBut_then (State.workEnded_keepsBut _ _ _ _)
    | with_reducible apply State.keepsBut_then (State.sendComplete_keepsBut _ _ _ _ _ _ _ _ _)
    | with_reducible apply State.keepsBut_then (State.completeSettled_keepsBut _ _ _)
    | (with_reducible apply State.keepsBut_foldl) <;> try intro _ _
    | refine State.keepsBut_snd (by assumption) ?_
    | rfl
    | split
    | with_reducible apply State.keepsBut_with_ctxs

theorem State.endInstances_keepsBut (s : State) (inScope : Nat → Bool) (status : Nat) :
    s.keepsBut [.fresh, .regs, .flt, .mgt, .host, .flow, .sw, .pool, .eng, .coll, .stz, .ctxs, .out] (s.endInstances inScope status) := by
  unfold State.endInstances
  repeat' first
    | with_reducible exact State.keepsBut_refl _ _
    | with_reducible apply State.keepsBut_then (State.endInstance_keepsBut _ _ _)
    | (with_reducible apply State.keepsBut_foldl) <;> try intro _ _
    | rfl

theorem State.setQueue_keepsBut (s : State) (t : Nat) (q : List QJob) : s.keepsBut [.eng] (s.setQueue t q) :=
  State.setEng_keepsBut _ _

theorem State.setEngine_keepsBut (s : State) (k : Nat) (f : EngSt → EngSt) : s.keepsBut [.eng] (s.setEngine k f) :=
  State.setEng_keepsBut _ _

theorem State.engineRetired_keepsBut (s : State) (k : Nat) (cause : Nat) :
    s.keepsBut [.fresh, .regs, .mgt, .eng, .out] (s.engineRetired k cause) := by
  unfold State.engineRetired
  dsimp only
  repeat' first
    | with_reducible exact State.keepsBut_refl _ _
    | with_reducible apply State.keepsBut_then (State.setEngine_keepsBut _ _ _)
    | with_reducible apply State.keepsBut_then (State.event_keepsBut _ _ _ _ _ _ _)
    | rfl
    | split
    | with_reducible apply State.keepsBut_with_mgt

theorem State.engineIdle_keepsBut (s : State) (k : Nat) :
    s.keepsBut [.fresh, .regs, .mgt, .eng, .out] (s.engineIdle k) := by
  unfold State.engineIdle
  dsimp only
  repeat' first
    | with_reducible exact State.keepsBut_refl _ _
    | with_reducible apply State.keepsBut_then (State.engineRetired_keepsBut _ _ _)
    | rfl
    | split

theorem State.dropWaiting_keepsBut (s : State) (ctx : Nat) :
    s.keepsBut [.fresh, .regs, .mgt, .eng, .out] (s.dropWaiting ctx) := by
  unfold State.dropWaiting
  dsimp only
  repeat' first
    | with_reducible exact State.keepsBut_refl _ _
    | with_reducible apply State.keepsBut_then (State.setQueue_keepsBut _ _ _)
    | with_reducible apply State.keepsBut_then (State.setEngine_keepsBut _ _ _)
    | with_reducible apply State.keepsBut_then (State.engineIdle_keepsBut _ _)
    | (with_reducible apply State.keepsBut_foldl) <;> try intro _ _
    | rfl
    | split

theorem State.cancelJobs_keepsBut (s : State) (ctx : Nat) :
    s.keepsBut [.fresh, .regs, .mgt, .eng, .out] (s.cancelJobs ctx) := by
  unfold State.cancelJobs
  dsimp only
  repeat' first
    | with_reducible exact State.keepsBut_refl _ _
    | with_reducible apply State.keepsBut_then (State.dropWaiting_keepsBut _ _)
    | with_reducible apply State.keepsBut_then (State.setEngine_keepsBut _ _ _)
    | (with_reducible apply State.keepsBut_foldl) <;> try intro _ _
    | rfl
    | split

theorem State.withdraw_keepsBut (s : State) (p : Owner → Bool) : s.keepsBut [.flow] (s.withdraw p) := by
  simp [State.withdraw, State.keepsBut_iff]

theorem State.setProg_keepsBut (s : State) (ctx : Nat) (p : ProgSt) : s.keepsBut [.eng] (s.setProg ctx p) :=
  State.setEng_keepsBut _ _

theorem State.endRun_keepsBut (s : State) (ctx : Nat) (status : Nat) :
    s.keepsBut [.fresh, .regs, .mgt, .host, .flow, .eng, .out] (s.endRun ctx status) := by
  unfold State.endRun
  dsimp only
  repeat' first
    | with_reducible exact State.keepsBut_refl _ _
    | with_reducible apply State.keepsBut_then (State.dropBench_keepsBut _ _)
    | with_reducible apply State.keepsBut_then (State.cancelJobs_keepsBut _ _)
    | with_reducible apply State.keepsBut_then (State.withdraw_keepsBut _ _)
    | with_reducible apply State.keepsBut_then (State.workEnded_keepsBut _ _ _ _)
    | with_reducible apply State.keepsBut_then (State.setProg_keepsBut _ _ _)
    | with_reducible apply State.keepsBut_then (State.setEng_keepsBut _ _)
    | (with_reducible apply State.keepsBut_foldl) <;> try intro _ _
    | rfl
    | split

theorem State.endRuns_keepsBut (s : State) (inScope : Nat → Bool) (status : Nat) :
    s.keepsBut [.fresh, .regs, .mgt, .host, .flow, .eng, .out] (s.endRuns inScope status) := by
  unfold State.endRuns
  repeat' first
    | with_reducible exact State.keepsBut_refl _ _
    | with_reducible apply State.keepsBut_then (State.endRun_keepsBut _ _ _)
    | (with_reducible apply State.keepsBut_foldl) <;> try intro _ _
    | rfl

theorem State.setParm_keepsBut (s : State) (f : ParamSt → ParamSt) : s.keepsBut [.parm] (s.setParm f) := by
  simp [State.setParm, State.keepsBut_iff]

theorem State.setBlock_keepsBut (s : State) (ctx : Nat) (f : BlockSt → BlockSt) :
    s.keepsBut [.parm] (s.setBlock ctx f) := by
  unfold State.setBlock
  repeat' first
    | with_reducible exact State.keepsBut_refl _ _
    | with_reducible apply State.keepsBut_then (State.setParm_keepsBut _ _)
    | rfl
    | split

theorem State.sendGroup_keepsBut (s : State) (kind : Nat) (g : GroupSt) (m : Nat) :
    s.keepsBut [.fresh, .regs, .flt, .mgt, .flow, .sw, .pool, .stz, .out] (s.sendGroup kind g m) := by
  unfold State.sendGroup
  dsimp only
  repeat' first
    | with_reducible exact State.keepsBut_refl _ _
    | with_reducible apply State.keepsBut_then (State.send_keepsBut _ _ _)
    | rfl

theorem State.dropGroup_keepsBut (s : State) (home : Nat) (id : Nat) : s.keepsBut [.topo] (s.dropGroup home id) := by
  simp [State.dropGroup, State.keepsBut_iff]

theorem State.removeGroup_keepsBut (s : State) (id : Nat) :
    s.keepsBut [.fresh, .regs, .flt, .mgt, .topo, .flow, .sw, .pool, .stz, .out] (s.removeGroup id) := by
  unfold State.removeGroup
  repeat' first
    | with_reducible exact State.keepsBut_refl _ _
    | with_reducible apply State.keepsBut_then (State.sendGroup_keepsBut _ _ _ _)
    | with_reducible apply State.keepsBut_then (State.withdraw_keepsBut _ _)
    | with_reducible apply State.keepsBut_then (State.dropGroup_keepsBut _ _ _)
    | (with_reducible apply State.keepsBut_foldl) <;> try intro _ _
    | rfl
    | split

theorem State.setGroup_keepsBut (s : State) (g : GroupSt) : s.keepsBut [.topo] (s.setGroup g) := by
  simp [State.setGroup, State.keepsBut_iff]

theorem State.leaveGroup_keepsBut (s : State) (id : Nat) :
    s.keepsBut [.fresh, .regs, .flt, .mgt, .topo, .flow, .sw, .pool, .stz, .out] (s.leaveGroup id) := by
  unfold State.leaveGroup
  repeat' first
    | with_reducible exact State.keepsBut_refl _ _
    | with_reducible apply State.keepsBut_then (State.removeGroup_keepsBut _ _)
    | with_reducible apply State.keepsBut_then (State.setGroup_keepsBut _ _)
    | rfl
    | split

theorem State.removeBlock_keepsBut (s : State) (ctx : Nat) :
    s.keepsBut [.fresh, .regs, .flt, .mgt, .topo, .flow, .sw, .pool, .eng, .parm, .stz, .ctxs, .out] (s.removeBlock ctx) := by
  unfold State.removeBlock
  dsimp only
  repeat' first
    | with_reducible exact State.keepsBut_refl _ _
    | with_reducible apply State.keepsBut_then (State.cancelJobs_keepsBut _ _)
    | with_reducible apply State.keepsBut_then (State.withdraw_keepsBut _ _)
    | with_reducible apply State.keepsBut_then (State.free_keepsBut _ _ _ _)
    | with_reducible apply State.keepsBut_then (State.setParm_keepsBut _ _)
    | with_reducible apply State.keepsBut_then (State.dropCtx_keepsBut _ _)
    | with_reducible apply State.keepsBut_then (State.leaveGroup_keepsBut _ _)
    | (with_reducible apply State.keepsBut_foldl) <;> try intro _ _
    | refine State.keepsBut_snd (by assumption) ?_
    | rfl
    | split

theorem State.endBlocks_keepsBut (s : State) (job : Nat) :
    s.keepsBut [.fresh, .regs, .flt, .mgt, .topo, .flow, .sw, .pool, .eng, .parm, .stz, .ctxs, .out] (s.endBlocks job) := by
  unfold State.endBlocks
  repeat' first
    | with_reducible exact State.keepsBut_refl _ _
    | with_reducible apply State.keepsBut_then (State.setBlock_keepsBut _ _ _)
    | with_reducible apply State.keepsBut_then (State.removeBlock_keepsBut _ _)
    | (with_reducible apply State.keepsBut_foldl) <;> try intro _ _
    | rfl
    | split

theorem State.withdrawGet_keepsBut (s : State) (id : Nat) : s.keepsBut [.flow] (s.withdrawGet id) := by
  unfold State.withdrawGet
  repeat' first
    | with_reducible exact State.keepsBut_refl _ _
    | with_reducible apply State.keepsBut_then (State.withdraw_keepsBut _ _)
    | rfl

theorem State.setStash_keepsBut (s : State) (f : StashSt → StashSt) : s.keepsBut [.stash] (s.setStash f) := by
  simp [State.setStash, State.keepsBut_iff]

theorem State.stashEnd_keepsBut (s : State) (job : Nat) : s.keepsBut [.regs, .flow, .stash] (s.stashEnd job) := by
  unfold State.stashEnd
  dsimp only
  repeat' first
    | with_reducible exact State.keepsBut_refl _ _
    | with_reducible apply State.keepsBut_then (State.withdrawGet_keepsBut _ _)
    | with_reducible apply State.keepsBut_then (State.bump_keepsBut _ _ _ _)
    | with_reducible apply State.keepsBut_then (State.setStash_keepsBut _ _)
    | (with_reducible apply State.keepsBut_foldl) <;> try intro _ _
    | rfl
    | split

theorem State.setStz_keepsBut (s : State) (f : StzSt → StzSt) : s.keepsBut [.stz] (s.setStz f) := by
  simp [State.setStz, State.keepsBut_iff]

theorem State.stzReturn_keepsBut (s : State) (n : Nat) :
    s.keepsBut [.fresh, .regs, .flt, .mgt, .pool, .stz, .ctxs, .out] (s.stzReturn n) := by
  unfold State.stzReturn
  dsimp only
  repeat' first
    | with_reducible exact State.keepsBut_refl _ _
    | with_reducible apply State.keepsBut_then (State.free_keepsBut _ _ _ _)
    | with_reducible apply State.keepsBut_then (State.dropCtx_keepsBut _ _)
    | with_reducible apply State.keepsBut_then (State.setStz_keepsBut _ _)
    | refine State.keepsBut_snd (by assumption) ?_
    | rfl
    | split

theorem State.removeColl_keepsBut (s : State) (ctx : Nat) :
    s.keepsBut [.fresh, .regs, .flt, .mgt, .topo, .flow, .sw, .pool, .eng, .coll, .parm, .stz, .ctxs, .out] (s.removeColl ctx) := by
  unfold State.removeColl
  dsimp only
  repeat' first
    | with_reducible exact State.keepsBut_refl _ _
    | with_reducible apply State.keepsBut_then (State.setColl_keepsBut _ _)
    | with_reducible apply State.keepsBut_then (State.dropCtx_keepsBut _ _)
    | with_reducible apply State.keepsBut_then (State.removeGroup_keepsBut _ _)
    | with_reducible apply State.keepsBut_then (State.dropChunk_keepsBut _ _)
    | (with_reducible apply State.keepsBut_foldl) <;> try intro _ _
    | rfl
    | split
    | with_reducible apply State.keepsBut_with_parm

theorem State.freeAll_keepsBut (s : State) (m : Nat) (r : Nat) (as : List Nat) :
    s.keepsBut [.fresh, .regs, .flt, .mgt, .pool, .out] (s.freeAll m r as) := by
  unfold State.freeAll
  repeat' first
    | with_reducible exact State.keepsBut_refl _ _
    | with_reducible apply State.keepsBut_then (State.free_keepsBut _ _ _ _)
    | (with_reducible apply State.keepsBut_foldl) <;> try intro _ _
    | rfl

theorem State.unload_keepsBut (s : State) (ctx : Nat) :
    s.keepsBut [.fresh, .regs, .flt, .mgt, .pool, .eng, .ctxs, .out] (s.unload ctx) := by
  unfold State.unload
  dsimp only
  repeat' first
    | with_reducible exact State.keepsBut_refl _ _
    | with_reducible apply State.keepsBut_then (State.freeAll_keepsBut _ _ _ _)
    | with_reducible apply State.keepsBut_then (State.setEng_keepsBut _ _)
    | with_reducible apply State.keepsBut_then (State.dropCtx_keepsBut _ _)
    | rfl
    | split

theorem State.endContexts_keepsBut (s : State) (job : Nat) :
    s.keepsBut [.fresh, .regs, .flt, .mgt, .topo, .flow, .sw, .pool, .eng, .coll, .parm, .stz, .ctxs, .out] (s.endContexts job) := by
  unfold State.endContexts
  dsimp only
  repeat' first
    | with_reducible exact State.keepsBut_refl _ _
    | with_reducible apply State.keepsBut_then (State.removeColl_keepsBut _ _)
    | with_reducible apply State.keepsBut_then (State.unload_keepsBut _ _)
    | (with_reducible apply State.keepsBut_foldl) <;> try intro _ _
    | rfl

theorem State.reclaim_keepsBut (s : State) (job : Nat) : s.keepsBut [.regs, .pool] (s.reclaim job) := by
  unfold State.reclaim
  dsimp only
  repeat' first
    | with_reducible exact State.keepsBut_refl _ _
    | with_reducible apply State.keepsBut_then (State.bump_keepsBut _ _ _ _)
    | (with_reducible apply State.keepsBut_foldl) <;> try intro _ _
    | rfl
    | with_reducible apply State.keepsBut_with_pool

theorem State.disable_keepsBut (s : State) (f : Nat) (job : Nat) (drain : Nat) :
    s.keepsBut [.host] (s.disable f job drain) := by
  unfold State.disable
  repeat' first
    | with_reducible exact State.keepsBut_refl _ _
    | with_reducible apply State.keepsBut_then (State.setHost_keepsBut _ _)
    | rfl

theorem State.enable_keepsBut (s : State) (f : Nat) (job : Nat) : s.keepsBut [.host] (s.enable f job) :=
  State.setHost_keepsBut _ _

theorem State.setBoot_keepsBut (s : State) (f : BootSt → BootSt) : s.keepsBut [.boot] (s.setBoot f) := by
  simp [State.setBoot, State.keepsBut_iff]

theorem State.clearMem_keepsBut (s : State) (a : Nat) (n : Nat) : s.keepsBut [.mem] (s.clearMem a n) := by
  simp [State.clearMem, State.keepsBut_iff]

theorem State.assignSubstitutes_keepsBut (s : State) : s.keepsBut [.flt] (s.assignSubstitutes) := by
  unfold State.assignSubstitutes
  dsimp only
  repeat' first
    | with_reducible exact State.keepsBut_refl _ _
    | (with_reducible apply State.keepsBut_foldl) <;> try intro _ _
    | rfl
    | split
    | with_reducible apply State.keepsBut_with_flt

theorem State.enter_keepsBut (s : State) (p : Nat) (reason : Nat) :
    s.keepsBut [.fresh, .regs, .boot, .mgt, .out] (s.enter p reason) := by
  unfold State.enter
  dsimp only
  repeat' first
    | with_reducible exact State.keepsBut_refl _ _
    | with_reducible apply State.keepsBut_then (State.setBoot_keepsBut _ _)
    | with_reducible apply State.keepsBut_then (State.event_keepsBut _ _ _ _ _ _ _)
    | rfl

theorem State.setTopo_keepsBut (s : State) (f : TopoSt → TopoSt) : s.keepsBut [.topo] (s.setTopo f) := by
  simp [State.setTopo, State.keepsBut_iff]

theorem State.repower_keepsBut (s : State) (t : Nat) : s.keepsBut [.boot, .pwr] (s.repower t) := by
  unfold State.repower
  repeat' first
    | with_reducible exact State.keepsBut_refl _ _
    | with_reducible apply State.keepsBut_then (State.setBoot_keepsBut _ _)
    | with_reducible apply State.keepsBut_then (State.setTilePwr_keepsBut _ _ _)
    | rfl
    | split

theorem State.stopTile_keepsBut (s : State) (t : Nat) :
    s.keepsBut [.fresh, .regs, .mgt, .eng, .out] (s.stopTile t) := by
  unfold State.stopTile
  dsimp only
  repeat' first
    | with_reducible exact State.keepsBut_refl _ _
    | with_reducible apply State.keepsBut_then (State.setEng_keepsBut _ _)
    | with_reducible apply State.keepsBut_then (State.setEngine_keepsBut _ _ _)
    | with_reducible apply State.keepsBut_then (State.setQueue_keepsBut _ _ _)
    | with_reducible apply State.keepsBut_then (State.engineIdle_keepsBut _ _)
    | (with_reducible apply State.keepsBut_foldl) <;> try intro _ _
    | rfl
    | split

theorem State.setPort_keepsBut (s : State) (p : Nat) (f : PortSt → PortSt) : s.keepsBut [.link] (s.setPort p f) := by
  simp [State.setPort, State.keepsBut_iff]

theorem State.setLane_keepsBut (s : State) (n : Nat) (f : LaneSt → LaneSt) : s.keepsBut [.link] (s.setLane n f) := by
  simp [State.setLane, State.keepsBut_iff]

theorem State.forgetCaps_keepsBut (s : State) (p : Nat) : s.keepsBut [.link] (s.forgetCaps p) := by
  unfold State.forgetCaps
  repeat' first
    | with_reducible exact State.keepsBut_refl _ _
    | with_reducible apply State.keepsBut_then (State.setLane_keepsBut _ _ _)
    | (with_reducible apply State.keepsBut_foldl) <;> try intro _ _
    | rfl
    | split

theorem State.setInUse_keepsBut (s : State) (p : Nat) (bm : Nat) (w : Nat) :
    s.keepsBut [.link] (s.setInUse p bm w) := by
  unfold State.setInUse
  dsimp only
  repeat' first
    | with_reducible exact State.keepsBut_refl _ _
    | with_reducible apply State.keepsBut_then (State.setLane_keepsBut _ _ _)
    | (with_reducible apply State.keepsBut_foldl) <;> try intro _ _
    | rfl
    | split

theorem State.dropRx_keepsBut (s : State) (p : Nat) (f : RxFrame) :
    s.keepsBut [.regs, .sw, .pool] (s.dropRx p f) := by
  unfold State.dropRx
  repeat' first
    | with_reducible exact State.keepsBut_refl _ _
    | with_reducible apply State.keepsBut_then (State.returnCells_keepsBut _ _ _ _ _)
    | rfl
    | split

theorem State.dropReception_keepsBut (s : State) (p : Nat) : s.keepsBut [.regs, .sw, .pool] (s.dropReception p) := by
  unfold State.dropReception
  dsimp only
  repeat' first
    | with_reducible exact State.keepsBut_refl _ _
    | with_reducible apply State.keepsBut_then (State.dropRx_keepsBut _ _ _)
    | rfl
    | split
    | with_reducible apply State.keepsBut_with_sw

theorem State.scaleEvent_keepsBut (s : State) (p : Nat) (old : Nat) :
    s.keepsBut [.fresh, .regs, .mgt, .out] (s.scaleEvent p old) := by
  unfold State.scaleEvent
  dsimp only
  repeat' first
    | with_reducible exact State.keepsBut_refl _ _
    | with_reducible apply State.keepsBut_then (State.event_keepsBut _ _ _ _ _ _ _)
    | rfl
    | split

theorem State.setRoute_keepsBut (s : State) (p : Nat) (f : RouteSt → RouteSt) :
    s.keepsBut [.topo] (s.setRoute p f) :=
  State.setTopo_keepsBut _ _

theorem State.sendLinkLocal_keepsBut (s : State) (p : Nat) (op : Nat) (payload : List Byte) :
    s.keepsBut [.fresh, .regs, .flt, .mgt, .sw, .pool, .stz, .out] (s.sendLinkLocal p op payload) := by
  unfold State.sendLinkLocal
  dsimp only
  repeat' first
    | with_reducible exact State.keepsBut_refl _ _
    | with_reducible apply State.keepsBut_then (State.admitOwn_keepsBut _ _ _ _)
    | rfl
    | split

theorem State.sendDisc_keepsBut (s : State) (p : Nat) (d : Disc) :
    s.keepsBut [.fresh, .regs, .flt, .mgt, .sw, .pool, .stz, .out] (s.sendDisc p d) := by
  unfold State.sendDisc
  repeat' first
    | with_reducible exact State.keepsBut_refl _ _
    | with_reducible apply State.keepsBut_then (State.stamped_keepsBut _)
    | with_reducible apply State.keepsBut_then (State.sendLinkLocal_keepsBut _ _ _ _)
    | rfl

theorem State.sendNotice_keepsBut (s : State) (n : Notice) (p : Nat) :
    s.keepsBut [.fresh, .regs, .flt, .mgt, .sw, .pool, .stz, .out] (s.sendNotice n p) :=
  State.sendDisc_keepsBut _ _ _

theorem State.floodNotice_keepsBut (s : State) (n : Notice) :
    s.keepsBut [.fresh, .regs, .flt, .mgt, .sw, .pool, .stz, .out] (s.floodNotice n) := by
  unfold State.floodNotice
  dsimp only
  repeat' first
    | with_reducible exact State.keepsBut_refl _ _
    | with_reducible apply State.keepsBut_then (State.sendNotice_keepsBut _ _ _)
    | (with_reducible apply State.keepsBut_foldl) <;> try intro _ _
    | rfl
    | split

theorem State.holdNotice_keepsBut (s : State) (n : Notice) :
    s.keepsBut [.fresh, .regs, .flt, .mgt, .topo, .sw, .pool, .stz, .out] (s.holdNotice n) := by
  unfold State.holdNotice
  repeat' first
    | with_reducible exact State.keepsBut_refl _ _
    | with_reducible apply State.keepsBut_then (State.setTopo_keepsBut _ _)
    | with_reducible apply State.keepsBut_then (State.floodNotice_keepsBut _ _)
    | rfl

theorem State.originateNotice_keepsBut (s : State) (trunk : Nat) (event : Nat) :
    s.keepsBut [.fresh, .regs, .flt, .mgt, .topo, .sw, .pool, .stz, .out] (s.originateNotice trunk event) := by
  unfold State.originateNotice
  dsimp only
  repeat' first
    | with_reducible exact State.keepsBut_refl _ _
    | with_reducible apply State.keepsBut_then (State.setTopo_keepsBut _ _)
    | with_reducible apply State.keepsBut_then (State.holdNotice_keepsBut _ _)
    | rfl

theorem State.setLs_keepsBut (s : State) (n : Nat) (f : NodeLs → NodeLs) : s.keepsBut [.topo] (s.setLs n f) :=
  State.setTopo_keepsBut _ _

theorem State.markLost_keepsBut (s : State) (n : Nat) : s.keepsBut [.topo] (s.markLost n) := by
  unfold State.markLost
  repeat' first
    | with_reducible exact State.keepsBut_refl _ _
    | with_reducible apply State.keepsBut_then (State.setLs_keepsBut _ _ _)
    | with_reducible apply State.keepsBut_then (State.setTopo_keepsBut _ _)
    | rfl
    | split

theorem State.lostCheck_keepsBut (s : State) (n : Nat) (t : Nat) : s.keepsBut [.topo] (s.lostCheck n t) := by
  unfold State.lostCheck
  dsimp only
  repeat' first
    | with_reducible exact State.keepsBut_refl _ _
    | with_reducible apply State.keepsBut_then (State.markLost_keepsBut _ _)
    | (with_reducible apply State.keepsBut_foldl) <;> try intro _ _
    | rfl
    | split

theorem State.trunkChanged_keepsBut (s : State) (t : Nat) (missing : Bool) :
    s.keepsBut [.fresh, .regs, .flt, .mgt, .topo, .sw, .pool, .stz, .out] (s.trunkChanged t missing) := by
  unfold State.trunkChanged
  dsimp only
  repeat' first
    | with_reducible exact State.keepsBut_refl _ _
    | with_reducible apply State.keepsBut_then (State.setTopo_keepsBut _ _)
    | with_reducible apply State.keepsBut_then (State.event_keepsBut _ _ _ _ _ _ _)
    | with_reducible apply State.keepsBut_then (State.originateNotice_keepsBut _ _ _)
    | with_reducible apply State.keepsBut_then (State.lostCheck_keepsBut _ _ _)
    | rfl
    | split

theorem State.trunkCheck_keepsBut (s : State) :
    s.keepsBut [.fresh, .regs, .flt, .mgt, .topo, .sw, .pool, .stz, .out] (s.trunkCheck) := by
  unfold State.trunkCheck
  dsimp only
  repeat' first
    | with_reducible exact State.keepsBut_refl _ _
    | with_reducible apply State.keepsBut_then (State.setTopo_keepsBut _ _)
    | with_reducible apply State.keepsBut_then (State.trunkChanged_keepsBut _ _ _)
    | (with_reducible apply State.keepsBut_foldl) <;> try intro _ _
    | rfl

theorem State.routeInactive_keepsBut (s : State) (p : Nat) :
    s.keepsBut [.fresh, .regs, .flt, .mgt, .topo, .sw, .pool, .stz, .out] (s.routeInactive p) := by
  unfold State.routeInactive
  dsimp only
  repeat' first
    | with_reducible exact State.keepsBut_refl _ _
    | with_reducible apply State.keepsBut_then (State.setRoute_keepsBut _ _ _)
    | with_reducible apply State.keepsBut_then (State.trunkCheck_keepsBut _)
    | rfl

theorem State.releaseCells_keepsBut (s : State) (tile : Nat) (as : List Nat) :
    s.keepsBut [.fresh, .regs, .flt, .mgt, .pool, .out] (s.releaseCells tile as) :=
  State.freeAll_keepsBut _ _ _ _

theorem State.releaseCopy_keepsBut (s : State) (id : Nat) :
    s.keepsBut [.fresh, .regs, .flt, .mgt, .sw, .pool, .out] (s.releaseCopy id) := by
  unfold State.releaseCopy
  repeat' first
    | with_reducible exact State.keepsBut_refl _ _
    | with_reducible apply State.keepsBut_then (State.uncharge_keepsBut _ _ _ _ _)
    | with_reducible apply State.keepsBut_then (State.releaseCells_keepsBut _ _ _)
    | rfl
    | split
    | with_reducible apply State.keepsBut_with_sw

theorem State.moveEntry_keepsBut (s : State) (p : Nat) (tile : Nat) (cls : Nat) (drain : Bool) (e : Entry) :
    s.keepsBut [.fresh, .regs, .flt, .mgt, .sw, .pool, .out] (s.moveEntry p tile cls drain e) := by
  unfold State.moveEntry
  dsimp only
  repeat' first
    | with_reducible exact State.keepsBut_refl _ _
    | with_reducible apply State.keepsBut_then (State.enqueue_keepsBut _ _ _ _ _ _ _)
    | with_reducible apply State.keepsBut_then (State.bump_keepsBut _ _ _ _)
    | with_reducible apply State.keepsBut_then (State.releaseCopy_keepsBut _ _)
    | rfl
    | split
    | with_reducible apply State.keepsBut_with_sw

theorem State.flushPort_keepsBut (s : State) (p : Nat) (drain : Bool) :
    s.keepsBut [.fresh, .regs, .flt, .mgt, .sw, .pool, .out] (s.flushPort p drain) := by
  refine State.keepsBut_with_sw _ (State.keepsBut_foldl (fun u tc => ?_) (State.keepsBut_refl _ s)) rfl
  dsimp only
  split
  · exact State.keepsBut_refl _ u
  · exact State.keepsBut_foldl (fun v e => v.moveEntry_keepsBut p tc.1 tc.2 drain e)
      (State.keepsBut_with_sw _ (State.keepsBut_refl _ u) rfl)

theorem State.setTick_keepsBut (s : State) (f : TickSt → TickSt) : s.keepsBut [.tick] (s.setTick f) := by
  simp [State.setTick, State.keepsBut_iff]

theorem State.hearParent_keepsBut (s : State) (a : Announce) : s.keepsBut [.tick] (s.hearParent a) := by
  unfold State.hearParent
  dsimp only
  repeat' first
    | with_reducible exact State.keepsBut_refl _ _
    | with_reducible apply State.keepsBut_then (State.setTick_keepsBut _ _)
    | rfl

theorem State.adopt_keepsBut (s : State) (p : Nat) (stepped : Bool) :
    s.keepsBut [.regs, .tick] (s.adopt p stepped) := by
  unfold State.adopt
  dsimp only
  repeat' first
    | with_reducible exact State.keepsBut_refl _ _
    | with_reducible apply State.keepsBut_then (State.setTick_keepsBut _ _)
    | with_reducible apply State.keepsBut_then (State.hearParent_keepsBut _ _)
    | with_reducible apply State.keepsBut_then (State.bump_keepsBut _ _ _ _)
    | rfl

theorem State.tickEnter_keepsBut (s : State) (st : Nat) (reason : Nat) :
    s.keepsBut [.fresh, .regs, .tick, .flt, .mgt, .out] (s.tickEnter st reason) := by
  unfold State.tickEnter
  dsimp only
  repeat' first
    | with_reducible exact State.keepsBut_refl _ _
    | with_reducible apply State.keepsBut_then (State.setTick_keepsBut _ _)
    | with_reducible apply State.keepsBut_then (State.report_keepsBut _ _ _)
    | with_reducible apply State.keepsBut_then (State.event_keepsBut _ _ _ _ _ _ _)
    | rfl
    | split

theorem State.merge_keepsBut (s : State) (p : Nat) :
    s.keepsBut [.fresh, .regs, .tick, .flt, .mgt, .out] (s.merge p) := by
  unfold State.merge
  dsimp only
  repeat' first
    | with_reducible exact State.keepsBut_refl _ _
    | with_reducible apply State.keepsBut_then (State.adopt_keepsBut _ _ _)
    | with_reducible apply State.keepsBut_then (State.tickEnter_keepsBut _ _ _)
    | with_reducible apply State.keepsBut_then (State.setTick_keepsBut _ _)
    | rfl
    | split

theorem State.reviewRoot_keepsBut (s : State) (p : Nat) :
    s.keepsBut [.fresh, .regs, .tick, .flt, .mgt, .out] (s.reviewRoot p) := by
  unfold State.reviewRoot
  repeat' first
    | with_reducible exact State.keepsBut_refl _ _
    | with_reducible apply State.keepsBut_then (State.merge_keepsBut _ _)
    | with_reducible apply State.keepsBut_then (State.adopt_keepsBut _ _ _)
    | with_reducible apply State.keepsBut_then (State.tickEnter_keepsBut _ _ _)
    | rfl
    | split

theorem State.forgetRoot_keepsBut (s : State) : s.keepsBut [.tick] (s.forgetRoot) :=
  State.setTick_keepsBut _ _

theorem State.reviewHoldover_keepsBut (s : State) :
    s.keepsBut [.fresh, .regs, .tick, .flt, .mgt, .out] (s.reviewHoldover) := by
  unfold State.reviewHoldover
  dsimp only
  repeat' first
    | with_reducible exact State.keepsBut_refl _ _
    | with_reducible apply State.keepsBut_then (State.adopt_keepsBut _ _ _)
    | with_reducible apply State.keepsBut_then (State.tickEnter_keepsBut _ _ _)
    | with_reducible apply State.keepsBut_then (State.merge_keepsBut _ _)
    | rfl
    | split

theorem State.reviewFollower_keepsBut (s : State) :
    s.keepsBut [.fresh, .regs, .tick, .flt, .mgt, .out] (s.reviewFollower) := by
  unfold State.reviewFollower
  dsimp only
  repeat' first
    | with_reducible exact State.keepsBut_refl _ _
    | with_reducible apply State.keepsBut_then (State.setTick_keepsBut _ _)
    | with_reducible apply State.keepsBut_then (State.tickEnter_keepsBut _ _ _)
    | with_reducible apply State.keepsBut_then (State.adopt_keepsBut _ _ _)
    | with_reducible apply State.keepsBut_then (State.merge_keepsBut _ _)
    | rfl
    | split

theorem State.tickReview_keepsBut (s : State) :
    s.keepsBut [.fresh, .regs, .tick, .flt, .mgt, .out] (s.tickReview) := by
  unfold State.tickReview
  dsimp only
  repeat' first
    | with_reducible exact State.keepsBut_refl _ _
    | with_reducible apply State.keepsBut_then (State.reviewRoot_keepsBut _ _)
    | with_reducible apply State.keepsBut_then (State.setTick_keepsBut _ _)
    | with_reducible apply State.keepsBut_then (State.tickEnter_keepsBut _ _ _)
    | with_reducible apply State.keepsBut_then (State.forgetRoot_keepsBut _)
    | with_reducible apply State.keepsBut_then (State.adopt_keepsBut _ _ _)
    | with_reducible apply State.keepsBut_then (State.reviewHoldover_keepsBut _)
    | with_reducible apply State.keepsBut_then (State.reviewFollower_keepsBut _)
    | rfl
    | split

theorem State.announceOn_keepsBut (s : State) (p : Nat) :
    s.keepsBut [.fresh, .regs, .flt, .mgt, .sw, .pool, .stz, .out] (s.announceOn p) :=
  State.sendLinkLocal_keepsBut _ _ _ _

theorem State.announceAll_keepsBut (s : State) :
    s.keepsBut [.fresh, .regs, .flt, .mgt, .sw, .pool, .stz, .out] (s.announceAll) := by
  unfold State.announceAll
  repeat' first
    | with_reducible exact State.keepsBut_refl _ _
    | with_reducible apply State.keepsBut_then (State.announceOn_keepsBut _ _)
    | (with_reducible apply State.keepsBut_foldl) <;> try intro _ _
    | rfl

theorem State.announceChange_keepsBut (s : State) :
    s.keepsBut [.fresh, .regs, .tick, .flt, .mgt, .sw, .pool, .stz, .out] (s.announceChange) := by
  unfold State.announceChange
  repeat' first
    | with_reducible exact State.keepsBut_refl _ _
    | with_reducible apply State.keepsBut_then (State.setTick_keepsBut _ _)
    | with_reducible apply State.keepsBut_then (State.announceAll_keepsBut _)
    | rfl
    | split

theorem State.tickPortLost_keepsBut (s : State) (p : Nat) :
    s.keepsBut [.fresh, .regs, .tick, .flt, .mgt, .sw, .pool, .stz, .out] (s.tickPortLost p) := by
  unfold State.tickPortLost
  repeat' first
    | with_reducible exact State.keepsBut_refl _ _
    | with_reducible apply State.keepsBut_then (State.setTick_keepsBut _ _)
    | with_reducible apply State.keepsBut_then (State.tickReview_keepsBut _)
    | with_reducible apply State.keepsBut_then (State.announceChange_keepsBut _)
    | rfl

theorem State.portState_keepsBut (s : State) (p : Nat) (st : Nat) :
    s.keepsBut [.fresh, .regs, .tick, .link, .flt, .mgt, .topo, .sw, .pool, .stz, .out] (s.portState p st) := by
  unfold State.portState
  dsimp only
  repeat' first
    | with_reducible exact State.keepsBut_refl _ _
    | with_reducible apply State.keepsBut_then (State.setPort_keepsBut _ _ _)
    | with_reducible apply State.keepsBut_then (State.forgetCaps_keepsBut _ _)
    | with_reducible apply State.keepsBut_then (State.setInUse_keepsBut _ _ _ _)
    | with_reducible apply State.keepsBut_then (State.dropReception_keepsBut _ _)
    | with_reducible apply State.keepsBut_then (State.scaleEvent_keepsBut _ _ _)
    | with_reducible apply State.keepsBut_then (State.routeInactive_keepsBut _ _)
    | with_reducible apply State.keepsBut_then (State.flushPort_keepsBut _ _ _)
    | with_reducible apply State.keepsBut_then (State.tickPortLost_keepsBut _ _)
    | rfl
    | split

theorem State.disablePort_keepsBut (s : State) (p : Nat) :
    s.keepsBut [.fresh, .regs, .tick, .link, .flt, .mgt, .topo, .sw, .pool, .stz, .out] (s.disablePort p) :=
  State.portState_keepsBut _ _ _

theorem State.enablePort_keepsBut (s : State) (p : Nat) :
    s.keepsBut [.fresh, .regs, .tick, .link, .flt, .mgt, .topo, .sw, .pool, .stz, .out] (s.enablePort p) := by
  unfold State.enablePort
  dsimp only
  repeat' first
    | with_reducible exact State.keepsBut_refl _ _
    | with_reducible apply State.keepsBut_then (State.portState_keepsBut _ _ _)
    | with_reducible apply State.keepsBut_then (State.setPort_keepsBut _ _ _)
    | rfl
    | split
    | with_reducible apply State.keepsBut_with_link

theorem State.rejoin_keepsBut (s : State) :
    s.keepsBut [.fresh, .regs, .tick, .flt, .mgt, .sw, .pool, .stz, .out] (s.rejoin) := by
  unfold State.rejoin
  dsimp only
  repeat' first
    | with_reducible exact State.keepsBut_refl _ _
    | with_reducible apply State.keepsBut_then (State.setTick_keepsBut _ _)
    | with_reducible apply State.keepsBut_then (State.forgetRoot_keepsBut _)
    | with_reducible apply State.keepsBut_then (State.tickEnter_keepsBut _ _ _)
    | with_reducible apply State.keepsBut_then (State.adopt_keepsBut _ _ _)
    | with_reducible apply State.keepsBut_then (State.announceChange_keepsBut _)
    | rfl
    | split

theorem State.pruneWaiting_keepsBut (s : State) : s.keepsBut [.flow] (s.pruneWaiting) := by
  unfold State.pruneWaiting
  dsimp only
  repeat' first
    | with_reducible exact State.keepsBut_refl _ _
    | with_reducible apply State.keepsBut_then (State.setTx_keepsBut _ _)
    | with_reducible apply State.keepsBut_then (State.note_keepsBut _ _ _)
    | (with_reducible apply State.keepsBut_foldl) <;> try intro _ _
    | rfl
    | split

theorem State.hedge_keepsBut (s : State) (h : Hedge) :
    s.keepsBut [.fresh, .regs, .flt, .mgt, .topo, .flow, .sw, .pool, .stz, .out] (s.hedge h) := by
  unfold State.hedge
  repeat' first
    | with_reducible exact State.keepsBut_refl _ _
    | with_reducible apply State.keepsBut_then (State.setTopo_keepsBut _ _)
    | with_reducible apply State.keepsBut_then (State.trunkCheck_keepsBut _)
    | with_reducible apply State.keepsBut_then (State.pruneWaiting_keepsBut _)
    | rfl
    | split

theorem State.dropHolds_keepsBut (s : State) (ctx : Nat) (set : Nat) (only : Option Nat) :
    s.keepsBut [.regs, .parm] (s.dropHolds ctx set only) := by
  unfold State.dropHolds
  dsimp only
  repeat' first
    | with_reducible exact State.keepsBut_refl _ _
    | with_reducible apply State.keepsBut_then (State.bump_keepsBut _ _ _ _)
    | with_reducible apply State.keepsBut_then (State.setBlock_keepsBut _ _ _)
    | rfl
    | split

theorem State.dropSubs_keepsBut (s : State) (f : Nat × Nat → Bool) : s.keepsBut [.regs, .parm] (s.dropSubs f) := by
  unfold State.dropSubs
  repeat' first
    | with_reducible exact State.keepsBut_refl _ _
    | with_reducible apply State.keepsBut_then (State.dropHolds_keepsBut _ _ _ _)
    | (with_reducible apply State.keepsBut_foldl) <;> try intro _ _
    | rfl
    | split

theorem State.sendReply_keepsBut (s : State) (g : StashGet) (status : Nat) (bytes : Nat) :
    s.keepsBut [.fresh, .regs, .flt, .mgt, .flow, .sw, .pool, .stash, .stz, .out] (s.sendReply g status bytes) := by
  unfold State.sendReply
  dsimp only
  repeat' first
    | with_reducible exact State.keepsBut_refl _ _
    | with_reducible apply State.keepsBut_then (State.stamped_keepsBut _)
    | with_reducible apply State.keepsBut_then (State.setStash_keepsBut _ _)
    | with_reducible apply State.keepsBut_then (State.send_keepsBut _ _ _)
    | rfl

theorem State.setEnt_keepsBut (s : State) (e : StashEnt) : s.keepsBut [.stash] (s.setEnt e) := by
  unfold State.setEnt
  repeat' first
    | with_reducible exact State.keepsBut_refl _ _
    | with_reducible apply State.keepsBut_then (State.setStash_keepsBut _ _)
    | rfl

theorem State.setRes_keepsBut (s : State) (job : Nat) (r : StashRes) : s.keepsBut [.stash] (s.setRes job r) :=
  State.setStash_keepsBut _ _

theorem State.returnSpans_keepsBut (s : State) (job : Nat) : s.keepsBut [.stash] (s.returnSpans job) := by
  unfold State.returnSpans
  dsimp only
  repeat' first
    | with_reducible exact State.keepsBut_refl _ _
    | with_reducible apply State.keepsBut_then (State.setRes_keepsBut _ _ _)
    | rfl
    | split

theorem State.freeEntry_keepsBut (s : State) (e : StashEnt) : s.keepsBut [.stash] (s.freeEntry e) := by
  unfold State.freeEntry
  repeat' first
    | with_reducible exact State.keepsBut_refl _ _
    | with_reducible apply State.keepsBut_then (State.setStash_keepsBut _ _)
    | with_reducible apply State.keepsBut_then (State.returnSpans_keepsBut _ _)
    | rfl

theorem State.getOver_keepsBut (s : State) (g : StashGet) (ok : Bool) :
    s.keepsBut [.fresh, .regs, .stash] (s.getOver g ok) := by
  unfold State.getOver
  dsimp only
  repeat' first
    | with_reducible exact State.keepsBut_refl _ _
    | with_reducible apply State.keepsBut_then (State.setStash_keepsBut _ _)
    | with_reducible apply State.keepsBut_then (State.setEnt_keepsBut _ _)
    | with_reducible apply State.keepsBut_then (State.stamped_keepsBut _)
    | with_reducible apply State.keepsBut_then (State.freeEntry_keepsBut _ _)
    | with_reducible apply State.keepsBut_then (State.bump_keepsBut _ _ _ _)
    | rfl
    | split

theorem State.endGet_keepsBut (s : State) (g : StashGet) (status : Nat) (reply : Bool) :
    s.keepsBut [.fresh, .regs, .flt, .mgt, .flow, .sw, .pool, .stash, .stz, .out] (s.endGet g status reply) := by
  unfold State.endGet
  dsimp only
  repeat' first
    | with_reducible exact State.keepsBut_refl _ _
    | with_reducible apply State.keepsBut_then (State.withdrawGet_keepsBut _ _)
    | with_reducible apply State.keepsBut_then (State.bump_keepsBut _ _ _ _)
    | with_reducible apply State.keepsBut_then (State.sendReply_keepsBut _ _ _ _)
    | with_reducible apply State.keepsBut_then (State.getOver_keepsBut _ _ _)
    | rfl
    | split

theorem State.stashSweep_keepsBut (s : State) (job : Nat) : s.keepsBut [.stash] (s.stashSweep job) := by
  unfold State.stashSweep
  repeat' first
    | with_reducible exact State.keepsBut_refl _ _
    | with_reducible apply State.keepsBut_then (State.freeEntry_keepsBut _ _)
    | (with_reducible apply State.keepsBut_foldl) <;> try intro _ _
    | rfl
    | split

theorem State.stashHedged_keepsBut (s : State) :
    s.keepsBut [.fresh, .regs, .flt, .mgt, .host, .flow, .sw, .pool, .stash, .stz, .out] (s.stashHedged) := by
  unfold State.stashHedged
  repeat' first
    | with_reducible exact State.keepsBut_refl _ _
    | with_reducible apply State.keepsBut_then (State.endGet_keepsBut _ _ _ _)
    | with_reducible apply State.keepsBut_then (State.workEnded_keepsBut _ _ _ _)
    | with_reducible apply State.keepsBut_then (State.stashSweep_keepsBut _ _)
    | (with_reducible apply State.keepsBut_foldl) <;> try intro _ _
    | rfl

theorem State.flushFlow_keepsBut (s : State) (k : FlowKey) (n : Nat) :
    s.keepsBut [.fresh, .regs, .flt, .mgt, .flow, .sw, .pool, .stz, .out] (s.flushFlow k n) := by
  induction n generalizing s with
  | zero => exact State.keepsBut_refl _ s
  | succ n ih =>
    simp only [State.flushFlow]
    split
    next => exact State.keepsBut_refl _ s
    next f o rest _ =>
      split
      · exact State.keepsBut_trans (State.keepsBut_then (State.setTx_keepsBut _ _)
          (State.keepsBut_then (State.send_keepsBut _ f o)
            (State.keepsBut_then (State.setTx_keepsBut s _) (State.keepsBut_refl _ s) rfl) rfl) rfl) (ih _)
      · exact State.keepsBut_refl _ s

theorem State.releaseHeld_keepsBut (s : State) :
    s.keepsBut [.fresh, .regs, .flt, .mgt, .flow, .sw, .pool, .stz, .out] s.releaseHeld :=
  State.keepsBut_foldl (fun u k => u.flushFlow_keepsBut k 1024) (State.keepsBut_refl _ s)

theorem State.lift_keepsBut (s : State) (h : Hedge) :
    s.keepsBut [.fresh, .regs, .flt, .mgt, .topo, .flow, .sw, .pool, .stz, .out] (s.lift h) := by
  unfold State.lift
  exact State.keepsBut_then (State.releaseHeld_keepsBut _) (State.keepsBut_then (State.trunkCheck_keepsBut _)
    (State.keepsBut_with_topo _ (State.keepsBut_refl _ s) rfl) rfl) rfl

theorem State.toDetect_keepsBut (s : State) (p : Nat) :
    s.keepsBut [.fresh, .regs, .tick, .link, .flt, .mgt, .topo, .sw, .pool, .stz, .out] (s.toDetect p) :=
  State.portState_keepsBut _ _ _

theorem State.startStep_keepsBut (s : State) (p : Nat) :
    s.keepsBut [.fresh, .regs, .tick, .link, .flt, .mgt, .topo, .sw, .pool, .stz, .out] (s.startStep p) := by
  unfold State.startStep
  dsimp only
  repeat' first
    | with_reducible exact State.keepsBut_refl _ _
    | with_reducible apply State.keepsBut_then (State.setPort_keepsBut _ _ _)
    | with_reducible apply State.keepsBut_then (State.toDetect_keepsBut _ _)
    | with_reducible apply State.keepsBut_then (State.emit_keepsBut _ _)
    | rfl
    | split

theorem State.retireLane_keepsBut (s : State) (n : Nat) (cause : Nat) :
    s.keepsBut [.fresh, .regs, .tick, .link, .flt, .mgt, .topo, .sw, .pool, .stz, .out] (s.retireLane n cause) := by
  unfold State.retireLane
  dsimp only
  repeat' first
    | with_reducible exact State.keepsBut_refl _ _
    | with_reducible apply State.keepsBut_then (State.event_keepsBut _ _ _ _ _ _ _)
    | with_reducible apply State.keepsBut_then (State.setLane_keepsBut _ _ _)
    | with_reducible apply State.keepsBut_then (State.startStep_keepsBut _ _)
    | rfl
    | split
    | with_reducible apply State.keepsBut_with_mgt

theorem State.askTest_keepsBut (s : State) (n : Nat) : s.keepsBut [.link, .out] (s.askTest n) := by
  unfold State.askTest
  dsimp only
  repeat' first
    | with_reducible exact State.keepsBut_refl _ _
    | with_reducible apply State.keepsBut_then (State.setLane_keepsBut _ _ _)
    | with_reducible apply State.keepsBut_then (State.emit_keepsBut _ _)
    | rfl
    | split

theorem State.startLaneTest_keepsBut (s : State) (n : Nat) (ticks : Nat) (retireAfter : Bool) (out : Ref) :
    s.keepsBut [.fresh, .regs, .tick, .link, .flt, .mgt, .topo, .sw, .pool, .stz, .out] (s.startLaneTest n ticks retireAfter out) := by
  unfold State.startLaneTest
  dsimp only
  repeat' first
    | with_reducible exact State.keepsBut_refl _ _
    | with_reducible apply State.keepsBut_then (State.setLane_keepsBut _ _ _)
    | with_reducible apply State.keepsBut_then (State.startStep_keepsBut _ _)
    | with_reducible apply State.keepsBut_then (State.askTest_keepsBut _ _)
    | rfl
    | split

theorem State.setLsm_keepsBut (s : State) (j : Nat) (f : LsmSt → LsmSt) : s.keepsBut [.link] (s.setLsm j f) := by
  simp [State.setLsm, State.keepsBut_iff]

theorem State.lsmRelease_keepsBut (s : State) (j : Nat) :
    s.keepsBut [.fresh, .regs, .link, .flt, .mgt, .topo, .sw, .pool, .stz, .out] (s.lsmRelease j) := by
  unfold State.lsmRelease
  dsimp only
  repeat' first
    | with_reducible exact State.keepsBut_refl _ _
    | with_reducible apply State.keepsBut_then (State.setLsm_keepsBut _ _ _)
    | with_reducible apply State.keepsBut_then (State.setRoute_keepsBut _ _ _)
    | with_reducible apply State.keepsBut_then (State.trunkCheck_keepsBut _)
    | (with_reducible apply State.keepsBut_foldl) <;> try intro _ _
    | rfl
    | split

theorem State.setReg_keepsBut (s : State) (r : Reg) (i : Nat) (v : Nat) : s.keepsBut [.regs] (s.setReg r i v) := by
  simp [State.setReg, State.keepsBut_iff]

theorem State.learnPeer_keepsBut (s : State) (p : Nat) : s.keepsBut [.topo] (s.learnPeer p) := by
  unfold State.learnPeer
  dsimp only
  repeat' first
    | with_reducible exact State.keepsBut_refl _ _
    | with_reducible apply State.keepsBut_then (State.setRoute_keepsBut _ _ _)
    | rfl
    | split

theorem State.holdPort_keepsBut (s : State) (p : Nat) (reason : Nat) :
    s.keepsBut [.fresh, .regs, .flt, .mgt, .topo, .sw, .pool, .out] (s.holdPort p reason) := by
  unfold State.holdPort
  dsimp only
  repeat' first
    | with_reducible exact State.keepsBut_refl _ _
    | with_reducible apply State.keepsBut_then (State.learnPeer_keepsBut _ _)
    | with_reducible apply State.keepsBut_then (State.setRoute_keepsBut _ _ _)
    | with_reducible apply State.keepsBut_then (State.flushPort_keepsBut _ _ _)
    | with_reducible apply State.keepsBut_then (State.event_keepsBut _ _ _ _ _ _ _)
    | rfl

theorem State.servePort_keepsBut (s : State) (p : Nat) : s.keepsBut [.topo] (s.servePort p) := by
  unfold State.servePort
  dsimp only
  repeat' first
    | with_reducible exact State.keepsBut_refl _ _
    | with_reducible apply State.keepsBut_then (State.learnPeer_keepsBut _ _)
    | with_reducible apply State.keepsBut_then (State.setRoute_keepsBut _ _ _)
    | with_reducible apply State.keepsBut_then (State.setTopo_keepsBut _ _)
    | rfl
    | split

theorem State.judgeHello_keepsBut (s : State) (p : Nat) (d : Disc) :
    s.keepsBut [.fresh, .regs, .flt, .mgt, .topo, .sw, .pool, .out] (s.judgeHello p d) := by
  unfold State.judgeHello
  dsimp only
  repeat' first
    | with_reducible exact State.keepsBut_refl _ _
    | with_reducible apply State.keepsBut_then (State.holdPort_keepsBut _ _ _)
    | with_reducible apply State.keepsBut_then (State.servePort_keepsBut _ _)
    | rfl
    | split

theorem State.judgePort_keepsBut (s : State) (p : Nat) :
    s.keepsBut [.fresh, .regs, .flt, .mgt, .topo, .sw, .pool, .out] (s.judgePort p) := by
  unfold State.judgePort
  dsimp only
  repeat' first
    | with_reducible exact State.keepsBut_refl _ _
    | with_reducible apply State.keepsBut_then (State.holdPort_keepsBut _ _ _)
    | with_reducible apply State.keepsBut_then (State.servePort_keepsBut _ _)
    | with_reducible apply State.keepsBut_then (State.judgeHello_keepsBut _ _ _)
    | rfl
    | split

theorem State.summary_keepsBut (s : State) : s.keepsBut [.fresh, .regs, .mgt, .topo, .out] (s.summary) := by
  unfold State.summary
  dsimp only
  repeat' first
    | with_reducible exact State.keepsBut_refl _ _
    | with_reducible apply State.keepsBut_then (State.setTopo_keepsBut _ _)
    | with_reducible apply State.keepsBut_then (State.event_keepsBut _ _ _ _ _ _ _)
    | rfl

theorem State.summaryCheck_keepsBut (s : State) : s.keepsBut [.fresh, .regs, .mgt, .topo, .out] (s.summaryCheck) := by
  unfold State.summaryCheck
  repeat' first
    | with_reducible exact State.keepsBut_refl _ _
    | with_reducible apply State.keepsBut_then (State.summary_keepsBut _)
    | rfl
    | split

theorem State.loadPlan_keepsBut (s : State) (b : List Byte) :
    s.keepsBut [.fresh, .regs, .flt, .mgt, .topo, .sw, .pool, .stz, .out] (s.loadPlan b) := by
  unfold State.loadPlan
  dsimp only
  repeat' first
    | with_reducible exact State.keepsBut_refl _ _
    | with_reducible apply State.keepsBut_then (State.setReg_keepsBut _ _ _ _)
    | with_reducible apply State.keepsBut_then (State.setTopo_keepsBut _ _)
    | with_reducible apply State.keepsBut_then (State.flushPort_keepsBut _ _ _)
    | with_reducible apply State.keepsBut_then (State.scaleEvent_keepsBut _ _ _)
    | with_reducible apply State.keepsBut_then (State.judgePort_keepsBut _ _)
    | with_reducible apply State.keepsBut_then (State.trunkCheck_keepsBut _)
    | with_reducible apply State.keepsBut_then (State.summaryCheck_keepsBut _)
    | (with_reducible apply State.keepsBut_foldl) <;> try intro _ _
    | rfl
    | split
    | with_reducible apply State.keepsBut_with_sw

theorem State.readmitPort_keepsBut (s : State) (p : Nat) : s.keepsBut [.topo] (s.readmitPort p) := by
  unfold State.readmitPort
  dsimp only
  repeat' first
    | with_reducible exact State.keepsBut_refl _ _
    | with_reducible apply State.keepsBut_then (State.setTopo_keepsBut _ _)
    | with_reducible apply State.keepsBut_then (State.servePort_keepsBut _ _)
    | rfl
    | split

theorem State.readmit_keepsBut (s : State) (n : Nat) :
    s.keepsBut [.fresh, .regs, .flt, .mgt, .topo, .sw, .pool, .stz, .out] (s.readmit n) := by
  unfold State.readmit
  dsimp only
  repeat' first
    | with_reducible exact State.keepsBut_refl _ _
    | with_reducible apply State.keepsBut_then (State.readmitPort_keepsBut _ _)
    | with_reducible apply State.keepsBut_then (State.trunkCheck_keepsBut _)
    | with_reducible apply State.keepsBut_then (State.setLs_keepsBut _ _ _)
    | with_reducible apply State.keepsBut_then (State.originateNotice_keepsBut _ _ _)
    | (with_reducible apply State.keepsBut_foldl) <;> try intro _ _
    | rfl
    | split

theorem State.reinstallGroups_keepsBut (s : State) (n : Nat) :
    s.keepsBut [.fresh, .regs, .flt, .mgt, .flow, .sw, .pool, .stz, .out] (s.reinstallGroups n) := by
  unfold State.reinstallGroups
  repeat' first
    | with_reducible exact State.keepsBut_refl _ _
    | with_reducible apply State.keepsBut_then (State.sendGroup_keepsBut _ _ _ _)
    | (with_reducible apply State.keepsBut_foldl) <;> try intro _ _
    | rfl
    | split

theorem State.allocCell_keepsBut (s : State) (m : Nat) (tile : Nat) :
    s.keepsBut [.fresh, .regs, .flt, .mgt, .pool, .out] (s.allocCell m tile).2.2 := by
  unfold State.allocCell
  repeat' first
    | with_reducible exact State.keepsBut_refl _ _
    | with_reducible apply State.keepsBut_then (State.giveCells_keepsBut _ _ _)
    | with_reducible apply State.keepsBut_then (State.poolFail_keepsBut _ _ _ _ _ _ _)
    | rfl
    | split

theorem State.grantSett_keepsBut (s : State) (m : Nat) (r : Nat) (k : Nat) (a : Nat) (spilled : Bool) :
    s.keepsBut [.regs, .pool] (s.grantSett m r k a spilled) := by
  unfold State.grantSett
  dsimp only
  repeat' first
    | with_reducible exact State.keepsBut_refl _ _
    | with_reducible apply State.keepsBut_then (State.noteLow_keepsBut _ _ _ _)
    | with_reducible apply State.keepsBut_then (State.bump_keepsBut _ _ _ _)
    | rfl
    | split
    | with_reducible apply State.keepsBut_with_pool

theorem State.alloc_keepsBut (s : State) (m : Nat) (r : Nat) (size : Nat) (tile : Nat) (spill : Bool) :
    s.keepsBut [.fresh, .regs, .flt, .mgt, .pool, .out] (s.alloc m r size tile spill).2.2 := by
  unfold State.alloc
  repeat' first
    | with_reducible exact State.keepsBut_refl _ _
    | with_reducible apply State.keepsBut_then (State.allocCell_keepsBut _ _ _)
    | with_reducible apply State.keepsBut_then (State.poolFail_keepsBut _ _ _ _ _ _ _)
    | with_reducible apply State.keepsBut_then (State.grantSett_keepsBut _ _ _ _ _ _)
    | refine State.keepsBut_snd (by assumption) ?_
    | rfl
    | split

theorem State.newGen_keepsBut (s : State) (n : Nat) : s.keepsBut [.ctxs] (s.newGen n) := by
  simp [State.newGen, State.keepsBut_iff]

theorem State.useCtx_keepsBut (s : State) (n : Nat) (kind : Nat) : s.keepsBut [.ctxs] (s.useCtx n kind) := by
  simp [State.useCtx, State.keepsBut_iff]

theorem State.undefine_keepsBut (s : State) (a : Nat) (n : Nat) : s.keepsBut [.fresh, .mem] (s.undefine a n) := by
  simp [State.undefine, State.keepsBut_iff]

theorem State.loseOutputs_keepsBut (s : State) (p : ProgSt) : s.keepsBut [.fresh, .mem] (s.loseOutputs p) := by
  unfold State.loseOutputs
  repeat' first
    | with_reducible exact State.keepsBut_refl _ _
    | with_reducible apply State.keepsBut_then (State.undefine_keepsBut _ _ _)
    | (with_reducible apply State.keepsBut_foldl) <;> try intro _ _
    | rfl

theorem State.retireEngine_keepsBut (s : State) (k : Nat) :
    s.keepsBut [.fresh, .regs, .mgt, .eng, .out] (s.retireEngine k) := by
  unfold State.retireEngine
  repeat' first
    | with_reducible exact State.keepsBut_refl _ _
    | with_reducible apply State.keepsBut_then (State.setEngine_keepsBut _ _ _)
    | with_reducible apply State.keepsBut_then (State.engineIdle_keepsBut _ _)
    | with_reducible apply State.keepsBut_then (State.engineRetired_keepsBut _ _ _)
    | rfl
    | split

theorem State.restoreEngine_keepsBut (s : State) (k : Nat) : s.keepsBut [.mgt, .eng] (s.restoreEngine k) := by
  unfold State.restoreEngine
  dsimp only
  repeat' first
    | with_reducible exact State.keepsBut_refl _ _
    | with_reducible apply State.keepsBut_then (State.setEngine_keepsBut _ _ _)
    | rfl
    | split
    | with_reducible apply State.keepsBut_with_mgt

theorem State.installGroup_keepsBut (s : State) (job : Nat) (id : Nat) (members : List (Nat × Nat)) :
    s.keepsBut [.fresh, .regs, .flt, .mgt, .topo, .flow, .sw, .pool, .stz, .out] (s.installGroup job id members) := by
  unfold State.installGroup
  dsimp only
  repeat' first
    | with_reducible exact State.keepsBut_refl _ _
    | with_reducible apply State.keepsBut_then (State.sendGroup_keepsBut _ _ _ _)
    | with_reducible apply State.keepsBut_then (State.setGroup_keepsBut _ _)
    | (with_reducible apply State.keepsBut_foldl) <;> try intro _ _
    | rfl

theorem State.joinGroup_keepsBut (s : State) (id : Nat) : s.keepsBut [.topo] (s.joinGroup id) := by
  unfold State.joinGroup
  repeat' first
    | with_reducible exact State.keepsBut_refl _ _
    | with_reducible apply State.keepsBut_then (State.setGroup_keepsBut _ _)
    | rfl
    | split

theorem State.writeMem_keepsBut (s : State) (a : Nat) (bs : List Byte) : s.keepsBut [.mem] (s.writeMem a bs) := by
  unfold State.writeMem
  repeat' first
    | with_reducible exact State.keepsBut_refl _ _
    | rfl
    | split
    | with_reducible apply State.keepsBut_with_mem

theorem State.fillRegion_keepsBut (s : State) (b : BlockSt) (code : Nat) (bytes : List Byte) :
    s.keepsBut [.mem] (s.fillRegion b code bytes) := by
  unfold State.fillRegion
  dsimp only
  repeat' first
    | with_reducible exact State.keepsBut_refl _ _
    | with_reducible apply State.keepsBut_then (State.writeMem_keepsBut _ _ _)
    | (with_reducible apply State.keepsBut_foldl) <;> try intro _ _
    | rfl

theorem State.blockState_keepsBut (s : State) (ctx : Nat) (st : Nat) :
    s.keepsBut [.fresh, .parm] (s.blockState ctx st) := by
  unfold State.blockState
  dsimp only
  repeat' first
    | with_reducible exact State.keepsBut_refl _ _
    | with_reducible apply State.keepsBut_then (State.stamped_keepsBut _)
    | with_reducible apply State.keepsBut_then (State.setBlock_keepsBut _ _ _)
    | rfl

theorem State.publishEnd_keepsBut (s : State) (ctx : Nat) (status : Nat) :
    s.keepsBut [.parm] (s.publishEnd ctx status) := by
  unfold State.publishEnd
  repeat' first
    | with_reducible exact State.keepsBut_refl _ _
    | with_reducible apply State.keepsBut_then (State.setBlock_keepsBut _ _ _)
    | with_reducible apply State.keepsBut_then (State.setParm_keepsBut _ _)
    | rfl
    | split

theorem State.blockEvent_keepsBut (s : State) (b : BlockSt) (severity : Nat) (status : Nat) :
    s.keepsBut [.fresh, .regs, .mgt, .out] (s.blockEvent b severity status) :=
  State.event_keepsBut _ _ _ _ _ _ _

theorem State.clearAcc_keepsBut (s : State) (b : BlockSt) : s.keepsBut [.mem] (s.clearAcc b) := by
  unfold State.clearAcc
  repeat' first
    | with_reducible exact State.keepsBut_refl _ _
    | with_reducible apply State.keepsBut_then (State.clearMem_keepsBut _ _ _)
    | (with_reducible apply State.keepsBut_foldl) <;> try intro _ _
    | rfl

theorem State.discardStep_keepsBut (s : State) (ctx : Nat) (status : Nat) :
    s.keepsBut [.fresh, .parm, .mem] (s.discardStep ctx status) := by
  unfold State.discardStep
  repeat' first
    | with_reducible exact State.keepsBut_refl _ _
    | with_reducible apply State.keepsBut_then (State.clearAcc_keepsBut _ _)
    | with_reducible apply State.keepsBut_then (State.setBlock_keepsBut _ _ _)
    | with_reducible apply State.keepsBut_then (State.blockState_keepsBut _ _ _)
    | rfl
    | split

theorem State.stashRelease_keepsBut (s : State) (job : Nat) : s.keepsBut [.stash, .ctxs] (s.stashRelease job) := by
  unfold State.stashRelease
  dsimp only
  repeat' first
    | with_reducible exact State.keepsBut_refl _ _
    | with_reducible apply State.keepsBut_then (State.newGen_keepsBut _ _)
    | with_reducible apply State.keepsBut_then (State.setRes_keepsBut _ _ _)
    | with_reducible apply State.keepsBut_then (State.freeEntry_keepsBut _ _)
    | (with_reducible apply State.keepsBut_foldl) <;> try intro _ _
    | rfl
    | split

theorem State.dropRes_keepsBut (s : State) (job : Nat) : s.keepsBut [.stash] (s.dropRes job) :=
  State.setStash_keepsBut _ _

theorem State.dropMatching_keepsBut (s : State) (job : Nat) (holder : Nat) (tag : Nat) (mask : Nat) :
    s.keepsBut [.fresh, .regs, .host, .stash] (s.dropMatching job holder tag mask) := by
  unfold State.dropMatching
  repeat' first
    | with_reducible exact State.keepsBut_refl _ _
    | with_reducible apply State.keepsBut_then (State.freeEntry_keepsBut _ _)
    | with_reducible apply State.keepsBut_then (State.bump_keepsBut _ _ _ _)
    | with_reducible apply State.keepsBut_then (State.workEnded_keepsBut _ _ _ _)
    | with_reducible apply State.keepsBut_then (State.setEnt_keepsBut _ _)
    | with_reducible apply State.keepsBut_then (State.stamped_keepsBut _)
    | (with_reducible apply State.keepsBut_foldl) <;> try intro _ _
    | rfl
    | split

theorem State.purge_keepsBut (s : State) (job : Nat) (rank : Nat) (tag : Nat) (mask : Nat) :
    s.keepsBut [.fresh, .regs, .host, .stash] (s.purge job rank tag mask) := by
  unfold State.purge
  dsimp only
  repeat' first
    | with_reducible exact State.keepsBut_refl _ _
    | with_reducible apply State.keepsBut_then (State.dropMatching_keepsBut _ _ _ _ _)
    | (with_reducible apply State.keepsBut_foldl) <;> try intro _ _
    | rfl

theorem State.levelSet_keepsBut (s : State) (c : Nat) (level : Nat) : s.keepsBut [.regs] (s.levelSet c level) := by
  unfold State.levelSet
  repeat' first
    | with_reducible exact State.keepsBut_refl _ _
    | with_reducible apply State.keepsBut_then (State.setReg_keepsBut _ _ _ _)
    | rfl
    | split

theorem State.setFlt_keepsBut (s : State) (f : FltSt → FltSt) : s.keepsBut [.flt] (s.setFlt f) := by
  simp [State.setFlt, State.keepsBut_iff]

theorem State.setMgt_keepsBut (s : State) (f : MgtSt → MgtSt) : s.keepsBut [.mgt] (s.setMgt f) := by
  simp [State.setMgt, State.keepsBut_iff]

theorem State.setSlot_keepsBut (s : State) (k : Nat) (f : SlotSt → SlotSt) : s.keepsBut [.mgt] (s.setSlot k f) := by
  unfold State.setSlot
  repeat' first
    | with_reducible exact State.keepsBut_refl _ _
    | with_reducible apply State.keepsBut_then (State.setMgt_keepsBut _ _)
    | rfl

theorem State.imageWrite_keepsBut (s : State) (path : Path) (slot : Nat) (off : Nat) (data : List Byte) :
    s.keepsBut [.mgt] (s.imageWrite path slot off data) := by
  unfold State.imageWrite
  dsimp only
  repeat' first
    | with_reducible exact State.keepsBut_refl _ _
    | with_reducible apply State.keepsBut_then (State.setSlot_keepsBut _ _ _)
    | with_reducible apply State.keepsBut_then (State.setMgt_keepsBut _ _)
    | rfl

theorem State.clampReserves_keepsBut (s : State) : s.keepsBut [.fresh, .regs, .mgt, .sw, .out] (s.clampReserves) := by
  unfold State.clampReserves
  dsimp only
  repeat' first
    | with_reducible exact State.keepsBut_refl _ _
    | with_reducible apply State.keepsBut_then (State.event_keepsBut _ _ _ _ _ _ _)
    | (with_reducible apply State.keepsBut_foldl) <;> try intro _ _
    | rfl
    | with_reducible apply State.keepsBut_with_sw

theorem State.setPeriod_keepsBut (s : State) (p : Nat) :
    s.keepsBut [.fresh, .regs, .mgt, .sw, .out] (s.setPeriod p) := by
  unfold State.setPeriod
  dsimp only
  repeat' first
    | with_reducible exact State.keepsBut_refl _ _
    | with_reducible apply State.keepsBut_then (State.setReg_keepsBut _ _ _ _)
    | with_reducible apply State.keepsBut_then (State.clampReserves_keepsBut _)
    | rfl

theorem State.recordChannel_keepsBut (s : State) (c : Nat) : s.keepsBut [.mgt] (s.recordChannel c) := by
  unfold State.recordChannel
  repeat' first
    | with_reducible exact State.keepsBut_refl _ _
    | rfl
    | with_reducible apply State.keepsBut_with_mgt

theorem State.setChannel_keepsBut (s : State) (c : Nat) (f : ChannelSt → ChannelSt) :
    s.keepsBut [.flt] (s.setChannel c f) := by
  simp [State.setChannel, State.keepsBut_iff]

theorem State.retargetAll_keepsBut (s : State) : s.keepsBut [.pwr] (s.retargetAll) := by
  unfold State.retargetAll
  repeat' first
    | with_reducible exact State.keepsBut_refl _ _
    | with_reducible apply State.keepsBut_then (State.retarget_keepsBut _ _)
    | (with_reducible apply State.keepsBut_foldl) <;> try intro _ _
    | rfl

theorem State.setRx_keepsBut (s : State) (f : RxFlow) : s.keepsBut [.flow] (s.setRx f) := by
  simp [State.setRx, State.keepsBut_iff]

theorem State.profile_keepsBut (s : State) (port : Nat) (cls : Nat) (colour : Nat) (q : Nat) :
    s.keepsBut [.fresh] (s.profile port cls colour q).2.2 := by
  unfold State.profile
  dsimp only
  repeat' first
    | with_reducible exact State.keepsBut_refl _ _
    | rfl
    | split
    | with_reducible apply State.keepsBut_with_fresh

theorem State.setRxFrame_keepsBut (s : State) (p : Nat) (f : RxFrame) : s.keepsBut [.sw] (s.setRxFrame p f) := by
  simp [State.setRxFrame, State.keepsBut_iff]

theorem State.discard_keepsBut (s : State) (p : Nat) (h : Hdr) (e : Option Ext) (counts : Counts) (refusal : Option Nat) (covered : Bool) :
    s.keepsBut [.sw] (s.discard p h e counts refusal covered) :=
  State.setRxFrame_keepsBut _ _ _

theorem State.ageCommands_keepsBut (s : State) : s.keepsBut [.host] (s.ageCommands) := by
  unfold State.ageCommands
  repeat' first
    | with_reducible exact State.keepsBut_refl _ _
    | with_reducible apply State.keepsBut_then (State.setHost_keepsBut _ _)
    | rfl

theorem State.ageFlows_keepsBut (s : State) : s.keepsBut [.flow] (s.ageFlows) := by
  unfold State.ageFlows
  repeat' first
    | with_reducible exact State.keepsBut_refl _ _
    | rfl
    | split
    | with_reducible apply State.keepsBut_with_flow

theorem State.applyBubbles_keepsBut (s : State) : s.keepsBut [.regs, .eng, .pwr] (s.applyBubbles) := by
  unfold State.applyBubbles
  dsimp only
  repeat' first
    | with_reducible exact State.keepsBut_refl _ _
    | with_reducible apply State.keepsBut_then (State.setTilePwr_keepsBut _ _ _)
    | with_reducible apply State.keepsBut_then (State.bump_keepsBut _ _ _ _)
    | with_reducible apply State.keepsBut_then (State.setEngine_keepsBut _ _ _)
    | (with_reducible apply State.keepsBut_foldl) <;> try intro _ _
    | rfl
    | split

theorem State.sendPlain_keepsBut (s : State) (f : Frame) :
    s.keepsBut [.fresh, .regs, .flt, .mgt, .flow, .sw, .pool, .stz, .out] (s.sendPlain f) := by
  unfold State.sendPlain
  repeat' first
    | with_reducible exact State.keepsBut_refl _ _
    | with_reducible apply State.keepsBut_then (State.bump_keepsBut _ _ _ _)
    | with_reducible apply State.keepsBut_then (State.originate_keepsBut _ _ _)
    | rfl
    | split

theorem State.barrierRelease_keepsBut (s : State) (ctx : Nat) (b : BarrierSt) (status : Nat) :
    s.keepsBut [.fresh, .regs, .flt, .mgt, .flow, .sw, .pool, .coll, .stz, .out] (s.barrierRelease ctx b status) := by
  unfold State.barrierRelease
  dsimp only
  repeat' first
    | with_reducible exact State.keepsBut_refl _ _
    | with_reducible apply State.keepsBut_then (State.stamped_keepsBut _)
    | with_reducible apply State.keepsBut_then (State.setColl_keepsBut _ _)
    | with_reducible apply State.keepsBut_then (State.sendPlain_keepsBut _ _)
    | rfl

theorem State.failBlock_keepsBut (s : State) (ctx : Nat) (status : Nat) :
    s.keepsBut [.fresh, .regs, .mgt, .host, .flow, .eng, .parm, .out] (s.failBlock ctx status) := by
  unfold State.failBlock
  dsimp only
  repeat' first
    | with_reducible exact State.keepsBut_refl _ _
    | with_reducible apply State.keepsBut_then (State.endRun_keepsBut _ _ _)
    | with_reducible apply State.keepsBut_then (State.workEnded_keepsBut _ _ _ _)
    | with_reducible apply State.keepsBut_then (State.setParm_keepsBut _ _)
    | with_reducible apply State.keepsBut_then (State.setBlock_keepsBut _ _ _)
    | with_reducible apply State.keepsBut_then (State.blockState_keepsBut _ _ _)
    | with_reducible apply State.keepsBut_then (State.bump_keepsBut _ _ _ _)
    | with_reducible apply State.keepsBut_then (State.blockEvent_keepsBut _ _ _ _)
    | with_reducible apply State.keepsBut_then (State.publishEnd_keepsBut _ _ _)
    | rfl
    | split

theorem State.downDone_keepsBut (s : State) : s.keepsBut [.boot, .mgt] (s.downDone) := by
  unfold State.downDone
  dsimp only
  repeat' first
    | with_reducible exact State.keepsBut_refl _ _
    | with_reducible apply State.keepsBut_then (State.setBoot_keepsBut _ _)
    | rfl
    | split
    | with_reducible apply State.keepsBut_with_mgt

theorem State.startDown_keepsBut (s : State) : s.keepsBut [.boot, .mgt] (s.startDown) := by
  unfold State.startDown
  dsimp only
  repeat' first
    | with_reducible exact State.keepsBut_refl _ _
    | with_reducible apply State.keepsBut_then (State.setBoot_keepsBut _ _)
    | with_reducible apply State.keepsBut_then (State.downDone_keepsBut _)
    | rfl
    | split

theorem State.disableTick_keepsBut (s : State) : s.keepsBut [.host] (s.disableTick) := by
  unfold State.disableTick
  repeat' first
    | with_reducible exact State.keepsBut_refl _ _
    | with_reducible apply State.keepsBut_then (State.setHost_keepsBut _ _)
    | rfl

theorem State.sendHello_keepsBut (s : State) (p : Nat) (kind : Nat) :
    s.keepsBut [.fresh, .regs, .flt, .mgt, .sw, .pool, .stz, .out] (s.sendHello p kind) := by
  unfold State.sendHello
  repeat' first
    | with_reducible exact State.keepsBut_refl _ _
    | with_reducible apply State.keepsBut_then (State.sendDisc_keepsBut _ _ _)
    | rfl

theorem State.helloTick_keepsBut (s : State) :
    s.keepsBut [.fresh, .regs, .flt, .mgt, .topo, .sw, .pool, .stz, .out] (s.helloTick) := by
  unfold State.helloTick
  dsimp only
  repeat' first
    | with_reducible exact State.keepsBut_refl _ _
    | with_reducible apply State.keepsBut_then (State.setRoute_keepsBut _ _ _)
    | with_reducible apply State.keepsBut_then (State.sendHello_keepsBut _ _ _)
    | (with_reducible apply State.keepsBut_foldl) <;> try intro _ _
    | rfl
    | split

theorem State.noticeTick_keepsBut (s : State) :
    s.keepsBut [.fresh, .regs, .flt, .mgt, .topo, .sw, .pool, .stz, .out] (s.noticeTick) := by
  unfold State.noticeTick
  dsimp only
  repeat' first
    | with_reducible exact State.keepsBut_refl _ _
    | with_reducible apply State.keepsBut_then (State.floodNotice_keepsBut _ _)
    | with_reducible apply State.keepsBut_then (State.setTopo_keepsBut _ _)
    | with_reducible apply State.keepsBut_then (State.sendNotice_keepsBut _ _ _)
    | (with_reducible apply State.keepsBut_foldl) <;> try intro _ _
    | rfl

theorem State.creditBlocks_keepsBut (s : State) : s.keepsBut [.out] (s.creditBlocks) := by
  unfold State.creditBlocks
  repeat' first
    | with_reducible exact State.keepsBut_refl _ _
    | with_reducible apply State.keepsBut_then (State.emit_keepsBut _ _)
    | (with_reducible apply State.keepsBut_foldl) <;> try intro _ _
    | rfl
    | split

theorem State.topoTick_keepsBut (s : State) : s.keepsBut [.topo] (s.topoTick) :=
  State.setTopo_keepsBut _ _

theorem State.movePointers_keepsBut (s : State) (first : List Grant) : s.keepsBut [.sw] (s.movePointers first) := by
  unfold State.movePointers
  dsimp only
  repeat' first
    | with_reducible exact State.keepsBut_refl _ _
    | rfl
    | split
    | with_reducible apply State.keepsBut_with_sw

theorem State.scheduleTick_keepsBut (s : State) (late : Option Nat) (lateTiles : List Nat) :
    s.keepsBut [.regs, .sw] (s.scheduleTick late lateTiles) := by
  delta State.scheduleTick
  extract_lets ds us iters n first t u
  have ht : s.keepsBut [.regs, .sw] t := by
    unfold t
    split
    · exact State.keepsBut_then (State.bump_keepsBut s _ _ _) (State.keepsBut_refl _ s) rfl
    · exact State.keepsBut_refl _ s
  have hu : s.keepsBut [.regs, .sw] u := by
    unfold u
    split
    · exact ht
    · exact State.keepsBut_then (State.movePointers_keepsBut t _) ht rfl
  exact State.keepsBut_with_sw _ hu rfl

theorem State.switchTick_keepsBut (s : State) : s.keepsBut [.sw] (s.switchTick) := by
  unfold State.switchTick
  dsimp only
  repeat' first
    | with_reducible exact State.keepsBut_refl _ _
    | rfl
    | split
    | with_reducible apply State.keepsBut_with_sw

theorem State.overrun_keepsBut (s : State) (k : Nat) :
    s.keepsBut [.fresh, .regs, .flt, .mgt, .eng, .out] (s.overrun k) := by
  unfold State.overrun
  dsimp only
  repeat' first
    | with_reducible exact State.keepsBut_refl _ _
    | with_reducible apply State.keepsBut_then (State.bump_keepsBut _ _ _ _)
    | with_reducible apply State.keepsBut_then (State.setEngine_keepsBut _ _ _)
    | with_reducible apply State.keepsBut_then (State.event_keepsBut _ _ _ _ _ _ _)
    | with_reducible apply State.keepsBut_then (State.report_keepsBut _ _ _)
    | rfl
    | split

theorem State.engineToTest_keepsBut (s : State) (k : Nat) : s.keepsBut [.eng] (s.engineToTest k) := by
  unfold State.engineToTest
  dsimp only
  repeat' first
    | with_reducible exact State.keepsBut_refl _ _
    | with_reducible apply State.keepsBut_then (State.setEngine_keepsBut _ _ _)
    | rfl
    | split

theorem State.testTick_keepsBut (s : State) : s.keepsBut [.eng] (s.testTick) := by
  unfold State.testTick
  dsimp only
  repeat' first
    | with_reducible exact State.keepsBut_refl _ _
    | with_reducible apply State.keepsBut_then (State.setEngine_keepsBut _ _ _)
    | with_reducible apply State.keepsBut_then (State.setEng_keepsBut _ _)
    | with_reducible apply State.keepsBut_then (State.engineToTest_keepsBut _ _)
    | (with_reducible apply State.keepsBut_foldl) <;> try intro _ _
    | rfl
    | split

theorem State.engineTick_keepsBut (s : State) :
    s.keepsBut [.fresh, .regs, .flt, .mgt, .eng, .out] (s.engineTick) := by
  unfold State.engineTick
  dsimp only
  repeat' first
    | with_reducible exact State.keepsBut_refl _ _
    | with_reducible apply State.keepsBut_then (State.overrun_keepsBut _ _)
    | with_reducible apply State.keepsBut_then (State.setEngine_keepsBut _ _ _)
    | with_reducible apply State.keepsBut_then (State.bump_keepsBut _ _ _ _)
    | with_reducible apply State.keepsBut_then (State.testTick_keepsBut _)
    | (with_reducible apply State.keepsBut_foldl) <;> try intro _ _
    | rfl
    | split

theorem State.judgeEstimate_keepsBut (s : State) (x : PowerSample) : s.keepsBut [.pwr] (s.judgeEstimate x) := by
  unfold State.judgeEstimate
  dsimp only
  repeat' first
    | with_reducible exact State.keepsBut_refl _ _
    | with_reducible apply State.keepsBut_then (State.setPwr_keepsBut _ _)
    | rfl

theorem State.powerTick_keepsBut (s : State) (x : PowerSample) :
    s.keepsBut [.fresh, .regs, .mgt, .pwr, .out] (s.powerTick x) := by
  delta State.powerTick
  extract_lets ctl busy n unmet t ws parts u v w
  have ht : s.keepsBut [.fresh, .regs, .mgt, .pwr, .out] t := by
    unfold t
    split
    · exact State.keepsBut_refl _ s
    · exact State.keepsBut_then (State.judgeEstimate_keepsBut s x) (State.keepsBut_refl _ s) rfl
  have hu : s.keepsBut [.fresh, .regs, .mgt, .pwr, .out] u :=
    State.keepsBut_then (State.keepsBut_foldl (fun y k => State.setTilePwr_keepsBut y k _) (State.keepsBut_refl [.pwr] t)) ht rfl
  have hv : s.keepsBut [.fresh, .regs, .mgt, .pwr, .out] v := State.keepsBut_then (State.setPwr_keepsBut u _) hu rfl
  have hw : s.keepsBut [.fresh, .regs, .mgt, .pwr, .out] w := by
    unfold w
    split
    · exact State.keepsBut_then (State.bump_keepsBut v _ _ _) hv rfl
    · exact hv
  split
  · exact State.event_within (State.keepsBut_then (State.setPwr_keepsBut w _) hw rfl) (by decide) _ _ _ _ _ _
  · exact hw

theorem State.demandTick_keepsBut (s : State) : s.keepsBut [.pwr] (s.demandTick) := by
  unfold State.demandTick
  dsimp only
  repeat' first
    | with_reducible exact State.keepsBut_refl _ _
    | with_reducible apply State.keepsBut_then (State.setTilePwr_keepsBut _ _ _)
    | (with_reducible apply State.keepsBut_foldl) <;> try intro _ _
    | rfl
    | split

theorem State.collTick_keepsBut (s : State) : s.keepsBut [.coll] (s.collTick) := by
  unfold State.collTick
  dsimp only
  repeat' first
    | with_reducible exact State.keepsBut_refl _ _
    | with_reducible apply State.keepsBut_then (State.setColl_keepsBut _ _)
    | rfl

theorem State.drainBlocks_keepsBut (s : State) (inScope : Nat → Bool) :
    s.keepsBut [.fresh, .regs, .mgt, .host, .flow, .eng, .parm, .out] (s.drainBlocks inScope) := by
  unfold State.drainBlocks
  dsimp only
  repeat' first
    | with_reducible exact State.keepsBut_refl _ _
    | with_reducible apply State.keepsBut_then (State.failBlock_keepsBut _ _ _)
    | with_reducible apply State.keepsBut_then (State.withdraw_keepsBut _ _)
    | with_reducible apply State.keepsBut_then (State.setBlock_keepsBut _ _ _)
    | with_reducible apply State.keepsBut_then (State.workEnded_keepsBut _ _ _ _)
    | (with_reducible apply State.keepsBut_foldl) <;> try intro _ _
    | rfl
    | split

theorem State.drainStash_keepsBut (s : State) (inScope : Nat → Bool) :
    s.keepsBut [.fresh, .regs, .flt, .mgt, .host, .flow, .sw, .pool, .stash, .stz, .out] (s.drainStash inScope) := by
  unfold State.drainStash
  dsimp only
  repeat' first
    | with_reducible exact State.keepsBut_refl _ _
    | with_reducible apply State.keepsBut_then (State.freeEntry_keepsBut _ _)
    | with_reducible apply State.keepsBut_then (State.workEnded_keepsBut _ _ _ _)
    | with_reducible apply State.keepsBut_then (State.endGet_keepsBut _ _ _ _)
    | (with_reducible apply State.keepsBut_foldl) <;> try intro _ _
    | rfl

theorem State.setStzOp_keepsBut (s : State) (n : Nat) (f : StzOp → StzOp) : s.keepsBut [.stz] (s.setStzOp n f) := by
  unfold State.setStzOp
  repeat' first
    | with_reducible exact State.keepsBut_refl _ _
    | with_reducible apply State.keepsBut_then (State.setStz_keepsBut _ _)
    | rfl
    | split

theorem State.stzComplete_keepsBut (s : State) (n : Nat) (o : StzOp) (t : Stamp) (status : Nat) (rank : Nat) :
    s.keepsBut [.fresh, .regs, .flt, .mgt, .flow, .sw, .pool, .stz, .out] (s.stzComplete n o t status rank) := by
  unfold State.stzComplete
  dsimp only
  repeat' first
    | with_reducible exact State.keepsBut_refl _ _
    | with_reducible apply State.keepsBut_then (State.send_keepsBut _ _ _)
    | rfl
    | split

theorem State.stzEnd_keepsBut (s : State) (n : Nat) (status : Nat) :
    s.keepsBut [.fresh, .regs, .flt, .mgt, .host, .flow, .sw, .pool, .stz, .ctxs, .out] (s.stzEnd n status) := by
  unfold State.stzEnd
  dsimp only
  repeat' first
    | with_reducible exact State.keepsBut_refl _ _
    | with_reducible apply State.keepsBut_then (State.stamped_keepsBut _)
    | with_reducible apply State.keepsBut_then (State.withdraw_keepsBut _ _)
    | with_reducible apply State.keepsBut_then (State.bump_keepsBut _ _ _ _)
    | with_reducible apply State.keepsBut_then (State.workEnded_keepsBut _ _ _ _)
    | with_reducible apply State.keepsBut_then (State.setStzOp_keepsBut _ _ _)
    | with_reducible apply State.keepsBut_then (State.stzReturn_keepsBut _ _)
    | with_reducible apply State.keepsBut_then (State.stzComplete_keepsBut _ _ _ _ _ _)
    | (with_reducible apply State.keepsBut_foldl) <;> try intro _ _
    | rfl
    | split

theorem State.drainStozil_keepsBut (s : State) (inScope : Nat → Bool) :
    s.keepsBut [.fresh, .regs, .flt, .mgt, .host, .flow, .sw, .pool, .stz, .ctxs, .out] (s.drainStozil inScope) := by
  unfold State.drainStozil
  repeat' first
    | with_reducible exact State.keepsBut_refl _ _
    | with_reducible apply State.keepsBut_then (State.stzEnd_keepsBut _ _ _)
    | (with_reducible apply State.keepsBut_foldl) <;> try intro _ _
    | rfl
    | split

theorem State.drain_keepsBut (s : State) (f : Nat) (job : Nat) :
    s.keepsBut [.fresh, .regs, .flt, .mgt, .host, .flow, .sw, .pool, .eng, .coll, .parm, .stash, .stz, .ctxs, .out] (s.drain f job) := by
  unfold State.drain
  dsimp only
  repeat' first
    | with_reducible exact State.keepsBut_refl _ _
    | with_reducible apply State.keepsBut_then (State.endInstances_keepsBut _ _ _)
    | with_reducible apply State.keepsBut_then (State.drainBlocks_keepsBut _ _)
    | with_reducible apply State.keepsBut_then (State.drainStash_keepsBut _ _)
    | with_reducible apply State.keepsBut_then (State.endRuns_keepsBut _ _ _)
    | with_reducible apply State.keepsBut_then (State.drainStozil_keepsBut _ _)
    | rfl
    | split

theorem State.stashTick_keepsBut (s : State) :
    s.keepsBut [.fresh, .regs, .flt, .mgt, .host, .flow, .sw, .pool, .eng, .coll, .parm, .stash, .stz, .ctxs, .out] (s.stashTick) := by
  unfold State.stashTick
  repeat' first
    | with_reducible exact State.keepsBut_refl _ _
    | with_reducible apply State.keepsBut_then (State.drain_keepsBut _ _ _)
    | rfl
    | split
    | with_reducible apply State.keepsBut_with_stash

theorem State.stzTick_keepsBut (s : State) : s.keepsBut [.stz] (s.stzTick) := by
  unfold State.stzTick
  repeat' first
    | with_reducible exact State.keepsBut_refl _ _
    | with_reducible apply State.keepsBut_then (State.setStz_keepsBut _ _)
    | rfl

theorem State.dataTick_keepsBut (s : State) (inp : BoundaryIn) :
    s.keepsBut [.fresh, .regs, .flt, .mgt, .host, .flow, .sw, .pool, .eng, .coll, .parm, .stash, .stz, .pwr, .ctxs, .out] (s.dataTick inp) := by
  unfold State.dataTick
  dsimp only
  repeat' first
    | with_reducible exact State.keepsBut_refl _ _
    | with_reducible apply State.keepsBut_then (State.scheduleTick_keepsBut _ _ _)
    | with_reducible apply State.keepsBut_then (State.switchTick_keepsBut _)
    | with_reducible apply State.keepsBut_then (State.applyBubbles_keepsBut _)
    | with_reducible apply State.keepsBut_then (State.engineTick_keepsBut _)
    | with_reducible apply State.keepsBut_then (State.powerTick_keepsBut _ _)
    | with_reducible apply State.keepsBut_then (State.demandTick_keepsBut _)
    | with_reducible apply State.keepsBut_then (State.collTick_keepsBut _)
    | with_reducible apply State.keepsBut_then (State.stashTick_keepsBut _)
    | with_reducible apply State.keepsBut_then (State.stzTick_keepsBut _)
    | with_reducible apply State.keepsBut_then (State.ageFlows_keepsBut _)
    | rfl

theorem State.fecCount_keepsBut (s : State) (f : FecCount) : s.keepsBut [.regs, .link] (s.fecCount f) := by
  unfold State.fecCount
  dsimp only
  repeat' first
    | with_reducible exact State.keepsBut_refl _ _
    | with_reducible apply State.keepsBut_then (State.bump_keepsBut _ _ _ _)
    | with_reducible apply State.keepsBut_then (State.setReg_keepsBut _ _ _ _)
    | with_reducible apply State.keepsBut_then (State.setLane_keepsBut _ _ _)
    | rfl

theorem State.linkTick_keepsBut (s : State) (fec : List FecCount) : s.keepsBut [.regs, .link] (s.linkTick fec) := by
  unfold State.linkTick
  dsimp only
  repeat' first
    | with_reducible exact State.keepsBut_refl _ _
    | with_reducible apply State.keepsBut_then (State.fecCount_keepsBut _ _)
    | (with_reducible apply State.keepsBut_foldl) <;> try intro _ _
    | rfl
    | split
    | with_reducible apply State.keepsBut_with_link

theorem State.thermalTick_keepsBut (s : State) : s.keepsBut [.pwr] (s.thermalTick) := by
  unfold State.thermalTick
  repeat' first
    | with_reducible exact State.keepsBut_refl _ _
    | with_reducible apply State.keepsBut_then (State.setPwr_keepsBut _ _)
    | rfl

theorem State.injectTick_keepsBut (s : State) : s.keepsBut [.flt] (s.injectTick) :=
  State.setFlt_keepsBut _ _

theorem State.logRate_keepsBut (s : State) : s.keepsBut [.mgt] (s.logRate) := by
  unfold State.logRate
  dsimp only
  repeat' first
    | with_reducible exact State.keepsBut_refl _ _
    | with_reducible apply State.keepsBut_then (State.setMgt_keepsBut _ _)
    | rfl

theorem State.capture_keepsBut (s : State) (r : FaultRep) (injected : Bool) (safe : Bool) :
    s.keepsBut [.fresh, .regs, .flt] (s.capture r injected safe) := by
  unfold State.capture
  dsimp only
  repeat' first
    | with_reducible exact State.keepsBut_refl _ _
    | with_reducible apply State.keepsBut_then (State.stamped_keepsBut _)
    | with_reducible apply State.keepsBut_then (State.bump_keepsBut _ _ _ _)
    | with_reducible apply State.keepsBut_then (State.setFlt_keepsBut _ _)
    | rfl

theorem State.commitCounts_keepsBut (s : State) (f : RxFrame) : s.keepsBut [.regs] (s.commitCounts f) := by
  unfold State.commitCounts
  repeat' first
    | with_reducible exact State.keepsBut_refl _ _
    | with_reducible apply State.keepsBut_then (State.count_keepsBut _ _)
    | rfl

theorem State.takeInternal_keepsBut (s : State) (d : Delivery) :
    s.keepsBut [.fresh, .regs, .flt, .mgt, .sw, .pool, .out] (s.takeInternal d) := by
  unfold State.takeInternal
  repeat' first
    | with_reducible exact State.keepsBut_refl _ _
    | with_reducible apply State.keepsBut_then (State.releaseCopy_keepsBut _ _)
    | rfl
    | split
    | with_reducible apply State.keepsBut_with_sw

theorem State.enterSafe_keepsBut (s : State) (cls : Nat) (level : Nat) :
    s.keepsBut [.fresh, .regs, .flt, .mgt, .host, .flow, .eng, .parm, .out] (s.enterSafe cls level) := by
  unfold State.enterSafe
  dsimp only
  repeat' first
    | with_reducible exact State.keepsBut_refl _ _
    | with_reducible apply State.keepsBut_then (State.failBlock_keepsBut _ _ _)
    | with_reducible apply State.keepsBut_then (State.setFlt_keepsBut _ _)
    | with_reducible apply State.keepsBut_then (State.bump_keepsBut _ _ _ _)
    | (with_reducible apply State.keepsBut_foldl) <;> try intro _ _
    | rfl

theorem State.portEvent_keepsBut (s : State) (p : Nat) : s.keepsBut [.fresh, .regs, .mgt, .out] (s.portEvent p) := by
  unfold State.portEvent
  dsimp only
  repeat' first
    | with_reducible exact State.keepsBut_refl _ _
    | with_reducible apply State.keepsBut_then (State.event_keepsBut _ _ _ _ _ _ _)
    | rfl

theorem State.sendCaps_keepsBut (s : State) (p : Nat) : s.keepsBut [.out] (s.sendCaps p) := by
  unfold State.sendCaps
  repeat' first
    | with_reducible exact State.keepsBut_refl _ _
    | with_reducible apply State.keepsBut_then (State.emit_keepsBut _ _)
    | (with_reducible apply State.keepsBut_foldl) <;> try intro _ _
    | rfl
    | split

theorem State.routeActive_keepsBut (s : State) (p : Nat) :
    s.keepsBut [.fresh, .regs, .flt, .mgt, .topo, .sw, .pool, .stz, .out] (s.routeActive p) := by
  unfold State.routeActive
  repeat' first
    | with_reducible exact State.keepsBut_refl _ _
    | with_reducible apply State.keepsBut_then (State.setRoute_keepsBut _ _ _)
    | with_reducible apply State.keepsBut_then (State.judgePort_keepsBut _ _)
    | with_reducible apply State.keepsBut_then (State.trunkCheck_keepsBut _)
    | with_reducible apply State.keepsBut_then (State.summaryCheck_keepsBut _)
    | rfl

theorem State.logFault_keepsBut (s : State) (r : FaultRep) (injected : Bool) (level : Nat) :
    s.keepsBut [.fresh, .regs, .flt, .mgt, .out] (s.logFault r injected level) := by
  unfold State.logFault
  dsimp only
  repeat' first
    | with_reducible exact State.keepsBut_refl _ _
    | with_reducible apply State.keepsBut_then (State.bump_keepsBut _ _ _ _)
    | with_reducible apply State.keepsBut_then (State.setFlt_keepsBut _ _)
    | with_reducible apply State.keepsBut_then (State.event_keepsBut _ _ _ _ _ _ _)
    | rfl
    | split

theorem State.react_keepsBut (s : State) (r : FaultRep) (injected : Bool) :
    s.keepsBut [.fresh, .regs, .flt, .mgt, .host, .flow, .eng, .parm, .out] (s.react r injected) := by
  unfold State.react
  dsimp only
  repeat' first
    | with_reducible exact State.keepsBut_refl _ _
    | with_reducible apply State.keepsBut_then (State.capture_keepsBut _ _ _ _)
    | with_reducible apply State.keepsBut_then (State.logFault_keepsBut _ _ _ _)
    | with_reducible apply State.keepsBut_then (State.enterSafe_keepsBut _ _ _)
    | rfl
    | split

theorem State.returnCredit_keepsBut (s : State) (p : Nat) (vc : Nat) (n : Nat) :
    s.keepsBut [.link, .out] (s.returnCredit p vc n) := by
  unfold State.returnCredit
  dsimp only
  repeat' first
    | with_reducible exact State.keepsBut_refl _ _
    | with_reducible apply State.keepsBut_then (State.setPort_keepsBut _ _ _)
    | with_reducible apply State.keepsBut_then (State.emit_keepsBut _ _)
    | rfl

theorem State.sendRefusal_keepsBut (s : State) (h : Hdr) (st : Option Nat) :
    s.keepsBut [.fresh, .regs, .flt, .mgt, .flow, .sw, .pool, .stz, .out] (s.sendRefusal h st) := by
  unfold State.sendRefusal
  repeat' first
    | with_reducible exact State.keepsBut_refl _ _
    | with_reducible apply State.keepsBut_then (State.ratedRefusal_keepsBut _ _ _)
    | with_reducible apply State.keepsBut_then (State.transitAck_keepsBut _ _ _ _)
    | rfl
    | split

theorem State.peerReset_keepsBut (s : State) (n : Nat) :
    s.keepsBut [.fresh, .regs, .flt, .mgt, .topo, .sw, .pool, .out] (s.peerReset n) := by
  unfold State.peerReset
  dsimp only
  repeat' first
    | with_reducible exact State.keepsBut_refl _ _
    | with_reducible apply State.keepsBut_then (State.holdPort_keepsBut _ _ _)
    | with_reducible apply State.keepsBut_then (State.markLost_keepsBut _ _)
    | (with_reducible apply State.keepsBut_foldl) <;> try intro _ _
    | rfl

theorem State.laneGain_keepsBut (s : State) (n : Nat) (los : Bool) : s.keepsBut [.link] (s.laneGain n los) := by
  unfold State.laneGain
  repeat' first
    | with_reducible exact State.keepsBut_refl _ _
    | with_reducible apply State.keepsBut_then (State.setLane_keepsBut _ _ _)
    | rfl

theorem State.takeLocal_keepsBut (s : State) (p : Nat) (op : Nat) (kind : Option Nat) :
    s.keepsBut [.fresh, .regs, .flt, .mgt, .sw, .pool, .out] (s.takeLocal p op kind) := by
  unfold State.takeLocal
  dsimp only
  repeat' first
    | with_reducible exact State.keepsBut_refl _ _
    | with_reducible apply State.keepsBut_then (State.takeInternal_keepsBut _ _)
    | rfl
    | split

theorem State.restoreChannels_keepsBut (s : State) : s.keepsBut [.flt, .mgt] (s.restoreChannels) := by
  unfold State.restoreChannels
  dsimp only
  repeat' first
    | with_reducible exact State.keepsBut_refl _ _
    | with_reducible apply State.keepsBut_then (State.setChannel_keepsBut _ _ _)
    | (with_reducible apply State.keepsBut_foldl) <;> try intro _ _
    | rfl
    | with_reducible apply State.keepsBut_with_mgt

theorem State.trainingFailed_keepsBut (s : State) (c : Nat) :
    s.keepsBut [.fresh, .regs, .flt, .mgt, .out] (s.trainingFailed c) := by
  unfold State.trainingFailed
  repeat' first
    | with_reducible exact State.keepsBut_refl _ _
    | with_reducible apply State.keepsBut_then (State.recordChannel_keepsBut _ _)
    | with_reducible apply State.keepsBut_then (State.setChannel_keepsBut _ _ _)
    | with_reducible apply State.keepsBut_then (State.event_keepsBut _ _ _ _ _ _ _)
    | rfl

theorem State.trialEnd_keepsBut (s : State) : s.keepsBut [.mgt] (s.trialEnd) := by
  unfold State.trialEnd
  dsimp only
  repeat' first
    | with_reducible exact State.keepsBut_refl _ _
    | with_reducible apply State.keepsBut_then (State.setMgt_keepsBut _ _)
    | with_reducible apply State.keepsBut_then (State.setSlot_keepsBut _ _ _)
    | rfl
    | split

theorem State.peerReports_keepsBut (s : State) (p : Nat) (d : Disc) :
    s.keepsBut [.fresh, .regs, .flt, .mgt, .topo, .sw, .pool, .stz, .out] (s.peerReports p d) := by
  unfold State.peerReports
  repeat' first
    | with_reducible exact State.keepsBut_refl _ _
    | with_reducible apply State.keepsBut_then (State.setRoute_keepsBut _ _ _)
    | with_reducible apply State.keepsBut_then (State.trunkCheck_keepsBut _)
    | rfl

theorem State.sendOutput_keepsBut (s : State) (ctx : Nat) (bi : Nat) (p : ProgSt) :
    s.keepsBut [.fresh, .regs, .flt, .mgt, .flow, .sw, .pool, .stz, .out] (s.sendOutput ctx bi p).2 := by
  unfold State.sendOutput
  dsimp only
  repeat' first
    | with_reducible exact State.keepsBut_refl _ _
    | with_reducible apply State.keepsBut_then (State.send_keepsBut _ _ _)
    | (with_reducible apply State.keepsBut_foldl) <;> try intro _ _
    | rfl

theorem State.slotSpoiled_keepsBut (s : State) (r : FaultRep) : s.keepsBut [.host] (s.slotSpoiled r) := by
  unfold State.slotSpoiled
  dsimp only
  repeat' first
    | with_reducible exact State.keepsBut_refl _ _
    | with_reducible apply State.keepsBut_then (State.setHost_keepsBut _ _)
    | with_reducible apply State.keepsBut_then (State.setMbox_keepsBut _ _ _)
    | rfl
    | split

theorem State.stashDrained_keepsBut (s : State) (job : Nat) :
    s.keepsBut [.fresh, .regs, .flt, .mgt, .host, .flow, .sw, .pool, .eng, .coll, .parm, .stash, .stz, .ctxs, .out] (s.stashDrained job) := by
  unfold State.stashDrained
  repeat' first
    | with_reducible exact State.keepsBut_refl _ _
    | with_reducible apply State.keepsBut_then (State.drain_keepsBut _ _ _)
    | with_reducible apply State.keepsBut_then (State.endGet_keepsBut _ _ _ _)
    | with_reducible apply State.keepsBut_then (State.stashSweep_keepsBut _ _)
    | (with_reducible apply State.keepsBut_foldl) <;> try intro _ _
    | rfl
    | split

theorem State.windowEnd_keepsBut (s : State) : s.keepsBut [.link] (s.windowEnd) := by
  unfold State.windowEnd
  repeat' first
    | with_reducible exact State.keepsBut_refl _ _
    | rfl
    | split
    | with_reducible apply State.keepsBut_with_link

end Sys2Proof.Machine
end

section

-- One declaration after another: elaborated side by side, they take more threads than the check allows.
set_option Elab.async false

/-! The phases on the way up and their failures, input power lost, and rail faults (R327–R351). -/

namespace Sys2Proof.Machine

/-! ## What stopping a tile leaves -/

theorem State.engineIdle_leaves {γ : Type} {p : State → γ} (h : ∀ (s : State) k cause, p (s.engineRetired k cause) = p s)
    (s : State) (k : Nat) : p (s.engineIdle k) = p s := by
  simp only [State.engineIdle]
  split
  · exact h s k 0
  · rfl

theorem State.engineRetired_reg {r : Reg} {i : Nat} (h : r.quiet i) (s : State) (k cause : Nat) :
    (s.engineRetired k cause).reg r i = s.reg r i := by
  simp only [State.engineRetired]
  rw [State.event_reg h]
  rfl

theorem State.engineRetired_inReset (s : State) (k cause : Nat) :
    (s.engineRetired k cause).eng.inReset = s.eng.inReset := by
  simp only [State.engineRetired, State.event_eng]
  rfl

/-- What the engines' queues, states and retirements leave, stopping a tile's engines leaves. -/
theorem State.stopTile_leaves {γ : Type} {p : State → γ} (hretired : ∀ (s : State) k cause, p (s.engineRetired k cause) = p s)
    (hengine : ∀ (s : State) k f t q, p ((s.setEngine k f).setQueue t q) = p s) (s : State) (t : Nat) :
    p (s.stopTile t) = p (s.setEng fun e => { e with inReset := if e.inReset.contains t then e.inReset else t :: e.inReset }) := by
  simp only [State.stopTile]
  refine foldl_leaves (p := p) (fun u k => ?_) _ _
  generalize (u.engine k).assigned.toList ++ _ = back
  split
  · rfl
  · rw [State.engineIdle_leaves hretired, hengine]

theorem State.stopTile_reg {r : Reg} {i : Nat} (h : r.quiet i) (s : State) (t : Nat) :
    (s.stopTile t).reg r i = s.reg r i :=
  State.stopTile_leaves (p := fun u => u.reg r i) (State.engineRetired_reg h) (fun _ _ _ _ _ => rfl) s t

theorem State.mem_stopTile_inReset (s : State) (t : Nat) : t ∈ (s.stopTile t).eng.inReset := by
  rw [State.stopTile_leaves (p := fun u => u.eng.inReset) State.engineRetired_inReset (fun _ _ _ _ _ => rfl)]
  by_cases h : t ∈ s.eng.inReset <;> simp [h, State.setEng]

/-! ## Input power lost -/

/-- Input power lost before POWERING, or in FAILED, loses the qualification alone. -/
theorem State.inputLost_idle {s : State} (h : s.boot.phase < Phase.powering ∨ s.boot.phase = Phase.failed) (v cause : Nat) :
    s.inputLost v cause = { s with boot := { s.boot with vin := false } } := by
  rw [State.inputLost, if_pos h]; rfl

/-- What is left when input power is lost: the data plane gone and the down order started, before STANDBY is entered. -/
def State.powerLost (s : State) (v cause : Nat) : State :=
  let t := (s.event 3 0x0A 0x0010 (leBytes 2 v ++ leBytes 1 cause)).withoutData.restartPlan
  ({ t with flt := { t.flt with safe := none } }.setBoot fun b => { b with vin := false, kept := none }).startDown

theorem State.inputLost_running {s : State} (hp : Phase.powering ≤ s.boot.phase) (hf : s.boot.phase ≠ Phase.failed)
    (v cause : Nat) : s.inputLost v cause = (s.powerLost v cause).standby := by
  rw [State.inputLost, if_neg (by omega)]; rfl

/-- What the AUX domain has kept, rails that were up and a trip, is reported. -/
def State.auxReported (s : State) : State :=
  let s := if s.mgt.auxRails && s.boot.upStep == 0 then
      { s with mgt := { s.mgt with auxRails := false } }.event 4 0x0A 0x0011 [] else s
  match s.mgt.auxTrip with
    | some x => { s with mgt := { s.mgt with auxTrip := none } }.event 4 0x0A 0x0017 (leBytes 2 x.1 ++ leBytes 2 x.2)
    | none => s

theorem State.auxReported_keepsBut (s : State) : s.keepsBut eventParts s.auxReported := by
  have hmgt : ∀ (u : State) m severity source code data,
      u.keepsBut eventParts ({ u with mgt := m }.event severity source code data) := fun u m _ _ _ _ =>
    State.event_within (ch := eventParts) (State.keepsBut_of_event rfl) (List.Subset.refl _) _ _ _ _ _ _
  have hrails : ∀ (c : Bool) m (u : State), u.keepsBut eventParts
      (if c = true then { u with mgt := m }.event 4 0x0A 0x0011 [] else u) := by
    intro c m u
    split
    · exact hmgt u m _ _ _ _
    · exact State.keepsBut_refl _ u
  unfold State.auxReported
  dsimp only
  split
  · exact State.keepsBut_trans (hrails _ _ s) (hmgt _ _ _ _ _ _)
  · exact hrails _ _ s

/-- STANDBY, once everything has been reported and before the input is qualified. -/
def State.standing (s : State) : State :=
  let s := ((s.setBoot fun b => { b with epoch := b.epoch + 1 }).enter Phase.standby).auxReported
  if s.boot.refclk then s else (s.setBoot fun b => { b with refclkMissing := true }).event 2 0x0A 0x0018 []

theorem State.standby_eq (s : State) : s.standby = s.standing.qualify := rfl

theorem State.standing_keepsBut (s : State) : s.keepsBut (.boot :: eventParts) s.standing := by
  have hreported : s.keepsBut (.boot :: eventParts)
      ((s.setBoot fun b => { b with epoch := b.epoch + 1 }).enter Phase.standby).auxReported :=
    State.keepsBut_then (State.auxReported_keepsBut _) (State.keepsBut_then (State.enter_keepsBut _ _ _)
      (State.keepsBut_then (s.setBoot_keepsBut _) (State.keepsBut_refl _ s) rfl) rfl) rfl
  simp only [State.standing]
  split
  · exact hreported
  · exact State.keepsBut_then (State.event_keepsBut _ _ _ _ _ _ _)
      (State.keepsBut_then (State.setBoot_keepsBut _ _) hreported rfl) rfl

theorem State.standing_boot (s : State) : s.standing.boot = { s.boot with
    epoch := s.boot.epoch + 1, phase := Phase.standby, failReason := 0
    refclkMissing := if s.boot.refclk then s.boot.refclkMissing else true } := by
  have hboot : ((s.setBoot fun b => { b with epoch := b.epoch + 1 }).enter Phase.standby).auxReported.boot =
      { s.boot with epoch := s.boot.epoch + 1, phase := Phase.standby, failReason := 0 } := by
    rw [State.keepsBut_boot (State.auxReported_keepsBut _)]; simp
  simp only [State.standing]
  cases hr : s.boot.refclk
  · rw [if_neg (by simp [hboot, hr])]; simp [hboot, hr]
  · rw [if_pos (by simp [hboot, hr])]; simp [hboot, hr]

/-- Without 44 V the module waits in STANDBY. -/
theorem State.standby_of_no_input {s : State} (h : s.boot.vin = false) : s.standby = s.standing := by
  rw [State.standby_eq, State.qualify, if_pos (by simp [State.standing_boot, h])]

/-- POWER_GOOD and the power of the host ports fall; of the rest only the steps and rails change. -/
theorem State.startDown_boot_rest {s : State} (hp : s.boot.phase ≠ Phase.reset) :
    s.startDown.boot = { s.boot with
      powerGood := false, hostPowered := false, downStep := s.startDown.boot.downStep, upStep := s.startDown.boot.upStep
      railsOff := s.startDown.boot.railsOff } := by
  simp only [State.startDown]
  split
  · rfl
  · split
    · rw [State.downDone_boot (by simpa using hp)]; rfl
    · rfl

theorem State.polarity_boot {s : State} (h : s.boot.phase ≠ Phase.reset) (r : Bool) :
    (s.polarity r).boot = { s.boot with reversed := r } := by
  unfold State.polarity
  split
  next heq => rw [← eq_of_beq heq]
  · simp [State.leaveReset, h]

theorem State.polarity_reversed (s : State) : s.polarity true = { s with boot := { s.boot with reversed := true } } := by
  unfold State.polarity
  split
  next heq => rw [← eq_of_beq heq]
  · rw [State.leaveReset, if_neg (by simp)]; rfl

@[simp] theorem State.polarity_topo (s : State) (r : Bool) : (s.polarity r).topo = s.topo := by
  unfold State.polarity State.leaveReset
  split
  · rfl
  · split <;> rfl

theorem State.powerLost_boot {s : State} (hp : s.boot.phase ≠ Phase.reset) (v cause : Nat) :
    (s.powerLost v cause).boot.vin = false ∧ (s.powerLost v cause).boot.powerGood = false ∧
    (s.powerLost v cause).boot.epoch = s.boot.epoch ∧ (s.powerLost v cause).boot.carving = s.boot.carving ∧
    (s.powerLost v cause).boot.reversed = s.boot.reversed := by
  unfold State.powerLost
  dsimp only
  rw [State.startDown_boot_rest] <;> simp [State.withoutData, State.restartPlan, hp]

theorem State.powerLost_plan (s : State) (v cause : Nat) : (s.powerLost v cause).topo.plan = s.topo.plan := by
  unfold State.powerLost
  dsimp only
  rw [State.keepsBut_topo (State.startDown_keepsBut _)]
  simp [State.withoutData, State.restartPlan]

@[simp] theorem State.powerLost_safe (s : State) (v cause : Nat) : (s.powerLost v cause).flt.safe = none := by
  simp [State.powerLost]

/-- Input power lost in or after POWERING leads to STANDBY. -/
theorem State.inputLost_standby {s : State} (hp : Phase.powering ≤ s.boot.phase) (hf : s.boot.phase ≠ Phase.failed)
    (v cause : Nat) :
    (s.inputLost v cause).boot.phase = Phase.standby ∧ (s.inputLost v cause).boot.vin = false ∧
    (s.inputLost v cause).boot.powerGood = false ∧ (s.inputLost v cause).boot.epoch = s.boot.epoch + 1 ∧
    (s.inputLost v cause).boot.carving = s.boot.carving ∧ (s.inputLost v cause).topo.plan = s.topo.plan ∧
    (s.inputLost v cause).flt.safe = none ∧ (s.inputLost v cause).boot.reversed = s.boot.reversed := by
  have hr : s.boot.phase ≠ Phase.reset := by rw [Phase.reset]; rw [Phase.powering] at hp; omega
  obtain ⟨hvin, hgood, hepoch, hcarving, hreversed⟩ := State.powerLost_boot hr v cause
  rw [State.inputLost_running hp hf, State.standby_of_no_input hvin, State.standing_boot]
  have hk := State.standing_keepsBut (s.powerLost v cause)
  refine ⟨rfl, hvin, hgood, congrArg (· + 1) hepoch, hcarving, ?_, ?_, hreversed⟩
  · rw [State.keepsBut_topo hk, State.powerLost_plan]
  · rw [State.keepsBut_flt hk, State.powerLost_safe]

/-! ## Rail faults -/

theorem State.railFault_engines {s : State} {r t : Nat} (hp : Phase.memory ≤ s.boot.phase)
    (hf : s.boot.phase ≠ Phase.failed) (hr : engineRail r = some t) :
    s.railFault r = ((((s.bump .pwrRailFault r).report { cls := 21, detail := r }).setBoot fun b =>
      { b with railsOff := if b.railsOff.contains t then b.railsOff else t :: b.railsOff }).setTilePwr t fun p =>
        { p with railOff := true }).stopTile t := by
  rw [State.railFault, if_neg (by omega), hr]

theorem State.railFault_other {s : State} {r : Nat} (hp : Phase.memory ≤ s.boot.phase)
    (hf : s.boot.phase ≠ Phase.failed) (hr : engineRail r = none) :
    s.railFault r = ((s.withoutData.bump .pwrRailFault r).report { cls := 21, detail := r }).fail 2 := by
  rw [State.railFault, if_neg (by omega), hr]

/-- The rail of a tile's engines takes away that tile alone (R351). -/
theorem State.railFault_tile {s : State} {r t : Nat} (hr : r < 43) (hp : Phase.memory ≤ s.boot.phase)
    (hf : s.boot.phase ≠ Phase.failed) (ht : engineRail r = some t) :
    (s.railFault r).boot.phase = s.boot.phase ∧ t ∈ (s.railFault r).boot.railsOff ∧
    ((s.railFault r).tilePwr t).railOff = true ∧ t ∈ (s.railFault r).eng.inReset ∧
    (s.railFault r).flt.todo = s.flt.todo ++ [({ cls := 21, detail := r }, false)] ∧
    (s.railFault r).reg .pwrRailFault r = s.countedUp .pwrRailFault r := by
  rw [State.railFault_engines hp hf ht]
  generalize hu : State.setTilePwr _ t _ = u
  have hk := State.stopTile_keepsBut u t
  have hboot : u.boot = { s.boot with
      railsOff := if s.boot.railsOff.contains t then s.boot.railsOff else t :: s.boot.railsOff } := by rw [← hu]; rfl
  rw [State.keepsBut_boot hk, State.keepsBut_flt hk, State.stopTile_reg (Reg.quiet_of_lt (by decide) (by omega)), hboot]
  refine ⟨rfl, ?_, ?_, State.mem_stopTile_inReset u t, by rw [← hu]; rfl, ?_⟩
  · by_cases h : t ∈ s.boot.railsOff <;> simp [h]
  · rw [State.tilePwr, State.keepsBut_pwr hk, ← State.tilePwr, ← hu, State.tilePwr_setTilePwr]
  · rw [← hu]
    exact State.reg_bump s .pwrRailFault r 1

/-- A data-plane reset clears the counters. -/
theorem State.withoutData_reg_counter (s : State) {r : Reg} (h : r.isCounter = true) {i : Nat} (hi : i < 8192) :
    s.withoutData.reg r i = r.resetWord i := by
  have hreg : s.withoutData.reg r i = (NMap.get? s.keptRegs (r.key i)).getD (r.resetWord i) := rfl
  have hkey : r.key i / 8192 = r.ctorIdx := by unfold Reg.key; omega
  rw [hreg]
  cases hg : NMap.get? s.keptRegs (r.key i) with
  | none => rfl
  | some v =>
    obtain ⟨kv, hmem, heq⟩ := List.mem_map.1 (NMap.mem_of_get? hg)
    have hk : kv.1 = r.key i := by split at heq <;> exact congrArg Prod.fst heq
    have hcleared : (Reg.all.any fun q => q.isCounter && q.ctorIdx == kv.1 / 8192) = true :=
      List.any_eq_true.2 ⟨r, Reg.mem_all r, by simp [h, hk, hkey]⟩
    simp [hcleared] at hmem

@[simp] theorem State.startDown_regs (s : State) : s.startDown.regs = s.regs := State.keepsBut_regs s.startDown_keepsBut

theorem State.fail_reg {r : Reg} {i : Nat} (h : r.quiet i) (s : State) (reason : Nat) :
    (s.fail reason).reg r i = s.reg r i := by
  have hentered : ((s.enter Phase.failed reason).setBoot fun b => { b with hostPowered := false }).reg r i = s.reg r i :=
    State.event_reg (s := s.setBoot fun b => { b with phase := Phase.failed, failReason := reason }) h _ _ _ _ _ _
  simp only [State.fail]
  split
  · rw [State.reg_congr (State.startDown_regs _), hentered]
  · exact hentered

/-- A sequencing failure leads to FAILED with POWER_GOOD low, whether the rails are going down already or not. -/
theorem State.fail_sequencing_phase (s : State) :
    (s.fail 2).boot.phase = Phase.failed ∧ (s.fail 2).boot.failReason = 2 ∧ (s.fail 2).boot.powerGood = false := by
  simp only [State.fail, if_true]
  rw [State.startDown_boot_rest] <;> simp

/-- Any other rail takes every rail down (R351). -/
theorem State.railFault_module {s : State} {r : Nat} (hr : r < 43) (hp : Phase.memory ≤ s.boot.phase)
    (hf : s.boot.phase ≠ Phase.failed) (ht : engineRail r = none) :
    (s.railFault r).boot.phase = Phase.failed ∧ (s.railFault r).boot.failReason = 2 ∧
    (s.railFault r).boot.powerGood = false ∧ (s.railFault r).flt.todo = [({ cls := 21, detail := r }, false)] ∧
    (s.railFault r).reg .pwrRailFault r = 1 := by
  rw [State.railFault_other hp hf ht]
  obtain ⟨hphase, hreason, hgood⟩ :=
    State.fail_sequencing_phase ((s.withoutData.bump .pwrRailFault r).report { cls := 21, detail := r })
  refine ⟨hphase, hreason, hgood, by simp [State.withoutData], ?_⟩
  rw [State.fail_reg (Reg.quiet_of_lt (by decide) (by omega))]
  refine (State.reg_bump s.withoutData .pwrRailFault r 1).trans ?_
  rw [State.countedUp, State.withoutData_reg_counter s (by decide) (by omega)]
  exact (by decide : min (0 + 1) (2 ^ Reg.counterWidth .pwrRailFault - 1) = 1)

/-- Settles O14. -/
theorem inputAndRailFaults : Obligations.InputAndRailFaults := by
  unfold Obligations.InputAndRailFaults
  refine fun s => ⟨fun v w hp hf => ⟨⟨_, rfl, ?_⟩, ⟨_, rfl, ?_⟩⟩, fun v w h => ⟨fun hv => ?_, fun hv hr => ?_, ?_⟩,
    fun r hr hp hf => ⟨_, leads_of_unit rfl (decide_eq_true hr), ?_⟩⟩
  · have hb := State.polarity_boot (s := s) (by rw [Phase.powering] at hp; rw [Phase.reset]; omega) (decide (v < 0))
    have hlost := State.inputLost_standby (s := s.polarity (decide (v < 0))) (by rw [hb]; exact hp) (by rw [hb]; exact hf)
      (v % 65536).toNat 0
    rw [hb, State.polarity_topo] at hlost
    obtain ⟨hphase, hvin, hgood, hepoch, hcarving, hplan, hsafe, hreversed⟩ := hlost
    exact ⟨hphase, hvin, hgood, hepoch, hcarving, hplan, hsafe, hreversed⟩
  · obtain ⟨hphase, hvin, hgood, hepoch, hcarving, hplan, hsafe, _⟩ := State.inputLost_standby hp hf w 1
    exact ⟨hphase, hvin, hgood, hepoch, hcarving, hplan, hsafe⟩
  · have hstep : (s.polarity (decide (v < 0))).inputLost (v % 65536).toNat 0 =
        { s with boot := { s.boot with reversed := true, vin := false } } := by
      rw [decide_eq_true hv, State.polarity_reversed]
      exact State.inputLost_idle (s := { s with boot := { s.boot with reversed := true } }) h _ _
    exact congrArg (fun u => Host.Outcome.next (State.settle u)) hstep
  · have hstep : (s.polarity (decide (v < 0))).inputLost (v % 65536).toNat 0 =
        { s with boot := { s.boot with vin := false } } := by
      rw [decide_eq_false (by omega), show s.polarity false = s by simp [State.polarity, hr], State.inputLost_idle h]
    exact congrArg (fun u => Host.Outcome.next (State.settle u)) hstep
  · exact congrArg (fun u => Host.Outcome.next (State.settle u)) (State.inputLost_idle h w 1)
  · cases ht : engineRail r with
    | none => exact State.railFault_module hr hp hf ht
    | some t => exact State.railFault_tile hr hp hf ht

end Sys2Proof.Machine
end

section

-- One declaration after another: elaborated side by side, they take more threads than the check allows.
set_option Elab.async false

/-! The phases on the way up from BOOT to UNCARVED, and the failures (R327–R350). -/

namespace Sys2Proof.Machine

open Sys2Proof (Instr)

/-- A row that acts where `p` holds leads, there, to the state it gives. -/
theorem leads_of_if {c : Instr} {s u : State} {p : Prop} [Decidable p]
    (he : exec c s = .next (if p then u.settle else s)) (h : p) : Leads s c u := by rw [Leads, he, if_pos h]

/-! ## From STANDBY to MEMORY -/

theorem State.qualify_powering {s : State} (hp : s.boot.phase = Phase.standby) (hv : s.boot.vin = true)
    (hr : s.boot.refclk = true) (hc : s.boot.coolOk = true) (hd : s.boot.downStep = none) :
    s.qualify.boot.refclk = true ∧ s.qualify.boot.phase = Phase.powering := by
  rw [State.qualify_standby hp hv hr hd, if_pos hc]
  simp [hr]

theorem State.railStepGood_next {s : State} (hp : s.boot.phase = Phase.powering) {k : Nat} (hk : k = s.boot.upStep + 1) :
    s.railStepGood k = if k = 11 then
      ((s.setBoot fun b => { b with upStep := k }).setBoot fun b =>
        { b with powerGood := true, hostPowered := true }).enter Phase.memory
      else s.setBoot fun b => { b with upStep := k } := by
  rw [State.railStepGood, if_neg (by simp [hp, hk])]

/-! ## Boot -/

theorem State.setSlot_rollback (s : State) (j : Nat) (f : SlotSt → SlotSt) :
    (s.setSlot j f).mgt.floor = s.mgt.floor ∧ (s.setSlot j f).mgt.revoked = s.mgt.revoked := by
  simp only [State.setSlot, State.setMgt]
  split <;> exact ⟨rfl, rfl⟩

theorem State.slotStatus_setSlot (s : State) (j : Nat) {f : SlotSt → SlotSt} (h : ∀ x, (f x).bytes = x.bytes)
    (k reported : Nat) : (s.setSlot j f).slotStatus k reported = s.slotStatus k reported := by
  obtain ⟨hfloor, hrevoked⟩ := s.setSlot_rollback j f
  have hcheck : ∀ b, (s.setSlot j f).imageCheck b = s.imageCheck b := fun b => by
    simp only [State.imageCheck, State.imageSigned, hfloor, hrevoked]
    rfl
  have hbytes : ((s.setSlot j f).slot k).bytes = (s.slot k).bytes := by
    simp only [State.setSlot, State.slot, State.setMgt]
    split <;> split <;> simp [h]
  simp only [State.slotStatus, hbytes, hcheck]

/-- The boot ROM takes the first slot, in its order, that passes its checks. -/
theorem State.bootTry_slot (s : State) (reported : Nat) (ks : List Nat) :
    (s.bootTry reported ks).1 = ks.find? fun k => s.slotStatus k reported == Status.ok := by
  induction ks generalizing s with
  | nil => rfl
  | cons k ks ih =>
    by_cases hk : s.slotStatus k reported = Status.ok
    · simp [State.bootTry, hk]
    · simp only [State.bootTry, hk, if_false, List.find?_cons, beq_eq_false_iff_ne.2 hk]
      rw [ih]
      refine congrArg (fun p => List.find? p ks) (funext fun j => ?_)
      split
      · rw [State.slotStatus_setSlot _ _ (by simp), State.slotStatus_setSlot _ _ (by simp)]
      · rfl

theorem State.bootTry_keepsBut (s : State) (reported : Nat) (ks : List Nat) :
    s.keepsBut [.mgt] (s.bootTry reported ks).2.2 := by
  induction ks generalizing s with
  | nil => exact State.keepsBut_refl _ s
  | cons k ks ih =>
    simp only [State.bootTry]
    split
    · exact State.keepsBut_then (State.setMgt_keepsBut _ _)
        (State.keepsBut_then (s.setSlot_keepsBut k _) (State.keepsBut_refl _ s) rfl) rfl
    · refine State.keepsBut_trans ?_ (ih _)
      split
      · exact State.keepsBut_then (State.setSlot_keepsBut _ _ _)
          (State.keepsBut_then (s.setSlot_keepsBut k _) (State.keepsBut_refl _ s) rfl) rfl
      · exact State.keepsBut_refl _ s

/-- What qualifying the input can lead to: the phase stays, or is POWERING, or is FAILED. -/
theorem State.qualify_boot (s : State) : s.qualify.boot.slot = s.boot.slot ∧ s.qualify.boot.epoch = s.boot.epoch ∧
    (s.qualify.boot.phase = s.boot.phase ∨ s.qualify.boot.phase = Phase.powering ∨
      s.qualify.boot.phase = Phase.failed) := by
  by_cases hc : s.boot.phase = Phase.standby ∧ s.boot.vin = true ∧ s.boot.refclk = true ∧ s.boot.downStep = none
  · obtain ⟨hp, hv, hr, hd⟩ := hc
    rw [State.qualify_standby hp hv hr hd]
    split
    · simp
    · rw [State.sequencingFault_boot none (by simp) (by simpa using hd)]
      simp [BootSt.sequencingFailed]
  · have hsame : s.qualify = s := if_pos (by by_contra hn; exact hc (by simpa [not_or] using hn))
    simp [hsame]

theorem State.standby_boot (s : State) : s.standby.boot.slot = s.boot.slot ∧
    s.standby.boot.epoch = s.boot.epoch + 1 ∧ s.standby.boot.phase ≠ Phase.boot := by
  obtain ⟨hslot, hepoch, hphase⟩ := s.standing.qualify_boot
  rw [State.standing_boot] at hslot hepoch hphase
  refine ⟨hslot, hepoch, fun h => ?_⟩
  rw [State.standby_eq] at h
  simp [h] at hphase

/-- The boot ROM's checks end in STANDBY or beyond with the slot that passed, or in FAILED. -/
theorem State.bootChecked_boot {s : State} (hp : s.boot.phase = Phase.boot) (ht : s.mgt.trial = none) (reported : Nat) :
    match s.bootOrder.find? fun k => s.slotStatus k reported == Status.ok with
    | some k => (s.bootChecked reported).boot.phase ≠ Phase.boot ∧ (s.bootChecked reported).boot.slot = k ∧
        (s.bootChecked reported).boot.epoch = s.boot.epoch + 1
    | none => (s.bootChecked reported).boot.phase = Phase.failed ∧ (s.bootChecked reported).boot.failReason = 1 := by
  have htrial : s.endTrialAtBoot = s := by simp [State.endTrialAtBoot, ht]
  have hboot : (s.bootTry reported s.bootOrder).2.2.boot = s.boot := State.keepsBut_boot (s.bootTry_keepsBut reported _)
  rw [← State.bootTry_slot]
  simp only [State.bootChecked, hp, htrial, ne_eq, not_true, if_false]
  cases hr : (s.bootTry reported s.bootOrder).1 with
  | none => simp
  | some k =>
    dsimp only
    have hevents : ∀ (l : List (Nat × Nat)) (u : State), (l.foldl (fun (s : State) x =>
        s.event 2 0x0C 0x0013 (leBytes 1 x.1 ++ zeros 1 ++ leBytes 2 x.2)) u).boot = u.boot := fun l u =>
      foldl_leaves (p := State.boot) (fun u x => u.event_boot _ _ _ _ _ _) l u
    obtain ⟨hslot, hepoch, hphase⟩ :=
      ((s.bootTry reported s.bootOrder).2.2.setBoot fun b => { b with slot := k }).standby_boot
    rw [State.event_boot, hevents]
    exact ⟨hphase, hslot, by rw [hepoch]; simp [hboot]⟩

/-! ## MEMORY -/

/-- MEMORY, once the channels are known: those to restore in service, those that failed retired. -/
def State.channelsKnown (s : State) (bad : List Nat) : State :=
  let s := bad.foldl State.trainingFailed s.restoreChannels
  let s := s.mgt.channels.foldl (fun (s : State) c => s.setChannel c fun x => { x with retired := true }) s
  s.setBoot fun b => { b with channelsFailed := if b.kept.isSome then b.channelsFailed else bad.length }

/-- Memory empty, the safe state over, and the phase `next` entered. -/
def State.memoryEmptied (s : State) (failedEngines : List Nat) (next : Nat) : State :=
  let s := failedEngines.foldl (fun (s : State) n => s.engineTestFailed (engineKey n)) s.reapply
  let s := { s.reseed with mem := [], undef := [] }
  let s := { s with flt := { s.flt with safe := none, safeLevel := 0 } }
  (s.setBoot fun b => { b with kept := none }).enter next

/-- What the phase entered brings with it: targets, substitutes, and the end of a trial. -/
def State.memoryUsed (s : State) (next : Nat) : State :=
  let s := if next = Phase.uncarved then s.retargetAll else s.retargetAll.assignSubstitutes
  if next = Phase.uncarved then s.trialEnd else s

/-- The channels that newly failed training. -/
def State.newlyFailed (s : State) (cs : List Nat) : List Nat :=
  if s.restoreChannels.boot.kept.isSome then [] else (cs.filter fun c => !s.restoreChannels.mgt.channels.contains c).dedup

theorem State.memoryDone_eq {s : State} (hp : s.boot.phase = Phase.memory) (cs : List Nat) (sram : Bool) (es : List Nat) :
    s.memoryDone cs sram es =
      let bad := s.newlyFailed cs
      let t := s.channelsKnown bad
      if bits (t.reg .mgtBringupCfg) 4 0 < bad.length then t.fail 3
      else if sram then t.fail 4 else (t.memoryEmptied es s.keptPhase).memoryUsed s.keptPhase := by
  rw [State.memoryDone, if_neg (by simp [hp])]
  rfl

theorem State.channelsKnown_keepsBut (s : State) (bad : List Nat) :
    s.keepsBut [.fresh, .regs, .boot, .flt, .mgt, .out] (s.channelsKnown bad) := by
  refine State.keepsBut_then (State.setBoot_keepsBut _ _) ?_ rfl
  refine State.keepsBut_foldl (fun u c => State.keepsBut_mono (u.setChannel_keepsBut c _) (by decide)) ?_
  refine State.keepsBut_foldl (fun u c => State.keepsBut_mono (u.trainingFailed_keepsBut c) (by decide)) ?_
  exact State.keepsBut_mono s.restoreChannels_keepsBut (by decide)

theorem State.trainingFailed_reg {r : Reg} {i : Nat} (h : r.quiet i) (s : State) (c : Nat) :
    (s.trainingFailed c).reg r i = s.reg r i := State.event_reg h _ _ _ _ _ _

theorem State.channelsKnown_reg {r : Reg} {i : Nat} (h : r.quiet i) (s : State) (bad : List Nat) :
    (s.channelsKnown bad).reg r i = s.reg r i := by
  have hretired := foldl_leaves (p := fun (u : State) => u.reg r i) (fun u c => State.trainingFailed_reg h u c) bad
    s.restoreChannels
  have hregs : s.restoreChannels.regs = s.regs := State.keepsBut_regs s.restoreChannels_keepsBut
  refine Eq.trans ?_ (hretired.trans (State.reg_congr hregs r i))
  exact foldl_leaves (p := fun (u : State) => u.reg r i)
    (f := fun (u : State) c => u.setChannel c fun x => { x with retired := true }) (fun u c => rfl) _ _

theorem State.newlyFailed_length (s : State) (cs : List Nat) : (s.newlyFailed cs).length ≤ cs.length := by
  unfold State.newlyFailed
  split
  · exact Nat.zero_le _
  · exact (List.dedup_sublist _).length_le.trans (List.length_filter_le _ _)

theorem State.newlyFailed_of_kept {s : State} (h : s.boot.kept ≠ none) (cs : List Nat) : s.newlyFailed cs = [] := by
  rw [State.newlyFailed, State.keepsBut_boot s.restoreChannels_keepsBut, if_pos (Option.isSome_iff_ne_none.2 h)]

theorem State.memoryEmptied_parts (s : State) (es : List Nat) (next : Nat) :
    (s.memoryEmptied es next).memory = ([], []) ∧ (s.memoryEmptied es next).boot.phase = next ∧
    (s.memoryEmptied es next).boot.kept = none ∧ (s.memoryEmptied es next).flt.safe = none := by
  refine ⟨State.keepsBut_memory (State.enter_keepsBut _ _ _), ?_, ?_, ?_⟩ <;> simp [State.memoryEmptied]

theorem State.assignSubstitutes_safe (s : State) : s.assignSubstitutes.flt.safe = s.flt.safe := by
  unfold State.assignSubstitutes
  split
  · rfl
  · refine foldl_leaves (p := fun (u : State) => u.flt.safe) (fun u x => ?_) _ _
    split <;> rfl

theorem State.memoryUsed_parts (s : State) (next : Nat) :
    (s.memoryUsed next).memory = s.memory ∧ (s.memoryUsed next).boot = s.boot ∧
    (s.memoryUsed next).flt.safe = s.flt.safe := by
  have hk := s.retargetAll_keepsBut
  by_cases h : next = Phase.uncarved
  · have hu : s.keepsBut [.pwr, .mgt] (s.memoryUsed next) := by
      simp only [State.memoryUsed, h, if_true]
      exact State.keepsBut_then (State.trialEnd_keepsBut _) (State.keepsBut_mono hk (by decide)) rfl
    exact ⟨State.keepsBut_memory hu, State.keepsBut_boot hu, by rw [State.keepsBut_flt hu]⟩
  · have he : s.memoryUsed next = s.retargetAll.assignSubstitutes := by simp [State.memoryUsed, h]
    have hu : s.keepsBut [.pwr, .flt] s.retargetAll.assignSubstitutes :=
      State.keepsBut_then (State.assignSubstitutes_keepsBut _) (State.keepsBut_mono hk (by decide)) rfl
    rw [he, State.assignSubstitutes_safe, State.keepsBut_flt hk]
    exact ⟨State.keepsBut_memory hu, State.keepsBut_boot hu, rfl⟩

/-- With few enough channels failed and the SRAM good, memory is empty and the kept phase is entered. -/
theorem State.memoryDone_entered {s : State} (hp : s.boot.phase = Phase.memory) {cs : List Nat} (es : List Nat)
    (h : (s.newlyFailed cs).length ≤ bits (s.reg .mgtBringupCfg) 4 0) :
    (s.memoryDone cs false es).memory = ([], []) ∧ (s.memoryDone cs false es).boot.phase = s.keptPhase ∧
    (s.memoryDone cs false es).boot.kept = none ∧ (s.memoryDone cs false es).flt.safe = none := by
  have hquiet : Reg.quiet .mgtBringupCfg 0 := Reg.quiet_of_lt (by decide) (by decide)
  rw [State.memoryDone_eq hp]
  dsimp only
  rw [if_neg (by rw [State.channelsKnown_reg hquiet]; omega), if_neg (by simp)]
  obtain ⟨hmem, hboot, hsafe⟩ := State.memoryUsed_parts
    ((s.channelsKnown (s.newlyFailed cs)).memoryEmptied es s.keptPhase) s.keptPhase
  rw [hmem, hboot, hsafe]
  exact State.memoryEmptied_parts _ _ _

theorem State.keptPhase_eq (s : State) : s.keptPhase =
    if s.boot.carving = none then Phase.uncarved else if s.topo.plan = none then Phase.carved else Phase.planned := by
  simp [State.keptPhase]

/-- A failed SRAM ends in FAILED (R330). -/
theorem State.memoryDone_sram {s : State} (hp : s.boot.phase = Phase.memory) (es : List Nat) :
    (s.memoryDone [] true es).boot.phase = Phase.failed ∧ (s.memoryDone [] true es).boot.failReason = 4 := by
  have hnone : s.newlyFailed [] = [] := List.length_eq_zero_iff.1 (Nat.le_zero.1 (s.newlyFailed_length []))
  rw [State.memoryDone_eq hp, hnone]
  simp [State.fail]

/-- Settles O13. -/
theorem phasesOnTheWayUp : Obligations.PhasesOnTheWayUp := by
  unfold Obligations.PhasesOnTheWayUp
  refine ⟨fun s => ⟨fun hp hv hc hd => ⟨_, rfl, State.qualify_powering hp hv rfl hc hd⟩, fun k hp hk hlt => ?_,
    fun hp hu => ?_, fun hp => ?_, fun hp => ?_, fun slot hp ht => ?_⟩,
    fun s cs es hp hcs hes => ⟨fun hk hle => ?_, fun hk => ?_, s.keptPhase_eq, fun hnil => ?_⟩⟩
  · have hstep : s.railStepGood k = s.setBoot fun b => { b with upStep := k } := by
      rw [State.railStepGood_next hp hk, if_neg (by omega)]
    have hunit : (decide (1 ≤ k) && decide (k ≤ 11)) = true := by simp; omega
    exact leads_of_unit (congrArg (fun u => onUnit _ (State.settle u)) hstep) hunit
  · refine ⟨_, leads_of_unit rfl (by decide : (decide (1 ≤ 11) && decide (11 ≤ 11)) = true), ?_⟩
    rw [State.railStepGood_next hp (by omega), if_pos rfl]
    simp
  · exact ⟨_, leads_of_if rfl hp, s.fail_sequencing_phase⟩
  · exact congrArg Host.Outcome.next (if_pos hp)
  · have hboot := State.bootChecked_boot hp ht slot
    cases hf : s.bootOrder.find? fun k => s.slotStatus k slot == Status.ok <;> rw [hf] at hboot
    · exact ⟨_, rfl, hboot⟩
    · exact ⟨_, rfl, hboot⟩
  all_goals
    have hunit : ((cs.all fun c => decide (c < 128)) && es.all engineIn) = true := by simpa using ⟨hcs, hes⟩
  · obtain ⟨hmem, hphase, _, hsafe⟩ := State.memoryDone_entered hp es ((s.newlyFailed_length cs).trans hle)
    exact ⟨_, leads_of_unit rfl hunit, hmem, hphase, hsafe⟩
  · obtain ⟨hmem, hphase, hkept, hsafe⟩ :=
      State.memoryDone_entered hp es (cs := cs) (by rw [State.newlyFailed_of_kept hk]; exact Nat.zero_le _)
    exact ⟨_, leads_of_unit rfl hunit, hmem, hphase, hkept, hsafe⟩
  · subst hnil
    exact ⟨_, leads_of_unit rfl hunit, State.memoryDone_sram hp es⟩

end Sys2Proof.Machine
end

section

-- One declaration after another: elaborated side by side, they take more threads than the check allows.
set_option Elab.async false

/-! Heat: samples, thermal points, trips and the coolant hold (R363–R366). -/

namespace Sys2Proof.Machine

/-! ## What a module reset leaves -/

/-- With a rail up a module reset leads to RESET; always POWER_GOOD is low, the safe state is over, memory is empty. -/
theorem State.moduleReset_left (s : State) (tripped : Bool) :
    (0 < s.boot.upStep → (s.moduleReset tripped).boot.phase = Phase.reset) ∧
    (s.moduleReset tripped).boot.powerGood = false ∧ (s.moduleReset tripped).flt.tripped = tripped ∧
    (s.moduleReset tripped).isSafe = false ∧ (s.moduleReset tripped).memory = ([], []) := by
  have hboot := s.moduleLost_boot tripped
  have hflt : (s.moduleReset tripped).flt = { State.reset.flt with tripped := tripped } := State.startDown_flt _
  refine ⟨fun hu => ?_, ?_, by rw [hflt], by rw [State.isSafe, hflt]; rfl, (s.moduleReset_memory_storage tripped).1⟩
  · have hup : (s.moduleLost tripped).boot.upStep ≠ 0 := by rw [hboot]; exact hu.ne'
    rw [State.moduleReset_eq, State.startDown]
    split
    · exact congrArg BootSt.phase hboot
    · split
      next h => exact absurd h hup
      · exact congrArg BootSt.phase hboot
  · simp only [State.moduleReset_eq, State.startDown]
    split
    · rfl
    · split
      · simp only [State.downDone]
        split <;> rfl
      · rfl

/-! ## Samples -/

/-- A reading of a junction sensor kept, with the count of trips in a row. -/
def State.readingKept (s : State) (x : Nat × Int) : State :=
  s.setPwr fun p => { p with
    junction := p.junction.set x.1 x.2
    trips := p.trips.set x.1 (if decide ((1760 : Int) ≤ x.2) then NMap.getD p.trips x.1 0 + 1 else 0) }

/-- A tile's pair judged hot or cool by its sensors. -/
def State.pairJudged (s : State) (t : Nat) : State :=
  let hot := (pairSensors t).any fun i => decide (95 * 16 ≤ s.junction i)
  let cool := (pairSensors t).all fun i => decide (s.junction i < 92 * 16)
  s.setTilePwr t fun p => { p with
    hot := hot, cool := cool, hotAge := if hot && p.hot then p.hotAge else 0,
    coolAge := if cool && p.cool then p.coolAge else 0, ncuHalf := if hot then true else if cool then false else p.ncuHalf }

/-- The hub judged by its four sensors. -/
def State.hubJudged (s : State) : State :=
  let hubHot := (rangeFrom 64 4).any fun i => decide (95 * 16 ≤ s.junction i)
  let hubCool := (rangeFrom 64 4).all fun i => decide (s.junction i < 92 * 16)
  s.setPwr fun p => { p with hubHot := if hubHot then true else if hubCool then false else p.hubHot }

/-- A sample of junction sensors alone reports no package. -/
theorem State.thermalSample_eq (s : State) {xs : List (Nat × Int)} (h : ∀ x ∈ xs, x.1 < 68) :
    s.thermalSample xs = ((List.range 8).foldl State.pairJudged (xs.foldl State.readingKept s)).hubJudged := by
  have hall : xs.filter (fun x => decide (x.1 < 68)) = xs := List.filter_eq_self.2 fun x hx => decide_eq_true (h x hx)
  have hnone : xs.filter (fun x => decide (68 ≤ x.1) && decide (x.1 < 84) && decide ((105 : Int) < x.2)) = [] :=
    List.filter_eq_nil_iff.2 fun x hx => by have := h x hx; simp; omega
  simp only [State.thermalSample, hall, hnone]
  rfl

theorem State.readingKept_junction (s : State) (x : Nat × Int) (i : Nat) :
    (s.readingKept x).junction i = if i = x.1 then x.2 else s.junction i := by
  by_cases h : i = x.1
  · simp [h, State.junction, State.readingKept, State.setPwr]
  · simp [h, State.junction, State.readingKept, State.setPwr, NMap.getD_set_ne _ _ _ h]

theorem State.readingsKept_other (s : State) {xs : List (Nat × Int)} {i : Nat} (h : i ∉ xs.map Prod.fst) :
    (xs.foldl State.readingKept s).junction i = s.junction i := by
  induction xs generalizing s with
  | nil => rfl
  | cons x xs ih =>
    obtain ⟨hne, hnot⟩ := not_or.1 (List.mem_cons.not.1 h)
    rw [List.foldl_cons, ih _ hnot, State.readingKept_junction, if_neg hne]

theorem State.readingsKept_mem (s : State) {xs : List (Nat × Int)} (h : (xs.map Prod.fst).Nodup) {x : Nat × Int}
    (hx : x ∈ xs) : (xs.foldl State.readingKept s).junction x.1 = x.2 := by
  induction xs generalizing s with
  | nil => cases hx
  | cons y xs ih =>
    obtain ⟨hy, hnodup⟩ := List.nodup_cons.1 h
    rw [List.foldl_cons]
    obtain rfl | hx := List.mem_cons.1 hx
    · rw [State.readingsKept_other _ hy, State.readingKept_junction, if_pos rfl]
    · exact ih _ hnodup hx

@[simp] theorem State.pairJudged_junction (s : State) (t i : Nat) : (s.pairJudged t).junction i = s.junction i := rfl

@[simp] theorem State.hubJudged_junction (s : State) (i : Nat) : s.hubJudged.junction i = s.junction i := rfl

@[simp] theorem State.hubJudged_tilePwr (s : State) (t : Nat) : s.hubJudged.tilePwr t = s.tilePwr t := rfl

theorem State.pairsJudged_junction (s : State) (l : List Nat) (i : Nat) :
    (l.foldl State.pairJudged s).junction i = s.junction i :=
  foldl_leaves (p := fun (u : State) => u.junction i) (fun u t => u.pairJudged_junction t i) l s

theorem State.pairsJudged_other (s : State) {l : List Nat} {t : Nat} (h : t ∉ l) :
    (l.foldl State.pairJudged s).tilePwr t = s.tilePwr t := by
  induction l generalizing s with
  | nil => rfl
  | cons k l ih =>
    obtain ⟨hne, hnot⟩ := not_or.1 (List.mem_cons.not.1 h)
    rw [List.foldl_cons, ih _ hnot]
    exact s.tilePwr_setTilePwr_ne _ hne

theorem State.pairsJudged_hot (s : State) {l : List Nat} (hl : l.Nodup) {t : Nat} (h : t ∈ l) :
    ((l.foldl State.pairJudged s).tilePwr t).hot = (pairSensors t).any fun i => decide (95 * 16 ≤ s.junction i) := by
  induction l generalizing s with
  | nil => cases h
  | cons k l ih =>
    obtain ⟨hk, hnodup⟩ := List.nodup_cons.1 hl
    rw [List.foldl_cons]
    obtain rfl | h := List.mem_cons.1 h
    · rw [State.pairsJudged_other _ hk, State.pairJudged, State.tilePwr_setTilePwr]
    · exact ih _ hnodup h

theorem State.junctionSample_keepsBut (s : State) {xs : List (Nat × Int)} (h : ∀ x ∈ xs, x.1 < 68) :
    s.keepsBut [.pwr] (s.thermalSample xs) := by
  rw [s.thermalSample_eq h]
  refine State.keepsBut_trans ?_ (State.setPwr_keepsBut _ _)
  refine State.keepsBut_trans ?_ (State.foldl_keepsBut (fun u t => u.setTilePwr_keepsBut t _) _ _)
  exact State.foldl_keepsBut (fun u x => u.setPwr_keepsBut _) xs s

/-! ## Thermal points -/

/-- A thermal point that a step has changed to `x`, the change logged and the target following. -/
def State.thermalMoved (s : State) (t x : Nat) : State :=
  (((s.setTilePwr t fun p => { p with thermal := x, hotAge := 0, coolAge := 0 }).bump .pwrThermalSteps t).event 2 0x0A 0x0015
    (leBytes 1 t ++ leBytes 1 x ++ leBytes 2 (s.hottest t) ++ leBytes 2 (word16 (s.junction (s.hottest t))))).retarget t

theorem State.thermalMoved_tilePwr (s : State) (t x : Nat) :
    ((s.thermalMoved t x).tilePwr t).thermal = x ∧ ((s.thermalMoved t x).tilePwr t).hotAge = 0 ∧
    ((s.thermalMoved t x).tilePwr t).coolAge = 0 := by
  rw [State.thermalMoved, State.retarget_tilePwr]
  simp

@[simp] theorem State.thermalMoved_flt (s : State) (t x : Nat) : (s.thermalMoved t x).flt = s.flt := by
  rw [State.thermalMoved, State.keepsBut_flt (State.retarget_keepsBut _ t), State.event_flt]
  rfl

theorem State.tilePwr_report (s : State) (r : Sys2Proof.FaultRep) (t : Nat) : (s.report r).tilePwr t = s.tilePwr t := by
  simp [State.tilePwr]

theorem State.thermalStep_slower {s : State} {t : Nat} (hh : (s.tilePwr t).hot = true) (ha : 256 ≤ (s.tilePwr t).hotAge)
    (ht : (s.tilePwr t).thermal < 7) : s.thermalStep t =
      (s.thermalMoved t ((s.tilePwr t).thermal + 1)).report { cls := 22, detail := s.hottest t } := by
  simp only [State.thermalStep, hh, ha, ht, decide_true, Bool.and_self, Bool.not_true, Bool.false_and, Bool.false_eq_true,
    if_false, if_true]
  rfl

theorem State.thermalStep_faster {s : State} {t : Nat} (hh : (s.tilePwr t).hot = false)
    (hc : (s.tilePwr t).cool = true) (ha : 1024 ≤ (s.tilePwr t).coolAge) (ht : 0 < (s.tilePwr t).thermal) :
    s.thermalStep t = s.thermalMoved t ((s.tilePwr t).thermal - 1) := by
  simp only [State.thermalStep, hh, hc, ha, ht, decide_true, Bool.and_self, Bool.not_true, Bool.false_and,
    Bool.not_false, Bool.and_false, Bool.false_eq_true, if_false]
  rfl

/-! ## Trips -/

theorem State.thermalTrip_eq {s : State} {i : Nat} (h : 2 ≤ s.pwr.trips.getD i 0) :
    s.thermalTrip i =
      let u := s.react { cls := 22, detail := i } false
      { u with mgt := { u.mgt with auxTrip := some (i, word16 (s.junction i)) } }.moduleReset true := by
  rw [State.thermalTrip, if_neg (by omega)]

/-- Settles O16. -/
theorem heatIsHeld : Obligations.HeatIsHeld := by
  unfold Obligations.HeatIsHeld
  refine fun s => ⟨fun xs hxs hnodup => ?_, fun t ht hh ha hlt => ?_, fun t ht hh hc ha hlt => ?_, fun i hi htrips => ?_,
    fun inlet flow hp hf hc hout => ?_, fun inlet flow hc hin hflow => ?_⟩
  · have hunit : (xs.all fun x => decide (x.1 < 84)) = true :=
      List.all_eq_true.2 fun x hx => by have := hxs x hx; simp; omega
    have hj : ∀ i, (s.thermalSample xs).junction i = (xs.foldl State.readingKept s).junction i := fun i => by
      rw [s.thermalSample_eq hxs, State.hubJudged_junction, State.pairsJudged_junction]
    refine ⟨_, leads_of_unit rfl hunit, fun x hx => ?_, fun i hi => ?_, fun t ht => ?_, s.junctionSample_keepsBut hxs⟩
    · rw [hj, State.readingsKept_mem s hnodup hx]
    · rw [hj, State.readingsKept_other s hi]
    · simp only [hj]
      rw [s.thermalSample_eq hxs, State.hubJudged_tilePwr]
      exact State.pairsJudged_hot _ List.nodup_range (List.mem_range.2 ht)
  · refine ⟨_, leads_of_unit rfl (decide_eq_true ht), ?_⟩
    obtain ⟨hthermal, hage, _⟩ := s.thermalMoved_tilePwr t ((s.tilePwr t).thermal + 1)
    rw [State.thermalStep_slower hh ha hlt, State.tilePwr_report]
    exact ⟨hthermal, hage, by simp⟩
  · refine ⟨_, leads_of_unit rfl (decide_eq_true ht), ?_⟩
    obtain ⟨hthermal, _, hage⟩ := s.thermalMoved_tilePwr t ((s.tilePwr t).thermal - 1)
    rw [State.thermalStep_faster hh hc ha hlt]
    exact ⟨hthermal, hage, by simp⟩
  · refine ⟨_, leads_of_unit rfl (decide_eq_true hi), ?_⟩
    rw [State.thermalTrip_eq htrips]
    have hboot : (s.react { cls := 22, detail := i } false).boot = s.boot := State.keepsBut_boot (State.react_keepsBut _ _ _)
    dsimp only
    generalize s.react { cls := 22, detail := i } false = u at hboot ⊢
    obtain ⟨hphase, hgood, htripped, _, hmem⟩ := State.moduleReset_left
      { u with mgt := { u.mgt with auxTrip := some (i, word16 (s.junction i)) } } true
    exact ⟨fun hu => hphase (by rw [← hboot] at hu; exact hu), hgood, htripped, hmem⟩
  · refine ⟨_, rfl, ?_⟩
    rw [State.coolantHold, if_neg (by rintro (h | h | h | h); exacts [Nat.not_lt.2 hp h, hf h, by simp [hc] at h, h hout])]
    simp
  · refine ⟨_, rfl, ?_⟩
    rw [State.coolantRelease, if_neg (by simpa [hc, hflow] using hin)]
    simp

end Sys2Proof.Machine
end

section

-- One declaration after another: elaborated side by side, they take more threads than the check allows.
set_option Elab.async false

/-! What a fault report latches and calls for, and the resets that end the safe state (R370–R374). -/

namespace Sys2Proof.Machine

open Sys2Proof (FaultRep)

/-! ## Reactions -/

theorem State.capture_flt (s : State) (r : FaultRep) (injected safe : Bool) :
    (s.capture r injected safe).flt = { s.flt with
      status := s.flt.status ||| 2 ^ r.cls, tile := (s.capture r injected safe).flt.tile
      captures := (s.capture r injected safe).flt.captures
      top := some (s.flt.top.elim (captureOf r injected safe s.stamp) Capture.again) } := rfl

/-- Logging a fault changes nothing of the fault state but the times of its events. -/
theorem State.logFault_flt (s : State) (r : FaultRep) (injected : Bool) (level : Nat) :
    (s.logFault r injected level).flt = { s.flt with logged := (s.logFault r injected level).flt.logged } := by
  unfold State.logFault
  dsimp only
  generalize (s.ticking && _) = soon
  split
  · rfl
  · split
    · rfl
    · rw [State.event_flt]
      rfl

/-- Entering the safe state changes nothing of the fault state but the safe state and its level. -/
theorem State.enterSafe_flt (s : State) (cls level : Nat) :
    (s.enterSafe cls level).flt = { s.flt with safe := some cls, safeLevel := level } := by
  have hfailed : ∀ (l : List (Nat × BlockSt)) (u : State),
      (l.foldl (fun (s : State) kv => s.failBlock kv.1 Status.aborted) u).flt = u.flt := fun l u =>
    foldl_leaves (p := State.flt) (fun u kv => State.keepsBut_flt (u.failBlock_keepsBut kv.1 Status.aborted)) l u
  simp only [State.enterSafe, State.bump_flt, State.setFlt_flt, hfailed]

theorem State.react_safe {s : State} (h : s.isSafe = true) (r : FaultRep) (injected : Bool) :
    s.react r injected = s.capture r injected false := by simp [State.react, h]

/-- What a module outside the safe state captures of a report and logs of it. -/
def State.latched (s : State) (r : FaultRep) (injected : Bool) : State :=
  let t := s.capture r injected (3 ≤ s.repLevel r)
  if 1 ≤ s.repLevel r then t.logFault r injected (s.repLevel r) else t

theorem State.react_unsafe {s : State} (h : s.isSafe = false) (r : FaultRep) (injected : Bool) :
    s.react r injected =
      if 3 ≤ s.repLevel r then (s.latched r injected).enterSafe r.cls (s.repLevel r) else s.latched r injected := by
  simp only [State.react, h, Bool.false_eq_true, if_false]
  rfl

theorem State.latched_flt (s : State) (r : FaultRep) (injected : Bool) :
    (s.latched r injected).flt = { s.flt with
      status := s.flt.status ||| 2 ^ r.cls, tile := (s.latched r injected).flt.tile
      captures := (s.latched r injected).flt.captures, logged := (s.latched r injected).flt.logged
      top := some (s.flt.top.elim (captureOf r injected (3 ≤ s.repLevel r) s.stamp) Capture.again) } := by
  unfold State.latched
  dsimp only
  split
  · rw [State.logFault_flt, State.capture_flt]
  · rfl

/-- Whatever its level, a report is latched and captured. -/
theorem State.react_latched (s : State) (r : FaultRep) (injected : Bool) :
    (s.react r injected).flt.status = s.flt.status ||| 2 ^ r.cls ∧
    ∃ safe, (s.react r injected).flt.top = some (s.flt.top.elim (captureOf r injected safe s.stamp) Capture.again) := by
  cases h : s.isSafe with
  | true => rw [State.react_safe h]; exact ⟨rfl, false, rfl⟩
  | false =>
    rw [State.react_unsafe h]
    split
    · rw [State.enterSafe_flt, State.latched_flt]
      exact ⟨rfl, _, rfl⟩
    · rw [State.latched_flt]
      exact ⟨rfl, _, rfl⟩

/-! ## Resets -/

/-- What a data-plane reset leaves (Table 14.5). -/
theorem State.dataPlaneReset_left (s : State) :
    s.dataPlaneReset.boot.phase = Phase.memory ∧ s.dataPlaneReset.boot.kept = some s.keptPhase ∧
    s.dataPlaneReset.boot.epoch = s.boot.epoch + 1 ∧ s.dataPlaneReset.memory = ([], []) ∧
    s.dataPlaneReset.host.jobs = [] ∧ s.dataPlaneReset.tick = State.reset.tick ∧ s.dataPlaneReset.pool.setts = [] := by
  have hk := (s.withoutData.restartPlan.setBoot fun b =>
    { b with kept := some s.keptPhase, epoch := b.epoch + 1 }).enter_keepsBut Phase.memory 0
  have hboot : s.dataPlaneReset.boot = { s.boot with
      phase := Phase.memory, failReason := 0, kept := some s.keptPhase, epoch := s.boot.epoch + 1 } := State.enter_boot _ _ _
  rw [hboot, State.dataPlaneReset, State.keepsBut_memory hk, State.keepsBut_host hk, State.keepsBut_tick hk,
    State.keepsBut_pool hk]
  exact ⟨rfl, rfl, rfl, rfl, rfl, rfl, rfl⟩

/-- Settles O17. -/
theorem faultReactionAndResets : Obligations.FaultReactionAndResets := by
  unfold Obligations.FaultReactionAndResets
  refine ⟨fun s r injected hcls => ?_, fun s hsafe hhead => ⟨fun hlevel hkept => ?_, fun hlevel => ?_⟩⟩
  · obtain ⟨hstatus, safe, htop⟩ := s.react_latched r injected
    refine ⟨?_, fun c hc => ?_, by rw [htop]; rfl, fun x hx => by rw [htop, hx]; rfl, fun hs hl => ?_, fun hs hl => ?_,
      fun hs => ?_⟩
    · rw [hstatus, bit, Nat.testBit_or, Nat.testBit_two_pow_self, Bool.or_true]
    · rw [hstatus, bit, Nat.testBit_or, show s.flt.status.testBit c = true from hc, Bool.true_or]
    · rw [State.react_unsafe hs, if_pos hl, State.enterSafe_flt]
      exact ⟨rfl, rfl⟩
    · rw [State.react_unsafe hs, if_neg (by omega), State.isSafe, State.latched_flt]
      exact hs
    · rw [State.react_safe hs]
      exact ⟨rfl, State.keepsBut_mono (s.capture_keepsBut r injected false) (by decide)⟩
  · have hwhen : (s.isSafe && s.flt.safeLevel == 4 && !s.flt.headless && s.boot.kept.isNone) = true := by
      simp [hsafe, hlevel, hhead, hkept]
    exact ⟨_, leads_of_if rfl hwhen, s.dataPlaneReset_left⟩
  · have hwhen : (s.isSafe && s.flt.safeLevel == 5 && !s.flt.headless) = true := by simp [hsafe, hlevel, hhead]
    obtain ⟨hphase, hgood, _, hsafe, hmem⟩ := s.moduleReset_left false
    exact ⟨_, congrArg Host.Outcome.next (if_pos hwhen), hphase, hgood, hsafe, hmem⟩

end Sys2Proof.Machine
end

section

-- One declaration after another: elaborated side by side, they take more threads than the check allows.
set_option Elab.async false

/-! Where the rows of fault collection lead, channels and sensors (R370–R391). -/

namespace Sys2Proof.Machine

open Sys2Proof (Instr FaultRep)

/-! ## What sending leaves of the fault state -/

/-- Of the fault state only reports have come, queued behind those that stood there. -/
def State.reportsOnly (s t : State) : Prop := ∃ l, t.flt = { s.flt with todo := s.flt.todo ++ l }

theorem State.reports_refl (s : State) : s.reportsOnly s := ⟨[], by simp⟩

theorem State.reports_then {z s t : State} (h' : s.reportsOnly t) (h : z.reportsOnly s) : z.reportsOnly t := by
  obtain ⟨l, hl⟩ := h
  obtain ⟨l', hl'⟩ := h'
  exact ⟨l ++ l', by rw [hl', hl, List.append_assoc]⟩

theorem State.reports_keep {z s t : State} {ch : List Part} (h' : s.keepsBut ch t) (h : z.reportsOnly s)
    (hc : ch.contains .flt = false) : z.reportsOnly t := by
  obtain ⟨l, hl⟩ := h
  exact ⟨l, by rw [State.keepsBut_flt h' (by simpa using hc), hl]⟩

theorem State.reports_foldl {α : Type} {z s : State} {f : State → α → State} {l : List α}
    (h : ∀ (s : State) x, s.reportsOnly (f s x)) (hs : z.reportsOnly s) : z.reportsOnly (l.foldl f s) := by
  induction l generalizing s with
  | nil => exact hs
  | cons a l ih => exact ih (State.reports_then (h s a) hs)

theorem State.reports_snd {α : Type} {z s : State} {a : α} {p : α × State} (hp : p = (a, s))
    (h : z.reportsOnly p.2) : z.reportsOnly s := by rw [hp] at h; exact h

theorem State.report_reports (s : State) (r : Sys2Proof.FaultRep) (injected : Bool) : s.reportsOnly (s.report r injected) :=
  ⟨_, rfl⟩

theorem State.reports_with_flow {z s : State} (x) (h : z.reportsOnly s) : z.reportsOnly { s with flow := x } := h

theorem State.poolRefused_reports (s : State) (m : Nat) (op : Nat) (k : Nat) (r : Nat) (status : Nat) (addr : Nat) :
    s.reportsOnly (s.poolRefused m op k r status addr) := by
  unfold State.poolRefused
  dsimp only
  repeat' first
    | with_reducible exact State.reports_refl _
    | with_reducible apply State.reports_keep (State.event_keepsBut _ _ _ _ _ _ _)
    | with_reducible apply State.reports_then (State.report_reports _ _ _)
    | rfl
    | split

theorem State.poolFail_reports (s : State) (m : Nat) (op : Nat) (k : Nat) (r : Nat) (status : Nat) (addr : Nat) :
    s.reportsOnly (s.poolFail m op k r status addr) := by
  unfold State.poolFail
  dsimp only
  repeat' first
    | with_reducible exact State.reports_refl _
    | with_reducible apply State.reports_keep (State.bump_keepsBut _ _ _ _)
    | with_reducible apply State.reports_then (State.poolRefused_reports _ _ _ _ _ _ _)
    | rfl
    | split

theorem State.takeCells_reports (s : State) (tile : Nat) (cls : Nat) (n : Nat) (count : Nat) :
    s.reportsOnly (s.takeCells tile cls n count).2 := by
  unfold State.takeCells
  dsimp only
  repeat' first
    | with_reducible exact State.reports_refl _
    | with_reducible apply State.reports_then (State.poolFail_reports _ _ _ _ _ _ _)
    | with_reducible apply State.reports_keep (State.charge_keepsBut _ _ _ _ _)
    | with_reducible apply State.reports_keep (State.giveCells_keepsBut _ _ _)
    | rfl
    | split

theorem State.admitOwn_reports (s : State) (f : Frame) (copies : List Copy) (tile : Nat) :
    s.reportsOnly (s.admitOwn f copies tile) := by
  unfold State.admitOwn
  repeat' first
    | with_reducible exact State.reports_refl _
    | with_reducible apply State.reports_then (State.takeCells_reports _ _ _ _ _)
    | with_reducible apply State.reports_keep (State.storeFrame_keepsBut _ _ _ _ _ _ _ _)
    | refine State.reports_snd (by assumption) ?_
    | rfl
    | split

theorem State.inject_reports (s : State) (f : Frame) (at_ : Option Nat) : s.reportsOnly (s.inject f at_).2 := by
  unfold State.inject
  dsimp only
  repeat' first
    | with_reducible exact State.reports_refl _
    | with_reducible apply State.reports_keep (State.count_keepsBut _ _)
    | with_reducible apply State.reports_then (State.admitOwn_reports _ _ _ _)
    | with_reducible apply State.reports_keep (State.bump_keepsBut _ _ _ _)
    | rfl
    | split

theorem State.sendAck_reports (s : State) (h : Hdr) (ep : Nat) (a : AckInfo) : s.reportsOnly (s.sendAck h ep a) := by
  unfold State.sendAck
  dsimp only
  repeat' first
    | with_reducible exact State.reports_refl _
    | with_reducible apply State.reports_keep (State.bump_keepsBut _ _ _ _)
    | with_reducible apply State.reports_then (State.inject_reports _ _ _)
    | rfl
    | split

theorem State.transitAck_reports (s : State) (h : Hdr) (scope : Nat) (status : Nat) :
    s.reportsOnly (s.transitAck h scope status) := by
  unfold State.transitAck
  repeat' first
    | with_reducible exact State.reports_refl _
    | with_reducible apply State.reports_then (State.sendAck_reports _ _ _ _)

theorem State.ratedRefusal_reports (s : State) (h : Hdr) (status : Nat) :
    s.reportsOnly (s.ratedRefusal h status) := by
  unfold State.ratedRefusal
  dsimp only
  repeat' first
    | with_reducible exact State.reports_refl _
    | with_reducible apply State.reports_then (State.transitAck_reports _ _ _ _)
    | rfl
    | split
    | with_reducible apply State.reports_with_flow

theorem State.originate_reports (s : State) (f : Frame) (at_ : Option Nat) : s.reportsOnly (s.originate f at_) := by
  unfold State.originate
  dsimp only
  repeat' first
    | with_reducible exact State.reports_refl _
    | with_reducible apply State.reports_then (State.inject_reports _ _ _)
    | with_reducible apply State.reports_then (State.ratedRefusal_reports _ _ _)
    | rfl
    | split

theorem State.send_reports (s : State) (f : Frame) (o : Owner) : s.reportsOnly (s.send f o) := by
  unfold State.send
  dsimp only
  repeat' first
    | with_reducible exact State.reports_refl _
    | with_reducible apply State.reports_keep (State.setTx_keepsBut _ _)
    | with_reducible apply State.reports_keep (State.bump_keepsBut _ _ _ _)
    | with_reducible apply State.reports_keep (State.note_keepsBut _ _ _)
    | with_reducible apply State.reports_then (State.originate_reports _ _ _)
    | (with_reducible apply State.reports_foldl) <;> try intro _ _
    | rfl
    | split

theorem State.sendReply_reports (s : State) (g : StashGet) (status : Nat) (bytes : Nat) :
    s.reportsOnly (s.sendReply g status bytes) := by
  unfold State.sendReply
  dsimp only
  repeat' first
    | with_reducible exact State.reports_refl _
    | with_reducible apply State.reports_keep (State.stamped_keepsBut _)
    | with_reducible apply State.reports_keep (State.setStash_keepsBut _ _)
    | with_reducible apply State.reports_then (State.send_reports _ _ _)
    | rfl

theorem State.endGet_reports (s : State) (g : StashGet) (status : Nat) (reply : Bool) :
    s.reportsOnly (s.endGet g status reply) := by
  unfold State.endGet
  dsimp only
  repeat' first
    | with_reducible exact State.reports_refl _
    | with_reducible apply State.reports_keep (State.withdrawGet_keepsBut _ _)
    | with_reducible apply State.reports_keep (State.bump_keepsBut _ _ _ _)
    | with_reducible apply State.reports_then (State.sendReply_reports _ _ _ _)
    | with_reducible apply State.reports_keep (State.getOver_keepsBut _ _ _)
    | rfl
    | split

theorem State.stashDamage_reports (s : State) (addr : Nat) : s.reportsOnly (s.stashDamage addr) := by
  unfold State.stashDamage
  dsimp only
  repeat' first
    | with_reducible exact State.reports_refl _
    | with_reducible apply State.reports_keep (State.setEnt_keepsBut _ _)
    | with_reducible apply State.reports_keep (State.bump_keepsBut _ _ _ _)
    | with_reducible apply State.reports_then (State.endGet_reports _ _ _ _)
    | with_reducible apply State.reports_keep (State.workEnded_keepsBut _ _ _ _)
    | with_reducible apply State.reports_keep (State.stashSweep_keepsBut _ _)
    | (with_reducible apply State.reports_foldl) <;> try intro _ _
    | rfl
    | split

theorem State.granuleLost_reports (s : State) (c : Nat) (a : Nat) : s.reportsOnly (s.granuleLost c a) := by
  unfold State.granuleLost
  dsimp only
  repeat' first
    | with_reducible exact State.reports_refl _
    | with_reducible apply State.reports_keep (State.undefine_keepsBut _ _ _)
    | with_reducible apply State.reports_then (State.stashDamage_reports _ _)
    | with_reducible apply State.reports_then (State.report_reports _ _ _)
    | rfl
    | split

/-! ## Reports -/

theorem State.faultRaised_reacts {s : State} {r : FaultRep} (hp : Phase.standby ≤ s.boot.phase)
    (hi : s.injectionFor r.cls r.master = none) : s.faultRaised r = (s.containment r).react r false := by
  rw [State.faultRaised, if_neg (Nat.not_lt.2 hp), hi]

/-- The shadow's answer to a test injection is recorded, and nothing else happens. -/
theorem State.faultRaised_shadow {s : State} {r : FaultRep} {x : Injection} (hp : Phase.standby ≤ s.boot.phase)
    (hx : s.flt.injection = some x) (hc : x.cls = r.cls) (hm : x.master = r.master) (hl : x.live = false) :
    s.faultRaised r = s.injected x 0 := by
  have hi : s.injectionFor r.cls r.master = some x := by simp [State.injectionFor, hx, hc, hm]
  rw [State.faultRaised, if_neg (Nat.not_lt.2 hp), hi]
  simp [hl]

theorem State.slotSpoiled_other {s : State} {r : FaultRep} (h : r.cls ≠ 25) : s.slotSpoiled r = s := if_neg fun hr => h hr.1

/-- A command of the spoiled slot that has not been checked yet is marked. -/
def Ctx.spoiledAt (m i : Nat) (x : Ctx) : Ctx :=
  if x.hdr.path == Path.mailbox m && x.hdr.number % 256 == i && x.state == CtxState.waiting then
    { x with bad := Status.badSlot } else x

/-- The address of a slot of a mailbox names that slot (Table 13.2). -/
theorem ringBase_slot {m i : Nat} (hm : m < 64) (hi : i < 256) :
    ringBase 0 ≤ ringBase m + 64 * i ∧ ringBase m + 64 * i < ringBase 64 ∧
    (ringBase m + 64 * i - ringBase 0) / 0x4000 = m ∧ (ringBase m + 64 * i - ringBase 0) % 0x4000 / 64 = i := by
  unfold ringBase; omega

theorem State.slotSpoiled_ring {s : State} {r : FaultRep} {m i : Nat} (hc : r.cls = 25) (hm : m < 64) (hi : i < 256)
    (ha : r.addr = ringBase m + 64 * i) :
    s.slotSpoiled r = (s.setHost fun h => { h with ctxs := h.ctxs.map (Ctx.spoiledAt m i) }).setMbox m fun b =>
      { b with slots := b.slots.set i (List.replicate 64 0xFF) } := by
  obtain ⟨hlow, hhigh, hmbox, hslot⟩ := ringBase_slot hm hi
  rw [State.slotSpoiled, if_pos ⟨hc, by rw [ha]; exact hlow, by rw [ha]; exact hhigh⟩, ha]
  simp only [hmbox, hslot]
  rfl

theorem Ctx.spoiledAt_bad {m i : Nat} {x y : Ctx} (hx : x = y.spoiledAt m i) (hp : x.hdr.path = .mailbox m)
    (hn : x.hdr.number % 256 = i) (hw : x.state = .waiting) : x.bad = Status.badSlot := by
  subst hx
  unfold Ctx.spoiledAt at hp hn hw ⊢
  split
  · rfl
  next h =>
    rw [if_neg h] at hp hn hw
    simp [hp, hn, hw] at h

/-! ## Injections -/

theorem State.injectionRound_runs {s : State} (hs : s.isSafe = false) (hp : Phase.memory ≤ s.boot.phase)
    (hf : s.boot.phase ≠ Phase.failed) : s.injectionRound = s.bump .fltInjectRounds := by
  rw [State.injectionRound, if_neg]
  simp only [hs, Bool.or_eq_true, decide_eq_true_eq, beq_iff_eq, Bool.false_eq_true, false_or, not_or]
  exact ⟨Nat.not_lt.2 hp, hf⟩

theorem State.injectionMissed_alone {s : State} (h : s.flt.injection = none) (m : Nat) :
    s.injectionMissed m = ((s.bump .fltInjectFail).containUnit m).react { cls := 27, master := m, access := 10 } false := by
  simp [State.injectionMissed, h]

theorem State.injectTimeout_due {s : State} {x : Injection} (h : s.flt.injection = some x) (ha : 64 ≤ x.age) :
    s.injectTimeout = s.injected x 3 := by
  simp [State.injectTimeout, h, ha]

/-! ## Headless mode -/

/-- A reaction leaves headless mode as it is. -/
theorem State.react_headless (s : State) (r : FaultRep) (injected : Bool) :
    (s.react r injected).flt.headless = s.flt.headless := by
  cases h : s.isSafe with
  | true => rw [State.react_safe h]; rfl
  | false =>
    rw [State.react_unsafe h]
    split
    · rw [State.enterSafe_flt, State.latched_flt]
    · rw [State.latched_flt]

theorem State.headless_flt (s : State) : s.headless.flt.headless = true := by
  unfold State.headless
  split
  · assumption
  · rfl

/-- The watchdog makes a managed module headless (R389). -/
theorem State.watchdog_headless {s : State} (hm : s.managed = true) (hi : s.injectionFor 24 (masterId 9 15 0) = none) :
    (s.faultRaised { cls := 24, master := masterId 9 15 0 }).flt.headless = true ∧
    bit (s.faultRaised { cls := 24, master := masterId 9 15 0 }).flt.status 24 = true := by
  have hp : Phase.standby ≤ s.boot.phase := by
    simp only [State.managed, Bool.and_eq_true, decide_eq_true_eq] at hm
    exact hm.1.1
  rw [State.faultRaised_reacts hp hi]
  refine ⟨by rw [State.react_headless]; exact s.headless_flt, ?_⟩
  rw [(State.react_latched _ _ _).1, bit, Nat.testBit_or, Nat.testBit_two_pow_self, Bool.or_true]

theorem State.headlessOver_enters {s : State} (hh : s.flt.headless = true) (hs : s.isSafe = false) :
    s.headlessOver = s.enterSafe 24 3 := by
  simp [State.headlessOver, hh, hs]

/-! ## Channels -/

@[simp] theorem State.channel_setChannel (s : State) (c : Nat) (f : ChannelSt → ChannelSt) :
    (s.setChannel c f).channel c = f (s.channel c) := by
  simp [State.channel, State.setChannel]

theorem State.channel_setChannel_ne (s : State) {c d : Nat} (f : ChannelSt → ChannelSt) (h : d ≠ c) :
    (s.setChannel c f).channel d = s.channel d := by
  simp [State.channel, State.setChannel, NMap.getD_upd_ne _ _ _ _ h]

theorem State.marchDone_marching {s : State} {c : Nat} (h : (s.channel c).marching = true) (failed : Bool) :
    s.marchDone c failed =
      s.setChannel c fun x => { x with marching := false, testDone := true, testFail := failed } := if_pos h

theorem State.reports_channel {s t : State} (h : s.reportsOnly t) (c : Nat) : t.channel c = s.channel c := by
  obtain ⟨l, hl⟩ := h
  rw [State.channel, hl]
  rfl

/-- A migration ends whatever granules are lost with it (R384). -/
theorem State.migrationDone_channel {s : State} {c : Nat} (hm : (s.channel c).migrating = true)
    (hh : s.flt.headless = false) (lost : List Nat) :
    (s.migrationDone c lost).channel c = { s.channel c with migrating := false, unmoved := 0 } := by
  rw [State.migrationDone, if_neg (by simp [hm, hh])]
  have hlost : ∀ (l : List Nat) (u : State), (l.foldl (fun (s : State) a => s.granuleLost c a) u).channel c = u.channel c :=
    fun l u => foldl_leaves (p := fun (u : State) => u.channel c)
      (fun u a => State.reports_channel (u.granuleLost_reports c a) c) l u
  dsimp only
  rw [hlost, State.channel, State.event_flt, ← State.channel, State.channel_setChannel]

/-! ## Sensors -/

theorem State.sensorSample_one {s : State} (hm : s.managed = true) (i v : Nat) :
    s.sensorSample [(i, some v)] = s.setMgt fun m => { m with sensors := m.sensors.set i {
      value := v % 65536
      peak := if sensorVal i (s.mgt.sensors.getD i {}).peak < sensorVal i (v % 65536) then v % 65536
        else (s.mgt.sensors.getD i {}).peak } } := by
  simp [State.sensorSample, hm, State.sensorRead]

/-- Settles O18. -/
theorem faultRowsAndChannels : Obligations.FaultRowsAndChannels := by
  unfold Obligations.FaultRowsAndChannels
  refine ⟨fun s => ⟨fun r hcls hne hp hi => ?_, fun r hcls hp hi => ?_, fun r x hcls hne hp hx hc hm hl => ?_,
    fun m hm hp hi => ?_, fun hs hp hf => ?_, fun m hm hi => ?_, fun x hx ha => ?_, fun hm hi => ?_, fun hh hs => ?_⟩,
    fun s c hc => ⟨fun failed hm => ?_, fun lost hm hh => ?_, fun i v hi hm => ?_⟩⟩
  · have hstep : (s.slotSpoiled r).faultRaised r = (s.containment r).react r false := by
      rw [State.slotSpoiled_other hne, State.faultRaised_reacts hp hi]
    exact leads_of_unit (congrArg (fun u => onUnit _ (State.settle u)) hstep) (decide_eq_true hcls)
  · have hk := s.slotSpoiled_keepsBut r
    have hstep : (s.slotSpoiled r).faultRaised r = ((s.slotSpoiled r).containment r).react r false :=
      State.faultRaised_reacts (by rw [State.keepsBut_boot hk]; exact hp)
        (by rw [State.injectionFor, State.keepsBut_flt hk]; exact hi)
    refine ⟨s.slotSpoiled r, leads_of_unit (congrArg (fun u => onUnit _ (State.settle u)) hstep)
      (decide_eq_true (by omega : r.cls < 28)), hk, fun m i hm hi ha => ?_⟩
    rw [State.slotSpoiled_ring hcls hm hi ha]
    refine ⟨by simp [State.ringSlot, Nat.mod_eq_of_lt hi], fun x hx hpath hnumber hwait => ?_⟩
    obtain ⟨y, _, hy⟩ := List.mem_map.1 hx
    exact Ctx.spoiledAt_bad hy.symm hpath hnumber hwait
  · have hstep : (s.slotSpoiled r).faultRaised r = s.injected x 0 := by
      rw [State.slotSpoiled_other hne, State.faultRaised_shadow hp hx hc hm hl]
    rw [← hc, ← hm, ← hl]
    exact leads_of_unit (congrArg (fun u => onUnit _ (State.settle u)) hstep) (decide_eq_true hcls)
  · have hstep : s.faultRaised { cls := 27, master := m } = (s.containUnit m).react { cls := 27, master := m } false :=
      State.faultRaised_reacts hp hi
    exact leads_of_unit (congrArg (fun u => onUnit _ (State.settle u)) hstep) (decide_eq_true hm)
  · refine ⟨_, rfl, ?_⟩
    rw [State.injectionRound_runs hs hp hf]
    exact ⟨State.reg_bump _ _ _ _, s.bump_keepsBut _ _ _⟩
  · exact ⟨s.bump .fltInjectFail, State.reg_bump _ _ _ _, s.bump_keepsBut _ _ _,
      leads_of_unit (congrArg (fun u => onUnit _ (State.settle u)) (State.injectionMissed_alone hi m)) (decide_eq_true hm)⟩
  · exact congrArg (fun u => Host.Outcome.next (State.settle u)) (State.injectTimeout_due hx ha)
  · exact ⟨_, leads_of_if rfl hm, State.watchdog_headless hm hi⟩
  · refine ⟨_, rfl, ?_⟩
    rw [State.headlessOver_enters hh hs, State.enterSafe_flt]
    exact ⟨rfl, rfl⟩
  · refine ⟨_, leads_of_unit rfl (decide_eq_true hc), ?_⟩
    rw [State.marchDone_marching hm]
    exact ⟨State.channel_setChannel s c _, fun d hd => State.channel_setChannel_ne s _ hd, s.setChannel_keepsBut c _⟩
  · refine ⟨_, leads_of_unit rfl (decide_eq_true hc), ?_⟩
    rw [State.migrationDone_channel hm hh]
    exact ⟨rfl, rfl⟩
  · have hunit : ([(i, some v)].all fun x => decide (x.1 < 338)) = true := by simpa using hi
    refine ⟨_, leads_of_unit rfl hunit, ?_⟩
    rw [State.sensorSample_one hm]
    exact ⟨by simp, by simp, fun j hj => by simp [NMap.getD_set_ne _ _ _ hj], s.setMgt_keepsBut _⟩

end Sys2Proof.Machine
end

section

-- One declaration after another: elaborated side by side, they take more threads than the check allows.
set_option Elab.async false

/-! Doorbells, SENDs and ring writes of a mailbox (R302–R307). -/

namespace Sys2Proof.Machine

open Sys2Proof (Instr CmdHdr HostBuf Path)

/-! ## Accesses that are not taken -/

theorem exec_doorbell {m qp key d : Nat} {reads : List HostBuf} {s : State} (hq : s.fromBound m qp = true)
    (hk : keyOk (s.mbox m).doorKey key = true) : exec (.doorbell m qp key d reads) s = .next (s.ring m d reads) := by
  have h : exec (.doorbell m qp key d reads) s = .next (s.doorbell m qp key d reads) := rfl
  rw [h, State.doorbell, hq, hk]
  rfl

theorem exec_doorbell_refused {m qp key d : Nat} {reads : List HostBuf} {s : State}
    (h : s.fromBound m qp = false ∨ keyOk (s.mbox m).doorKey key = false) :
    exec (.doorbell m qp key d reads) s = .next (s.accessBad qp) := by
  have hexec : exec (.doorbell m qp key d reads) s = .next (s.doorbell m qp key d reads) := rfl
  rw [hexec, State.doorbell, if_neg (by simpa [or_iff_not_imp_left] using h)]

/-- A value that is not accepted is ignored. -/
theorem State.ring_ignored {s : State} {m d : Nat} (ha : s.answering = true) (h : ¬(d < 2 ^ 32 ∧ s.roomFor m d = true))
    (reads : List HostBuf) : s.ring m d reads = s.doorbellBad m d := by
  rw [State.ring, if_neg (by simp [ha]), if_neg (by simpa using h)]

/-! ## Fetching -/

/-- In a device that has commands already, one more is only added to them. -/
theorem State.arrive_busy {s : State} (h : s.host.ctxs ≠ []) (c : Instr) (hd : CmdHdr) (code bad : Nat) :
    s.arrive c hd code bad = s.addCtx c hd code bad := by
  simp [State.arrive, h]

theorem State.fetchOne_busy {s : State} (h : s.host.ctxs ≠ []) (m : Nat) (reads : List HostBuf) (c : Nat) :
    (s.fetchOne m reads c).mbox m = s.mbox m ∧
    (s.fetchOne m reads c).host.ctxs.length = s.host.ctxs.length + 1 := by
  rw [State.fetchOne, State.arrive_busy h]
  simp [State.addCtx, State.mbox]

theorem State.fetchEach_busy (m : Nat) (reads : List HostBuf) (cs : List Nat) {s : State} (h : s.host.ctxs ≠ []) :
    (cs.foldl (fun (s : State) c => s.fetchOne m reads c) s).mbox m = s.mbox m ∧
    (cs.foldl (fun (s : State) c => s.fetchOne m reads c) s).host.ctxs.length = s.host.ctxs.length + cs.length := by
  induction cs generalizing s with
  | nil => exact ⟨rfl, rfl⟩
  | cons c cs ih =>
    obtain ⟨hmbox, hlength⟩ := State.fetchOne_busy h m reads c
    have hsome : (s.fetchOne m reads c).host.ctxs ≠ [] := by
      rw [← List.length_pos_iff, hlength]; omega
    obtain ⟨hmbox', hlength'⟩ := ih hsome
    rw [List.foldl_cons, hmbox', hlength', hmbox, hlength, List.length_cons]
    exact ⟨rfl, by omega⟩

/-- Where commands are open, an accepted value moves P and adds a command for each number up to it. -/
theorem State.fetch_busy {s : State} (h : s.host.ctxs ≠ []) (m d : Nat) (reads : List HostBuf) :
    ((s.fetch m d reads).mbox m).p = d ∧
    (s.fetch m d reads).host.ctxs.length = s.host.ctxs.length + (d + 2 ^ 32 - (s.mbox m).p) % 2 ^ 32 := by
  have hset : (s.setMbox m fun b => { b with p := d }).host.ctxs ≠ [] := h
  simp only [State.fetch]
  obtain ⟨hmbox, hlength⟩ := State.fetchEach_busy m reads ((List.range ((d + 2 ^ 32 - (s.mbox m).p) % 2 ^ 32)).map
    fun i => ((s.mbox m).p + 1 + i) % 2 ^ 32) hset
  rw [hmbox, hlength, State.mbox_setMbox, List.length_map, List.length_range]
  exact ⟨rfl, rfl⟩

/-! ## The ring -/

/-- Writing elements in turn over as many others leaves the ones written. -/
theorem foldl_set_zipIdx {α : Type} {bs l : List α} (pre : List α) (h : bs.length = l.length) :
    (bs.zipIdx pre.length).foldl (fun l x => l.set x.2 x.1) (pre ++ l) = pre ++ bs := by
  induction bs generalizing l pre with
  | nil => rw [List.length_eq_zero_iff.1 h.symm]; rfl
  | cons b bs ih =>
    obtain ⟨x, l, rfl⟩ := List.exists_cons_of_length_eq_add_one h.symm
    have hset : (pre ++ x :: l).set pre.length b = (pre ++ [b]) ++ l := by simp
    rw [List.zipIdx_cons, List.foldl_cons, hset, show pre.length + 1 = (pre ++ [b]).length by simp,
      ih (pre ++ [b]) (by simpa using h)]
    simp

/-- Bytes written within slot `k` of a ring change that slot alone. -/
theorem foldl_upd_slot (k off : Nat) (xs : List (Byte × Nat)) (h : ∀ x ∈ xs, (off + x.2) / 64 = k) (sl : NMap (List Byte)) :
    (xs.foldl (fun sl x => sl.upd ((off + x.2) / 64) (zeros 64) fun l => l.set ((off + x.2) % 64) x.1) sl).getD k (zeros 64) =
      xs.foldl (fun l x => l.set ((off + x.2) % 64) x.1) (sl.getD k (zeros 64)) := by
  induction xs generalizing sl with
  | nil => rfl
  | cons x xs ih =>
    obtain ⟨hx, hxs⟩ := List.forall_mem_cons.1 h
    rw [List.foldl_cons, List.foldl_cons, ih hxs, hx, NMap.getD_upd]

theorem State.writeRing_ringSlot (s : State) {m c off : Nat} {bs : List Byte}
    (h : ∀ x ∈ bs.zipIdx, (off + x.2) / 64 = c % 256) :
    (s.writeRing m off bs).ringSlot m c =
      bs.zipIdx.foldl (fun l x => l.set ((off + x.2) % 64) x.1) (s.ringSlot m c) := by
  simp only [State.ringSlot, State.writeRing, State.mbox_setMbox]
  exact foldl_upd_slot _ _ _ h _

/-- A whole slot written is what the slot then holds. -/
theorem State.writeRing_slot (s : State) {m c : Nat} {slot : List Byte} (hl : slot.length = 64)
    (hs : (s.ringSlot m c).length = 64) : (s.writeRing m (c % 256 * 64) slot).ringSlot m c = slot := by
  have hin : ∀ x ∈ slot.zipIdx, x.2 < 64 := fun x hx => by
    have := List.snd_lt_of_mem_zipIdx hx; omega
  rw [State.writeRing_ringSlot s fun x hx => by have := hin x hx; omega]
  have hmod : ∀ (l : List Byte), slot.zipIdx.foldl (fun l x => l.set ((c % 256 * 64 + x.2) % 64) x.1) l =
      slot.zipIdx.foldl (fun l x => l.set x.2 x.1) l := fun l =>
    List.foldl_ext _ _ _ fun l x hx => by rw [Nat.mul_comm, Nat.mul_add_mod, Nat.mod_eq_of_lt (hin x hx)]
  rw [hmod]
  exact foldl_set_zipIdx [] (hl.trans hs.symm)

theorem State.writeRing_keepsHost (s : State) (m off : Nat) (bs : List Byte) : s.keepsBut [.host] (s.writeRing m off bs) :=
  State.keepsBut_of_host rfl

theorem State.mailboxSend_one {s : State} {m qp : Nat} {slot : List Byte} (hl : slot.length = 64)
    (hq : s.fromBound m qp = true) (reads : List HostBuf) :
    s.mailboxSend m qp [slot] reads =
      if s.roomFor m (((s.mbox m).p + 1) % 2 ^ 32) = true then
        (s.writeRing m (((s.mbox m).p + 1) % 256 * 64) slot).ring m (((s.mbox m).p + 1) % 2 ^ 32) reads
      else s.emit (.rnrNak qp) := by
  simp only [State.mailboxSend, List.length_singleton, hq]
  cases hr : s.roomFor m (((s.mbox m).p + 1) % 2 ^ 32) <;> simp [hl]

theorem State.rdmaWrite_ring {s : State} {m qp key i : Nat} (hi : i < 0x4000) (hq : s.fromBound m qp = true)
    (hk : keyOk (s.mbox m).ringKey key = true) (b : Byte) (len : Nat) :
    s.rdmaAccess qp key (ringBase m + i) (some [b]) len = s.writeRing m i [b] := by
  have hm : m < 64 := by
    simp only [State.fromBound, Bool.and_eq_true, decide_eq_true_eq] at hq
    exact hq.1
  have hin : ringBase 0 ≤ ringBase m + i ∧ ringBase m + i + 1 ≤ ringBase 64 ∧ 0 < 1 := by unfold ringBase; omega
  have hmbox : (ringBase m + i - ringBase 0) / 0x4000 = m := by unfold ringBase; omega
  have hoff : (ringBase m + i - ringBase 0) % 0x4000 = i := by unfold ringBase; omega
  have hfits : ¬0x4000 < i + 1 := by omega
  simp only [State.rdmaAccess, Option.map_some, Option.getD_some, List.length_singleton, hin, hmbox, hoff, hq, hk, hfits]
  rfl

/-- Settles O19. -/
theorem mailboxDoorbells : Obligations.MailboxDoorbells := by
  unfold Obligations.MailboxDoorbells
  refine fun s m qp key d reads ha => ⟨fun hq hk hd hr => ?_, fun hq hk hbad => ?_, fun h => ?_,
    fun slot hl hq hr hs => ?_, fun slot hl hq hr => ?_, fun i b hi hq hk => ?_⟩
  · exact ⟨_, exec_doorbell_accepted reads ha hq hk hd hr, rfl, fun hopen => State.fetch_busy hopen m d reads⟩
  · refine ⟨_, (exec_doorbell hq hk).trans (congrArg _ (State.ring_ignored ha hbad reads)), ?_, ?_⟩
    · rw [State.doorbellBad, State.event_host]; rfl
    · exact State.keepsBut_then (State.event_keepsBut _ _ _ _ _ _ _)
        (State.keepsBut_mono (s.bump_keepsBut _ _ _) (by decide)) rfl
  · exact ⟨_, exec_doorbell_refused h, rfl, State.reg_bump s _ _ _,
      State.keepsBut_append (s.bump_keepsBut _ _ _) (State.emit_keepsBut _ _)⟩
  · have hexec : exec (.mailboxSend m qp [slot] reads) s = .next (s.mailboxSend m qp [slot] reads) := rfl
    have hmod : ((s.mbox m).p + 1) % 2 ^ 32 % 256 = ((s.mbox m).p + 1) % 256 := Nat.mod_mod_of_dvd _ (by decide)
    refine ⟨s.writeRing m (((s.mbox m).p + 1) % 256 * 64) slot, ?_, ?_, s.writeRing_keepsHost _ _ _⟩
    · rw [hexec, State.mailboxSend_one hl hq, if_pos hr]
    · rw [← hmod]
      exact s.writeRing_slot hl hs
  · have hexec : exec (.mailboxSend m qp [slot] reads) s = .next (s.mailboxSend m qp [slot] reads) := rfl
    rw [hexec, State.mailboxSend_one hl hq, if_neg (by rw [hr]; exact Bool.false_ne_true)]
    rfl
  · have hexec : exec (.hostRdmaAccess qp key (ringBase m + i) (some [b]) 1) s =
      .next (s.rdmaAccess qp key (ringBase m + i) (some [b]) 1) := rfl
    have hslot : i / 64 % 256 = i / 64 := by omega
    refine ⟨s.writeRing m i [b], by rw [hexec, State.rdmaWrite_ring hi hq hk], ?_, s.writeRing_keepsHost _ _ _⟩
    rw [State.writeRing_ringSlot s (by simp [hslot])]
    rfl

end Sys2Proof.Machine
end

section

-- One declaration after another: elaborated side by side, they take more threads than the check allows.
set_option Elab.async false

/-! The other paths by which commands come, host ports and queue pairs, and what ends a wait (R298–R324). -/

namespace Sys2Proof.Machine

open Sys2Proof (Instr HostBuf Path HostFrame Delivery)

/-! ## Aged commands and the sideband -/

/-- A command of a mailbox that has waited 256 ticks, and is to be marked. -/
def Ctx.late (m n : Nat) (x : Ctx) : Bool :=
  x.hdr.path == Path.mailbox m && x.hdr.number == n && x.state == CtxState.waiting && decide (256 ≤ x.waited)

theorem Ctx.late_iff {m n : Nat} {x : Ctx} :
    x.late m n = true ↔ x.hdr.path = .mailbox m ∧ x.hdr.number = n ∧ x.state = .waiting ∧ 256 ≤ x.waited := by
  simp [Ctx.late, and_assoc]

theorem State.aged_eq (s : State) (m n : Nat) :
    s.aged m n = s.setHost fun h => { h with ctxs := h.ctxs.map fun x => if x.late m n then { x with aged := true } else x } :=
  rfl

theorem State.sideWrite_busy {s : State} {slot : List Byte} (hl : slot.length = 64) (hp : s.boot.phase ≠ Phase.reset)
    (h : s.host.side.busy = true ∨ s.answering = false) :
    s.sideWrite slot = s.setHost fun h => { h with side := { h.side with refused := true } } := by
  have hanswers : ¬(s.boot.phase = 0 ∨ slot.length ≠ 64) := by simpa [hl] using hp
  rw [State.sideWrite, if_neg hanswers, if_pos (by simpa using h)]

theorem State.sideWrite_free {s : State} {slot : List Byte} (hl : slot.length = 64) (hp : s.boot.phase ≠ Phase.reset)
    (ha : s.answering = true) (hb : s.host.side.busy = false) :
    s.sideWrite slot = (s.sideTake.arriveSlot slot .sideband ((s.host.side.count + 1) % 2 ^ 32)
      (getLE slot 4 4 == (s.host.side.count + 1) % 2 ^ 32)).settle := by
  have hanswers : ¬(s.boot.phase = 0 ∨ slot.length ≠ 64) := by simpa [hl] using hp
  rw [State.sideWrite, if_neg hanswers, if_neg (by simp [ha, hb])]
  rfl

/-! ## Commands in MGMT frames -/

/-- Taking a frame out of its internal queue changes the switch, its cells and their counters alone. -/
theorem State.takeInternal_duplicate (s : State) (d : Delivery) (h : Hdr) :
    (s.takeInternal d).duplicate h = s.duplicate h := by
  rw [State.duplicate, State.rxFlow, State.keepsBut_flow (s.takeInternal_keepsBut d)]
  rfl

theorem State.receive_reaches {s : State} {d : Delivery} (h : s.reaches d = true) (f : State → State) :
    s.isSafe = false ∧ s.receive d f = f (s.takeInternal d) := by
  simp only [State.reaches, Bool.and_eq_true, Bool.not_eq_true', Option.isNone_iff_eq_none] at h
  obtain ⟨⟨hsafe, hdel⟩, hrefused⟩ := h
  refine ⟨hsafe, ?_⟩
  simp only [State.receive, hdel, hrefused]
  rfl

/-- The management endpoint's judgement of a frame that it takes. -/
def State.mgmtJudged (s : State) (d : Delivery) : State :=
  let h := d.frame.hdr
  if s.duplicate h then s.ackAgain h 0xFFF3
  else if h.sys then s.commitFrame h 0xFFF3
  else
    match s.mgmtRefusal h.job with
    | some st => s.refuseFrame h 0xFFF3 st
    | none => (s.commitFrame h 0xFFF3).arriveSlot (d.frame.payload.take 64)
        (.fabric h.job h.srcNode h.srcEp h.cls h.opId) (getLE (d.frame.payload.take 64) 4 4) true

/-- A new MGMT frame that carries a command is judged by its job (R316). -/
theorem exec_mgmt_new {s : State} {d : Delivery} (ha : s.answering = true) (hn : s.newFrame d = true) :
    exec (.mgmt d) s = .next ((s.takeInternal d).mgmtJudged d).settle ∧
    (s.takeInternal d).duplicate d.frame.hdr = false := by
  simp only [State.newFrame, Bool.and_eq_true, Bool.not_eq_true'] at hn
  obtain ⟨hreaches, hnew⟩ := hn
  obtain ⟨hsafe, hreceive⟩ := State.receive_reaches hreaches fun t => t.mgmtJudged d
  have hexec : exec (.mgmt d) s = .next (if s.isSafe then s else (s.mgmtFrame d).settle) := rfl
  have hframe : s.mgmtFrame d = if !s.answering then s else s.receive d fun t => t.mgmtJudged d := rfl
  rw [hexec, if_neg (by simp [hsafe]), hframe, if_neg (by simp [ha]), hreceive, State.takeInternal_duplicate]
  exact ⟨rfl, hnew⟩

/-- Settles O20. -/
theorem otherPathsOfCommands : Obligations.OtherPathsOfCommands := by
  unfold Obligations.OtherPathsOfCommands
  refine fun s => ⟨fun m n => ⟨rfl, State.keepsBut_of_host rfl, by simp [State.aged_eq], fun i x hx => ⟨fun h => ?_, fun h => ?_⟩⟩,
    fun slot hl hp => ⟨fun h => ?_, fun ha hb => ?_⟩, fun hp => ?_, fun a st ha haux => ?_, fun d ha hn hs => ⟨fun st hst => ?_,
    fun hst => ?_⟩⟩
  · simp [State.aged_eq, hx, Ctx.late_iff.2 h]
  · have hnot : x.late m n = false := by rwa [← Bool.not_eq_true, Ctx.late_iff]
    simp [State.aged_eq, hx, hnot]
  · exact congrArg Host.Outcome.next (State.sideWrite_busy hl hp h)
  · exact congrArg Host.Outcome.next (State.sideWrite_free hl hp ha hb)
  · have hstep : s.sideStatus = (s.emit (.statusByte s.statusByte)).setHost fun h =>
      { h with side := { h.side with refused := false } } := if_neg hp
    exact congrArg Host.Outcome.next hstep
  · have hstep : s.assignAddress a = s.setHost fun h => { h with side := { h.side with address := some a } } :=
      if_pos (by simp [haux, ha])
    exact congrArg Host.Outcome.next hstep
  all_goals
    obtain ⟨hexec, hnew⟩ := exec_mgmt_new ha hn
  · simp only [hexec, State.mgmtJudged, hnew, hs, hst, Bool.false_eq_true, if_false]
  · simp only [hexec, State.mgmtJudged, hnew, hs, hst, Bool.false_eq_true, if_false]

/-! ## Queue pairs -/

theorem State.setQp_some {s : State} {q : Nat} {x : QpSt} (h : s.host.qps.get? q = some x) (f : QpSt → QpSt) :
    s.setQp q f = s.setHost fun h => { h with qps := h.qps.set q (f x) } := by simp [State.setQp, h]

/-- A queue pair that is open changes, and no other. -/
theorem State.setQp_get? {s : State} {q : Nat} {x : QpSt} (h : s.host.qps.get? q = some x) (f : QpSt → QpSt) :
    (s.setQp q f).host.qps.get? q = some (f x) ∧ (∀ p, p ≠ q → (s.setQp q f).host.qps.get? p = s.host.qps.get? p) ∧
    s.keepsBut [.host] (s.setQp q f) := by
  rw [State.setQp_some h]
  exact ⟨by simp, fun p hp => by simp [NMap.get?_set_ne _ _ hp], State.keepsBut_of_host rfl⟩

theorem State.ackTimeout_some {s : State} {q : Nat} {x : QpSt} (h : s.host.qps.get? q = some x) :
    s.ackTimeout q = if x.error || decide (7 ≤ x.retries) then s
      else (s.setQp q fun x => { x with retries := x.retries + 1 }).emit (.qpRetry q) := by simp [State.ackTimeout, h]

theorem exec_hostFrame {p : Nat} (hp : p < 4) (f : HostFrame) (s : State) :
    exec (.hostFrameReceived p f) s = .next (s.hostFrame p f) := onUnit_true (decide_eq_true hp) _

/-- A marked packet of an open queue pair is answered, where a notification is due (R300). -/
theorem State.hostFrame_marked {s : State} {q : Nat} {x : QpSt} (hu : (s.host.ports.getD x.port {}).up = true)
    (hq : s.host.qps.get? q = some x) (he : x.error = false) (hd : s.cnpDue x = true) :
    s.hostFrame x.port (.roce q true) = (s.setQp q fun x => { x with cnpAt := some s.tick.counter }).emit (.cnp q) := by
  simp [State.hostFrame, hu, hq, he, hd]

/-- Settles O21. -/
theorem hostPortsAndQueuePairs : Obligations.HostPortsAndQueuePairs := by
  unfold Obligations.HostPortsAndQueuePairs
  refine fun s q x hq => ⟨⟨_, rfl, State.setQp_get? hq _⟩, ⟨_, rfl, State.setQp_get? hq _⟩, ⟨_, rfl, State.setQp_get? hq _⟩,
    fun he hr => ?_, fun he hr => ?_, fun p hp hu hxp he hd => ?_, fun p hp hu => ⟨?_, ?_⟩, fun p up hp hup => ?_⟩
  · refine ⟨_, rfl, ?_⟩
    obtain ⟨hget, _, hkeeps⟩ := State.setQp_get? hq fun x => { x with retries := x.retries + 1 }
    rw [State.ackTimeout_some hq, if_neg (by simp [he]; omega)]
    exact ⟨hget, by rw [State.setQp_some hq]; rfl, State.keepsBut_append hkeeps (State.emit_keepsBut _ _)⟩
  · exact congrArg Host.Outcome.next ((State.ackTimeout_some hq).trans (if_pos (by simp [hr])))
  · subst hxp
    refine ⟨_, exec_hostFrame hp _ s, ?_⟩
    obtain ⟨hget, _, hkeeps⟩ := State.setQp_get? hq fun x => { x with cnpAt := some s.tick.counter }
    rw [State.hostFrame_marked hu hq he hd]
    exact ⟨by rw [State.setQp_some hq]; rfl, hget, State.keepsBut_append hkeeps (State.emit_keepsBut _ _)⟩
  · have hstep : s.hostFrame p .resolution = s.emit (.resolved p) := if_neg (by simp [hu])
    exact (exec_hostFrame hp _ s).trans (congrArg _ hstep)
  · have hstep : s.hostFrame p .other = s.bump .mgtHostDrop p := if_neg (by simp [hu])
    exact ⟨_, (exec_hostFrame hp _ s).trans (congrArg _ hstep), State.reg_bump s _ _ _, s.bump_keepsBut _ _ _⟩
  · have hexec : exec (.hostPortLinkChange p up) s = onUnit (hostPortOk p) (s.hostLink p up) := rfl
    have hstep : s.hostLink p up = s.setHost fun h => { h with ports := h.ports.upd p {} fun x => { x with up := up } } :=
      if_neg (by obtain rfl | h := hup <;> simp_all)
    refine ⟨_, hexec.trans (onUnit_true (decide_eq_true hp) _), ?_⟩
    rw [hstep]
    exact ⟨by simp, fun o ho => by simp [NMap.getD_upd_ne _ _ _ _ ho], State.keepsBut_of_host rfl⟩

/-! ## Ends of waits -/

/-- A disable found is found again when it has changed in something else than its function and scope. -/
theorem State.disableOf_setDisable {s : State} {f job : Nat} {d : DisableSt} (h : s.disableOf f job = some d)
    {g : DisableSt → DisableSt} (hg : ∀ d, (g d).func = d.func ∧ (g d).job = d.job) :
    (s.setDisable f job g).disableOf f job = some (g d) := by
  have hfound : (d.func == f && d.job == job) = true :=
    List.find?_some (p := fun d : DisableSt => d.func == f && d.job == job) h
  have hsame : (fun d : DisableSt => d.func == f && d.job == job) ∘
      (fun d : DisableSt => if d.func == f && d.job == job then g d else d) = fun d => d.func == f && d.job == job := by
    funext d
    simp only [Function.comp]
    split
    · rw [(hg d).1, (hg d).2]
    · rfl
  have hmap : (s.setDisable f job g).disableOf f job =
      (s.disableOf f job).map fun d => if d.func == f && d.job == job then g d else d := by
    simp only [State.disableOf, State.setDisable, State.setHost_host]
    rw [List.find?_map, hsame]
  rw [hmap, h, Option.map_some, if_pos hfound]

theorem State.startTile_inReset (s : State) (t : Nat) (failed : List Nat) :
    (s.startTile t failed).eng.inReset = s.eng.inReset.filter (· != t) := by
  refine foldl_leaves (p := fun (u : State) => u.eng.inReset) (fun u i => ?_) _ _
  unfold State.engineTestFailed
  split
  · rfl
  · simp only [State.report_eng, State.engineRetired_inReset, State.bump_eng]

theorem State.startDown_shutdownDue (s : State) : s.startDown.boot.shutdownDue = s.boot.shutdownDue := by
  simp only [State.startDown]
  split
  · rfl
  · split
    · simp only [State.downDone]
      split <;> rfl
    · rfl

theorem State.moduleReset_shutdownDue (s : State) (tripped : Bool) : (s.moduleReset tripped).boot.shutdownDue = false := by
  rw [State.moduleReset_eq, State.startDown_shutdownDue, State.moduleLost_boot]
  rfl

theorem State.drainTimeout_due {s : State} {f job : Nat} {d : DisableSt} (h : s.disableOf f job = some d)
    (hin : d.inEffect = true) (hdone : d.done = false) (ht : d.timedOut = false) (ha : d.drainTicks ≤ d.age) :
    s.drainTimeout f job = (s.setDisable f job fun d => { d with timedOut := true }).drain f job := by
  simp [State.drainTimeout, h, hin, hdone, ht, ha]

/-- Settles O22. -/
theorem waitsEnd : Obligations.WaitsEnd := by
  unfold Obligations.WaitsEnd
  refine fun s job => ⟨fun hdue => ?_, fun k failed hk hin hf => ?_, fun hend hfree => ?_, fun f d hd hin hdone hwork => ?_,
    fun f d hd hin hdone ht ha => ?_⟩
  · obtain ⟨hphase, hgood, _, _, hmem⟩ := s.moduleReset_left false
    exact ⟨_, congrArg Host.Outcome.next (if_pos hdue), hphase, hgood, hmem,
      s.moduleReset_shutdownDue false⟩
  · have hunit : (decide (k < 8) && failed.all fun i => decide (i < 136)) = true := by simpa [hk] using hf
    have hstep : exec (.tileResetComplete k failed) s = onUnit (decide (k < 8) && failed.all fun i => decide (i < 136))
        (s.startTile k failed).settle := congrArg (onUnit _) (if_pos (by simpa using hin))
    refine ⟨_, leads_of_unit hstep hunit, by simp [State.startTile_inReset], fun hnil => ?_⟩
    rw [hnil]
    exact s.setEng_keepsBut fun e => { e with inReset := e.inReset.filter (· != k) }
  · have hwhen : (s.host.ending.contains job && s.jobFree job) = true := by simp [hend, hfree]
    refine ⟨_, leads_of_if rfl hwhen, by simp [State.jobEnded], by simp [State.jobEnded], ?_⟩
    exact State.keepsBut_then (State.setHost_keepsBut _ _) (State.keepsBut_mono (s.dropFlows_keepsBut job) (by decide)) rfl
  · have hwhen : s.drainOver f job = true := by simp [State.drainOver, hd, hin, hdone, hwork]
    exact ⟨_, leads_of_if rfl hwhen, State.disableOf_setDisable hd fun d => ⟨rfl, rfl⟩, State.keepsBut_of_host rfl⟩
  · exact ⟨s.setDisable f job fun d => { d with timedOut := true },
      congrArg (fun u => Host.Outcome.next (State.settle u)) (State.drainTimeout_due hd hin hdone ht ha),
      State.disableOf_setDisable hd fun d => ⟨rfl, rfl⟩, State.keepsBut_of_host rfl⟩

end Sys2Proof.Machine
end

section

-- One declaration after another: elaborated side by side, they take more threads than the check allows.
set_option Elab.async false

/-! Lanes and ports: what each operation of the links leaves of lanes, ports and laser source modules. -/

namespace Sys2Proof.Machine

/-! ## One lane, port or module changed -/

@[simp] theorem State.lane_setLane (s : State) (n : Nat) (f : LaneSt → LaneSt) : (s.setLane n f).lane n = f (s.lane n) := by
  simp [State.lane, State.setLane]

theorem State.lane_setLane_ne (s : State) {n m : Nat} (f : LaneSt → LaneSt) (h : m ≠ n) :
    (s.setLane n f).lane m = s.lane m := by
  simp [State.lane, State.setLane, NMap.getD_upd_ne _ _ _ _ h]

@[simp] theorem State.port_setPort (s : State) (p : Nat) (f : PortSt → PortSt) : (s.setPort p f).port p = f (s.port p) := by
  simp [State.port, State.setPort]

theorem State.port_setPort_ne (s : State) {p q : Nat} (f : PortSt → PortSt) (h : q ≠ p) :
    (s.setPort p f).port q = s.port q := by
  simp [State.port, State.setPort, NMap.getD_upd_ne _ _ _ _ h]

@[simp] theorem State.lsm_setLsm (s : State) (j : Nat) (f : LsmSt → LsmSt) : (s.setLsm j f).lsm j = f (s.lsm j) := by
  simp [State.lsm, State.setLsm]

@[simp] theorem State.lane_setPort (s : State) (p : Nat) (f : PortSt → PortSt) (n : Nat) :
    (s.setPort p f).lane n = s.lane n := rfl

@[simp] theorem State.port_setLane (s : State) (n : Nat) (f : LaneSt → LaneSt) (p : Nat) :
    (s.setLane n f).port p = s.port p := rfl

@[simp] theorem State.port_setLsm (s : State) (j : Nat) (f : LsmSt → LsmSt) (p : Nat) :
    (s.setLsm j f).port p = s.port p := rfl

theorem State.lane_congr {s t : State} (h : t.link = s.link) (n : Nat) : t.lane n = s.lane n := by simp [State.lane, h]

theorem State.port_congr {s t : State} (h : t.link = s.link) (p : Nat) : t.port p = s.port p := by simp [State.port, h]

theorem State.lsm_congr {s t : State} (h : t.link = s.link) (j : Nat) : t.lsm j = s.lsm j := by simp [State.lsm, h]

@[simp] theorem State.lane_emit (s : State) (o : Out) (n : Nat) : (s.emit o).lane n = s.lane n := rfl

@[simp] theorem State.port_emit (s : State) (o : Out) (p : Nat) : (s.emit o).port p = s.port p := rfl

/-- The lanes and the mode of the ports are what the registers say. -/
theorem State.nominal_congr {s t : State} (h : t.reg .portMode = s.reg .portMode) : t.nominal = s.nominal := by
  simp [State.nominal, State.portMode, h]

theorem State.lanesOf_congr {s t : State} (h : t.reg .portMode = s.reg .portMode) (p : Nat) : t.lanesOf p = s.lanesOf p := by
  simp [State.lanesOf, State.nominal_congr h]

theorem State.portOf_congr {s t : State} (h : t.reg .portMode = s.reg .portMode) (n : Nat) : t.portOf n = s.portOf n := by
  simp [State.portOf, State.nominal_congr h]

/-! ## Lanes leaving and entering use -/

/-- What of a lane neither its port's state nor its being in use changes. -/
def LaneSt.body (l : LaneSt) : LaneSt := { l with caps := none, inUse := false, lockTicks := 0 }

theorem LaneSt.locked_body (l : LaneSt) : l.body.locked = l.locked := rfl

theorem State.setLane_body {f : LaneSt → LaneSt} (hf : ∀ l, (f l).body = l.body) (s : State) (n m : Nat) :
    ((s.setLane n f).lane m).body = (s.lane m).body := by
  by_cases h : m = n
  · rw [h, State.lane_setLane, hf]
  · rw [State.lane_setLane_ne s f h]

/-- Forgetting capability sets changes lanes alone, and of them nothing else. -/
theorem State.forgetCaps_leaves {γ : Type} {p : State → γ}
    (h : ∀ (s : State) n, p (s.setLane n fun l => { l with caps := none }) = p s) (s : State) (k : Nat) :
    p (s.forgetCaps k) = p s := by
  refine foldl_leaves (p := p) (fun u n => ?_) _ s
  split
  · rfl
  · exact h u n

/-- Lanes put in use change in that and in the ticks for which they have held lock. -/
theorem State.setInUse_leaves {γ : Type} {p : State → γ}
    (h : ∀ (s : State) n on, p (s.setLane n fun l => { l with inUse := on, lockTicks := 0 }) = p s) (s : State) (k bm w : Nat) :
    p (s.setInUse k bm w) = p s := by
  refine foldl_leaves (p := p) (fun u ni => ?_) _ s
  dsimp only
  split
  · rfl
  · exact h u _ _

theorem State.forgetCaps_body (s : State) (k n : Nat) : ((s.forgetCaps k).lane n).body = (s.lane n).body :=
  State.forgetCaps_leaves (p := fun u => (u.lane n).body) (fun u m =>
    State.setLane_body (f := fun l => { l with caps := none }) (fun _ => rfl) u m n) s k

theorem State.setInUse_body (s : State) (k bm w n : Nat) : ((s.setInUse k bm w).lane n).body = (s.lane n).body :=
  State.setInUse_leaves (p := fun u => (u.lane n).body) (fun u m on =>
    State.setLane_body (f := fun l => { l with inUse := on, lockTicks := 0 }) (fun _ => rfl) u m n) s k bm w

@[simp] theorem State.forgetCaps_ports (s : State) (k : Nat) : (s.forgetCaps k).link.ports = s.link.ports :=
  State.forgetCaps_leaves (p := fun u => u.link.ports) (fun _ _ => rfl) s k

@[simp] theorem State.setInUse_ports (s : State) (k bm w : Nat) : (s.setInUse k bm w).link.ports = s.link.ports :=
  State.setInUse_leaves (p := fun u => u.link.ports) (fun _ _ _ => rfl) s k bm w

@[simp] theorem State.forgetCaps_lsms (s : State) (k : Nat) : (s.forgetCaps k).link.lsms = s.link.lsms :=
  State.forgetCaps_leaves (p := fun u => u.link.lsms) (fun _ _ => rfl) s k

@[simp] theorem State.setInUse_lsms (s : State) (k bm w : Nat) : (s.setInUse k bm w).link.lsms = s.link.lsms :=
  State.setInUse_leaves (p := fun u => u.link.lsms) (fun _ _ _ => rfl) s k bm w

/-! ## A port's state -/

/-- What entering a state other than ACTIVE makes of a port. -/
def PortSt.entered (st : Nat) (P : PortSt) : PortSt :=
  { P with
    state := st, width := 0, refusal := 0, step := none, stepWanted := false, firstGrant := none, discarding := false,
    peer := if st = 4 then P.peer else none, ownAck := 0 }

/-- From a state other than ACTIVE the links alone change. -/
theorem State.portState_idle {s : State} {p : Nat} (h : (s.port p).state ≠ 5) (st : Nat) :
    s.portState p st = (s.setPort p (PortSt.entered st)).forgetCaps p := if_neg h

/-- What the links are when a port has entered a state, whatever its frames and routes become. -/
theorem State.portState_link (s : State) (p st : Nat) :
    (s.portState p st).link =
      if (s.port p).state = 5 then (((s.setPort p (PortSt.entered st)).forgetCaps p).setInUse p 0 0).link
      else ((s.setPort p (PortSt.entered st)).forgetCaps p).link := by
  by_cases h : (s.port p).state = 5
  · rw [if_pos h, State.portState]
    dsimp only
    rw [if_pos h, State.keepsBut_link (State.tickPortLost_keepsBut _ _), State.keepsBut_link (State.flushPort_keepsBut _ _ _),
      State.keepsBut_link (State.routeInactive_keepsBut _ _), State.keepsBut_link (State.scaleEvent_keepsBut _ _ _),
      State.keepsBut_link (State.dropReception_keepsBut _ _)]
    rfl
  · rw [if_neg h, State.portState_idle h]

theorem State.portState_ports (s : State) (p st : Nat) :
    (s.portState p st).link.ports = (s.setPort p (PortSt.entered st)).link.ports := by
  rw [State.portState_link]
  split <;> simp

theorem State.portState_port (s : State) (p st : Nat) : (s.portState p st).port p = (s.port p).entered st := by
  rw [State.port, State.portState_ports, ← State.port, State.port_setPort]

theorem State.portState_port_ne (s : State) {p q : Nat} (st : Nat) (h : q ≠ p) : (s.portState p st).port q = s.port q := by
  rw [State.port, State.portState_ports, ← State.port, State.port_setPort_ne s _ h]

theorem State.portState_lsm (s : State) (p st j : Nat) : (s.portState p st).lsm j = s.lsm j := by
  rw [State.lsm, State.portState_link]
  split <;> simp [State.lsm, State.setPort]

theorem State.portState_body (s : State) (p st n : Nat) : ((s.portState p st).lane n).body = (s.lane n).body := by
  rw [State.lane, State.portState_link]
  split
  · rw [← State.lane, State.setInUse_body, State.forgetCaps_body, State.lane_setPort]
  · rw [← State.lane, State.forgetCaps_body, State.lane_setPort]

theorem State.portState_idle_keepsBut {s : State} {p : Nat} (h : (s.port p).state ≠ 5) (st : Nat) :
    s.keepsBut [.link] (s.portState p st) := by
  rw [State.portState_idle h]
  exact State.keepsBut_trans (s.setPort_keepsBut p _) (State.forgetCaps_keepsBut _ p)

/-! ## Width steps -/

theorem State.startStep_body (s : State) (p n : Nat) : ((s.startStep p).lane n).body = (s.lane n).body := by
  unfold State.startStep
  dsimp only
  split
  · rfl
  · split
    · rfl
    · split
      · exact s.portState_body p 1 n
      · rfl

/-- A width step that this end starts (R71): its request names the lanes usable here. -/
theorem State.startStep_request {s : State} {p : Nat} (h5 : (s.port p).state = 5) (hn : (s.port p).step = none)
    (hw : s.widthFor (s.usableLanes p &&& ((s.port p).peer.map CapSet.usable).getD 0) ≠ 0) :
    s.startStep p =
      (s.setPort p fun P => { P with step := some {
        own := true, usable := s.usableLanes p &&& ((s.port p).peer.map CapSet.usable).getD 0
        width := s.widthFor (s.usableLanes p &&& ((s.port p).peer.map CapSet.usable).getD 0) } }).emit
        (.widthBlock p (s.lowestLane p) (widthBlock 0 (s.usableLanes p)
          (s.widthFor (s.usableLanes p &&& ((s.port p).peer.map CapSet.usable).getD 0)))) := by
  simp only [State.startStep, h5, hn, hw, bne_self_eq_false, Bool.false_eq_true, Option.isSome_none, if_false]

/-! ## Width -/

theorem State.askTest_ports (s : State) (n : Nat) : (s.askTest n).link.ports = s.link.ports := by
  unfold State.askTest
  dsimp only
  split
  · split <;> rfl
  · rfl

theorem State.setWidth_ports (s : State) (p bm w : Nat) :
    (s.setWidth p bm w).link.ports = (s.setPort p fun P => { P with width := w }).link.ports := by
  refine (foldl_leaves (p := fun (u : State) => u.link.ports) (fun u n => u.askTest_ports n) _ _).trans ?_
  rw [State.keepsBut_link (State.scaleEvent_keepsBut _ _ _), State.setPort, State.setInUse_ports]
  rfl

end Sys2Proof.Machine
end

section

-- One declaration after another: elaborated side by side, they take more threads than the check allows.
set_option Elab.async false

/-! Light and lock of lanes, and the stages of a port up to ACTIVE (R63–R72). -/

namespace Sys2Proof.Machine

open Sys2Proof (Instr CapHeard)

/-! ## Lanes -/

/-- A lane that has lost light (`los`) or lock, with the loss counted. -/
def State.lossMarked (s : State) (n : Nat) (los : Bool) : State :=
  (s.setLane n fun l => { l with los := l.los || los, lol := l.lol || !los, winFlap := l.winFlap + 1, lockTicks := 0 }).bump
    .laneLossEvents n

theorem State.lossMarked_lane (s : State) (n : Nat) (los : Bool) : (s.lossMarked n los).lane n = { s.lane n with
    los := (s.lane n).los || los, lol := (s.lane n).lol || !los, winFlap := (s.lane n).winFlap + 1, lockTicks := 0 } :=
  State.lane_setLane s n _

theorem State.lossMarked_lane_ne (s : State) {n m : Nat} (los : Bool) (h : m ≠ n) :
    (s.lossMarked n los).lane m = s.lane m := State.lane_setLane_ne s _ h

theorem State.lossMarked_port (s : State) (n : Nat) (los : Bool) (p : Nat) : (s.lossMarked n los).port p = s.port p := rfl

theorem State.lossMarked_mode (s : State) {n : Nat} (hn : n < Config.lanes) (los : Bool) :
    (s.lossMarked n los).reg .portMode = s.reg .portMode := by
  have hlt : n < 1024 := hn
  exact State.reg_bump_ne _ 1 (Reg.key_ne (by decide) (by decide) (by omega))

/-- A new loss is counted; in ACTIVE it takes the port to DETECT, or starts a width step. -/
theorem State.laneLoss_new {s : State} {n : Nat} {los : Bool} (hn : n < Config.lanes)
    (h : (if los = true then (s.lane n).los else (s.lane n).lol) = false) :
    s.laneLoss n los =
      let t := s.lossMarked n los
      if (s.port (s.portOf n)).state != 5 then t
      else if (s.lanesOf (s.portOf n)).all fun m => (t.lane m).los then t.toDetect (s.portOf n)
      else if (s.lane n).inUse then t.startStep (s.portOf n) else t := by
  have hmode := s.lossMarked_mode hn los
  rw [State.laneLoss, if_neg (by rw [h]; exact Bool.false_ne_true)]
  have hport : (s.lossMarked n los).portOf n = s.portOf n := State.portOf_congr hmode n
  have hlanes : (s.lossMarked n los).lanesOf (s.portOf n) = s.lanesOf (s.portOf n) := State.lanesOf_congr hmode _
  dsimp only
  rw [← State.lossMarked, hport, hlanes, State.lossMarked_port]

/-- Whatever follows, the lane is as the loss has marked it, but for its being in use. -/
theorem State.laneLoss_body {s : State} {n : Nat} {los : Bool} (hn : n < Config.lanes)
    (h : (if los = true then (s.lane n).los else (s.lane n).lol) = false) :
    ((s.laneLoss n los).lane n).body = ((s.lossMarked n los).lane n).body := by
  rw [State.laneLoss_new hn h]
  dsimp only
  split
  · rfl
  · split
    · exact State.portState_body _ _ _ _
    · split
      · exact State.startStep_body _ _ _
      · rfl

/-- Outside ACTIVE a new loss changes that lane and its counter alone. -/
theorem State.laneLoss_idle {s : State} {n : Nat} {los : Bool} (hn : n < Config.lanes)
    (h : (if los = true then (s.lane n).los else (s.lane n).lol) = false) (h5 : (s.port (s.portOf n)).state ≠ 5) :
    (s.laneLoss n los).reg .laneLossEvents n = s.countedUp .laneLossEvents n ∧
    s.keepsBut [.link, .regs] (s.laneLoss n los) ∧ ∀ m, m ≠ n → (s.laneLoss n los).lane m = s.lane m := by
  have hidle : s.laneLoss n los = s.lossMarked n los := (State.laneLoss_new hn h).trans (if_pos (by simpa using h5))
  rw [hidle]
  exact ⟨State.reg_bump (s.setLane n _) _ _ _, State.keepsBut_append (s.setLane_keepsBut n _) (State.bump_keepsBut _ _ _ _),
    fun m hm => s.lossMarked_lane_ne los hm⟩

/-- The last light of a port in ACTIVE takes it to DETECT. -/
theorem State.laneLoss_dark {s : State} {n : Nat} (hn : n < Config.lanes) (h : (s.lane n).los = false)
    (h5 : (s.port (s.portOf n)).state = 5) (hall : ∀ m ∈ s.lanesOf (s.portOf n), m ≠ n → (s.lane m).los = true) :
    ((s.laneLoss n true).port (s.portOf n)).state = 1 := by
  have hdark : ((s.lanesOf (s.portOf n)).all fun m => ((s.lossMarked n true).lane m).los) = true := by
    refine List.all_eq_true.2 fun m hm => ?_
    by_cases hmn : m = n
    · rw [hmn, State.lossMarked_lane]; simp
    · rw [State.lossMarked_lane_ne s true hmn]; exact hall m hm hmn
  rw [State.laneLoss_new hn (by simpa using h)]
  dsimp only
  rw [if_neg (by simp [h5]), if_pos hdark, State.toDetect, State.portState_port]
  rfl

/-- What the body of a lane tells of its light, its lock, its losses and its retirement. -/
theorem LaneSt.of_body {l m : LaneSt} (h : l.body = m.body) :
    l.los = m.los ∧ l.lol = m.lol ∧ l.winFlap = m.winFlap ∧ l.retired = m.retired :=
  ⟨congrArg (fun b => b.los) h, congrArg (fun b => b.lol) h, congrArg (fun b => b.winFlap) h,
    congrArg (fun b => b.retired) h⟩

/-! ## Stages -/

/-- An event of a port that leaves its state. -/
theorem State.portEvent_port (s : State) (p q : Nat) : (s.portEvent p).port q = s.port q :=
  State.port_congr (State.keepsBut_link (s.portEvent_keepsBut p)) q

/-- One failed attempt takes the port back to DETECT (R63). -/
theorem State.failAttempt_few {s : State} {p : Nat} (h5 : (s.port p).state ≠ 5) (ha : (s.port p).attempts < 15) :
    ((s.failAttempt p).port p).state = 1 ∧ ((s.failAttempt p).port p).attempts = (s.port p).attempts + 1 ∧
    s.keepsBut [.link] (s.failAttempt p) := by
  have hstep : s.failAttempt p = (s.portState p 1).setPort p fun P => { P with attempts := (s.port p).attempts + 1 } := by
    have hn : ¬16 ≤ (s.port p).attempts + 1 := by omega
    have hmin : min ((s.port p).attempts + 1) 31 = (s.port p).attempts + 1 := by omega
    simp only [State.failAttempt, hn, hmin, if_false]
  rw [hstep, State.port_setPort, State.portState_port]
  exact ⟨rfl, rfl, State.keepsBut_trans (State.portState_idle_keepsBut h5 1) (State.setPort_keepsBut _ p _)⟩

/-- The sixteenth failed attempt fails the port (R63). -/
theorem State.failAttempt_last {s : State} {p : Nat} (ha : 15 ≤ (s.port p).attempts) :
    ((s.failAttempt p).port p).state = 6 := by
  have hn : 16 ≤ (s.port p).attempts + 1 := by omega
  simp only [State.failAttempt, hn, if_true]
  rw [State.portEvent_port, State.port_setPort, State.portState_port]
  rfl

/-! ## Capability sets -/

theorem State.usableLanes_congr {s t : State} (hm : t.reg .portMode = s.reg .portMode)
    (hl : ∀ n, (t.lane n).body = (s.lane n).body) (p : Nat) : t.usableLanes p = s.usableLanes p := by
  have hlocked : ∀ n, (t.lane n).locked = (s.lane n).locked := fun n => by
    rw [← LaneSt.locked_body, hl, LaneSt.locked_body]
  simp only [State.usableLanes, State.lanesOf_congr hm, hlocked]

/-- What capability sets say does not depend on what has been sent. -/
theorem State.sendCaps_out (s : State) (p : Nat) : s.sendCaps p = { s with
    out := (((s.lanesOf p).filter fun n => (s.lane n).locked).map fun n => Out.capability p n (s.capBytes p n)).reverse ++
      s.out } := by
  have hloop : ∀ (l : List Nat) (os : List Out), l.foldl (fun (u : State) n =>
      if (u.lane n).locked then u.emit (.capability p n (u.capBytes p n)) else u) { s with out := os } = { s with
        out := ((l.filter fun n => (s.lane n).locked).map fun n => Out.capability p n (s.capBytes p n)).reverse ++ os } := by
    intro l
    induction l with
    | nil => exact fun os => rfl
    | cons n l ih =>
      intro os
      have hlane : ({ s with out := os } : State).lane n = s.lane n := rfl
      rw [List.foldl_cons, hlane]
      by_cases hn : (s.lane n).locked = true
      · rw [if_pos hn, List.filter_cons, if_pos hn, List.map_cons, List.reverse_cons, List.append_assoc]
        exact ih (.capability p n (s.capBytes p n) :: os)
      · rw [if_neg hn, List.filter_cons, if_neg hn]
        exact ih os
  exact hloop (s.lanesOf p) s.out

/-- Lock reached in LOCK leads to EXCHANGE, with a capability set sent on every locked lane (R65). -/
theorem State.lockReached_exchange {s : State} {p : Nat} (h3 : (s.port p).state = 3) (hu : s.usableLanes p ≠ 0) :
    s.lockReached p = (s.portState p 4).sendCaps p := by
  rw [State.lockReached, if_neg hu, State.inPort, if_pos h3]

/-- The links of a port that has become ACTIVE. -/
theorem State.portActive_port (s : State) (p bm w : Nat) : (s.portActive p bm w).port p = { s.port p with
    state := 5, attempts := 0, refusal := 0, step := none, stepWanted := false
    txGranted := List.replicate 8 0, txUsed := List.replicate 8 0
    rxGranted := initialGrant, rxUsed := List.replicate 8 0, width := w } := by
  have hlink : ∀ u : State, ((u.emit (.credit p (creditBytes initialGrant))).announceOn p |>.routeActive p).link = u.link :=
    fun u => by
      rw [State.keepsBut_link (State.routeActive_keepsBut _ p), State.keepsBut_link (State.announceOn_keepsBut _ p)]
      rfl
  rw [State.portActive, State.port_congr (hlink _), State.port, State.setWidth_ports, ← State.port, State.port_setPort,
    State.port_setPort]

/-- The third identical set whose width both ends acknowledge makes the port ACTIVE (R65, R66). -/
theorem State.exchangeCaps_agreed {s : State} {p : Nat} {c : CapSet} (h4 : (s.port p).state = 4) (hv : c.version = 1)
    (hp : c.period = s.period) (hw : c.widthAck = s.widthFor (s.usableLanes p &&& c.usable)) (h0 : c.widthAck ≠ 0) :
    ((s.exchangeCaps p c).port p).state = 5 ∧ ((s.exchangeCaps p c).port p).width = c.widthAck ∧
    ((s.exchangeCaps p c).port p).attempts = 0 ∧ ((s.exchangeCaps p c).port p).peer = some c ∧
    ((s.exchangeCaps p c).port p).rxGranted = initialGrant := by
  have hstep : s.exchangeCaps p c = ((((s.setPort p fun P => { P with peer := some c, ownAck := c.widthAck }).setPort p
      fun P => { P with refusal := 0 }).sendCaps p).portActive p (s.usableLanes p &&& c.usable) c.widthAck) := by
    have hperiod : ∀ f, (s.setPort p f).period = s.period := fun f => rfl
    have hsent : ∀ u : State, (u.sendCaps p).period = u.period := fun u => by rw [State.sendCaps_out]; rfl
    have hkind : (c.kind = 0 && c.period != s.period) = false := by simp [hp]
    have hagree : (c.widthAck != 0 && c.widthAck == c.widthAck && (c.period == s.period ||
        (c.kind == 1 && c.period == 0xFF))) = true := by simp [h0, hp]
    have hset : ∀ f g, ((s.setPort p f).setPort p g).period = s.period := fun f g => rfl
    simp only [State.exchangeCaps, ← hw, h4, bne_self_eq_false, Bool.false_eq_true, if_false, hperiod, hkind, hv, hsent,
      hset, hagree, if_true]
  have hsent : ∀ u : State, (u.sendCaps p).port p = u.port p := fun u => by rw [State.sendCaps_out]; rfl
  rw [hstep, State.portActive_port, hsent, State.port_setPort, State.port_setPort]
  exact ⟨rfl, rfl, rfl, rfl, rfl⟩

/-- The third identical set in a row is accepted, and each one after it (R65). -/
theorem State.hearCaps_third {s : State} {p n k : Nat} {c : CapSet} (h4 : (s.port p).state = 4) (hn : s.portOf n = p)
    (hc : (s.lane n).caps = some (c, k)) (hk : 2 ≤ k) :
    s.hearCaps p n true c = (s.setLane n fun l => { l with caps := some (c, 3) }).exchangeCaps p c := by
  have h3 : min (k + 1) 3 = 3 := by omega
  simp [State.hearCaps, h4, hn, hc, h3]

/-- Light that has been there for 1 ms takes a port from DETECT to TRAIN (R63). -/
theorem State.lightSeen_train {s : State} {n : Nat} (hl : (s.lane n).los = false) (hr : (s.lsm (n / 64)).refused = 0)
    (h1 : (s.port (s.portOf n)).state = 1) : s.lightSeen n = s.portState (s.portOf n) 2 := by
  simp [State.lightSeen, State.inPort, hl, hr, h1]

/-- A loss of light or lock at a lane that has it leads to the state that the loss leaves. -/
theorem losAssert_leads {s : State} {n : Nat} (hn : n < Config.lanes) : Leads s (.losAssert n) (s.laneLoss n true) :=
  leads_of_unit rfl (decide_eq_true hn)

theorem lolAssert_leads {s : State} {n : Nat} (hn : n < Config.lanes) : Leads s (.lolAssert n) (s.laneLoss n false) :=
  leads_of_unit rfl (decide_eq_true hn)

/-- Light or lock regained changes that lane alone. -/
theorem State.laneGain_keepsOthers (s : State) (n : Nat) (los : Bool) :
    (∀ m, m ≠ n → (s.laneGain n los).lane m = s.lane m) ∧ (s.laneGain n los).link.ports = s.link.ports ∧
      s.keepsBut [.link] (s.laneGain n los) :=
  ⟨fun _ hm => s.lane_setLane_ne _ hm, rfl, s.laneGain_keepsBut n los⟩

/-- A port that moves on outside ACTIVE leaves the other ports and all but the links. -/
theorem State.portState_moves {s : State} {p : Nat} (h5 : (s.port p).state ≠ 5) (st : Nat) :
    ((s.portState p st).port p).state = st ∧ (∀ q, q ≠ p → (s.portState p st).port q = s.port q) ∧
      s.keepsBut [.link] (s.portState p st) := by
  refine ⟨?_, fun q hq => s.portState_port_ne st hq, State.portState_idle_keepsBut h5 st⟩
  rw [State.portState_port]
  rfl

/-- EXCHANGE is entered with a capability set on every locked lane. -/
theorem State.lockReached_sends {s : State} {p : Nat} (h3 : (s.port p).state = 3) (hu : s.usableLanes p ≠ 0) :
    ((s.lockReached p).port p).state = 4 ∧
    (s.lockReached p).out = (((s.lanesOf p).filter fun n => (s.lane n).locked).map fun n =>
      Out.capability p n ((s.lockReached p).capBytes p n)).reverse ++ s.out ∧
    (∀ q, q ≠ p → (s.lockReached p).port q = s.port q) ∧ s.keepsBut [.link, .out] (s.lockReached p) := by
  have h5 : (s.port p).state ≠ 5 := by omega
  obtain ⟨hstate, hne, hkeep⟩ := State.portState_moves h5 4
  have hlanes : (s.portState p 4).lanesOf p = s.lanesOf p :=
    State.lanesOf_congr (State.reg_congr (State.keepsBut_regs hkeep) .portMode 0) p
  have hlocked : (fun n => ((s.portState p 4).lane n).locked) = fun n => (s.lane n).locked := funext fun n => by
    rw [← LaneSt.locked_body, s.portState_body, LaneSt.locked_body]
  have hout : (s.portState p 4).out = s.out := State.keepsBut_out hkeep
  rw [State.lockReached_exchange h3 hu]
  refine ⟨?_, ?_, fun q hq => ?_, State.keepsBut_append hkeep (State.sendCaps_keepsBut _ p)⟩
  · rw [State.sendCaps_out]; exact hstate
  · rw [State.sendCaps_out]
    dsimp only
    rw [hlanes, hlocked, hout]
    rfl
  · rw [State.sendCaps_out]; exact hne q hq

/-- The state of a port in which a stage timer runs is one that a failed attempt leaves. -/
theorem State.inPort_here {s : State} {p st : Nat} (h : (s.port p).state = st) (f : State → State) :
    s.inPort p st f = f s := if_pos h

/-- Settles O23: light and lock, and the stages of Table 3.4. -/
theorem lanesAndPortStages : Obligations.LanesAndPortStages := by
  unfold Obligations.LanesAndPortStages
  refine ⟨fun s n hn => ⟨fun hlos => ?_, fun hlol => ?_, ?_, ?_, fun hlos hr h1 => ?_⟩, fun s p hp => ?_⟩
  · have hbody := State.laneLoss_body (los := true) hn hlos
    rw [State.lossMarked_lane, hlos] at hbody
    obtain ⟨h1, h2, h3, h4⟩ := LaneSt.of_body hbody
    exact ⟨_, losAssert_leads hn, h1, h2.trans (by simp), h3, h4, State.laneLoss_idle hn hlos,
      State.laneLoss_dark hn hlos⟩
  · have hbody := State.laneLoss_body (los := false) hn hlol
    rw [State.lossMarked_lane, hlol] at hbody
    obtain ⟨h1, h2, h3, h4⟩ := LaneSt.of_body hbody
    exact ⟨_, lolAssert_leads hn, h2, h1.trans (by simp), h3, h4, State.laneLoss_idle hn hlol⟩
  · exact ⟨_, leads_of_unit rfl (decide_eq_true hn), s.lane_setLane n _, s.laneGain_keepsOthers n true⟩
  · exact ⟨_, leads_of_unit rfl (decide_eq_true hn), s.lane_setLane n _, s.laneGain_keepsOthers n false⟩
  · have h5 : (s.port (s.portOf n)).state ≠ 5 := by omega
    refine ⟨_, leads_of_unit rfl (decide_eq_true hn), ?_⟩
    rw [State.lightSeen_train hlos hr h1]
    exact State.portState_moves h5 2
  · have hok : s.portOk p = true := decide_eq_true hp
    have hbegun : ∀ c st, exec c s = onUnit (s.portOk p) (s.inPort p st fun s => s.failAttempt p).settle →
        (s.port p).state = st → Leads s c (s.failAttempt p) := fun c st hc hst => by
      rw [State.inPort_here hst] at hc
      exact leads_of_unit hc hok
    have hexch : (s.port p).state = 4 → (s.port p).refusal = 0 → Leads s (.exchangeTimeout p) (s.failAttempt p) :=
      fun h4 hr => hbegun _ 4 (congrArg (fun u => onUnit _ (State.settle u)) (if_pos hr)) h4
    refine ⟨fun h2 => ?_, fun h3 hu => ⟨_, leads_of_unit rfl hok, State.lockReached_sends h3 hu⟩,
      fun ha => ⟨fun h2 => ⟨_, hbegun _ 2 rfl h2, ?_⟩, fun h3 => ⟨_, hbegun _ 3 rfl h3, ?_⟩, fun h4 hr => ⟨_, hexch h4 hr, ?_⟩⟩,
      fun ha => ⟨fun h2 => ⟨_, hbegun _ 2 rfl h2, State.failAttempt_last ha⟩,
        fun h3 => ⟨_, hbegun _ 3 rfl h3, State.failAttempt_last ha⟩,
        fun h4 hr => ⟨_, hexch h4 hr, State.failAttempt_last ha⟩⟩, fun c n k h4 hn hof hc hk hv hper hw h0 => ?_⟩
    · refine ⟨_, leads_of_unit rfl hok, ?_⟩
      rw [State.inPort_here h2]
      exact State.portState_moves (by omega) 3
    · exact State.failAttempt_few (by omega) ha
    · exact State.failAttempt_few (by omega) ha
    · exact State.failAttempt_few (by omega) ha
    · refine ⟨_, leads_of_unit rfl (Bool.and_eq_true_iff.2 ⟨hok, decide_eq_true hn⟩), ?_⟩
      have husable : (s.setLane n fun l => { l with caps := some (c, 3) }).usableLanes p = s.usableLanes p := by
        refine State.usableLanes_congr ?_ (fun m => State.setLane_body (f := fun l => { l with caps := some (c, 3) })
          (fun _ => rfl) s n m) p
        rfl
      dsimp only
      rw [State.hearCaps_third h4 hof hc hk]
      exact State.exchangeCaps_agreed h4 hv hper (by rw [husable]; exact hw) h0

end Sys2Proof.Machine
end

section

-- One declaration after another: elaborated side by side, they take more threads than the check allows.
set_option Elab.async false

/-! The width handshake, and the retirement and tests of lanes (R70–R75, R87). -/

namespace Sys2Proof.Machine

open Sys2Proof (Instr)

/-! ## The width handshake -/

/-- A step whose markers have not gone both ways is not done. -/
theorem State.stepDone_open {s : State} {p : Nat} {t : WidthStep} (h : (s.port p).step = some t)
    (ho : (t.sent && t.followed) = false) : s.stepDone p = s := by
  simp [State.stepDone, h, ho]

/-- A request in ACTIVE is answered at once (R71). -/
theorem State.answerStep_answers {s : State} {p us : Nat} (h5 : (s.port p).state = 5)
    (hw : s.widthFor (s.usableLanes p &&& us) ≠ 0) :
    ((s.answerStep p us).port p).step = some { own := false, usable := s.usableLanes p &&& us
                                               width := s.widthFor (s.usableLanes p &&& us), acked := true } ∧
    ((s.answerStep p us).port p).state = 5 ∧
    (s.answerStep p us).out = .widthBlock p (s.lowestLane p) (widthBlock 1 (s.usableLanes p)
      (s.widthFor (s.usableLanes p &&& us))) :: s.out ∧ s.keepsBut [.link, .out] (s.answerStep p us) := by
  simp only [State.answerStep, h5, bne_self_eq_false, Bool.false_eq_true, if_false, hw, State.port_emit, State.port_setPort]
  exact ⟨trivial, trivial, rfl, State.keepsBut_append (State.setPort_keepsBut s p _) (State.emit_keepsBut _ _)⟩

/-- The acknowledgement of this end's own request is taken (R71). -/
theorem State.stepAcked_own {s : State} {p us w : Nat} {t : WidthStep} (h : (s.port p).step = some t) (ho : t.own = true)
    (ha : t.acked = false) (hw : w ≠ 0) :
    s.stepAcked p us w = s.setPort p fun P => { P with
      step := some { t with acked := true, usable := s.usableLanes p &&& us, width := w, age := 0 }
      peer := P.peer.map fun c => { c with usable := us } } := by
  simp [State.stepAcked, h, ho, ha, hw]

/-- Two ticks after the acknowledgement this end switches, with markers (R71). -/
theorem State.stepSwitch_due {s : State} {p : Nat} {t : WidthStep} (h : (s.port p).step = some t) (ha : t.acked = true)
    (hs : t.sent = false) (h2 : 2 ≤ t.age) (hf : t.followed = false) :
    s.stepSwitch p = ((s.setPort p fun P => { P with step := some { t with sent := true } }).setWidth p t.usable
      t.width).emit (.widthMarker p (((bitMembers s.nominal t.usable).take t.width).map fun i => p * s.nominal + i)
        widthMarker) := by
  have hstep : ((((s.setPort p fun P => { P with step := some { t with sent := true } }).setWidth p t.usable
      t.width).emit (.widthMarker p (((bitMembers s.nominal t.usable).take t.width).map fun i => p * s.nominal + i)
        widthMarker)).port p).step = some { t with sent := true } := by
    rw [State.port_emit, State.port, State.setWidth_ports, ← State.port, State.port_setPort, State.port_setPort]
  have hdue : (t.acked && !t.sent && decide (2 ≤ t.age)) = true := by simp [ha, hs, h2]
  simp only [State.stepSwitch, h]
  rw [if_pos hdue]
  exact State.stepDone_open hstep (by simp [hf])

/-- The receiver follows the peer's marker; the step is done only when this end has sent its own. -/
theorem State.stepMarker_follows {s : State} {p : Nat} {t : WidthStep} (h : (s.port p).step = some t) (hs : t.sent = false) :
    s.stepMarker p = s.setPort p fun P => { P with step := some { t with followed := true } } := by
  simp only [State.stepMarker, h]
  exact State.stepDone_open (t := { t with followed := true }) (by rw [State.port_setPort]) (by simp [hs])

/-- A request without an answer takes the port to DETECT after four ticks (R71). -/
theorem State.stepUnanswered_late {s : State} {p : Nat} {t : WidthStep} (h : (s.port p).step = some t) (ho : t.own = true)
    (ha : t.acked = false) (h4 : 4 ≤ t.age) : s.stepUnanswered p = s.portState p 1 := by
  simp [State.stepUnanswered, h, ho, ha, h4, State.toDetect]

/-- A lane that has held lock for restore_hold ticks starts a step (R73). -/
theorem State.laneReturns_starts {s : State} {n : Nat} (hi : (s.lane n).inUse = false) (hl : (s.lane n).locked = true)
    (ht : s.cfg .laneRetireCfg 0 35 13 ≤ (s.lane n).lockTicks) : s.laneReturns n = s.startStep (s.portOf n) := by
  simp [State.laneReturns, hi, hl, ht]

/-- The step that this end starts is its own, waits for the acknowledgement, and has been asked for. -/
theorem State.startStep_asks {s : State} {p : Nat} (h5 : (s.port p).state = 5) (hn : (s.port p).step = none)
    (hw : s.widthFor (s.usableLanes p &&& ((s.port p).peer.map CapSet.usable).getD 0) ≠ 0) :
    ∃ t, ((s.startStep p).port p).step = some t ∧ t.own = true ∧ t.acked = false ∧
      (s.startStep p).out = .widthBlock p (s.lowestLane p) (widthBlock 0 (s.usableLanes p) t.width) :: s.out ∧
      s.keepsBut [.link, .out] (s.startStep p) := by
  rw [State.startStep_request h5 hn hw, State.port_emit, State.port_setPort]
  exact ⟨_, rfl, rfl, rfl, rfl, State.keepsBut_append (State.setPort_keepsBut s p _) (State.emit_keepsBut _ _)⟩

/-! ## Retirement and tests -/

/-- A change of every value, at one key. -/
theorem get?_mapV {α : Type} (m : NMap α) (f : Nat → α → α) (k : Nat) : (NMap.mapV m f).get? k = (m.get? k).map (f k) := by
  induction m with
  | nil => rfl
  | cons kv m ih =>
    have hcons : NMap.mapV (kv :: m) f = (kv.1, f kv.1 kv.2) :: NMap.mapV m f := rfl
    rw [hcons, NMap.get?_cons, ih, show kv :: m = (kv.1, kv.2) :: m from rfl, NMap.get?_cons]
    split
    case isTrue h => rw [h]; rfl
    case isFalse => rfl

/-- A lane out of use that is retired is recorded so (R74). -/
theorem State.retireLane_out {s : State} {n : Nat} (hi : (s.lane n).inUse = false) (cause : Nat) :
    ((s.retireLane n cause).lane n) = { s.lane n with retired := true } ∧ n ∈ (s.retireLane n cause).mgt.lanes ∧
    (s.retireLane n cause).flt = s.flt := by
  simp only [State.retireLane, hi, Bool.false_eq_true, if_false]
  refine ⟨?_, ?_, State.event_flt ..⟩
  · rw [State.lane_setLane, State.lane_congr (s := s) (by exact State.event_link ..), hi]
  · dsimp only [State.setLane]
    split
    case isTrue hc => exact List.contains_iff_mem.1 hc
    case isFalse => exact List.mem_cons_self

/-- A lane at a threshold is retired and reported where auto_retire is 1 (R74). -/
theorem State.autoRetire_retires {s : State} {n c : Nat} (hc : s.retireCause n = some c) (hr : (s.lane n).retired = false)
    (ha : s.cfg .laneRetireCfg 0 34 1 = 1) :
    s.autoRetire n = (s.retireLane n c).report { cls := 11, master := masterId 2 (n / 128) 0, detail := n } := by
  simp [State.autoRetire, hc, hr, ha]

/-- A test whose ticks are over ends, with no command that waits for it (R75). -/
theorem State.laneTestOver_lone {s : State} {n : Nat} {t : LaneTest} (h : (s.lane n).test = some t) (ha : t.asked = true)
    (hl : t.left = 0) (hx : s.host.ctxs = []) : s.laneTestOver n = s.endLaneTest n t := by
  simp [State.laneTestOver, h, ha, hl, hx]

/-- The window of 1,024 ticks ends with its counts at zero (R70). -/
theorem State.windowEnd_due {s : State} (h : 1024 ≤ s.link.window) :
    s.windowEnd.link.window = 0 ∧ (∀ m l, s.link.lanes.get? m = some l →
      s.windowEnd.link.lanes.get? m = some { l with winSym := 0, winUncorr := 0, winFlap := 0 }) ∧
    s.windowEnd.link.ports = s.link.ports := by
  rw [State.windowEnd, if_neg (Nat.not_lt.2 h)]
  refine ⟨rfl, fun m l hl => ?_, rfl⟩
  dsimp only
  rw [get?_mapV, hl]
  rfl

/-- Settles O24: the width handshake, credit, the window, and the retirement and tests of lanes. -/
theorem widthStepsAndLaneTests : Obligations.WidthStepsAndLaneTests := by
  unfold Obligations.WidthStepsAndLaneTests
  refine ⟨fun s p hp => ?_, fun s n hn => ?_⟩
  · have hok : s.portOk p = true := decide_eq_true hp
    refine ⟨fun us h5 hw => ?_, fun us w t ht ho ha hw => ⟨_, leads_of_unit rfl hok, ?_⟩,
      fun t ht ha hs h2 hf => ⟨_, leads_of_unit rfl hok, ?_⟩, fun t ht hs => ⟨_, leads_of_unit rfl hok, ?_⟩,
      fun t ht ho ha h4 => ⟨_, leads_of_unit rfl hok, ?_⟩, fun n hn hof hi hl hk h5 hnone hw => ?_,
      fun h5 g => ⟨_, leads_of_unit rfl hok, ?_⟩⟩
    · obtain ⟨hstep, hstate, hout, hkeep⟩ := State.answerStep_answers h5 hw
      exact ⟨_, _, leads_of_unit rfl hok, hstep, rfl, rfl, rfl, rfl, hstate, hout, hkeep⟩
    · rw [State.stepAcked_own ht ho ha hw, State.port_setPort]
      exact ⟨rfl, rfl, State.setPort_keepsBut s p _⟩
    · rw [State.stepSwitch_due ht ha hs h2 hf, State.port_emit, State.port, State.setWidth_ports, ← State.port,
        State.port_setPort, State.port_setPort]
      exact ⟨rfl, rfl, _, rfl⟩
    · rw [State.stepMarker_follows ht hs, State.port_setPort]
      exact ⟨rfl, State.setPort_keepsBut s p _⟩
    · rw [State.stepUnanswered_late ht ho ha h4, State.portState_port]
      exact ⟨rfl, rfl, rfl⟩
    · obtain ⟨t, hstep⟩ := State.startStep_asks h5 hnone hw
      have hreturns : s.laneReturns n = s.startStep p := hof ▸ State.laneReturns_starts hi hl hk
      exact ⟨_, t, leads_of_unit rfl (decide_eq_true hn), hreturns ▸ hstep⟩
    · rw [State.creditUpdate, State.inPort_here h5, State.port_setPort]
      exact ⟨rfl, fun q hq => s.port_setPort_ne _ hq, State.setPort_keepsBut s p _⟩
  · have hok : s.laneOk n = true := decide_eq_true hn
    refine ⟨fun hw => ?_, fun c hc hr ha hi => ⟨_, leads_of_unit rfl hok, ?_⟩,
      fun t ht ha hl hr hx => ⟨_, leads_of_unit rfl hok, ?_⟩, fun t ht ha hl hr hi hx => ⟨_, leads_of_unit rfl hok, ?_⟩⟩
    · obtain ⟨hwin, hlanes, hports⟩ := State.windowEnd_due hw
      exact ⟨_, rfl, hwin, hlanes, hports, s.windowEnd_keepsBut⟩
    · obtain ⟨hlane, hmem, hflt⟩ := State.retireLane_out hi c
      rw [State.autoRetire_retires hc hr ha]
      refine ⟨congrArg LaneSt.retired hlane, hmem, ?_⟩
      rw [State.report_flt, hflt]
    · rw [State.laneTestOver_lone ht ha hl hx, State.endLaneTest, if_neg (by simp [hr])]
      exact ⟨s.lane_setLane n _, State.setLane_keepsBut s n _⟩
    · have hout : ((s.setLane n fun l => { l with test := none, lockTicks := 0 }).lane n).inUse = false := by
        rw [State.lane_setLane]; exact hi
      obtain ⟨hlane, hmem, -⟩ := State.retireLane_out hout 0
      rw [State.laneTestOver_lone ht ha hl hx, State.endLaneTest, if_pos hr]
      refine ⟨?_, congrArg LaneSt.retired hlane, hmem⟩
      rw [hlane, State.lane_setLane]

end Sys2Proof.Machine
end

section

-- One declaration after another: elaborated side by side, they take more threads than the check allows.
set_option Elab.async false

/-! Laser source modules (R76–R80, R439). -/

namespace Sys2Proof.Machine

open Sys2Proof (Instr LaserRead LsmIdent)

/-- A laser that fails is reported, and its spare taken where one is free (R76, R77). -/
theorem State.laserRead_fails {s : State} {r : LaserRead} (hlit : (s.lsm r.lsm).lit = true)
    (hnew : r.laser ∉ (s.lsm r.lsm).failed) (hbad : s.powerLow r = true ∨ s.biasHigh r = true) (h4 : r.laser < 4)
    (hfree : (s.lsm r.lsm).spare = none) (hgood : 4 ∉ (s.lsm r.lsm).failed) :
    (s.laserRead r).lsm r.lsm =
      { s.lsm r.lsm with failed := r.laser :: (s.lsm r.lsm).failed, spare := some r.laser, switched := false } ∧
    (s.laserRead r).flt.todo = s.flt.todo ++
      [({ cls := 12, master := masterId 2 (r.lsm / 2) 0, detail := r.lsm * 64 }, false)] := by
  have hacts : (!(s.lsm r.lsm).lit || (s.lsm r.lsm).failed.contains r.laser || !(s.powerLow r || s.biasHigh r)) = false := by
    rcases hbad with h | h <;> simp [hlit, hnew, h]
  rw [State.laserRead, if_neg (by rw [hacts]; exact Bool.false_ne_true)]
  dsimp only
  constructor
  · rw [State.lsm_setLsm, State.lsm_congr (State.report_link ..), State.lsm_congr (State.event_link ..)]
    simp [hfree, hgood, h4]
  · rw [State.setLsm, State.report_flt, State.event_flt]

/-- The spare serves the failed wavelength, once (R77). -/
theorem State.spareOn_serves {s : State} {j w : Nat} (hw : (s.lsm j).spare = some w) (hs : (s.lsm j).switched = false) :
    (s.spareOn j).lsm j = { s.lsm j with switched := true } ∧
      s.keepsBut [.link, .mgt, .regs, .fresh, .out] (s.spareOn j) := by
  have hstep : s.spareOn j = (s.setLsm j fun L => { L with switched := true }).event 2 0x01 0x0021
      (leBytes 1 j ++ leBytes 1 w) := by
    simp [State.spareOn, hw, hs]
  rw [hstep, State.lsm_congr (State.event_link ..), State.lsm_setLsm]
  exact ⟨rfl, State.keepsBut_mono (State.keepsBut_append (State.setLsm_keepsBut s j _)
    (State.event_keepsBut _ _ _ _ _ _ _)) (by decide)⟩

/-- A module that goes dark takes ports to DETECT and keeps its slot but for the light. -/
theorem State.lsmDark_lsm (s : State) (j : Nat) : (s.lsmDark j).lsm j = { s.lsm j with lit := false } := by
  refine (foldl_leaves (p := fun (u : State) => u.lsm j) (fun u p => ?_) _ _).trans (State.lsm_setLsm s j _)
  split
  · rfl
  · exact u.portState_lsm p 1 j

/-- A latch that opens puts the lasers out and ends a release under way (R79, R439). -/
theorem State.latchOpened_lsm (s : State) (j : Nat) : (s.latchOpened j).lsm j =
    { s.lsm j with latchOpen := true, warming := false, draining := none, lit := false } := by
  cases hl : (s.lsm j).lit <;> simp [State.latchOpened, hl, State.lsmDark_lsm]

/-- A latch that opens at a dark module changes its slot alone. -/
theorem State.latchOpened_dark {s : State} {j : Nat} (hl : (s.lsm j).lit = false) : s.keepsBut [.link] (s.latchOpened j) := by
  have hstep : s.latchOpened j = s.setLsm j fun L => { L with latchOpen := true, warming := false, draining := none } := by
    simp [State.latchOpened, hl]
  rw [hstep]
  exact State.setLsm_keepsBut s j _

/-- A module whose identity is right is warmed up (R78). -/
theorem State.lsmClosed_right (s : State) (j : Nat) {i : LsmIdent} (hi : i.grid = [1271, 1291, 1311, 1331]) :
    s.lsmClosed j true i = s.setLsm j fun L => { L with latchOpen := false, ident := some i, refused := 0, warming := true } := by
  simp [State.lsmClosed, hi]

/-- A module whose identity cannot be read or names another grid is refused and reported (R80). -/
theorem State.lsmClosed_wrong (s : State) (j : Nat) {ok : Bool} {i : LsmIdent}
    (hi : ok = false ∨ i.grid ≠ [1271, 1291, 1311, 1331]) :
    (s.lsmClosed j ok i).lsm j = { s.lsm j with
      latchOpen := false, ident := some i, refused := if ok = false then 1 else 2, warming := false } ∧
    (s.lsmClosed j ok i).flt.todo = s.flt.todo ++
      [({ cls := 12, master := masterId 2 (j / 2) 0, detail := j * 64 }, false)] := by
  have hbad : (if !ok then 1 else if i.grid != [1271, 1291, 1311, 1331] then 2 else 0) = if ok = false then 1 else 2 := by
    cases ok
    · rfl
    · simpa using hi
  have hne : (if ok = false then 1 else 2) ≠ 0 := by split <;> decide
  simp only [State.lsmClosed, hbad, if_neg hne, beq_eq_false_iff_ne.2 hne]
  constructor
  · rw [State.lsm_congr (State.report_link ..), State.lsm_congr (State.event_link ..), State.lsm_setLsm]
  · rw [State.report_flt, State.event_flt]
    rfl

/-- A port with light goes to DETECT, unless it is DISABLED. -/
def State.relight (s : State) (p : Nat) : State := if (s.port p).state = 0 then s else s.portState p 1

theorem State.relight_lsm (s : State) (p j : Nat) : (s.relight p).lsm j = s.lsm j := by
  unfold State.relight
  split
  · rfl
  · exact s.portState_lsm p 1 j

/-- A port that is not DISABLED is in DETECT after its turn, and in the same state or in DETECT after another's. -/
theorem State.relight_port (s : State) {p q : Nat} (h : (s.port q).state ≠ 0) :
    ((s.relight p).port q).state = 1 ∨ q ≠ p ∧ (s.relight p).port q = s.port q := by
  unfold State.relight
  by_cases hq : q = p
  · subst hq
    rw [if_neg h, State.portState_port]
    exact .inl rfl
  · refine .inr ⟨hq, ?_⟩
    split
    · rfl
    · exact s.portState_port_ne 1 hq

/-- All ports of a list that are not DISABLED are taken to DETECT. -/
theorem State.relight_all (l : List Nat) (s : State) (q : Nat) (h : (s.port q).state ≠ 0)
    (hq : q ∈ l ∨ (s.port q).state = 1) : ((l.foldl State.relight s).port q).state = 1 := by
  induction l generalizing s with
  | nil => exact hq.resolve_left List.not_mem_nil
  | cons p l ih =>
    rcases s.relight_port (p := p) h with h1 | ⟨hne, hsame⟩
    · exact ih _ (by omega) (.inr h1)
    · refine ih _ (by rw [hsame]; exact h) ?_
      rw [hsame]
      exact hq.imp (fun hm => (List.mem_cons.1 hm).resolve_left hne) id

/-- Lasers at their set points: the slot is lit anew and its ports go to DETECT (R78). -/
theorem State.lsmLit_lit {s : State} {j : Nat} :
    (s.lsmLit j).lsm j = { s.lsm j with warming := false, lit := true, failed := [], spare := none, switched := false
                                        indicator := false } ∧
    ∀ p ∈ s.lsmPorts j, (s.port p).state ≠ 0 → ((s.lsmLit j).port p).state = 1 := by
  let t := (s.setLsm j fun L => { L with
    warming := false, lit := true, failed := [], spare := none, switched := false, indicator := false }).event 0 0x01 0x0023
      (leBytes 1 j ++ leBytes 1 1)
  have hlink : t.link = (s.setLsm j fun L => { L with
    warming := false, lit := true, failed := [], spare := none, switched := false, indicator := false }).link :=
    State.event_link ..
  have hmode : t.reg .portMode = s.reg .portMode :=
    State.event_reg (Reg.quiet_of_lt (by decide) (by omega)) ..
  have hports : t.lsmPorts j = s.lsmPorts j := by simp only [State.lsmPorts, State.nominal_congr hmode]
  have hstep : s.lsmLit j = (t.lsmPorts j).foldl State.relight t := rfl
  rw [hstep, hports]
  constructor
  · rw [foldl_leaves (p := fun (u : State) => u.lsm j) (fun u p => u.relight_lsm p j), State.lsm_congr hlink,
      State.lsm_setLsm]
  · intro p hp h0
    exact State.relight_all _ t p (by rw [State.port_congr hlink]; exact h0) (.inl hp)

/-- A release that is done ends dark, with the indicator lit (R78). -/
theorem State.lsmReleased_lsm (s : State) (j : Nat) :
    (s.lsmReleased j).lsm j = { s.lsm j with lit := false, draining := none, indicator := true } := by
  have hflushed : ∀ l : List Nat, (l.foldl (fun (u : State) p => u.flushPort p true) s).lsm j = s.lsm j := fun l =>
    foldl_leaves (p := fun (u : State) => u.lsm j)
      (fun u p => State.lsm_congr (State.keepsBut_link (u.flushPort_keepsBut p true)) j) l s
  rw [State.lsmReleased, State.lsm_congr (State.event_link ..), State.lsm_setLsm, State.lsmDark_lsm, hflushed]

/-- Settles O25: laser source modules. -/
theorem laserSourceModules : Obligations.LaserSourceModules := by
  unfold Obligations.LaserSourceModules
  intro s j hj
  have hok : lsmOk j = true := decide_eq_true hj
  refine ⟨?_, fun w hw hs => ⟨_, leads_of_unit rfl hok, State.spareOn_serves hw hs⟩, ⟨_, leads_of_unit rfl hok, ?_⟩,
    fun hopen => ?_, fun hwarm => ?_, fun hdrained => ?_⟩
  · rintro r rfl h4 hlit hnew hbad hfree hgood
    have h5 : r.laser < 5 := by omega
    exact ⟨_, leads_of_unit rfl (by simp [hok, h5]), State.laserRead_fails hlit hnew hbad h4 hfree hgood⟩
  · rw [State.latchOpened_lsm]
    exact ⟨rfl, rfl, rfl, rfl, State.latchOpened_dark⟩
  · have hleads : ∀ ok i, Leads s (.lsmLatchClose j ok i) (s.lsmClosed j ok i) := fun ok i =>
      leads_of_unit (congrArg (onUnit _) (if_pos hopen)) hok
    refine ⟨fun i hi => ⟨_, hleads true i, ?_⟩, fun ok i hi => ⟨_, hleads ok i, State.lsmClosed_wrong s j hi⟩⟩
    rw [State.lsmClosed_right s j hi]
    exact ⟨State.lsm_setLsm s j _, State.setLsm_keepsBut s j _⟩
  · obtain ⟨hlsm, hports⟩ := State.lsmLit_lit (s := s) (j := j)
    refine ⟨_, leads_of_unit (congrArg (onUnit _) (if_pos hwarm)) hok, ?_⟩
    rw [hlsm]
    exact ⟨rfl, rfl, rfl, rfl, hports⟩
  · refine ⟨_, leads_of_unit (congrArg (onUnit _) (if_pos hdrained)) hok, ?_⟩
    rw [State.lsmReleased_lsm]
    exact ⟨rfl, rfl, rfl⟩

end Sys2Proof.Machine
end

section

-- One declaration after another: elaborated side by side, they take more threads than the check allows.
set_option Elab.async false

/-! The tick keeper: boundaries, announces, ordered sets and timers (chapter 2). -/

namespace Sys2Proof.Machine

open Sys2Proof (Instr Announce BoundaryIn)

/-! ## What the review of the parent keeps -/

/-- What neighbours have said, what has been measured and the count itself. -/
def TickSt.heard (t : TickSt) : TickSt :=
  { nbrs := t.nbrs, measured := t.measured, miss := t.miss, arrived := t.arrived, seen := t.seen, counter := t.counter
    issued := t.issued }

/-- The tick keeper as it enters a state. -/
def TickSt.entered (st reason : Nat) (t : TickSt) : TickSt :=
  { t with state := st, inState := 0, good := 0, unsyncReason := reason, announceDue := true }

theorem State.tickEnter_tick (s : State) (st reason : Nat) : (s.tickEnter st reason).tick = s.tick.entered st reason := by
  rw [State.tickEnter, State.event_tick]
  split <;> rfl

theorem State.tickEnter_topo (s : State) (st reason : Nat) : (s.tickEnter st reason).topo = s.topo :=
  State.keepsBut_topo (s.tickEnter_keepsBut st reason)

theorem State.tickEnter_reg (s : State) (st reason : Nat) {r : Reg} {i : Nat} (h : r.quiet i) :
    (s.tickEnter st reason).reg r i = s.reg r i := by
  rw [State.tickEnter, State.event_reg h]
  split <;> rfl

/-- UNSYNC is a fault of the tick class (R51). -/
theorem State.tickEnter_unsync (s : State) (reason : Nat) : (s.tickEnter 6 reason).flt.todo =
    s.flt.todo ++ [({ cls := 19, master := masterId 10 15 0 }, false)] := by
  rw [State.tickEnter, State.event_flt]
  rfl

theorem State.tickEnter_heard (s : State) (st reason : Nat) : (s.tickEnter st reason).tick.heard = s.tick.heard := by
  rw [State.tickEnter_tick]
  rfl

theorem State.adopt_heard (s : State) (p : Nat) (stepped : Bool) : (s.adopt p stepped).tick.heard = s.tick.heard := rfl

theorem State.merge_heard (s : State) (p : Nat) : (s.merge p).tick.heard = s.tick.heard := by
  unfold State.merge
  split
  · rfl
  · dsimp only
    split
    · split
      · rfl
      · exact State.tickEnter_heard _ _ _
    · exact State.tickEnter_heard _ _ _

theorem State.reviewRoot_heard (s : State) (p : Nat) : (s.reviewRoot p).tick.heard = s.tick.heard := by
  unfold State.reviewRoot
  split
  · split
    · exact s.merge_heard p
    · exact State.tickEnter_heard _ _ _
  · rfl

theorem State.reviewHoldover_heard (s : State) : s.reviewHoldover.tick.heard = s.tick.heard := by
  unfold State.reviewHoldover
  dsimp only
  split
  · exact State.tickEnter_heard _ _ _
  · split
    · split
      · rfl
      · split
        · exact s.merge_heard _
        · exact State.tickEnter_heard _ _ _
    · rfl

theorem State.reviewFollower_heard (s : State) : s.reviewFollower.tick.heard = s.tick.heard := by
  delta State.reviewFollower
  extract_lets t gone others
  clear_value others gone
  split
  · split
    · rfl
    · split
      · rfl
      · exact State.tickEnter_heard _ _ _
  · dsimp only
    split
    · split
      · rfl
      · exact State.tickEnter_heard _ _ _
    · split
      · rfl
      · split
        · split
          · exact s.merge_heard _
          · rfl
        · rfl

theorem State.tickReview_heard (s : State) : s.tickReview.tick.heard = s.tick.heard := by
  unfold State.tickReview
  dsimp only
  split
  · rfl
  · split
    · split
      · exact s.reviewRoot_heard _
      · rfl
    · split
      · exact State.tickEnter_heard _ _ _
      · split
        · split
          · exact State.tickEnter_heard _ _ _
          · rfl
        · split
          · exact s.reviewHoldover_heard
          · exact s.reviewFollower_heard

/-! ## Announces that are due -/

/-- What a change announces changes no more of the tick keeper. -/
theorem State.announceChange_tick (s : State) : s.announceChange.tick = { s.tick with announceDue := false } := by
  unfold State.announceChange
  split
  case isTrue => exact State.keepsBut_tick (State.announceAll_keepsBut _)
  case isFalse h => rw [← Bool.eq_false_iff.2 h]

theorem State.announceChange_heard (s : State) : s.announceChange.tick.heard = s.tick.heard := by
  rw [State.announceChange_tick]
  rfl

/-- A pool without room is no fault. -/
theorem State.takeCells_flt (s : State) (tile cls n count : Nat) : (s.takeCells tile cls n count).2.flt = s.flt := by
  unfold State.takeCells
  split
  · rfl
  · split
    · rw [State.poolFail, if_pos rfl, State.poolRefused, if_neg (by decide), State.event_flt]
      rfl
    · exact State.keepsBut_flt (State.keepsBut_append (State.charge_keepsBut s _ _ _ _) (State.giveCells_keepsBut _ _ _))

theorem State.admitOwn_flt (s : State) (f : Frame) (copies : List Copy) (tile : Nat) :
    (s.admitOwn f copies tile).flt = s.flt := by
  have htaken := s.takeCells_flt tile f.hdr.cls (frameCells f.hdr) copies.length
  unfold State.admitOwn
  split <;> rename_i heq <;> rw [heq] at htaken
  · exact (State.keepsBut_flt (State.storeFrame_keepsBut _ _ _ _ _ _ _ _)).trans htaken
  · exact htaken

theorem State.announceOn_flt (s : State) (p : Nat) : (s.announceOn p).flt = s.flt := by
  unfold State.announceOn State.sendLinkLocal
  split
  · rfl
  · exact s.admitOwn_flt _ _ _

theorem State.announceChange_flt (s : State) : s.announceChange.flt = s.flt := by
  unfold State.announceChange
  split
  · exact foldl_leaves (p := State.flt) State.announceOn_flt _ _
  · rfl

/-! ## What is heard -/

/-- What a neighbour announces replaces what it has announced before (R41). -/
theorem State.tickHear_nbrs (s : State) (p : Nat) (a : Announce) : (s.tickHear p a).tick.nbrs = s.tick.nbrs.set p a := by
  refine (congrArg TickSt.nbrs ((State.announceChange_heard _).trans (State.tickReview_heard _))).trans ?_
  dsimp only [TickSt.heard]
  split <;> rfl

/-- A set from a neighbour that is not the parent is recorded, and moves no count (R43, R44). -/
theorem State.tsos_heard {s : State} {p : Nat} (hp : s.tick.parent ≠ some p) (seq tTx eTx eRx arr : Nat) :
    (s.tsos p seq tTx eTx eRx arr).tick.heard = { s.tick.heard with
      arrived := if s.tick.arrived.contains p then s.tick.arrived else p :: s.tick.arrived, miss := s.tick.miss.set p 0
      seen := s.tick.seen.set p ⟨seq, tTx, arr⟩
      measured := s.tick.measured.set p
        ((((stampDiff eRx eTx - stampDiff arr tTx) / 2) :: ((s.tick.measured.get? p).map Prod.fst).getD []).take 5,
          (stampDiff eRx eTx + stampDiff arr tTx) / 2) } := by
  have hother : (s.tick.parent == some p) = false := beq_eq_false_iff_ne.2 hp
  refine ((State.announceChange_heard _).trans (State.tickReview_heard _)).trans ?_
  simp only [State.setTick, hother, Bool.false_and, Bool.false_eq_true, if_false]
  rfl

/-! ## Timers -/

/-- The tick keeper leaves its parent for UNSYNC, which is a fault (R48, R51). -/
theorem State.unsync_enters (s : State) (reason : Nat) :
    (s.unsync reason).tick.state = 6 ∧ (s.unsync reason).tick.unsyncReason = reason ∧
    (s.unsync reason).tick.parent = none ∧
    (s.unsync reason).flt.todo = s.flt.todo ++ [({ cls := 19, master := masterId 10 15 0 }, false)] := by
  rw [State.unsync, State.announceChange_tick, State.announceChange_flt, State.tickEnter_tick, State.tickEnter_unsync]
  exact ⟨rfl, rfl, rfl, rfl⟩

/-- A parent that is lost without another leads to HOLDOVER (R48). -/
theorem State.tickReview_alone {s : State} {p : Nat} (hst : s.tick.state = 3 ∨ s.tick.state = 4) (hd : s.tooDeep = false)
    (hp : s.tick.parent = some p) (he : s.eligible p = false)
    (hb : ({ s with tick := { s.tick with nbrs := s.tick.nbrs.filter fun kv => kv.1 != p } } : State).bestParent = none) :
    s.tickReview = (s.setTick fun t => { t with parent := none }).tickEnter 5 := by
  have hfollows : s.tickReview = s.reviewFollower := by
    rcases hst with h | h <;> simp [State.tickReview, h, hd]
  have hgone : (!s.eligible p || decide (3 ≤ s.tick.miss.getD p 0)) = true := by simp [he]
  have hnot : s.tick.state ≠ 2 := by omega
  simp only [hp] at hb
  rw [hfollows, State.reviewFollower]
  simp only [hp, hgone, if_true, hb, Bool.not_true, Bool.false_eq_true, if_false, hnot]

/-- A module that may be root becomes it when root_seq has stood still (R50). -/
theorem State.reRoot_root {s : State} (h : s.rootPriority < 255) :
    s.reRoot.tick.state = 7 ∧ s.reRoot.tick.depth = 0 ∧ s.reRoot.tick.rootNode = s.me ∧
    s.reRoot.tick.rootPriority = s.rootPriority ∧ s.reRoot.tick.parent = none ∧
    s.reRoot.tick.counter = s.tick.counter := by
  let t := if s.tick.state = 5 then s else (s.setTick fun t => { t with parent := none }).tickEnter 5
  have hquiet : Reg.quiet .tickConfig 0 := Reg.quiet_of_lt (by decide) (by omega)
  have hprio : t.rootPriority = s.rootPriority := by
    have hreg : t.reg .tickConfig = s.reg .tickConfig := by
      unfold t
      split
      · rfl
      · exact State.tickEnter_reg _ _ _ hquiet
    simp only [State.rootPriority, hreg]
  have hme : t.me = s.me := by
    have htopo : t.topo = s.topo := by
      unfold t
      split
      · rfl
      · exact State.tickEnter_topo _ _ _
    simp only [State.me, htopo]
  have hcount : t.tick.counter = s.tick.counter := by
    unfold t
    split
    · rfl
    · rw [State.tickEnter_tick]; rfl
  have hstep : s.reRoot = t.becomeRoot.announceChange := by
    rw [State.reRoot]
    exact congrArg State.announceChange (if_pos (hprio ▸ h))
  rw [hstep, State.announceChange_tick, State.becomeRoot, State.tickEnter_tick]
  exact ⟨rfl, rfl, hme, hprio, rfl, hcount⟩

/-- Settles O27: what the tick keeper hears, and its timers. -/
theorem tickKeeperHearsAndTimes : Obligations.TickKeeperHearsAndTimes := by
  unfold Obligations.TickKeeperHearsAndTimes
  refine ⟨fun s p hp => ?_, fun s => ⟨fun ht ha => ?_, fun hst hin => ?_, fun hst hin => ?_, fun p hst hd hpar he hb => ?_,
    fun hst hs hprio => ?_⟩⟩
  · have hok : s.portOk p = true := decide_eq_true hp
    refine ⟨fun a hsafe h5 => ?_, fun seq tTx eSeq eTx eRx arr h5 htick hpar => ?_, fun seq tTx eSeq eTx eRx arr => ?_⟩
    · have hnbrs := (s.takeLocal p Op.tickAnnounce none).tickHear_nbrs p a
      rw [State.keepsBut_tick (State.takeLocal_keepsBut s p Op.tickAnnounce none)] at hnbrs
      refine ⟨_, leads_of_unit (congrArg (onUnit _) ((if_neg (by simp [hsafe])).trans
        (congrArg State.settle (State.inPort_here h5 _)))) hok, ?_, fun q hq => ?_⟩
      · rw [hnbrs, NMap.get?_set]
      · rw [hnbrs, NMap.get?_set_ne _ _ hq]
    · have hheard := State.tsos_heard hpar seq tTx eTx eRx arr
      have hstep : s.tsosHeard p true seq tTx eTx eRx arr = s.tsos p seq tTx eTx eRx arr := by
        simp [State.tsosHeard, h5, htick]
      have harrived := congrArg TickSt.arrived hheard
      have hmeas := congrArg TickSt.measured hheard
      have hmiss := congrArg TickSt.miss hheard
      have hseen := congrArg TickSt.seen hheard
      dsimp only [TickSt.heard] at harrived hmeas hmiss hseen
      refine ⟨_, leads_of_unit (congrArg (fun u => onUnit _ (State.settle u)) hstep) hok, ?_, ?_, ?_, ?_⟩
      · rw [hmeas, NMap.get?_set]
      · rw [hmiss, NMap.get?_set]
      · rw [harrived]
        split
        case isTrue h => exact List.contains_iff_mem.1 h
        case isFalse => exact List.mem_cons_self
      · rw [hseen, NMap.get?_set]
    · exact leads_of_unit rfl hok
  · refine ⟨_, leads_of_if rfl (by simp [ht, ha]), ?_⟩
    exact State.keepsBut_tick (State.announceAll_keepsBut _)
  · exact ⟨_, leads_of_if rfl (by simp [hst, hin]), s.unsync_enters 4⟩
  · exact ⟨_, leads_of_if rfl (by simp [hst, hin]), s.unsync_enters 1⟩
  · refine ⟨_, rfl, ?_⟩
    rw [State.tickReview_alone hst hd hpar he hb, State.announceChange_tick, State.tickEnter_tick]
    exact ⟨rfl, rfl, rfl⟩
  · exact ⟨_, leads_of_if rfl (by simpa [or_assoc] using ⟨hst, hs⟩), State.reRoot_root hprio⟩

/-! ## Boundaries -/

/-- Sets sent and counted leave the count of ticks. -/
theorem State.tsosTick_counts (s : State) (late : List Nat) :
    (s.tsosTick late).tick.counter = s.tick.counter ∧ (s.tsosTick late).tick.issued = s.tick.issued := by
  have hsent : ∀ (u : State) (p : Nat), ((u.sendTsos p).tick.counter, (u.sendTsos p).tick.issued) =
      (u.tick.counter, u.tick.issued) := fun u p => by
    unfold State.sendTsos
    split <;> rfl
  exact Prod.mk.inj (foldl_leaves (p := fun (u : State) => (u.tick.counter, u.tick.issued)) hsent _ _)

/-- What is sent at a boundary leaves the count of ticks. -/
theorem State.boundarySends_counts (s : State) (late : List Nat) :
    (s.boundarySends late).tick.counter = s.tick.counter ∧ (s.boundarySends late).tick.issued = s.tick.issued := by
  have hrest : ∀ u : State, (u.helloTick.noticeTick.creditBlocks.topoTick.summaryCheck).tick = u.tick := fun u => by
    rw [State.keepsBut_tick (State.summaryCheck_keepsBut _), State.keepsBut_tick (State.topoTick_keepsBut _),
      State.keepsBut_tick (State.creditBlocks_keepsBut _), State.keepsBut_tick (State.noticeTick_keepsBut _),
      State.keepsBut_tick (State.helloTick_keepsBut _)]
  rw [State.boundarySends, hrest, State.announceChange_tick]
  exact s.tsosTick_counts late

/-- With no command waiting, a boundary of a running tick keeper counts one tick (R35). -/
theorem State.boundary_counts {s : State} (ht : s.ticking = true) (hx : s.host.ctxs = []) (inp : BoundaryIn) :
    (s.boundary inp).tick.counter = s.tick.counter + 1 ∧ (s.boundary inp).tick.issued = s.tick.counter + 1 := by
  have hlast : ∀ u : State, (((u.linkTick inp.fec).thermalTick.retargetAll.injectTick.ageCommands).logRate).tick = u.tick :=
    fun u => by
      rw [State.keepsBut_tick (State.logRate_keepsBut _), State.keepsBut_tick (State.ageCommands_keepsBut _),
        State.keepsBut_tick (State.injectTick_keepsBut _), State.keepsBut_tick (State.retargetAll_keepsBut _),
        State.keepsBut_tick (State.thermalTick_keepsBut _), State.keepsBut_tick (State.linkTick_keepsBut _ _)]
  have hdata : ∀ u : State, (if u.isSafe then u else u.dataTick inp).tick = u.tick := fun u => by
    split
    · rfl
    · exact State.keepsBut_tick (State.dataTick_keepsBut u inp)
  have hnone : s.tickAdvance.boundaryCommands = s.tickAdvance := by
    rw [State.boundaryCommands, show s.tickAdvance.host.ctxs = [] from hx]
    rfl
  rw [State.boundary, if_neg (by simp [ht]), hlast, hdata, hnone]
  obtain ⟨hc, hi⟩ := s.tickAdvance.disableTick.boundarySends_counts inp.tsosLate
  rw [hc, hi, State.keepsBut_tick (State.disableTick_keepsBut _)]
  exact ⟨rfl, rfl⟩

/-- A lone command at its effective tick runs (R53). -/
theorem State.tickReached_lone {s : State} {x : Ctx} {t : Nat} (hx : s.host.ctxs = [x]) (hst : x.state = .started (.tick t)) :
    s.tickReached = if t ≤ s.tick.issued then s.perform x else s := by
  have hready : s.ready x true = s.perform x := by
    simp [State.ready, lone_not_blocked hx]
  simp only [State.tickReached, hx, List.foldl_cons, List.foldl_nil, hst, hready]

/-- Settles O26: boundaries, and effective ticks. -/
theorem boundariesCount : Obligations.BoundariesCount := by
  unfold Obligations.BoundariesCount
  refine fun s => ⟨fun inp hfec => ?_, fun x t ht hx hst => ?_⟩
  · have hok : (inp.fec.all fun f => s.laneOk f.lane) = true :=
      List.all_eq_true.2 fun f hf => decide_eq_true (hfec f hf)
    refine ⟨fun ht => ?_, fun ht hx => ⟨_, leads_of_unit rfl hok, State.boundary_counts ht hx inp⟩⟩
    have hstopped : s.boundary inp = s := if_pos (by simp [ht])
    exact leads_of_unit (congrArg (fun u => onUnit _ (State.settle u)) hstopped) hok
  · have hstep := State.tickReached_lone hx hst
    constructor
    · intro hle
      rw [if_pos hle] at hstep
      exact leads_of_if (congrArg (fun u => Host.Outcome.next (if s.ticking then State.settle u else s)) hstep) ht
    · intro hlt
      rw [if_neg (Nat.not_le.2 hlt)] at hstep
      exact leads_of_if (congrArg (fun u => Host.Outcome.next (if s.ticking then State.settle u else s)) hstep) ht

end Sys2Proof.Machine
end

section

-- One declaration after another: elaborated side by side, they take more threads than the check allows.
set_option Elab.async false

/-! Commands of hosts: the state with a command in it, and the lemmas that more than one command needs. -/

namespace Sys2Proof.Machine

open Sys2Proof (Instr CmdHdr Ref)

/-! ## The state with a command in it -/

section

variable (s : State) (c : Instr) (h : CmdHdr)

@[simp] theorem State.withCommand_pending : (s.withCommand c h).pending = s.pending := by
  rw [State.withCommand_eq]; rfl

@[simp] theorem State.withCommand_fresh : (s.withCommand c h).fresh = s.fresh := by
  rw [State.withCommand_eq]; rfl

@[simp] theorem State.withCommand_regs : (s.withCommand c h).regs = s.regs := by
  rw [State.withCommand_eq]; rfl

@[simp] theorem State.withCommand_tick : (s.withCommand c h).tick = s.tick := by
  rw [State.withCommand_eq]; rfl

@[simp] theorem State.withCommand_link : (s.withCommand c h).link = s.link := by
  rw [State.withCommand_eq]; rfl

@[simp] theorem State.withCommand_boot : (s.withCommand c h).boot = s.boot := by
  rw [State.withCommand_eq]; rfl

@[simp] theorem State.withCommand_flt : (s.withCommand c h).flt = s.flt := by
  rw [State.withCommand_eq]; rfl

@[simp] theorem State.withCommand_mgt : (s.withCommand c h).mgt = s.mgt := by
  rw [State.withCommand_eq]; rfl

@[simp] theorem State.withCommand_topo : (s.withCommand c h).topo = s.topo := by
  rw [State.withCommand_eq]; rfl

@[simp] theorem State.withCommand_flow : (s.withCommand c h).flow = s.flow := by
  rw [State.withCommand_eq]; rfl

@[simp] theorem State.withCommand_sw : (s.withCommand c h).sw = s.sw := by
  rw [State.withCommand_eq]; rfl

@[simp] theorem State.withCommand_pool : (s.withCommand c h).pool = s.pool := by
  rw [State.withCommand_eq]; rfl

@[simp] theorem State.withCommand_eng : (s.withCommand c h).eng = s.eng := by
  rw [State.withCommand_eq]; rfl

@[simp] theorem State.withCommand_coll : (s.withCommand c h).coll = s.coll := by
  rw [State.withCommand_eq]; rfl

@[simp] theorem State.withCommand_parm : (s.withCommand c h).parm = s.parm := by
  rw [State.withCommand_eq]; rfl

@[simp] theorem State.withCommand_stash : (s.withCommand c h).stash = s.stash := by
  rw [State.withCommand_eq]; rfl

@[simp] theorem State.withCommand_stz : (s.withCommand c h).stz = s.stz := by
  rw [State.withCommand_eq]; rfl

@[simp] theorem State.withCommand_pwr : (s.withCommand c h).pwr = s.pwr := by
  rw [State.withCommand_eq]; rfl

@[simp] theorem State.withCommand_ctxUse : (s.withCommand c h).ctxUse = s.ctxUse := by
  rw [State.withCommand_eq]; rfl

@[simp] theorem State.withCommand_ctxGen : (s.withCommand c h).ctxGen = s.ctxGen := by
  rw [State.withCommand_eq]; rfl

@[simp] theorem State.withCommand_mem : (s.withCommand c h).mem = s.mem := by
  rw [State.withCommand_eq]; rfl

@[simp] theorem State.withCommand_undef : (s.withCommand c h).undef = s.undef := by
  rw [State.withCommand_eq]; rfl

@[simp] theorem State.withCommand_out : (s.withCommand c h).out = s.out := by
  rw [State.withCommand_eq]; rfl

@[simp] theorem State.withCommand_memory : (s.withCommand c h).memory = s.memory := by
  rw [State.withCommand_eq]; rfl

@[simp] theorem State.withCommand_host_mboxes : (s.withCommand c h).host.mboxes = s.host.mboxes := by
  rw [State.withCommand_eq]; rfl

@[simp] theorem State.withCommand_host_qps : (s.withCommand c h).host.qps = s.host.qps := by
  rw [State.withCommand_eq]; rfl

@[simp] theorem State.withCommand_host_ports : (s.withCommand c h).host.ports = s.host.ports := by
  rw [State.withCommand_eq]; rfl

@[simp] theorem State.withCommand_host_jobs : (s.withCommand c h).host.jobs = s.host.jobs := by
  rw [State.withCommand_eq]; rfl

@[simp] theorem State.withCommand_host_ended : (s.withCommand c h).host.ended = s.host.ended := by
  rw [State.withCommand_eq]; rfl

@[simp] theorem State.withCommand_host_ending : (s.withCommand c h).host.ending = s.host.ending := by
  rw [State.withCommand_eq]; rfl

@[simp] theorem State.withCommand_host_disables : (s.withCommand c h).host.disables = s.host.disables := by
  rw [State.withCommand_eq]; rfl


@[simp] theorem State.withCommand_mbox (m : Nat) : (s.withCommand c h).mbox m = s.mbox m := by
  simp only [State.mbox, State.withCommand_host_mboxes]

@[simp] theorem State.withCommand_reg (r : Reg) (i : Nat) : (s.withCommand c h).reg r i = s.reg r i := by
  simp only [State.reg, State.withCommand_regs]

@[simp] theorem State.withCommand_cfg (r : Reg) (i lo n : Nat) : (s.withCommand c h).cfg r i lo n = s.cfg r i lo n := by
  simp only [State.cfg, State.withCommand_reg]

@[simp] theorem State.withCommand_disableOf (f j : Nat) : (s.withCommand c h).disableOf f j = s.disableOf f j := by
  simp only [State.disableOf, State.withCommand_host_disables]

@[simp] theorem State.withCommand_funcState (f j : Nat) : (s.withCommand c h).funcState f j = s.funcState f j := by
  simp only [State.funcState, State.withCommand_disableOf]

@[simp] theorem State.withCommand_ticking : (s.withCommand c h).ticking = s.ticking := by
  simp only [State.ticking, State.withCommand_tick]

end

/-- A command whose own rule waits in a state. -/
theorem waits_with {s u : State} {c : Instr} {h : CmdHdr} {code : Nat} {k : WaitKey} {result : List Byte}
    {made : Option Nat} {P : State → Prop} (hc : cmdOf c = some (code, h)) (ht : s.takesNow c h = true)
    (hr : (s.withCommand c h).runCmd c h = (.wait k result made, u)) (hp : P u) :
    ∃ u, Waits s c u k result made ∧ P u := ⟨u, waits_of_run hc ht hr, hp⟩

end Sys2Proof.Machine
end

section

-- One declaration after another: elaborated side by side, they take more threads than the check allows.
set_option Elab.async false

/-! Host ports, queue pairs, jobs and functions by command (R298–R301, R320–R324). -/

namespace Sys2Proof.Machine

open Sys2Proof (Instr CmdHdr Ref)

/-! ## Values packed -/

/-- Two values of four bytes follow each other (R318). -/
theorem packValues_four_four (a b : Nat) : packValues [(4, a), (4, b)] = leBytes 4 a ++ leBytes 4 b := by
  simp [packValues, argAlign, ceilDiv, zeros]

theorem packValues_four_four_length (a b : Nat) : (packValues [(4, a), (4, b)]).length = 8 := by
  simp [packValues_four_four]

theorem getLE_packValues_four_four {a : Nat} (h : a < 2 ^ 32) (b : Nat) : getLE (packValues [(4, a), (4, b)]) 0 4 = a := by
  have htake : ((leBytes 4 a ++ leBytes 4 b).drop 0).take 4 = leBytes 4 a := by
    rw [List.drop_zero, List.take_left' (leBytes_length 4 a)]
  rw [packValues_four_four, getLE, htake, leNat_leBytes]
  exact Nat.mod_eq_of_lt (by omega)

/-! ## Host ports and queue pairs -/

/-- A port that a queue pair uses is not configured. -/
theorem State.hostPortConfig_used {s : State} {p q : Nat} {x : QpSt} (hm : (q, x) ∈ s.host.qps) (hx : x.port = p)
    (fl pfc vlan v4 v6 : Nat) : s.hostPortConfig p fl pfc vlan v4 v6 = denied s Status.opBusy := by
  have hany : (s.host.qps.vals.any fun q => q.port == p) = true :=
    List.any_eq_true.2 ⟨x, List.mem_map.2 ⟨_, hm, rfl⟩, by simp [hx]⟩
  rw [State.hostPortConfig, if_pos hany]

/-- A port that no queue pair uses is configured. -/
theorem State.hostPortConfig_unused {s : State} {p : Nat} (hm : ∀ q x, (q, x) ∈ s.host.qps → x.port ≠ p)
    (fl pfc vlan v4 v6 : Nat) : s.hostPortConfig p fl pfc vlan v4 v6 = finished (s.setHost fun h => { h with
      ports := h.ports.upd p {} fun x => { x with flags := fl, pfcPriority := pfc, vlan := vlan, ipv4 := v4, ipv6 := v6 } }) := by
  have hany : ¬(s.host.qps.vals.any fun q => q.port == p) = true := by
    simp only [List.any_eq_true, NMap.vals, List.mem_map, beq_iff_eq, not_exists, not_and]
    rintro x ⟨⟨q, y⟩, hy, rfl⟩
    exact hm q y hy
  rw [State.hostPortConfig, if_neg hany]

/-- A number in a range of numbers. -/
theorem mem_rangeFrom {a n q : Nat} : q ∈ rangeFrom a n ↔ a ≤ q ∧ q < a + n := by
  simp only [rangeFrom, List.mem_map, List.mem_range]
  constructor
  · rintro ⟨i, hi, rfl⟩
    omega
  · exact fun h => ⟨q - a, by omega, by omega⟩

/-- The first number of a range that satisfies a test. -/
theorem find?_rangeFrom {a n q : Nat} {p : Nat → Bool} (ha : a ≤ q) (hn : q < a + n) (hq : p q = true)
    (hlow : ∀ o, a ≤ o → o < q → p o = false) : (rangeFrom a n).find? p = some q := by
  have hfound : (List.range n).find? (p ∘ (a + ·)) = some (q - a) := by
    refine List.find?_range_eq_some.2 ⟨?_, List.mem_range.2 (by omega), fun j hj => ?_⟩
    · simpa [Nat.add_sub_cancel' ha] using hq
    · simpa using hlow (a + j) (by omega) (by omega)
  rw [rangeFrom, List.find?_map, hfound, Option.map_some, Nat.add_sub_cancel' ha]

/-- The queue pair that HOST.QP_OPEN opens. -/
def openedQp (p dscp mtu qpn psn mac gid draw : Nat) : QpSt :=
  { port := p, dscp := dscp, mtu := mtu, hostQpn := qpn, hostPsn := psn, dstMac := mac, hostGid := gid, psnDraw := draw }

/-- A queue pair is opened under the lowest free number. -/
theorem State.hostQpOpen_lowest {s : State} {q : Nat} (hq : s.host.qps.get? q = none) (h1 : 0x100 ≤ q) (h2 : q < 0x1100)
    (hlow : ∀ o, 0x100 ≤ o → o < q → (s.host.qps.get? o).isSome = true) (p dscp mtu qpn psn mac gid : Nat) :
    s.hostQpOpen p dscp mtu qpn psn mac gid = finished
      (s.draw.2.setHost fun h => { h with qps := h.qps.set q (openedQp p dscp mtu qpn psn mac gid s.fresh) })
      (packValues [(4, q), (4, (Config.freeWord s.fresh).toNat % 2 ^ 24)]) := by
  have hfound : (rangeFrom 0x100 4096).find? (fun q => (s.host.qps.get? q).isNone) = some q :=
    find?_rangeFrom h1 (by omega) (Option.isNone_iff_eq_none.2 hq)
      fun o ho hlt => Option.isNone_eq_false_iff.2 (hlow o ho hlt)
  unfold State.hostQpOpen
  rw [hfound]
  rfl

/-- With every number taken no queue pair is opened. -/
theorem State.hostQpOpen_full {s : State} (hall : ∀ q, 0x100 ≤ q → q < 0x1100 → (s.host.qps.get? q).isSome = true)
    (p dscp mtu qpn psn mac gid : Nat) :
    s.hostQpOpen p dscp mtu qpn psn mac gid = denied s Status.capacityExceeded := by
  have hnone : (rangeFrom 0x100 4096).find? (fun q => (s.host.qps.get? q).isNone) = none :=
    List.find?_eq_none.2 fun q hq => by
      obtain ⟨h1, h2⟩ := mem_rangeFrom.1 hq
      rw [Option.isNone_eq_false_iff.2 (hall q h1 (by omega))]
      exact Bool.false_ne_true
  unfold State.hostQpOpen
  rw [hnone]

/-- HOST.QP_OPEN runs by its own rule. -/
theorem State.runCmd_hostQpOpen (s : State) (h k : CmdHdr) (p dscp mtu qpn psn mac gid : Nat) :
    s.runCmd (.hostQpOpen h p dscp mtu qpn psn mac gid) k = s.hostQpOpen p dscp mtu qpn psn mac gid := by
  simp only [State.runCmd]

/-- Whether a bound mailbox names a queue pair. -/
theorem State.qpBound_iff (s : State) (q : Nat) :
    (s.host.mboxes.vals.any fun b => b.qp.isSome && (b.qp == some q || b.dataQp == q)) = true ↔
      ∃ m b, (m, b) ∈ s.host.mboxes ∧ b.qp.isSome = true ∧ (b.qp = some q ∨ b.dataQp = q) := by
  simp [List.any_eq_true, NMap.vals]

/-- A queue pair that no bound mailbox names is closed; another is not. -/
theorem State.hostQpClose_open {s : State} {q : Nat} (hq : (s.host.qps.get? q).isSome = true) :
    s.hostQpClose q =
      if (s.host.mboxes.vals.any fun b => b.qp.isSome && (b.qp == some q || b.dataQp == q)) = true then
        denied s Status.opBusy
      else finished (s.setHost fun h => { h with qps := h.qps.erase q }) := by
  rw [State.hostQpClose, if_neg (by simpa using Option.isSome_iff_ne_none.1 hq)]

/-- Settles O43: host ports and queue pairs by command. -/
theorem hostPortCommands : Obligations.HostPortCommands := by
  unfold Obligations.HostPortCommands
  refine fun s h => ⟨fun p fl pfc vlan v4 v6 ht => ⟨fun hm => ?_, fun q x hm hx => ?_⟩,
    fun p dscp mtu qpn psn mac gid ht => ⟨fun q h1 h2 hlow hq => ?_, fun hall => ?_⟩,
    fun q ht => ⟨fun hq => ?_, fun hq => ⟨fun hm => ?_, fun m b hm hb hn => ?_⟩⟩⟩
  · refine ends_of_run rfl ht (State.hostPortConfig_unused (by simpa using hm) ..) (State.setHost_keepsBut _ _)
      ⟨?_, fun o ho => ?_, ?_⟩
    · simp
    · simp [NMap.getD_upd_ne _ _ _ _ ho]
    · simp
  · exact refuses_of_run rfl ht (State.hostPortConfig_used (by simpa using hm) hx ..)
  · refine ⟨_, openedQp p dscp mtu qpn psn mac gid s.fresh, packValues_four_four_length _ _,
      getLE_packValues_four_four (by omega) _, ends_of_run rfl ht
        ((State.runCmd_hostQpOpen ..).trans (State.hostQpOpen_lowest (by simpa using hq) h1 h2
          (by simpa only [State.withCommand_host_qps] using hlow) ..))
        (State.keepsBut_then (State.setHost_keepsBut _ _) (State.keepsBut_mono (State.draw_keepsBut _) (by decide)) rfl) ?_⟩
    refine ⟨?_, rfl, rfl, rfl, rfl, rfl, rfl, rfl, rfl, rfl, rfl⟩
    simp [State.draw]
  · exact refuses_of_run rfl ht ((State.runCmd_hostQpOpen ..).trans (State.hostQpOpen_full
      (by simpa only [State.withCommand_host_qps] using hall) ..))
  · exact refuses_of_run rfl ht (if_pos (by simp [hq]))
  · have hfree : ¬((s.withCommand (.hostQpClose h q) h).host.mboxes.vals.any fun b =>
        b.qp.isSome && (b.qp == some q || b.dataQp == q)) = true := by
      rw [State.qpBound_iff, State.withCommand_host_mboxes]
      rintro ⟨m, b, hmem, hb, hn⟩
      exact hn.elim (hm m b hmem hb).1 (hm m b hmem hb).2
    refine ends_of_run rfl ht ((State.hostQpClose_open (by simpa using hq)).trans (if_neg hfree))
      (State.setHost_keepsBut _ _) ⟨?_, fun o ho => ?_⟩
    · simp
    · simp [NMap.get?_erase_ne _ ho]
  · have hbound : ((s.withCommand (.hostQpClose h q) h).host.mboxes.vals.any fun b =>
        b.qp.isSome && (b.qp == some q || b.dataQp == q)) = true := by
      rw [State.qpBound_iff, State.withCommand_host_mboxes]
      exact ⟨m, b, hm, hb, hn⟩
    exact refuses_of_run rfl ht ((State.hostQpClose_open (by simpa using hq)).trans (if_pos hbound))

/-! ## What ending a job leaves of the host side -/

/-- Of the host side only disables have changed. -/
def State.disablesOnly (s t : State) : Prop := t.host = { s.host with disables := t.host.disables }

theorem State.disables_refl (s : State) : s.disablesOnly s := rfl

theorem State.disables_then {z s t : State} (h' : s.disablesOnly t) (h : z.disablesOnly s) : z.disablesOnly t := by
  rw [State.disablesOnly] at *
  rw [h', h]

theorem State.disables_keep {z s t : State} {ch : List Part} (h' : s.keepsBut ch t) (h : z.disablesOnly s)
    (hc : ch.contains .host = false) : z.disablesOnly t := by
  have hsame := State.keepsBut_host h' (by simpa using hc)
  rw [State.disablesOnly, hsame]
  exact h

theorem State.disables_foldl {α : Type} {z s : State} {f : State → α → State} {l : List α}
    (h : ∀ (s : State) x, s.disablesOnly (f s x)) (hs : z.disablesOnly s) : z.disablesOnly (l.foldl f s) := by
  induction l generalizing s with
  | nil => exact hs
  | cons a l ih => exact ih (State.disables_then (h s a) hs)

theorem State.disables_snd {α : Type} {z s : State} {a : α} {p : α × State} (hp : p = (a, s))
    (h : z.disablesOnly p.2) : z.disablesOnly s := by rw [hp] at h; exact h

theorem State.disables_with_ctxs {z s : State} (g) (h : z.disablesOnly s) : z.disablesOnly { s with ctxGen := g } := h

theorem State.workEnded_disables (s : State) (f job : Nat) (drained : Bool) :
    s.disablesOnly (s.workEnded f job drained) := rfl

theorem State.countEnded_disables (s : State) (before : List DisableSt) (job : Nat) (work : Nat → Nat) :
    s.disablesOnly (s.countEnded before job work) := rfl

theorem State.endInstance_disables (s : State) (ctx : Nat) (status : Nat) :
    s.disablesOnly (s.endInstance ctx status) := by
  unfold State.endInstance
  dsimp only
  repeat' first
    | with_reducible exact State.disables_refl _
    | with_reducible apply State.disables_keep (State.stamped_keepsBut _)
    | with_reducible apply State.disables_keep (State.bump_keepsBut _ _ _ _)
    | with_reducible apply State.disables_keep (State.countEnding_keepsBut _ _ _)
    | with_reducible apply State.disables_keep (State.findHedged_keepsBut _ _ _ _)
    | with_reducible apply State.disables_keep (State.setOp_keepsBut _ _ _)
    | with_reducible apply State.disables_keep (State.setColl_keepsBut _ _)
    | with_reducible apply State.disables_then (State.workEnded_disables _ _ _ _)
    | with_reducible apply State.disables_keep (State.sendComplete_keepsBut _ _ _ _ _ _ _ _ _)
    | with_reducible apply State.disables_keep (State.completeSettled_keepsBut _ _ _)
    | (with_reducible apply State.disables_foldl) <;> try intro _ _
    | refine State.disables_snd (by assumption) ?_
    | rfl
    | split
    | with_reducible apply State.disables_with_ctxs

theorem State.endInstances_disables (s : State) (inScope : Nat → Bool) (status : Nat) :
    s.disablesOnly (s.endInstances inScope status) := by
  unfold State.endInstances
  repeat' first
    | with_reducible exact State.disables_refl _
    | with_reducible apply State.disables_then (State.endInstance_disables _ _ _)
    | (with_reducible apply State.disables_foldl) <;> try intro _ _

theorem State.endRun_disables (s : State) (ctx : Nat) (status : Nat) : s.disablesOnly (s.endRun ctx status) := by
  unfold State.endRun
  dsimp only
  repeat' first
    | with_reducible exact State.disables_refl _
    | with_reducible apply State.disables_keep (State.dropBench_keepsBut _ _)
    | with_reducible apply State.disables_keep (State.cancelJobs_keepsBut _ _)
    | with_reducible apply State.disables_keep (State.withdraw_keepsBut _ _)
    | with_reducible apply State.disables_then (State.workEnded_disables _ _ _ _)
    | with_reducible apply State.disables_keep (State.setProg_keepsBut _ _ _)
    | with_reducible apply State.disables_keep (State.setEng_keepsBut _ _)
    | (with_reducible apply State.disables_foldl) <;> try intro _ _
    | rfl
    | split

theorem State.endRuns_disables (s : State) (inScope : Nat → Bool) (status : Nat) :
    s.disablesOnly (s.endRuns inScope status) := by
  unfold State.endRuns
  repeat' first
    | with_reducible exact State.disables_refl _
    | with_reducible apply State.disables_then (State.endRun_disables _ _ _)
    | (with_reducible apply State.disables_foldl) <;> try intro _ _

theorem State.stozilJobEnd_disables (s : State) (job : Nat) : s.disablesOnly (s.stozilJobEnd job) := by
  unfold State.stozilJobEnd
  dsimp only
  repeat' first
    | with_reducible exact State.disables_refl _
    | with_reducible apply State.disables_keep (State.withdraw_keepsBut _ _)
    | with_reducible apply State.disables_keep (State.bump_keepsBut _ _ _ _)
    | with_reducible apply State.disables_then (State.workEnded_disables _ _ _ _)
    | with_reducible apply State.disables_keep (State.stzReturn_keepsBut _ _)
    | with_reducible apply State.disables_keep (State.setStzEntries_keepsBut _ _)
    | (with_reducible apply State.disables_foldl) <;> try intro _ _
    | rfl
    | split

/-- Ending a job takes it from the jobs and puts it among the ending ones, whatever ends with it (R322). -/
theorem State.endJob_host (s : State) (j : Nat) : (s.endJob j).host.jobs = s.host.jobs.erase j ∧
    (s.endJob j).host.ending = s.host.ending ++ [j] := by
  delta State.endJob
  extract_lets work before only s1 s2 s3 s4 s5
  have h1 : s.disablesOnly s1 := State.endInstances_disables _ _ _
  have h2 : s.disablesOnly s2 := State.disables_keep (State.endBlocks_keepsBut _ _)
    (State.disables_then (State.endRuns_disables _ _ _) h1) rfl
  have h3 : s.disablesOnly s3 := State.disables_then (State.stozilJobEnd_disables _ _)
    (State.disables_keep (State.stashEnd_keepsBut _ _) h2 rfl)
  have h4 : s.disablesOnly s4 := State.disables_keep (State.reclaim_keepsBut _ _) (State.disables_keep
    (State.dropFlows_keepsBut _ _) (State.disables_keep (State.endContexts_keepsBut _ _) h3 rfl) rfl) rfl
  have h5 : s.disablesOnly s5 := State.disables_then (State.countEnded_disables _ _ _ _) h4
  clear_value s5
  rw [State.setHost_host, h5]
  exact ⟨rfl, rfl⟩

/-! ## Jobs and functions -/

/-- Whether a record is admitted does not depend on the command that asks. -/
theorem State.withCommand_admitRefusal (s : State) (c : Instr) (h : CmdHdr) (b : List Byte) :
    (s.withCommand c h).admitRefusal b = s.admitRefusal b := by
  rw [State.withCommand_eq]
  rfl

/-- A record that has been read is judged (R320). -/
theorem State.jobAdmit_read {s : State} {c : Instr} {h : CmdHdr} {r : Ref} {b : List Byte} (hp : s.topo.plan.isSome = true)
    (hr : s.readImage c h r 64 jobLength = .inr b) :
    (∀ st, s.admitRefusal b = some st → s.jobAdmit c h r = denied s st) ∧
    (s.admitRefusal b = none → s.jobAdmit c h r = finished (s.admitJob b)) := by
  have hplan : s.topo.plan.isNone = false := Option.isNone_eq_false_iff.2 hp
  simp only [State.jobAdmit, hplan, hr, Bool.false_eq_true, if_false]
  exact ⟨fun st ha => by rw [ha], fun ha => by rw [ha]⟩

/-- A disable is entered with its drain time, and in effect at once where no tick runs (R323). -/
theorem State.disable_entered {s : State} {f j : Nat} (hd : s.disableOf f j = none) (n : Nat) :
    (s.disable f j n).disableOf f j =
      some { func := f, job := j, drainTicks := if n = 0 then 4096 else n, inEffect := !s.ticking } := by
  rw [State.disableOf, State.disable, State.setHost_host]
  dsimp only
  rw [List.find?_append, ← State.disableOf, hd]
  simp

/-- A disable that has ended is gone, and no other (R324). -/
theorem State.enable_ended (s : State) (f j : Nat) : (s.enable f j).disableOf f j = none ∧
    ∀ g i, ¬(g = f ∧ i = j) → (s.enable f j).disableOf g i = s.disableOf g i := by
  simp only [State.disableOf, State.enable, State.setHost_host, List.find?_filter]
  constructor
  · refine List.find?_eq_none.2 fun d _ => ?_
    cases d.func == f && d.job == j <;> simp
  · intro g i hne
    congr 1
    funext d
    cases hd : d.func == g && d.job == i with
    | false => simp
    | true =>
      simp only [Bool.and_eq_true, beq_iff_eq] at hd
      have hkept : (d.func == f && d.job == j) = false := by
        rw [hd.1, hd.2]
        simpa using hne
      simp [hkept]

/-- Settles O44: jobs and functions by command. -/
theorem jobAndFunctionCommands : Obligations.JobAndFunctionCommands := by
  unfold Obligations.JobAndFunctionCommands
  refine fun s h => ⟨fun r b ht hp hr => ?_, fun r ht hp => ?_, fun j ht => ?_, fun j x r ht hx => ?_,
    fun f j n ht => ⟨fun hd => ?_, fun d hd hdone => ?_, fun d hd hdone => ?_⟩, fun f j ht => ⟨fun hst => ?_, fun hst => ?_⟩,
    fun f j ht => ?_⟩
  · obtain ⟨hden, hfin⟩ := State.jobAdmit_read (by simpa using hp) hr
    refine ⟨fun ha => ends_of_run rfl ht (hfin (by rw [State.withCommand_admitRefusal]; exact ha))
      (State.admitJob_keepsBut _ _) ⟨?_, ?_⟩, fun st ha =>
      refuses_of_run rfl ht (hden st (by rw [State.withCommand_admitRefusal]; exact ha))⟩
    · simp [State.admitJob, State.dropFlows]
    · simp [State.admitJob]
  · exact refuses_of_run rfl ht (if_pos (by simp [hp]))
  · obtain ⟨hjobs, hending⟩ := (s.withCommand (.jobEnd h j) h).endJob_host j
    refine ⟨_, waits_of_run rfl ht rfl, ?_, ?_, fun i hi => ?_⟩
    · rw [hjobs, NMap.get?_erase]
    · rw [hending]; simp
    · rw [hjobs, NMap.get?_erase_ne _ hi, State.withCommand_host_jobs]
  · refine reports_of_run rfl ht ?_
    simp only [State.runCmd, State.jobStatus, State.withCommand_host_jobs, hx]
  · have hrun : (s.withCommand (.funcDisable h f j n) h).disableOf f j = none := by simpa using hd
    refine ⟨_, waits_of_run rfl ht ?_, State.disable_entered hrun n |>.trans (by simp), State.disable_keepsBut _ _ _ _⟩
    simp only [State.runCmd, State.funcDisable, hrun]
  · refine refuses_of_run rfl ht ?_
    simp only [State.runCmd, State.funcDisable, State.withCommand_disableOf, hd, hdone, Bool.false_eq_true, if_false]
    rfl
  · refine ends_of_run rfl ht ?_ (State.keepsBut_refl _ _) trivial
    simp only [State.runCmd, State.funcDisable, State.withCommand_disableOf, hd, hdone, if_true]
    rfl
  · exact refuses_of_run rfl ht (if_pos (by simpa using hst))
  · obtain ⟨hgone, hother⟩ := (s.withCommand (.funcEnable h f j) h).enable_ended f j
    exact ends_of_run rfl ht (if_neg (by simpa using hst)) (State.enable_keepsBut _ _ _)
      ⟨hgone, fun g i hne => by rw [hother g i hne, State.withCommand_disableOf]⟩
  · refine ends_of_run rfl ht ?_ (State.keepsBut_refl _ _) trivial
    simp only [State.runCmd, State.funcStatus, State.withCommand_funcState]
    rfl

end Sys2Proof.Machine
end

section

-- One declaration after another: elaborated side by side, they take more threads than the check allows.
set_option Elab.async false

/-! The register writes that have rows of their own: a write of the tick's period leaves the period as it was (R34). -/

namespace Sys2Proof.Machine

open Sys2Proof (Instr CmdHdr)

/-! ## The fields of TICK_CONFIG -/

theorem bits_period (w : Nat) : bits w 1 0 = w % 4 := by simp [bits]

theorem bit_enable (w : Nat) : bit w 10 = decide (w / 1024 % 2 = 1) := by simp [bit, Nat.testBit_eq_decide_div_mod_eq]

theorem setField_period (w p : Nat) : setField w 0 2 p = w - w % 4 + p % 4 := by simp [setField, bits]

theorem setField_priority (w v : Nat) : setField w 2 8 v = w - w / 4 % 256 * 4 + v % 256 * 4 := by
  simp [setField, bits, Nat.shiftRight_eq_div_pow]

/-! ## Accepted writes -/

theorem State.writeReg_accepted {s : State} {r : Reg} {a i v : Nat} (ha : regAt a = some (r, i))
    (hr : s.writeReason r i v = none) : s.writeReg a v = finished (s.regWrite r i v) := by
  simp only [State.writeReg, ha, hr]

/-- With tick_enable 0 a write of TICK_CONFIG that does not set it, with a period of Table 2.1, is accepted (R34). -/
theorem State.writeReason_tickConfig {s : State} {v : Nat} (hv : v % 4 ≤ 2) (hs : s.tickEnable = false)
    (hb : bit v 10 = false) : s.writeReason .tickConfig 0 v = none := by
  have hvalue : valueOk .tickConfig v = true := by simpa [valueOk, fieldIn, bits] using hv
  have hwritable : Reg.tickConfig.writable 0 = true := by decide
  have hphase : s.phaseWritable .tickConfig v = true := by simp [State.phaseWritable, hs, hb]
  simp [State.writeReason, hwritable, hvalue, hphase, State.relationOk, State.underLimit]

/-- An accepted write of TICK_CONFIG that does not set tick_enable leaves the period as it was: the word stored last is made
from the word before the write. -/
theorem State.writeTickConfig_period {s : State} {v : Nat} (hb : bit v 10 = false) : (s.writeTickConfig v).period = s.period := by
  have hword : (s.writeTickConfig v).reg .tickConfig = setField (s.reg .tickConfig) 2 8 (bits v 9 2) := by
    rw [State.writeTickConfig, hb]
    exact State.reg_setReg _ _ _ _
  rw [State.period, hword, State.period, bits_period, bits_period, setField_priority]
  omega

theorem State.writeTickConfig_stopped_keepsBut {s : State} {v : Nat} (hb : bit v 10 = false) :
    s.keepsBut [.fresh, .regs, .mgt, .sw, .out] (s.writeTickConfig v) := by
  rw [State.writeTickConfig, hb]
  exact State.keepsBut_then (State.setReg_keepsBut _ _ _ _) (s.setPeriod_keepsBut _) rfl

/-! ## A module in UNCARVED, with the tick off and no command in it -/

/-- A module in UNCARVED, as it is right after reset but for the phase. -/
def uncarvedModule : State := { State.reset with boot := { State.reset.boot with phase := Phase.uncarved } }

/-- The write of period 2 over mailbox 0. -/
def periodWrite : Instr := .tickPeriodWrite {} 2

theorem uncarvedModule_takes : uncarvedModule.takesNow periodWrite {} = true := rfl

/-- The parts that a write of the period may change, as the statement says. -/
def periodParts : List Part := [.regs, .tick, .sw, .mgt, .fresh, .out]

/-- The word that the write of the period writes. -/
def periodWord : Nat := setField ((uncarvedModule.withCommand periodWrite {}).reg .tickConfig) 0 2 2

/-- What the host side is when the completion is held for mailbox 0, which no queue pair is bound to. -/
def heldCompletion (stamp : Stamp) : HostSt :=
  { (uncarvedModule.withCommand periodWrite {}).host with
    ctxs := []
    mboxes := [(0, { held := [{ number := 0, code := codeOf periodWrite, status := Status.ok, detail := 0, stamp := stamp, result := [] }] })] }

/-- Whatever of these parts the write has changed, its completion is held and nothing is left to settle. -/
theorem uncarvedModule_completes {u : State} (hk : (uncarvedModule.withCommand periodWrite {}).keepsBut periodParts u) :
    (u.complete (uncarvedModule.ctxFor periodWrite {}) Status.ok).settle =
      { u.stamped with host := heldCompletion u.stamp } := by
  have hhost : u.host = (uncarvedModule.withCommand periodWrite {}).host := State.keepsBut_host hk
  have hstep : u.complete (uncarvedModule.ctxFor periodWrite {}) Status.ok =
      { u.stamped with host := heldCompletion u.stamp } := by
    simp only [State.complete, State.deliver, State.setHost, State.setMbox, State.mbox, State.stamped, hhost]
    rfl
  have hcalm : ({ u.stamped with host := heldCompletion u.stamp } : State).calm = true := by
    have hflt : u.flt = (uncarvedModule.withCommand periodWrite {}).flt := State.keepsBut_flt hk
    have hflow : u.flow = (uncarvedModule.withCommand periodWrite {}).flow := State.keepsBut_flow hk
    have htopo : u.topo = (uncarvedModule.withCommand periodWrite {}).topo := State.keepsBut_topo hk
    have heng : u.eng = (uncarvedModule.withCommand periodWrite {}).eng := State.keepsBut_eng hk
    have hcoll : u.coll = (uncarvedModule.withCommand periodWrite {}).coll := State.keepsBut_coll hk
    have hparm : u.parm = (uncarvedModule.withCommand periodWrite {}).parm := State.keepsBut_parm hk
    have hstash : u.stash = (uncarvedModule.withCommand periodWrite {}).stash := State.keepsBut_stash hk
    have hboot : u.boot = (uncarvedModule.withCommand periodWrite {}).boot := State.keepsBut_boot hk
    simp only [State.calm, State.stamped, hflt, hflow, htopo, heng, hcoll, hparm, hstash, hboot]
    rfl
  rw [hstep, State.settle_of_calm hcalm]

/-- What the write really leads to. -/
theorem uncarvedModule_writes : (uncarvedModule.withCommand periodWrite {}).runCmd periodWrite {} =
    finished ((uncarvedModule.withCommand periodWrite {}).writeTickConfig periodWord) := by
  have hreason : (uncarvedModule.withCommand periodWrite {}).writeReason .tickConfig 0 periodWord = none :=
    State.writeReason_tickConfig (by decide) rfl (by decide)
  have hat : regAt (regAddr .tickConfig 0) = some (.tickConfig, 0) := regAt_regAddr (by decide)
  have hdone := State.writeReg_accepted hat hreason
  rw [← show (uncarvedModule.withCommand periodWrite {}).regWrite .tickConfig 0 periodWord =
    (uncarvedModule.withCommand periodWrite {}).writeTickConfig periodWord from rfl, ← hdone]
  simp only [State.runCmd, periodWrite, State.regWriteOf, periodWord]

/-- Refutes O47: in UNCARVED with period 1, the write of period 2 leaves period 1. -/
theorem not_writesWithRowsOfTheirOwn : ¬ Obligations.WritesWithRowsOfTheirOwn := by
  unfold Obligations.WritesWithRowsOfTheirOwn
  intro h
  obtain ⟨_, _, _, hwrite, _⟩ := h uncarvedModule {}
  obtain ⟨u, hdone, hkeep, hperiod, _⟩ := hwrite 2 le_rfl uncarvedModule_takes rfl
  let v := (uncarvedModule.withCommand periodWrite {}).writeTickConfig periodWord
  have hreal : Completes uncarvedModule periodWrite {} v Status.ok [] :=
    completes_of_run rfl uncarvedModule_takes uncarvedModule_writes
  have hkept : (uncarvedModule.withCommand periodWrite {}).keepsBut periodParts v :=
    State.keepsBut_mono (State.writeTickConfig_stopped_keepsBut (by decide)) (by decide)
  have hstated : Completes uncarvedModule periodWrite {} u Status.ok [] := hdone
  have hsame := Host.Outcome.next.inj (hstated.symm.trans hreal)
  rw [uncarvedModule_completes hkeep, uncarvedModule_completes hkept] at hsame
  have hregs := congrArg (fun w : State => w.regs) hsame
  have hperiods : u.period = v.period := congrArg (fun w => bits w 1 0) (State.reg_congr (t := u) hregs .tickConfig 0)
  have hold : v.period = 1 := State.writeTickConfig_period (by decide)
  rw [hperiod, hold] at hperiods
  exact absurd hperiods (by decide)

end Sys2Proof.Machine
end

section

-- One declaration after another: elaborated side by side, they take more threads than the check allows.
set_option Elab.async false

/-! The carving and the resets by command (R331, R338–R342). -/

namespace Sys2Proof.Machine

open Sys2Proof (Instr CmdHdr Ref)

/-! ## Cleared memory -/

/-- What a filter of device memory leaves of an address. -/
theorem Memory.read_filter (m : List Host.Cell) (p : Nat → Bool) (a : Nat) :
    Memory.read (m.filter fun c => p c.1) a = if p a = true then Memory.read m a else 0 := by
  induction m with
  | nil => simp [Memory.read, NMap.get?]
  | cons c m ih =>
    simp only [Memory.read] at *
    by_cases hc : c.1 = a
    · subst hc
      cases hp : p c.1 <;> simp_all [NMap.get?]
    · cases hp : p c.1 <;> simp_all [NMap.get?]

/-- A cleared byte reads zero. -/
theorem State.byte_clearMem_in (s : State) {a n b : Nat} (h1 : a ≤ b) (h2 : b < a + n) : (s.clearMem a n).byte b = 0 := by
  rw [State.byte, State.clearMem_undef, undef_written h1 h2]
  dsimp only
  rw [State.clearMem_mem, Memory.read_filter _ (fun x => decide (x < a) || decide (a + n ≤ x)), if_neg]
  simp; omega

/-- A byte outside the cleared ones reads as before. -/
theorem State.byte_clearMem_out (s : State) {a n b : Nat} (h : b < a ∨ a + n ≤ b) : (s.clearMem a n).byte b = s.byte b := by
  have hread : Memory.read (s.clearMem a n).mem b = Memory.read s.mem b := by
    rw [State.clearMem_mem, Memory.read_filter _ (fun x => decide (x < a) || decide (a + n ≤ x)), if_pos]
    simpa using h
  have hundef := undef_elsewhere h s.undef
  rw [State.byte, State.clearMem_undef, State.byte, hread]
  cases ha : (s.undef.flatMap (cutRange a n)).find? (rangeHas b) <;> cases hb : s.undef.find? (rangeHas b) <;>
    simp_all

/-- What reads zero, or lies outside, stays so when more is cleared. -/
theorem State.byte_clearMem_zero {s : State} {b : Nat} (h : s.byte b = 0) (a n : Nat) : (s.clearMem a n).byte b = 0 := by
  by_cases hb : a ≤ b ∧ b < a + n
  · exact s.byte_clearMem_in hb.1 hb.2
  · rw [State.byte_clearMem_out _ (by omega), h]

/-- The base SRAM of the tiles of a list, cleared. -/
def State.clearSrams (s : State) (l : List Nat) : State :=
  l.foldl (fun (s : State) k => s.clearMem (sramBase k) 0x08000000) s

theorem State.byte_clearSrams_zero {s : State} {b : Nat} (h : s.byte b = 0) (l : List Nat) : (s.clearSrams l).byte b = 0 := by
  induction l generalizing s with
  | nil => exact h
  | cons k l ih => exact ih (State.byte_clearMem_zero h _ _)

theorem State.byte_clearSrams_in {s : State} {k i : Nat} {l : List Nat} (hk : k ∈ l) (hi : i < 0x08000000) :
    (s.clearSrams l).byte (sramBase k + i) = 0 := by
  induction l generalizing s with
  | nil => simp at hk
  | cons j l ih =>
    rcases List.mem_cons.1 hk with rfl | hk
    · exact State.byte_clearSrams_zero (s.byte_clearMem_in (by omega) (by omega)) l
    · exact ih hk

theorem State.byte_clearSrams_out {s : State} {a : Nat} {l : List Nat}
    (h : ∀ k ∈ l, a < sramBase k ∨ sramBase k + 0x08000000 ≤ a) : (s.clearSrams l).byte a = s.byte a := by
  induction l generalizing s with
  | nil => rfl
  | cons k l ih =>
    exact (ih fun j hj => h j (List.mem_cons_of_mem _ hj)).trans (s.byte_clearMem_out (h k List.mem_cons_self))

/-- Clearing the SRAM changes memory alone. -/
theorem State.clearSrams_keepsBut (s : State) (l : List Nat) : s.keepsBut [.mem] (s.clearSrams l) :=
  State.foldl_keepsBut (fun _ _ => State.clearMem_keepsBut _ _ _) l s

/-! ## The carving -/

/-- What a carving makes of the pools (R331). -/
def carvedPools (staging base : Nat) : PoolSt :=
  { State.reset.pool with
    p1 := 4 * staging, p2 := 4 * staging, p3 := 8 * staging, modes := 0, p4count := 1024, p4base := base }

/-- A carving, once its shares are recorded and the SRAM is cleared. -/
def State.laidOut (s : State) (p r g z : Nat) : State :=
  let s := s.setBoot fun b => { b with carving := some ⟨p, r, g, z == 1⟩ }
  { s with pool := carvedPools g ((s.usable / span - 1024) * span) }.clearSrams (List.range 8)

theorem State.carve_eq (s : State) (p r g z : Nat) :
    s.carve p r g z = (s.laidOut p r g z).assignSubstitutes.enter Phase.carved := rfl

theorem State.laidOut_keepsBut (s : State) (p r g z : Nat) : s.keepsBut [.boot, .pool, .mem] (s.laidOut p r g z) := by
  have hset : ∀ x, s.keepsBut [.boot, .pool] { s.setBoot (fun b => { b with carving := some ⟨p, r, g, z == 1⟩ }) with pool := x } :=
    fun x => State.keepsBut_with_pool x (State.keepsBut_then (s.setBoot_keepsBut _) (State.keepsBut_refl _ _) rfl) rfl
  exact State.keepsBut_then (State.clearSrams_keepsBut _ _) (State.keepsBut_mono (hset _) (by decide)) rfl

/-- What a carving has led to. -/
theorem State.carve_left (s : State) (p r g z : Nat) :
    (s.carve p r g z).boot.phase = Phase.carved ∧ (s.carve p r g z).boot.carving = some ⟨p, r, g, z == 1⟩ ∧
    (∃ base, (s.carve p r g z).pool = carvedPools g base) ∧ ∀ a, (s.carve p r g z).byte a = (s.laidOut p r g z).byte a := by
  have hsub := (s.laidOut p r g z).assignSubstitutes_keepsBut
  have hall := State.keepsBut_then ((s.laidOut p r g z).assignSubstitutes.enter_keepsBut Phase.carved 0)
    (State.keepsBut_mono hsub (show [Part.flt] ⊆ [.flt, .fresh, .regs, .boot, .mgt, .out] by decide)) rfl
  rw [← State.carve_eq] at hall
  have hmem := State.keepsBut_memory hall
  have hclear := State.clearSrams_keepsBut (({ s.setBoot (fun b => { b with carving := some ⟨p, r, g, z == 1⟩ }) with
    pool := carvedPools g (((s.setBoot fun b => { b with carving := some ⟨p, r, g, z == 1⟩ }).usable / span - 1024) * span) } :
      State)) (List.range 8)
  refine ⟨?_, ?_, ⟨_, (State.keepsBut_pool hall).trans (State.keepsBut_pool hclear)⟩, fun a => ?_⟩
  · rw [State.carve_eq, State.enter_boot]
  · rw [State.carve_eq, State.enter_boot, State.keepsBut_boot hsub]
    exact congrArg BootSt.carving (State.keepsBut_boot hclear)
  · simp only [State.memory, Prod.mk.injEq] at hmem
    rw [State.byte, State.byte, hmem.1, hmem.2]

/-- A carving that Table 14.4 allows is not refused. -/
theorem State.carveRefusal_none {s : State} {p r g z : Nat} (hph : s.boot.phase = Phase.uncarved) (hp2 : 2 ≤ p) (hp6 : p ≤ 6)
    (hr : r ≤ 6) (hg : g ≤ 4) (hz : z ≤ 1) (hsum : p + r + g = 8) (hz2 : z = 1 → 2 ≤ r) : s.carveRefusal p r g z = none := by
  rw [State.carveRefusal, if_neg (by omega), if_neg (by omega), if_neg (by simpa using hph), if_neg (by simpa using hsum),
    if_neg fun h => by have := hz2 h.1; omega]

/-! ## A tile's reset -/

theorem State.engine_setEngine (s : State) (k : Nat) (f : EngSt → EngSt) : (s.setEngine k f).engine k = f (s.engine k) := by
  simp [State.engine, State.setEngine, State.setEng, NMap.getD, NMap.get?_set]

theorem State.engine_setEngine_ne (s : State) {k e : Nat} (f : EngSt → EngSt) (h : e ≠ k) :
    (s.setEngine k f).engine e = s.engine e := by
  simp [State.engine, State.setEngine, State.setEng, NMap.getD, NMap.get?_set_ne _ _ h]

theorem State.engine_congr {s t : State} (h : t.eng.engines = s.eng.engines) (e : Nat) : t.engine e = s.engine e := by
  rw [State.engine, State.engine, h]

/-- Retiring an engine leaves its jobs, and every other engine. -/
theorem State.engineRetired_engine (s : State) (k cause : Nat) :
    (s.engineRetired k cause).engine k = { s.engine k with state := 4, fault := cause != 0, forTest := false } ∧
    ∀ e, e ≠ k → (s.engineRetired k cause).engine e = s.engine e := by
  have heng : ∀ e, (s.engineRetired k cause).engine e =
      (s.setEngine k fun x => { x with state := 4, fault := cause != 0, forTest := false }).engine e :=
    fun e => State.engine_congr (by simp [State.engineRetired]) e
  exact ⟨by rw [heng, State.engine_setEngine], fun e he => by rw [heng, State.engine_setEngine_ne _ _ he]⟩

/-- An engine without jobs that is on its way out of service still has none. -/
theorem State.engineIdle_engine (s : State) (k : Nat) :
    ((s.engineIdle k).engine k).running = (s.engine k).running ∧ ((s.engineIdle k).engine k).assigned = (s.engine k).assigned ∧
    ∀ e, e ≠ k → (s.engineIdle k).engine e = s.engine e := by
  obtain ⟨hk, hne⟩ := s.engineRetired_engine k 0
  simp only [State.engineIdle]
  split
  · exact ⟨by rw [hk], by rw [hk], hne⟩
  · exact ⟨rfl, rfl, fun _ _ => rfl⟩

/-- An engine whose jobs a tile reset takes away. -/
def EngSt.stopped (x : EngSt) : EngSt :=
  { x with running := none, assigned := none, suppressed := false, late := false, active := {}, next := {} }

/-- One engine of a tile that is reset gives its jobs back to the tile's queue. -/
def State.stopEngine (t : Nat) (s : State) (k : Nat) : State :=
  let e := s.engine k
  let back := e.assigned.toList ++ (if e.suppressed then [] else e.running.toList)
  if back.isEmpty && e.running.isNone then s
  else ((s.setEngine k EngSt.stopped).setQueue t (back ++ s.queue t)).engineIdle k

theorem State.stopTile_eq (s : State) (t : Nat) : s.stopTile t = (tileEngines t).foldl (State.stopEngine t)
    (s.setEng fun e => { e with inReset := if e.inReset.contains t then e.inReset else t :: e.inReset }) := rfl

/-- An engine that was stopped has no job; another one is as it was. -/
theorem State.stopEngine_engine (t : Nat) (s : State) (k : Nat) :
    (((s.stopEngine t k).engine k).running = none ∧ ((s.stopEngine t k).engine k).assigned = none) ∧
    ∀ e, e ≠ k → (s.stopEngine t k).engine e = s.engine e := by
  delta State.stopEngine
  extract_lets e back
  split
  next hidle =>
    simp only [Bool.and_eq_true, Option.isNone_iff_eq_none, List.isEmpty_iff, back, List.append_eq_nil_iff,
      Option.toList_eq_nil_iff] at hidle
    exact ⟨⟨hidle.2, hidle.1.1⟩, fun _ _ => rfl⟩
  next =>
    have hset : ∀ i, ((s.setEngine k EngSt.stopped).setQueue t (back ++ s.queue t)).engine i =
        (s.setEngine k EngSt.stopped).engine i := fun i => State.engine_congr rfl i
    obtain ⟨hrun, hasg, hne⟩ := ((s.setEngine k EngSt.stopped).setQueue t (back ++ s.queue t)).engineIdle_engine k
    exact ⟨⟨by rw [hrun, hset, State.engine_setEngine]; rfl, by rw [hasg, hset, State.engine_setEngine]; rfl⟩,
      fun i hi => by rw [hne i hi, hset, State.engine_setEngine_ne _ _ hi]⟩

/-- Engines stopped one after another: those named have no job, the others are as they were. -/
theorem State.stopEngines_engine (t : Nat) (l : List Nat) (s : State) :
    (∀ e ∈ l, ((l.foldl (State.stopEngine t) s).engine e).running = none ∧
      ((l.foldl (State.stopEngine t) s).engine e).assigned = none) ∧
    ∀ e, e ∉ l → (l.foldl (State.stopEngine t) s).engine e = s.engine e := by
  induction l generalizing s with
  | nil => exact ⟨by simp, fun _ _ => rfl⟩
  | cons k l ih =>
    obtain ⟨hin, hout⟩ := ih (s.stopEngine t k)
    obtain ⟨hk, hne⟩ := State.stopEngine_engine t s k
    refine ⟨fun e he => ?_, fun e he => ?_⟩
    · by_cases hel : e ∈ l
      · exact hin e hel
      · rw [List.foldl_cons, hout e hel, (List.mem_cons.1 he).resolve_right hel]
        exact hk
    · rw [List.mem_cons, not_or] at he
      rw [List.foldl_cons, hout e he.2, hne e he.1]

/-- A rail that was powered again is on; nothing but the rails changes. -/
theorem State.repower_left (s : State) (k : Nat) :
    ((s.repower k).tilePwr k).railOff = false ∧ (s.repower k).eng = s.eng ∧ s.keepsBut [.boot, .pwr] (s.repower k) := by
  refine ⟨?_, State.keepsBut_eng (s.repower_keepsBut k), s.repower_keepsBut k⟩
  simp only [State.repower]
  split
  · rw [State.tilePwr_setTilePwr]
  next h => simpa using h

/-! ## What a data-plane reset empties -/

/-- The operations, the blocks and the stash are gone after a data-plane reset, and the queue waits on (Table 14.5). -/
theorem State.dataPlaneReset_empties (s : State) : s.dataPlaneReset.coll.ops = [] ∧ s.dataPlaneReset.parm.blocks = [] ∧
    s.dataPlaneReset.stash.ents = [] ∧ s.dataPlaneReset.pending = s.pending := by
  have hk := (s.withoutData.restartPlan.setBoot fun b =>
    { b with kept := some s.keptPhase, epoch := b.epoch + 1 }).enter_keepsBut Phase.memory 0
  rw [State.dataPlaneReset, State.keepsBut_coll hk, State.keepsBut_parm hk, State.keepsBut_stash hk, State.keepsBut_pending hk]
  exact ⟨rfl, rfl, rfl, rfl⟩

/-! ## The commands -/

theorem State.withCommand_carveRefusal (s : State) (c : Instr) (h : CmdHdr) (p r g z : Nat) :
    (s.withCommand c h).carveRefusal p r g z = s.carveRefusal p r g z := by
  simp only [State.carveRefusal, State.withCommand_boot]

theorem State.withCommand_bigReset (s : State) (c : Instr) (h : CmdHdr) : (s.withCommand c h).bigReset = s.bigReset := by
  simp only [State.bigReset, State.withCommand_boot]

theorem State.withCommand_keptPhase (s : State) (c : Instr) (h : CmdHdr) : (s.withCommand c h).keptPhase = s.keptPhase := by
  simp only [State.keptPhase, State.withCommand_boot, State.withCommand_topo]

theorem State.withCommand_portTied (s : State) (c : Instr) (h : CmdHdr) (p : Nat) :
    (s.withCommand c h).portTied p = s.portTied p := by
  rw [State.withCommand_eq]; rfl

theorem State.withCommand_byte (s : State) (c : Instr) (h : CmdHdr) (a : Nat) : (s.withCommand c h).byte a = s.byte a := by
  simp only [State.byte, State.withCommand_mem, State.withCommand_undef]

theorem State.withCommand_tilePwr (s : State) (c : Instr) (h : CmdHdr) (k : Nat) :
    (s.withCommand c h).tilePwr k = s.tilePwr k := by
  rw [State.withCommand_eq]; rfl

theorem State.withCommand_engine (s : State) (c : Instr) (h : CmdHdr) (k : Nat) :
    (s.withCommand c h).engine k = s.engine k := by
  rw [State.withCommand_eq]; rfl

/-- Links that are enabled (R333). -/
def State.linksOn (s : State) : State := { s with link := { s.link with enabled := true } }

/-- A DISABLED or FAILED port that is enabled enters DETECT, its attempts forgotten. -/
theorem State.enablePort_opened {s : State} {p : Nat} (h : (s.port p).state = 0 ∨ (s.port p).state = 6) :
    s.enablePort p = (s.linksOn.portState p 1).setPort p fun P => { P with attempts := 0 } :=
  if_pos (show ((s.port p).state = 0 || (s.port p).state = 6) = true by simpa using h)

theorem State.enablePort_port {s : State} {p : Nat} (h : (s.port p).state = 0 ∨ (s.port p).state = 6) :
    (s.enablePort p).port p = { (s.port p).entered 1 with attempts := 0 } := by
  rw [State.enablePort_opened h, State.port_setPort, State.portState_port]
  rfl

/-- A port disabled and enabled again is in DETECT with no attempt counted (R341). -/
theorem State.disabled_enabled (s : State) (p : Nat) : (((s.disablePort p).enablePort p).port p).state = 1 ∧
    (((s.disablePort p).enablePort p).port p).attempts = 0 ∧ (((s.disablePort p).enablePort p).port p).width = 0 := by
  have h0 : ((s.disablePort p).port p).state = 0 := by
    rw [State.disablePort, State.portState_port]
    rfl
  rw [State.enablePort_port (.inl h0)]
  exact ⟨rfl, rfl, rfl⟩

/-- Settles O48: the carving and the resets by command. -/
theorem setupAndResetCommands : Obligations.SetupAndResetCommands := by
  unfold Obligations.SetupAndResetCommands
  refine fun s h => ⟨fun p r g z ht => ⟨fun st d hc => ?_, fun hph hp2 hp6 hr hg hz hsum hz2 => ?_⟩,
    fun ht => ⟨fun hd => ?_, fun hd => ?_⟩, fun ht => ⟨fun hp => ?_, fun hp hb => ?_, fun hp hb => ?_⟩,
    fun k ht => ⟨fun hp => ?_, fun hp hb => ?_, fun hp hb hk hrail => ?_⟩,
    fun p ht => ⟨fun hp => ?_, fun hp hb => ?_, fun hp hb htied => ?_⟩⟩
  · refine refuses_of_run rfl ht ?_
    simp only [State.runCmd, State.setupCarve, State.withCommand_carveRefusal, hc]
    rfl
  · have hnone := State.carveRefusal_none hph hp2 hp6 hr hg hz hsum hz2
    obtain ⟨hcarved, hcarving, ⟨base, hpool⟩, hbyte⟩ := (s.withCommand (.setupCarve h p r g z) h).carve_left p r g z
    refine ends_of_run rfl ht ?_ (ch := [.boot, .pool, .mem, .mgt, .fresh, .out, .regs, .flt])
      (u := (s.withCommand (.setupCarve h p r g z) h).carve p r g z) ?_ ⟨hcarved, hcarving, by rw [hpool]; rfl, by rw [hpool]; rfl,
        by rw [hpool]; rfl, by rw [hpool]; rfl, by rw [hpool]; rfl, by rw [hpool]; rfl, fun k i hk hi => ?_, fun a ha => ?_⟩
    · simp only [State.runCmd, State.setupCarve, State.withCommand_carveRefusal, hnone]
      rfl
    · rw [State.carve_eq]
      exact State.keepsBut_then (State.enter_keepsBut _ _ _) (State.keepsBut_then (State.assignSubstitutes_keepsBut _)
        (State.keepsBut_mono (State.laidOut_keepsBut _ p r g z) (by decide)) rfl) rfl
    · rw [hbyte]
      exact State.byte_clearSrams_in (List.mem_range.2 hk) hi
    · rw [hbyte]
      exact (State.byte_clearSrams_out fun k hk => ha k (List.mem_range.1 hk)).trans (State.withCommand_byte s (.setupCarve h p r g z) h a)
  · exact refuses_of_run rfl ht (if_pos (by rw [State.withCommand_boot]; exact hd))
  · refine ends_of_run rfl ht (if_neg (by rw [State.withCommand_boot, hd]; decide)) (State.setBoot_keepsBut _ _) ?_
    rw [State.setBoot_boot, State.withCommand_boot]
  · exact refuses_of_run rfl ht (if_pos (by rw [State.withCommand_boot]; exact hp))
  · refine refuses_of_run rfl ht ((if_neg ?_).trans (if_pos ?_))
    · rw [State.withCommand_boot]; omega
    · rw [State.withCommand_bigReset]; exact hb
  · obtain ⟨hphase, hkept, hepoch, hmem, hjobs, htick, hsetts⟩ := (s.withCommand (.resetDataPlane h) h).dataPlaneReset_left
    obtain ⟨hcoll, hparm, hstash, hpend⟩ := (s.withCommand (.resetDataPlane h) h).dataPlaneReset_empties
    refine waits_with rfl ht ((if_neg ?_).trans (if_neg ?_)) ⟨hphase, ?_, ?_, hmem, hjobs, hsetts, hcoll, hparm, hstash, htick, ?_⟩
    · rw [State.withCommand_boot]; omega
    · rw [State.withCommand_bigReset, hb]; decide
    · rw [hkept, State.withCommand_keptPhase]
    · rw [hepoch, State.withCommand_boot]
    · rw [hpend, State.withCommand_pending]
  · exact refuses_of_run rfl ht (if_pos (by rw [State.withCommand_boot]; exact hp))
  · refine refuses_of_run rfl ht ((if_neg ?_).trans (if_pos ?_))
    · rw [State.withCommand_boot]; omega
    · rw [State.withCommand_bigReset, State.withCommand_eng]
      simpa using hb
  · obtain ⟨hon, heng, hkeep⟩ := (s.withCommand (.resetTile h k) h).repower_left k
    have hstop := ((s.withCommand (.resetTile h k) h).repower k).stopTile_keepsBut k
    obtain ⟨hin, hout⟩ := State.stopEngines_engine k (tileEngines k) (((s.withCommand (.resetTile h k) h).repower k).setEng
      fun e => { e with inReset := if e.inReset.contains k then e.inReset else k :: e.inReset })
    refine waits_with rfl ht ((if_neg ?_).trans ((if_neg ?_).trans (if_neg ?_)))
      ⟨State.mem_stopTile_inReset _ _, ?_, hin, fun e he => (hout e he).trans ?_, ?_⟩
    · rw [State.withCommand_boot]; omega
    · rw [State.withCommand_bigReset, State.withCommand_eng]
      simpa [hb] using hk
    · rw [State.withCommand_tilePwr]
      simpa using hrail
    · rw [State.tilePwr, State.keepsBut_pwr hstop]
      exact hon
    · exact (State.engine_congr (congrArg EngsSt.engines heng) e).trans (State.withCommand_engine _ _ _ _)
    · exact State.keepsBut_then hstop (State.keepsBut_mono hkeep (by decide)) rfl
  · exact refuses_of_run rfl ht (if_pos (by rw [State.withCommand_boot]; exact hp))
  · refine refuses_of_run rfl ht ((if_neg ?_).trans (if_pos ?_))
    · rw [State.withCommand_boot]; omega
    · rw [State.withCommand_bigReset, State.withCommand_portTied]
      simpa using hb
  · refine ends_of_run rfl ht ((if_neg ?_).trans (if_neg ?_)) ?_ (State.disabled_enabled _ _)
    · rw [State.withCommand_boot]; omega
    · rw [State.withCommand_bigReset, State.withCommand_portTied, hb, htied]
      decide
    · exact State.keepsBut_then (State.enablePort_keepsBut _ _)
        (State.keepsBut_mono (State.disablePort_keepsBut _ _) (by decide)) rfl

end Sys2Proof.Machine
end

section

-- One declaration after another: elaborated side by side, they take more threads than the check allows.
set_option Elab.async false

/-! Links and hedges by command (R63, R126), and what a check of the trunks leaves of the topology. -/

namespace Sys2Proof.Machine

open Sys2Proof (Instr CmdHdr Ref)

/-! ## What a check of the trunks leaves of the topology -/

/-- Of the topology only what is known of trunks and nodes, and the notices of it, have changed. -/
def State.trunksOnly (s t : State) : Prop := t.topo = { s.topo with
  ownMissing := t.topo.ownMissing, unreported := t.topo.unreported, lsSeq := t.topo.lsSeq, notices := t.topo.notices,
  nodes := t.topo.nodes, lostDue := t.topo.lostDue }

theorem State.trunks_refl (s : State) : s.trunksOnly s := rfl

theorem State.trunks_then {z s t : State} (h' : s.trunksOnly t) (h : z.trunksOnly s) : z.trunksOnly t := by
  rw [State.trunksOnly] at *
  rw [h', h]

theorem State.trunks_keep {z s t : State} {ch : List Part} (h' : s.keepsBut ch t) (h : z.trunksOnly s)
    (hc : ch.contains .topo = false) : z.trunksOnly t := by
  have hsame := State.keepsBut_topo h' (by simpa using hc)
  rw [State.trunksOnly, hsame]
  exact h

theorem State.trunks_foldl {α : Type} {z s : State} {f : State → α → State} {l : List α}
    (h : ∀ (s : State) x, s.trunksOnly (f s x)) (hs : z.trunksOnly s) : z.trunksOnly (l.foldl f s) := by
  induction l generalizing s with
  | nil => exact hs
  | cons a l ih => exact ih (State.trunks_then (h s a) hs)

theorem State.holdNotice_trunks (s : State) (n : Notice) : s.trunksOnly (s.holdNotice n) := by
  have h : s.trunksOnly (s.setTopo fun t => { t with notices :=
      (t.notices.filter fun m => m.origin != n.origin || decide (0 < m.repeats)) ++
        [{ n with repeats := 2, sentAt := s.tick.counter }] }) := rfl
  exact State.trunks_keep (State.floodNotice_keepsBut _ _) h rfl

theorem State.originateNotice_trunks (s : State) (trunk event : Nat) : s.trunksOnly (s.originateNotice trunk event) := by
  have h : s.trunksOnly (s.setTopo fun t => { t with lsSeq := (s.topo.lsSeq + 1) % 2 ^ 32 }) := rfl
  exact State.trunks_then (State.holdNotice_trunks _ _) h

theorem State.markLost_trunks (s : State) (n : Nat) : s.trunksOnly (s.markLost n) := by
  simp only [State.markLost]
  split <;> rfl

theorem State.lostCheck_trunks (s : State) (n t : Nat) : s.trunksOnly (s.lostCheck n t) := by
  simp only [State.lostCheck]
  split
  · rfl
  · refine State.trunks_foldl (fun u m => ?_) (State.trunks_refl s)
    split
    · exact u.markLost_trunks m
    · rfl

theorem State.trunkChanged_trunks (s : State) (t : Nat) (missing : Bool) : s.trunksOnly (s.trunkChanged t missing) := by
  delta State.trunkChanged
  extract_lets s1 s2 s3
  have h2 : s.trunksOnly s2 := State.trunks_keep (State.event_keepsBut _ _ _ _ _ _ _) (s := s1) rfl rfl
  have h3 : s.trunksOnly s3 := State.trunks_then (s2.originateNotice_trunks t _) h2
  split
  · exact State.trunks_then (State.lostCheck_trunks _ _ _) h3
  · exact h3

theorem State.setOwnMissing_trunks (s : State) (w : Nat) :
    s.trunksOnly (s.setTopo fun t => { t with ownMissing := w }) := rfl

theorem State.trunksChanged_trunks {z s : State} (now : Nat) (l : List Nat) (h : z.trunksOnly s) :
    z.trunksOnly (l.foldl (fun s t => s.trunkChanged t (bit now t)) s) :=
  State.trunks_foldl (fun u t => u.trunkChanged_trunks t _) h

theorem State.trunkCheck_trunks (s : State) : s.trunksOnly s.trunkCheck := by
  delta State.trunkCheck
  extract_lets old now s1
  exact State.trunksChanged_trunks _ _ (s.setOwnMissing_trunks _)

/-- Hedges stay as they are when the trunks are checked. -/
theorem State.trunkCheck_hedges (s : State) : s.trunkCheck.topo.hedges = s.topo.hedges := by rw [s.trunkCheck_trunks]

/-- The ports' routing states stay as they are when the trunks are checked. -/
theorem State.trunkCheck_routes (s : State) : s.trunkCheck.topo.ports = s.topo.ports := by rw [s.trunkCheck_trunks]

/-! ## Hedges -/

theorem State.hedge_hedges (s : State) (g : Hedge) :
    (s.hedge g).topo.hedges = if s.topo.hedges.any g.same then s.topo.hedges else g :: s.topo.hedges := by
  simp only [State.hedge]
  split
  · rfl
  · rw [State.keepsBut_topo (State.pruneWaiting_keepsBut _), State.trunkCheck_hedges]
    rfl

theorem State.lift_hedges (s : State) (g : Hedge) :
    (s.lift g).topo.hedges = s.topo.hedges.filter fun x => !x.same g := by
  rw [State.lift, State.keepsBut_topo (State.releaseHeld_keepsBut _), State.trunkCheck_hedges]
  rfl

/-- A hedge that has found room comes into force. -/
theorem State.linkHedge_room {s : State} {scope p job node ep : Nat}
    (hroom : scope ≠ 1 ∨ (s.otherDestHedges node ep).length < 512) : ∃ u, s.linkHedge scope p job node ep = finished u ∧
      s.keepsBut (.topo :: .parm :: .stash :: .host :: frameParts) u ∧
      u.topo.hedges = (s.hedge (hedgeOf scope p job node ep s.tick.counter)).topo.hedges := by
  delta State.linkHedge
  rw [if_neg (by omega)]
  extract_lets s1 s2
  have h1 : s.keepsBut (.topo :: .parm :: .stash :: .host :: frameParts) s1 :=
    State.keepsBut_mono (State.hedge_keepsBut _ _) (by decide)
  have h2 : s1.keepsBut [.regs, .parm] s2 := by
    simp only [s2]
    split
    · exact State.dropSubs_keepsBut _ _
    · exact State.keepsBut_refl _ _
  have h3 := s2.stashHedged_keepsBut
  exact ⟨_, rfl, State.keepsBut_then h3 (State.keepsBut_then h2 h1 rfl) rfl,
    by rw [State.keepsBut_topo h3, State.keepsBut_topo h2]⟩

/-! ## Links -/

theorem State.setPort_enabled (s : State) (p : Nat) (f : PortSt → PortSt) :
    (s.setPort p f).link.enabled = s.link.enabled := rfl

theorem State.forgetCaps_enabled (s : State) (p : Nat) : (s.forgetCaps p).link.enabled = s.link.enabled :=
  State.forgetCaps_leaves (p := fun u => u.link.enabled) (fun _ _ => rfl) s p

/-- Enabling a DISABLED or FAILED port changes that port alone, and links are enabled. -/
theorem State.enablePort_closed {s : State} {p : Nat} (h : (s.port p).state = 0 ∨ (s.port p).state = 6) :
    s.keepsBut [.link] (s.enablePort p) ∧ (s.enablePort p).link.enabled = true ∧
      ∀ q, q ≠ p → (s.enablePort p).port q = s.port q := by
  have h5 : (s.linksOn.port p).state ≠ 5 := fun h5 => by
    have : (s.port p).state = 5 := h5
    omega
  rw [State.enablePort_opened h]
  refine ⟨State.keepsBut_then (State.setPort_keepsBut _ _ _) (State.keepsBut_then (State.portState_idle_keepsBut h5 1)
    (State.keepsBut_with_link _ (State.keepsBut_refl _ _) rfl) rfl) rfl, ?_, fun q hq => ?_⟩
  · rw [State.setPort_enabled, State.portState_idle h5, State.forgetCaps_enabled, State.setPort_enabled]
    rfl
  · rw [State.port_setPort_ne _ _ hq, State.portState_port_ne _ _ hq]
    rfl

theorem State.withCommand_port (s : State) (c : Instr) (h : CmdHdr) (p : Nat) : (s.withCommand c h).port p = s.port p := by
  simp only [State.port, State.withCommand_link]

/-- Settles O49: links and hedges by command. -/
theorem linkCommands : Obligations.LinkCommands := by
  unfold Obligations.LinkCommands
  refine fun s h p => ⟨fun ht => ⟨fun hst => ?_, fun h0 h6 => ?_⟩, fun ht => ?_,
    fun scope job node ep ht => ⟨fun hs hfull => ?_, fun hroom => ?_⟩, fun scope job node ep ht => ?_⟩
  · rw [← State.withCommand_port s (.linkEnable h p) h p] at hst
    obtain ⟨hkeep, hon, hother⟩ := State.enablePort_closed hst
    refine ends_of_run rfl ht rfl hkeep ⟨hon, ?_, ?_, fun q hq => by rw [hother q hq, State.withCommand_port]⟩
    · rw [State.enablePort_port hst]; rfl
    · rw [State.enablePort_port hst]
  · refine ends_of_run rfl ht (congrArg finished (if_neg ?_)) (State.keepsBut_with_link _ (State.keepsBut_refl _ _) rfl) ?_
    · show ¬((((s.withCommand (.linkEnable h p) h).port p).state = 0 || ((s.withCommand (.linkEnable h p) h).port p).state = 6)
        = true)
      rw [State.withCommand_port]
      simp [h0, h6]
    · rw [State.withCommand_link]
  · refine ends_of_run rfl ht rfl (State.keepsBut_mono (State.disablePort_keepsBut _ _) (by decide)) ⟨?_, ?_, fun q hq => ?_⟩
    · rw [State.disablePort, State.portState_port]; rfl
    · rw [State.disablePort, State.portState_port]; rfl
    · rw [State.disablePort, State.portState_port_ne _ _ hq, State.withCommand_port]
  · exact refuses_of_run rfl ht (if_pos ⟨hs, hfull⟩)
  · obtain ⟨u, hrun, hkeep, hhedges⟩ := State.linkHedge_room (p := p) (job := job) hroom
    refine ends_of_run rfl ht hrun hkeep ?_
    rw [hhedges, State.hedge_hedges, State.withCommand_topo, State.withCommand_tick]
  · refine ends_of_run rfl ht rfl (State.keepsBut_mono (State.lift_keepsBut _ _) (by decide)) ?_
    rw [State.lift_hedges, State.withCommand_topo]

end Sys2Proof.Machine
end

section

-- One declaration after another: elaborated side by side, they take more threads than the check allows.
set_option Elab.async false

/-! What of the management side most operations change: the logs alone. -/

namespace Sys2Proof.Machine

/-! ## What of the management side logging changes -/

/-- Of the management side only the logs have changed. -/
def State.logsOnly (s t : State) : Prop :=
  t.mgt = { s.mgt with log := t.mgt.log, plog := t.mgt.plog, seq := t.mgt.seq, tokens := t.mgt.tokens }

theorem State.logs_refl (s : State) : s.logsOnly s := rfl

theorem State.logs_then {z s t : State} (h' : s.logsOnly t) (h : z.logsOnly s) : z.logsOnly t := by
  rw [State.logsOnly] at *
  rw [h', h]

theorem State.logs_keep {z s t : State} {ch : List Part} (h' : s.keepsBut ch t) (h : z.logsOnly s)
    (hc : ch.contains .mgt = false) : z.logsOnly t := by
  have hsame := State.keepsBut_mgt h' (by simpa using hc)
  rw [State.logsOnly, hsame]
  exact h

theorem State.logs_foldl {α : Type} {z s : State} {f : State → α → State} {l : List α}
    (h : ∀ (s : State) x, s.logsOnly (f s x)) (hs : z.logsOnly s) : z.logsOnly (l.foldl f s) := by
  induction l generalizing s with
  | nil => exact hs
  | cons a l ih => exact ih (State.logs_then (h s a) hs)

theorem State.logs_snd {α : Type} {z s : State} {a : α} {p : α × State} (hp : p = (a, s))
    (h : z.logsOnly p.2) : z.logsOnly s := by rw [hp] at h; exact h

theorem State.logPersistRated_logs (s : State) (e : Event) : s.logsOnly (s.logPersistRated e) := by
  unfold State.logPersistRated
  split
  · rfl
  · split <;> rfl

theorem State.sendEvent_logs (s : State) (e : Event) (m : Nat) : s.logsOnly (s.sendEvent e m) := by
  unfold State.sendEvent
  dsimp only
  split
  · split <;> rfl
  · rfl

theorem State.event_logs (s : State) (severity source code : Nat) (data : List Byte) (status master : Nat) :
    s.logsOnly (s.event severity source code data status master) := by
  delta State.event
  split
  · extract_lets e s1 m s2 s3
    have h2 : s.logsOnly s2 := rfl
    have h3 : s.logsOnly s3 := State.logs_then (State.logPersistRated_logs _ e) (State.logs_then
      (by unfold State.logOnChip; dsimp only; split <;> rfl) h2)
    exact State.logs_foldl (fun u m => u.sendEvent_logs e m) h3
  · rfl

theorem State.logs_with_sw {z s : State} (x) (h : z.logsOnly s) : z.logsOnly { s with sw := x } := h

theorem State.logs_with_tick {z s : State} (x) (h : z.logsOnly s) : z.logsOnly { s with tick := x } := h

theorem State.scaleEvent_logs (s : State) (p : Nat) (old : Nat) : s.logsOnly (s.scaleEvent p old) := by
  unfold State.scaleEvent
  dsimp only
  repeat' first
    | with_reducible exact State.logs_refl _
    | with_reducible apply State.logs_then (State.event_logs _ _ _ _ _ _ _)
    | rfl
    | split

theorem State.poolRefused_logs (s : State) (m : Nat) (op : Nat) (k : Nat) (r : Nat) (status : Nat) (addr : Nat) :
    s.logsOnly (s.poolRefused m op k r status addr) := by
  unfold State.poolRefused
  dsimp only
  repeat' first
    | with_reducible exact State.logs_refl _
    | with_reducible apply State.logs_then (State.event_logs _ _ _ _ _ _ _)
    | with_reducible apply State.logs_keep (State.report_keepsBut _ _ _)
    | rfl
    | split

theorem State.poolFail_logs (s : State) (m : Nat) (op : Nat) (k : Nat) (r : Nat) (status : Nat) (addr : Nat) :
    s.logsOnly (s.poolFail m op k r status addr) := by
  unfold State.poolFail
  dsimp only
  repeat' first
    | with_reducible exact State.logs_refl _
    | with_reducible apply State.logs_keep (State.bump_keepsBut _ _ _ _)
    | with_reducible apply State.logs_then (State.poolRefused_logs _ _ _ _ _ _ _)
    | rfl
    | split

theorem State.takeCells_logs (s : State) (tile : Nat) (cls : Nat) (n : Nat) (count : Nat) :
    s.logsOnly (s.takeCells tile cls n count).2 := by
  unfold State.takeCells
  dsimp only
  repeat' first
    | with_reducible exact State.logs_refl _
    | with_reducible apply State.logs_then (State.poolFail_logs _ _ _ _ _ _ _)
    | with_reducible apply State.logs_keep (State.charge_keepsBut _ _ _ _ _)
    | with_reducible apply State.logs_keep (State.giveCells_keepsBut _ _ _)
    | rfl
    | split

theorem State.admitOwn_logs (s : State) (f : Frame) (copies : List Copy) (tile : Nat) :
    s.logsOnly (s.admitOwn f copies tile) := by
  unfold State.admitOwn
  repeat' first
    | with_reducible exact State.logs_refl _
    | with_reducible apply State.logs_then (State.takeCells_logs _ _ _ _ _)
    | with_reducible apply State.logs_keep (State.storeFrame_keepsBut _ _ _ _ _ _ _ _)
    | refine State.logs_snd (by assumption) ?_
    | rfl
    | split

theorem State.sendLinkLocal_logs (s : State) (p : Nat) (op : Nat) (payload : List Byte) :
    s.logsOnly (s.sendLinkLocal p op payload) := by
  unfold State.sendLinkLocal
  dsimp only
  repeat' first
    | with_reducible exact State.logs_refl _
    | with_reducible apply State.logs_then (State.admitOwn_logs _ _ _ _)
    | rfl
    | split

theorem State.sendDisc_logs (s : State) (p : Nat) (d : Disc) : s.logsOnly (s.sendDisc p d) := by
  unfold State.sendDisc
  repeat' first
    | with_reducible exact State.logs_refl _
    | with_reducible apply State.logs_keep (State.stamped_keepsBut _)
    | with_reducible apply State.logs_then (State.sendLinkLocal_logs _ _ _ _)
    | rfl

theorem State.sendNotice_logs (s : State) (n : Notice) (p : Nat) : s.logsOnly (s.sendNotice n p) := by
  unfold State.sendNotice
  repeat' first
    | with_reducible exact State.logs_refl _
    | with_reducible apply State.logs_then (State.sendDisc_logs _ _ _)

theorem State.floodNotice_logs (s : State) (n : Notice) : s.logsOnly (s.floodNotice n) := by
  unfold State.floodNotice
  dsimp only
  repeat' first
    | with_reducible exact State.logs_refl _
    | with_reducible apply State.logs_then (State.sendNotice_logs _ _ _)
    | (with_reducible apply State.logs_foldl) <;> try intro _ _
    | rfl
    | split

theorem State.holdNotice_logs (s : State) (n : Notice) : s.logsOnly (s.holdNotice n) := by
  unfold State.holdNotice
  repeat' first
    | with_reducible exact State.logs_refl _
    | with_reducible apply State.logs_keep (State.setTopo_keepsBut _ _)
    | with_reducible apply State.logs_then (State.floodNotice_logs _ _)
    | rfl

theorem State.originateNotice_logs (s : State) (trunk : Nat) (event : Nat) :
    s.logsOnly (s.originateNotice trunk event) := by
  unfold State.originateNotice
  dsimp only
  repeat' first
    | with_reducible exact State.logs_refl _
    | with_reducible apply State.logs_keep (State.setTopo_keepsBut _ _)
    | with_reducible apply State.logs_then (State.holdNotice_logs _ _)
    | rfl

theorem State.trunkChanged_logs (s : State) (t : Nat) (missing : Bool) : s.logsOnly (s.trunkChanged t missing) := by
  unfold State.trunkChanged
  dsimp only
  repeat' first
    | with_reducible exact State.logs_refl _
    | with_reducible apply State.logs_keep (State.setTopo_keepsBut _ _)
    | with_reducible apply State.logs_then (State.event_logs _ _ _ _ _ _ _)
    | with_reducible apply State.logs_then (State.originateNotice_logs _ _ _)
    | with_reducible apply State.logs_keep (State.lostCheck_keepsBut _ _ _)
    | rfl
    | split

theorem State.trunkCheck_logs (s : State) : s.logsOnly (s.trunkCheck) := by
  unfold State.trunkCheck
  dsimp only
  repeat' first
    | with_reducible exact State.logs_refl _
    | with_reducible apply State.logs_keep (State.setTopo_keepsBut _ _)
    | with_reducible apply State.logs_then (State.trunkChanged_logs _ _ _)
    | (with_reducible apply State.logs_foldl) <;> try intro _ _
    | rfl

theorem State.routeInactive_logs (s : State) (p : Nat) : s.logsOnly (s.routeInactive p) := by
  unfold State.routeInactive
  dsimp only
  repeat' first
    | with_reducible exact State.logs_refl _
    | with_reducible apply State.logs_keep (State.setRoute_keepsBut _ _ _)
    | with_reducible apply State.logs_then (State.trunkCheck_logs _)
    | rfl

theorem State.opFail_logs (s : State) (m : Nat) (op : Nat) (k : Nat) (r : Nat) (st : Nat) (a : Nat) :
    s.logsOnly (s.opFail m op k r st a).2 := by
  unfold State.opFail
  repeat' first
    | with_reducible exact State.logs_refl _
    | with_reducible apply State.logs_then (State.poolFail_logs _ _ _ _ _ _ _)

theorem State.free_logs (s : State) (m : Nat) (r : Nat) (a : Nat) : s.logsOnly (s.free m r a).2 := by
  unfold State.free
  repeat' first
    | with_reducible exact State.logs_refl _
    | with_reducible apply State.logs_then (State.opFail_logs _ _ _ _ _ _ _)
    | with_reducible apply State.logs_keep (State.returnSett_keepsBut _ _ _)
    | with_reducible apply State.logs_keep (State.setCount_keepsBut _ _ _ _)
    | refine State.logs_snd (by assumption) ?_
    | rfl
    | split

theorem State.freeAll_logs (s : State) (m : Nat) (r : Nat) (as : List Nat) : s.logsOnly (s.freeAll m r as) := by
  unfold State.freeAll
  repeat' first
    | with_reducible exact State.logs_refl _
    | with_reducible apply State.logs_then (State.free_logs _ _ _ _)
    | (with_reducible apply State.logs_foldl) <;> try intro _ _

theorem State.releaseCells_logs (s : State) (tile : Nat) (as : List Nat) : s.logsOnly (s.releaseCells tile as) := by
  unfold State.releaseCells
  repeat' first
    | with_reducible exact State.logs_refl _
    | with_reducible apply State.logs_then (State.freeAll_logs _ _ _ _)

theorem State.releaseCopy_logs (s : State) (id : Nat) : s.logsOnly (s.releaseCopy id) := by
  unfold State.releaseCopy
  repeat' first
    | with_reducible exact State.logs_refl _
    | with_reducible apply State.logs_keep (State.uncharge_keepsBut _ _ _ _ _)
    | with_reducible apply State.logs_then (State.releaseCells_logs _ _ _)
    | rfl
    | split

theorem State.moveEntry_logs (s : State) (p : Nat) (tile : Nat) (cls : Nat) (drain : Bool) (e : Entry) :
    s.logsOnly (s.moveEntry p tile cls drain e) := by
  unfold State.moveEntry
  dsimp only
  repeat' first
    | with_reducible exact State.logs_refl _
    | with_reducible apply State.logs_keep (State.enqueue_keepsBut _ _ _ _ _ _ _)
    | with_reducible apply State.logs_keep (State.bump_keepsBut _ _ _ _)
    | with_reducible apply State.logs_then (State.releaseCopy_logs _ _)
    | rfl
    | split

theorem State.flushPort_logs (s : State) (p : Nat) (drain : Bool) : s.logsOnly (s.flushPort p drain) := by
  refine State.logs_with_sw _ (State.logs_foldl (fun u tc => ?_) (State.logs_refl s))
  dsimp only
  split
  · rfl
  · exact State.logs_foldl (fun v e => v.moveEntry_logs p tc.1 tc.2 drain e) (State.logs_with_sw _ (State.logs_refl u))

theorem State.tickEnter_logs (s : State) (st : Nat) (reason : Nat) : s.logsOnly (s.tickEnter st reason) := by
  unfold State.tickEnter
  dsimp only
  repeat' first
    | with_reducible exact State.logs_refl _
    | with_reducible apply State.logs_keep (State.setTick_keepsBut _ _)
    | with_reducible apply State.logs_keep (State.report_keepsBut _ _ _)
    | with_reducible apply State.logs_then (State.event_logs _ _ _ _ _ _ _)
    | rfl
    | split

theorem State.merge_logs (s : State) (p : Nat) : s.logsOnly (s.merge p) := by
  unfold State.merge
  dsimp only
  repeat' first
    | with_reducible exact State.logs_refl _
    | with_reducible apply State.logs_keep (State.adopt_keepsBut _ _ _)
    | with_reducible apply State.logs_then (State.tickEnter_logs _ _ _)
    | with_reducible apply State.logs_keep (State.setTick_keepsBut _ _)
    | rfl
    | split

theorem State.reviewRoot_logs (s : State) (p : Nat) : s.logsOnly (s.reviewRoot p) := by
  unfold State.reviewRoot
  repeat' first
    | with_reducible exact State.logs_refl _
    | with_reducible apply State.logs_then (State.merge_logs _ _)
    | with_reducible apply State.logs_keep (State.adopt_keepsBut _ _ _)
    | with_reducible apply State.logs_then (State.tickEnter_logs _ _ _)
    | rfl
    | split

theorem State.reviewHoldover_logs (s : State) : s.logsOnly (s.reviewHoldover) := by
  unfold State.reviewHoldover
  dsimp only
  repeat' first
    | with_reducible exact State.logs_refl _
    | with_reducible apply State.logs_keep (State.adopt_keepsBut _ _ _)
    | with_reducible apply State.logs_then (State.tickEnter_logs _ _ _)
    | with_reducible apply State.logs_then (State.merge_logs _ _)
    | rfl
    | split

theorem State.reviewFollower_logs (s : State) : s.logsOnly (s.reviewFollower) := by
  unfold State.reviewFollower
  dsimp only
  repeat' first
    | with_reducible exact State.logs_refl _
    | with_reducible apply State.logs_keep (State.setTick_keepsBut _ _)
    | with_reducible apply State.logs_then (State.tickEnter_logs _ _ _)
    | with_reducible apply State.logs_keep (State.adopt_keepsBut _ _ _)
    | with_reducible apply State.logs_then (State.merge_logs _ _)
    | rfl
    | split

theorem State.tickReview_logs (s : State) : s.logsOnly (s.tickReview) := by
  unfold State.tickReview
  dsimp only
  repeat' first
    | with_reducible exact State.logs_refl _
    | with_reducible apply State.logs_then (State.reviewRoot_logs _ _)
    | with_reducible apply State.logs_keep (State.setTick_keepsBut _ _)
    | with_reducible apply State.logs_then (State.tickEnter_logs _ _ _)
    | with_reducible apply State.logs_keep (State.forgetRoot_keepsBut _)
    | with_reducible apply State.logs_keep (State.adopt_keepsBut _ _ _)
    | with_reducible apply State.logs_then (State.reviewHoldover_logs _)
    | with_reducible apply State.logs_then (State.reviewFollower_logs _)
    | rfl
    | split

theorem State.announceOn_logs (s : State) (p : Nat) : s.logsOnly (s.announceOn p) := by
  unfold State.announceOn
  repeat' first
    | with_reducible exact State.logs_refl _
    | with_reducible apply State.logs_then (State.sendLinkLocal_logs _ _ _ _)

theorem State.announceAll_logs (s : State) : s.logsOnly (s.announceAll) := by
  unfold State.announceAll
  repeat' first
    | with_reducible exact State.logs_refl _
    | with_reducible apply State.logs_then (State.announceOn_logs _ _)
    | (with_reducible apply State.logs_foldl) <;> try intro _ _

theorem State.announceChange_logs (s : State) : s.logsOnly (s.announceChange) := by
  unfold State.announceChange
  repeat' first
    | with_reducible exact State.logs_refl _
    | with_reducible apply State.logs_keep (State.setTick_keepsBut _ _)
    | with_reducible apply State.logs_then (State.announceAll_logs _)
    | rfl
    | split

theorem State.tickPortLost_logs (s : State) (p : Nat) : s.logsOnly (s.tickPortLost p) := by
  unfold State.tickPortLost
  repeat' first
    | with_reducible exact State.logs_refl _
    | with_reducible apply State.logs_keep (State.setTick_keepsBut _ _)
    | with_reducible apply State.logs_then (State.tickReview_logs _)
    | with_reducible apply State.logs_then (State.announceChange_logs _)
    | rfl

theorem State.portState_logs (s : State) (p : Nat) (st : Nat) : s.logsOnly (s.portState p st) := by
  unfold State.portState
  dsimp only
  repeat' first
    | with_reducible exact State.logs_refl _
    | with_reducible apply State.logs_keep (State.setPort_keepsBut _ _ _)
    | with_reducible apply State.logs_keep (State.forgetCaps_keepsBut _ _)
    | with_reducible apply State.logs_keep (State.setInUse_keepsBut _ _ _ _)
    | with_reducible apply State.logs_keep (State.dropReception_keepsBut _ _)
    | with_reducible apply State.logs_then (State.scaleEvent_logs _ _ _)
    | with_reducible apply State.logs_then (State.routeInactive_logs _ _)
    | with_reducible apply State.logs_then (State.flushPort_logs _ _ _)
    | with_reducible apply State.logs_then (State.tickPortLost_logs _ _)
    | rfl
    | split

theorem State.toDetect_logs (s : State) (p : Nat) : s.logsOnly (s.toDetect p) := by
  unfold State.toDetect
  repeat' first
    | with_reducible exact State.logs_refl _
    | with_reducible apply State.logs_then (State.portState_logs _ _ _)

theorem State.startStep_logs (s : State) (p : Nat) : s.logsOnly (s.startStep p) := by
  unfold State.startStep
  dsimp only
  repeat' first
    | with_reducible exact State.logs_refl _
    | with_reducible apply State.logs_keep (State.setPort_keepsBut _ _ _)
    | with_reducible apply State.logs_then (State.toDetect_logs _ _)
    | with_reducible apply State.logs_keep (State.emit_keepsBut _ _)
    | rfl
    | split

end Sys2Proof.Machine
end

section

-- One declaration after another: elaborated side by side, they take more threads than the check allows.
set_option Elab.async false

/-! Lanes and laser source modules by command (R74, R75, R78). -/

namespace Sys2Proof.Machine

open Sys2Proof (Instr CmdHdr Ref)

/-! ## Retirement and restoring -/

theorem State.lane_event (s : State) (severity source code : Nat) (data : List Byte) (n : Nat) :
    (s.event severity source code data).lane n = s.lane n := State.lane_congr (State.event_link ..) n

/-- A lane recorded as retired, before its port learns of it. -/
def State.recordLane (s : State) (n : Nat) : State :=
  ({ s with mgt := { s.mgt with lanes := if s.mgt.lanes.contains n then s.mgt.lanes else n :: s.mgt.lanes } } :
    State).setLane n fun l => { l with retired := true }

theorem State.mem_recordLane (s : State) (n : Nat) : n ∈ (s.recordLane n).mgt.lanes := by
  dsimp only [State.recordLane, State.setLane]
  split
  next hc => exact List.contains_iff_mem.1 hc
  next => exact List.mem_cons_self

theorem State.recordLane_keepsBut (s : State) (n : Nat) : s.keepsBut [.link, .mgt] (s.recordLane n) :=
  State.keepsBut_then (State.setLane_keepsBut _ _ _) (State.keepsBut_with_mgt _ (State.keepsBut_refl _ s) rfl) rfl

/-- Retiring a lane is an event, the record of it, and a step of the port that used it. -/
theorem State.retireLane_eq (s : State) (n cause : Nat) : ∃ data, s.retireLane n cause =
    if (s.lane n).inUse = true then ((s.event 2 0x01 0x0010 data).recordLane n).startStep
      (((s.event 2 0x01 0x0010 data).recordLane n).portOf n)
    else (s.event 2 0x01 0x0010 data).recordLane n := ⟨_, rfl⟩

theorem State.recordLane_lane (s : State) (n : Nat) : (s.recordLane n).lane n = { s.lane n with retired := true } :=
  State.lane_setLane _ _ _

/-- Retiring a lane that is not in use changes that lane and the record of it. -/
theorem State.retireLane_idle {s : State} {n : Nat} (hi : (s.lane n).inUse = false) (cause : Nat) :
    (∀ m, m ≠ n → (s.retireLane n cause).lane m = s.lane m) ∧
    s.keepsBut [.link, .mgt, .fresh, .out, .regs] (s.retireLane n cause) := by
  obtain ⟨data, h⟩ := s.retireLane_eq n cause
  rw [h, if_neg (by simp [hi])]
  refine ⟨fun m hm => ?_, State.keepsBut_then (State.recordLane_keepsBut _ _)
    (State.keepsBut_mono (State.event_keepsBut _ _ _ _ _ _ _) (by decide)) rfl⟩
  rw [State.recordLane, State.lane_setLane_ne _ _ hm]
  exact State.lane_event ..

/-- A lane that is retired is recorded so, in use or not. -/
theorem State.retireLane_recorded (s : State) (n cause : Nat) :
    ((s.retireLane n cause).lane n).retired = true ∧ n ∈ (s.retireLane n cause).mgt.lanes := by
  obtain ⟨data, h⟩ := s.retireLane_eq n cause
  rw [h]
  generalize s.event 2 0x01 0x0010 data = t
  have hlane := t.recordLane_lane n
  have hmem := t.mem_recordLane n
  split
  · have hbody := congrArg LaneSt.retired ((t.recordLane n).startStep_body ((t.recordLane n).portOf n) n)
    have hlogs := (t.recordLane n).startStep_logs ((t.recordLane n).portOf n)
    rw [State.logsOnly] at hlogs
    rw [hlogs]
    exact ⟨hbody.trans (by rw [hlane]; rfl), hmem⟩
  · exact ⟨by rw [hlane], hmem⟩

/-- A lane that is no longer recorded as retired. -/
def State.unrecordLane (s : State) (n : Nat) : State :=
  ({ s with mgt := { s.mgt with lanes := s.mgt.lanes.filter (· != n) } } : State).setLane n fun l =>
    { l with retired := false, lockTicks := 0 }

theorem State.unrecordLane_keepsBut (s : State) (n : Nat) : s.keepsBut [.link, .mgt] (s.unrecordLane n) :=
  State.keepsBut_then (State.setLane_keepsBut _ _ _) (State.keepsBut_with_mgt _ (State.keepsBut_refl _ s) rfl) rfl

theorem State.unrecordLane_lane (s : State) (n : Nat) :
    (s.unrecordLane n).lane n = { s.lane n with retired := false, lockTicks := 0 } := State.lane_setLane _ _ _

/-- A lane restored is no longer retired, and must hold lock again. -/
theorem State.restoreLane_retired {s : State} {n : Nat} (hr : (s.lane n).retired = true) :
    (s.restoreLane n).lane n = { s.lane n with retired := false, lockTicks := 0 } ∧ n ∉ (s.restoreLane n).mgt.lanes ∧
    (∀ m, m ≠ n → (s.restoreLane n).lane m = s.lane m) ∧
    s.keepsBut [.link, .mgt, .fresh, .out, .regs] (s.restoreLane n) := by
  have hrun : s.restoreLane n = (s.unrecordLane n).event 1 0x01 0x0011 (leBytes 2 n) := if_neg (by simp [hr])
  have hlogs := (s.unrecordLane n).event_logs 1 0x01 0x0011 (leBytes 2 n) 0 0
  rw [State.logsOnly] at hlogs
  rw [hrun, hlogs]
  refine ⟨?_, ?_, fun m hm => ?_, State.keepsBut_then (State.event_keepsBut _ _ _ _ _ _ _)
    (State.keepsBut_mono (s.unrecordLane_keepsBut n) (by decide)) rfl⟩
  · rw [State.lane_event, State.unrecordLane_lane]
  · simp [State.unrecordLane, State.setLane]
  · rw [State.lane_event, State.unrecordLane, State.lane_setLane_ne _ _ hm]
    rfl

/-! ## Tests -/

/-- A lane with its test. -/
def State.testLane (s : State) (n : Nat) (t : LaneTest) : State := s.setLane n fun l => { l with test := some t }

theorem State.testLane_lane (s : State) (n : Nat) (t : LaneTest) :
    (s.testLane n t).lane n = { s.lane n with test := some t } := State.lane_setLane ..

/-- The test that LANE.TEST starts; the peer has been asked, or not. -/
def startedTest (ticks : Nat) (after asked : Bool) (out : Ref) : LaneTest :=
  { ticks := ticks, left := ticks, asked := asked, retireAfter := after, out := out }

/-- The peer of a lane that is not in use is asked at once. -/
theorem State.askTest_unused {s : State} {n : Nat} {t : LaneTest} (ht : (s.lane n).test = some t) (ha : t.asked = false)
    (hi : (s.lane n).inUse = false) :
    s.askTest n = (s.testLane n { t with asked := true }).emit (.laneTestAsk n t.ticks) := by
  simp [State.askTest, State.testLane, ht, ha, hi]

/-- A lane's test starts: the peer is asked at once where the lane is not in use (R75). -/
theorem State.startLaneTest_left (s : State) (n ticks : Nat) (after : Bool) (out : Ref) :
    ((s.startLaneTest n ticks after out).lane n).test = some (startedTest ticks after (!(s.lane n).inUse) out) ∧
    ((s.lane n).inUse = false → (s.startLaneTest n ticks after out).out.head? = some (.laneTestAsk n ticks)) := by
  have hrun : s.startLaneTest n ticks after out = if (s.lane n).inUse = true then
      (s.testLane n (startedTest ticks after false out)).startStep ((s.testLane n (startedTest ticks after false out)).portOf n)
      else (s.testLane n (startedTest ticks after false out)).askTest n := rfl
  have hset := s.testLane_lane n (startedTest ticks after false out)
  rw [hrun]
  generalize s.testLane n (startedTest ticks after false out) = u at *
  have htest : (u.lane n).test = some (startedTest ticks after false out) := by rw [hset]
  split
  next hi =>
    have hbody := congrArg LaneSt.test (u.startStep_body (u.portOf n) n)
    exact ⟨hbody.trans (by rw [hi]; exact htest), fun h => by simp [hi] at h⟩
  next hi =>
    have hi' : (s.lane n).inUse = false := by simpa using hi
    rw [State.askTest_unused htest rfl (by rw [hset]; exact hi'), hi']
    exact ⟨congrArg LaneSt.test (u.testLane_lane n (startedTest ticks after true out)), fun _ => rfl⟩

/-! ## Laser source modules -/

/-- A port that is in service is withdrawn from routing. -/
def State.withdrawPort (s : State) (p : Nat) : State :=
  if (s.route p).state = 2 then s.setRoute p fun r => { r with state := 4 } else s

theorem State.route_setRoute (s : State) (p : Nat) (f : RouteSt → RouteSt) : (s.setRoute p f).route p = f (s.route p) := by
  simp [State.route, State.setRoute, State.setTopo, NMap.getD_upd]

theorem State.route_setRoute_ne (s : State) {p q : Nat} (f : RouteSt → RouteSt) (h : q ≠ p) :
    (s.setRoute p f).route q = s.route q := by
  simp [State.route, State.setRoute, State.setTopo, NMap.getD_upd_ne _ _ _ _ h]

theorem State.withdrawPort_route (s : State) (p q : Nat) : ((s.withdrawPort p).route q).state =
    if p = q ∧ (s.route q).state = 2 then 4 else (s.route q).state := by
  by_cases hp : (s.route p).state = 2
  · rw [State.withdrawPort, if_pos hp]
    by_cases hpq : q = p
    · subst hpq
      rw [State.route_setRoute, if_pos ⟨rfl, hp⟩]
    · rw [State.route_setRoute_ne _ _ hpq, if_neg fun hc => hpq hc.1.symm]
  · rw [State.withdrawPort, if_neg hp, if_neg]
    rintro ⟨rfl, hq⟩
    exact hp hq

/-- Ports that are withdrawn are not in service. -/
theorem State.withdrawn_route (l : List Nat) (s : State) (q : Nat) (h : q ∈ l ∨ (s.route q).state ≠ 2) :
    ((l.foldl State.withdrawPort s).route q).state ≠ 2 := by
  induction l generalizing s with
  | nil => exact h.resolve_left (by simp)
  | cons p l ih =>
    refine ih _ ?_
    by_cases hq : q ∈ l
    · exact .inl hq
    · refine .inr ?_
      rw [State.withdrawPort_route]
      split
      · decide
      next hne =>
        rcases h with h | h
        · exact fun h2 => hne ⟨((List.mem_cons.1 h).resolve_right hq).symm, h2⟩
        · exact h

/-- A release has started: the module drains, and its ports are out of service (R78). -/
theorem State.lsmRelease_left (s : State) (j : Nat) : ((s.lsmRelease j).lsm j).draining = some 0 ∧
    ∀ p ∈ s.lsmPorts j, ((s.lsmRelease j).route p).state ≠ 2 := by
  have hrun : s.lsmRelease j = ((s.lsmPorts j).foldl State.withdrawPort
      (s.setLsm j fun L => { L with draining := some 0 })).trunkCheck := rfl
  have hkeep : (s.setLsm j fun L => { L with draining := some 0 }).keepsBut [.topo] ((s.lsmPorts j).foldl State.withdrawPort
      (s.setLsm j fun L => { L with draining := some 0 })) := by
    refine State.foldl_keepsBut (fun u p => ?_) _ _
    simp only [State.withdrawPort]
    split
    · exact State.setRoute_keepsBut _ _ _
    · exact State.keepsBut_refl _ _
  rw [hrun]
  refine ⟨?_, fun p hp => ?_⟩
  · rw [State.lsm, State.keepsBut_link (State.trunkCheck_keepsBut _), State.keepsBut_link hkeep, ← State.lsm, State.lsm_setLsm]
  · rw [State.route, State.trunkCheck_routes, ← State.route]
    exact State.withdrawn_route _ _ p (.inl hp)

/-! ## The commands -/

theorem State.withCommand_lane (s : State) (c : Instr) (h : CmdHdr) (n : Nat) : (s.withCommand c h).lane n = s.lane n := by
  simp only [State.lane, State.withCommand_link]

theorem State.withCommand_lsm (s : State) (c : Instr) (h : CmdHdr) (j : Nat) : (s.withCommand c h).lsm j = s.lsm j := by
  simp only [State.lsm, State.withCommand_link]

theorem State.withCommand_lsmPorts (s : State) (c : Instr) (h : CmdHdr) (j : Nat) :
    (s.withCommand c h).lsmPorts j = s.lsmPorts j := by
  rw [State.withCommand_eq]; rfl

theorem State.withCommand_laneTestRefusal (s : State) (c : Instr) (h : CmdHdr) (n : Nat) :
    (s.withCommand c h).laneTestRefusal n = s.laneTestRefusal n := by
  rw [State.withCommand_eq]; rfl

/-- Settles O50: lanes and laser source modules by command. -/
theorem laneCommands : Obligations.LaneCommands := by
  unfold Obligations.LaneCommands
  refine fun s h n => ⟨fun ht => ⟨fun hr => ?_, fun hr hi => ?_, fun hr hi => ?_⟩, fun ht => ⟨fun hr => ?_, fun hr => ?_⟩,
    fun after ticks r ht => ⟨fun st hst => ?_, fun hnone => ?_⟩, fun j ht => ⟨fun hd => ?_, fun hd => ?_⟩⟩
  · exact ends_of_run rfl ht (congrArg finished (if_pos (by rw [State.withCommand_lane]; exact hr))) (State.keepsBut_refl _ _) trivial
  · rw [← State.withCommand_lane s (.laneRetire h n) h n] at hi
    obtain ⟨hlane, hmem, _⟩ := State.retireLane_out hi 0
    obtain ⟨hother, hkeep⟩ := State.retireLane_idle hi 0
    exact ends_of_run rfl ht (congrArg finished (if_neg (by rw [State.withCommand_lane, hr]; decide))) hkeep
      ⟨by rw [hlane, State.withCommand_lane], hmem, fun m hm => by rw [hother m hm, State.withCommand_lane]⟩
  · exact ends_of_run rfl ht (congrArg finished (if_neg (by rw [State.withCommand_lane, hr]; decide)))
      (State.keepsBut_mono (State.retireLane_keepsBut _ _ _) (by decide)) (State.retireLane_recorded _ _ _)
  · refine ends_of_run rfl ht (congrArg finished (if_pos ?_)) (State.keepsBut_refl _ _) trivial
    rw [State.withCommand_lane, hr]
    rfl
  · rw [← State.withCommand_lane s (.laneRestore h n) h n] at hr
    obtain ⟨hlane, hmem, hother, hkeep⟩ := State.restoreLane_retired hr
    exact ends_of_run rfl ht rfl hkeep
      ⟨by rw [hlane, State.withCommand_lane], hmem, fun m hm => by rw [hother m hm, State.withCommand_lane]⟩
  · refine refuses_of_run rfl ht ?_
    simp only [State.runCmd, State.laneTest, State.withCommand_laneTestRefusal, hst]
    rfl
  · obtain ⟨htest, hask⟩ := (s.withCommand (.laneTest h n after ticks r) h).startLaneTest_left n ticks (after == 1) r
    rw [State.withCommand_lane] at htest hask
    refine ⟨_, _, waits_of_run rfl ht ?_, htest, rfl, rfl, rfl, rfl, rfl, hask, ?_⟩
    · simp only [State.runCmd, State.laneTest, State.withCommand_laneTestRefusal, hnone]
    · rw [State.keepsBut_memory (State.startLaneTest_keepsBut _ _ _ _ _), State.withCommand_memory]
  · exact refuses_of_run rfl ht (if_pos (by rw [State.withCommand_lsm]; exact hd))
  · obtain ⟨hdrain, hports⟩ := (s.withCommand (.laneLsmRelease h j) h).lsmRelease_left j
    refine waits_with rfl ht (if_neg ?_) ⟨hdrain, fun p hp => hports p ?_,
      State.keepsBut_mono (State.lsmRelease_keepsBut _ _) (by decide)⟩
    · rw [State.withCommand_lsm, hd]
      decide
    · rw [State.withCommand_lsmPorts]
      exact hp

end Sys2Proof.Machine
end

section

-- One declaration after another: elaborated side by side, they take more threads than the check allows.
set_option Elab.async false

/-! The checks of a command in an idle device, and commands that are held (R53, R313, Table 13.5). -/

namespace Sys2Proof.Machine

open Sys2Proof (Instr CmdHdr Ref Path)

/-- What a command leads to once it has its context: the checks, and then its effective tick, or its own rule. -/
def State.judged (s : State) (x : Ctx) : State :=
  match s.checks x with
  | some st => s.complete x st
  | none => if x.hdr.effTick ≠ 0 then s.hold x (.tick x.hdr.effTick) else s.ready x false

/-- A command that arrives in an idle device is judged in its context. -/
theorem State.arrive_judged {s : State} (hs : s.host.ctxs = []) (c : Instr) (h : CmdHdr) :
    s.arrive c h (codeOf c) 0 = (s.setHost fun t => { t with
      ctxs := [{ s.ctxFor c h with state := .started (.object false) }], nextId := t.nextId + 1 }).judged (s.ctxFor c h) := by
  have hctx : ((s.addCtx c h (codeOf c) 0).setCtx s.host.nextId fun y => { y with state := .started (.object false) }) =
      s.setHost fun t => { t with
        ctxs := [{ s.ctxFor c h with state := .started (.object false) }], nextId := t.nextId + 1 } := by
    simp [State.addCtx, State.setCtx, State.setHost, hs, State.ctxFor]
  rw [State.arrive, hs, ← hctx]
  rfl

/-- The row of a command in an idle device with its path free: the command is judged in its context, and the machine
settles. -/
theorem exec_idle {s : State} {c : Instr} {code : Nat} {h : CmdHdr} (hc : cmdOf c = some (code, h))
    (ha : s.answering = true) (hx : s.host.ctxs = []) (hp : s.pathFree h.path = true) :
    exec c s = .next ((s.withCommand c h).judged (s.ctxFor c h)).settle := by
  rw [exec_command hc, State.submit, if_neg (by simp [ha])]
  cases hpath : h.path with
  | mailbox m =>
    have hm : ¬64 ≤ m := by simpa [State.pathFree, hpath] using hp
    dsimp only
    rw [if_neg hm, State.arrive_judged hx, State.withCommand, if_neg (by simp [hpath])]
  | sideband =>
    have hq : s.host.side.busy = false := by simpa [State.pathFree, hpath] using hp
    dsimp only
    rw [if_neg (by simp [hq]), State.arrive_judged (s := s.sideTake) hx, State.withCommand, if_pos hpath]
    rfl
  | fabric _ _ _ _ _ =>
    dsimp only
    rw [State.arrive_judged hx, State.withCommand, if_neg (by simp [hpath])]

/-- The checks are the same with the command in its context. -/
theorem State.withCommand_checks (s : State) (c : Instr) (h : CmdHdr) (x : Ctx) :
    (s.withCommand c h).checks x = s.checks x := by
  rw [State.withCommand_eq]
  exact State.checks_setHost (by split <;> rfl) (by split <;> rfl)

theorem codeOf_eq {c : Instr} {code : Nat} {h : CmdHdr} (hc : cmdOf c = some (code, h)) : codeOf c = code := by
  simp [codeOf, hc]

/-! ## What the checks decide -/

section

variable {s : State} {c : Instr} {h : CmdHdr} {code : Nat}

/-- The first check: the safe state and the phase. -/
theorem State.checks_notReady (hc : cmdOf c = some (code, h))
    (hn : (s.isSafe && !safeCmd code) = true ∨ s.phaseOk c code h.path = false) :
    s.checks (s.ctxFor c h) = some Status.notReady := by
  have hwhen : ((s.isSafe && !safeCmd code) || !s.phaseOk c code h.path) = true := by
    rcases hn with hn | hn <;> simp [hn]
  simp only [State.checks, State.ctxFor, codeOf_eq hc]
  rw [if_neg (by decide), if_pos hwhen]

/-- The second check: the path. -/
theorem State.checks_notPermitted (hc : cmdOf c = some (code, h)) (hs : (s.isSafe && !safeCmd code) = false)
    (hph : s.phaseOk c code h.path = true) (hp : s.pathOk c code h.path = false) :
    s.checks (s.ctxFor c h) = some Status.notPermitted := by
  simp only [State.checks, State.ctxFor, codeOf_eq hc]
  rw [if_neg (by decide), if_neg (by rw [hs, hph]; decide), if_pos (by rw [hp]; rfl)]

/-- The third check: the arguments, and the use of an effective tick. -/
theorem State.checks_descInvalid (hc : cmdOf c = some (code, h)) (hs : (s.isSafe && !safeCmd code) = false)
    (hph : s.phaseOk c code h.path = true) (hp : s.pathOk c code h.path = true)
    (hd : s.argsOk c = false ∨ (h.effTick ≠ 0 ∧ tickUse code = 0) ∨ (h.effTick = 0 ∧ tickUse code = 2)) :
    s.checks (s.ctxFor c h) = some Status.descInvalid := by
  simp only [State.checks, State.ctxFor, codeOf_eq hc]
  rw [if_neg (by decide), if_neg (by rw [hs, hph]; decide), if_neg (by rw [hp]; decide), if_pos (.inr hd)]

/-- The job of a command without an effective tick. -/
theorem State.checks_jobUnknown (hc : cmdOf c = some (code, h)) (hs : (s.isSafe && !safeCmd code) = false)
    (hph : s.phaseOk c code h.path = true) (hp : s.pathOk c code h.path = true) (ha : s.argsOk c = true)
    (he : h.effTick = 0) (ht : tickUse code ≠ 2) {j : Nat} (hj : jobNamed c = some j) (hn : s.host.jobs.get? j = none) :
    s.checks (s.ctxFor c h) = some Status.jobUnknown := by
  simp only [State.checks, State.ctxFor, codeOf_eq hc]
  rw [if_neg (by decide), if_neg (by rw [hs, hph]; decide), if_neg (by rw [hp]; decide),
    if_neg (by simp [ha, he, ht]), if_pos he]
  simp only [hj, hn, Option.isNone_none, if_true]

end

/-! ## Commands that are held -/

section

variable {s : State} {c : Instr} {h : CmdHdr} {code : Nat} (hc : cmdOf c = some (code, h)) (ha : s.answering = true)
  (hx : s.host.ctxs = []) (hp : s.pathFree h.path = true)

include hc ha hx hp

/-- The first check that fails decides the status (Table 13.5). -/
theorem refuses_of_checks {st : Nat} (hst : s.checks (s.ctxFor c h) = some st) : Refuses s c h st := by
  rw [Refuses, Completes, exec_idle hc ha hx hp, State.judged, State.withCommand_checks, hst]

/-- A command with an effective tick is judged by its own rule, and held (R313). -/
theorem exec_hold (he : h.effTick ≠ 0) (hk : s.checks (s.ctxFor c h) = none) :
    exec c s = .next ((s.withCommand c h).hold (s.ctxFor c h) (.tick h.effTick)).settle := by
  rw [exec_idle hc ha hx hp, State.judged, State.withCommand_checks, hk]
  exact congrArg (fun u : State => Host.Outcome.next u.settle) (if_pos he)

/-- A command that takes effect at a boundary is judged by its own rule, and held until then. -/
theorem exec_boundary (he : h.effTick = 0) (ht : s.ticking = true) (hb : s.atBoundary c = true)
    (hk : s.checks (s.ctxFor c h) = none) :
    exec c s = .next ((s.withCommand c h).hold (s.ctxFor c h) (.boundary h.late)).settle := by
  have hfree : (s.withCommand c h).blocked (s.ctxFor c h) = false := by
    refine State.lone_not_blocked (y := { s.ctxFor c h with state := .started (.object false) }) ?_ rfl
    rw [State.withCommand_eq]
    rfl
  have hwhen : (!false && (s.withCommand c h).ticking && (s.withCommand c h).atBoundary c) = true := by
    have hsame : (s.withCommand c h).atBoundary c = s.atBoundary c := by
      rw [State.withCommand_eq]
      rfl
    rw [State.withCommand_ticking, hsame, ht, hb]
    rfl
  rw [exec_idle hc ha hx hp, State.judged, State.withCommand_checks, hk]
  refine congrArg (fun u : State => Host.Outcome.next u.settle) ((if_neg (fun hn => hn he)).trans ?_)
  rw [State.ready, if_neg (by rw [hfree]; decide)]
  exact if_pos hwhen

end

/-- A held command has its context as it was, and waits for its time. -/
theorem State.hold_waits (s : State) (c : Instr) (h : CmdHdr) (k : WaitKey) :
    ((s.withCommand c h).setCtx s.host.nextId fun y => { y with state := .started k }) =
      (s.withCommand c h).setCtx s.host.nextId fun y => { y with state := .started k, result := [], made := none } := by
  rw [State.withCommand_eq]
  simp [State.setCtx, State.setHost, State.ctxFor]

/-- A command whose own rule succeeds, or waits, is held. -/
theorem State.hold_accepted {s : State} {x : Ctx} {k : WaitKey} {e : CmdEnd} {u : State} (hr : s.runCmd x.cmd x.hdr = (e, u))
    (he : ∀ st d r o, e = .done st d r o → st = 0) : s.hold x k = s.setCtx x.id fun y => { y with state := .started k } := by
  rw [State.hold, hr]
  cases e with
  | done st d r o => obtain rfl := he st d r o rfl; rfl
  | wait k r m => rfl

/-- A command whose own rule refuses it completes. -/
theorem State.hold_refused {s : State} {x : Ctx} {k : WaitKey} {st d : Nat} {r : List Byte} {o : Option (Ref × List Byte)}
    {u : State} (hr : s.runCmd x.cmd x.hdr = (.done st d r o, u)) (hst : st ≠ 0) : s.hold x k = u.complete x st d r := by
  rw [State.hold, hr]
  cases st with
  | zero => exact absurd rfl hst
  | succ n => rfl

/-- Settles O4: the first check that fails decides; effective ticks and boundaries hold a command. -/
theorem commandsAreChecked : Obligations.CommandsAreChecked := by
  unfold Obligations.CommandsAreChecked
  refine fun s c h code hc ha hx hp => ⟨fun st hst => refuses_of_checks hc ha hx hp hst,
    fun hn => refuses_of_checks hc ha hx hp (State.checks_notReady hc hn),
    fun hs hph => ⟨fun hpath => refuses_of_checks hc ha hx hp (State.checks_notPermitted hc hs hph hpath),
      fun hpath => ⟨fun hd => refuses_of_checks hc ha hx hp (State.checks_descInvalid hc hs hph hpath hd),
        fun hargs he ht j hj hn =>
          refuses_of_checks hc ha hx hp (State.checks_jobUnknown hc hs hph hpath hargs he ht hj hn)⟩⟩,
    fun he hk => ⟨fun st d r o u hst hr => ?_, fun d r o u hr => ?_, fun k r m u hr => ?_⟩, fun he ht hb hk d r o u hr => ?_⟩
  · rw [Completes, exec_hold hc ha hx hp he hk, State.hold_refused hr hst]
  · rw [Waits, exec_hold hc ha hx hp he hk, State.hold_accepted hr (by simp +contextual), ← State.hold_waits]
    rfl
  · rw [Waits, exec_hold hc ha hx hp he hk, State.hold_accepted hr (by simp), ← State.hold_waits]
    rfl
  · rw [Waits, exec_boundary hc ha hx hp he ht hb hk, State.hold_accepted hr (by simp +contextual), ← State.hold_waits]
    rfl

end Sys2Proof.Machine
end

section

-- One declaration after another: elaborated side by side, they take more threads than the check allows.
set_option Elab.async false

/-! The plan, readmission, reservations and the tick keeper by command (R48, R50, R107, R127, R128, R142, R332). -/

namespace Sys2Proof.Machine

open Sys2Proof (Instr CmdHdr Ref)

/-! ## What judging ports leaves of the plan -/

/-- The plan in force and its seed are as they were. -/
def State.plansKept (s t : State) : Prop := t.topo.plan = s.topo.plan ∧ t.topo.seed = s.topo.seed

theorem State.plans_refl (s : State) : s.plansKept s := ⟨rfl, rfl⟩

theorem State.plans_then {z s t : State} (h' : s.plansKept t) (h : z.plansKept s) : z.plansKept t :=
  ⟨h'.1.trans h.1, h'.2.trans h.2⟩

theorem State.plans_of_topo {s t : State} (h : t.topo = s.topo) : s.plansKept t := by
  rw [State.plansKept, h]
  exact ⟨rfl, rfl⟩

theorem State.plans_keep {z s t : State} {ch : List Part} (h' : s.keepsBut ch t) (h : z.plansKept s)
    (hc : ch.contains .topo = false) : z.plansKept t :=
  State.plans_then (State.plans_of_topo (State.keepsBut_topo h' (by simpa using hc))) h

theorem State.plans_set (s : State) {t : TopoSt} (hp : t.plan = s.topo.plan) (hs : t.seed = s.topo.seed) :
    s.plansKept { s with topo := t } := ⟨hp, hs⟩

theorem State.plans_foldl {α : Type} {z s : State} {f : State → α → State} {l : List α}
    (h : ∀ (s : State) x, s.plansKept (f s x)) (hs : z.plansKept s) : z.plansKept (l.foldl f s) := by
  induction l generalizing s with
  | nil => exact hs
  | cons a l ih => exact ih (State.plans_then (h s a) hs)

theorem State.trunks_plans {s t : State} (h : s.trunksOnly t) : s.plansKept t := by
  rw [State.trunksOnly] at h
  exact ⟨by rw [h], by rw [h]⟩

theorem State.setRoute_plans (s : State) (p : Nat) (f : RouteSt → RouteSt) : s.plansKept (s.setRoute p f) := ⟨rfl, rfl⟩

theorem State.learnPeer_plans (s : State) (p : Nat) : s.plansKept (s.learnPeer p) := by
  simp only [State.learnPeer]
  split <;> exact s.setRoute_plans _ _

theorem State.servePort_plans (s : State) (p : Nat) : s.plansKept (s.servePort p) := by
  delta State.servePort
  extract_lets s1
  have h1 : s.plansKept s1 := State.plans_then (State.setRoute_plans _ _ _) (s.learnPeer_plans p)
  split
  · split
    · exact h1
    · exact State.plans_then (t := s1.setTopo _) ⟨rfl, rfl⟩ h1
  · exact h1

theorem State.holdPort_plans (s : State) (p : Nat) (reason : Nat) : s.plansKept (s.holdPort p reason) := by
  unfold State.holdPort
  dsimp only
  repeat' first
    | with_reducible exact State.plans_refl _
    | with_reducible apply State.plans_then (State.learnPeer_plans _ _)
    | with_reducible apply State.plans_then (State.setRoute_plans _ _ _)
    | with_reducible apply State.plans_keep (State.flushPort_keepsBut _ _ _)
    | with_reducible apply State.plans_keep (State.event_keepsBut _ _ _ _ _ _ _)
    | rfl

theorem State.judgeHello_plans (s : State) (p : Nat) (d : Disc) : s.plansKept (s.judgeHello p d) := by
  unfold State.judgeHello
  dsimp only
  repeat' first
    | with_reducible exact State.plans_refl _
    | with_reducible apply State.plans_then (State.holdPort_plans _ _ _)
    | with_reducible apply State.plans_then (State.servePort_plans _ _)
    | rfl
    | split

theorem State.judgePort_plans (s : State) (p : Nat) : s.plansKept (s.judgePort p) := by
  unfold State.judgePort
  dsimp only
  repeat' first
    | with_reducible exact State.plans_refl _
    | with_reducible apply State.plans_then (State.holdPort_plans _ _ _)
    | with_reducible apply State.plans_then (State.servePort_plans _ _)
    | with_reducible apply State.plans_then (State.judgeHello_plans _ _ _)
    | rfl
    | split

theorem State.summaryCheck_plans (s : State) : s.plansKept s.summaryCheck := by
  unfold State.summaryCheck
  split
  · have h : s.plansKept (s.setTopo fun t => { t with summary := true }) := ⟨rfl, rfl⟩
    exact State.plans_keep (State.event_keepsBut _ _ _ _ _ _ _) h rfl
  · exact State.plans_refl s

/-- A plan that is loaded is in force, with its seed (R332). -/
theorem State.loadPlan_left (s : State) (b : List Byte) :
    (s.loadPlan b).topo.plan = some (parsePlan b s.portCount) ∧ (s.loadPlan b).topo.seed = (parsePlan b s.portCount).seed := by
  delta State.loadPlan
  extract_lets pl prio s1 old s2 s3 s4 sw s5 s6
  have h2 : State.plansKept s2 s3 := State.plans_set s2 rfl rfl
  have h4 : State.plansKept s2 s4 := State.plans_foldl (fun u p => State.plans_keep (State.flushPort_keepsBut _ _ _)
    (State.plans_refl u) rfl) h2
  have h5 : State.plansKept s2 s5 := State.plans_then (State.plans_of_topo rfl) h4
  have h6 : State.plansKept s2 s6 := State.plans_foldl (fun u p => State.plans_keep (State.scaleEvent_keepsBut _ _ _)
    (State.plans_refl u) rfl) h5
  exact State.plans_then (State.summaryCheck_plans _) (State.plans_then
    (State.trunks_plans (State.trunkCheck_trunks _)) (State.plans_foldl (fun u p => u.judgePort_plans p) h6))

/-! ## Bitmaps -/

/-- A number with a bit above it added. -/
theorem testBit_add_two_pow {w t : Nat} (hw : w < 2 ^ t) (i : Nat) :
    (w + 2 ^ t).testBit i = (w.testBit i || decide (t = i)) := by
  have h := Nat.two_pow_add_eq_or_of_lt hw 1
  rw [Nat.mul_one] at h
  rw [Nat.add_comm, h, Nat.testBit_or, Nat.testBit_two_pow, Bool.or_comm]

/-- The bits of a bitmap that is put together from rising numbers. -/
theorem testBit_bitmap (p : Nat → Bool) (l : List Nat) (w i : Nat) (hl : l.Pairwise (· < ·)) (hw : ∀ t ∈ l, w < 2 ^ t) :
    (l.foldl (fun w t => if p t then w + 2 ^ t else w) w).testBit i = (w.testBit i || (decide (i ∈ l) && p i)) := by
  induction l generalizing w with
  | nil => simp
  | cons t l ih =>
    obtain ⟨hlt, hl⟩ := List.pairwise_cons.1 hl
    have ht := hw t List.mem_cons_self
    have hnext : ∀ u ∈ l, (if p t then w + 2 ^ t else w) < 2 ^ u := fun u hu => by
      have hpow : 2 ^ (t + 1) ≤ 2 ^ u := Nat.pow_le_pow_right (by omega) (hlt u hu)
      rw [Nat.pow_succ] at hpow
      split <;> omega
    have hbit : (if p t then w + 2 ^ t else w).testBit i = (w.testBit i || (decide (t = i) && p i)) := by
      by_cases hti : t = i
      · subst hti
        cases hp : p t <;> simp [testBit_add_two_pow ht]
      · cases hp : p t <;> simp [testBit_add_two_pow ht, hti]
    have hmem : decide (i ∈ t :: l) = (decide (t = i) || decide (i ∈ l)) := by simp [eq_comm]
    rw [List.foldl_cons, ih _ hl hnext, hbit, hmem, Bool.or_assoc]
    cases p i <;> simp

/-! ## Readmission -/

/-- A trunk is missing as a bitmap says. -/
theorem State.bit_missingNow (s : State) (t : Nat) :
    bit s.missingNow t = (decide (t ∈ s.ownTrunks) && s.ownTrunkMissing t) := by
  have hrising : s.ownTrunks.Pairwise (· < ·) := List.pairwise_lt_range.filter _
  exact (testBit_bitmap s.ownTrunkMissing s.ownTrunks 0 t hrising fun u _ => Nat.two_pow_pos u).trans (by simp)

/-- What readmitting ports keeps: the plan, hedges, what is known of trunks and nodes, and the ports that are in service stay
in service. -/
def State.servesMore (s t : State) : Prop :=
  t.topo.plan = s.topo.plan ∧ t.topo.hedges = s.topo.hedges ∧ t.topo.ownMissing = s.topo.ownMissing ∧
  ∀ q, (t.route q).peerState = (s.route q).peerState ∧ ((s.route q).state = 2 → (t.route q).state = 2)

theorem State.servesMore_refl (s : State) : s.servesMore s := ⟨rfl, rfl, rfl, fun _ => ⟨rfl, id⟩⟩

theorem State.servesMore_trans {z s t : State} (h : z.servesMore s) (h' : s.servesMore t) : z.servesMore t := by
  obtain ⟨hp, hh, ho, hq⟩ := h
  obtain ⟨hp', hh', ho', hq'⟩ := h'
  exact ⟨hp'.trans hp, hh'.trans hh, ho'.trans ho,
    fun q => ⟨(hq' q).1.trans (hq q).1, fun h2 => (hq' q).2 ((hq q).2 h2)⟩⟩

/-- A change of the recorded epochs. -/
theorem State.servesMore_epochs (s : State) (e : NMap Nat) : s.servesMore (s.setTopo fun t => { t with epochs := e }) :=
  ⟨rfl, rfl, rfl, fun _ => ⟨rfl, id⟩⟩

theorem State.servesMore_epochsIf (b : Bool) (f : NMap Nat → NMap Nat) (s : State) :
    s.servesMore (if b = true then s.setTopo fun t => { t with epochs := f t.epochs } else s) := by
  cases b
  · exact s.servesMore_refl
  · exact s.servesMore_epochs _

/-- A change of a port's routing state that keeps what the peer reports, and does not withdraw the port. -/
theorem State.servesMore_setRoute (s : State) (p : Nat) {f : RouteSt → RouteSt} (hf : ∀ r, (f r).peerState = r.peerState)
    (hs : ∀ r, r.state = 2 → (f r).state = 2) : s.servesMore (s.setRoute p f) := by
  refine ⟨rfl, rfl, rfl, fun q => ?_⟩
  by_cases h : q = p
  · subst h
    rw [State.route_setRoute]
    exact ⟨hf _, hs _⟩
  · rw [State.route_setRoute_ne _ _ h]
    exact ⟨rfl, id⟩

theorem State.learnPeer_servesMore (s : State) (p : Nat) : s.servesMore (s.learnPeer p) := by
  simp only [State.learnPeer]
  split <;> exact s.servesMore_setRoute p (fun _ => rfl) fun _ h => h

/-- A port that goes in service is in service, and the others stay so. -/
theorem State.servePort_left (s : State) (p : Nat) :
    ((s.servePort p).route p).state = 2 ∧ s.servesMore (s.servePort p) := by
  delta State.servePort
  extract_lets s1
  have h1 : s.servesMore s1 := State.servesMore_trans (s.learnPeer_servesMore p)
    (State.servesMore_setRoute _ p (fun _ => rfl) fun _ _ => rfl)
  have hp : (s1.route p).state = 2 := by simp only [s1, State.route_setRoute]
  split
  · split
    · exact ⟨hp, h1⟩
    · exact ⟨hp, State.servesMore_trans h1 (State.servesMore_epochs _ _)⟩
  · exact ⟨hp, h1⟩

theorem State.readmitPort_left (s : State) (p : Nat) :
    ((s.readmitPort p).route p).state = 2 ∧ s.servesMore (s.readmitPort p) := by
  delta State.readmitPort
  extract_lets s1
  have h1 : s.servesMore s1 := by
    simp only [s1]
    split
    next d _ => exact State.servesMore_epochsIf _ (fun e => e.set d.node d.epoch) s
    · exact s.servesMore_refl
  obtain ⟨hp, hmore⟩ := s1.servePort_left p
  exact ⟨hp, State.servesMore_trans h1 hmore⟩

/-- Ports that are readmitted one after another are in service in the end. -/
theorem State.readmitPorts_left (l : List Nat) (s : State) :
    (∀ p ∈ l, ((l.foldl State.readmitPort s).route p).state = 2) ∧ s.servesMore (l.foldl State.readmitPort s) := by
  induction l generalizing s with
  | nil => exact ⟨by simp, s.servesMore_refl⟩
  | cons p l ih =>
    obtain ⟨hin, hmore⟩ := ih (s.readmitPort p)
    obtain ⟨hp, hfirst⟩ := s.readmitPort_left p
    refine ⟨fun q hq => ?_, State.servesMore_trans hfirst hmore⟩
    rcases List.mem_cons.1 hq with rfl | hq
    · exact (hmore.2.2.2 q).2 hp
    · exact hin q hq

/-- Trunks that were there are there when more ports serve. -/
theorem State.ownTrunkMissing_servesMore {s t : State} (h : s.servesMore t) (k : Nat) (hm : t.ownTrunkMissing k = true) :
    s.ownTrunkMissing k = true := by
  obtain ⟨hplan, hhedges, -, hroute⟩ := h
  have htrunk : t.trunkPorts k = s.trunkPorts k := by rw [State.trunkPorts, State.trunkPorts, hplan]
  simp only [State.ownTrunkMissing, State.presentPorts, htrunk, List.isEmpty_iff, List.filter_eq_nil_iff] at *
  intro p hp hserve
  refine hm p hp ?_
  have hrole : t.role p = s.role p := by simp only [State.role, State.portEntry, hplan]
  simp only [State.serving, State.inService, State.portHedged, hrole, hhedges, (hroute p).1, Bool.and_eq_true,
    beq_iff_eq] at hserve ⊢
  exact ⟨⟨(hroute p).2 hserve.1.1, hserve.1.2⟩, hserve.2⟩

/-- A notice changes what is known of no node. -/
theorem State.holdNotice_nodes (s : State) (n : Notice) : (s.holdNotice n).topo.nodes = s.topo.nodes := by
  rw [State.holdNotice, State.keepsBut_topo (State.floodNotice_keepsBut _ _), State.setTopo_topo]

theorem State.originateNotice_nodes (s : State) (t e : Nat) : (s.originateNotice t e).topo.nodes = s.topo.nodes := by
  rw [State.originateNotice, State.holdNotice_nodes, State.setTopo_topo]

theorem State.setUnreported_nodes (s : State) (f : TopoSt → Nat) :
    (s.setTopo fun x => { x with unreported := f x }).topo.nodes = s.topo.nodes := rfl

theorem State.setOwnMissing_nodes (s : State) (w : Nat) :
    (s.setTopo fun x => { x with ownMissing := w }).topo.nodes = s.topo.nodes := rfl

/-- A trunk that has become present marks no node lost. -/
theorem State.trunkPresent_nodes (s : State) (t : Nat) : (s.trunkChanged t false).topo.nodes = s.topo.nodes := by
  delta State.trunkChanged
  extract_lets s1 s2 s3
  rw [if_neg (by decide)]
  have h2 : s2.topo = s1.topo := State.event_topo s1 _ _ _ _ _ _
  have h3 : s3.topo.nodes = s2.topo.nodes := by
    simp only [s3]
    exact State.originateNotice_nodes s2 t _
  rw [h3, h2]
  exact s.setUnreported_nodes _

theorem State.trunksPresent_nodes (now : Nat) (l : List Nat) (s : State) (h : ∀ t ∈ l, bit now t = false) :
    (l.foldl (fun s t => s.trunkChanged t (bit now t)) s).topo.nodes = s.topo.nodes := by
  induction l generalizing s with
  | nil => rfl
  | cons t l ih =>
    rw [List.foldl_cons, ih _ fun u hu => h u (List.mem_cons_of_mem _ hu), h t List.mem_cons_self, State.trunkPresent_nodes]

/-- Where no further trunk is missing, a check of the trunks marks no node lost. -/
theorem State.trunkCheck_nodes {s : State} (h : ∀ t, bit s.missingNow t = true → bit s.topo.ownMissing t = true) :
    s.trunkCheck.topo.nodes = s.topo.nodes := by
  delta State.trunkCheck
  extract_lets old now s1
  refine (State.trunksPresent_nodes now _ s1 fun t ht => ?_).trans (s.setOwnMissing_nodes _)
  cases hnow : bit now t with
  | false => rfl
  | true => simp [old, hnow, h t hnow] at ht

theorem State.setLs_isLost (s : State) (n : Nat) : (s.setLs n fun l => { l with lost := false, back := true }).isLost n = false := by
  simp [State.isLost, State.ls, State.setLs, State.setTopo]

/-- What is known of nodes and ports stays as it is when notices of trunks go out. -/
theorem State.notices_keep (l : List Nat) (s : State) :
    (l.foldl (fun s t => s.originateNotice t 2) s).topo.nodes = s.topo.nodes ∧
    s.trunksOnly (l.foldl (fun s t => s.originateNotice t 2) s) ∧
    (l.foldl (fun s t => s.originateNotice t 2) s).topo.ownMissing = s.topo.ownMissing := by
  induction l generalizing s with
  | nil => exact ⟨rfl, rfl, rfl⟩
  | cons t l ih =>
    obtain ⟨hnodes, hrest, hown⟩ := ih (s.originateNotice t 2)
    rw [List.foldl_cons]
    refine ⟨hnodes.trans (s.originateNotice_nodes t 2), State.trunks_then hrest (s.originateNotice_trunks t 2), hown.trans ?_⟩
    rw [State.originateNotice, State.holdNotice, State.keepsBut_topo (State.floodNotice_keepsBut _ _), State.setTopo_topo,
      State.setTopo_topo]

theorem State.servesMore_of_trunks {s t : State} (h : s.trunksOnly t) (ho : t.topo.ownMissing = s.topo.ownMissing) :
    s.servesMore t := by
  rw [State.trunksOnly] at h
  refine ⟨by rw [h], by rw [h], ho, fun q => ?_⟩
  have hq : t.route q = s.route q := by rw [State.route, State.route, h]
  rw [hq]
  exact ⟨rfl, id⟩

/-- Where only trunks are missing that were missing, the bitmap of missing trunks has grown by none. -/
theorem State.missingNow_servesMore {s t : State} (h : s.servesMore t) (ho : s.topo.ownMissing = s.missingNow) (k : Nat)
    (hk : bit t.missingNow k = true) : bit t.topo.ownMissing k = true := by
  have ⟨hplan, _, hown, _⟩ := h
  have htrunks : t.ownTrunks = s.ownTrunks := by simp only [State.ownTrunks, State.trunkPorts, hplan]
  rw [State.bit_missingNow, Bool.and_eq_true, htrunks] at hk
  rw [hown, ho, State.bit_missingNow, Bool.and_eq_true]
  exact ⟨hk.1, State.ownTrunkMissing_servesMore h k hk.2⟩

/-- A node that is readmitted is no longer lost, and the ports held for it serve (R127). -/
theorem State.readmit_left {s : State} {n : Nat} (hn : n ≠ s.me) (ho : s.topo.ownMissing = s.missingNow) :
    (s.readmit n).isLost n = false ∧ ∀ p ∈ s.heldFor n, ((s.readmit n).route p).state = 2 := by
  delta State.readmit
  extract_lets ports trunks s1 s2
  obtain ⟨hin, h1⟩ := State.readmitPorts_left ports s
  have hme : s1.me = s.me := by rw [State.me, State.me, h1.1]
  rw [hme, if_neg hn]
  have h2 : s1.servesMore s2 := ⟨rfl, rfl, rfl, fun _ => ⟨rfl, id⟩⟩
  obtain ⟨hnodes, hrest, hown⟩ := State.notices_keep trunks s2
  have h3 := State.servesMore_of_trunks hrest hown
  have h23 := State.servesMore_trans h2 h3
  constructor
  · have hcheck := State.trunkCheck_nodes fun k => State.missingNow_servesMore (State.servesMore_trans h1 h23) ho k
    rw [State.isLost, State.ls, hcheck, hnodes]
    exact s1.setLs_isLost n
  · intro p hp
    rw [State.route, State.trunkCheck_routes]
    exact (h23.2.2.2 p).2 (hin p hp)

theorem State.readmitRefusal_withCommand (s : State) (c : Instr) (h : CmdHdr) (n : Nat) :
    (s.withCommand c h).readmitRefusal n = s.readmitRefusal n := by
  rw [State.withCommand_eq]; rfl

/-- READMIT as its own rule judges it. -/
theorem State.topoReadmit_accepted {s : State} {n : Nat} (h : s.readmitRefusal n = none) :
    s.topoReadmit n = finished ((s.readmit n).reinstallGroups n) := by rw [State.topoReadmit, h]

theorem State.topoReadmit_refused {s : State} {n st : Nat} (h : s.readmitRefusal n = some st) :
    s.topoReadmit n = denied s st := by rw [State.topoReadmit, h]

/-- A command that names no job and that succeeds with nothing to return completes. -/
theorem State.perform_done {s u : State} {x : Ctx} {st : Nat} (hj : jobNamed x.cmd = none)
    (hr : s.runCmd x.cmd x.hdr = (.done st 0 [] none, u)) : s.perform x = u.complete x st := by
  simp only [State.perform, hj, hr, Bool.false_eq_true, if_false]

/-! ## The tick keeper and reservations -/

/-- REJOIN in UNSYNC with no neighbour heard joins without a parent (R48, R50). -/
theorem State.rejoin_alone {s : State} (h6 : s.tick.state = 6) (hn : s.tick.nbrs = []) :
    s.rejoin.tick.state = 2 ∧ s.rejoin.tick.parent = none ∧ s.rejoin.tick.counter = s.tick.counter := by
  delta State.rejoin
  rw [if_pos h6]
  extract_lets s1
  have htick : s1.tick = (s.setTick fun t => { t with parent := none, stepped := false, offsets := [] }).forgetRoot.tick.entered 2 0 :=
    State.tickEnter_tick _ _ _
  have hbest : s1.bestParent = none := by
    rw [State.bestParent, show s1.tick.nbrs = [] by rw [htick]; exact hn]
    rfl
  rw [hbest]
  dsimp only
  rw [State.announceChange_tick, htick]
  exact ⟨rfl, rfl, rfl⟩

theorem State.c7Limit_withCommand (s : State) (c : Instr) (h : CmdHdr) : (s.withCommand c h).c7Limit = s.c7Limit := by
  rw [State.withCommand_eq]; rfl

theorem State.role_withCommand (s : State) (c : Instr) (h : CmdHdr) (p : Nat) : (s.withCommand c h).role p = s.role p := by
  rw [State.withCommand_eq]; rfl

theorem State.planOk_withCommand (s : State) (c : Instr) (h : CmdHdr) (b : List Byte) :
    (s.withCommand c h).planOk b = s.planOk b := by
  rw [State.withCommand_eq]; rfl

theorem State.portCount_withCommand (s : State) (c : Instr) (h : CmdHdr) : (s.withCommand c h).portCount = s.portCount := by
  rw [State.withCommand_eq]; rfl

/-- A record that has been read is judged (R107, R332). -/
theorem State.topoLoad_read {s : State} {c : Instr} {h : CmdHdr} {r : Ref} {b : List Byte} (hj : s.host.jobs = [])
    (hr : (s.readImage c h r 64 fun b => planLength b s.portCount) = .inr b) : s.topoLoad c h r =
      if (!s.planOk b) = true then denied s Status.planInvalid
      else finished (if (s.loadPlan b).boot.phase = Phase.carved then (s.loadPlan b).enter Phase.planned else s.loadPlan b) := by
  simp only [State.topoLoad, hj, hr, List.isEmpty_nil, Bool.not_true, Bool.false_eq_true, if_false]

/-- Settles O51: the plan, readmission, the seed, reservations and the tick keeper by command. -/
theorem topologyCommands : Obligations.TopologyCommands := by
  unfold Obligations.TopologyCommands
  refine fun s h => ⟨fun ht => ⟨fun h6 => ?_, fun h6 hn => ?_⟩, fun r ht => ⟨fun hj => ?_, fun b hj hr => ⟨fun hok => ?_, fun hok => ?_⟩⟩,
    fun p r ht => ⟨fun hbad => ?_, fun hr hrole => ?_⟩, fun c hc ha hx hp he hk => ?_,
    fun x t ht hx hst hle => ⟨fun n hcmd hn hnone ho => ?_, fun n st hcmd hst' => ?_, fun seed hcmd => ?_⟩⟩
  · exact ends_of_run rfl ht (congrArg finished (if_neg (by rw [State.withCommand_tick]; exact h6))) (State.keepsBut_refl _ _) trivial
  · rw [← State.withCommand_tick s (.tickRejoin h) h] at h6 hn
    obtain ⟨hstate, hparent, hcounter⟩ := State.rejoin_alone h6 hn
    exact ends_of_run rfl ht rfl (State.keepsBut_mono (State.rejoin_keepsBut _) (by decide))
      ⟨hstate, hparent, by rw [hcounter, State.withCommand_tick]⟩
  · exact refuses_of_run rfl ht (if_pos (by simpa using hj))
  · refine refuses_of_run rfl ht ((State.topoLoad_read (by simpa using hj)
      (by rw [State.portCount_withCommand]; exact hr)).trans (if_pos ?_))
    rw [State.planOk_withCommand, hok]
    rfl
  · have hkeep := (s.withCommand (.topoLoad h r) h).loadPlan_keepsBut b
    obtain ⟨hplan, hseed⟩ := (s.withCommand (.topoLoad h r) h).loadPlan_left b
    rw [State.portCount_withCommand] at hplan hseed
    have hphase : ((s.withCommand (.topoLoad h r) h).loadPlan b).boot.phase = s.boot.phase := by
      rw [State.keepsBut_boot hkeep, State.withCommand_boot]
    have henter := ((s.withCommand (.topoLoad h r) h).loadPlan b).enter_keepsBut Phase.planned 0
    refine ends_of_run rfl ht ((State.topoLoad_read (by simpa using hj)
      (by rw [State.portCount_withCommand]; exact hr)).trans (if_neg ?_)) ?_ ?_
    · rw [State.planOk_withCommand, hok]
      decide
    · split
      · exact State.keepsBut_then henter (State.keepsBut_mono hkeep (by decide)) rfl
      · exact State.keepsBut_mono hkeep (by decide)
    · rw [hphase]
      split
      · exact ⟨by rw [State.keepsBut_topo henter, hplan], by rw [State.keepsBut_topo henter, hseed], by rw [State.enter_boot]⟩
      · exact ⟨hplan, hseed, hphase⟩
  · refine refuses_of_run rfl ht (if_pos ?_)
    rw [State.c7Limit_withCommand, State.role_withCommand]
    exact hbad
  · have hkeep := State.scaleEvent_keepsBut ({ s.withCommand (.schedReserve h p r) h with
      sw := { (s.withCommand (.schedReserve h p r) h).sw with
        reserve := (s.withCommand (.schedReserve h p r) h).sw.reserve.set p r } }) p 256
    refine ends_of_run rfl ht (if_neg ?_)
      (State.keepsBut_then hkeep (State.keepsBut_with_sw _ (State.keepsBut_refl _ _) rfl) rfl) ?_
    · rw [State.c7Limit_withCommand, State.role_withCommand]
      rintro (hlt | ⟨hfab, hlt⟩)
      · omega
      · exact absurd (hrole hfab) (by omega)
    · rw [State.keepsBut_sw hkeep, State.withCommand_sw]
  · rcases hc with ⟨n, rfl, hnone⟩ | ⟨seed, rfl⟩
    · rw [exec_hold rfl ha hx hp he hk, State.hold_accepted (x := s.ctxFor (.topoReadmit h n) h)
        (State.topoReadmit_accepted (by rw [State.readmitRefusal_withCommand]; exact hnone)) (by simp +contextual [Status.ok])]
      rfl
    · rw [exec_hold rfl ha hx hp he hk, State.hold_accepted (x := s.ctxFor (.routeReseed h seed) h) rfl (by simp +contextual [Status.ok])]
      rfl
  · obtain ⟨hlost, hserve⟩ := State.readmit_left hn ho
    have hgroups := (s.readmit n).reinstallGroups_keepsBut n
    have hrun : s.tickReached = ((s.readmit n).reinstallGroups n).complete x Status.ok := by
      rw [State.tickReached_lone hx hst, if_pos hle]
      exact State.perform_done (by rw [hcmd]; rfl) (by rw [hcmd]; exact State.topoReadmit_accepted hnone)
    refine ⟨_, leads_of_if (congrArg (fun u => Host.Outcome.next (if s.ticking then State.settle u else s)) hrun) ht, ?_, fun p hp _ => ?_, ?_⟩
    · rw [State.isLost, State.ls, State.keepsBut_topo hgroups]
      exact hlost
    · rw [State.route, State.keepsBut_topo hgroups]
      exact hserve p hp
    · rw [State.keepsBut_memory hgroups, State.keepsBut_memory (s.readmit_keepsBut n)]
  · have hrun : s.tickReached = s.complete x st := by
      rw [State.tickReached_lone hx hst, if_pos hle]
      exact State.perform_done (by rw [hcmd]; rfl) (by rw [hcmd]; exact State.topoReadmit_refused hst')
    exact leads_of_if (congrArg (fun u => Host.Outcome.next (if s.ticking then State.settle u else s)) hrun) ht
  · have hrun : s.tickReached = (s.setTopo fun t => { t with seed := seed }).complete x Status.ok := by
      rw [State.tickReached_lone hx hst, if_pos hle]
      exact State.perform_done (by rw [hcmd]; rfl) (by rw [hcmd]; rfl)
    exact ⟨_, leads_of_if (congrArg (fun u => Host.Outcome.next (if s.ticking then State.settle u else s)) hrun) ht, rfl,
      State.setTopo_keepsBut _ _⟩

end Sys2Proof.Machine
end

section

-- One declaration after another: elaborated side by side, they take more threads than the check allows.
set_option Elab.async false

/-! The pools by command and for internal units (R153–R168). -/

namespace Sys2Proof.Machine

open Sys2Proof (Instr CmdHdr Ref)

/-! ## Pools and their requests -/

/-- An address lies in one of the pools P0–P4. -/
theorem State.settAt_lt {s : State} {a k : Nat} {b : Bool} (h : s.settAt a = (some k, b)) : k < 5 := by
  simp only [State.settAt] at h
  split at h
  next k' t hf =>
    obtain ⟨i, hi, hmap⟩ := List.exists_of_findSome?_eq_some hf
    obtain ⟨u, -, hu⟩ := Option.map_eq_some_iff.1 hmap
    simp only [Prod.mk.injEq, Option.some.injEq] at h hu
    obtain ⟨rfl, -⟩ := h
    obtain ⟨rfl, -⟩ := hu
    simp at hi
    omega
  · simp at h

/-- A request tries only the pools P1–P4. -/
theorem mem_poolsFor {size k : Nat} {spill : Bool} (h : k ∈ poolsFor size spill) : 1 ≤ k ∧ k < 5 := by
  have hfit : k ∈ [1, 2, 3, 4].filter fun k => decide (size ≤ settSize k) := by
    simp only [poolsFor] at h
    split at h
    · exact h
    · exact List.mem_of_mem_take h
  have hmem := (List.mem_filter.1 hfit).1
  simp at hmem
  omega

/-- The pool whose failure ends a request is one of those tried. -/
theorem State.tryPools_mem (s : State) (r tile : Nat) (ks : List Nat) :
    (s.tryPools r tile ks).2.2 ∈ ks ∨ (s.tryPools r tile ks).2.2 = 0 := by
  induction ks with
  | nil => exact .inr rfl
  | cons k ks ih =>
    simp only [State.tryPools]
    split
    · exact .inl List.mem_cons_self
    · split
      · exact .inl List.mem_cons_self
      · exact ih.imp (List.mem_cons_of_mem _) id

/-- A request for a sett that a pool serves (R155–R158). -/
theorem State.alloc_served {s : State} {r size tile a k : Nat} {spill : Bool} (hr : requesterOk r = true) (h0 : 0 < size)
    (h16 : size ≤ 16 * mib) (ht : (s.tryPools r tile (poolsFor size spill)).1 = some (a, k)) (m : Nat) :
    ∃ b, s.alloc m r size tile spill = (some (a, k), Status.ok, s.grantSett m r k a b) := by
  have hr1 : r ≠ 0 := by
    rintro rfl
    exact absurd hr (by decide)
  have hsize : (!requesterOk r || decide (size = 0) || decide (16 * mib < size)) = false := by
    simp [hr]; omega
  rw [State.alloc, if_neg fun h => hr1 h.1, if_neg (by simp [hsize])]
  rcases hx : s.tryPools r tile (poolsFor size spill) with ⟨x, st, j⟩
  rw [hx] at ht
  obtain rfl : x = some (a, k) := ht
  exact ⟨_, rfl⟩

/-- A request that no pool serves. -/
theorem State.alloc_unserved {s : State} {r size tile : Nat} {spill : Bool} (hr : requesterOk r = true) (h0 : 0 < size)
    (h16 : size ≤ 16 * mib) (ht : (s.tryPools r tile (poolsFor size spill)).1 = none) (m : Nat) :
    s.alloc m r size tile spill = (none, (s.tryPools r tile (poolsFor size spill)).2.1,
      s.poolFail m 1 (s.tryPools r tile (poolsFor size spill)).2.2 r (s.tryPools r tile (poolsFor size spill)).2.1 0) := by
  have hr1 : r ≠ 0 := by
    rintro rfl
    exact absurd hr (by decide)
  have hsize : (!requesterOk r || decide (size = 0) || decide (16 * mib < size)) = false := by
    simp [hr]; omega
  rw [State.alloc, if_neg fun h => hr1 h.1, if_neg (by simp [hsize])]
  rcases hx : s.tryPools r tile (poolsFor size spill) with ⟨x, st, j⟩
  rw [hx] at ht
  obtain rfl : x = none := ht
  rfl

/-- A request of P0's own requester takes a cell of its tile. -/
theorem State.alloc_cell {s : State} {size tile a : Nat} {as : List Nat} {spill : Bool} (h0 : 0 < size) (h512 : size ≤ 512)
    (hp : s.pickCells tile 1 = some (a :: as)) (m : Nat) :
    s.alloc m 0 size tile spill = (some (a, 0), Status.ok, s.giveCells [a] 1) := by
  rw [State.alloc, if_pos ⟨rfl, h0, h512⟩, State.allocCell, hp]

theorem State.alloc_noCell {s : State} {size tile : Nat} {spill : Bool} (h0 : 0 < size) (h512 : size ≤ 512)
    (hp : s.pickCells tile 1 = none) (m : Nat) :
    s.alloc m 0 size tile spill = (none, Status.poolEmpty, s.poolFail m 1 0 0 Status.poolEmpty 0) := by
  rw [State.alloc, if_pos ⟨rfl, h0, h512⟩, State.allocCell, hp]

/-! ## What an operation on a sett leads to -/

/-- A sett that is handed out. -/
theorem State.grantSett_left (s : State) (m r k a : Nat) (b : Bool) :
    (s.grantSett m r k a b).pool.setts = s.pool.setts.set a { pool := k, owner := r } ∧
    (k < 8192 → (s.grantSett m r k a b).reg .poolAllocOk k = s.countedUp .poolAllocOk k) := by
  have hkey : k < 8192 → Reg.poolAllocOk.key k ≠ Reg.poolSpilled.key k := fun hk => Reg.key_ne (by decide) hk hk
  cases b with
  | false => exact ⟨rfl, fun _ => State.reg_bump _ _ _ _⟩
  | true => exact ⟨rfl, fun hk => (State.reg_bump_ne _ _ (hkey hk)).trans (State.reg_bump _ _ _ _)⟩

/-- A cell that is handed out. -/
theorem State.giveCell_left (s : State) (a : Nat) : (s.giveCells [a] 1).pool.setts = s.pool.setts.set a { pool := 0, owner := 0 } :=
  rfl

/-- A failure raises no fault for a requester that is no unit, or by a status that is none of integrity. -/
theorem State.poolFail_pool (s : State) (m op k r st a : Nat) : (s.poolFail m op k r st a).pool = s.pool :=
  State.keepsBut_pool (s.poolFail_keepsBut m op k r st a)

theorem State.poolRefused_reg {q : Reg} {i : Nat} (h : q.quiet i) (s : State) (m op k r st a : Nat) :
    (s.poolRefused m op k r st a).reg q i = s.reg q i := by
  delta State.poolRefused
  extract_lets s1
  have h1 : s1.reg q i = s.reg q i := State.event_reg h _ _ _ _ _ _
  split
  · exact h1
  · exact h1

theorem State.poolFail_empty {k : Nat} (hk : k < 8192) (s : State) (m op r a : Nat) :
    (s.poolFail m op k r Status.poolEmpty a).reg .poolEmptyFail k = s.countedUp .poolEmptyFail k := by
  have hcount : s.poolFail m op k r Status.poolEmpty a = (s.bump .poolEmptyFail k).poolRefused m op k r Status.poolEmpty a := rfl
  rw [hcount, State.poolRefused_reg (Reg.quiet_of_lt (by decide) hk), State.reg_bump]

theorem State.poolFail_quota {k : Nat} (hk : k < 8192) (s : State) (m op r a : Nat) :
    (s.poolFail m op k r Status.quotaExceeded a).reg .poolQuotaFail k = s.countedUp .poolQuotaFail k := by
  have hcount : s.poolFail m op k r Status.quotaExceeded a =
      (s.bump .poolQuotaFail k).poolRefused m op k r Status.quotaExceeded a := rfl
  rw [hcount, State.poolRefused_reg (Reg.quiet_of_lt (by decide) hk), State.reg_bump]

theorem State.poolFail_badPointer {k : Nat} (hk : k < 8192) (s : State) (m op r a : Nat) :
    (s.poolFail m op k r Status.badPointer a).reg .poolBadPointer k = s.countedUp .poolBadPointer k := by
  have hcount : s.poolFail m op k r Status.badPointer a = (s.bump .poolBadPointer k).poolRefused m op k r Status.badPointer a := rfl
  rw [hcount, State.poolRefused_reg (Reg.quiet_of_lt (by decide) hk), State.reg_bump]

theorem State.poolFail_underflow {k : Nat} (hk : k < 8192) (s : State) (m op r a : Nat) :
    (s.poolFail m op k r Status.refcountUnderflow a).reg .poolUnderflow k = s.countedUp .poolUnderflow k := by
  have hcount : s.poolFail m op k r Status.refcountUnderflow a =
      (s.bump .poolUnderflow k).poolRefused m op k r Status.refcountUnderflow a := rfl
  rw [hcount, State.poolRefused_reg (Reg.quiet_of_lt (by decide) hk), State.reg_bump]

/-- A free by a requester that is not the owner is counted, and for a unit a fault of class 13 (R165). -/
theorem State.poolFail_notOwner {k : Nat} (hk : k < 8192) (s : State) (m op r a : Nat) :
    (s.poolFail m op k r Status.freeNotOwner a).reg .poolFreeNotOwner k = s.countedUp .poolFreeNotOwner k ∧
    (r ≤ 25 → (s.poolFail m op k r Status.freeNotOwner a).flt.todo =
      s.flt.todo ++ [({ cls := 13, master := m, addr := a }, false)]) := by
  have hcount : s.poolFail m op k r Status.freeNotOwner a =
      (s.bump .poolFreeNotOwner k).poolRefused m op k r Status.freeNotOwner a := rfl
  rw [hcount, State.poolRefused_reg (Reg.quiet_of_lt (by decide) hk), State.reg_bump]
  refine ⟨rfl, fun hr => ?_⟩
  rw [State.poolRefused, if_pos ⟨hr, by decide⟩, State.report_flt, State.event_flt]
  rfl

/-- A sett that is returned. -/
theorem State.returnSett_left (s : State) (a k : Nat) : (s.returnSett a k).pool.setts = s.pool.setts.erase a ∧
    (s.returnSett a k).reg .poolFreeOk k = s.countedUp .poolFreeOk k := ⟨rfl, State.reg_bump _ _ _ _⟩

section

variable {s : State} {a k : Nat} {x : Sett} (hat : s.settAt a = (some k, true)) (hx : s.pool.setts.get? a = some x)

include hat hx

/-- A free by the owner returns the sett (R163). -/
theorem State.free_owner {r : Nat} (hc : s.refcount k = false) (ho : x.owner = r) (m : Nat) :
    s.free m r a = (Status.ok, s.returnSett a k) := by
  simp [State.free, hat, hx, hc, ho]

theorem State.free_other {r : Nat} (hc : s.refcount k = false) (ho : x.owner ≠ r) (m : Nat) :
    s.free m r a = s.opFail m 2 k r Status.freeNotOwner a := by
  simp [State.free, hat, hx, hc, ho]

/-- A give by the owner to a recipient that may hold one more (R163). -/
theorem State.give_owner {r rcp : Nat} (hc : s.refcount k = false) (ho : x.owner = r) (h1023 : rcp ≤ 1023)
    (hok : s.recipientOk rcp = true) (hq : s.quotaRefusal rcp k = none) (m : Nat) : s.give m r rcp a =
      (Status.ok, { s with pool := { s.pool with setts := s.pool.setts.set a { x with owner := rcp } } }) := by
  simp [State.give, hat, hx, hc, ho, hok, hq, Nat.not_lt.2 h1023]

/-- A reference or release that leaves a count above zero (R164). -/
theorem State.reference_counts {n : Int} (hc : s.refcount k = true) (h0 : 0 < (x.count : Int) + n)
    (h4095 : (x.count : Int) + n ≤ 4095) (m r : Nat) : s.reference n m r a =
      (Status.ok, ((x.count : Int) + n).toNat, s.setCount a x ((x.count : Int) + n).toNat) := by
  simp only [State.reference, hat, hx, hc, Bool.not_true, Bool.false_eq_true, if_false]
  rw [if_neg (by omega), if_neg (by omega), if_neg (by omega)]

theorem State.reference_returns {n : Int} (hc : s.refcount k = true) (h0 : (x.count : Int) + n = 0) (m r : Nat) :
    s.reference n m r a = (Status.ok, 0, s.returnSett a k) := by
  simp only [State.reference, hat, hx, hc, Bool.not_true, Bool.false_eq_true, if_false]
  rw [if_neg (by omega), if_neg (by omega), if_pos h0]

theorem State.reference_underflow {n : Int} (hc : s.refcount k = true) (h0 : (x.count : Int) + n < 0) (m r : Nat) :
    s.reference n m r a = ((s.opFail m 5 k r Status.refcountUnderflow a).1, 0, (s.opFail m 5 k r Status.refcountUnderflow a).2) := by
  simp only [State.reference, hat, hx, hc, Bool.not_true, Bool.false_eq_true, if_false]
  rw [if_neg (by omega), if_pos h0]

end

end Sys2Proof.Machine
end

section

-- One declaration after another: elaborated side by side, they take more threads than the check allows.
set_option Elab.async false

/-! The pools by command, and the arbiters' cycle of internal units (R153–R168). -/

namespace Sys2Proof.Machine

open Sys2Proof (Instr CmdHdr Ref)

/-! ## Setts by command -/

theorem State.withCommand_tryPools (s : State) (c : Instr) (h : CmdHdr) (r tile : Nat) (ks : List Nat) :
    (s.withCommand c h).tryPools r tile ks = s.tryPools r tile ks := by
  induction ks with
  | nil => rfl
  | cons k ks ih =>
    have hserve : (s.withCommand c h).serve r k tile = s.serve r k tile := by
      rw [State.withCommand_eq]; rfl
    simp only [State.tryPools, ih, hserve]

theorem State.withCommand_settAt (s : State) (c : Instr) (h : CmdHdr) (a : Nat) :
    (s.withCommand c h).settAt a = s.settAt a := by
  rw [State.withCommand_eq]; rfl

theorem State.withCommand_refcount (s : State) (c : Instr) (h : CmdHdr) (k : Nat) :
    (s.withCommand c h).refcount k = s.refcount k := by
  rw [State.withCommand_eq]; rfl

theorem State.withCommand_recipientOk (s : State) (c : Instr) (h : CmdHdr) (r : Nat) :
    (s.withCommand c h).recipientOk r = s.recipientOk r := by
  rw [State.withCommand_eq]; rfl

theorem State.withCommand_quotaRefusal (s : State) (c : Instr) (h : CmdHdr) (r k : Nat) :
    (s.withCommand c h).quotaRefusal r k = s.quotaRefusal r k := by
  rw [State.withCommand_eq]; rfl

theorem State.withCommand_countedUp (s : State) (c : Instr) (h : CmdHdr) (r : Reg) (i n : Nat) :
    (s.withCommand c h).countedUp r i n = s.countedUp r i n := by
  rw [State.countedUp, State.countedUp, State.withCommand_reg]

/-- The pool that serves a request is one of P1–P4. -/
theorem State.tryPools_served (s : State) {r tile a k : Nat} {ks : List Nat} (h : (s.tryPools r tile ks).1 = some (a, k)) :
    k ∈ ks := by
  induction ks with
  | nil => simp [State.tryPools] at h
  | cons j ks ih =>
    simp only [State.tryPools] at h
    split at h
    · simp only [Option.some.injEq, Prod.mk.injEq] at h
      exact h.2 ▸ List.mem_cons_self
    · split at h
      · simp at h
      · exact List.mem_cons_of_mem _ (ih h)

/-- ALLOC for requester 26 or a bound one is the request. -/
theorem State.poolAlloc_allowed {s : State} {r : Nat} (h : r = 26 ∨ (s.pool.binds.get? r).isSome = true) (tile sp n : Nat) :
    s.poolAlloc r tile sp n = match s.alloc managementMaster r n tile (sp == 1) with
      | (some (a, k), _, s') => finished s' (packValues [(8, a), (1, k)])
      | (none, st, s') => denied s' st := by
  refine if_neg ?_
  rintro ⟨h26, hnone⟩
  rcases h with h | h
  · exact h26 h
  · simp_all

/-- Settles O53: setts by command. -/
theorem settCommands : Obligations.SettCommands := by
  unfold Obligations.SettCommands
  refine fun s h => ⟨fun r t sp n a k ht hr hok h0 h16 htry => ?_, fun r t sp n ht h26 hb => ?_,
    fun r a k x ht hat hc hx => ⟨fun ho => ?_, fun ho => ?_⟩, fun r a ht hat => ?_,
    fun r rcp a k x ht hat hc hx ho h1023 hrec hq => ?_, fun n a k x ht hat hc hx h4095 => ⟨fun h0 => ?_, fun h0 => ?_⟩⟩
  · rw [← State.withCommand_tryPools s (.poolAlloc h r t sp n) h] at htry
    rw [← State.withCommand_pool s (.poolAlloc h r t sp n) h] at hr
    obtain ⟨b, halloc⟩ := State.alloc_served hok h0 h16 htry managementMaster
    obtain ⟨hsetts, hcount⟩ := (s.withCommand (.poolAlloc h r t sp n) h).grantSett_left managementMaster r k a b
    have hk : k < 8192 := by
      have := mem_poolsFor (State.tryPools_served _ htry)
      omega
    refine ends_of_run rfl ht ((State.poolAlloc_allowed hr t sp n).trans (by rw [halloc]; rfl))
      (State.keepsBut_mono (State.grantSett_keepsBut _ _ _ _ _ _) (by decide)) ⟨?_, ?_⟩
    · rw [hsetts, State.withCommand_pool]
    · rw [hcount hk, State.withCommand_countedUp]
  · refine ⟨_, completes_of_run rfl ht (if_pos ⟨h26, ?_⟩), State.keepsBut_mono (State.poolFail_keepsBut _ _ _ _ _ _ _) (by decide)⟩
    rw [State.withCommand_pool, hb]
    rfl
  · rw [← State.withCommand_settAt s (.poolFree h r a) h] at hat
    rw [← State.withCommand_refcount s (.poolFree h r a) h] at hc
    rw [← State.withCommand_pool s (.poolFree h r a) h] at hx
    obtain ⟨hsetts, hcount⟩ := (s.withCommand (.poolFree h r a) h).returnSett_left a k
    refine ends_of_run rfl ht (congrArg ended (State.free_owner hat hx hc ho managementMaster))
      (State.keepsBut_mono (State.returnSett_keepsBut _ _ _) (by decide)) ⟨?_, ?_⟩
    · rw [hsetts, State.withCommand_pool]
    · rw [hcount, State.withCommand_countedUp]
  · have hk := State.settAt_lt hat
    rw [← State.withCommand_settAt s (.poolFree h r a) h] at hat
    rw [← State.withCommand_refcount s (.poolFree h r a) h] at hc
    rw [← State.withCommand_pool s (.poolFree h r a) h] at hx
    have hfail := (s.withCommand (.poolFree h r a) h).poolFail_keepsBut managementMaster 2 k r Status.freeNotOwner a
    refine ⟨_, completes_of_run rfl ht (congrArg ended (State.free_other hat hx hc ho managementMaster)), ?_, ?_, ?_⟩
    · exact (State.keepsBut_pool hfail).trans (State.withCommand_pool _ _ _)
    · exact (State.keepsBut_memory hfail).trans (State.withCommand_memory _ _ _)
    · exact ((s.withCommand (.poolFree h r a) h).poolFail_notOwner (by omega) managementMaster 2 r a).1.trans
        (State.withCommand_countedUp _ _ _ _ _ _)
  · have hfree : (s.withCommand (.poolFree h r a) h).free managementMaster r a =
        (s.withCommand (.poolFree h r a) h).opFail managementMaster 2 0 r Status.badPointer a := by
      rcases hx : s.settAt a with ⟨k, b⟩
      rw [hx] at hat
      obtain rfl : k = none := hat
      rw [State.free, State.withCommand_settAt, hx]
    have hfail := (s.withCommand (.poolFree h r a) h).poolFail_keepsBut managementMaster 2 0 r Status.badPointer a
    exact ⟨_, completes_of_run rfl ht (congrArg ended hfree),
      (State.keepsBut_pool hfail).trans (State.withCommand_pool _ _ _),
      ((s.withCommand (.poolFree h r a) h).poolFail_badPointer (by omega) managementMaster 2 r a).trans
        (State.withCommand_countedUp _ _ _ _ _ _)⟩
  · rw [← State.withCommand_settAt s (.poolGive h r rcp a) h] at hat
    rw [← State.withCommand_refcount s (.poolGive h r rcp a) h] at hc
    rw [← State.withCommand_pool s (.poolGive h r rcp a) h] at hx
    rw [← State.withCommand_recipientOk s (.poolGive h r rcp a) h] at hrec
    rw [← State.withCommand_quotaRefusal s (.poolGive h r rcp a) h] at hq
    refine ends_of_run rfl ht (congrArg ended (State.give_owner hat hx hc ho h1023 hrec hq managementMaster))
      (State.keepsBut_with_pool _ (State.keepsBut_refl _ _) rfl) ?_
    rw [State.withCommand_pool]
  · rw [← State.withCommand_settAt s (.poolRef h n a) h] at hat
    rw [← State.withCommand_refcount s (.poolRef h n a) h] at hc
    rw [← State.withCommand_pool s (.poolRef h n a) h] at hx
    have hrun : (s.withCommand (.poolRef h n a) h).poolRef n a = finished ((s.withCommand (.poolRef h n a) h).setCount a x
        ((x.count : Int) + n).toNat) (packValues [(2, ((x.count : Int) + n).toNat)]) := by
      rw [State.poolRef, State.reference_counts hat hx hc h0 h4095]
      rfl
    exact ends_of_run rfl ht hrun (State.setCount_keepsBut _ _ _ _) (by rw [State.setCount, State.withCommand_pool])
  · rw [← State.withCommand_settAt s (.poolRef h n a) h] at hat
    rw [← State.withCommand_refcount s (.poolRef h n a) h] at hc
    rw [← State.withCommand_pool s (.poolRef h n a) h] at hx
    have hrun : (s.withCommand (.poolRef h n a) h).poolRef n a = finished ((s.withCommand (.poolRef h n a) h).returnSett a k)
        (packValues [(2, 0)]) := by
      rw [State.poolRef, State.reference_returns hat hx hc h0]
      rfl
    refine ends_of_run rfl ht hrun (State.keepsBut_mono (State.returnSett_keepsBut _ _ _) (by decide)) ?_
    rw [(State.returnSett_left _ a k).1, State.withCommand_pool]

/-! ## Setting up -/

/-- A SETUP whose counts are those of the staging share, with no job admitted, is judged by the pools it would change. -/
theorem State.poolSetup_judged {s : State} {p1 p2 p3 modes n base : Nat}
    (hsum : p1 + p2 + p3 = (s.boot.carving.map Carving.staging).getD 0 * 16) (hj : s.host.jobs = []) :
    s.poolSetup p1 p2 p3 modes n base =
      if (([1, 2, 3, 4].filter (s.poolChanged { s with pool := s.poolPlan p1 p2 p3 modes n base })).any
        fun k => s.allocated k != 0) = true then denied s Status.poolBusy
      else if (!s.p4Fits n base) = true then denied s Status.capacityExceeded
      else if ([1, 2, 3, 4].any fun k => decide ((s.poolPlan p1 p2 p3 modes n base).total k <
        ((s.pool.quotas.filter fun q => q.1 % 8 == k).map fun q => q.2.1).sum)) = true then denied s Status.quotaInvalid
      else finished ({ s with pool := { s.pool.followCounts (s.poolPlan p1 p2 p3 modes n base) with
        low := (s.pool.followCounts (s.poolPlan p1 p2 p3 modes n base)).low.filter fun kv =>
          !([1, 2, 3, 4].filter (s.poolChanged { s with pool := s.poolPlan p1 p2 p3 modes n base })).contains kv.1 } } :
        State).assignSubstitutes := by
  simp only [State.poolSetup, hj, List.isEmpty_nil, Bool.not_true, Bool.false_eq_true, if_false]
  rw [if_neg (fun h => h hsum)]

theorem State.withCommand_poolPlan (s : State) (c : Instr) (h : CmdHdr) (p1 p2 p3 modes n base : Nat) :
    (s.withCommand c h).poolPlan p1 p2 p3 modes n base = s.poolPlan p1 p2 p3 modes n base := by
  rw [State.withCommand_eq]; rfl

theorem State.withCommand_poolChanged (s : State) (c : Instr) (h : CmdHdr) (p : PoolSt) (k : Nat) :
    (s.withCommand c h).poolChanged { s.withCommand c h with pool := p } k = s.poolChanged { s with pool := p } k := by
  rw [State.withCommand_eq]; rfl

theorem State.withCommand_allocated (s : State) (c : Instr) (h : CmdHdr) (k : Nat) :
    (s.withCommand c h).allocated k = s.allocated k := by
  rw [State.withCommand_eq]; rfl

theorem State.withCommand_p4Fits (s : State) (c : Instr) (h : CmdHdr) (n base : Nat) :
    (s.withCommand c h).p4Fits n base = s.p4Fits n base := by
  rw [State.withCommand_eq]; rfl

theorem State.withCommand_quotaBad (s : State) (c : Instr) (h : CmdHdr) (r k mn mx : Nat) :
    (s.withCommand c h).quotaBad r k mn mx = s.quotaBad r k mn mx := by
  rw [State.withCommand_eq]; rfl

theorem State.withCommand_regValue (s : State) (c : Instr) (h : CmdHdr) {r : Reg}
    (hr : r ∈ [Reg.poolConfig, .poolFree, .poolLowWater, .poolQuota, .poolBind]) (i : Nat) :
    (s.withCommand c h).regValue r i = s.regValue r i := by
  rw [State.withCommand_eq]
  simp only [List.mem_cons, List.not_mem_nil, or_false] at hr
  rcases hr with rfl | rfl | rfl | rfl | rfl <;> rfl

/-- Settles O52: the pools' commands that set up. -/
theorem poolSetupCommands : Obligations.PoolSetupCommands := by
  unfold Obligations.PoolSetupCommands
  refine fun s h => ⟨fun p1 p2 p3 modes n base ht => ?_, fun r k mn mx ht => ⟨fun hq => ?_, fun hq => ?_⟩,
    fun r j ht => ⟨fun hb => ?_, fun hb => ?_⟩, fun k r out ht => ?_⟩
  · intro t
    have hjobs : ∀ {l}, s.host.jobs = l → (s.withCommand (.poolSetup h p1 p2 p3 modes n base) h).host.jobs = l :=
      fun hl => by rw [State.withCommand_host_jobs, hl]
    have hcarve : (s.withCommand (.poolSetup h p1 p2 p3 modes n base) h).boot = s.boot := State.withCommand_boot _ _ _
    have hchanged : ([1, 2, 3, 4].filter ((s.withCommand (.poolSetup h p1 p2 p3 modes n base) h).poolChanged
        { s.withCommand (.poolSetup h p1 p2 p3 modes n base) h with pool :=
          (s.withCommand (.poolSetup h p1 p2 p3 modes n base) h).poolPlan p1 p2 p3 modes n base })).any
          (fun k => (s.withCommand (.poolSetup h p1 p2 p3 modes n base) h).allocated k != 0) =
        ([1, 2, 3, 4].filter (s.poolChanged t)).any fun k => s.allocated k != 0 := by
      rw [State.withCommand_poolPlan, funext (State.withCommand_poolChanged s (.poolSetup h p1 p2 p3 modes n base) h _),
        funext (State.withCommand_allocated s (.poolSetup h p1 p2 p3 modes n base) h)]
    have hrun := fun hsum hj => State.poolSetup_judged (s := s.withCommand (.poolSetup h p1 p2 p3 modes n base) h)
      (modes := modes) (n := n) (base := base) (p1 := p1) (p2 := p2) (p3 := p3) (by rw [hcarve]; exact hsum) (hjobs hj)
    have hidle : (∀ k ∈ [1, 2, 3, 4], s.poolChanged t k = true → s.allocated k = 0) →
        ¬(([1, 2, 3, 4].filter (s.poolChanged t)).any fun k => s.allocated k != 0) = true := by
      intro hall hany
      obtain ⟨k, hk, hne⟩ := List.any_eq_true.1 hany
      obtain ⟨hk4, hch⟩ := List.mem_filter.1 hk
      simp [hall k hk4 hch] at hne
    refine ⟨fun hsum => ?_, fun hsum hj => ?_, fun hsum hj hbusy => ?_, fun hsum hj hfree hfit => ?_,
      fun hsum hj hfree hfit hquota => ?_, fun hsum hj hfree hfit hquota => ?_⟩
    · exact refuses_of_run rfl ht (if_pos (by rw [hcarve]; exact hsum))
    · refine refuses_of_run rfl ht ((if_neg (by rw [hcarve]; simpa using hsum)).trans (if_pos ?_))
      simpa using hj
    · refine refuses_of_run rfl ht ((hrun hsum hj).trans (if_pos ?_))
      obtain ⟨k, hk4, hch, hne⟩ := hbusy
      rw [hchanged]
      exact List.any_eq_true.2 ⟨k, List.mem_filter.2 ⟨hk4, hch⟩, by simpa using hne⟩
    · refine refuses_of_run rfl ht ((hrun hsum hj).trans ((if_neg (by rw [hchanged]; exact hidle hfree)).trans (if_pos ?_)))
      rw [State.withCommand_p4Fits, hfit]
      rfl
    · refine refuses_of_run rfl ht ((hrun hsum hj).trans ((if_neg (by rw [hchanged]; exact hidle hfree)).trans
        ((if_neg ?_).trans (if_pos ?_))))
      · rw [State.withCommand_p4Fits, hfit]
        decide
      · obtain ⟨k, hk4, hlt⟩ := hquota
        rw [State.withCommand_poolPlan, State.withCommand_pool]
        exact List.any_eq_true.2 ⟨k, hk4, by simpa using hlt⟩
    · refine ends_of_run rfl ht ((hrun hsum hj).trans ((if_neg (by rw [hchanged]; exact hidle hfree)).trans
        ((if_neg ?_).trans (if_neg ?_)))) (State.keepsBut_then (State.assignSubstitutes_keepsBut _)
          (State.keepsBut_with_pool _ (State.keepsBut_refl _ _) rfl) rfl) ?_
      · rw [State.withCommand_p4Fits, hfit]
        decide
      · rw [State.withCommand_poolPlan, State.withCommand_pool]
        intro hany
        obtain ⟨k, hk4, hlt⟩ := List.any_eq_true.1 hany
        exact absurd (hquota k hk4) (by simpa using hlt)
      · rw [State.keepsBut_pool (State.assignSubstitutes_keepsBut _), State.withCommand_poolPlan, State.withCommand_pool]
        refine ⟨rfl, rfl, rfl, rfl, rfl, rfl, rfl, rfl, fun key q hq => ?_⟩
        dsimp only [PoolSt.followCounts]
        rw [get?_mapV, show (s.poolPlan p1 p2 p3 modes n base).quotas = s.pool.quotas from rfl, hq]
        rfl
  · refine refuses_of_run rfl ht (if_pos ?_)
    rw [State.withCommand_quotaBad, hq]
  · refine ends_of_run rfl ht (if_neg ?_) (State.keepsBut_with_pool _ (State.keepsBut_refl _ _) rfl) ?_
    · rw [State.withCommand_quotaBad, hq]
      decide
    · rw [State.withCommand_pool]
  · refine refuses_of_run rfl ht (if_pos ?_)
    rw [State.withCommand_pool, hb]
  · refine ends_of_run rfl ht (if_neg ?_) (State.keepsBut_with_pool _ (State.keepsBut_refl _ _) rfl) ?_
    · rw [State.withCommand_pool, hb]
      decide
    · rw [State.withCommand_pool]
  · refine reports_of_run rfl ht ?_
    simp only [State.runCmd, State.poolStatus, State.withCommand_regValue s (.poolStatus h k r out) h, List.mem_cons, true_or, or_true]

/-! ## The arbiters' cycle -/

theorem arbiterInput_lt (m : Nat) : arbiterInput m < 10 := by
  simp only [arbiterInput]
  split
  · omega
  · split
    · omega
    · omega

/-- Where all but one of a list's numbers give nothing, the list gives what that one gives. -/
theorem flatMap_single {α : Type} {l : List Nat} {f : Nat → List α} {i : Nat} (hl : l.Nodup) (hi : i ∈ l)
    (hne : ∀ j, j ≠ i → f j = []) : l.flatMap f = f i := by
  induction l with
  | nil => simp at hi
  | cons a l ih =>
    obtain ⟨hnot, hl⟩ := List.nodup_cons.1 hl
    rw [List.flatMap_cons]
    by_cases h : a = i
    · subst h
      have hrest : l.flatMap f = [] := List.flatMap_eq_nil_iff.2 fun j hj => hne j fun h => hnot (h ▸ hj)
      rw [hrest, List.append_nil]
    · rw [hne a h, List.nil_append, ih hl ((List.mem_cons.1 hi).resolve_left (Ne.symm h))]

theorem rotated_nodup (n a : Nat) : (rotated n a).Nodup := by
  refine List.Nodup.map_on (fun i hi j hj h => ?_) List.nodup_range
  rw [List.mem_range] at hi hj
  have hmod : i ≡ j [MOD n] := Nat.ModEq.add_left_cancel' a h
  exact (Nat.mod_eq_of_lt hi).symm.trans (Eq.trans hmod (Nat.mod_eq_of_lt hj))

theorem mem_rotated_ten {a i : Nat} (hi : i < 10) : i ∈ rotated 10 a :=
  List.mem_map.2 ⟨(i + 10 - a % 10) % 10, List.mem_range.2 (by omega), by omega⟩

/-- An operation alone is served in its turn, whatever the rotating order. -/
theorem inputOrder_single (pointer : Nat) (o : PoolOp) : inputOrder pointer [o] = [o] := by
  have h := flatMap_single (f := fun i => [o].filter fun o => arbiterInput o.unit == i) (rotated_nodup 10 pointer)
    (mem_rotated_ten (arbiterInput_lt o.unit)) fun j hj => by simp [Ne.symm hj]
  rw [inputOrder, h]
  simp

theorem inputOrder_nil (pointer : Nat) : inputOrder pointer [] = [] := by
  simp [inputOrder]

/-- One operation alone takes one cycle. -/
theorem State.arbitrate_single {s : State} {o : PoolOp} (h : s.arbiterOf o < 5) : State.arbitrate 1 [o] s = s.poolOp o := by
  have horder : ((List.range 5).flatMap fun k =>
      inputOrder (s.pool.pointer.getD k 0) ([o].filter fun o => s.arbiterOf o == k)) = [o] := by
    have hsingle := flatMap_single (f := fun k => inputOrder (s.pool.pointer.getD k 0) ([o].filter fun o => s.arbiterOf o == k))
      List.nodup_range (List.mem_range.2 h) fun j hj => by simp [Ne.symm hj, inputOrder_nil]
    rw [hsingle]
    simp [inputOrder_single]
  have hone : s.oneEach [o] [] = ([o], []) := by simp [State.oneEach]
  have hcycle : s.arbiterCycle [o] = s.poolOp o := by
    simp only [State.arbiterCycle, horder]
    by_cases h1 : o.op = 1
    · simp [h1]
    · simp [h1]
  simp only [State.arbitrate, hone, hcycle, List.isEmpty_cons, Bool.false_eq_true, if_false]

/-- An allocation request alone in its cycle. -/
theorem leads_settRequest {s : State} {o : PoolOp} (hs : s.isSafe = false) (ht : o.tile < 8)
    (ha : s.arbiterOf o < 5) : Leads s (.settRequest o.unit o.requester o.toPoolAsk []) (s.poolOp o) := by
  have hunit : ([o].all fun o => decide (o.tile < 8)) = true := by simp [ht]
  refine leads_of_unit (c := .settRequest o.unit o.requester o.toPoolAsk []) ?_ hunit
  have hrow : exec (.settRequest o.unit o.requester o.toPoolAsk []) s =
      onUnit ([o].all fun o => decide (o.tile < 8)) (s.data (State.arbitrate 1 [o])) := rfl
  rw [hrow, State.data, if_neg (by simp [hs]), State.arbitrate_single ha]

/-- A free, a give, a reference or a release alone in its cycle. -/
theorem leads_settRelease {s : State} {o : PoolOp} (hs : s.isSafe = false) (hop : o.op ≠ 1) (ha : s.arbiterOf o < 5) :
    Leads s (.settRelease o.unit o.requester o.toPoolAsk []) (s.poolOp o) := by
  have hops : ([o] : List PoolOp).filter (fun o => o.op != 1) = [o] := by simp [hop]
  have hrow : exec (.settRelease o.unit o.requester o.toPoolAsk []) s =
      .next (s.data (State.arbitrate (([o] : List PoolOp).filter fun o => o.op != 1).length
        (([o] : List PoolOp).filter fun o => o.op != 1))) := rfl
  rw [Leads, hrow, hops, State.data, if_neg (by simp [hs]), List.length_singleton, State.arbitrate_single ha]

/-- The arbiter of a release is that of the pool the address lies in. -/
theorem State.arbiterOf_release {s : State} {o : PoolOp} (hop : o.op ≠ 1) {k : Nat} (h : s.settAt o.addr = (some k, true)) :
    s.arbiterOf o < 5 := by
  rw [State.arbiterOf, if_neg hop, h]
  exact State.settAt_lt h

/-- The arbiter of a request is that of the smallest pool that fits. -/
theorem State.arbiterOf_request (s : State) {o : PoolOp} (hop : o.op = 1) : s.arbiterOf o < 5 := by
  rw [State.arbiterOf, if_pos hop]
  split
  · omega
  · cases hp : poolsFor o.size false with
    | nil => exact Nat.zero_lt_succ 4
    | cons k ks => exact (mem_poolsFor (hp ▸ List.mem_cons_self : k ∈ poolsFor o.size false)).2

/-- The answer to a unit, after its operation. -/
theorem State.answer_left {s t : State} {ch : List Part} (h : s.keepsBut ch t) (hc : .out ∉ ch) (x : Out) :
    s.keepsBut (.out :: ch) (t.emit x) ∧ (t.emit x).out = x :: s.out :=
  ⟨State.keepsBut_then (t.emit_keepsBut x) (State.keepsBut_mono h (List.subset_cons_self _ _)) rfl,
    by rw [State.emit_out, State.keepsBut_out h hc]⟩

section

variable (s : State) {o : PoolOp}

theorem State.poolOp_granted (h : o.op = 1) {a k : Nat} {u : State}
    (hr : s.alloc o.unit o.requester o.size o.tile o.spill = (some (a, k), Status.ok, u)) :
    s.poolOp o = u.emit (.sett o.unit o.requester 1 a k Status.ok) := by
  simp only [State.poolOp, h, hr]

theorem State.poolOp_denied (h : o.op = 1) {st : Nat} {u : State}
    (hr : s.alloc o.unit o.requester o.size o.tile o.spill = (none, st, u)) :
    s.poolOp o = u.emit (.sett o.unit o.requester 1 0 0 st) := by
  simp only [State.poolOp, h, hr]

theorem State.poolOp_free (h : o.op = 2) : s.poolOp o = (s.free o.unit o.requester o.addr).2.emit
    (.sett o.unit o.requester 2 o.addr 0 (s.free o.unit o.requester o.addr).1) := by
  simp only [State.poolOp, h]

theorem State.poolOp_give (h : o.op = 3) : s.poolOp o = (s.give o.unit o.requester o.other o.addr).2.emit
    (.sett o.unit o.requester 3 o.addr 0 (s.give o.unit o.requester o.other o.addr).1) := by
  simp only [State.poolOp, h]

theorem State.poolOp_refer (h : o.op = 4) : s.poolOp o = (s.reference o.other o.unit o.requester o.addr).2.2.emit
    (.sett o.unit o.requester 4 o.addr 0 (s.reference o.other o.unit o.requester o.addr).1) := by
  simp only [State.poolOp, h]

theorem State.poolOp_release (h : o.op = 5) : s.poolOp o =
    (s.reference (-(o.other : Int)) o.unit o.requester o.addr).2.2.emit
      (.sett o.unit o.requester 5 o.addr 0 (s.reference (-(o.other : Int)) o.unit o.requester o.addr).1) := by
  simp only [State.poolOp, h]

end

/-- A sett returned on a unit's behalf. -/
theorem State.returned_left (s : State) (a k : Nat) (x : Out) :
    ((s.returnSett a k).emit x).pool.setts = s.pool.setts.erase a ∧
    ((s.returnSett a k).emit x).reg .poolFreeOk k = s.countedUp .poolFreeOk k ∧
    s.keepsBut [.pool, .regs, .out] ((s.returnSett a k).emit x) :=
  ⟨rfl, (s.returnSett_left a k).2, State.keepsBut_mono (State.answer_left (s.returnSett_keepsBut a k) (by decide) x).1 (by decide)⟩

/-- A count changed on a unit's behalf. -/
theorem State.counted_left (s : State) (a : Nat) (y : Sett) (n : Nat) (x : Out) :
    ((s.setCount a y n).emit x).pool = { s.pool with setts := s.pool.setts.set a { y with count := n } } ∧
    s.keepsBut [.pool, .out] ((s.setCount a y n).emit x) :=
  ⟨rfl, State.keepsBut_mono (State.answer_left (s.setCount_keepsBut a y n) (by decide) x).1 (by decide)⟩

/-- Settles O41: requests and releases of the internal units. -/
theorem settsOfUnits : Obligations.SettsOfUnits := by
  unfold Obligations.SettsOfUnits
  refine fun s o hs => ⟨fun hop ht hr h0 h16 => ⟨fun a k htry => ?_, fun htry => ?_⟩,
    fun hop ht hr h0 h512 => ⟨fun a as hp => ?_, fun hp => ?_⟩,
    fun k x hat hc hx => ⟨fun hop ho => ?_, fun hop ho => ?_, fun hop ho h1023 hrec hq => ?_⟩,
    fun k x hat hc hx => ⟨fun hop h4095 h0 => ?_, fun hop hlt h4095 => ?_, fun hop heq => ?_, fun hop hlt => ?_⟩⟩
  · obtain ⟨b, halloc⟩ := State.alloc_served hr h0 h16 htry o.unit
    have hk := mem_poolsFor (State.tryPools_served _ htry)
    obtain ⟨hsetts, hcount⟩ := s.grantSett_left o.unit o.requester k a b
    obtain ⟨hkeep, hout⟩ := State.answer_left (s.grantSett_keepsBut o.unit o.requester k a b) (by decide)
      (.sett o.unit o.requester 1 a k Status.ok)
    have hrun := leads_settRequest hs ht (s.arbiterOf_request hop)
    rw [s.poolOp_granted hop halloc] at hrun
    exact ⟨_, hrun, hsetts, hout, hcount (by omega), State.keepsBut_mono hkeep (by decide)⟩
  · have halloc := State.alloc_unserved hr h0 h16 htry o.unit
    have hk : (s.tryPools o.requester o.tile (poolsFor o.size o.spill)).2.2 < 8192 := by
      rcases s.tryPools_mem o.requester o.tile (poolsFor o.size o.spill) with h | h
      · have := mem_poolsFor h
        omega
      · omega
    have hrun := leads_settRequest hs ht (s.arbiterOf_request hop)
    rw [s.poolOp_denied hop halloc] at hrun
    refine ⟨_, _, hrun, State.keepsBut_mono (State.keepsBut_then (State.emit_keepsBut _ _) (State.poolFail_keepsBut s _ _ _ _ _ _)
      rfl) (by decide), rfl, fun hst => ?_, fun hst => ?_⟩
    · rw [hst]
      exact s.poolFail_empty hk _ _ _ _
    · rw [hst]
      exact s.poolFail_quota hk _ _ _ _
  · have halloc := State.alloc_cell (spill := o.spill) h0 h512 hp o.unit
    obtain ⟨hkeep, hout⟩ := State.answer_left (s.giveCells_keepsBut [a] 1) (by decide)
      (.sett o.unit o.requester 1 a 0 Status.ok)
    have hrun := leads_settRequest hs ht (s.arbiterOf_request hop)
    rw [s.poolOp_granted hop (by rw [hr]; exact halloc)] at hrun
    refine ⟨_, hrun, ⟨{ pool := 0, owner := 0 }, ?_, rfl⟩, fun b hb => ?_, by rw [hout, hr],
      State.keepsBut_mono hkeep (by decide)⟩
    · exact NMap.get?_set _ _ _
    · exact NMap.get?_set_ne _ _ hb
  · have halloc := State.alloc_noCell (spill := o.spill) h0 h512 hp o.unit
    have hrun := leads_settRequest hs ht (s.arbiterOf_request hop)
    rw [s.poolOp_denied hop (by rw [hr]; exact halloc)] at hrun
    refine ⟨_, (s.poolFail o.unit 1 0 0 Status.poolEmpty 0).out, hrun, ?_, s.poolFail_empty (by omega) _ _ _ _, State.keepsBut_mono (State.keepsBut_then
      (State.emit_keepsBut _ _) (State.poolFail_keepsBut s _ _ _ _ _ _) rfl) (by decide)⟩
    rw [hr]
    exact State.emit_out _ _
  · have hrun := leads_settRelease hs (by omega) (State.arbiterOf_release (o := o) (by omega) hat)
    rw [s.poolOp_free hop, State.free_owner hat hx hc ho] at hrun
    exact ⟨_, hrun, s.returned_left o.addr k _⟩
  · have hrun := leads_settRelease hs (by omega) (State.arbiterOf_release (o := o) (by omega) hat)
    have hk := State.settAt_lt hat
    rw [s.poolOp_free hop, State.free_other hat hx hc ho] at hrun
    obtain ⟨hcount, htodo⟩ := s.poolFail_notOwner (k := k) (by omega) o.unit 2 o.requester o.addr
    have hkeep := s.poolFail_keepsBut o.unit 2 k o.requester Status.freeNotOwner o.addr
    have hpool := State.keepsBut_pool hkeep
    have hmem := State.keepsBut_memory hkeep
    exact ⟨_, hrun, hcount, hpool, hmem, htodo⟩
  · have hrun := leads_settRelease hs (by omega) (State.arbiterOf_release (o := o) (by omega) hat)
    rw [s.poolOp_give hop, State.give_owner hat hx hc ho h1023 hrec hq] at hrun
    exact ⟨_, hrun, rfl, State.keepsBut_then (State.emit_keepsBut _ _) (State.keepsBut_with_pool _ (State.keepsBut_refl _ s) rfl) rfl⟩
  · have hrun := leads_settRelease hs (by omega) (State.arbiterOf_release (o := o) (by omega) hat)
    have hn : ((x.count : Int) + (o.other : Int)).toNat = x.count + o.other := by omega
    rw [s.poolOp_refer hop, State.reference_counts hat hx hc (by omega) (by omega), hn] at hrun
    exact ⟨_, hrun, s.counted_left o.addr x _ _⟩
  · have hrun := leads_settRelease hs (by omega) (State.arbiterOf_release (o := o) (by omega) hat)
    have hn : ((x.count : Int) + -(o.other : Int)).toNat = x.count - o.other := by omega
    rw [s.poolOp_release hop, State.reference_counts hat hx hc (by omega) (by omega), hn] at hrun
    exact ⟨_, hrun, s.counted_left o.addr x _ _⟩
  · have hrun := leads_settRelease hs (by omega) (State.arbiterOf_release (o := o) (by omega) hat)
    rw [s.poolOp_release hop, State.reference_returns hat hx hc (by omega)] at hrun
    exact ⟨_, hrun, s.returned_left o.addr k _⟩
  · have hrun := leads_settRelease hs (by omega) (State.arbiterOf_release (o := o) (by omega) hat)
    have hk := State.settAt_lt hat
    rw [s.poolOp_release hop, State.reference_underflow hat hx hc (by omega)] at hrun
    exact ⟨_, hrun, State.poolFail_pool s _ _ _ _ _ _, s.poolFail_underflow (by omega) _ _ _ _⟩

end Sys2Proof.Machine
end

section

-- One declaration after another: elaborated side by side, they take more threads than the check allows.
set_option Elab.async false

/-! Programs, kernels and engines by command (R202–R207, R212). -/

namespace Sys2Proof.NMap

/-- The keys are those that hold a value. -/
theorem mem_keys_iff {α : Type} {m : NMap α} {k : Nat} : k ∈ m.keys ↔ (m.get? k).isSome = true := by
  induction m with
  | nil => simp [keys]
  | cons kv m ih =>
    obtain ⟨k', v⟩ := kv
    rw [get?_cons]
    by_cases hk : k' = k
    · simp [keys, hk]
    · rw [if_neg hk, ← ih]
      simp [keys, Ne.symm hk]

/-- No key is lost where one is set. -/
theorem mem_keys_set_of_mem {α : Type} {m : NMap α} {j k : Nat} {v : α} (h : j ∈ m.keys) : j ∈ (m.set k v).keys := by
  by_cases hjk : j = k
  · rw [mem_keys_iff, hjk, get?_set, Option.isSome_some]
  · rwa [mem_keys_iff, get?_set_ne _ _ hjk, ← mem_keys_iff]

end Sys2Proof.NMap

namespace Sys2Proof.Machine

open Sys2Proof (Instr CmdHdr Ref)

/-! ## Engines -/

/-- Engines as RETIRE and RESTORE leave them. -/
theorem State.engineRetired_recorded (s : State) (k cause : Nat) : engineName k ∈ (s.engineRetired k cause).mgt.engines := by
  delta State.engineRetired
  extract_lets n s1 m s2
  have hlogs := s2.event_logs 2 0x09 0x0010 (leBytes 2 n ++ leBytes 1 cause) 0 0
  rw [State.logsOnly] at hlogs
  rw [hlogs]
  dsimp only [s2]
  split
  next hc => exact List.contains_iff_mem.1 hc
  next => exact List.mem_cons_self

/-- An engine in service with a job is on its way out of service; one on its way stays so (Table 9.5). -/
theorem State.retireEngine_busy {s : State} {k : Nat} (h : (s.engine k).state = 3 ∨ (s.engine k).state = 1 ∧
    ((s.engine k).running ≠ none ∨ (s.engine k).assigned ≠ none)) : s.keepsBut [.eng] (s.retireEngine k) ∧
    ((s.retireEngine k).engine k).state = 3 ∧ ((s.retireEngine k).engine k).forTest = false := by
  rcases h with h | ⟨h, hjob⟩
  · have hrun : s.retireEngine k = s.setEngine k fun e => { e with forTest := false } := by
      simp only [State.retireEngine, h]
    rw [hrun, State.engine_setEngine]
    exact ⟨State.setEngine_keepsBut _ _ _, h, rfl⟩
  · have hrun : s.retireEngine k = (s.setEngine k fun e => { e with state := 3, forTest := false }).engineIdle k := by
      simp only [State.retireEngine, h]
    have hidle : (s.setEngine k fun e => { e with state := 3, forTest := false }).engineIdle k =
        s.setEngine k fun e => { e with state := 3, forTest := false } := by
      simp only [State.engineIdle, State.engine_setEngine]
      refine if_neg fun hall => ?_
      simp only [Bool.and_eq_true, Option.isNone_iff_eq_none] at hall
      rcases hjob with hjob | hjob
      · exact hjob hall.1.2
      · exact hjob hall.2
    rw [hrun, hidle, State.engine_setEngine]
    exact ⟨State.setEngine_keepsBut _ _ _, rfl, rfl⟩

/-- Another engine without a job is retired at once. -/
theorem State.retireEngine_idle {s : State} {k : Nat} (h3 : (s.engine k).state ≠ 3) (h4 : (s.engine k).state ≠ 4)
    (hjob : (s.engine k).state = 1 → (s.engine k).running = none ∧ (s.engine k).assigned = none) :
    ((s.retireEngine k).engine k).state = 4 ∧ ((s.retireEngine k).engine k).fault = false ∧
    engineName k ∈ (s.retireEngine k).mgt.engines := by
  have hrun : ∃ u : State, s.retireEngine k = u.engineRetired k 0 := by
    by_cases h1 : (s.engine k).state = 1
    · refine ⟨s.setEngine k fun e => { e with state := 3, forTest := false }, ?_⟩
      obtain ⟨hr, ha⟩ := hjob h1
      simp [State.retireEngine, h1, State.engineIdle, State.engine_setEngine, hr, ha]
    · refine ⟨s, ?_⟩
      unfold State.retireEngine
      split
      next h => exact absurd h h1
      next h => exact absurd h h3
      next h => exact absurd h h4
      next => rfl
  obtain ⟨u, hu⟩ := hrun
  obtain ⟨heng, -⟩ := u.engineRetired_engine k 0
  rw [hu, heng]
  exact ⟨rfl, rfl, u.engineRetired_recorded k 0⟩

/-- A retired engine that is restored is tested again. -/
theorem State.restoreEngine_retired {s : State} {k : Nat} (h : (s.engine k).state = 4) :
    ((s.restoreEngine k).engine k).state = 2 ∧ ((s.restoreEngine k).engine k).fault = false ∧
    engineName k ∉ (s.restoreEngine k).mgt.engines := by
  rw [State.restoreEngine, if_pos h, State.engine_setEngine]
  exact ⟨rfl, rfl, by simp [State.setEngine, State.setEng]⟩

/-! ## Runs -/

/-- The run of a program holds its benches, or has ended. -/
def State.runsOn (s : State) (c : Nat) (bs : List (Nat × Nat)) : Prop :=
  (∃ q r, s.prog? c = some q ∧ q.run = some r ∧ r.benches = bs) ∨ ∃ st, (c, st) ∈ s.eng.ended

/-- What takes the run of a program on: memory is kept, and the run holds its benches until it ends. -/
def State.takesOn (c : Nat) (s t : State) : Prop := t.memory = s.memory ∧ ∀ bs, s.runsOn c bs → t.runsOn c bs

theorem State.takesOn_refl (c : Nat) (s : State) : s.takesOn c s := ⟨rfl, fun _ h => h⟩

theorem State.takesOn_trans {c : Nat} {s t u : State} (h : State.takesOn c s t) (h' : State.takesOn c t u) :
    State.takesOn c s u := ⟨h'.1.trans h.1, fun bs hs => h'.2 bs (h.2 bs hs)⟩

theorem State.takesOn_keep {c : Nat} {ch : List Part} {s t : State} (h : s.keepsBut ch t) (he : .eng ∉ ch) (hm : .mem ∉ ch) :
    State.takesOn c s t := by
  refine ⟨State.keepsBut_memory h hm, fun bs hs => ?_⟩
  rwa [State.runsOn, State.prog?, State.keepsBut_eng h he]

/-- Jobs issued into their queues change neither programs nor runs that ended. -/
theorem State.issueJobs_left (ctx : Nat) (p : ProgSt) (l : List Nat) (s : State) :
    (State.issueJobs s ctx p l).2.memory = s.memory ∧ (State.issueJobs s ctx p l).2.eng.progs = s.eng.progs ∧
    (State.issueJobs s ctx p l).2.eng.ended = s.eng.ended := by
  induction l generalizing s with
  | nil => exact ⟨rfl, rfl, rfl⟩
  | cons i l ih =>
    simp only [State.issueJobs]
    split
    · exact ih _
    · exact ih s

/-- A program stored with its run's benches as they were, or a run that had ended before. -/
theorem State.setProg_takesOn {c : Nat} {s t : State} {p q : ProgSt} {r r' : RunSt} (hp : s.prog? c = some p)
    (hr : p.run = some r) (hq : q.run = some r') (hb : r'.benches = r.benches) (hm : t.memory = s.memory)
    (he : t.eng.ended = s.eng.ended) : State.takesOn c s (t.setProg c q) := by
  refine ⟨hm, fun bs hs => ?_⟩
  rcases hs with ⟨q', r'', hq', hr'', hbs⟩ | ⟨st, hst⟩
  · obtain rfl : p = q' := Option.some.inj (hp.symm.trans hq')
    obtain rfl : r = r'' := Option.some.inj (hr.symm.trans hr'')
    exact .inl ⟨q, r', NMap.get?_set _ _ _, hq, hb.trans hbs⟩
  · exact .inr ⟨st, by rw [show (t.setProg c q).eng.ended = t.eng.ended from rfl, he]; exact hst⟩

/-- What an engine's retirement and the queues leave, removing a context's waiting jobs leaves. -/
theorem State.dropWaiting_leaves {γ : Type} {p : State → γ} (hretired : ∀ (s : State) k cause, p (s.engineRetired k cause) = p s)
    (hqueue : ∀ (s : State) t q, p (s.setQueue t q) = p s)
    (hengine : ∀ (s : State) k, p (s.setEngine k fun e => { e with assigned := none, next := {} }) = p s) (s : State) (c : Nat) :
    p (s.dropWaiting c) = p s := by
  delta State.dropWaiting
  extract_lets s1
  have h1 : p s1 = p s := foldl_leaves (fun u t => hqueue u _ _) _ _
  refine (foldl_leaves (p := p) (fun u k => ?_) _ _).trans h1
  split
  · rw [State.engineIdle_leaves hretired, hengine]
  · rfl

theorem State.engineRetired_ended (s : State) (k cause : Nat) : (s.engineRetired k cause).eng.ended = s.eng.ended := by
  simp only [State.engineRetired, State.event_eng]
  rfl

theorem State.cancelJobs_ended (s : State) (c : Nat) : (s.cancelJobs c).eng.ended = s.eng.ended := by
  delta State.cancelJobs
  extract_lets s1
  refine (foldl_leaves (p := fun u : State => u.eng.ended) (fun u k => ?_) _ _).trans
    (State.dropWaiting_leaves (p := fun u : State => u.eng.ended) State.engineRetired_ended (fun _ _ _ => rfl) (fun _ _ => rfl) s c)
  split <;> rfl

theorem State.dropBenches_ended (s : State) (bs : List (Nat × Nat)) : (bs.foldl State.dropBench s).eng.ended = s.eng.ended :=
  foldl_leaves (p := fun u : State => u.eng.ended) (f := State.dropBench) (fun _ _ => rfl) bs s

/-- The state in which a run's end leaves its program. -/
theorem State.endRun_left {s : State} {c : Nat} {p : ProgSt} {r : RunSt} (hp : s.prog? c = some p) (hr : p.run = some r)
    (st : Nat) : (s.endRun c st).eng.ended = s.eng.ended ++ [(c, st)] ∧
    (s.endRun c st).prog? c = some { p with run := none, lastStatus := some st, lastExc := r.exc } ∧
    (s.endRun c st).eng.engines = (s.cancelJobs c).eng.engines := by
  have hbenches : ((r.benches.foldl State.dropBench (s.cancelJobs c))).eng.engines = (s.cancelJobs c).eng.engines :=
    foldl_leaves (p := fun u : State => u.eng.engines) (f := State.dropBench) (fun _ _ => rfl) _ _
  simp only [State.endRun, hp, hr]
  refine ⟨?_, NMap.get?_set _ _ _, hbenches⟩
  exact congrArg (· ++ [(c, st)]) ((State.dropBenches_ended _ _).trans (s.cancelJobs_ended c))

/-- A run that ends is among the runs that ended. -/
theorem State.endRun_takesOn (c st : Nat) (s : State) : State.takesOn c s (s.endRun c st) := by
  refine ⟨State.keepsBut_memory (s.endRun_keepsBut c st), fun bs hs => ?_⟩
  cases hp : s.prog? c with
  | none => simpa only [State.endRun, hp] using hs
  | some p =>
    cases hr : p.run with
    | none => simpa only [State.endRun, hp, hr] using hs
    | some r =>
      refine .inr ⟨st, ?_⟩
      rw [(State.endRun_left hp hr st).1]
      exact List.mem_append_right _ (List.mem_singleton.2 rfl)

/-- The step at hand is issued, or waits for its input, or the run is over. -/
theorem State.issueStep_takesOn (c : Nat) (s : State) : State.takesOn c s (s.issueStep c) := by
  unfold State.issueStep
  split
  next => exact State.takesOn_refl c s
  next p hp =>
    split
    next => exact State.takesOn_refl c s
    next r hr =>
      split
      next => exact State.endRun_takesOn c _ s
      next st hst =>
        dsimp only
        split
        · exact State.setProg_takesOn hp hr rfl rfl rfl rfl
        · obtain ⟨hmem, -, hended⟩ := State.issueJobs_left c
            (if bit st.flags 0 = true then { p with input := p.input.set st.ioBuffer 0 } else p)
            (rangeFrom st.firstJob st.jobCount) s
          exact State.setProg_takesOn hp hr rfl rfl hmem hended

/-- A change of a run that keeps its benches. -/
theorem State.setRun_takesOn (c : Nat) (s : State) {f : RunSt → RunSt} (hf : ∀ r, (f r).benches = r.benches) :
    State.takesOn c s (s.setRun c f) := by
  unfold State.setRun
  split
  next p hp =>
    cases hr : p.run with
    | none =>
      refine ⟨rfl, fun bs hs => ?_⟩
      rcases hs with ⟨q, r, hq, hr', -⟩ | hs
      · obtain rfl : p = q := Option.some.inj (hp.symm.trans hq)
        rw [hr] at hr'
        contradiction
      · exact .inr hs
    | some r => exact State.setProg_takesOn hp hr rfl (hf r) rfl rfl
  next => exact State.takesOn_refl c s

/-- A run that goes on holds its benches until it ends. -/
theorem State.advanceRun_takesOn (c n : Nat) (s : State) : State.takesOn c s (s.advanceRun c n) := by
  induction n generalizing s with
  | zero => exact State.takesOn_refl c s
  | succ n ih =>
    simp only [State.advanceRun]
    split
    next => exact State.takesOn_refl c s
    next p _ =>
      split
      next => exact State.takesOn_refl c s
      next r _ =>
        split
        · exact State.takesOn_refl c s
        · split
          next st _ => exact State.endRun_takesOn c st s
          next => exact State.takesOn_refl c s
          next _ hst =>
            split
            · exact State.takesOn_trans (State.takesOn_keep (s.sendOutput_keepsBut c _ p) (by decide) (by decide))
                (State.takesOn_trans (State.setRun_takesOn c _
                  (f := fun r => { r with sent := true, sending := (s.sendOutput c _ p).1 }) fun _ => rfl) (ih _))
            · exact State.takesOn_trans (State.setRun_takesOn c s (f := fun r => { r with step := r.step + 1 }) fun _ => rfl)
                (State.takesOn_trans (State.issueStep_takesOn c _) (ih _))

/-- A run that begins holds its benches until it ends, and memory is as it was. -/
theorem State.beginRun_left (s : State) (c : Nat) (p : ProgSt) (bs : List (Nat × Nat)) (block : Option (Nat × Nat)) :
    (s.beginRun c p bs block).memory = s.memory ∧ (s.beginRun c p bs block).runsOn c bs := by
  have h := State.takesOn_trans (State.issueStep_takesOn c (s.setProg c { p with run := some { benches := bs, block := block } }))
    (State.advanceRun_takesOn c 8200 _)
  exact ⟨h.1, h.2 bs (.inl ⟨_, _, NMap.get?_set _ _ _, rfl, rfl⟩)⟩

/-! ## Benches -/

/-- Benches are taken whatever the host side is. -/
theorem State.takeBench_setHost (s : State) (f : HostSt → HostSt) (tile kind : Nat) :
    (s.setHost f).takeBench tile kind = (s.takeBench tile kind).map fun x => (x.1, x.2.setHost f) := by
  have hfree : (s.setHost f).freeBench = s.freeBench := rfl
  simp only [State.takeBench, hfree]
  split <;> rfl

theorem State.takeBenches_setHost (s : State) (f : HostSt → HostSt) (tile stride kind n : Nat) :
    (s.setHost f).takeBenches tile stride kind n = (s.takeBenches tile stride kind n).map fun x => (x.1, x.2.setHost f) := by
  induction n with
  | zero => rfl
  | succ n ih =>
    simp only [State.takeBenches, ih]
    cases s.takeBenches tile stride kind n with
    | none => rfl
    | some x =>
      simp only [Option.map_some, State.takeBench_setHost]
      cases x.2.takeBench (tile + stride * n) kind with
      | none => rfl
      | some y => rfl

/-- A program that does not run begins a run with the benches it takes. -/
theorem State.startRun_benches {s t : State} {c : Nat} {p : ProgSt} {bs : List (Nat × Nat)} (hp : s.prog? c = some p)
    (hr : p.run = none) (hb : s.takeBenches p.homeTile 1 2 p.benchCount = some (bs, t)) (block : Option (Nat × Nat)) :
    s.startRun c block = (.inl c, t.beginRun c p bs block) := by
  simp [State.startRun, hp, hr, hb]

theorem State.startRun_noBench {s : State} {c : Nat} {p : ProgSt} (hp : s.prog? c = some p)
    (hr : p.run = none) (hb : s.takeBenches p.homeTile 1 2 p.benchCount = none) (hf : p.fallback = 0) (block : Option (Nat × Nat)) :
    s.startRun c block = (.inr Status.noBench, s) := by
  simp [State.startRun, hp, hr, hb, hf]

theorem State.startRun_busy {s : State} {c : Nat} {p : ProgSt} (hp : s.prog? c = some p)
    (hr : p.run.isSome = true) (block : Option (Nat × Nat)) : s.startRun c block = (.inr Status.programBusy, s) := by
  simp [State.startRun, hp, hr]

/-! ## Aborted runs -/

/-- What removing waiting jobs goes through: engines keep the jobs that they run, and no engine is forgotten. -/
def State.sameJobs (s t : State) : Prop :=
  ∀ k, (t.engine k).running = (s.engine k).running ∧ (k ∈ s.eng.engines.keys → k ∈ t.eng.engines.keys)

theorem State.sameJobs_refl (s : State) : s.sameJobs s := fun _ => ⟨rfl, id⟩

theorem State.sameJobs_trans {s t u : State} (h : s.sameJobs t) (h' : t.sameJobs u) : s.sameJobs u :=
  fun k => ⟨(h' k).1.trans (h k).1, fun hk => (h' k).2 ((h k).2 hk)⟩

theorem State.sameJobs_of_engines {s t : State} (h : t.eng.engines = s.eng.engines) : s.sameJobs t :=
  fun k => ⟨by rw [State.engine, State.engine, h], fun hk => by rwa [h]⟩

theorem State.setEngine_sameJobs (s : State) (k : Nat) {f : EngSt → EngSt} (hf : ∀ e, (f e).running = e.running) :
    s.sameJobs (s.setEngine k f) := by
  intro j
  refine ⟨?_, fun hj => NMap.mem_keys_set_of_mem hj⟩
  by_cases hjk : j = k
  · rw [hjk, State.engine_setEngine, hf]
  · rw [State.engine_setEngine_ne _ _ hjk]

theorem State.engineRetired_sameJobs (s : State) (k cause : Nat) : s.sameJobs (s.engineRetired k cause) := by
  delta State.engineRetired
  extract_lets n s1 m s2
  exact State.sameJobs_trans (State.setEngine_sameJobs s k
    (f := fun e => { e with state := 4, fault := cause != 0, forTest := false }) fun _ => rfl)
    (State.sameJobs_of_engines (congrArg EngsSt.engines (s2.event_eng ..)))

theorem State.sameJobs_foldl {α : Type} {f : State → α → State} (hf : ∀ (s : State) x, s.sameJobs (f s x)) (l : List α) (s : State) :
    s.sameJobs (l.foldl f s) := by
  induction l generalizing s with
  | nil => exact State.sameJobs_refl s
  | cons x l ih => exact State.sameJobs_trans (hf s x) (ih _)

theorem State.dropWaiting_sameJobs (s : State) (c : Nat) : s.sameJobs (s.dropWaiting c) := by
  delta State.dropWaiting
  extract_lets s1
  have hqueues : s.sameJobs s1 :=
    State.sameJobs_foldl (fun u t => State.sameJobs_of_engines (t := u.setQueue t ((u.queue t).filter fun q => q.ctx != c)) rfl) _ s
  refine State.sameJobs_trans hqueues (State.sameJobs_foldl (fun u k => ?_) _ s1)
  split
  · refine State.sameJobs_trans (State.setEngine_sameJobs u k (f := fun e => { e with assigned := none, next := {} }) fun _ => rfl) ?_
    unfold State.engineIdle
    dsimp only
    split
    · exact State.engineRetired_sameJobs _ k 0
    · exact State.sameJobs_refl _
  · exact State.sameJobs_refl u

/-- The job of a context that an engine runs is suppressed. -/
def State.suppressJob (c : Nat) (s : State) (k : Nat) : State :=
  if ((s.engine k).running.map QJob.ctx) = some c then s.setEngine k fun e => { e with suppressed := true } else s

theorem State.suppressJob_suppresses (c j : Nat) (s : State) (hj : (s.engine j).suppressed = true) (k : Nat) :
    ((s.suppressJob c k).engine j).suppressed = true := by
  unfold State.suppressJob
  split
  · by_cases hjk : j = k
    · rw [hjk, State.engine_setEngine]
    · rw [State.engine_setEngine_ne _ _ hjk, hj]
  · exact hj

theorem State.suppressJob_foldl (c j : Nat) (l : List Nat) (s : State) (hj : j ∈ l ∧ (s.engine j).running.map QJob.ctx = some c ∨
    (s.engine j).suppressed = true) : ((l.foldl (State.suppressJob c) s).engine j).suppressed = true := by
  induction l generalizing s with
  | nil => exact hj.elim (fun h => absurd h.1 List.not_mem_nil) id
  | cons k l ih =>
    refine ih _ ?_
    rcases hj with ⟨hjl, hrun⟩ | hsup
    · rcases List.mem_cons.1 hjl with rfl | hjl
      · right
        rw [State.suppressJob, if_pos hrun, State.engine_setEngine]
      · left
        refine ⟨hjl, ?_⟩
        unfold State.suppressJob
        split
        · rw [((State.setEngine_sameJobs s k (f := fun e => { e with suppressed := true }) fun _ => rfl) j).1, hrun]
        · exact hrun
    · exact .inr (State.suppressJob_suppresses c j s hsup k)

/-- The running jobs of a context whose jobs end are suppressed. -/
theorem State.cancelJobs_suppresses {s : State} {c k : Nat} {e : EngSt} (he : s.eng.engines.get? k = some e)
    (hrun : e.running.map QJob.ctx = some c) : ((s.cancelJobs c).engine k).suppressed = true := by
  obtain ⟨hsame, hkeys⟩ := s.dropWaiting_sameJobs c k
  have hengine : s.engine k = e := by rw [State.engine, NMap.getD, he, Option.getD_some]
  refine State.suppressJob_foldl c k _ _ (.inl ⟨hkeys (NMap.mem_keys_iff.2 (he ▸ rfl)), ?_⟩)
  rw [hsame, hengine, hrun]

theorem State.undefineAll_setHost (s : State) (f : HostSt → HostSt) (l : List (Nat × Nat)) :
    l.foldl (fun (s : State) r => s.undefine r.1 r.2) (s.setHost f) = (l.foldl (fun (s : State) r => s.undefine r.1 r.2) s).setHost f := by
  induction l generalizing s with
  | nil => rfl
  | cons r l ih => exact ih (s.undefine r.1 r.2)

theorem State.setHost_memory (s : State) (f : HostSt → HostSt) : (s.setHost f).memory = s.memory := rfl

theorem State.bufPieces_setHost (s : State) (f : HostSt → HostSt) (p : ProgSt) : (s.setHost f).bufPieces p = s.bufPieces p := by
  funext bi
  have haddr : (s.setHost f).bufAddr p bi = s.bufAddr p bi := rfl
  simp only [State.bufPieces, haddr]

theorem State.withCommand_loseOutputs (s : State) (c : Instr) (h : CmdHdr) (p : ProgSt) :
    ((s.withCommand c h).loseOutputs p).memory = (s.loseOutputs p).memory := by
  rw [State.withCommand_eq]
  simp only [State.loseOutputs, State.bufPieces_setHost, State.undefineAll_setHost]
  exact State.setHost_memory _ _

/-! ## Programs -/

/-- One sett more for a buffer, unless one failed. -/
def State.bufferSett (home r size : Nat) (acc : Option Nat × List Nat × State) : Option Nat × List Nat × State :=
  match acc.1 with
  | some _ => acc
  | none =>
    match acc.2.2.alloc (masterId 0 home 0) r size home false with
    | (some (a, _), _, s') => (none, acc.2.1 ++ [a], s')
    | (none, st, s') => (some st, acc.2.1, s')

theorem State.bufferSett_keepsBut (home r size : Nat) (acc : Option Nat × List Nat × State) :
    acc.2.2.keepsBut [.pool, .regs, .mgt, .fresh, .out, .flt] (State.bufferSett home r size acc).2.2 := by
  unfold State.bufferSett
  split
  · exact State.keepsBut_refl _ _
  · have ha := State.keepsBut_mono (ch' := [.pool, .regs, .mgt, .fresh, .out, .flt])
      (acc.2.2.alloc_keepsBut (masterId 0 home 0) r size home false) (by decide)
    split
    next heq => rwa [heq] at ha
    next heq => rwa [heq] at ha

/-- The setts of a program's buffers, buffer by buffer. -/
theorem State.allocBuffers_cons (s : State) (r home : Nat) (e : BufEntry) (i : Nat) (l : List (BufEntry × Nat))
    {got : Option Nat × List Nat × State}
    (hgot : (List.range (bufferSetts e)).foldl (fun acc _ => State.bufferSett home r (if mib < e.size then mib else e.size) acc)
      (none, [], s) = got) : s.allocBuffers r home ((e, i) :: l) =
    if e.kind = 2 ∨ e.kind = 4 then
      match got.1 with
      | some st => (some st, [], got.2.2.freeAll (masterId 0 home 0) r got.2.1)
      | none =>
        match State.allocBuffers got.2.2 r home l with
        | (some st, m, s') => (some st, m, s'.freeAll (masterId 0 home 0) r got.2.1)
        | (none, m, s') => (none, NMap.set m i got.2.1, s')
    else s.allocBuffers r home l := by
  rw [← hgot]
  rfl

theorem State.allocBuffers_keepsBut (s : State) (r home : Nat) (l : List (BufEntry × Nat)) :
    s.keepsBut [.pool, .regs, .mgt, .fresh, .out, .flt] (s.allocBuffers r home l).2.2 := by
  induction l generalizing s with
  | nil => exact State.keepsBut_refl _ s
  | cons x l ih =>
    obtain ⟨e, i⟩ := x
    rw [State.allocBuffers_cons s r home e i l rfl]
    have hgot := State.keepsBut_foldlPair2 (l := List.range (bufferSetts e))
      (fun acc (_ : Nat) => State.bufferSett_keepsBut home r (if mib < e.size then mib else e.size) acc)
      (x := (none, [], s)) (State.keepsBut_refl _ s)
    split
    · split
      · exact State.keepsBut_then (State.freeAll_keepsBut _ _ _ _) hgot rfl
      · have hrest := State.keepsBut_trans hgot (ih _)
        split
        next heq => exact State.keepsBut_then (State.freeAll_keepsBut _ _ _ _) (State.keepsBut_snd (congrArg Prod.snd heq) hrest) rfl
        next heq => exact State.keepsBut_snd (congrArg Prod.snd heq) hrest
    · exact ih s

/-- A program unloaded: its context is free, and its generation stays. -/
theorem State.unload_program {s : State} {c : Nat} {p : ProgSt} (hp : s.prog? c = some p) :
    (s.unload c).prog? c = none ∧ (s.unload c).ctxUse.get? c = none ∧ (s.unload c).ctxGen = s.ctxGen := by
  simp only [State.unload, hp]
  refine ⟨NMap.get?_erase _ _, NMap.get?_erase _ _, ?_⟩
  exact (State.keepsBut_ctxs (s.freeAll_keepsBut _ _ _)).2

/-! ## The commands -/

theorem State.withCommand_progRefusal (s : State) (c : Instr) (h : CmdHdr) (b : List Byte) (p : ProgSt) (j : Nat) :
    (s.withCommand c h).progRefusal b p j = s.progRefusal b p j := by
  rw [State.withCommand_eq]; rfl

theorem State.withCommand_freeCtx (s : State) (c : Instr) (h : CmdHdr) : (s.withCommand c h).freeCtx = s.freeCtx := by
  rw [State.withCommand_eq]; rfl

theorem State.withCommand_stozilJob (s : State) (c : Instr) (h : CmdHdr) (j : Nat) :
    (s.withCommand c h).stozilJob j = s.stozilJob j := by
  rw [State.withCommand_eq]; rfl

theorem State.withCommand_progRequester (s : State) (c : Instr) (h : CmdHdr) (j home : Nat) :
    (s.withCommand c h).progRequester j home = s.progRequester j home := by
  rw [State.withCommand_eq]; rfl

theorem State.withCommand_progFor (s : State) (c : Instr) (h : CmdHdr) (o : Nat) :
    (s.withCommand c h).progFor o = s.progFor o := by
  rw [State.withCommand_eq]; rfl

theorem State.withCommand_prog? (s : State) (c : Instr) (h : CmdHdr) (n : Nat) : (s.withCommand c h).prog? n = s.prog? n := by
  rw [State.withCommand_eq]; rfl

/-- The program that an op_id names is its context's. -/
theorem State.prog?_of_progFor {s : State} {o c : Nat} {p : ProgSt} (h : s.progFor o = some (c, p)) : s.prog? c = some p := by
  simp only [State.progFor] at h
  split at h
  · obtain ⟨q, hq, heq⟩ := Option.map_eq_some_iff.1 h
    obtain ⟨rfl, rfl⟩ := Prod.mk.inj heq
    exact hq
  · contradiction

/-- The test of an engine that is neither tested nor retired is asked for. -/
theorem State.engTest_asked {s : State} {e : Nat} (h2 : (s.engine (engineKey e)).state ≠ 2)
    (h4 : (s.engine (engineKey e)).state ≠ 4) : ∃ u, s.engTest e = (.wait (.engine (engineKey e)), u) ∧
    engineKey e ∈ u.eng.testAsked ∧ u.eng.engines = s.eng.engines ∧ s.keepsBut [.eng] u := by
  unfold State.engTest
  dsimp only
  split
  next h => exact absurd h h4
  next h => exact absurd h h2
  next =>
    by_cases hk : engineKey e ∈ s.eng.testAsked
    · exact ⟨s, by rw [if_pos (List.contains_iff_mem.2 hk)], hk, rfl, State.keepsBut_refl _ s⟩
    · refine ⟨s.setEng fun x => { x with testAsked := x.testAsked ++ [engineKey e] },
        by rw [if_neg (fun h => hk (List.contains_iff_mem.1 h))], ?_, rfl, State.setEng_keepsBut s _⟩
      exact List.mem_append_right _ (List.mem_singleton.2 rfl)

/-- A run that is aborted ends, its outputs lost (R207). -/
theorem abort_ends {s : State} {h : CmdHdr} {o c : Nat} {p : ProgSt} (ht : s.takesNow (.engAbort h o) h = true)
    (hp : s.progFor o = some (c, p)) (hrun : p.run.isSome = true) :
    Ends s (.engAbort h o) h [] [.eng, .flow, .host, .mem, .fresh, .mgt, .out, .regs] fun u =>
      (∃ q, u.prog? c = some q ∧ q.run = none ∧ q.lastStatus = some Status.aborted) ∧ u.memory = (s.loseOutputs p).memory ∧
      (c, Status.aborted) ∈ u.eng.ended ∧
      ∀ k e, s.eng.engines.get? k = some e → e.running.map QJob.ctx = some c → (u.engine k).suppressed = true := by
  obtain ⟨r, hr⟩ := Option.isSome_iff_exists.1 hrun
  have hlose := (s.withCommand (.engAbort h o) h).loseOutputs_keepsBut p
  have heng : ((s.withCommand (.engAbort h o) h).loseOutputs p).eng = s.eng :=
    (State.keepsBut_eng hlose).trans (State.withCommand_eng _ _ _)
  have hprog : ((s.withCommand (.engAbort h o) h).loseOutputs p).prog? c = some p := by
    rw [State.prog?, heng]
    exact State.prog?_of_progFor hp
  have hend := ((s.withCommand (.engAbort h o) h).loseOutputs p).endRun_keepsBut c Status.aborted
  obtain ⟨hended, hprog', hengines⟩ := State.endRun_left hprog hr Status.aborted
  refine ends_of_run rfl ht ?_ (State.keepsBut_then hend (State.keepsBut_mono hlose (by decide)) rfl)
    ⟨⟨_, hprog', rfl, rfl⟩, ?_, ?_, fun k e he hjob => ?_⟩
  · have hnone : p.run.isNone = false := by rw [hr]; rfl
    show State.engAbort _ o = _
    simp only [State.engAbort, State.withCommand_progFor, hp, hnone]
    rfl
  · rw [State.keepsBut_memory hend, State.withCommand_loseOutputs]
  · rw [hended]
    exact List.mem_append_right _ (List.mem_singleton.2 rfl)
  · rw [State.engine_congr hengines]
    exact State.cancelJobs_suppresses (e := e) (by rw [heng]; exact he) hjob

/-- Settles O54: an image that Table 9.4 refuses is refused with its reason, and another takes the lowest free context; a
run holds its benches until it ends, and one that is aborted suppresses its running jobs. -/
theorem engineCommands : Obligations.EngineCommands := by
  unfold Obligations.EngineCommands
  intro s h
  refine ⟨fun j r b ht hstz hread => ⟨fun seq reason href => ?_, fun ctx href hctx => ⟨fun setts t halloc => ?_,
      fun st m t halloc => ?_⟩⟩,
    fun o ht => ⟨fun hp => ?_, fun c p hp hrun => ?_, fun c p hp hrun => ?_⟩,
    fun o c p ht hp hstz => ⟨fun hrun => ?_, fun hrun hb hf => ?_, fun bs t hrun hb => ?_⟩,
    fun o c p ht hp => ⟨fun hrun => ?_, fun hrun => abort_ends ht hp hrun⟩,
    fun k r t b tab ht hb htab => ⟨fun hbad => ?_, fun hmod hlen hbase => ?_⟩,
    fun e => ⟨fun ht => ⟨fun h4 => ?_, fun hbusy => ?_, fun h3 h4 hidle => ?_⟩,
      fun ht => ⟨fun h4 => ?_, fun h4 => ?_⟩, fun ht => ⟨fun h4 => ?_, fun h2 => ?_, fun h2 h4 => ?_⟩⟩⟩
  · refine completes_of_run rfl ht (?_ : State.engLoad _ _ h j r = _)
    simp only [State.engLoad, State.withCommand_stozilJob, hstz, hread, State.withCommand_progRefusal, href]
    rfl
  · have hrun : (s.withCommand (.engLoad h j r) h).engLoad (.engLoad h j r) h j r =
        finished (((t.newGen ctx).useCtx ctx Use.program).setProg ctx { parseProg b with setts := setts })
          (packValues [(4, ((t.newGen ctx).useCtx ctx Use.program).opId ctx)]) := by
      simp only [State.engLoad, State.withCommand_stozilJob, hstz, hread, State.withCommand_progRefusal, href,
        State.withCommand_freeCtx, hctx, State.withCommand_progRequester, halloc]
      rfl
    have hbufs := (s.withCommand (.engLoad h j r) h).allocBuffers_keepsBut (s.progRequester j (parseProg b).homeTile)
      (parseProg b).homeTile (parseProg b).buffers.zipIdx
    rw [halloc] at hbufs
    have hgen : t.ctxGen = s.ctxGen := (State.keepsBut_ctxs hbufs).2.trans (State.withCommand_ctxGen _ _ _)
    have hgen' : ((t.newGen ctx).useCtx ctx Use.program).ctxGen.getD ctx 0 = (s.ctxGen.getD ctx 0 + 1) % 4096 := by
      rw [← hgen]
      exact NMap.getD_set _ _ _ _
    refine ⟨((t.newGen ctx).useCtx ctx Use.program).setProg ctx { parseProg b with setts := setts },
      completes_of_run rfl ht (hrun.trans ?_), NMap.get?_set _ _ _, rfl, hgen', NMap.get?_set _ _ _, ?_⟩
    · rw [State.opId, hgen']
      rfl
    · exact State.keepsBut_then (State.setProg_keepsBut _ _ _) (State.keepsBut_then (State.useCtx_keepsBut _ _ _)
        (State.keepsBut_then (State.newGen_keepsBut _ _) (State.keepsBut_mono hbufs (by decide)) rfl) rfl) rfl
  · refine completes_of_run rfl ht (?_ : State.engLoad _ _ h j r = _)
    simp only [State.engLoad, State.withCommand_stozilJob, hstz, hread, State.withCommand_progRefusal, href,
      State.withCommand_freeCtx, hctx, State.withCommand_progRequester, halloc]
    rfl
  · refine refuses_of_run rfl ht (?_ : State.engUnload _ o = _)
    simp only [State.engUnload, State.withCommand_progFor, hp]
    rfl
  · refine refuses_of_run rfl ht (?_ : State.engUnload _ o = _)
    simp only [State.engUnload, State.withCommand_progFor, hp, hrun]
    rfl
  · have hprog := (State.withCommand_prog? s (.engUnload h o) h c).trans (State.prog?_of_progFor hp)
    obtain ⟨hgone, huse, hgen⟩ := State.unload_program hprog
    refine ⟨_, completes_of_run rfl ht (?_ : State.engUnload _ o = _), hgone, huse,
      hgen.trans (State.withCommand_ctxGen _ _ _), ?_⟩
    · simp only [State.engUnload, State.withCommand_progFor, hp, hrun]
      rfl
    · rw [State.keepsBut_memory (State.unload_keepsBut _ c), State.withCommand_memory]
  · have hprog := (State.withCommand_prog? s (.engRun h o) h c).trans (State.prog?_of_progFor hp)
    refine refuses_of_run rfl ht (?_ : State.engRun _ o = _)
    simp only [State.engRun, State.withCommand_progFor, hp, State.withCommand_stozilJob, hstz,
      State.startRun_busy hprog hrun]
    rfl
  · have hprog := (State.withCommand_prog? s (.engRun h o) h c).trans (State.prog?_of_progFor hp)
    refine refuses_of_run rfl ht (?_ : State.engRun _ o = _)
    simp only [State.engRun, State.withCommand_progFor, hp, State.withCommand_stozilJob, hstz]
    rw [State.startRun_noBench hprog hrun (by rw [State.withCommand_eq, State.takeBenches_setHost, hb]; rfl) hf]
    rfl
  · have hprog := (State.withCommand_prog? s (.engRun h o) h c).trans (State.prog?_of_progFor hp)
    obtain ⟨t', hb', hmem⟩ : ∃ t', (s.withCommand (.engRun h o) h).takeBenches p.homeTile 1 2 p.benchCount = some (bs, t') ∧
        t'.memory = t.memory := by
      rw [State.withCommand_eq, State.takeBenches_setHost, hb]
      exact ⟨_, rfl, rfl⟩
    obtain ⟨hkept, hon⟩ := t'.beginRun_left c p bs none
    refine ⟨_, waits_of_run rfl ht (?_ : State.engRun _ o = _), hkept.trans hmem, hon⟩
    simp only [State.engRun, State.withCommand_progFor, hp, State.withCommand_stozilJob, hstz,
      State.startRun_benches hprog hrun hb']
    rfl
  · refine refuses_of_run rfl ht (?_ : State.engAbort _ o = _)
    simp only [State.engAbort, State.withCommand_progFor, hp, hrun]
    rfl
  · refine refuses_of_run rfl ht (?_ : State.engKernel _ _ h k r t = _)
    simp only [State.engKernel, hb, htab, if_pos hbad]
    rfl
  · have hany : (Config.streamBases tab).any (fun a => a % grain != 0) = false :=
      List.any_eq_false.2 fun a ha => by simp [hbase a ha]
    have hrun : (s.withCommand (.engKernel h k r t) h).engKernel (.engKernel h k r t) h k r t =
        finished ((s.withCommand (.engKernel h k r t) h).setEng fun e =>
          { e with kernels := e.kernels.set k { image := b, table := tab } }) := by
      simp only [State.engKernel, hb, htab, hany]
      rw [if_neg (by omega)]
      rfl
    refine ends_of_run rfl ht hrun (State.setEng_keepsBut _ _) ?_
    rw [← State.withCommand_eng s (.engKernel h k r t) h]
    rfl
  · refine ends_of_run rfl ht ?_ (State.keepsBut_refl _ _) trivial
    show (_, State.retireEngine _ (engineKey e)) = _
    simp only [State.retireEngine, State.withCommand_engine, h4]
  · have hleft := State.retireEngine_busy (s := s.withCommand (.engRetire h e) h) (k := engineKey e)
      (by simpa only [State.withCommand_engine] using hbusy)
    exact ends_of_run rfl ht rfl hleft.1 hleft.2
  · refine ends_of_run rfl ht rfl (State.keepsBut_mono (State.retireEngine_keepsBut _ _) (by decide)) ?_
    exact State.retireEngine_idle (by rwa [State.withCommand_engine]) (by rwa [State.withCommand_engine])
      (by rwa [State.withCommand_engine])
  · refine ends_of_run rfl ht ?_ (State.keepsBut_refl _ _) trivial
    show (_, State.restoreEngine _ (engineKey e)) = _
    rw [State.restoreEngine, State.withCommand_engine, if_neg h4]
  · refine ends_of_run rfl ht rfl (State.keepsBut_mono (State.restoreEngine_keepsBut _ _) (by decide)) ?_
    exact State.restoreEngine_retired (by rw [State.withCommand_engine, h4])
  · refine ends_of_run rfl ht (?_ : State.engTest _ e = _) (State.keepsBut_refl _ _) trivial
    simp only [State.engTest, State.withCommand_engine, h4]
    rfl
  · refine waits_of_run rfl ht (?_ : State.engTest _ e = _)
    simp only [State.engTest, State.withCommand_engine, h2]
  · obtain ⟨u, hu, hasked, hengines, hkeep⟩ := State.engTest_asked (s := s.withCommand (.engTest h e) h) (e := e)
      (by rwa [State.withCommand_engine]) (by rwa [State.withCommand_engine])
    exact ⟨u, waits_of_run rfl ht hu, hasked, hengines.trans (by rw [State.withCommand_eng]), hkeep⟩

end Sys2Proof.Machine
end

section

-- One declaration after another: elaborated side by side, they take more threads than the check allows.
set_option Elab.async false

/-! Collectives and barriers by command (R104, R221, R222, R240, R246). -/

namespace Sys2Proof.Machine

open Sys2Proof (Instr CmdHdr Ref)

/-- The arguments of a command that is taken are in range. -/
theorem State.argsOk_of_takesNow {s : State} {c : Instr} {h : CmdHdr} (ht : s.takesNow c h = true) : s.argsOk c = true := by
  simp only [State.takesNow, Bool.and_eq_true] at ht
  by_contra hargs
  have hchecks := ht.2
  have hbad : ((s.ctxFor c h).bad ≠ 0 ∨ s.argsOk (s.ctxFor c h).cmd = false ∨
      ((s.ctxFor c h).hdr.effTick ≠ 0 ∧ tickUse (s.ctxFor c h).code = 0) ∨
      ((s.ctxFor c h).hdr.effTick = 0 ∧ tickUse (s.ctxFor c h).code = 2)) := .inr (.inl (Bool.not_eq_true _ ▸ hargs))
  simp only [State.checks, if_pos hbad] at hchecks
  split at hchecks
  · contradiction
  · split at hchecks
    · contradiction
    · split at hchecks <;> contradiction

/-! ## Groups -/

/-- The group entry just stored is found. -/
theorem State.group?_setGroup (s : State) (g : GroupSt) : (s.setGroup g).group? g.home g.group = some g :=
  List.find?_cons_of_pos (by simp)

/-- The group of an operation is entered; frames towards its members leave the entry. -/
theorem State.installGroup_group (s : State) (job id : Nat) (ms : List (Nat × Nat)) :
    (∃ e, (s.installGroup job id ms).group? s.me id = some e) ∧ (s.installGroup job id ms).me = s.me := by
  delta State.installGroup
  extract_lets g g'
  have hsend : (s.setGroup g').keepsBut _ (g'.modules.foldl (fun s m => s.sendGroup 1 g' m) (s.setGroup g')) :=
    State.keepsBut_foldl (fun u m => u.sendGroup_keepsBut 1 g' m) (State.keepsBut_refl _ _)
  refine ⟨⟨g', ?_⟩, ?_⟩
  · rw [State.group?, State.keepsBut_topo hsend]
    exact s.group?_setGroup g'
  · rw [State.me, State.keepsBut_topo hsend]
    rfl

/-! ## Operations -/

/-- An operation that is open. -/
theorem State.setOp_of_get? {s : State} {n : Nat} {c : CollSt} (h : s.coll.ops.get? n = some c) (f : CollSt → CollSt) :
    (s.setOp n f).coll.ops.get? n = some (f c) := by
  simp only [State.setOp, h]
  exact NMap.get?_set _ _ _

/-- What an operation ran has ended: the operation is kept without it. -/
def State.instanceOver (s : State) (n gen status : Nat) : Prop :=
  ∃ c, s.coll.ops.get? n = some c ∧ c.inst = none ∧ c.last = some (gen, status) ∧ c.next = (gen + 1) % 4096

theorem State.instanceOver_of_ops {s t : State} {n gen status : Nat} (h : s.instanceOver n gen status)
    (ht : t.coll.ops = s.coll.ops) : t.instanceOver n gen status := by
  rwa [State.instanceOver, ht]

theorem State.setOp_instanceOver {s : State} {n gen status : Nat} (h : s.instanceOver n gen status) {f : CollSt → CollSt}
    (hf : ∀ c, (f c).inst = c.inst ∧ (f c).last = c.last ∧ (f c).next = c.next) : (s.setOp n f).instanceOver n gen status := by
  obtain ⟨c, hc, hinst, hlast, hnext⟩ := h
  obtain ⟨hi, hl, hn⟩ := hf c
  exact ⟨f c, State.setOp_of_get? hc f, hi.trans hinst, hl.trans hlast, hn.trans hnext⟩

theorem State.completeSettled_instanceOver {s : State} {n gen status : Nat} (h : s.instanceOver n gen status) (g : Nat) :
    (s.completeSettled n g).instanceOver n gen status := by
  unfold State.completeSettled
  split
  · exact h
  · split
    · exact h
    next x _ =>
      dsimp only
      split
      · have hdrop := State.keepsBut_foldl (l := x.slots) (fun (u : State) (r : SlotRec) => u.dropChunk_keepsBut r.c)
          (State.keepsBut_refl _ s)
        refine State.setOp_instanceOver (State.instanceOver_of_ops h ?_) fun _ => ⟨rfl, rfl, rfl⟩
        rw [State.keepsBut_coll hdrop]
      · exact State.setOp_instanceOver h fun _ => ⟨rfl, rfl, rfl⟩

theorem State.workEnded_instanceOver {s : State} {n gen status : Nat} (h : s.instanceOver n gen status) (f j : Nat)
    (drained : Bool) : (s.workEnded f j drained).instanceOver n gen status := State.instanceOver_of_ops h rfl

/-- What is ended is over (R237). -/
theorem State.endInstance_over {s : State} {n status : Nat} {c : CollSt} {i : InstSt} (hc : s.coll.ops.get? n = some c)
    (hi : c.inst = some i) : (s.endInstance n status).instanceOver n i.gen status := by
  have hcount : ((s.stamped.bump .collInstancesDone).countEnding c.desc status).coll = s.coll :=
    (State.keepsBut_coll (State.countEnding_keepsBut _ c.desc status)).trans rfl
  simp only [State.endInstance, hc, hi]
  generalize hu : ({ (s.stamped.bump .collInstancesDone).countEnding c.desc status with
    ctxGen := ((s.stamped.bump .collInstancesDone).countEnding c.desc status).ctxGen.set n i.gen } : State) = u
  have hops : (u.findHedged c.job c.desc i).2.coll.ops.get? n = some c := by
    rw [State.keepsBut_coll (State.findHedged_keepsBut u c.job c.desc i), ← hu]
    exact (congrArg (fun k => NMap.get? k.ops n) hcount).trans hc
  have hmembers : ∀ (v : State) (l : List Nat) (t : Stamp), v.instanceOver n i.gen status →
      (l.foldl (fun s m => s.sendComplete n i.gen c.job c.desc (u.findHedged c.job c.desc i).1 status t m) v).instanceOver
        n i.gen status := fun v l t hv =>
    State.instanceOver_of_ops hv (congrArg CollsSt.ops (State.keepsBut_coll (State.keepsBut_foldl
      (fun w m => w.sendComplete_keepsBut n i.gen c.job c.desc _ status t m) (State.keepsBut_refl _ v))))
  have hover : ∀ f : CollSt → CollSt, (f c).inst = none → (f c).last = some (i.gen, status) → (f c).next = (i.gen + 1) % 4096 →
      ((u.findHedged c.job c.desc i).2.setOp n f).instanceOver n i.gen status :=
    fun f h1 h2 h3 => ⟨f c, State.setOp_of_get? hops f, h1, h2, h3⟩
  have hclosed : ∀ (v : State) (p : Prop) [Decidable p] (g : Nat), v.instanceOver n i.gen status →
      (if p then v.completeSettled n g else v).instanceOver n i.gen status := fun v p _ g hv => by
    split
    · exact State.completeSettled_instanceOver hv g
    · exact hv
  refine hclosed _ _ _ (hmembers _ _ _ (State.workEnded_instanceOver ?_ _ _ _))
  split
  · exact State.instanceOver_of_ops (hover _ rfl rfl rfl) rfl
  · exact hover _ rfl rfl rfl

/-! ## Closing -/

theorem State.dropChunk_ctxGen (s : State) (c : ChunkSt) : (s.dropChunk c).ctxGen = s.ctxGen := by
  have hb := (State.keepsBut_foldl (l := c.benches) (fun (u : State) b => u.dropBench_keepsBut b) (State.keepsBut_refl _ s))
  have hgen : ((c.benches.foldl State.dropBench s).dropCtx c.ctx).ctxGen = s.ctxGen := (State.keepsBut_ctxs hb).2
  unfold State.dropChunk
  dsimp only
  split
  · exact hgen
  · exact (State.keepsBut_ctxs (State.free_keepsBut _ _ _ _)).2.trans hgen

/-- A context whose operation is closed is free, and keeps its generation. -/
theorem State.removeColl_removed {s : State} {n : Nat} {c : CollSt} (hc : s.coll.ops.get? n = some c) :
    (s.removeColl n).coll.ops.get? n = none ∧ (s.removeColl n).ctxUse.get? n = none ∧ (s.removeColl n).ctxGen = s.ctxGen := by
  have hslots : ∀ (l : List SlotRec) (u : State), (l.foldl (fun s x => s.dropChunk x.c) u).ctxGen = u.ctxGen :=
    fun l u => foldl_leaves (p := State.ctxGen) (f := fun s x => s.dropChunk x.c) (fun u x => u.dropChunk_ctxGen x.c) l u
  have hmerges : ∀ (l : List MergeSt) (u : State), (l.foldl (fun s m => s.dropChunk m.c) u).ctxGen = u.ctxGen :=
    fun l u => foldl_leaves (p := State.ctxGen) (f := fun s m => s.dropChunk m.c) (fun u m => u.dropChunk_ctxGen m.c) l u
  have hremoved : ∀ (u : State) (p : Bool) (g : Nat), u.coll.ops.get? n = none → u.ctxUse.get? n = none → u.ctxGen = s.ctxGen →
      (if p then u.removeGroup g else u).coll.ops.get? n = none ∧ (if p then u.removeGroup g else u).ctxUse.get? n = none ∧
      (if p then u.removeGroup g else u).ctxGen = s.ctxGen := fun u p g h1 h2 h3 => by
    cases p with
    | false => exact ⟨h1, h2, h3⟩
    | true =>
      have hg := u.removeGroup_keepsBut g
      obtain ⟨huse, hgen⟩ := State.keepsBut_ctxs hg
      refine ⟨?_, (congrArg (fun m => NMap.get? m n) huse).trans h2, hgen.trans h3⟩
      exact (congrArg (fun k => NMap.get? k.ops n) (State.keepsBut_coll hg)).trans h1
  simp only [State.removeColl, hc]
  exact hremoved _ _ _ (NMap.get?_erase _ _) (NMap.get?_erase _ _) ((hmerges _ _).trans (hslots _ _))

/-! ## The commands -/

theorem State.withCommand_collRefusal (s : State) (c : Instr) (h : CmdHdr) (j : Nat) (x : JobSt) (n : Nat) (b : List Byte) :
    (s.withCommand c h).collRefusal j x n b = s.collRefusal j x n b := by
  rw [State.withCommand_eq]; rfl

theorem State.withCommand_groupTaken (s : State) (c : Instr) (h : CmdHdr) (d : CollDesc) :
    (s.withCommand c h).groupTaken d = s.groupTaken d := by
  rw [State.withCommand_eq]; rfl

theorem State.withCommand_groupUsed (s : State) (c : Instr) (h : CmdHdr) (g : Nat) :
    (s.withCommand c h).groupUsed g = s.groupUsed g := by
  rw [State.withCommand_eq]; rfl

theorem State.withCommand_me (s : State) (c : Instr) (h : CmdHdr) : (s.withCommand c h).me = s.me := by
  rw [State.withCommand_eq]; rfl

/-- A command that has set a group up is over, or waits for the group. -/
theorem completes_or_waits_of_groupWait {s u : State} {c : Instr} {h : CmdHdr} {code g n : Nat} {result : List Byte}
    (hc : cmdOf c = some (code, h)) (ht : s.takesNow c h = true) (hme : u.me = s.me)
    (hr : (s.withCommand c h).runCmd c h = u.groupWait g result n) :
    Completes s c h u Status.ok result ∨ Waits s c u (.group s.me g) result (some n) := by
  rw [State.groupWait] at hr
  split at hr
  · split at hr
    · exact .inl (completes_of_run hc ht hr)
    · exact .inr (waits_of_run hc ht (by rw [hr, hme]))
  · exact .inl (completes_of_run hc ht hr)

/-- No group of this module's is taken for an operation that finds its own group free. -/
theorem ownGroup_free {s : State} {d : CollDesc}
    (hmine : d.root = s.me → d.hasGroup = true → s.groupUsed d.group = false ∧ s.topo.groups.length < 65536) :
    (d.root == s.me && d.hasGroup && s.groupUsed d.group) = false := by
  cases hown : (d.root == s.me && d.hasGroup) with
  | false => rfl
  | true =>
    obtain ⟨hroot, hgroup⟩ := Bool.and_eq_true_iff.1 hown
    rw [(hmine (beq_iff_eq.1 hroot) hgroup).1]
    rfl

section

variable {s : State} {h : CmdHdr} {j g n : Nat} {r : Ref} {b : List Byte} {x : JobSt}
  (ht : s.takesNow (.collOpen h j g n r) h = true) (hstz : s.stozilJob j = false) (hx : s.host.jobs.get? j = some x)
  (hread : (s.withCommand (.collOpen h j g n r) h).readImage (.collOpen h j g n r) h r 64 collLength = .inr b)

include ht hstz hread

/-- COLL.OPEN is refused where the operation cannot be opened. -/
theorem collOpen_refuses {st d : Nat} (hst : st ≠ 0) (hopen : (s.withCommand (.collOpen h j g n r) h).collOpen j g n b =
    ((st, d), s.withCommand (.collOpen h j g n r) h)) : Refuses s (.collOpen h j g n r) h st d := by
  refine refuses_of_run rfl ht (?_ : State.collOpenCmd _ _ h j g n r = _)
  simp only [State.collOpenCmd, State.withCommand_stozilJob, hstz, hread, hopen]
  cases st with
  | zero => exact absurd rfl hst
  | succ k => rfl

include hx

theorem collOpen_refused {d : Nat} (hd : s.collRefusal j x n b = some d) :
    Refuses s (.collOpen h j g n r) h Status.descInvalid d := by
  refine collOpen_refuses ht hstz hread (by decide) ?_
  simp only [State.collOpen, State.withCommand_host_jobs, hx, State.withCommand_collRefusal, hd]

theorem collOpen_busy (hd : s.collRefusal j x n b = none)
    (hbusy : (s.ctxUse.get? n).isSome = true ∨ s.groupTaken (parseColl b) = true) :
    Refuses s (.collOpen h j g n r) h Status.opBusy := by
  refine collOpen_refuses ht hstz hread (by decide) ?_
  have hwhen : ((s.ctxUse.get? n).isSome || s.groupTaken (parseColl b)) = true := by
    rcases hbusy with hb | hb <;> simp [hb]
  simp only [State.collOpen, State.withCommand_host_jobs, hx, State.withCommand_collRefusal, hd, State.withCommand_ctxUse,
    State.withCommand_groupTaken, hwhen, Bool.true_or, if_true]

variable (hd : s.collRefusal j x n b = none) (huse : s.ctxUse.get? n = none) (htaken : s.groupTaken (parseColl b) = false)
  (hmine : (parseColl b).root = s.me → (parseColl b).hasGroup = true →
    s.groupUsed (parseColl b).group = false ∧ s.topo.groups.length < 65536)

include hd huse htaken hmine

theorem collOpen_stale {o : Nat} (ho : s.ctxGen.get? n = some o) (hg : serialNewer 12 g o = false) :
    Refuses s (.collOpen h j g n r) h Status.contextStale := by
  refine collOpen_refuses ht hstz hread (by decide) ?_
  simp only [State.collOpen, State.withCommand_host_jobs, hx, State.withCommand_collRefusal, hd, State.withCommand_ctxUse,
    State.withCommand_groupTaken, huse, htaken, State.withCommand_me, State.withCommand_groupUsed, ownGroup_free hmine,
    State.withCommand_ctxGen, ho, hg]
  rfl

omit ht in
/-- The state in which an accepted COLL.OPEN leaves the operation. -/
theorem collOpen_opens (hnew : ∀ o, s.ctxGen.get? n = some o → serialNewer 12 g o = true) :
    (s.withCommand (.collOpen h j g n r) h).runCmd (.collOpen h j g n r) h =
      let u := ((s.withCommand (.collOpen h j g n r) h).useCtx n Use.coll).setColl fun k =>
        { k with ops := k.ops.set n { job := j, desc := parseColl b, next := g, image := b } }
      if ((parseColl b).root == s.me && (parseColl b).hasGroup) = true then
        (u.installGroup j (parseColl b).group ((parseColl b).receivers x)).groupWait (parseColl b).group
          (packValues [(4, n + 1048576 * g)]) n
      else finished u (packValues [(4, n + 1048576 * g)]) := by
  show State.collOpenCmd _ _ h j g n r = _
  simp only [State.collOpenCmd, State.withCommand_stozilJob, hstz, hread, State.collOpen, State.withCommand_host_jobs, hx,
    State.withCommand_collRefusal, hd, State.withCommand_ctxUse, State.withCommand_groupTaken, huse, htaken,
    State.withCommand_me, State.withCommand_groupUsed, ownGroup_free hmine, State.withCommand_ctxGen, State.withCommand_topo]
  rw [if_neg (by decide), if_neg (by decide), if_neg ?stale, if_neg ?room]
  case stale =>
    cases ho : s.ctxGen.get? n with
    | none => simp
    | some o => simp [hnew o ho]
  case room =>
    simp only [Bool.and_eq_true, beq_iff_eq, decide_eq_true_eq]
    rintro ⟨⟨hroot, hgroup⟩, hfull⟩
    exact absurd (hmine hroot hgroup).2 (by omega)
  cases hown : ((parseColl b).root == s.me && (parseColl b).hasGroup) with
  | true => simp only [if_true]
  | false => rfl

end

section

variable {s : State} {h : CmdHdr} {j g n m : Nat} {r : Ref} {b : List Byte} {x : JobSt}
  (ht : s.takesNow (.collBarrier h j g n m r) h = true) (hx : s.host.jobs.get? j = some x)
  (hread : (s.withCommand (.collBarrier h j g n m r) h).readImage (.collBarrier h j g n m r) h r (2 * m) (fun _ => 2 * m) = .inr b)
  (hrange : x.inRange n = true) (hnodup : ((List.range m).map fun i => getLE b (2 * i) 2).Nodup)
  (haddr : ∀ i, i < m → (x.addr (getLE b (2 * i) 2)).isSome = true)

include ht hrange hnodup haddr in
/-- The ranks of a barrier that is accepted. -/
theorem barrierRanks_ok : ¬ (m = 0 ∨ 512 < m ∨ ¬ ((List.range m).map fun i => getLE b (2 * i) 2).Nodup ∨
    (((List.range m).map fun i => getLE b (2 * i) 2).any fun r => (x.addr r).isNone) = true ∨ (!x.inRange n) = true) := by
  have hargs := State.argsOk_of_takesNow ht
  simp only [State.argsOk, Bool.and_eq_true, decide_eq_true_eq] at hargs
  have hsome : ¬ (((List.range m).map fun i => getLE b (2 * i) 2).any fun r => (x.addr r).isNone) = true := by
    intro hany
    obtain ⟨y, hy, hnone⟩ := List.any_eq_true.1 hany
    obtain ⟨i, hi, rfl⟩ := List.mem_map.1 hy
    have := haddr i (List.mem_range.1 hi)
    simp_all
  rintro (hm | hm | hm | hm | hm)
  · omega
  · omega
  · exact hm hnodup
  · exact hsome hm
  · simp [hrange] at hm

include ht hx hread hrange hnodup haddr

/-- COLL.BARRIER of a context in use is refused. -/
theorem collBarrier_busy (huse : (s.ctxUse.get? n).isSome = true) : Refuses s (.collBarrier h j g n m r) h Status.opBusy := by
  refine refuses_of_run rfl ht (?_ : State.collBarrierCmd _ _ h j g n m r = _)
  simp only [State.collBarrierCmd, hread, State.barrierOpen, State.withCommand_host_jobs, hx,
    if_neg (barrierRanks_ok ht hrange hnodup haddr), State.withCommand_ctxUse, huse, Bool.true_or, if_true]
  rfl

/-- COLL.BARRIER opens the barrier of its ranks, and waits for its group. -/
theorem collBarrier_opens (huse : s.ctxUse.get? n = none) (hused : s.groupUsed g = false) (hroom : s.topo.groups.length < 65536) :
    ∃ u, (Completes s (.collBarrier h j g n m r) h u Status.ok ∨
        Waits s (.collBarrier h j g n m r) u (.group s.me g) [] (some n)) ∧
      u.coll.ops = s.coll.ops ∧ u.coll.barriers = (s.coll.barriers.set n
        { job := j, group := g, ranks := (List.range m).map (fun i => getLE b (2 * i) 2) }) ∧
      u.ctxUse.get? n = some Use.barrier ∧ (∃ e, u.group? s.me g = some e) ∧ u.memory = s.memory := by
  let w := s.withCommand (.collBarrier h j g n m r) h
  let v := (w.useCtx n Use.barrier).setColl fun k => { k with
    barriers := k.barriers.set n { job := j, group := g, ranks := (List.range m).map fun i => getLE b (2 * i) 2 } }
  let u := v.installGroup j g (((List.range m).map fun i => getLE b (2 * i) 2).filterMap x.addr)
  have hrun : w.runCmd (.collBarrier h j g n m r) h = u.groupWait g [] n := by
    show State.collBarrierCmd _ _ h j g n m r = _
    simp only [w, State.collBarrierCmd, hread, State.barrierOpen, State.withCommand_host_jobs, hx,
      if_neg (barrierRanks_ok ht hrange hnodup haddr), State.withCommand_ctxUse, huse, State.withCommand_groupUsed, hused,
      State.withCommand_topo]
    rw [if_neg (by decide), if_neg (by omega)]
    rfl
  have hkeep : v.keepsBut _ u := State.installGroup_keepsBut v j g _
  obtain ⟨hentry, hme⟩ := v.installGroup_group j g (((List.range m).map fun i => getLE b (2 * i) 2).filterMap x.addr)
  have hmev : v.me = s.me := State.withCommand_me s (.collBarrier h j g n m r) h
  have hcoll := State.withCommand_coll s (.collBarrier h j g n m r) h
  refine ⟨u, completes_or_waits_of_groupWait rfl ht (hme.trans hmev) hrun, ?_, ?_, ?_, ?_, ?_⟩
  · rw [State.keepsBut_coll hkeep, ← hcoll]
    rfl
  · rw [State.keepsBut_coll hkeep, ← hcoll]
    rfl
  · rw [(State.keepsBut_ctxs hkeep).1]
    exact NMap.get?_set _ _ _
  · rwa [← hmev]
  · rw [State.keepsBut_memory hkeep, ← State.withCommand_memory s (.collBarrier h j g n m r) h]
    rfl

end

/-- Settles O55: an operation that nothing refuses is open at its first generation; closing it frees its context; an
aborted one runs no longer; a barrier that is opened has its group entered. -/
theorem collectiveCommands : Obligations.CollectiveCommands := by
  unfold Obligations.CollectiveCommands
  intro s h
  refine ⟨fun j g n r b x ht hstz hx hread => ⟨fun d hd => collOpen_refused ht hstz hx hread hd,
      fun hd huse => collOpen_busy ht hstz hx hread hd (.inl huse),
      fun hd htaken => collOpen_busy ht hstz hx hread hd (.inr htaken),
      fun hd huse htaken hmine => ⟨fun hnew => ?_, fun o ho hg => collOpen_stale ht hstz hx hread hd huse htaken hmine ho hg⟩⟩,
    fun n c ht hc => ⟨fun hbusy => ?_, fun hinst hclosing => ?_⟩, fun o c i ht hc hroot hi hgen => ?_, fun o ht hc => ?_,
    fun n r ht => reports_of_run rfl ht rfl,
    fun j g n m r b x ht hx hread => ⟨fun huse hrange hnodup haddr => collBarrier_busy ht hx hread hrange hnodup haddr huse,
      fun huse hused hroom hrange hnodup haddr => collBarrier_opens ht hx hread hrange hnodup haddr huse hused hroom⟩⟩
  · have hrun := collOpen_opens hstz hx hread hd huse htaken hmine hnew
    have hcoll : ((s.withCommand (.collOpen h j g n r) h).coll.ops.set n { job := j, desc := parseColl b, next := g, image := b }) =
        s.coll.ops.set n { job := j, desc := parseColl b, next := g, image := b } := by rw [State.withCommand_coll]
    refine ⟨fun hnot => ?_, fun hroot hgroup => ?_⟩
    · have hown : ((parseColl b).root == s.me && (parseColl b).hasGroup) = false := by
        rcases hnot with hnot | hnot <;> simp [hnot]
      simp only [hown] at hrun
      refine ends_of_run rfl ht hrun ?_ ⟨NMap.get?_set _ _ _, ?_, hcoll⟩
      · exact State.keepsBut_then (State.setColl_keepsBut _ _)
          (State.keepsBut_mono (State.useCtx_keepsBut _ _ _) (by decide)) rfl
      · rw [← State.withCommand_coll s (.collOpen h j g n r) h]
        rfl
    · have hown : ((parseColl b).root == s.me && (parseColl b).hasGroup) = true := by simp [hroot, hgroup]
      rw [if_pos hown] at hrun
      have hkeep := State.installGroup_keepsBut (((s.withCommand (.collOpen h j g n r) h).useCtx n Use.coll).setColl fun k =>
        { k with ops := k.ops.set n { job := j, desc := parseColl b, next := g, image := b } }) j (parseColl b).group
        ((parseColl b).receivers x)
      obtain ⟨hentry, hme⟩ := (((s.withCommand (.collOpen h j g n r) h).useCtx n Use.coll).setColl fun k =>
        { k with ops := k.ops.set n { job := j, desc := parseColl b, next := g, image := b } }).installGroup_group j
        (parseColl b).group ((parseColl b).receivers x)
      have hmes := State.withCommand_me s (.collOpen h j g n r) h
      refine ⟨_, completes_or_waits_of_groupWait rfl ht (hme.trans hmes) hrun, ?_, ?_, ?_, ?_⟩
      · rw [State.keepsBut_coll hkeep]
        exact hcoll
      · rw [(State.keepsBut_ctxs hkeep).1]
        exact NMap.get?_set _ _ _
      · rw [← hmes]
        exact hentry
      · rw [State.keepsBut_memory hkeep]
        exact State.withCommand_memory s (.collOpen h j g n r) h
  · refine refuses_of_run rfl ht (?_ : Machine.ended (State.collClose _ n) = _)
    have hwhen : (c.inst.isSome || c.closing.any fun x => x.unacked != 0) = true := by
      rcases hbusy with hbusy | ⟨y, hy, hne⟩
      · simp [hbusy]
      · rw [List.any_eq_true.2 ⟨y, hy, by simp [hne]⟩, Bool.or_true]
    simp only [State.collClose, State.withCommand_coll, hc, hwhen, if_true]
    rfl
  · have hwhen : (c.inst.isSome || c.closing.any fun x => x.unacked != 0) = false := by
      rw [hinst, List.any_eq_false.2 fun y hy => by simp [hclosing y hy]]
      rfl
    obtain ⟨hops, huse, hgen⟩ := State.removeColl_removed (s := s.withCommand (.collClose h n) h) (n := n) (c := c)
      (by rw [State.withCommand_coll, hc])
    refine ⟨_, completes_of_run rfl ht (?_ : Machine.ended (State.collClose _ n) = _), hops, huse,
      hgen.trans (State.withCommand_ctxGen _ _ _), ?_⟩
    · simp only [State.collClose, State.withCommand_coll, hc, hwhen]
      rfl
    · rw [State.keepsBut_memory (State.removeColl_keepsBut _ n), State.withCommand_memory]
  · obtain ⟨c', hc', hinst, hlast, hnext⟩ := State.endInstance_over (s := s.withCommand (.collAbort h o) h)
      (status := Status.aborted) (by rw [State.withCommand_coll, hc]) hi
    refine ⟨_, c', completes_of_run rfl ht (?_ : Machine.ended (State.abortInstance _ o Status.aborted) = _), hc', hinst, hlast, hnext, ?_⟩
    · have hr : ¬ c.desc.root ≠ s.me := fun hne => hne hroot
      simp only [State.abortInstance, State.withCommand_coll, hc, State.withCommand_me, if_neg hr, hi, if_pos hgen]
      rfl
    · rw [State.keepsBut_memory (State.endInstance_keepsBut _ _ _), State.withCommand_memory]
  · refine refuses_of_run rfl ht (?_ : Machine.ended (State.abortInstance _ o Status.aborted) = _)
    simp only [State.abortInstance, State.withCommand_coll, hc]
    rfl

end Sys2Proof.Machine
end

section

-- One declaration after another: elaborated side by side, they take more threads than the check allows.
set_option Elab.async false

/-! Parameter blocks by command: declaration, loading and binding (R249–R252, R263, R267). -/

namespace Sys2Proof.Machine

open Sys2Proof (Instr CmdHdr Ref)

/-! ## Declaration -/

/-- A declaration that is refused changes nothing. -/
theorem State.declare_refused {s t : State} {b : List Byte} {st : Nat} (h : s.declare b = (.inl st, t)) : t = s := by
  have hsame : ∀ {x : Nat}, ((.inl x, s) : (Nat ⊕ Nat) × State) = (.inl st, t) → t = s := fun heq => (congrArg Prod.snd heq).symm
  have hnot : ∀ {x : Nat} {u : State}, ((.inr x, u) : (Nat ⊕ Nat) × State) ≠ (.inl st, t) :=
    fun heq => Sum.inr_ne_inl (congrArg Prod.fst heq)
  unfold State.declare at h
  extract_lets x0 subs owner x1 opt used kept at h
  split at h
  · exact hsame h
  · split at h
    · exact hsame h
    · split at h
      · exact hsame h
      · split at h
        · exact hsame h
        · split at h
          · exact hsame h
          · split at h
            · exact hsame h
            · split at h
              · exact hsame h
              · split at h
                · exact hsame h
                · split at h
                  · exact hsame h
                  · exact absurd h hnot

/-- The group that a block declared needs. -/
def State.blockGroup (s : State) (x : BlockSt) (subs : List Nat) (j : JobSt) : State :=
  if x.kind = 3 then s else if subs.isEmpty then s.joinGroup x.group else s.installGroup x.job x.group (subs.filterMap j.addr)

theorem State.blockGroup_keepsBut (s : State) (x : BlockSt) (subs : List Nat) (j : JobSt) :
    s.keepsBut [.fresh, .regs, .flt, .mgt, .topo, .flow, .sw, .pool, .stz, .out] (s.blockGroup x subs j) := by
  unfold State.blockGroup
  split
  · exact State.keepsBut_refl _ s
  · split
    · exact State.keepsBut_mono (s.joinGroup_keepsBut _) (by decide)
    · exact s.installGroup_keepsBut _ _ _

/-- Memory of a new block: what is kept for its loading is undefined, the rest is cleared. -/
def State.blockMemory (s : State) (x : BlockSt) (kept : Nat → Bool) : State :=
  (x.regions.filter fun r => kept r.1).foldl (fun s r => s.undefine (x.regionAddr r.1) (roundUp r.2 grain))
    ((x.regions.filter fun r => !kept r.1).foldl (fun s r => s.clearMem (x.regionAddr r.1) (roundUp r.2 grain)) s)

theorem State.blockMemory_keepsBut (s : State) (x : BlockSt) (kept : Nat → Bool) :
    s.keepsBut [.fresh, .mem] (s.blockMemory x kept) :=
  State.keepsBut_foldl (fun u r => u.undefine_keepsBut _ _)
    (State.keepsBut_mono (State.keepsBut_foldl (fun u r => u.clearMem_keepsBut _ _) (State.keepsBut_refl _ s)) (by decide))

/-- A block that is declared: the lowest free context is its own, and it stands there in room that was free. -/
theorem State.declare_made {s t : State} {b : List Byte} {ctx : Nat} (h : s.declare b = (.inr ctx, t)) :
    s.freeCtx = some ctx ∧ t.ctxUse.get? ctx = some Use.block ∧ ∃ x, t.parm.blocks.get? ctx = some x ∧
      x.id = (parseBlock b).id ∧ x.job = (parseBlock b).job ∧ x.state = 1 ∧ x.version = 0 ∧ x.published = false ∧
      s.findRoom x.size = some x.base := by
  have hno : ∀ {x : Nat}, ((.inl x, s) : (Nat ⊕ Nat) × State) ≠ (.inr ctx, t) :=
    fun heq => Sum.inl_ne_inr (congrArg Prod.fst heq)
  unfold State.declare at h
  extract_lets x0 subs owner x1 opt used kept at h
  split at h
  · exact absurd h hno
  next j _ =>
    split at h
    · exact absurd h hno
    · split at h
      · exact absurd h hno
      · split at h
        · exact absurd h hno
        · split at h
          · exact absurd h hno
          · split at h
            · exact absurd h hno
            next c hc =>
              split at h
              · exact absurd h hno
              · split at h
                · exact absurd h hno
                · split at h
                  · exact absurd h hno
                  next base hbase =>
                    extract_lets x2 s1 s2 s3 s4 at h
                    obtain ⟨hctx, rfl⟩ := Prod.mk.inj h
                    obtain rfl : c = ctx := Sum.inr.inj hctx
                    have hfields : x2.id = (parseBlock b).id ∧ x2.job = (parseBlock b).job ∧ x2.state = 1 ∧ x2.version = 0 ∧
                        x2.published = false := by
                      dsimp only [x2, x1]
                      split <;> exact ⟨rfl, rfl, rfl, rfl, rfl⟩
                    have hkeep : s1.keepsBut [.fresh, .regs, .flt, .mgt, .topo, .flow, .sw, .pool, .stz, .mem, .out]
                        (s4.blockGroup x2 subs j) :=
                      State.keepsBut_then (s4.blockGroup_keepsBut x2 subs j)
                        (State.keepsBut_then (s2.blockMemory_keepsBut x2 kept)
                          (State.keepsBut_mono s1.assignSubstitutes_keepsBut (by decide)) rfl) rfl
                    refine ⟨hc, ?_, x2, ?_, hfields.1, hfields.2.1, hfields.2.2.1, hfields.2.2.2.1, hfields.2.2.2.2, hbase⟩
                    · exact (congrArg (fun m => NMap.get? m c) (State.keepsBut_ctxs hkeep).1).trans (NMap.get?_set _ _ _)
                    · exact (congrArg (fun p => NMap.get? p.blocks c) (State.keepsBut_parm hkeep)).trans (NMap.get?_set _ _ _)

/-! ## Blocks and regions -/

theorem State.writeMem_setHost (s : State) (f : HostSt → HostSt) (a : Nat) (bs : List Byte) :
    (s.setHost f).writeMem a bs = (s.writeMem a bs).setHost f := by
  have hsafe : (s.setHost f).isSafe = s.isSafe := rfl
  rw [State.writeMem, State.writeMem, hsafe]
  split <;> rfl

theorem State.fillRegion_setHost (s : State) (f : HostSt → HostSt) (x : BlockSt) (k : Nat) (bs : List Byte) :
    (s.setHost f).fillRegion x k bs = (s.fillRegion x k bs).setHost f := by
  simp only [State.fillRegion]
  induction List.range x.units generalizing s with
  | nil => rfl
  | cons u l ih => rw [List.foldl_cons, State.writeMem_setHost, ih]; rfl

theorem State.withCommand_fillRegion (s : State) (c : Instr) (h : CmdHdr) (x : BlockSt) (k : Nat) (bs : List Byte) :
    ((s.withCommand c h).fillRegion x k bs).memory = (s.fillRegion x k bs).memory := by
  rw [State.withCommand_eq, State.fillRegion_setHost]
  exact State.setHost_memory _ _

theorem State.withCommand_blockOf (s : State) (c : Instr) (h : CmdHdr) (j b : Nat) :
    (s.withCommand c h).blockOf j b = s.blockOf j b := by
  rw [State.withCommand_eq]; rfl

theorem State.withCommand_stateOf (s : State) (c : Instr) (h : CmdHdr) (n : Nat) (x : BlockSt) :
    (s.withCommand c h).stateOf n x = s.stateOf n x := by
  rw [State.withCommand_eq]; rfl

theorem State.withCommand_opId (s : State) (c : Instr) (h : CmdHdr) (n : Nat) : (s.withCommand c h).opId n = s.opId n := by
  rw [State.withCommand_eq]; rfl

theorem State.withCommand_optimizerOk (s : State) (c : Instr) (h : CmdHdr) (b : List Byte) :
    (s.withCommand c h).optimizerOk b = s.optimizerOk b := by
  rw [State.withCommand_eq]; rfl

theorem State.withCommand_findRoom (s : State) (c : Instr) (h : CmdHdr) (n : Nat) :
    (s.withCommand c h).findRoom n = s.findRoom n := by
  rw [State.withCommand_eq]; rfl

theorem State.withCommand_imageJob (s : State) (c : Instr) (h g : CmdHdr) (j : Nat) :
    (s.withCommand c h).imageJob g j = s.imageJob g j := by
  rw [State.withCommand_eq]; rfl

theorem State.withCommand_regionBytes (s : State) (c : Instr) (h : CmdHdr) (x : BlockSt) (k : Nat) :
    (s.withCommand c h).regionBytes x k = s.regionBytes x k := by
  have hread : ∀ a n, (s.withCommand c h).readMem a n = s.readMem a n := fun a n => by
    rw [State.readMem, State.readMem, funext (State.withCommand_byte s c h)]
  simp only [State.regionBytes, State.unitBytes, hread]

/-- A command on a block that the job has, in a state that the command's test allows. -/
theorem State.onBlock_allowed {s : State} {j b ctx : Nat} {x : BlockSt} (hx : s.blockOf j b = some (ctx, x))
    {ok : Nat → Nat → Bool} (hok : ok (s.stateOf ctx x).1 (s.stateOf ctx x).2 = true) (f : Nat → BlockSt → CmdEnd × State) :
    s.onBlock j b ok f = f ctx x := by
  simp only [State.onBlock, hx, hok, if_true]

theorem State.onBlock_denied {s : State} {j b ctx : Nat} {x : BlockSt} (hx : s.blockOf j b = some (ctx, x))
    {ok : Nat → Nat → Bool} (hok : ok (s.stateOf ctx x).1 (s.stateOf ctx x).2 = false) (f : Nat → BlockSt → CmdEnd × State) :
    s.onBlock j b ok f = denied s Status.blockState := by
  simp only [State.onBlock, hx, hok]
  rfl

/-- The block of a command stands in its context. -/
theorem State.get?_of_blockOf {s : State} {j b ctx : Nat} {x : BlockSt} (hx : s.blockOf j b = some (ctx, x)) :
    s.parm.blocks.get? ctx = some x := by
  rw [State.blockOf, Option.bind_eq_some_iff] at hx
  obtain ⟨c, -, hc⟩ := hx
  obtain ⟨y, hy, heq⟩ := Option.map_eq_some_iff.1 hc
  obtain ⟨rfl, rfl⟩ := Prod.mk.inj heq
  exact hy

theorem State.setBlock_get? {s : State} {ctx : Nat} {x : BlockSt} (hx : s.parm.blocks.get? ctx = some x)
    (f : BlockSt → BlockSt) : (s.setBlock ctx f).parm.blocks.get? ctx = some (f x) := by
  simp only [State.setBlock, hx]
  exact NMap.get?_set _ _ _

theorem State.setBlock_get?_ne (s : State) {ctx n : Nat} (h : n ≠ ctx) (f : BlockSt → BlockSt) :
    (s.setBlock ctx f).parm.blocks.get? n = s.parm.blocks.get? n := by
  unfold State.setBlock
  split
  · exact NMap.get?_set_ne _ _ h
  · rfl

/-! ## The commands -/

section

variable {s : State} {h : CmdHdr} {r : Ref} {b : List Byte} (ht : s.takesNow (.paramDeclare h r) h = true)
  (hread : (s.withCommand (.paramDeclare h r) h).readImage (.paramDeclare h r) h r 64 declLength = .inr b)
  (hjob : s.imageJob h (parseBlock b).job = none) (hstz : s.stozilJob (parseBlock b).job = false)

include ht hread hjob hstz

/-- A block that is declared: the command is over, or waits for the block's group. -/
theorem paramDeclare_made {ctx : Nat} {t : State} (hmade : (s.withCommand (.paramDeclare h r) h).declare b = (.inr ctx, t)) :
    Completes s (.paramDeclare h r) h t Status.ok (packValues [(8, ((t.parm.blocks.get? ctx).map BlockSt.base).getD 0)]) ∨
    ∃ k, Waits s (.paramDeclare h r) t k (packValues [(8, ((t.parm.blocks.get? ctx).map BlockSt.base).getD 0)]) (some ctx) := by
  have hrun : (s.withCommand (.paramDeclare h r) h).runCmd (.paramDeclare h r) h =
      if (parseBlock b).kind = 3 then finished t (packValues [(8, ((t.parm.blocks.get? ctx).map BlockSt.base).getD 0)])
      else t.groupWait (parseBlock b).group (packValues [(8, ((t.parm.blocks.get? ctx).map BlockSt.base).getD 0)]) ctx := by
    show State.paramDeclare _ _ h r = _
    simp only [State.paramDeclare, hread, State.withCommand_imageJob, hjob, State.withCommand_stozilJob, hstz, hmade]
    rfl
  split at hrun
  · exact .inl (completes_of_run rfl ht hrun)
  · rw [State.groupWait] at hrun
    split at hrun
    · split at hrun
      · exact .inl (completes_of_run rfl ht hrun)
      · exact .inr ⟨_, waits_of_run rfl ht hrun⟩
    · exact .inl (completes_of_run rfl ht hrun)

/-- A declaration that is refused. -/
theorem paramDeclare_refused {st : Nat} {t : State} (hno : (s.withCommand (.paramDeclare h r) h).declare b = (.inl st, t)) :
    Completes s (.paramDeclare h r) h (s.withCommand (.paramDeclare h r) h) st [] (if st = Status.programInvalid then 6 else 0) := by
  refine completes_of_run rfl ht (?_ : State.paramDeclare _ _ h r = _)
  obtain rfl := State.declare_refused hno
  simp only [State.paramDeclare, hread, State.withCommand_imageJob, hjob, State.withCommand_stozilJob, hstz, hno]
  rfl

end

/-- Settles O56: a declared block takes the lowest free context and room that was free; a region that is loaded has its
bytes; an optimizer and a program are stored where no rule refuses them. -/
theorem blocksAreDeclared : Obligations.BlocksAreDeclared := by
  unfold Obligations.BlocksAreDeclared
  intro s h
  refine ⟨fun r b ctx t ht hread hjob hstz hmade => ?_, fun r b st t ht hread hjob hstz hno =>
      paramDeclare_refused ht hread hjob hstz hno,
    fun b j k z r ctx x ht hx => ⟨fun hst => ?_, fun hst hreg => ?_, fun hst hreg hz => ?_, fun data hst hreg hz hlen hdata => ?_⟩,
    fun b j k r ctx x ht hx hreg hst => ?_, fun r b ht hread hjob hknown => ⟨fun hok => ?_, fun hok => ?_⟩,
    fun b j k o ctx x p ht hx hp ho => ⟨fun hst => ?_, fun hst hbad => ?_, fun hst hj hfit => ?_⟩⟩
  · obtain ⟨hctx, huse, x, hx, hid, hj, hst, hv, hpub, hroom⟩ := State.declare_made hmade
    refine ⟨t, paramDeclare_made ht hread hjob hstz hmade, ?_, huse, x, hx, hid, hj, hst, hv, hpub, ?_⟩
    · rwa [State.withCommand_freeCtx] at hctx
    · rwa [State.withCommand_findRoom] at hroom
  · refine refuses_of_run rfl ht (?_ : State.onBlock _ j b _ _ = _)
    rw [State.onBlock_denied (ctx := ctx) (x := x) (by rwa [State.withCommand_blockOf]) (by rwa [State.withCommand_stateOf])]
    rfl
  · refine refuses_of_run rfl ht (?_ : State.onBlock _ j b _ _ = _)
    rw [State.onBlock_allowed (ctx := ctx) (x := x) (by rwa [State.withCommand_blockOf]) (by rwa [State.withCommand_stateOf]), hreg]
    rfl
  · refine ends_of_run rfl ht (u := (s.withCommand (.paramInit h b j k z r) h).fillRegion x k (zeros (x.codeBytes k)))
      (?_ : State.onBlock _ j b _ _ = _) (State.fillRegion_keepsBut _ _ _ _) (State.withCommand_fillRegion _ _ _ _ _ _)
    rw [State.onBlock_allowed (ctx := ctx) (x := x) (by rwa [State.withCommand_blockOf]) (by rwa [State.withCommand_stateOf]), hreg]
    simp only [if_pos hz]
    rfl
  · refine ends_of_run rfl ht (u := (s.withCommand (.paramInit h b j k z r) h).fillRegion x k data)
      (?_ : State.onBlock _ j b _ _ = _) (State.fillRegion_keepsBut _ _ _ _) (State.withCommand_fillRegion _ _ _ _ _ _)
    rw [State.onBlock_allowed (ctx := ctx) (x := x) (by rwa [State.withCommand_blockOf]) (by rwa [State.withCommand_stateOf]), hreg]
    simp only [if_neg hz, if_neg (Nat.not_lt.2 hlen), hdata]
    rfl
  · rw [← State.withCommand_regionBytes s (.paramRead h b j k r) h]
    refine reports_of_run rfl ht ?_
    show State.paramRead _ b j k r = _
    rw [State.paramRead, State.onBlock_allowed (ctx := ctx) (x := x) (by rwa [State.withCommand_blockOf])]
    · rw [if_pos hreg]
    · rw [State.withCommand_stateOf]
      rcases hst with hst | hst | hst <;> rw [hst] <;> rfl
  · refine refuses_of_run rfl ht (?_ : State.paramOptimizer _ _ h r = _)
    have hnone : (s.host.jobs.get? (getLE b 4 2 % 4096)).isNone = false := by simpa using hknown
    simp only [State.paramOptimizer, hread, State.withCommand_imageJob, hjob, State.loadOptimizer, State.withCommand_host_jobs,
      hnone, State.withCommand_optimizerOk, hok]
    rfl
  · have hnone : (s.host.jobs.get? (getLE b 4 2 % 4096)).isNone = false := by simpa using hknown
    have hload : (s.withCommand (.paramOptimizer h r) h).loadOptimizer b = (Status.ok,
        (s.withCommand (.paramOptimizer h r) h).setParm fun p => { p with
          opts := p.opts.set (getLE b 4 2 % 4096 * 2 ^ 32 + getLE b 0 4)
            { params := (List.range 56).map fun i => BitVec.ofNat 32 (getLE b (64 + 4 * i) 4), stages := parseStages b } }) := by
      simp only [State.loadOptimizer, State.withCommand_host_jobs, hnone, State.withCommand_optimizerOk, hok]
      rfl
    have hrun : (s.withCommand (.paramOptimizer h r) h).runCmd (.paramOptimizer h r) h =
        programEnd 1 ((s.withCommand (.paramOptimizer h r) h).loadOptimizer b) := by
      show State.paramOptimizer _ _ h r = _
      simp only [State.paramOptimizer, hread, State.withCommand_imageJob, hjob]
    rw [hload] at hrun
    refine ends_of_run rfl ht hrun (State.setParm_keepsBut _ _) ⟨_, NMap.get?_set _ _ _, rfl, ?_⟩
    rw [← State.withCommand_parm s (.paramOptimizer h r) h]
    rfl
  · refine refuses_of_run rfl ht (?_ : programEnd 10 (State.bindProgram _ j b k o) = _)
    simp only [State.bindProgram, State.withCommand_blockOf, hx, State.withCommand_stateOf, hst]
    rfl
  · refine refuses_of_run rfl ht (?_ : programEnd 10 (State.bindProgram _ j b k o) = _)
    simp only [State.bindProgram, State.withCommand_blockOf, hx, State.withCommand_stateOf, if_neg hst, State.withCommand_prog?, hp,
      State.withCommand_opId]
    rw [if_neg (not_not_intro ho), if_pos hbad]
    rfl
  · have hbind : (s.withCommand (.paramProgram h b j k o) h).bindProgram j b k o =
        (Status.ok, (s.withCommand (.paramProgram h b j k o) h).setBlock ctx fun x =>
          { x with progs := x.progs.set k (o % 1048576) }) := by
      simp only [State.bindProgram, State.withCommand_blockOf, hx, State.withCommand_stateOf, if_neg hst,
        State.withCommand_prog?, hp, State.withCommand_opId]
      rw [if_neg (not_not_intro ho), if_neg (by simp [hj, hfit])]
    have hget := State.get?_of_blockOf hx
    rw [← State.withCommand_parm s (.paramProgram h b j k o) h] at hget
    refine ends_of_run rfl ht (congrArg (programEnd 10) hbind) (State.setBlock_keepsBut _ _ _)
      ⟨State.setBlock_get? hget _, fun n hn => ?_⟩
    rw [State.setBlock_get?_ne _ hn, State.withCommand_parm]

end Sys2Proof.Machine
end

section

-- One declaration after another: elaborated side by side, they take more threads than the check allows.
set_option Elab.async false

/-! Parameter blocks stepped by command: published, closed, updated, discarded and retired (R253, R256, R266–R269). -/

namespace Sys2Proof.Machine

open Sys2Proof (Instr CmdHdr Ref)

/-! ## The state of a block -/

/-- A block that is no tie member leads its own step. -/
theorem State.leader_self {s : State} {ctx : Nat} {x : BlockSt} (hx : s.parm.blocks.get? ctx = some x) (hk : x.kind ≠ 3) :
    s.leader ctx = ctx := by
  simp only [State.leader, hx, if_neg hk]

theorem State.stateOf_self {s : State} {ctx : Nat} {x : BlockSt} (hx : s.parm.blocks.get? ctx = some x) (hk : x.kind ≠ 3) :
    s.stateOf ctx x = (x.state, x.started) := by
  rw [State.stateOf, State.leader_self hx hk, hx]
  rfl

theorem State.blockState_get? {s : State} {ctx : Nat} {x : BlockSt} (hx : s.parm.blocks.get? ctx = some x) (st : Nat) :
    (s.blockState ctx st).parm.blocks.get? ctx = some { x with state := st, stamp := s.stamp } :=
  State.setBlock_get? (s := s.stamped) hx fun b => { b with state := st, stamp := s.stamp }

/-- A discarded step: the block accumulates its next one. -/
theorem State.discardStep_get? {s : State} {ctx : Nat} {x : BlockSt} (hx : s.parm.blocks.get? ctx = some x) (st : Nat) :
    ∃ t, (s.discardStep ctx st).parm.blocks.get? ctx = some { x.reopen st with state := 2, stamp := t } := by
  simp only [State.discardStep, hx]
  refine ⟨_, State.blockState_get? (State.setBlock_get? ?_ _) 2⟩
  rw [State.keepsBut_parm (s.clearAcc_keepsBut x), hx]

/-- A block that is closed stays so, waits for its holders, or has its step discarded (R256). -/
theorem State.reviewBlock_closed {s : State} {ctx : Nat} {x : BlockSt} (hx : s.parm.blocks.get? ctx = some x)
    (hst : x.state = 3) : ∃ x', (s.reviewBlock ctx).parm.blocks.get? ctx = some x' ∧
      (x'.state = 3 ∨ x'.state = 4 ∨ x'.state = 2 ∧ x'.step = x.step + 1 ∧ x'.lastStatus = Status.stepDiscarded) := by
  simp only [State.reviewBlock, hx]
  split
  · exact ⟨x, hx, .inl hst⟩
  · split
    · have hsame : ((s.bump .paramStepDiscarded).blockEvent x 2 Status.stepDiscarded).parm.blocks.get? ctx = some x := by
        rw [State.keepsBut_parm (State.blockEvent_keepsBut _ x 2 _), State.keepsBut_parm (State.bump_keepsBut s _ _ _), hx]
      obtain ⟨t, ht⟩ := State.discardStep_get? hsame Status.stepDiscarded
      exact ⟨_, ht, .inr (.inr ⟨rfl, rfl, rfl⟩)⟩
    · split
      · refine ⟨_, State.blockState_get? (State.setBlock_get? (x := x) ?_ _) 4, .inr (.inl rfl)⟩
        exact hx
      · exact ⟨x, hx, .inl hst⟩

/-- A block that is closed now: its step goes on, waits or is discarded. -/
theorem State.close_reviewed {s : State} {ctx : Nat} {x : BlockSt} (hx : s.parm.blocks.get? ctx = some x) :
    ∃ x', ((s.blockState ctx 3).reviewBlock ctx).parm.blocks.get? ctx = some x' ∧
      (x'.state = 3 ∨ x'.state = 4 ∨ x'.state = 2 ∧ x'.step = x.step + 1 ∧ x'.lastStatus = Status.stepDiscarded) := by
  obtain ⟨x', hx', hst⟩ := State.reviewBlock_closed (State.blockState_get? hx 3) rfl
  exact ⟨x', hx', hst⟩

theorem le_roundUp (n : Nat) {k : Nat} (hk : 0 < k) : n ≤ roundUp n k := by
  have h := Nat.div_add_mod (n + k - 1) k
  have hlt := Nat.mod_lt (n + k - 1) hk
  rw [roundUp, ceilDiv, Nat.mul_comm]
  omega

/-- The accumulator of a block that is cleared reads zero. -/
theorem State.byte_clearAcc (s : State) (x : BlockSt) {i : Nat} (hi : i < 8 * x.ep) :
    (s.clearAcc x).byte (x.regionAddr 3 + i) = 0 := by
  rw [State.clearAcc, List.foldl_append, List.foldl_cons, List.foldl_nil]
  have hround := le_roundUp (8 * x.ep) (k := grain) (by decide)
  exact State.byte_clearMem_in _ (by omega) (by omega)

theorem State.byte_discardStep {s : State} {ctx : Nat} {x : BlockSt} (hx : s.parm.blocks.get? ctx = some x) (st : Nat) {i : Nat}
    (hi : i < 8 * x.ep) : (s.discardStep ctx st).byte (x.regionAddr 3 + i) = 0 := by
  have hbyte : ∀ {u v : State}, v.memory = u.memory → v.byte (x.regionAddr 3 + i) = u.byte (x.regionAddr 3 + i) := fun {u v} h => by
    have hmem : v.mem = u.mem := congrArg Prod.fst h
    have hundef : v.undef = u.undef := congrArg Prod.snd h
    rw [State.byte, State.byte, hmem, hundef]
  simp only [State.discardStep, hx]
  rw [hbyte (State.keepsBut_memory (State.blockState_keepsBut _ _ _)), hbyte (State.keepsBut_memory (State.setBlock_keepsBut _ _ _))]
  exact s.byte_clearAcc x hi

/-- Holds dropped in one version of a block. -/
theorem State.dropHolds_get? {s : State} {ctx : Nat} {x : BlockSt} (hx : s.parm.blocks.get? ctx = some x) (set v : Nat) :
    (s.dropHolds ctx set (some v)).parm.blocks.get? ctx = some { x with holds := x.holds.map fun kv =>
      if kv.1 = v then (kv.1, kv.2 - (kv.2 &&& set)) else kv } := by
  have hcut : (fun kv : Nat × Nat => if ((some v).isNone || some v == some kv.1) = true then (kv.1, kv.2 - (kv.2 &&& set)) else kv) =
      fun kv => if kv.1 = v then (kv.1, kv.2 - (kv.2 &&& set)) else kv := by
    funext kv
    by_cases hv : kv.1 = v
    · simp [hv]
    · simp [hv, Ne.symm hv]
  simp only [State.dropHolds, hx]
  refine (State.setBlock_get? (x := x) ?_ _).trans ?_
  · split
    · exact hx
    · rw [State.keepsBut_parm (State.bump_keepsBut s _ _ _), hx]
  · exact congrArg (fun f => some { x with holds := x.holds.map f }) hcut

/-- What gives back the setts of a block's pieces keeps all but the pools. -/
theorem State.freePieces_keepsBut (s : State) (x : BlockSt) (l : List Piece) :
    s.keepsBut [.fresh, .regs, .flt, .mgt, .pool, .out] (l.foldl (fun s p => match p.sett with
      | some (r, a) => (s.free (s.unitMaster x p.unit) r a).2
      | none => s) s) := by
  refine State.keepsBut_foldl (fun u p => ?_) (State.keepsBut_refl _ s)
  split
  · exact u.free_keepsBut _ _ _
  · exact State.keepsBut_refl _ u

/-- A block that is removed: its context is free, and the other blocks stay. -/
theorem State.removeBlock_removed {s : State} {ctx : Nat} {x : BlockSt} (hx : s.parm.blocks.get? ctx = some x) :
    (s.removeBlock ctx).parm.blocks = s.parm.blocks.erase ctx ∧ (s.removeBlock ctx).ctxUse.get? ctx = none := by
  have hleft : ∀ (u : State) (g : Nat), u.parm.blocks = s.parm.blocks.erase ctx → u.ctxUse.get? ctx = none →
      (if x.kind = 3 then u else u.leaveGroup g).parm.blocks = s.parm.blocks.erase ctx ∧
      (if x.kind = 3 then u else u.leaveGroup g).ctxUse.get? ctx = none := fun u g h1 h2 => by
    split
    · exact ⟨h1, h2⟩
    · have hk := u.leaveGroup_keepsBut g
      exact ⟨(congrArg ParamSt.blocks (State.keepsBut_parm hk)).trans h1,
        (congrArg (fun m => NMap.get? m ctx) (State.keepsBut_ctxs hk).1).trans h2⟩
  simp only [State.removeBlock, hx]
  have hfree : ∀ (u : State) (l : List Piece), (l.foldl (fun s p => match p.sett with
      | some (r, a) => (s.free (s.unitMaster x p.unit) r a).2
      | none => s) u).parm = u.parm := fun u l => State.keepsBut_parm (u.freePieces_keepsBut x l)
  have hcancel : (s.cancelJobs ctx).parm = s.parm := State.keepsBut_parm (s.cancelJobs_keepsBut ctx)
  refine hleft _ _ (congrArg (fun p : ParamSt => p.blocks.erase ctx) ?_) (NMap.get?_erase _ _)
  exact (hfree _ _).trans hcancel

/-- Multipliers set block by block. -/
theorem State.setMultipliers_get? (l : List (Nat × BlockSt)) (s : State) (y : F32) (n : Nat)
    (h : (∃ z, (n, z) ∈ l) ∧ (s.parm.blocks.get? n).isSome = true ∨ (s.parm.blocks.get? n).map BlockSt.multiplier = some y) :
    ((l.foldl (fun s kv => s.setBlock kv.1 fun b => { b with multiplier := y }) s).parm.blocks.get? n).map
      BlockSt.multiplier = some y := by
  induction l generalizing s with
  | nil => exact h.elim (fun h => absurd h.1.choose_spec List.not_mem_nil) id
  | cons kv l ih =>
    refine ih _ ?_
    by_cases hk : n = kv.1
    · right
      obtain ⟨z, hz⟩ : ∃ z, s.parm.blocks.get? n = some z := by
        rcases h with ⟨-, h⟩ | h
        · exact Option.isSome_iff_exists.1 h
        · obtain ⟨z, hz, -⟩ := Option.map_eq_some_iff.1 h
          exact ⟨z, hz⟩
      rw [hk] at hz ⊢
      rw [State.setBlock_get? hz]
      rfl
    · rw [State.setBlock_get?_ne s hk]
      rcases h with ⟨⟨z, hz⟩, hsome⟩ | h
      · rcases List.mem_cons.1 hz with heq | hz
        · exact absurd (congrArg Prod.fst heq) hk
        · exact .inl ⟨⟨z, hz⟩, hsome⟩
      · exact .inr h

theorem State.blockCtx_of_blockOf {s : State} {j b ctx : Nat} {x : BlockSt} (hx : s.blockOf j b = some (ctx, x)) :
    s.blockCtx j b = some ctx := by
  rw [State.blockOf, Option.bind_eq_some_iff] at hx
  obtain ⟨c, hc, hmap⟩ := hx
  obtain ⟨y, -, heq⟩ := Option.map_eq_some_iff.1 hmap
  rw [hc, (Prod.mk.inj heq).1]

/-! ## The commands -/

theorem State.withCommand_writeMem (s : State) (c : Instr) (h : CmdHdr) (a : Nat) (bs : List Byte) :
    ((s.withCommand c h).writeMem a bs).memory = (s.writeMem a bs).memory := by
  rw [State.withCommand_eq, State.writeMem_setHost]
  exact State.setHost_memory _ _

/-- PARAM.PUBLISH of a block that has not begun is accepted. -/
theorem State.publish_accepted {s : State} {j b ctx : Nat} {x : BlockSt} (hx : s.blockOf j b = some (ctx, x)) (hk : x.kind ≠ 3)
    (hp : x.publishing = false) (hst : x.state = 1 ∧ x.producing = none ∨ x.state = 2 ∧ x.started = 0) :
    ∃ u, s.publish j b = (none, u) := by
  refine ⟨(s.publish j b).2, Prod.ext ?_ rfl⟩
  rcases hst with ⟨h1, hnone⟩ | ⟨h2, h0⟩
  · simp [State.publish, hx, hk, hp, h1, hnone]
  · simp [State.publish, hx, hk, hp, h2, h0]

section

variable {s : State} {h : CmdHdr} {b j ctx : Nat} {x : BlockSt} (hx : s.blockOf j b = some (ctx, x))

include hx

theorem paramPublish_settled (ht : s.takesNow (.paramPublish h b j) h = true) :
    (x.kind = 3 ∨ x.publishing = true → Refuses s (.paramPublish h b j) h Status.blockState) ∧
    (x.kind ≠ 3 → x.publishing = false → x.state = 1 ∧ x.producing = none ∨ x.state = 2 ∧ x.started = 0 →
      ∃ u, Waits s (.paramPublish h b j) u (.block j b)) := by
  have hblock := (State.withCommand_blockOf s (.paramPublish h b j) h j b).trans hx
  refine ⟨fun hno => ?_, fun hk hp hst => ?_⟩
  · have hwhen : x.kind = 3 ∨ x.publishing = true ∨ x.producing.isSome = true ∧ x.state = 1 :=
      hno.imp_right .inl
    refine refuses_of_run rfl ht (?_ : State.paramPublish _ b j = _)
    simp only [State.paramPublish, State.publish, hblock, if_pos hwhen]
    rfl
  · obtain ⟨u, hu⟩ := State.publish_accepted hblock hk hp hst
    refine ⟨u, waits_of_run rfl ht (?_ : State.paramPublish _ b j = _)⟩
    simp only [State.paramPublish, hu]

theorem paramClose_settled (ht : s.takesNow (.paramClose h b j) h = true) (hb : b ≠ 0) (hk : x.kind ≠ 3) :
    (x.state ≠ 2 → Refuses s (.paramClose h b j) h Status.blockState) ∧
    (x.state = 2 → ∃ u x', Completes s (.paramClose h b j) h u Status.ok ∧ u.parm.blocks.get? ctx = some x' ∧
      (x'.state = 3 ∨ x'.state = 4 ∨ x'.state = 2 ∧ x'.step = x.step + 1 ∧ x'.lastStatus = Status.stepDiscarded)) := by
  have hblock := (State.withCommand_blockOf s (.paramClose h b j) h j b).trans hx
  have hget := State.get?_of_blockOf hblock
  have hctx : (s.withCommand (.paramClose h b j) h).blockCtx j b = some ctx := State.blockCtx_of_blockOf hblock
  have hlead := State.leader_self hget hk
  refine ⟨fun hst => ?_, fun hst => ?_⟩
  · refine refuses_of_run rfl ht (?_ : Machine.ended (State.closeStep _ j b) = _)
    have hnot : ¬ (some x).map BlockSt.state = some 2 := fun heq => hst (Option.some.inj heq)
    simp only [State.closeStep, if_neg hb, hctx, hlead, hget, if_neg hnot]
    rfl
  · obtain ⟨x', hx', hstate⟩ := State.close_reviewed hget
    refine ⟨_, x', completes_of_run rfl ht (?_ : Machine.ended (State.closeStep _ j b) = _), hx', hstate⟩
    have hwhen : (some x).map BlockSt.state = some 2 := congrArg some hst
    simp only [State.closeStep, if_neg hb, hctx, hlead, hget, if_pos hwhen]
    rfl

theorem paramUpdate_settled (ht : s.takesNow (.paramUpdate h b j) h = true) (hk : x.kind ≠ 3) :
    (x.state ≠ 6 → Refuses s (.paramUpdate h b j) h Status.blockState) ∧
    (x.state = 6 → ∃ u x', Completes s (.paramUpdate h b j) h u Status.ok ∧ u.parm.blocks.get? ctx = some x' ∧
      (x'.state = 3 ∨ x'.state = 4 ∨ x'.state = 2 ∧ x'.step = x.step + 1 ∧ x'.lastStatus = Status.stepDiscarded)) := by
  have hblock := (State.withCommand_blockOf s (.paramUpdate h b j) h j b).trans hx
  have hget := State.get?_of_blockOf hblock
  have hstate := State.stateOf_self hget hk
  refine ⟨fun hst => ?_, fun hst => ?_⟩
  · refine refuses_of_run rfl ht (?_ : State.paramUpdate _ b j = _)
    rw [State.paramUpdate, State.onBlock_denied hblock (by rw [hstate]; exact beq_false_of_ne hst)]
    rfl
  · obtain ⟨x', hx', hst'⟩ := State.close_reviewed hget
    refine ⟨_, x', completes_of_run rfl ht (?_ : State.paramUpdate _ b j = _), hx', hst'⟩
    rw [State.paramUpdate, State.onBlock_allowed hblock (by rw [hstate, hst]; rfl), State.leader_self hget hk]
    rfl

theorem paramDiscard_settled (ht : s.takesNow (.paramDiscard h b j) h = true) (hk : x.kind ≠ 3) :
    (x.state ≠ 6 → Refuses s (.paramDiscard h b j) h Status.blockState) ∧
    (x.state = 6 → Ends s (.paramDiscard h b j) h [] [.parm, .mem, .fresh] fun u =>
      (∃ x', u.parm.blocks.get? ctx = some x' ∧ x'.state = 2 ∧ x'.step = x.step + 1 ∧ x'.version = x.version ∧
        x'.started = 0 ∧ x'.failed = 0) ∧ (∀ i, i < 8 * x.ep → u.byte (x.regionAddr 3 + i) = 0)) := by
  have hblock := (State.withCommand_blockOf s (.paramDiscard h b j) h j b).trans hx
  have hget := State.get?_of_blockOf hblock
  have hstate := State.stateOf_self hget hk
  refine ⟨fun hst => ?_, fun hst => ?_⟩
  · refine refuses_of_run rfl ht (?_ : State.paramDiscard _ b j = _)
    rw [State.paramDiscard, State.onBlock_denied hblock (by rw [hstate]; exact beq_false_of_ne hst)]
    rfl
  · obtain ⟨t, hx'⟩ := State.discardStep_get? hget Status.ok
    refine ends_of_run rfl ht (?_ : State.paramDiscard _ b j = _) (State.keepsBut_mono (State.discardStep_keepsBut _ _ _) (by decide))
      ⟨⟨_, hx', rfl, rfl, rfl, rfl, rfl⟩, fun i hi => State.byte_discardStep hget _ hi⟩
    rw [State.paramDiscard, State.onBlock_allowed hblock (by rw [hstate, hst]; rfl), State.leader_self hget hk]
    rfl

theorem paramEvict_ends (ht : s.takesNow (.paramEvict h b j) h = true) (hk : x.kind ≠ 3) :
    Ends s (.paramEvict h b j) h [] [.parm, .regs] fun u =>
      u.parm.blocks.get? ctx = some { x with holds := (x.holds.map fun kv =>
        if kv.1 = x.oldest then (kv.1, kv.2 - (kv.2 &&& x.allSubs)) else kv) } := by
  have hblock := (State.withCommand_blockOf s (.paramEvict h b j) h j b).trans hx
  have hget := State.get?_of_blockOf hblock
  refine ends_of_run rfl ht (?_ : State.paramEvict _ b j = _) (State.keepsBut_mono (State.dropHolds_keepsBut _ _ _ _) (by decide))
    (State.dropHolds_get? hget x.allSubs x.oldest)
  rw [State.paramEvict, State.onBlock_allowed hblock rfl]
  simp only [State.leader_self hget hk, hget]
  rfl

theorem paramSpoil_settled {r : Ref} {m : List Byte} (ht : s.takesNow (.paramSpoil h b j r) h = true) :
    (x.kind = 3 ∨ r.len < x.maskBytes → Refuses s (.paramSpoil h b j r) h Status.descInvalid) ∧
    (x.kind ≠ 3 → x.maskBytes ≤ r.len →
      (s.withCommand (.paramSpoil h b j r) h).readRef (.paramSpoil h b j r) h r x.maskBytes = some m →
      Ends s (.paramSpoil h b j r) h [] [.mem] fun u => u.memory = (s.writeMem (x.regionAddr 10) m).memory) := by
  have hblock := (State.withCommand_blockOf s (.paramSpoil h b j r) h j b).trans hx
  refine ⟨fun hbad => ?_, fun hk hlen hread => ?_⟩
  · refine refuses_of_run rfl ht (?_ : State.paramSpoil _ _ h b j r = _)
    rw [State.paramSpoil, State.onBlock_allowed hblock rfl, if_pos hbad]
    rfl
  · refine ends_of_run rfl ht (u := (s.withCommand (.paramSpoil h b j r) h).writeMem (x.regionAddr 10) m)
      (?_ : State.paramSpoil _ _ h b j r = _) (State.writeMem_keepsBut _ _ _) (State.withCommand_writeMem _ _ _ _ _)
    rw [State.paramSpoil, State.onBlock_allowed hblock rfl, if_neg (by omega), hread]
    rfl

theorem paramHyper_ends {y : F32} (ht : s.takesNow (.paramHyper h b j y) h = true) (hb : b ≠ 0) :
    Ends s (.paramHyper h b j y) h [] [.parm] fun u => u.parm.blocks.get? ctx = some { x with multiplier := y } ∧
      ∀ n, n ≠ ctx → u.parm.blocks.get? n = s.parm.blocks.get? n := by
  have hblock := (State.withCommand_blockOf s (.paramHyper h b j y) h j b).trans hx
  refine ends_of_run rfl ht (u := (s.withCommand (.paramHyper h b j y) h).setBlock ctx fun z => { z with multiplier := y })
    (?_ : State.paramHyper _ b j y = _) (State.setBlock_keepsBut _ _ _)
    ⟨State.setBlock_get? (State.get?_of_blockOf hblock) _, fun n hn => ?_⟩
  · rw [State.paramHyper, if_neg hb, State.onBlock_allowed hblock rfl]
    rfl
  · rw [State.setBlock_get?_ne _ hn, State.withCommand_parm]

theorem paramRetire_settled (ht : s.takesNow (.paramRetire h b j) h = true) (hk : x.kind ≠ 3) :
    (notBegun x.state x.started = false → x.state ≠ 6 → Refuses s (.paramRetire h b j) h Status.blockState) ∧
    (notBegun x.state x.started = true ∨ x.state = 6 → ∃ u, Completes s (.paramRetire h b j) h u Status.ok ∧
      u.parm.blocks = s.parm.blocks.erase ctx ∧ u.ctxUse.get? ctx = none ∧ u.memory = s.memory) := by
  have hblock := (State.withCommand_blockOf s (.paramRetire h b j) h j b).trans hx
  have hget := State.get?_of_blockOf hblock
  have hstate := State.stateOf_self hget hk
  refine ⟨fun hbegun hst => ?_, fun hok => ?_⟩
  · refine refuses_of_run rfl ht (?_ : State.paramRetire _ b j = _)
    rw [State.paramRetire, State.onBlock_denied hblock (by rw [hstate]; simp [hbegun, hst])]
    rfl
  · obtain ⟨hblocks, huse⟩ := State.removeBlock_removed hget
    refine ⟨_, completes_of_run rfl ht (?_ : State.paramRetire _ b j = _), ?_, huse, ?_⟩
    · rw [State.paramRetire, State.onBlock_allowed hblock (by rw [hstate]; rcases hok with hok | hok <;> simp [hok])]
      rfl
    · rw [hblocks, State.withCommand_parm]
    · rw [State.keepsBut_memory (State.removeBlock_keepsBut _ ctx), State.withCommand_memory]

end

/-- PARAM.HYPER of every block of a job. -/
theorem paramHyper_all {s : State} {h : CmdHdr} {j : Nat} {y : F32} (ht : s.takesNow (.paramHyper h 0 j y) h = true) :
    Ends s (.paramHyper h 0 j y) h [] [.parm] fun u =>
      ∀ n z, s.parm.blocks.get? n = some z → (n, z) ∈ s.parm.blocks → z.job = j →
        (u.parm.blocks.get? n).map BlockSt.multiplier = some y := by
  refine ends_of_run rfl ht (u := ((s.withCommand (.paramHyper h 0 j y) h).parm.blocks.filter fun kv => kv.2.job == j).foldl
      (fun s kv => s.setBlock kv.1 fun b => { b with multiplier := y }) (s.withCommand (.paramHyper h 0 j y) h)) rfl
    (State.keepsBut_foldl (fun u kv => u.setBlock_keepsBut kv.1 _) (State.keepsBut_refl _ _)) fun n z hz hmem hj => ?_
  refine State.setMultipliers_get? _ _ y n (.inl ⟨⟨z, List.mem_filter.2 ⟨?_, beq_iff_eq.2 hj⟩⟩, ?_⟩)
  · rw [State.withCommand_parm]
    exact hmem
  · rw [State.withCommand_parm, hz]
    rfl

/-- Settles O57: each command acts on the block of its job in the states that Table 11.4 gives it, and on no other. -/
theorem blocksAreSteppedByCommand : Obligations.BlocksAreSteppedByCommand := by
  unfold Obligations.BlocksAreSteppedByCommand
  intro s h b j ctx x hx
  refine ⟨paramPublish_settled hx, paramClose_settled hx, paramUpdate_settled hx, paramDiscard_settled hx, paramEvict_ends hx,
    fun r m ht => paramSpoil_settled hx ht, fun y ht hb => paramHyper_ends hx ht hb, fun y ht => paramHyper_all ht,
    fun r ht => reports_of_run rfl ht ?_, paramRetire_settled hx⟩
  have hblock := (State.withCommand_blockOf s (.paramStatus h b j r) h j b).trans hx
  show State.paramStatus _ b j r = _
  rw [State.paramStatus, State.onBlock_allowed hblock rfl]

end Sys2Proof.Machine
end

section

-- One declaration after another: elaborated side by side, they take more threads than the check allows.
set_option Elab.async false

/-! The stash by command, and the end of a release's drain (R274–R278, R289, R291, R292). -/

namespace Sys2Proof.Machine

open Sys2Proof (Instr CmdHdr Ref)

/-! ## Entries -/

/-- Two entries have one key. -/
def StashEnt.sameKey (a b : StashEnt) : Bool := a.job == b.job && a.holder == b.holder && a.tag == b.tag

theorem StashEnt.sameKey_iff {a b : StashEnt} : a.sameKey b = true ↔ a.job = b.job ∧ a.holder = b.holder ∧ a.tag = b.tag := by
  simp [StashEnt.sameKey, and_assoc]

theorem StashEnt.sameKey_refl (a : StashEnt) : a.sameKey a = true := StashEnt.sameKey_iff.2 ⟨rfl, rfl, rfl⟩

theorem State.returnSpans_parts (s : State) (j : Nat) : (s.returnSpans j).stash.ents = s.stash.ents ∧
    (s.returnSpans j).stash.gets = s.stash.gets := by
  unfold State.returnSpans
  split
  · exact ⟨rfl, rfl⟩
  · exact ⟨rfl, rfl⟩

/-- A reservation keeps its release through the return of spans. -/
theorem State.returnSpans_res {s : State} {k : Nat} {r : StashRes} (hr : s.stash.res.get? k = some r) (j : Nat) :
    ∃ y, (s.returnSpans j).stash.res.get? k = some y ∧ y.releasing = r.releasing ∧ y.drain = r.drain := by
  unfold State.returnSpans
  split
  next => exact ⟨r, hr, rfl, rfl⟩
  next x hx =>
    by_cases hkj : k = j
    · obtain rfl : x = r := Option.some.inj (hx.symm.trans (hkj ▸ hr))
      rw [hkj]
      exact ⟨_, NMap.get?_set _ _ _, rfl, rfl⟩
    · exact ⟨r, (NMap.get?_set_ne _ _ hkj).trans hr, rfl, rfl⟩

/-- An entry that is freed takes every entry of its key with it; the others stay. -/
theorem State.freeEntry_ents (s : State) (e : StashEnt) :
    (s.freeEntry e).stash.ents = s.stash.ents.filter fun y => !y.sameKey e :=
  (State.returnSpans_parts _ e.job).1

theorem State.freeEntry_gets (s : State) (e : StashEnt) : (s.freeEntry e).stash.gets = s.stash.gets :=
  (State.returnSpans_parts _ e.job).2

theorem State.freeEntry_res {s : State} {k : Nat} {r : StashRes} (hr : s.stash.res.get? k = some r) (e : StashEnt) :
    ∃ y, (s.freeEntry e).stash.res.get? k = some y ∧ y.releasing = r.releasing ∧ y.drain = r.drain :=
  State.returnSpans_res (s := s.setStash fun x => { x with ents := x.ents.filter fun y => !y.sameKey e }) hr e.job

theorem State.freeEntries_ents (l : List StashEnt) (s : State) :
    (l.foldl State.freeEntry s).stash.ents = s.stash.ents.filter fun y => l.all fun e => !y.sameKey e := by
  induction l generalizing s with
  | nil => simp
  | cons e l ih => 
    rw [List.foldl_cons, ih, State.freeEntry_ents, List.filter_filter]
    simp only [List.all_cons]
    exact List.filter_congr fun y _ => Bool.and_comm _ _

theorem State.freeEntries_gets (l : List StashEnt) (s : State) : (l.foldl State.freeEntry s).stash.gets = s.stash.gets :=
  foldl_leaves (p := fun u : State => u.stash.gets) (fun u e => u.freeEntry_gets e) l s

theorem State.freeEntries_res {k : Nat} {r : StashRes} (l : List StashEnt) {s : State} (hr : s.stash.res.get? k = some r) :
    ∃ y, (l.foldl State.freeEntry s).stash.res.get? k = some y ∧ y.releasing = r.releasing ∧ y.drain = r.drain := by
  induction l generalizing s r with
  | nil => exact ⟨r, hr, rfl, rfl⟩
  | cons e l ih =>
    obtain ⟨y, hy, hrel, hdrain⟩ := State.freeEntry_res hr e
    obtain ⟨z, hz, hrel', hdrain'⟩ := ih hy
    exact ⟨z, hz, hrel'.trans hrel, hdrain'.trans hdrain⟩

/-! ## Releases -/

theorem State.getsOn_sameKey {s : State} {a b : StashEnt} (h : a.sameKey b = true) : s.getsOn a = s.getsOn b := by
  obtain ⟨hj, hh, ht⟩ := StashEnt.sameKey_iff.1 h
  simp only [State.getsOn, hj, hh, ht]

/-- The state in which steps 1 and 2 of a release leave the stash: the entries that no get uses are freed (R292). -/
theorem State.stashRelease_left {s : State} {j : Nat} {x : StashRes} (hx : s.stash.res.get? j = some x) :
    (s.stashRelease j).stash.ents = s.stash.ents.filter (fun y =>
      ((s.stashEnts j).filter fun e => (s.getsOn e).isEmpty).all fun e => !y.sameKey e) ∧
    ∃ y, (s.stashRelease j).stash.res.get? j = some y ∧ y.releasing = true ∧ y.drain = 0 := by
  simp only [State.stashRelease, hx]
  exact ⟨State.freeEntries_ents _ _, State.freeEntries_res (r := { x with releasing := true, drain := 0 }) _ (NMap.get?_set _ _ _)⟩

/-- No entry that a release frees has the key of this one, where it is another job's or a get uses it. -/
theorem State.release_leaves {s : State} {j : Nat} {e : StashEnt} (he : e ∈ s.stash.ents) :
    (((s.stashEnts j).filter fun y => (s.getsOn y).isEmpty).all fun y => !e.sameKey y) = true ↔
      (e.job = j → (s.getsOn e).isEmpty = false) := by
  rw [List.all_eq_true]
  refine ⟨fun h hj => ?_, fun h y hy => ?_⟩
  · by_contra hempty
    have hmem : e ∈ (s.stashEnts j).filter fun e => (s.getsOn e).isEmpty :=
      List.mem_filter.2 ⟨List.mem_filter.2 ⟨he, beq_iff_eq.2 hj⟩, by simpa using hempty⟩
    simpa [StashEnt.sameKey_refl] using h e hmem
  · obtain ⟨hyj, hyempty⟩ := List.mem_filter.1 hy
    have hjob : y.job = j := beq_iff_eq.1 (List.mem_filter.1 hyj).2
    rw [Bool.not_eq_true']
    by_contra hsame
    have hsame' : e.sameKey y = true := by simpa using hsame
    have hkey := (StashEnt.sameKey_iff.1 hsame').1
    rw [State.getsOn_sameKey hsame', hyempty] at h
    exact absurd (h (hkey.trans hjob)) (by decide)

/-- An entry stays through a release where it is another job's, or a get uses it. -/
theorem State.mem_stashRelease {s : State} {j : Nat} {x : StashRes} (hx : s.stash.res.get? j = some x) (e : StashEnt) :
    e ∈ (s.stashRelease j).stash.ents ↔ e ∈ s.stash.ents ∧ (e.job = j → (s.getsOn e).isEmpty = false) := by
  rw [(State.stashRelease_left hx).1, List.mem_filter]
  exact and_congr_right State.release_leaves

/-- A release of a reservation whose entries no get uses frees them all. -/
theorem State.stashRelease_all {s : State} {j : Nat} {x : StashRes} (hx : s.stash.res.get? j = some x)
    (hall : (s.stashEnts j).all (fun e => (s.getsOn e).isEmpty) = true) :
    (s.stashRelease j).stash.ents = s.stash.ents.filter fun e => e.job != j := by
  rw [(State.stashRelease_left hx).1]
  refine List.filter_congr fun e he => Bool.eq_iff_iff.2 ((State.release_leaves he).trans ?_)
  rw [bne_iff_ne]
  refine ⟨fun h hj => ?_, fun h hj => absurd hj h⟩
  have hempty := List.all_eq_true.1 hall e (List.mem_filter.2 ⟨he, beq_iff_eq.2 hj⟩)
  rw [h hj] at hempty
  contradiction

/-! ## Gets that end -/

/-- No get of the stash but those there were, but for what has been answered. -/
def State.getsFrom (s t : State) : Prop := ∀ g ∈ t.stash.gets, ∃ x ∈ s.stash.gets, x.id = g.id ∧ x.job = g.job

theorem State.getsFrom_of_gets {s t : State} (h : t.stash.gets = s.stash.gets) : s.getsFrom t :=
  fun g hg => ⟨g, h ▸ hg, rfl, rfl⟩

theorem State.getsFrom_trans {s t u : State} (h : s.getsFrom t) (h' : t.getsFrom u) : s.getsFrom u := fun g hg => by
  obtain ⟨x, hx, hid, hjob⟩ := h' g hg
  obtain ⟨y, hy, hid', hjob'⟩ := h x hx
  exact ⟨y, hy, hid'.trans hid, hjob'.trans hjob⟩

theorem State.sendReply_getsFrom (s : State) (g : StashGet) (st bytes : Nat) : s.getsFrom (s.sendReply g st bytes) := by
  delta State.sendReply
  extract_lets t s1 s2
  intro y hy
  rw [State.keepsBut_stash (State.send_keepsBut s2 _ _)] at hy
  obtain ⟨x, hx, rfl⟩ := List.mem_map.1 hy
  refine ⟨x, hx, ?_, ?_⟩ <;> split <;> rfl

/-- A get that is over is no longer held. -/
theorem State.getOver_gets (s : State) (g : StashGet) (ok : Bool) :
    (s.getOver g ok).stash.gets = s.stash.gets.filter fun y => y.id != g.id := by
  delta State.getOver
  extract_lets s1
  split
  · rfl
  next e _ =>
    extract_lets left after again
    split
    · rfl
    · split
      · rfl
      · split
        · exact (congrArg StashSt.gets (State.keepsBut_stash (State.bump_keepsBut (s1.freeEntry e) _ _ _))).trans (s1.freeEntry_gets e)
        · rfl

theorem State.endGet_gets (s : State) (g : StashGet) (st : Nat) (reply : Bool) :
    s.getsFrom (s.endGet g st reply) ∧ ∀ y ∈ (s.endGet g st reply).stash.gets, y.id ≠ g.id := by
  delta State.endGet
  extract_lets bytes s1 s2 s3
  have h2 : s.getsFrom s2 := by
    refine State.getsFrom_of_gets ?_
    dsimp only [s2]
    split
    · have hbump := State.keepsBut_stash (State.bump_keepsBut s1 .stashGetEnded 0 1)
      exact (congrArg StashSt.gets hbump).trans rfl
    · rfl
  have h3 : s.getsFrom s3 := by
    dsimp only [s3]
    split
    · exact State.getsFrom_trans h2 (s2.sendReply_getsFrom g st bytes)
    · exact h2
  refine ⟨fun y hy => ?_, fun y hy => ?_⟩
  · rw [State.getOver_gets] at hy
    exact h3 y (List.mem_filter.1 hy).1
  · rw [State.getOver_gets] at hy
    exact bne_iff_ne.1 (List.mem_filter.1 hy).2

/-- Gets that end are no longer held. -/
theorem State.endGets_gets (st : Nat) (reply : Bool) (l : List StashGet) (s : State) :
    s.getsFrom (l.foldl (fun s g => s.endGet g st reply) s) ∧
    ∀ y ∈ (l.foldl (fun s g => s.endGet g st reply) s).stash.gets, ∀ g ∈ l, y.id ≠ g.id := by
  induction l generalizing s with
  | nil => exact ⟨State.getsFrom_of_gets rfl, fun _ _ g hg => absurd hg List.not_mem_nil⟩
  | cons g l ih =>
    obtain ⟨hfrom, hgone⟩ := s.endGet_gets g st reply
    obtain ⟨hfrom', hgone'⟩ := ih (s.endGet g st reply)
    refine ⟨State.getsFrom_trans hfrom hfrom', fun y hy x hx => ?_⟩
    rcases List.mem_cons.1 hx with rfl | hx
    · obtain ⟨z, hz, hid, -⟩ := hfrom' y hy
      rw [← hid]
      exact hgone z hz
    · exact hgone' y hy x hx

theorem State.stashSweep_gets (s : State) (j : Nat) : (s.stashSweep j).stash.gets = s.stash.gets := by
  unfold State.stashSweep
  split
  · split
    · exact State.freeEntries_gets _ s
    · rfl
  · rfl

/-- A release whose drain time is over ends the gets of its job (R292). -/
theorem State.stashDrained_gets {s : State} {j : Nat} {x : StashRes} (hx : s.stash.res.get? j = some x)
    (hrel : x.releasing = true) (hdrain : s.cfg .stashCfg 0 16 16 ≤ x.drain) : ∀ g ∈ (s.stashDrained j).stash.gets, g.job ≠ j := by
  simp only [State.stashDrained, hx, hrel, decide_eq_true hdrain, Bool.and_self, if_true]
  rw [State.stashSweep_gets]
  intro g hg hj
  obtain ⟨hfrom, hgone⟩ := State.endGets_gets Status.drained true (s.stash.gets.filter fun g => g.job == j) s
  obtain ⟨y, hy, hid, hjob⟩ := hfrom g hg
  exact hgone g hg y (List.mem_filter.2 ⟨hy, beq_iff_eq.2 (hjob.trans hj)⟩) hid.symm

/-! ## Purges -/

/-- The key of an entry matches what a purge names of one holder. -/
def StashEnt.matches (e : StashEnt) (j holder tag mask : Nat) : Bool :=
  e.job == j && e.holder == holder && e.tag &&& mask == tag &&& mask

theorem StashEnt.matches_of_sameKey {a b : StashEnt} {j holder tag mask : Nat} (h : a.sameKey b = true) :
    a.matches j holder tag mask = b.matches j holder tag mask := by
  obtain ⟨hj, hh, ht⟩ := StashEnt.sameKey_iff.1 h
  simp only [StashEnt.matches, hj, hh, ht]

/-- An entry waits for its last get before it is freed. -/
def StashEnt.dropped (e : StashEnt) : Prop := e.state ≠ 1 ∧ e.dropPending = true

/-- What a drop does to the entries it names and to the others: of those named, the ones that stay are to be dropped. -/
structure State.drops (p : StashEnt → Bool) (s t : State) : Prop where
  others : ∀ y, p y = false → (y ∈ t.stash.ents ↔ y ∈ s.stash.ents)
  named : ∀ y ∈ t.stash.ents, p y = true → y.dropped ∧ ∃ z ∈ s.stash.ents, z.sameKey y = true

theorem StashEnt.sameKey_trans {a b c : StashEnt} (h : a.sameKey b = true) (h' : b.sameKey c = true) : a.sameKey c = true := by
  obtain ⟨hj, hh, ht⟩ := StashEnt.sameKey_iff.1 h
  obtain ⟨hj', hh', ht'⟩ := StashEnt.sameKey_iff.1 h'
  exact StashEnt.sameKey_iff.2 ⟨hj.trans hj', hh.trans hh', ht.trans ht'⟩

theorem StashEnt.sameKey_symm {a b : StashEnt} (h : a.sameKey b = true) : b.sameKey a = true := by
  obtain ⟨hj, hh, ht⟩ := StashEnt.sameKey_iff.1 h
  exact StashEnt.sameKey_iff.2 ⟨hj.symm, hh.symm, ht.symm⟩

theorem State.drops_trans {p q : StashEnt → Bool} {s t u : State} (h : State.drops p s t) (h' : State.drops q t u) :
    State.drops (fun y => p y || q y) s u := by
  refine ⟨fun y hy => ?_, fun y hmem hy => ?_⟩
  · obtain ⟨hp, hq⟩ := Bool.or_eq_false_iff.1 hy
    exact (h'.others y hq).trans (h.others y hp)
  · cases hq : q y with
    | true =>
      obtain ⟨hd, z, hz, hzy⟩ := h'.named y hmem hq
      refine ⟨hd, ?_⟩
      cases hp : p z with
      | true =>
        obtain ⟨-, w, hw, hwz⟩ := h.named z hz hp
        exact ⟨w, hw, StashEnt.sameKey_trans hwz hzy⟩
      | false => exact ⟨z, (h.others z hp).1 hz, hzy⟩
    | false =>
      rw [hq, Bool.or_false] at hy
      exact h.named y ((h'.others y hq).1 hmem) hy

theorem State.drops_of_ents {p : StashEnt → Bool} {s t u : State} (h : State.drops p s t) (hu : u.stash.ents = t.stash.ents) :
    State.drops p s u := ⟨fun y hy => hu ▸ h.others y hy, fun y hmem hy => h.named y (hu ▸ hmem) hy⟩

/-- Drops carried out one after another. -/
theorem State.drops_foldl {α : Type} {p : α → StashEnt → Bool} {f : State → α → State} (hf : ∀ (s : State) x, State.drops (p x) s (f s x))
    (l : List α) (s : State) : State.drops (fun y => l.any fun x => p x y) s (l.foldl f s) := by
  induction l generalizing s with
  | nil => exact ⟨fun _ _ => Iff.rfl, fun _ _ h => absurd h Bool.false_ne_true⟩
  | cons x l ih => exact State.drops_trans (hf s x) (ih _)

/-- What names too few or too many entries that are there names them all the same. -/
theorem State.drops_congr {p q : StashEnt → Bool} {s t : State} (h : State.drops p s t) (hpq : ∀ y, p y = true → q y = true)
    (hqp : ∀ y ∈ s.stash.ents, q y = true → p y = true) : State.drops q s t := by
  refine ⟨fun y hy => h.others y ?_, fun y hmem hy => h.named y hmem ?_⟩
  · rw [Bool.eq_false_iff]
    exact fun hp => by simp [hpq y hp] at hy
  · by_contra hp
    exact hp (hqp y ((h.others y (Bool.eq_false_iff.2 hp)).1 hmem) hy)

theorem State.freeEntry_drops (s : State) (e : StashEnt) : State.drops (fun y => y.sameKey e) s (s.freeEntry e) := by
  refine ⟨fun y hy => ?_, fun y hmem hy => ?_⟩
  · rw [State.freeEntry_ents, List.mem_filter]
    simp [hy]
  · rw [State.freeEntry_ents, List.mem_filter, hy] at hmem
    exact absurd hmem.2 (by decide)

/-- An entry that stays till its last get is over. -/
theorem State.setEnt_drops (s : State) {e e' : StashEnt} (hkey : e'.sameKey e = true) (hd : e'.dropped) :
    State.drops (fun y => y.sameKey e) s (s.setEnt e') := by
  obtain ⟨hj, hh, ht⟩ := StashEnt.sameKey_iff.1 hkey
  have hents : (s.setEnt e').stash.ents = s.stash.ents.map fun y => if y.sameKey e then e' else y := by
    simp only [State.setEnt, State.setStash, hj, hh, ht]
    rfl
  refine ⟨fun y hy => ?_, fun y hmem hy => ?_⟩
  · rw [hents, List.mem_map]
    refine ⟨fun ⟨z, hz, heq⟩ => ?_, fun h => ⟨y, h, by rw [hy]; rfl⟩⟩
    split at heq
    · rw [← heq, hkey] at hy
      contradiction
    · exact heq ▸ hz
  · rw [hents] at hmem
    obtain ⟨z, hz, heq⟩ := List.mem_map.1 hmem
    split at heq
    next hsame => exact ⟨heq ▸ hd, z, hz, StashEnt.sameKey_trans hsame (StashEnt.sameKey_symm hy)⟩
    next hsame => exact absurd (heq ▸ hy) hsame

/-- One entry that a drop names. -/
def State.dropEntry (j : Nat) (s : State) (e : StashEnt) : State :=
  if e.state = 1 then ((s.freeEntry e).bump .stashDropped).workEnded 2 j false
  else if e.state = 2 ∧ (s.getsOn e).isEmpty then (s.freeEntry e).bump .stashDropped
  else if e.state = 2 then (s.setEnt { e with state := 3, dropPending := true, stamp := s.stamp }).stamped
  else s.setEnt { e with dropPending := true }

theorem State.dropMatching_eq (s : State) (j holder tag mask : Nat) : s.dropMatching j holder tag mask =
    (s.stash.ents.filter fun e => e.matches j holder tag mask).foldl (State.dropEntry j) s := rfl

theorem State.dropEntry_drops (j : Nat) (s : State) (e : StashEnt) : State.drops (fun y => y.sameKey e) s (s.dropEntry j e) := by
  have hbump : (((s.freeEntry e).bump .stashDropped).stash).ents = (s.freeEntry e).stash.ents :=
    congrArg StashSt.ents (State.keepsBut_stash (State.bump_keepsBut (s.freeEntry e) _ _ _))
  unfold State.dropEntry
  split
  · exact State.drops_of_ents (s.freeEntry_drops e) hbump
  next h1 =>
    split
    · exact State.drops_of_ents (s.freeEntry_drops e) hbump
    · split
      · exact State.drops_of_ents (s.setEnt_drops (e' := { e with state := 3, dropPending := true, stamp := s.stamp })
          e.sameKey_refl ⟨show 3 ≠ 1 by decide, rfl⟩) rfl
      · exact s.setEnt_drops (e' := { e with dropPending := true }) e.sameKey_refl ⟨h1, rfl⟩

/-- A drop of a holder names the entries that its key matches (R289). -/
theorem State.dropMatching_drops (s : State) (j holder tag mask : Nat) :
    State.drops (fun y => y.matches j holder tag mask) s (s.dropMatching j holder tag mask) := by
  rw [State.dropMatching_eq]
  refine State.drops_congr (State.drops_foldl (State.dropEntry_drops j) _ s) (fun y hy => ?_) fun y hmem hy => ?_
  · obtain ⟨e, he, hsame⟩ := List.any_eq_true.1 hy
    rw [StashEnt.matches_of_sameKey hsame]
    exact (List.mem_filter.1 he).2
  · exact List.any_eq_true.2 ⟨y, List.mem_filter.2 ⟨hmem, hy⟩, y.sameKey_refl⟩

/-- STASH.PURGE names the entries of a job that one rank, or every rank, holds under the tag. -/
theorem State.purge_drops (s : State) (j rank tag mask : Nat) :
    State.drops (fun y => y.job == j && (rank == 0xFFFF || y.holder == rank) && y.tag &&& mask == tag &&& mask) s
      (s.purge j rank tag mask) := by
  refine State.drops_congr (State.drops_foldl (fun (u : State) h => u.dropMatching_drops j h tag mask) _ s) (fun y hy => ?_)
    fun y hmem hy => ?_
  · obtain ⟨h, hh, hy⟩ := List.any_eq_true.1 hy
    simp only [StashEnt.matches, Bool.and_eq_true, beq_iff_eq] at hy
    obtain ⟨⟨hj, hholder⟩, htag⟩ := hy
    simp only [Bool.and_eq_true, Bool.or_eq_true, beq_iff_eq]
    refine ⟨⟨hj, ?_⟩, htag⟩
    split at hh
    next hall => exact .inl hall
    next => exact .inr (hholder.trans (List.mem_singleton.1 hh))
  · simp only [Bool.and_eq_true, Bool.or_eq_true, beq_iff_eq] at hy
    obtain ⟨⟨hj, hrank⟩, htag⟩ := hy
    have hmatch : y.matches j y.holder tag mask = true := by simp [StashEnt.matches, hj, htag]
    refine List.any_eq_true.2 ⟨y.holder, ?_, hmatch⟩
    split
    next => exact List.mem_dedup.2 (List.mem_map_of_mem (List.mem_filter.2 ⟨hmem, beq_iff_eq.2 hj⟩))
    next hall => exact List.mem_singleton.2 (hrank.resolve_left hall)

/-! ## Reservations -/

/-- A reservation is made or refused whatever the host side is. -/
theorem State.stashReserve_setHost {s : State} {f : HostSt → HostSt} (hf : (f s.host).jobs = s.host.jobs) (j l n r m : Nat) :
    Sum.map id Prod.fst ((s.setHost f).stashReserve j l n r m) = Sum.map id Prod.fst (s.stashReserve j l n r m) := by
  have husable : (s.setHost f).usable = s.usable := rfl
  have hstash : (s.setHost f).stash = s.stash := rfl
  have hleft : (s.setHost f).capacityLeft = s.capacityLeft := rfl
  have hunits : (s.setHost f).freeUnits = s.freeUnits := rfl
  have hctxs : (s.setHost f).freeCtxs = s.freeCtxs := by
    have hjobs : (s.setHost f).host.jobs = s.host.jobs := hf
    rw [State.freeCtxs, State.freeCtxs, hjobs]
    rfl
  simp only [State.stashReserve, husable, hstash, hleft, hunits, hctxs]
  split
  · rfl
  · split
    · rfl
    · split
      · rfl
      · split
        · rfl
        · rfl
        · rfl

/-- The reservation that is made. -/
theorem State.stashReserve_made {s t : State} {j l n r m o : Nat} (h : s.stashReserve j l n r m = .inr (o, t)) :
    (∃ x, t.stash.res.get? j = some x ∧ x.opId = o ∧ x.reserved = r ∧ x.limit = m ∧ x.maxEntries = n ∧ x.extentLog2 = l ∧
      x.releasing = false) ∧ t.stash.ents = s.stash.ents ∧ s.keepsBut [.stash, .ctxs, .flt] t := by
  unfold State.stashReserve at h
  dsimp only at h
  split at h
  · contradiction
  · split at h
    · contradiction
    · split at h
      · contradiction
      · split at h
        · contradiction
        · contradiction
        next spans ctxs _ _ =>
          obtain ⟨ho, rfl⟩ := Prod.mk.inj (Sum.inr.inj h)
          have hkeep := State.assignSubstitutes_keepsBut ((s.newGen ((ctxs.head?.map Prod.fst).getD 0)).setRes j
            { reserved := r, limit := m, maxEntries := n, extentLog2 := l,
              opId := (s.newGen ((ctxs.head?.map Prod.fst).getD 0)).opId ((ctxs.head?.map Prod.fst).getD 0),
              ctxs := ctxs, spans := spans, lastGroup := stashGroups l - 1 })
          rw [State.keepsBut_stash hkeep]
          refine ⟨⟨_, NMap.get?_set _ _ _, ho, rfl, rfl, rfl, rfl, rfl⟩, rfl, ?_⟩
          exact State.keepsBut_then hkeep (State.keepsBut_then (State.setRes_keepsBut _ _ _)
            (State.keepsBut_mono (s.newGen_keepsBut _) (by decide)) rfl) rfl

/-! ## The commands -/

theorem State.withCommand_stashEnts (s : State) (c : Instr) (h : CmdHdr) (j : Nat) :
    (s.withCommand c h).stashEnts j = s.stashEnts j := by
  rw [State.withCommand_eq]; rfl

theorem State.withCommand_stashEnt (s : State) (c : Instr) (h : CmdHdr) (j rank tag : Nat) :
    (s.withCommand c h).stashEnt j rank tag = s.stashEnt j rank tag := by
  rw [State.withCommand_eq]; rfl

theorem State.withCommand_getsOn (s : State) (c : Instr) (h : CmdHdr) (e : StashEnt) :
    (s.withCommand c h).getsOn e = s.getsOn e := by
  rw [State.withCommand_eq]; rfl

/-- A reservation that is refused, and the op_id of one that is made, with the command in its context. -/
theorem State.withCommand_stashReserve (s : State) (c : Instr) (h : CmdHdr) (j l n r m : Nat) :
    (∀ st, s.stashReserve j l n r m = .inl st → (s.withCommand c h).stashReserve j l n r m = .inl st) ∧
    ∀ o t, s.stashReserve j l n r m = .inr (o, t) → ∃ t', (s.withCommand c h).stashReserve j l n r m = .inr (o, t') := by
  have hsame : Sum.map id Prod.fst ((s.withCommand c h).stashReserve j l n r m) = Sum.map id Prod.fst (s.stashReserve j l n r m) := by
    rw [State.withCommand_eq]
    exact State.stashReserve_setHost rfl j l n r m
  refine ⟨fun st hst => ?_, fun o t hmade => ?_⟩
  · cases hw : (s.withCommand c h).stashReserve j l n r m with
    | inl st' =>
      rw [hw, hst] at hsame
      exact congrArg Sum.inl (Sum.inl.inj hsame)
    | inr x =>
      rw [hw, hst] at hsame
      exact absurd hsame Sum.inr_ne_inl
  · cases hw : (s.withCommand c h).stashReserve j l n r m with
    | inl st =>
      rw [hw, hmade] at hsame
      exact absurd hsame Sum.inl_ne_inr
    | inr x =>
      rw [hw, hmade] at hsame
      exact ⟨x.2, congrArg (fun k => Sum.inr (k, x.2)) (Sum.inr.inj hsame)⟩

/-- Settles O58: a reservation is made or refused as Table 12.3 says; a release frees the entries that no get uses; a purge
drops what it names and nothing else. -/
theorem stashCommands : Obligations.StashCommands := by
  unfold Obligations.StashCommands
  intro s h j
  refine ⟨fun l n r m ht hstz => ⟨fun st hst => ?_, fun hres hrm husable hm hn hn' hl hl' => ?_, fun o t hmade => ?_⟩,
    fun x ht hx => ⟨fun hall => ?_, fun hsome => ?_⟩, fun hnone => ⟨fun ht => ?_, fun r ht => ?_⟩,
    fun x rank tag mask ht hx => ?_, fun x r ht hx => ?_, fun x e rank tag r ht hx he => ?_, fun x rank tag r ht hx he => ?_,
    fun x hsafe hx => ⟨fun hnot => ?_, fun hrel hdrain => ?_⟩⟩
  · have hf := (s.withCommand_stashReserve (.stashReserve h j l n r m) h j l n r m).1 st hst
    refine refuses_of_run rfl ht (?_ : State.stashReserveCmd _ j l n r m = _)
    simp only [State.stashReserveCmd, State.withCommand_stozilJob, hstz, hf]
    rfl
  · have hst : s.stashReserve j l n r m = .inl Status.opBusy := by
      rw [State.stashReserve, if_neg (by omega), if_pos hres]
    have hf := (s.withCommand_stashReserve (.stashReserve h j l n r m) h j l n r m).1 _ hst
    refine refuses_of_run rfl ht (?_ : State.stashReserveCmd _ j l n r m = _)
    simp only [State.stashReserveCmd, State.withCommand_stozilJob, hstz, hf]
    rfl
  · obtain ⟨t', hf⟩ := (s.withCommand_stashReserve (.stashReserve h j l n r m) h j l n r m).2 o t hmade
    obtain ⟨hres, hents, hkeep⟩ := State.stashReserve_made hf
    refine ends_of_run rfl ht (u := t') (?_ : State.stashReserveCmd _ j l n r m = _) hkeep
      ⟨hres, hents.trans (by rw [State.withCommand_stash])⟩
    simp only [State.stashReserveCmd, State.withCommand_stozilJob, hstz, hf]
    rfl
  · have hx' : (s.withCommand (.stashRelease h j) h).stash.res.get? j = some x := by rw [State.withCommand_stash, hx]
    obtain ⟨y, hy, hrel, -⟩ := (State.stashRelease_left hx').2
    have hents := State.stashRelease_all hx' (by simpa only [State.withCommand_stashEnts, State.withCommand_getsOn] using hall)
    have hnone : (((s.withCommand (.stashRelease h j) h).stashRelease j).stashEnts j).isEmpty = true := by
      rw [State.stashEnts, hents, List.filter_filter, List.isEmpty_iff, List.filter_eq_nil_iff]
      intro e _
      simp
    refine ends_of_run rfl ht (u := ((s.withCommand (.stashRelease h j) h).stashRelease j).dropRes j)
      (?_ : State.stashReleaseCmd _ j = _) (State.keepsBut_then (State.dropRes_keepsBut _ j) (State.stashRelease_keepsBut _ j) rfl)
      ⟨NMap.get?_erase _ _, hents.trans (by rw [State.withCommand_stash])⟩
    simp only [State.stashReleaseCmd, State.onStash, hx', State.stashDone, hy, hrel, hnone, Bool.and_self, if_true]
    rfl
  · have hx' : (s.withCommand (.stashRelease h j) h).stash.res.get? j = some x := by rw [State.withCommand_stash, hx]
    obtain ⟨y, hy, hrel, hdrain⟩ := (State.stashRelease_left hx').2
    have hmem := State.mem_stashRelease hx'
    simp only [State.withCommand_stash, State.withCommand_getsOn] at hmem
    obtain ⟨e, he, hused⟩ := List.all_eq_false.1 hsome
    obtain ⟨hes, hej⟩ := List.mem_filter.1 he
    have hleft : (((s.withCommand (.stashRelease h j) h).stashRelease j).stashEnts j).isEmpty = false := by
      rw [List.isEmpty_eq_false_iff_exists_mem]
      exact ⟨e, List.mem_filter.2 ⟨(hmem e).2 ⟨hes, fun _ => by simpa using hused⟩, hej⟩⟩
    refine ⟨(s.withCommand (.stashRelease h j) h).stashRelease j, y, waits_of_run rfl ht (?_ : State.stashReleaseCmd _ j = _), hy,
      hrel, hdrain, fun e he => ((hmem e).1 he).1, fun e he hj => (hmem e).2 ⟨he, fun heq => absurd heq hj⟩⟩
    simp only [State.stashReleaseCmd, State.onStash, hx', State.stashDone, hy, hleft, Bool.and_false]
    rfl
  · refine refuses_of_run rfl ht (?_ : State.onStash _ j _ = _)
    simp only [State.onStash, State.withCommand_stash, hnone]
    rfl
  · refine refuses_of_run rfl ht (?_ : State.onStash _ j _ = _)
    simp only [State.onStash, State.withCommand_stash, hnone]
    rfl
  · have hpurge := (s.withCommand (.stashPurge h j rank tag mask) h).purge_drops j rank tag mask
    refine ends_of_run rfl ht (u := (s.withCommand (.stashPurge h j rank tag mask) h).purge j rank tag mask)
      (?_ : State.onStash _ j _ = _) (State.keepsBut_mono (State.purge_keepsBut _ _ _ _ _) (by decide))
      ⟨fun e he hnot => ?_, fun e he hj hrank htag => (hpurge.named e he ?_).1⟩
    · simp only [State.onStash, State.withCommand_stash, hx]
      rfl
    · refine (hpurge.others e ?_).2 (by rwa [State.withCommand_stash])
      rw [Bool.eq_false_iff]
      simpa only [ne_eq, Bool.and_eq_true, Bool.or_eq_true, beq_iff_eq, and_assoc] using hnot
    · simpa only [Bool.and_eq_true, Bool.or_eq_true, beq_iff_eq] using ⟨⟨hj, hrank⟩, htag⟩
  · refine reports_of_run rfl ht ?_
    show State.onStash _ j _ = _
    simp only [State.onStash, State.withCommand_stash, hx]
  · refine reports_of_run rfl ht ?_
    show State.stashEntryCmd _ j rank tag r = _
    simp only [State.stashEntryCmd, State.onStash, State.withCommand_stash, hx, State.withCommand_stashEnt, he]
  · refine refuses_of_run rfl ht (?_ : State.stashEntryCmd _ j rank tag r = _)
    simp only [State.stashEntryCmd, State.onStash, State.withCommand_stash, hx, State.withCommand_stashEnt, he]
    rfl
  · show Host.Outcome.next (s.data fun s => s.stashDrained j) = _
    have hstay : s.stashDrained j = s := by
      have hwhen : ¬ (x.releasing && decide (s.cfg .stashCfg 0 16 16 ≤ x.drain)) = true := by
        rcases hnot with hnot | hnot
        · simp [hnot]
        · simp [Nat.not_le.2 hnot]
      simp only [State.stashDrained, hx, if_neg hwhen]
    rw [State.data, if_neg (by simp [hsafe]), hstay]
  · refine ⟨s.stashDrained j, ?_, State.stashDrained_gets hx hrel hdrain, State.keepsBut_memory (s.stashDrained_keepsBut j)⟩
    show Host.Outcome.next (s.data fun s => s.stashDrained j) = _
    rw [State.data, if_neg (by simp [hsafe])]

end Sys2Proof.Machine
end

section

-- One declaration after another: elaborated side by side, they take more threads than the check allows.
set_option Elab.async false

/-! The power and fault commands (R354, R367, R373, R376, R379, R381, R387). -/

namespace Sys2Proof.Machine

open Sys2Proof (Instr CmdHdr Ref)

/-! ## Words and their fields -/

/-- A number without the bits that it shares with another. -/
theorem testBit_sub_and (a m i : Nat) : (a - (a &&& m)).testBit i = (a.testBit i && !m.testBit i) := by
  induction i generalizing a m with
  | zero =>
    have hle := Nat.and_le_left (n := a) (m := m)
    have hmod : (a &&& m) % 2 = 1 ↔ a % 2 = 1 ∧ m % 2 = 1 := Nat.and_mod_two_eq_one
    rw [Bool.eq_iff_iff]
    simp only [Nat.testBit_zero, Bool.and_eq_true, Bool.not_eq_true', decide_eq_true_eq, decide_eq_false_iff_not]
    omega
  | succ i ih =>
    have hle := Nat.and_le_left (n := a) (m := m)
    have hdiv : (a &&& m) / 2 = a / 2 &&& m / 2 := Nat.and_div_two
    have hmod : (a &&& m) % 2 ≤ a % 2 := by
      rw [← Nat.and_one_is_mod, ← Nat.and_one_is_mod, Nat.and_assoc, Nat.and_comm m 1, ← Nat.and_assoc]
      exact Nat.and_le_left
    have hhalf : (a - (a &&& m)) / 2 = a / 2 - (a / 2 &&& m / 2) := by rw [← hdiv]; omega
    rw [Nat.testBit_add_one, Nat.testBit_add_one, Nat.testBit_add_one, hhalf, ih]

/-- A word as its bits above a field, the field and the bits below it. -/
theorem setField_eq (w lo k v : Nat) (hk : 0 < k) :
    setField w lo k v = w / 2 ^ (lo + k) * 2 ^ (lo + k) + v % 2 ^ k * 2 ^ lo + w % 2 ^ lo := by
  have hbits : bits w (lo + k - 1) lo = w / 2 ^ lo % 2 ^ k := by
    rw [bits, Nat.shiftRight_eq_div_pow, show lo + k - 1 + 1 - lo = k by omega]
  have hpow : (2 : Nat) ^ (lo + k) = 2 ^ lo * 2 ^ k := Nat.pow_add 2 lo k
  have hlow := Nat.div_add_mod w (2 ^ lo)
  have hhigh := Nat.div_add_mod (w / 2 ^ lo) (2 ^ k)
  have hdiv : w / 2 ^ (lo + k) = w / 2 ^ lo / 2 ^ k := by rw [hpow, Nat.div_div_eq_div_mul]
  have hw : w = w / 2 ^ (lo + k) * 2 ^ (lo + k) + w / 2 ^ lo % 2 ^ k * 2 ^ lo + w % 2 ^ lo := by
    calc w = 2 ^ lo * (w / 2 ^ lo) + w % 2 ^ lo := hlow.symm
      _ = 2 ^ lo * (2 ^ k * (w / 2 ^ lo / 2 ^ k) + w / 2 ^ lo % 2 ^ k) + w % 2 ^ lo := by rw [hhigh]
      _ = _ := by rw [hdiv, hpow]; ring
  rw [setField, hbits]
  omega

theorem bits_eq_div_mod (w lo k : Nat) (hk : 0 < k) : bits w (lo + k - 1) lo = w / 2 ^ lo % 2 ^ k := by
  rw [bits, Nat.shiftRight_eq_div_pow, show lo + k - 1 + 1 - lo = k by omega]

/-- The field that is set reads what was stored. -/
theorem bits_setField_same (w lo k v : Nat) (hk : 0 < k) : bits (setField w lo k v) (lo + k - 1) lo = v % 2 ^ k := by
  rw [bits_eq_div_mod _ _ _ hk, setField_eq _ _ _ _ hk, Nat.pow_add]
  have hsplit : w / (2 ^ lo * 2 ^ k) * (2 ^ lo * 2 ^ k) + v % 2 ^ k * 2 ^ lo + w % 2 ^ lo =
      w % 2 ^ lo + 2 ^ lo * (w / (2 ^ lo * 2 ^ k) * 2 ^ k + v % 2 ^ k) := by ring
  rw [hsplit, Nat.add_mul_div_left _ _ (by positivity), Nat.div_eq_of_lt (Nat.mod_lt _ (by positivity)), Nat.zero_add,
    Nat.mul_add_mod_self_right, Nat.mod_mod]

/-- A field that is set leaves the others. -/
theorem bits_setField_other {w lo k v lo' k' : Nat} (hk : 0 < k) (hk' : 0 < k') (h : lo' + k' ≤ lo ∨ lo + k ≤ lo') :
    bits (setField w lo k v) (lo' + k' - 1) lo' = bits w (lo' + k' - 1) lo' := by
  rw [bits_eq_div_mod _ _ _ hk', bits_eq_div_mod _ _ _ hk', setField_eq _ _ _ _ hk]
  rcases h with h | h
  · have hlow : (w / 2 ^ (lo + k) * 2 ^ (lo + k) + v % 2 ^ k * 2 ^ lo + w % 2 ^ lo) % 2 ^ lo = w % 2 ^ lo := by
      rw [Nat.pow_add, show w / (2 ^ lo * 2 ^ k) * (2 ^ lo * 2 ^ k) + v % 2 ^ k * 2 ^ lo + w % 2 ^ lo =
        w % 2 ^ lo + 2 ^ lo * (w / (2 ^ lo * 2 ^ k) * 2 ^ k + v % 2 ^ k) by ring, Nat.add_mul_mod_self_left, Nat.mod_mod]
    have hfield : ∀ n, n / 2 ^ lo' % 2 ^ k' = n % 2 ^ lo % 2 ^ (lo' + k') / 2 ^ lo' := fun n => by
      rw [Nat.mod_mod_of_dvd _ (Nat.pow_dvd_pow 2 h), Nat.pow_add, Nat.mod_mul_right_div_self]
    rw [hfield, hfield w, hlow]
  · have hhigh : (w / 2 ^ (lo + k) * 2 ^ (lo + k) + v % 2 ^ k * 2 ^ lo + w % 2 ^ lo) / 2 ^ (lo + k) = w / 2 ^ (lo + k) := by
      have hlt : v % 2 ^ k * 2 ^ lo + w % 2 ^ lo < 2 ^ (lo + k) := by
        have hv := Nat.mod_lt v (show 0 < 2 ^ k by positivity)
        have hw := Nat.mod_lt w (show 0 < 2 ^ lo by positivity)
        calc v % 2 ^ k * 2 ^ lo + w % 2 ^ lo < v % 2 ^ k * 2 ^ lo + 2 ^ lo := by omega
          _ = (v % 2 ^ k + 1) * 2 ^ lo := by ring
          _ ≤ 2 ^ k * 2 ^ lo := Nat.mul_le_mul_right _ hv
          _ = 2 ^ (lo + k) := by rw [Nat.pow_add, Nat.mul_comm]
      rw [Nat.add_assoc, Nat.mul_comm, Nat.mul_add_div (by positivity), Nat.div_eq_of_lt hlt, Nat.add_zero]
    have hpow : (2 : Nat) ^ lo' = 2 ^ (lo + k) * 2 ^ (lo' - (lo + k)) := by rw [← Nat.pow_add]; congr 1; omega
    rw [hpow, ← Nat.div_div_eq_div_mul, hhigh, Nat.div_div_eq_div_mul]

/-! ## Phases -/

theorem State.targetPoint_congr {s t : State} {k : Nat} (hp : (t.tilePwr k).phase = (s.tilePwr k).phase)
    (hr : (t.tilePwr k).raised = (s.tilePwr k).raised) (ht : (t.tilePwr k).thermal = (s.tilePwr k).thermal)
    (hregs : t.regs = s.regs) : t.targetPoint k = s.targetPoint k := by
  have hcfg : ∀ r i lo n, t.cfg r i lo n = s.cfg r i lo n := fun r i lo n => by rw [State.cfg, State.cfg, State.reg, State.reg, hregs]
  simp only [State.targetPoint, State.phasePoint, hp, hr, ht, hcfg]

/-- A tile whose target follows its demand. -/
theorem State.retarget_target (s : State) (k : Nat) : ((s.retarget k).tilePwr k).phase = (s.tilePwr k).phase ∧
    ((s.retarget k).tilePwr k).target = (s.retarget k).targetPoint k := by
  unfold State.retarget
  dsimp only
  split
  next h => exact ⟨rfl, h.symm⟩
  next =>
    rw [State.tilePwr_setTilePwr]
    refine ⟨rfl, ?_⟩
    show s.targetPoint k = _
    symm
    refine State.targetPoint_congr ?_ ?_ ?_ rfl <;> rw [State.tilePwr_setTilePwr]

theorem State.retarget_ne (s : State) {k j : Nat} (h : j ≠ k) : (s.retarget k).tilePwr j = s.tilePwr j := by
  unfold State.retarget
  dsimp only
  split
  · rfl
  · exact State.tilePwr_setTilePwr_ne _ _ h

/-- A tile in a phase that its target follows. -/
def State.phased (s : State) (p k : Nat) : Prop := (s.tilePwr k).phase = p ∧ (s.tilePwr k).target = s.targetPoint k

/-- One tile's phase set. -/
def State.setTilePhase (p : Nat) (s : State) (k : Nat) : State := (s.setTilePwr k fun q => { q with phase := p }).retarget k

theorem State.setTilePhase_keepsBut (p : Nat) (s : State) (k : Nat) : s.keepsBut [.pwr] (s.setTilePhase p k) :=
  State.keepsBut_then (State.retarget_keepsBut _ k) (State.setTilePwr_keepsBut s k _) rfl

theorem State.setTilePhase_same (p : Nat) (s : State) (k : Nat) : (s.setTilePhase p k).phased p k := by
  obtain ⟨hphase, htarget⟩ := (s.setTilePwr k fun q => { q with phase := p }).retarget_target k
  rw [State.tilePwr_setTilePwr] at hphase
  exact ⟨hphase, htarget⟩

theorem State.setTilePhase_ne (p : Nat) (s : State) {k j : Nat} (h : j ≠ k) : (s.setTilePhase p k).tilePwr j = s.tilePwr j := by
  rw [State.setTilePhase, State.retarget_ne _ h, State.tilePwr_setTilePwr_ne _ _ h]

theorem State.setTilePhases_phased (p k : Nat) (l : List Nat) (s : State) (h : k ∈ l ∨ s.phased p k) :
    (l.foldl (State.setTilePhase p) s).phased p k := by
  induction l generalizing s with
  | nil => exact h.resolve_left List.not_mem_nil
  | cons j l ih =>
    refine ih _ ?_
    by_cases hkj : k = j
    · exact .inr (hkj ▸ State.setTilePhase_same p s k)
    · refine h.imp (fun hmem => (List.mem_cons.1 hmem).resolve_left hkj) fun hph => ?_
      have htile := State.setTilePhase_ne p s hkj
      have hregs := State.keepsBut_regs (State.setTilePhase_keepsBut p s j)
      exact ⟨htile ▸ hph.1, by rw [State.targetPoint_congr (s := s) (by rw [htile]) (by rw [htile]) (by rw [htile]) hregs, htile, hph.2]⟩

theorem State.setTilePhases_ne (p k : Nat) (l : List Nat) (s : State) (h : k ∉ l) :
    (l.foldl (State.setTilePhase p) s).tilePwr k = s.tilePwr k := by
  induction l generalizing s with
  | nil => rfl
  | cons j l ih =>
    rw [List.foldl_cons, ih _ fun hk => h (List.mem_cons_of_mem j hk)]
    exact State.setTilePhase_ne p s fun hkj => h (hkj ▸ List.mem_cons_self)

/-! ## Levels -/

/-- The level of a class that is set, and those of the others. -/
theorem State.levelSet_levels {s : State} {c l : Nat} (hc : c < 28) (hl : l ≤ 5) : (s.levelSet c l).faultLevel c = l ∧
    ∀ d, d < 28 → d ≠ c → (s.levelSet c l).faultLevel d = s.faultLevel d := by
  have hkey : Reg.fltSeverity0.key 0 ≠ Reg.fltSeverity1.key 0 := by decide
  have hmod : l % 2 ^ 3 = l := Nat.mod_eq_of_lt (by omega)
  have hsame : ∀ w lo, bits (setField w lo 3 l) (lo + 3 - 1) lo = l := fun w lo => by
    rw [bits_setField_same _ _ _ _ (by decide), hmod]
  have hother : ∀ w lo lo', lo' + 3 ≤ lo ∨ lo + 3 ≤ lo' → bits (setField w lo 3 l) (lo' + 3 - 1) lo' = bits w (lo' + 3 - 1) lo' :=
    fun w lo lo' h => bits_setField_other (by decide) (by decide) h
  unfold State.levelSet
  split
  next hlow =>
    refine ⟨?_, fun d hd hne => ?_⟩
    · rw [State.faultLevel, if_pos hlow, State.cfg, State.reg_setReg, hsame]
    · simp only [State.faultLevel, State.cfg]
      split
      · rw [State.reg_setReg, hother _ _ _ (by omega)]
      · rw [State.reg_setReg_ne _ _ hkey.symm]
  next hhigh =>
    refine ⟨?_, fun d hd hne => ?_⟩
    · rw [State.faultLevel, if_neg hhigh, State.cfg, State.reg_setReg, hsame]
    · simp only [State.faultLevel, State.cfg]
      split
      · rw [State.reg_setReg_ne _ _ hkey]
      · rw [State.reg_setReg, hother _ _ _ (by omega)]

/-! ## The commands -/

theorem State.withCommand_injectRefusal (s : State) (c : Instr) (h : CmdHdr) (n : Nat) :
    (s.withCommand c h).injectRefusal n = s.injectRefusal n := by
  rw [State.withCommand_eq]; rfl

theorem State.withCommand_faultLevel (s : State) (c : Instr) (h : CmdHdr) (n : Nat) :
    (s.withCommand c h).faultLevel n = s.faultLevel n := by
  simp only [State.faultLevel, State.withCommand_cfg]

/-- A class bit that is cleared by a mask. -/
theorem bit_clearMask (w m c : Nat) : bit (w - (w &&& m % 2 ^ 28)) c = (bit w c && !(decide (c < 28) && bit m c)) := by
  rw [bit, testBit_sub_and, Nat.testBit_mod_two_pow]
  rfl

theorem bit_mask_iff (m c : Nat) : bit (m % 2 ^ 28) c = true ↔ c < 28 ∧ bit m c = true := by
  rw [bit, Nat.testBit_mod_two_pow, Bool.and_eq_true, decide_eq_true_eq]
  rfl

/-- Settles O59: the phase of a tile that the mask names is the one declared; one class's level is set and no other's; the
class bits of a mask are cleared, with the captures of those classes. -/
theorem powerAndFaultCommands : Obligations.PowerAndFaultCommands := by
  unfold Obligations.PowerAndFaultCommands
  intro s h
  refine ⟨fun p m ht => ?_, fun w ht => ?_, fun c l ht => ⟨fun hbad => ?_, fun hok => ?_⟩,
    fun c ht => ⟨fun hbad => ?_, fun hok => ?_⟩, fun m ht => ?_⟩
  · refine ends_of_run rfl ht (u := (bitMembers 8 m).foldl (State.setTilePhase p) (s.withCommand (.pwrPhase h p m) h)) rfl
      (State.keepsBut_foldl (State.setTilePhase_keepsBut p) (State.keepsBut_refl _ _)) fun t => ⟨fun hlt hbit => ?_, fun hnot => ?_⟩
    · exact State.setTilePhases_phased p t _ _ (.inl (List.mem_filter.2 ⟨List.mem_range.2 hlt, hbit⟩))
    · rw [State.setTilePhases_ne, State.withCommand_tilePwr]
      intro hmem
      obtain ⟨hlt, hbit⟩ := List.mem_filter.1 hmem
      rcases hnot with hnot | hnot
      · exact absurd (List.mem_range.1 hlt) (by omega)
      · exact absurd (hnot.symm.trans hbit) (by decide)
  · refine ends_of_run rfl ht (u := (s.withCommand (.pwrCap h w) h).setReg .pwrCap 0 w) rfl (State.setReg_keepsBut _ _ _ _)
      ⟨State.reg_setReg _ _ _ _, fun r i hne => ?_⟩
    rw [State.reg_setReg_ne _ _ hne, State.withCommand_reg]
  · refine refuses_of_run rfl ht (?_ : State.setSeverity _ c l = _)
    rw [State.setSeverity, hbad]
    rfl
  · have hrange := hok
    simp only [levelOk, Bool.and_eq_true, decide_eq_true_eq] at hrange
    obtain ⟨⟨hc, -⟩, hl⟩ := hrange
    obtain ⟨hlevel, hothers⟩ := State.levelSet_levels (s := s.withCommand (.fltSeverity h c l) h) hc hl
    refine ends_of_run rfl ht (u := (s.withCommand (.fltSeverity h c l) h).levelSet c l) (?_ : State.setSeverity _ c l = _)
      (State.levelSet_keepsBut _ _ _) ⟨hlevel, fun d hd hne => ?_⟩
    · rw [State.setSeverity, if_pos hok]
      rfl
    · rw [hothers d hd hne, State.withCommand_faultLevel]
  · have href : s.injectRefusal c = some Status.descInvalid := by
      simp only [State.injectRefusal]
      by_cases h1 : 128 ≤ c ∨ (!injectable.contains (c % 64)) = true
      · rw [if_pos h1]
      · rw [if_neg h1, if_pos]
        simp only [Bool.and_eq_true, Bool.or_eq_true, beq_iff_eq]
        simp only [Bool.not_eq_true', ← Bool.not_eq_true, List.contains_iff_mem] at h1
        tauto
    refine refuses_of_run rfl ht (?_ : State.hostInject _ c = _)
    simp only [State.hostInject, State.withCommand_injectRefusal, href]
    rfl
  · refine ⟨(s.withCommand (.fltInject h c) h).setInjection c, if s.cfg .fltInjectTarget 0 0 16 = 0xFFFF then
        unitName (c % 64) (s.flt.rotation.getD (c % 64) 0 % unitCount (c % 64)) else s.cfg .fltInjectTarget 0 0 16,
      waits_of_run rfl ht (?_ : State.hostInject _ c = _), State.setFlt_keepsBut _ _, ?_, fun hne => if_neg hne, fun heq => if_pos heq⟩
    · simp only [State.hostInject, State.withCommand_injectRefusal, hok]
    · rw [← State.withCommand_cfg s (.fltInject h c) h, ← State.withCommand_flt s (.fltInject h c) h]
      rfl
  · refine ends_of_run rfl ht (u := (s.withCommand (.fltClear h m) h).clearFaults m) rfl (State.setFlt_keepsBut _ _)
      ⟨fun c => ?_, fun c hc => ?_, fun k hk => ?_, fun k hk hnot => ?_⟩
    · rw [← State.withCommand_flt s (.fltClear h m) h]
      exact bit_clearMask _ m c
    · obtain ⟨-, hbit⟩ := Option.filter_eq_some_iff.1 hc
      rw [← bit_mask_iff]
      simpa using hbit
    · obtain ⟨-, hbit⟩ := List.mem_filter.1 hk
      rw [← bit_mask_iff]
      simpa using hbit
    · rw [← bit_mask_iff] at hnot
      refine List.mem_filter.2 ⟨by rwa [State.withCommand_flt], by simpa using hnot⟩

end Sys2Proof.Machine
end

section

-- One declaration after another: elaborated side by side, they take more threads than the check allows.
set_option Elab.async false

/-! The management commands: images, attestation and the log (R404–R406, R408, R410). -/

namespace Sys2Proof.Machine

open Sys2Proof (Instr CmdHdr Ref)

/-- A command that ends with output completes as the write of its output does (R309). -/
theorem completes_of_done {s u : State} {c : Instr} {h : CmdHdr} {code : Nat} {r : Ref} {bytes : List Byte}
    (hc : cmdOf c = some (code, h)) (ht : s.takesNow c h = true)
    (hr : (s.withCommand c h).runCmd c h = (.done Status.ok 0 [] (some (r, bytes)), u)) :
    Completes s c h (u.writeRef c h r bytes).2 (if (u.writeRef c h r bytes).1 = true then Status.ok else u.refStatus r bytes.length) := by
  unfold Completes
  rw [exec_takesNow hc ht, perform_takesNow ht, hr]
  dsimp only
  cases u.writeRef c h r bytes with
  | mk ok v => cases ok <;> rfl

/-! ## Slots -/

theorem State.slot_setSlot (s : State) {k : Nat} (f : SlotSt → SlotSt) : (s.setSlot k f).slot k = f (s.slot k) := by
  simp only [State.slot, State.setSlot, State.setMgt]
  split <;> rfl

/-- The other slot is left. -/
theorem State.slot_setSlot_ne (s : State) {j k : Nat} (h : (j = 0) ≠ (k = 0)) (f : SlotSt → SlotSt) :
    (s.setSlot k f).slot j = s.slot j := by
  simp only [State.slot, State.setSlot, State.setMgt]
  by_cases hk : k = 0
  · rw [if_pos hk, if_neg (by simpa [hk] using h)]
    simp [show ¬ j = 0 by simpa [hk] using h]
  · have hj : j = 0 := by simpa [hk] using h
    simp [hj, hk]

theorem otherSlot_ne {k : Nat} (hk : k ≤ 1) : (otherSlot k = 0) ≠ (k = 0) := by
  rw [otherSlot]
  intro heq
  have : (1 - k = 0) ↔ k = 0 := iff_of_eq heq
  omega

theorem State.slot_congr {s t : State} (ha : t.mgt.slotA = s.mgt.slotA) (hb : t.mgt.slotB = s.mgt.slotB) (k : Nat) :
    t.slot k = s.slot k := by
  rw [State.slot, State.slot, ha, hb]

/-- A write of an image: the session goes on behind it, and the other slot is left (R404). -/
theorem State.imageWrite_written (s : State) (path : Path) {k : Nat} (hk : k ≤ 1) (off : Nat) (data : List Byte) :
    ((s.imageWrite path k off data).slot k).bytes = some (s.slotAfter k off data) ∧
    (s.imageWrite path k off data).mgt.session = some ⟨k, path, off + data.length⟩ ∧
    (off = 0 → ((s.imageWrite path k off data).slot k).mark = 3) ∧
    (s.imageWrite path k off data).slot (otherSlot k) = s.slot (otherSlot k) := by
  have hslot : ∀ j, (s.imageWrite path k off data).slot j = (s.setSlot k fun x => { x with
      mark := if off = 0 then 3 else x.mark, pending := if off = 0 then false else x.pending,
      bytes := some (s.slotAfter k off data) }).slot j := fun j => State.slot_congr rfl rfl j
  refine ⟨?_, rfl, fun hoff => ?_, ?_⟩
  · rw [hslot, State.slot_setSlot]
  · rw [hslot, State.slot_setSlot]
    exact if_pos hoff
  · rw [hslot, State.slot_setSlot_ne _ (otherSlot_ne hk)]

/-! ## Activation -/

/-- The running slot, and a session on another path, as the management commands look at them. -/
theorem State.imageActivate_running {s : State} {k : Nat} (hk : k ≤ 1) (hphase : 2 ≤ s.boot.phase)
    (hfail : ¬(s.boot.phase = 15 ∧ s.boot.failReason = 1)) (hslot : s.boot.slot = k) (path : Path) :
    s.imageActivate path k = (Status.ok, s) := by
  have hrun : (decide (2 ≤ s.boot.phase) && !(s.boot.phase == 15 && s.boot.failReason == 1) && s.boot.slot == k) = true := by
    simp only [Bool.and_eq_true, decide_eq_true_eq, Bool.not_eq_true', beq_iff_eq]
    refine ⟨⟨hphase, ?_⟩, hslot⟩
    rw [← Bool.not_eq_true, Bool.and_eq_true, beq_iff_eq, beq_iff_eq]
    exact hfail
  simp only [State.imageActivate, hrun, if_neg (Nat.not_lt.2 hk), if_true]

section

variable {s : State} {k : Nat} (hk : k ≤ 1) (hnot : s.boot.slot ≠ k ∨ s.boot.phase = 15 ∧ s.boot.failReason = 1) (path : Path)

include hnot in
theorem State.slot_notRunning :
    (decide (2 ≤ s.boot.phase) && !(s.boot.phase == 15 && s.boot.failReason == 1) && s.boot.slot == k) = false := by
  rcases hnot with hslot | ⟨hphase, hfail⟩
  · simp [hslot]
  · simp [hphase, hfail]

include hk hnot

theorem State.imageActivate_held {x : Session} (hx : s.mgt.session = some x) (hslot : x.slot = k) (hpath : x.path ≠ path) :
    s.imageActivate path k = (Status.opBusy, s) := by
  have hheld : (x.slot == k && x.path != path) = true := by simp [hslot, hpath]
  simp only [State.imageActivate, State.slot_notRunning hnot, if_neg (Nat.not_lt.2 hk), hx, hheld, if_true]
  rfl

/-- An image that is checked: its marks where it passes, a count where it does not (R406). -/
theorem State.imageActivate_checked (hfree : ∀ x, s.mgt.session = some x → x.slot = k → x.path = path) :
    ∃ u, s.imageActivate path k = (s.imageCheck (s.slotBytes k), u) ∧
      if s.imageCheck (s.slotBytes k) = Status.ok then
        (u.slot k).mark = 0 ∧ (u.slot k).pending = true ∧ (u.slot (otherSlot k)).mark = 1 ∧
          (u.slot (otherSlot k)).pending = false ∧ (u.slot k).bytes = (s.slot k).bytes
      else u.reg .mgtImageRefused = s.countedUp .mgtImageRefused 0 ∧ ∀ j, u.slot j = s.slot j := by
  simp only [State.imageActivate, State.slot_notRunning hnot, if_neg (Nat.not_lt.2 hk)]
  rw [if_neg (by decide), if_neg ?held]
  case held =>
    cases hx : s.mgt.session with
    | none => simp
    | some x => simpa using hfree x hx
  generalize hs1 : (s.setMgt fun m => { m with session := match m.session with
      | some x => if x.slot = k then none else some x
      | none => none }) = s1
  have hslots : ∀ j, s1.slot j = s.slot j := fun j => State.slot_congr (by rw [← hs1]; rfl) (by rw [← hs1]; rfl) j
  have hregs : s1.regs = s.regs := by rw [← hs1]; rfl
  by_cases hok : s.imageCheck (s.slotBytes k) = Status.ok
  · simp only [if_pos hok]
    have hother := otherSlot_ne hk
    refine ⟨_, rfl, ?_⟩
    rw [State.slot_setSlot, State.slot_setSlot_ne _ hother.symm, State.slot_setSlot, hslots]
    exact ⟨rfl, rfl, rfl, rfl, rfl⟩
  · simp only [if_neg hok]
    refine ⟨_, rfl, ?_, fun j => ?_⟩
    · rw [State.event_reg (Reg.quiet_of_lt (by decide) (by decide)), State.reg_bump, State.countedUp, State.countedUp, State.reg, State.reg,
        hregs]
    · have hlogs := (s1.bump .mgtImageRefused).event_logs 2 0x0C 0x0013
        (leBytes 1 k ++ zeros 1 ++ leBytes 2 (s.imageCheck (s.slotBytes k))) 0 0
      rw [State.logsOnly] at hlogs
      rw [State.slot_congr (s := s1.bump .mgtImageRefused) (by rw [hlogs]) (by rw [hlogs]), ← hslots j]
      exact State.slot_congr rfl rfl j

end

/-! ## The commands -/

theorem State.withCommand_slot (s : State) (c : Instr) (h : CmdHdr) (k : Nat) : (s.withCommand c h).slot k = s.slot k := by
  simp only [State.slot, State.withCommand_mgt]

theorem State.withCommand_slotBytes (s : State) (c : Instr) (h : CmdHdr) (k : Nat) :
    (s.withCommand c h).slotBytes k = s.slotBytes k := by
  simp only [State.slotBytes, State.withCommand_slot]

theorem State.withCommand_slotAfter (s : State) (c : Instr) (h : CmdHdr) (k off : Nat) (data : List Byte) :
    (s.withCommand c h).slotAfter k off data = s.slotAfter k off data := by
  simp only [State.slotAfter, State.withCommand_slotBytes]

theorem State.withCommand_imageCheck (s : State) (c : Instr) (h : CmdHdr) (b : List Byte) :
    (s.withCommand c h).imageCheck b = s.imageCheck b := by
  rw [State.withCommand_eq]; rfl

theorem State.withCommand_imageWriteRefusal (s : State) (c : Instr) (h : CmdHdr) (p : Path) (k off n : Nat) :
    (s.withCommand c h).imageWriteRefusal p k off n = s.imageWriteRefusal p k off n := by
  simp only [State.imageWriteRefusal, State.withCommand_mgt, State.withCommand_boot]

theorem State.withCommand_refStatus (s : State) (c : Instr) (h : CmdHdr) (r : Ref) (n : Nat) :
    (s.withCommand c h).refStatus r n = s.refStatus r n := by
  rw [State.withCommand_eq]; rfl

/-- A slot that may be written is one of the two. -/
theorem State.slot_of_writable {s : State} {p : Path} {k off n : Nat} (h : s.imageWriteRefusal p k off n = none) : k ≤ 1 := by
  by_contra hk
  rw [State.imageWriteRefusal, if_pos (by omega)] at h
  contradiction

section

variable {s : State} {h : CmdHdr} {k off : Nat} {r : Ref} {data : List Byte}
  (ht : s.takesNow (.mgtImageWrite h k off r data) h = true) (hok : s.imageWriteRefusal h.path k off r.len = none)

include ht hok

/-- Bytes that are given in the command, or read through its reference, are written. -/
theorem mgtImageWrite_writes {bytes : List Byte} (hbytes : (if r.key = 0 ∧ r.addr = 0 ∧ r.len ≤ 24 then some (padTo r.len data)
    else (s.withCommand (.mgtImageWrite h k off r data) h).readRef (.mgtImageWrite h k off r data) h r r.len) = some bytes) :
    Ends s (.mgtImageWrite h k off r data) h [] [.mgt] fun u =>
      (u.slot k).bytes = some (s.slotAfter k off bytes) ∧ u.mgt.session = some ⟨k, h.path, off + bytes.length⟩ ∧
      (off = 0 → (u.slot k).mark = 3) ∧ u.slot (otherSlot k) = s.slot (otherSlot k) := by
  have hwritten := (s.withCommand (.mgtImageWrite h k off r data) h).imageWrite_written h.path (State.slot_of_writable hok) off bytes
  rw [State.withCommand_slotAfter, State.withCommand_slot] at hwritten
  refine ends_of_run rfl ht (?_ : State.mgtImageWrite _ _ h k off r data = _) (State.imageWrite_keepsBut _ _ _ _ _) hwritten
  simp only [State.mgtImageWrite, State.withCommand_imageWriteRefusal, hok]
  split at hbytes
  next hin => rw [if_pos hin, Option.some.inj hbytes]; rfl
  next hout => rw [if_neg hout, hbytes]; rfl

/-- A reference that cannot be read is reported. -/
theorem mgtImageWrite_unread (hout : ¬(r.key = 0 ∧ r.addr = 0 ∧ r.len ≤ 24))
    (hread : (s.withCommand (.mgtImageWrite h k off r data) h).readRef (.mgtImageWrite h k off r data) h r r.len = none) :
    Completes s (.mgtImageWrite h k off r data) h ((s.withCommand (.mgtImageWrite h k off r data) h).refReport r r.len 1)
      (s.refStatus r r.len) := by
  refine completes_of_run rfl ht (?_ : State.mgtImageWrite _ _ h k off r data = _)
  simp only [State.mgtImageWrite, State.withCommand_imageWriteRefusal, hok, if_neg hout, hread, State.withCommand_refStatus]
  rfl

end

theorem State.mgtAttest_short {s : State} {n : List Byte} {r : Ref} (h : r.len < (s.attestation n).length) :
    s.mgtAttest n r = denied s Status.descInvalid := by
  rw [State.mgtAttest]
  exact if_pos h

theorem State.mgtAttest_fits {s : State} {n : List Byte} {r : Ref} (h : (s.attestation n).length ≤ r.len) :
    s.mgtAttest n r = reports (s.stamped.bump .mgtAttests) r (s.attestation n) := by
  simp only [State.mgtAttest, reports, if_neg (Nat.not_lt.2 h)]

theorem State.runCmd_mgtAttest (s : State) (h g : CmdHdr) (n : List Byte) (r : Ref) :
    s.runCmd (.mgtAttest h n r) g = s.mgtAttest n r := rfl

/-- Settles O60: an image is written at the session's pointer and the other slot left; an activated slot is marked where it
passes the checks; a report and the log are returned where they have room. -/
theorem managementCommands : Obligations.ManagementCommands := by
  unfold Obligations.ManagementCommands
  intro s h
  refine ⟨fun k off r data ht => ⟨fun st hst => ?_, fun bytes hok hbytes => mgtImageWrite_writes ht hok hbytes,
      fun hok hout hread => mgtImageWrite_unread ht hok hout hread⟩,
    fun k ht hk => ⟨fun hphase hfail hslot => ?_, fun hnot => ⟨fun x hx hslot hpath => ?_, fun hfree => ?_⟩⟩,
    fun n r ht => ⟨fun hlt => ?_, fun hle => ?_⟩, fun a n r ht => ⟨fun hlt => ?_, fun hle => ?_⟩⟩
  · refine refuses_of_run rfl ht (?_ : State.mgtImageWrite _ _ h k off r data = _)
    simp only [State.mgtImageWrite, State.withCommand_imageWriteRefusal, hst]
    rfl
  · refine ends_of_run rfl ht (?_ : Machine.ended (State.imageActivate _ h.path k) = _) (State.keepsBut_refl _ _) trivial
    rw [State.imageActivate_running hk (by rwa [State.withCommand_boot]) (by rwa [State.withCommand_boot])
      (by rwa [State.withCommand_boot])]
    rfl
  · refine refuses_of_run rfl ht (?_ : Machine.ended (State.imageActivate _ h.path k) = _)
    rw [State.imageActivate_held hk (by rwa [State.withCommand_boot]) h.path (by rwa [State.withCommand_mgt]) hslot hpath]
    rfl
  · obtain ⟨u, hu, hleft⟩ := State.imageActivate_checked (s := s.withCommand (.mgtImageActivate h k) h) hk
      (by rwa [State.withCommand_boot]) h.path (by rwa [State.withCommand_mgt])
    rw [State.withCommand_slotBytes, State.withCommand_imageCheck] at hu hleft
    simp only [State.withCommand_slot, State.countedUp, State.withCommand_reg] at hleft
    exact ⟨u, completes_of_run rfl ht (congrArg Machine.ended hu), hleft⟩
  · exact refuses_of_run rfl ht ((State.runCmd_mgtAttest _ h h n r).trans (State.mgtAttest_short hlt))
  · exact reports_of_run rfl ht ((State.runCmd_mgtAttest _ h h n r).trans (State.mgtAttest_fits hle))
  · refine refuses_of_run rfl ht (?_ : State.mgtLogRead _ a n r = _)
    simp only [State.mgtLogRead, if_pos hlt]
    rfl
  · rw [← State.withCommand_refStatus s (.mgtLogRead h a n r) h]
    refine completes_of_done rfl ht (?_ : State.mgtLogRead _ a n r = _)
    simp only [State.mgtLogRead, if_neg (Nat.not_lt.2 hle)]

end Sys2Proof.Machine
end

section

-- One declaration after another: elaborated side by side, they take more threads than the check allows.
set_option Elab.async false

/-! Mailbox commands, and the cancelling of a command that an effective tick holds (R304, R305, R310, R313, R314, R318). -/

namespace Sys2Proof.Machine

open Sys2Proof (Instr CmdHdr Ref Path)

/-! ## Binding -/

/-- A completion into the ring of a bound mailbox leaves the module and is counted. -/
theorem State.deliver_bound {s : State} {m : Nat} (hm : (s.mbox m).qp.isSome = true) (d : HeldDone) :
    s.deliver (.mailbox m) d =
      (s.emit (.completion (.mailbox m) d.number d.code d.status d.detail d.stamp d.result)).bump .mgtMboxCommands :=
  if_pos hm

/-- The completions that were held leave a bound mailbox: no mailbox changes. -/
theorem State.deliverHeld_bound {m : Nat} (l : List HeldDone) {s : State} (hm : (s.mbox m).qp.isSome = true) :
    s.keepsBut [.out, .regs] (l.foldl (fun s d => s.deliver (.mailbox m) d) s) := by
  induction l generalizing s with
  | nil => exact State.keepsBut_refl _ s
  | cons d l ih =>
    rw [List.foldl_cons, State.deliver_bound hm]
    exact State.keepsBut_trans (State.keepsBut_then (State.bump_keepsBut _ _ _ _)
      (State.keepsBut_then (State.emit_keepsBut s _) (State.keepsBut_refl _ s) rfl) rfl) (ih (by exact hm))

/-- The parameters that BIND gives a mailbox. -/
def MboxSt.boundTo (b : MboxSt) (prio events qp dataQp : Nat) (ring : Ref) (k1 k2 : Nat) : MboxSt :=
  { b with
    qp := some qp, dataQp := dataQp, priority := prio, events := events == 1, ring := ring, ringKey := k1, doorKey := k2
    p := (if b.everBound then b.p else 0), everBound := true, held := [] }

/-- BIND of a mailbox without a queue pair to one that is open (R310). -/
theorem State.mboxBind_bound {s : State} {h : CmdHdr} {m prio ev qp dq : Nat} {ring : Ref}
    (hq : (s.host.qps.get? qp).isSome = true) (hd : dq = 0 ∨ (s.host.qps.get? dq).isSome = true) (hm : (s.mbox m).qp = none) :
    ∃ k1 k2 u, s.mboxBind h m prio ev qp dq ring =
        (.done Status.ok 0 (packValues [(4, (Config.freeWord k1).toNat), (4, (Config.freeWord k2).toNat)]), u) ∧
      s.keepsBut [.host, .fresh, .out, .regs] u ∧ u.mbox m = (s.mbox m).boundTo prio ev qp dq ring k1 k2 ∧
      ∀ n, n ≠ m → u.mbox n = s.mbox n := by
  have hopen : (!(s.host.qps.get? qp).isSome || (dq != 0 && !(s.host.qps.get? dq).isSome)) = false := by
    rcases hd with hd | hd <;> simp [hq, hd]
  have hfree : (s.mbox m).qp.isSome = false := by rw [hm]; rfl
  generalize hb : (s.draw.2.draw.2.setMbox m fun b => b.boundTo prio ev qp dq ring s.draw.1 s.draw.2.draw.1) = b
  have hbound : b.mbox m = (s.mbox m).boundTo prio ev qp dq ring s.draw.1 s.draw.2.draw.1 := by
    rw [← hb, State.mbox_setMbox]; rfl
  have hothers : ∀ n, n ≠ m → b.mbox n = s.mbox n := fun n hn => by
    rw [← hb, State.mbox_setMbox_ne _ _ hn]; rfl
  have hdeliver := State.deliverHeld_bound (s.mbox m).held (s := b) (m := m) (by rw [hbound]; rfl)
  have hmbox : ∀ n, ((s.mbox m).held.foldl (fun s d => s.deliver (.mailbox m) d) b).mbox n = b.mbox n := fun n => by
    rw [State.mbox, State.keepsBut_host hdeliver (by decide)]; rfl
  refine ⟨s.draw.1, s.draw.2.draw.1, (s.mbox m).held.foldl (fun s d => s.deliver (.mailbox m) d) b, ?_, ?_,
    (hmbox m).trans hbound, fun n hn => (hmbox n).trans (hothers n hn)⟩
  · rw [← hb]
    simp only [State.mboxBind, hopen, hfree, Bool.false_and, Bool.false_eq_true, if_false]
    rfl
  · rw [← hb] at hdeliver ⊢
    exact State.keepsBut_then hdeliver (State.keepsBut_then (State.setMbox_keepsBut _ m _)
      (State.keepsBut_with_fresh _ (State.keepsBut_with_fresh _ (State.keepsBut_refl _ s) rfl) rfl) rfl) rfl

/-! ## A held command, and the command that cancels it -/

/-- A completion of a mailbox's command: its context is free, nothing but the mailboxes, the counters and the moment has
changed, and the completion of a bound mailbox leaves the module. -/
theorem State.complete_mailbox (s : State) {x : Ctx} {m status : Nat} (hx : x.hdr.path = .mailbox m)
    (hs : status ≠ Status.badSlot) (result : List Byte) :
    s.keepsBut [.fresh, .regs, .host, .out] (s.complete x status 0 result) ∧
    (s.complete x status 0 result).host.ctxs = s.host.ctxs.filter (fun y => y.id != x.id) ∧
    (∀ k, ((s.complete x status 0 result).mbox k).qp = (s.mbox k).qp) ∧
    ∃ os, (s.complete x status 0 result).out = os ++ s.out ∧ ((s.mbox m).qp.isSome = true →
      Out.completion x.hdr.path x.hdr.number x.code status 0 s.stamp (if carriesValues status then result else []) ∈ os) := by
  have hmbox : ∀ k, (s.stamped.setHost fun h => { h with ctxs := h.ctxs.filter fun y => y.id != x.id }).mbox k = s.mbox k :=
    fun _ => rfl
  simp only [State.complete, if_neg hs, hx, State.deliver, hmbox]
  have hstart : s.keepsBut [.fresh, .regs, .host, .out]
      (s.stamped.setHost fun h => { h with ctxs := h.ctxs.filter fun y => y.id != x.id }) :=
    State.keepsBut_then (State.setHost_keepsBut _ _)
      (State.keepsBut_then (State.stamped_keepsBut s) (State.keepsBut_refl _ s) rfl) rfl
  split
  next hb =>
    exact ⟨State.keepsBut_then (State.bump_keepsBut _ _ _ _) (State.keepsBut_then (State.emit_keepsBut _ _) hstart rfl) rfl,
      rfl, fun _ => rfl, [_], rfl, fun _ => List.mem_singleton_self _⟩
  next hb =>
    refine ⟨State.keepsBut_then (State.setMbox_keepsBut _ m _) hstart rfl, rfl, fun k => ?_, [], rfl, fun h => absurd h hb⟩
    by_cases hk : k = m
    · subst hk
      rw [State.mbox_setMbox]; rfl
    · rw [State.mbox_setMbox_ne _ _ hk]; rfl

/-- Whether anything but commands waits is not changed by a command that completes. -/
theorem State.calm_congr {s u : State} (h : s.keepsBut [.fresh, .regs, .host, .out] u) :
    ({ u with host := { u.host with ctxs := [] } } : State).calm =
      ({ s with host := { s.host with ctxs := [] } } : State).calm := by
  simp only [State.calm, State.keepsBut_flt h, State.keepsBut_flow h, State.keepsBut_topo h, State.keepsBut_eng h,
    State.keepsBut_coll h, State.keepsBut_parm h, State.keepsBut_stash h, State.keepsBut_boot h]

/-- The round of a state in which nothing but commands waits: the waiting commands look again, and others start. -/
theorem State.settleRound_calm {s : State} (hc : ({ s with host := { s.host with ctxs := [] } } : State).calm = true) :
    s.settleRound = s.wakeAll.pump 64 := by
  simp only [State.calm, Bool.and_eq_true, List.isEmpty_iff, bne_iff_ne, and_assoc] at hc
  obtain ⟨htodo, hnotes, hlost, hruns, hchunks, hended, htold, -, hfences, hblocks, hres, hphase⟩ := hc
  have hpass : (s.reactAll 64).passNotes = s := by
    have hreact : s.reactAll 64 = s := by rw [State.reactAll, htodo]
    have hflow : ({ s with flow := { s.flow with notes := [] } } : State) = s := by rw [← hnotes]
    have htopo : (s.setTopo fun t => { t with lostDue := [] }) = s := by rw [← hlost]; rfl
    have heng : (s.setEng fun e => { e with ended := [] }) = s := by rw [← hruns]; rfl
    have hfinished : (s.setColl fun c => { c with finished := [] }) = s := by rw [← hchunks]; rfl
    have hcoll : (s.setColl fun c => { c with ended := [] }) = s := by rw [← hended]; rfl
    have hparm : (s.setParm fun p => { p with told := [] }) = s := by rw [← htold]; rfl
    simp only [hreact, State.passNotes, hnotes, hflow, hlost, htopo, hruns, heng, hchunks, hfinished, hended, hcoll, htold, hparm,
      List.foldl_nil]
  have hreview : s.reviewBlocks = s := if_neg (by simp [NMap.vals, hblocks])
  have hdrop : s.dropReleased = s := by rw [State.dropReleased]; simp [NMap.keys, hres]
  have hfence : s.fenceCheck = s := by simp [State.fenceCheck, hfences]
  have hservice : s.serviceCheck = s := if_neg (by simp [hphase])
  rw [State.settleRound, hpass, hreview, hdrop, hfence, hservice]

/-- Without commands there is none to start. -/
theorem State.nextStart_none {s : State} (hx : s.host.ctxs = []) : s.nextStart = none := by
  simp [State.nextStart, State.executing, State.firstWaiting, hx]

/-- With nothing else waiting, a state without commands is quiet. -/
theorem State.quiet_calm {s : State} (hc : ({ s with host := { s.host with ctxs := [] } } : State).calm = true)
    (hx : s.host.ctxs = []) : s.quiet = true := by
  simp only [State.calm, Bool.and_eq_true, and_assoc] at hc
  obtain ⟨htodo, hnotes, hlost, hruns, hchunks, hended, htold, -, -, -, -, -⟩ := hc
  simp [State.quiet, hx, State.nextStart_none hx, htodo, hnotes, hlost, hruns, hchunks, hended, htold]

theorem objects_mboxCancel (h : CmdHdr) (m n : Nat) : objects (.mboxCancel h m n) = [] := rfl

/-- The cancel has entered a context behind the held command. -/
def State.cancelling (s : State) (h : CmdHdr) (m n : Nat) : State := s.addCtx (.mboxCancel h m n) h (codeOf (.mboxCancel h m n)) 0

/-- The cancel's context once it has been dispatched. -/
def State.cancelCtx (s : State) (h : CmdHdr) (m n : Nat) : Ctx :=
  { s.ctxFor (.mboxCancel h m n) h with id := s.host.nextId + 1 }

/-- The cancel has been dispatched from its mailbox, and runs. -/
def State.cancelStarted (s : State) (x : Ctx) (h : CmdHdr) (k m n : Nat) : State :=
  s.setHost fun t => { t with
    rotate := (k + 1) % 64, nextId := t.nextId + 1 + 1
    ctxs := [x, { s.cancelCtx h m n with state := .started (.object false) }] }

theorem State.cancelStarted_ids (s : State) (x : Ctx) (h : CmdHdr) (k m n : Nat) :
    ∀ z ∈ (s.cancelStarted x h k m n).host.ctxs, z.id = x.id ∨ z.id = (s.cancelCtx h m n).id := by
  simp [State.cancelStarted, State.setHost]

section

variable {s : State} {h : CmdHdr} {x : Ctx} {m n k t : Nat} (hx : s.host.ctxs = [x]) (hxstate : x.state = .started (.tick t))

include hx in
theorem State.cancelling_ctxs : (s.cancelling h m n).host.ctxs = [x, s.ctxFor (.mboxCancel h m n) h] := by
  simp [State.cancelling, State.addCtx, State.setHost, hx, State.ctxFor]

include hx hxstate in
/-- No command looks again: the one is held by its tick, the other has not started. -/
theorem State.cancelling_wakeAll : (s.cancelling h m n).wakeAll = s.cancelling h m n := by
  have hwake : ∀ y ∈ (s.cancelling h m n).host.ctxs, ∀ u : State, u.wake y = u := fun y hy u => by
    rw [State.cancelling_ctxs hx, List.mem_pair] at hy
    rcases hy with rfl | rfl
    · simp only [State.wake, hxstate, State.woken]
    · rfl
  refine List.foldl_fixed' (fun y => ?_) _
  split
  next z hz => exact hwake z (List.mem_of_find?_eq_some hz) _
  next => rfl

include hx hxstate in
theorem State.cancelling_nextStart (hpath : h.path = .mailbox k) (hfence : h.fence = false) (hdev : h.devFence = false) :
    (s.cancelling h m n).nextStart = some (s.ctxFor (.mboxCancel h m n) h) := by
  have hctxs := State.cancelling_ctxs (h := h) (m := m) (n := n) hx
  have hside : (s.cancelling h m n).firstWaiting (fun p => p == .sideband) = none := by
    simp [State.firstWaiting, hctxs, hxstate, State.ctxFor, hpath]
  have hbox : (s.cancelling h m n).firstWaiting (fun p => p == .mailbox k) = some (s.ctxFor (.mboxCancel h m n) h) := by
    simp [State.firstWaiting, hctxs, hxstate, State.ctxFor, hpath]
  have hboxes : (s.cancelling h m n).waitingBoxes = [k] := by
    simp [State.waitingBoxes, hctxs, hxstate, State.ctxFor, hpath]
  have hclear : (s.cancelling h m n).fencesClear (s.ctxFor (.mboxCancel h m n) h) = true := by
    simp [State.fencesClear, State.ctxFor, hfence, hdev]
  have hexec : (s.cancelling h m n).executing = 0 := by
    simp [State.executing, hctxs, hxstate, State.ctxFor]
  simp [State.nextStart, hexec, hside, hbox, hboxes, hclear]

/-- What a held command and the cancel that ends it lead to. -/
def State.cancelled (s : State) (x y : Ctx) : State := (s.complete x Status.cancelled).complete y Status.ok

include hxstate in
/-- The cancel that runs completes the held command with CANCELLED, and itself with OK (R314). -/
theorem State.cancelStarted_judged {y : Ctx} (hcmd : y.cmd = .mboxCancel h m n) (htick : y.hdr.effTick = 0)
    (hchecks : s.checks y = none) (hxpath : x.hdr.path = .mailbox m) (hxnum : x.hdr.number = n) :
    (s.cancelStarted x h k m n).judged y = (s.cancelStarted x h k m n).cancelled x y := by
  have hjudge : (s.cancelStarted x h k m n).checks y = none := (State.checks_setHost rfl rfl).trans hchecks
  have hblocked : (s.cancelStarted x h k m n).blocked y = false := by
    simp [State.blocked, hcmd, objects_mboxCancel]
  have hboundary : (s.cancelStarted x h k m n).atBoundary y.cmd = false := by rw [hcmd]; rfl
  have hfind : (s.cancelStarted x h k m n).host.ctxs.find? (fun z => z.hdr.path == .mailbox m && z.hdr.number == n) = some x := by
    simp [State.cancelStarted, State.setHost, hxpath, hxnum]
  have hcan : x.cancellable = true := by rw [Ctx.cancellable, hxstate]
  have hrun : (s.cancelStarted x h k m n).runCmd y.cmd y.hdr =
      finished ((s.cancelStarted x h k m n).complete x Status.cancelled) := by
    rw [hcmd]
    show State.mboxCancel _ m n = _
    rw [State.mboxCancel, hfind]
    exact if_pos hcan
  have hjob : jobNamed y.cmd = none := by rw [hcmd]; rfl
  simp only [State.judged, hjudge, htick, State.ready, hblocked, hboundary, State.perform, hjob, hrun]
  simp [finished, State.cancelled]

include hx in
/-- The cancel is dispatched: it gets its number and starts. -/
theorem State.cancelling_dispatchOne (hpath : h.path = .mailbox k) (hid : x.id < s.host.nextId) :
    (s.cancelling h m n).dispatchOne (s.ctxFor (.mboxCancel h m n) h) = (s.cancelStarted x h k m n).judged
      (s.cancelCtx h m n) := by
  have hne : x.id ≠ s.host.nextId := Nat.ne_of_lt hid
  have hne' : x.id ≠ s.host.nextId + 1 := by omega
  have hstarted : (((s.cancelling h m n).setHost fun t => { t with
      rotate := (k + 1) % 64, nextId := t.nextId + 1
      ctxs := t.ctxs.map fun y => if y.id = s.host.nextId then { y with id := t.nextId } else y }).setCtx (s.host.nextId + 1)
        fun y => { y with state := .started (.object false) }) = s.cancelStarted x h k m n := by
    simp [State.cancelling, State.addCtx, State.setHost, State.setCtx, State.ctxFor, hx, hne, hne', State.cancelStarted, State.cancelCtx]
  rw [← hstarted, State.dispatchOne, State.ctxFor]
  simp only [hpath]
  rfl

end

/-- A held command that is cancelled: both completions have left, no command is left, and nothing else has changed. -/
theorem State.cancelled_ends (s : State) {x y : Ctx} {m k : Nat} (hx : x.hdr.path = .mailbox m) (hy : y.hdr.path = .mailbox k)
    (hctxs : ∀ z ∈ s.host.ctxs, z.id = x.id ∨ z.id = y.id) :
    s.keepsBut [.fresh, .regs, .host, .out] (s.cancelled x y) ∧ (s.cancelled x y).host.ctxs = [] ∧
    ((s.mbox m).qp.isSome = true →
      ∃ st, Out.completion x.hdr.path x.hdr.number x.code Status.cancelled 0 st [] ∈ (s.cancelled x y).out) ∧
    ((s.mbox k).qp.isSome = true →
      ∃ st, Out.completion y.hdr.path y.hdr.number y.code Status.ok 0 st [] ∈ (s.cancelled x y).out) := by
  obtain ⟨hkeep, hleft, hqp, os, hos, hout⟩ := s.complete_mailbox hx (status := Status.cancelled) (by decide) []
  obtain ⟨hkeep', hleft', -, os', hos', hout'⟩ :=
    (s.complete x Status.cancelled).complete_mailbox hy (status := Status.ok) (by decide) []
  refine ⟨State.keepsBut_trans hkeep hkeep', ?_, fun hm => ⟨s.stamp, ?_⟩, fun hk => ⟨(s.complete x Status.cancelled).stamp, ?_⟩⟩
  · show ((s.complete x Status.cancelled).complete y Status.ok).host.ctxs = []
    rw [hleft', hleft, List.filter_filter, List.filter_eq_nil_iff]
    intro z hz
    rcases hctxs z hz with h | h <;> simp [h]
  · exact hos' ▸ List.mem_append_right _ (hos ▸ List.mem_append_left _ (by simpa using hout hm))
  · exact hos' ▸ List.mem_append_left _ (by simpa using hout' (by rwa [hqp]))

/-- The row of a cancel of a held command, in a device in which nothing else waits (R314). -/
theorem mboxCancel_held {s : State} {h : CmdHdr} {x : Ctx} {m n k t : Nat} (hpath : h.path = .mailbox k) (hk : k < 64)
    (hanswer : s.answering = true) (htick : h.effTick = 0) (hfence : h.fence = false) (hdev : h.devFence = false)
    (hx : s.host.ctxs = [x]) (hxpath : x.hdr.path = .mailbox m) (hxnum : x.hdr.number = n)
    (hxstate : x.state = .started (.tick t)) (hid : x.id < s.host.nextId)
    (hcalm : ({ s with host := { s.host with ctxs := [] } } : State).calm = true)
    (hchecks : s.checks (s.ctxFor (.mboxCancel h m n) h) = none) :
    exec (.mboxCancel h m n) s = .next ((s.cancelStarted x h k m n).cancelled x (s.cancelCtx h m n)) := by
  generalize hu : (s.cancelStarted x h k m n).cancelled x (s.cancelCtx h m n) = u
  have hcalm' : ({ s.cancelling h m n with host := { (s.cancelling h m n).host with ctxs := [] } } : State).calm = true := hcalm
  have hdispatch : (s.cancelling h m n).dispatchOne (s.ctxFor (.mboxCancel h m n) h) = u := by
    rw [State.cancelling_dispatchOne hx hpath hid, State.cancelStarted_judged (y := s.cancelCtx h m n) hxstate rfl htick hchecks hxpath hxnum,
      hu]
  have hends := (s.cancelStarted x h k m n).cancelled_ends (x := x) (y := s.cancelCtx h m n) hxpath hpath
    (State.cancelStarted_ids s x h k m n)
  rw [hu] at hends
  obtain ⟨hkeep, hctxs, -, -⟩ := hends
  have hucalm : ({ u with host := { u.host with ctxs := [] } } : State).calm = true :=
    (State.calm_congr (State.keepsBut_trans (State.keepsBut_then (State.setHost_keepsBut s _) (State.keepsBut_refl _ s) rfl)
      hkeep)).trans hcalm
  have hquiet := State.quiet_calm hucalm hctxs
  have hround : (s.cancelling h m n).settleRound = u := by
    rw [State.settleRound_calm hcalm', State.cancelling_wakeAll hx hxstate, State.pump,
      State.cancelling_nextStart hx hxstate hpath hfence hdev]
    dsimp only
    rw [hdispatch, State.pump, State.nextStart_none hctxs]
  have hbusy : (s.cancelling h m n).calm = false := by
    simp [State.calm, State.cancelling_ctxs hx]
  have harrive : s.arrive (.mboxCancel h m n) h (codeOf (.mboxCancel h m n)) 0 = s.cancelling h m n := by
    rw [State.arrive, hx]; rfl
  rw [exec_command rfl, State.submit, if_neg (by simp [hanswer]), hpath]
  dsimp only
  rw [if_neg (Nat.not_le.2 hk), harrive, State.settle, if_neg (by simp [hbusy]), State.rounds_, hround]
  exact congrArg _ (if_pos hquiet)

/-- The command that runs cannot be cancelled. -/
theorem State.withCommand_running {s : State} {c : Instr} {h : CmdHdr} {y : Ctx} (hy : y ∈ (s.withCommand c h).host.ctxs) :
    y.cancellable = false := by
  rw [State.withCommand, State.setHost, List.mem_singleton] at hy
  rw [hy]; rfl

/-- Settles O42: BIND gives a mailbox its parameters and lets its held completions go; a command that an effective tick
holds is cancelled, by another command of a mailbox. -/
theorem mailboxCommands : Obligations.MailboxCommands := by
  unfold Obligations.MailboxCommands
  refine ⟨fun s h m => ⟨fun ht => ?_, fun prio ev qp dq ring ht hq hd hm => ?_, fun prio ev qp dq ring ht hq => ?_,
      fun ht => ?_, fun ht => ?_, fun n ht => ?_⟩,
    fun s h x m n k t hpath hk _ hanswer htick hfence hdev hx hxpath hxnum hxstate _ hid _ hcalm hchecks => ?_⟩
  · exact ends_of_run rfl ht rfl (State.keepsBut_refl _ _) trivial
  · obtain ⟨k1, k2, u, hu, hkeep, hbound, hothers⟩ := State.mboxBind_bound (s := s.withCommand (.mboxBind h m prio ev qp dq ring) h)
      (h := h) (prio := prio) (ev := ev) (ring := ring) (by rwa [State.withCommand_host_qps])
      (by rwa [State.withCommand_host_qps]) (by rwa [State.withCommand_mbox] : _ = none)
    rw [State.withCommand_mbox] at hbound
    refine ⟨_, packValues_four_four_length _ _, ends_of_run rfl ht hu hkeep ?_⟩
    rw [hbound]
    exact ⟨rfl, rfl, rfl, rfl, rfl, rfl, rfl, fun n hn => (hothers n hn).trans (s.withCommand_mbox _ _ n)⟩
  · refine refuses_of_run rfl ht (?_ : State.mboxBind _ h m prio ev qp dq ring = _)
    simp only [State.mboxBind, State.withCommand_host_qps, hq]
    rfl
  · refine ends_of_run rfl ht rfl (State.setMbox_keepsBut _ m _) ⟨?_, fun n hn => ?_⟩
    · rw [State.mbox_setMbox, State.withCommand_mbox]
    · rw [State.mbox_setMbox_ne _ _ hn, State.withCommand_mbox]
  · refine ends_of_run rfl ht (?_ : State.mboxStatus _ m = _) (State.keepsBut_refl _ _) trivial
    rw [State.mboxStatus, State.withCommand_mbox]
    rfl
  · refine refuses_of_run rfl ht ((?_ : State.mboxCancel _ m n = _))
    rw [State.mboxCancel]
    split
    next y hy => exact if_neg (by simp [State.withCommand_running (List.mem_of_find?_eq_some hy)])
    next => rfl
  · have hends := (s.cancelStarted x h k m n).cancelled_ends (x := x) (y := s.cancelCtx h m n) hxpath hpath
      (State.cancelStarted_ids s x h k m n)
    obtain ⟨hkeep, hctxs, hx', hy'⟩ := hends
    refine ⟨_, mboxCancel_held hpath hk hanswer htick hfence hdev hx hxpath hxnum hxstate hid hcalm hchecks, hctxs,
      (State.keepsBut_memory hkeep).trans rfl, fun hm => ?_, fun hk => hy' hk⟩
    rw [hxnum] at hx'
    exact hx' hm

end Sys2Proof.Machine
end

section

-- One declaration after another: elaborated side by side, they take more threads than the check allows.
set_option Elab.async false

/-! Frames that reach their endpoint: what the taking of a frame and its acknowledgement leave (R98, R99, R132). -/

namespace Sys2Proof.Machine

open Sys2Proof (Instr Delivery)

theorem State.takeInternal_frame (s : State) (d : Delivery) : s.keepsBut frameParts (s.takeInternal d) :=
  State.keepsBut_mono (s.takeInternal_keepsBut d) (by decide)

theorem State.settleRx_frame (s : State) (f : RxFlow) (h : Hdr) (ep : Nat) (a : AckInfo) :
    s.keepsBut frameParts ((s.setRx f).sendAck h ep a) :=
  State.keepsBut_then (State.sendAck_keepsBut _ h ep a)
    (State.keepsBut_then (State.setRx_keepsBut s f) (State.keepsBut_refl _ s) rfl) rfl

/-- A frame that is committed changes its flow and what its acknowledgement is sent with. -/
theorem State.commitFrame_frame (s : State) (h : Hdr) (ep : Nat) : s.keepsBut frameParts (s.commitFrame h ep) :=
  s.settleRx_frame _ h ep _

theorem State.refuseFrame_frame (s : State) (h : Hdr) (ep st : Nat) : s.keepsBut frameParts (s.refuseFrame h ep st) :=
  s.settleRx_frame _ h ep _

theorem State.ackAgain_frame (s : State) (h : Hdr) (ep scope : Nat) : s.keepsBut frameParts (s.ackAgain h ep scope) :=
  s.settleRx_frame _ h ep _

/-- The row of a frame that reaches its endpoint: the frame has left its queue, and the endpoint judges it. -/
theorem leads_of_reaches {s : State} {d : Delivery} {k : Instr} {f : State → State} (he : exec k s = .next (s.deliverTo d f))
    (hr : s.reaches d = true) : Leads s k (f (s.takeInternal d)) := by
  obtain ⟨hsafe, hreceive⟩ := State.receive_reaches hr f
  rw [Leads, he, State.deliverTo, State.data, if_neg (by simp [hsafe]), hreceive]

/-- The row of a frame that was not settled here before. -/
theorem leads_of_newFrame {s : State} {d : Delivery} {k : Instr} {f : State → State}
    (he : exec k s = .next (s.deliverTo d f)) (hn : s.newFrame d = true) :
    Leads s k (f (s.takeInternal d)) ∧ (s.takeInternal d).duplicate d.frame.hdr = false := by
  rw [State.newFrame, Bool.and_eq_true, Bool.not_eq_true'] at hn
  exact ⟨leads_of_reaches he hn.1, (s.takeInternal_duplicate d _).trans hn.2⟩

/-- An event of the data plane outside the safe state. -/
theorem leads_of_data {s : State} {k : Instr} {f : State → State} (he : exec k s = .next (s.data f)) (hs : s.isSafe = false) :
    Leads s k (f s) := by
  rw [Leads, he, State.data, if_neg (by simp [hs])]

/-! ## The root of a barrier -/

/-- A generation that is released (R104). -/
theorem State.barrierRelease_released (s : State) (ctx : Nat) (b : BarrierSt) (st : Nat) :
    s.keepsBut (.coll :: frameParts) (s.barrierRelease ctx b st) ∧
    (s.barrierRelease ctx b st).coll = { s.coll with barriers := s.coll.barriers.set ctx { b with
      gen := (b.gen + 1) % 2 ^ 32, arrived := 0, last := some (st, s.stamp) } } := by
  refine ⟨State.keepsBut_mono (s.barrierRelease_keepsBut ctx b st) (by decide), ?_⟩
  rw [State.barrierRelease, State.keepsBut_coll (State.sendPlain_keepsBut _ _)]
  rfl

/-- No number is newer than itself. -/
theorem serialNewer_self (a : Nat) : serialNewer 32 a a = false := by
  have hzero : (a + 2 ^ 32 - a % 2 ^ 32) % 2 ^ 32 = 0 := by omega
  rw [serialNewer, hzero]
  rfl

section

variable {s : State} {f : Frame} {b : BarrierSt} {m : Nat} (hnew : s.duplicate f.hdr = false)
  (hb : s.coll.barriers.get? f.hdr.opId = some b) (hm : m = getLE f.payload 0 2)

include hnew hb hm

theorem State.barrierArrive_refused (hbad : b.ranks.length ≤ m ∨ serialNewer 32 (getLE f.payload 4 4) b.gen = true) :
    s.keepsBut frameParts (s.barrierArrive f) := by
  subst hm
  simp only [State.barrierArrive, hnew, hb]
  by_cases hlen : b.ranks.length ≤ getLE f.payload 0 2
  · simpa [hlen] using s.refuseFrame_frame _ _ _
  · simpa [hlen, hbad.resolve_left hlen] using s.refuseFrame_frame _ _ _

/-- An arrival of the current generation is committed, and recorded once. -/
theorem State.barrierArrive_current (hlen : m < b.ranks.length) (hgen : getLE f.payload 4 4 = b.gen) :
    s.barrierArrive f =
      if bit b.arrived m then s.commitFrame f.hdr 0xFFF1
      else if b.arrived + 2 ^ m + 1 = 2 ^ b.ranks.length then
        (s.commitFrame f.hdr 0xFFF1).barrierRelease f.hdr.opId { b with
          arrived := b.arrived + 2 ^ m, since := if b.arrived = 0 then s.tick.counter else b.since } Status.ok
      else (s.commitFrame f.hdr 0xFFF1).setColl fun k => { k with barriers := k.barriers.set f.hdr.opId { b with
        arrived := b.arrived + 2 ^ m, since := if b.arrived = 0 then s.tick.counter else b.since } } := by
  subst hm
  have hold : serialNewer 32 (getLE f.payload 4 4) b.gen = false := hgen ▸ serialNewer_self _
  simp only [State.barrierArrive, hnew, hb, if_neg (Nat.not_le.2 hlen), hold, if_pos hgen,
    State.keepsBut_tick (s.commitFrame_frame _ _)]
  rfl

end

theorem State.barrierTimeout_due {s : State} {ctx : Nat} {b : BarrierSt} (hb : s.coll.barriers.get? ctx = some b) :
    s.barrierTimeout ctx = if b.arrived ≠ 0 ∧
      b.since + ((s.host.jobs.get? b.job).map JobSt.memberTimeout).getD 4096 ≤ s.tick.counter
      then s.barrierRelease ctx b Status.memberTimeout else s := by
  rw [State.barrierTimeout, hb]

/-- Settles O33: what an arrival and the member timeout make of the generation at the root. -/
theorem barriersRelease : Obligations.BarriersRelease := by
  unfold Obligations.BarriersRelease
  intro s b f o m hb hm
  refine ⟨fun hnew => ?_, fun hsafe harr hdue => ?_, fun hnot => ?_⟩
  · obtain ⟨hleads, hdup⟩ := leads_of_newFrame (k := .barrierArrive ⟨f, o⟩) (f := fun s => s.barrierArrive f) rfl hnew
    have htake := s.takeInternal_frame ⟨f, o⟩
    have hcoll := State.keepsBut_coll htake
    have htick := State.keepsBut_tick htake
    generalize s.takeInternal ⟨f, o⟩ = t at hleads hdup htake hcoll htick
    have hbt : t.coll.barriers.get? f.hdr.opId = some b := by rw [hcoll]; exact hb
    have hcurrent := State.barrierArrive_current hdup hbt hm
    have hcommit := t.commitFrame_frame f.hdr 0xFFF1
    refine ⟨fun hbad => ⟨_, hleads, State.keepsBut_trans htake (State.barrierArrive_refused hdup hbt hm hbad)⟩,
      fun hlen hgen hbit => ⟨_, hleads, ?_⟩, fun hlen hgen hbit hmore => ⟨_, hleads, ?_⟩,
      fun hlen hgen hbit hlast => ⟨_, if b.arrived = 0 then t.tick.counter else b.since, (t.commitFrame f.hdr 0xFFF1).stamp,
        hleads, ?_⟩⟩
    · rw [hcurrent hlen hgen, if_pos hbit]
      exact State.keepsBut_trans htake hcommit
    · rw [hcurrent hlen hgen, if_neg (by simp [hbit]), if_neg hmore]
      refine ⟨State.keepsBut_then (State.setColl_keepsBut _ _) (State.keepsBut_mono (State.keepsBut_trans htake hcommit)
        (by decide)) rfl, ?_⟩
      rw [State.setColl, State.keepsBut_coll hcommit, hcoll, htick]
    · rw [hcurrent hlen hgen, if_neg (by simp [hbit]), if_pos hlast]
      obtain ⟨hkeep, hrel⟩ := (t.commitFrame f.hdr 0xFFF1).barrierRelease_released f.hdr.opId { b with
        arrived := b.arrived + 2 ^ m, since := if b.arrived = 0 then t.tick.counter else b.since } Status.ok
      refine ⟨State.keepsBut_trans (State.keepsBut_mono (State.keepsBut_trans htake hcommit) (by decide)) hkeep, ?_⟩
      rw [hrel, State.keepsBut_coll hcommit, hcoll]
  · refine ⟨_, s.stamp, leads_of_data (f := fun s => s.barrierTimeout f.hdr.opId) rfl hsafe, ?_⟩
    rw [State.barrierTimeout_due hb, if_pos ⟨harr, hdue⟩]
    exact s.barrierRelease_released _ b _
  · by_cases hsafe : s.isSafe = true
    · exact .inl (congrArg _ (if_pos hsafe))
    · refine .inr ?_
      have hleads := leads_of_data (k := .barrierMemberTimeout f.hdr.opId) (f := fun s => s.barrierTimeout f.hdr.opId) rfl
        (by simpa using hsafe)
      rwa [State.barrierTimeout_due hb, if_neg (by omega)] at hleads

end Sys2Proof.Machine
end

section

-- One declaration after another: elaborated side by side, they take more threads than the check allows.
set_option Elab.async false

/-! The sending side of a flow, and fences (R99–R101, R103). -/

namespace Sys2Proof.Machine

open Sys2Proof (Instr Delivery)

/-! ## Flows that are stored, and owners that are told -/

@[simp] theorem State.txFlow_setTx (s : State) (t : TxFlow) : (s.setTx t).txFlow t.key = t := by
  simp [State.txFlow, State.setTx]

theorem State.txFlow_congr {s u : State} (h : u.flow.tx = s.flow.tx) (k : FlowKey) : u.txFlow k = s.txFlow k := by
  rw [State.txFlow, State.txFlow, h]

theorem State.note_tx (s : State) (o : Owner) (n : Note) : (s.note o n).flow.tx = s.flow.tx := by
  cases o <;> rfl

theorem State.note_frame (s : State) (o : Owner) (n : Note) : s.keepsBut [.flow] (s.note o n) := by
  cases o
  case none => exact State.keepsBut_refl _ s
  all_goals exact State.keepsBut_with_flow _ (State.keepsBut_refl _ s) rfl

/-- The owner of a frame is told of it. -/
theorem State.mem_note (s : State) {o : Owner} (h : o ≠ .none) (n : Note) : (o, n) ∈ (s.note o n).flow.notes := by
  cases o
  case none => exact absurd rfl h
  all_goals exact List.mem_append_right _ (List.mem_singleton_self _)

theorem State.notes_subset_note (s : State) (o : Owner) (n : Note) : s.flow.notes ⊆ (s.note o n).flow.notes := by
  cases o
  case none => exact List.Subset.refl _
  all_goals exact List.subset_append_left _ _

/-- A flow with nothing queued has nothing to send. -/
theorem State.flushFlow_empty {s : State} {k : FlowKey} (h : (s.txFlow k).queue = []) (n : Nat) : s.flushFlow k n = s := by
  cases n with
  | zero => rfl
  | succ n => rw [State.flushFlow, h]

/-- What an internal endpoint sends changes no sending side. -/
theorem State.originate_tx (s : State) (f : Frame) (o : Option Nat) : (s.originate f o).flow.tx = s.flow.tx := by
  have hinject := State.keepsBut_flow (s.inject_keepsBut f o)
  rw [State.originate]
  split
  · rw [State.ratedRefusal]
    split
    · rw [hinject]
    · dsimp only
      split
      · rw [hinject]
      · rw [State.transitAck, State.keepsBut_flow (State.sendAck_keepsBut _ _ _ _), hinject]
  · rw [hinject]

/-! ## Owners told in turn -/

/-- The notes of a list of judgements. -/
def State.noteAll (s : State) (l : List (Owner × Option Unsettled × Option Note)) : State :=
  l.foldl (fun s x => match x.2.2 with
    | none => s
    | some n => s.note x.1 n) s

theorem State.noteAll_tx (s : State) (l : List (Owner × Option Unsettled × Option Note)) :
    (s.noteAll l).flow.tx = s.flow.tx :=
  foldl_leaves (p := fun u : State => u.flow.tx) (fun u x => by
    split
    · rfl
    · exact u.note_tx _ _) l s

theorem State.noteAll_frame (s : State) (l : List (Owner × Option Unsettled × Option Note)) :
    s.keepsBut [.flow] (s.noteAll l) :=
  State.keepsBut_foldl (fun u x => by
    split
    · exact State.keepsBut_refl _ u
    · exact u.note_frame _ _) (State.keepsBut_refl _ s)

theorem State.notes_subset_noteAll (s : State) (l : List (Owner × Option Unsettled × Option Note)) :
    s.flow.notes ⊆ (s.noteAll l).flow.notes := by
  induction l generalizing s with
  | nil => exact List.Subset.refl _
  | cons x l ih =>
    refine List.Subset.trans ?_ (ih _)
    dsimp only
    split
    · exact List.Subset.refl _
    · exact s.notes_subset_note _ _

theorem State.mem_noteAll (s : State) {l : List (Owner × Option Unsettled × Option Note)} {o : Owner}
    {u : Option Unsettled} {n : Note} (hx : (o, u, some n) ∈ l) (ho : o ≠ .none) : (o, n) ∈ (s.noteAll l).flow.notes := by
  induction l generalizing s with
  | nil => exact absurd hx (by simp)
  | cons x l ih =>
    rcases List.mem_cons.1 hx with rfl | hx
    · exact State.notes_subset_noteAll _ l (s.mem_note ho n)
    · exact ih _ hx

/-! ## ACKs -/

/-- What an ACK leaves of the open frames: those that it neither refuses nor covers. -/
theorem filterMap_settleOne (a : AckInfo) (l : List Unsettled) :
    l.filterMap (fun x => (settleOne a x).1) =
      l.filter (fun x => !(a.scope == 2 && a.refusedSeq == x.seq) && !a.covers x.seq) := by
  rw [← List.filterMap_eq_filter]
  refine List.filterMap_congr fun x _ => ?_
  by_cases href : a.scope = 2 ∧ a.refusedSeq = x.seq
  · simp [settleOne, href, Option.guard]
  · have href' : (a.scope == 2 && a.refusedSeq == x.seq) = false := by simpa using href
    cases hcov : a.covers x.seq <;> simp [settleOne, href, href', hcov, Option.guard]

/-- The flow of which a unicast ACK has settled frames. -/
def TxFlow.settled (t : TxFlow) (a : AckInfo) : TxFlow := { t with open_ := t.open_.filterMap fun x => (settleOne a x).1 }

/-- The state in which a unicast ACK has settled frames, and the owners have been told. -/
def State.ackSettled (s : State) (t : TxFlow) (a : AckInfo) : State :=
  (s.setTx (t.settled a)).noteAll (t.open_.map fun x => (x.owner, settleOne a x))

theorem State.ackSettled_txFlow (s : State) (t : TxFlow) (a : AckInfo) : (s.ackSettled t a).txFlow t.key = t.settled a := by
  rw [State.ackSettled, State.txFlow_congr (State.noteAll_tx _ _)]
  exact State.txFlow_setTx s (t.settled a)

theorem State.ackSettled_frame (s : State) (t : TxFlow) (a : AckInfo) : s.keepsBut [.flow] (s.ackSettled t a) :=
  State.keepsBut_trans (State.setTx_keepsBut s _) (State.noteAll_frame _ _)

/-- The owner of each frame that the ACK settles or refuses is told. -/
theorem State.ackSettled_notes (s : State) {t : TxFlow} {a : AckInfo} {x : Unsettled} {n : Note} (hx : x ∈ t.open_)
    (ho : x.owner ≠ .none) (hn : (settleOne a x).2 = some n) : (x.owner, n) ∈ (s.ackSettled t a).flow.notes :=
  State.mem_noteAll (u := (settleOne a x).1) _ (hn ▸ List.mem_map.2 ⟨x, hx, rfl⟩) ho

/-- What a unicast ACK leads to in a flow with nothing queued. -/
theorem State.settleAck_flow {s : State} {h : Hdr} {a : AckInfo} {t : TxFlow} (hmc : a.multicast = false)
    (hk : t.key = ⟨h.dstNode, h.dstEp, h.srcNode, h.srcEp, h.job, h.sys, false⟩) (ht : t ∈ s.flow.tx)
    (hself : s.txFlow t.key = t) (hq : t.queue = []) : s.settleAck h a = s.ackSettled t a := by
  have hfind : s.flow.tx.find? (fun f => f.key == t.key) = some t := by
    cases hf : s.flow.tx.find? (fun f => f.key == t.key) with
    | none => exact absurd ((List.find?_eq_none.1 hf) t ht) (by simp)
    | some t' => rw [State.txFlow, hf] at hself; exact congrArg _ hself
  simp only [State.settleAck, hmc, Bool.false_eq_true, if_false, ← hk, hfind, List.filterMap_map]
  exact State.flushFlow_empty (s := s.ackSettled t a) (by rw [State.ackSettled_txFlow]; exact hq) 1024

/-! ## Timers -/

section

variable {s : State} {k : FlowKey} {x : Unsettled} (hmc : k.mc = false)
  (hx : (s.txFlow k).open_.find? (fun y => y.seq == x.seq) = some x)

include hx

include hmc in
/-- The timer of an open frame of a unicast flow. -/
theorem State.flowOfSeq_unicast :
    s.flowOfSeq (k.srcNode, k.srcEp) (k.dstNode, k.dstEp) k.job k.sys x.seq = k := by
  have hkey : (⟨k.srcNode, k.srcEp, k.dstNode, k.dstEp, k.job, k.sys, false⟩ : FlowKey) = k := by rw [← hmc]
  have hany : ((s.txFlow k).open_.any fun u => u.seq == x.seq) = true :=
    List.any_eq_true.2 ⟨x, List.mem_of_find?_eq_some hx, by simp⟩
  simp only [State.flowOfSeq, hkey, hany, if_true]

include hmc in
/-- The row of a timer works on the flow that has the frame open. -/
theorem leads_of_retransmitTimeout (hsafe : s.isSafe = false) :
    Leads s (.retransmitTimeout (k.srcNode, k.srcEp) (k.dstNode, k.dstEp) k.job k.sys x.seq) (s.retransmit k x.seq) := by
  have hleads := leads_of_data (k := .retransmitTimeout (k.srcNode, k.srcEp) (k.dstNode, k.dstEp) k.job k.sys x.seq)
    (f := fun s => s.retransmit (s.flowOfSeq (k.srcNode, k.srcEp) (k.dstNode, k.dstEp) k.job k.sys x.seq) x.seq) rfl hsafe
  rwa [State.flowOfSeq_unicast hmc hx] at hleads

theorem State.retransmit_early (hage : x.age < s.rto k) : s.retransmit k x.seq = s := by
  simp [State.retransmit, hx, hage]

variable (hage : s.rto k ≤ x.age) (hjob : k.sys = true ∨ s.jobHedged k.job = false)
  (hdest : s.destHedged k.dstNode k.dstEp = false)

include hage hjob hdest

/-- A frame whose timer has run out is sent again, or after its eighth send given up (R100, R101). -/
theorem State.retransmit_due : s.retransmit k x.seq =
    if x.sends < 8 then
      (s.setTx { s.txFlow k with open_ := (s.txFlow k).open_.map fun y =>
        if y.seq == x.seq then { y with sends := y.sends + 1, age := 0 } else y }).originate
        { x.frame with hdr := { x.frame.hdr with retx := true } } x.owner.tile
    else
      ((s.setTx { s.txFlow k with open_ := (s.txFlow k).open_.filter fun y => y.seq != x.seq }).note x.owner
        (.lost x.waiting)).flushFlow k 1024 := by
  have hstay : (decide (x.age < s.rto k) || !k.sys && s.jobHedged k.job) = false := by
    rcases hjob with h | h <;> simp [h, Nat.not_lt.2 hage]
  simp only [State.retransmit, hx, hstay, hdest, Bool.and_false, Bool.false_eq_true, if_false]

end

/-! ## Fences -/

/-- A fence where no other waits: answered at once, or kept (R103). -/
theorem State.fence_alone {s : State} (hnone : s.flow.fences = []) (f : Frame) :
    s.fence f = if (s.rxFlow (flowOf f.hdr)).settledBelow f.hdr.position then
        s.fenceDone (flowOf f.hdr) f.hdr.position f.hdr.cls
      else { s with flow := { s.flow with fences := [(flowOf f.hdr, f.hdr.position, f.hdr.cls)] } } := by
  have hleft : ({ s with flow := { s.flow with fences := [] } } : State) = s := by rw [← hnone]
  have hrx : ∀ l, ({ s with flow := { s.flow with fences := l } } : State).rxFlow (flowOf f.hdr) = s.rxFlow (flowOf f.hdr) :=
    fun _ => rfl
  simp only [State.fence, hnone, List.contains_nil, Bool.false_eq_true, if_false, List.nil_append, State.fenceCheck]
  cases hset : (s.rxFlow (flowOf f.hdr)).settledBelow f.hdr.position
  · simp [hrx, hset]
  · simp [hrx, hset, hleft]

/-- Settles O32: an ACK settles what it covers, a timer sends again or gives up, and a fence is answered when the frames
before it are settled. -/
theorem flowsAndFences : Obligations.FlowsAndFences := by
  unfold Obligations.FlowsAndFences
  refine ⟨fun s t hsafe ht hq hself => ⟨fun d hr hmc hk => ?_, fun x hmc hx => ⟨fun hage => ?_, fun hage hjob hdest hlt => ?_,
      fun hage hjob hdest hge ho => ?_⟩⟩, fun s d hr hnone => ⟨fun hset => ?_, fun hset => ?_⟩⟩
  · have hleads := leads_of_reaches (k := .ack d) (f := fun s => s.settleAck d.frame.hdr (ackInfo d.frame.payload)) rfl hr
    have hflow := State.keepsBut_flow (s.takeInternal_keepsBut d)
    rw [State.settleAck_flow (t := t) hmc hk (by rwa [hflow])
      (by rwa [State.txFlow_congr (congrArg FlowSt.tx hflow)]) hq] at hleads
    have hnotes := fun x n => (s.takeInternal d).ackSettled_notes (t := t) (a := ackInfo d.frame.payload) (x := x) (n := n)
    refine ⟨_, hleads, State.keepsBut_then (State.ackSettled_frame _ t _) (s.takeInternal_frame d) rfl, ?_,
      fun x hx ho => ⟨fun href => hnotes x _ hx ho ?_, fun href hcov => hnotes x _ hx ho ?_⟩⟩
    · rw [State.ackSettled_txFlow]
      exact filterMap_settleOne _ _
    · rw [settleOne, if_pos href]
    · rw [settleOne, if_neg href, if_pos hcov]
  · have hleads := leads_of_retransmitTimeout hmc (by rwa [hself]) hsafe
    rwa [State.retransmit_early (by rwa [hself]) hage] at hleads
  · have hleads := leads_of_retransmitTimeout hmc (by rwa [hself]) hsafe
    rw [State.retransmit_due (by rwa [hself]) hage hjob hdest, if_pos hlt,
      hself] at hleads
    refine ⟨_, hleads, State.keepsBut_then (State.originate_keepsBut _ _ _)
      (State.keepsBut_then (State.setTx_keepsBut s _) (State.keepsBut_refl _ s) rfl) rfl, ?_⟩
    rw [State.txFlow_congr (State.originate_tx _ _ _)]
    exact congrArg TxFlow.open_ (State.txFlow_setTx s { t with open_ := t.open_.map fun y =>
      if y.seq == x.seq then { y with sends := y.sends + 1, age := 0 } else y })
  · have hleads := leads_of_retransmitTimeout hmc (by rwa [hself]) hsafe
    have hflow : ((s.setTx { t with open_ := t.open_.filter fun y => y.seq != x.seq }).note x.owner
        (.lost x.waiting)).txFlow t.key = { t with open_ := t.open_.filter fun y => y.seq != x.seq } :=
      (State.txFlow_congr (State.note_tx _ _ _) _).trans
        (State.txFlow_setTx s { t with open_ := t.open_.filter fun y => y.seq != x.seq })
    rw [State.retransmit_due (by rwa [hself]) hage hjob hdest,
      if_neg (Nat.not_lt.2 hge), hself, State.flushFlow_empty (by rw [hflow]; exact hq)] at hleads
    refine ⟨_, hleads, State.keepsBut_trans (State.setTx_keepsBut s _) (State.note_frame _ _ _), ?_, State.mem_note _ ho _⟩
    rw [hflow]
  · have hleads := leads_of_reaches (k := .fence d) (f := fun s => s.fence d.frame) rfl hr
    rwa [State.fence_alone (by rw [State.keepsBut_flow (s.takeInternal_keepsBut d)]; exact hnone), if_pos hset] at hleads
  · have hleads := leads_of_reaches (k := .fence d) (f := fun s => s.fence d.frame) rfl hr
    rw [State.fence_alone (by rw [State.keepsBut_flow (s.takeInternal_keepsBut d)]; exact hnone), if_neg (by simp [hset])] at hleads
    exact ⟨_, hleads, rfl, State.keepsBut_with_flow _ (State.keepsBut_refl _ _) rfl⟩

end Sys2Proof.Machine
end

section

-- One declaration after another: elaborated side by side, they take more threads than the check allows.
set_option Elab.async false

/-! NaNs of the arithmetic: a magnitude that a format represents never reads as a NaN (R172). -/

namespace Sys2Proof.Machine

/-! ## Sizes of magnitudes -/

/-- A magnitude that is not beyond the largest finite value has no higher exponent. -/
theorem exponent_le_of_not_beyond {fmt m : Nat} {e : Int} (hm : m ≠ 0) (h : beyond fmt m e = false) :
    e + m.log2 ≤ (fmtDef fmt).maxE + (fmtDef fmt).maxM.log2 := by
  generalize hM : (fmtDef fmt).maxM = M
  generalize hE : (fmtDef fmt).maxE = E
  simp only [beyond, magGt, hM, hE, decide_eq_false_iff_not, Nat.not_lt] at h
  generalize ha : (e - min e E).toNat = a at h
  generalize hb : (E - min e E).toNat = b at h
  have hpow : 2 ^ (m.log2 + a) < 2 ^ (M.log2 + 1 + b) :=
    calc 2 ^ (m.log2 + a) = 2 ^ m.log2 * 2 ^ a := Nat.pow_add _ _ _
      _ ≤ m * 2 ^ a := Nat.mul_le_mul_right _ (Nat.log2_self_le hm)
      _ ≤ M * 2 ^ b := h
      _ < 2 ^ (M.log2 + 1) * 2 ^ b := Nat.mul_lt_mul_of_pos_right (Nat.lt_log2_self (n := M)) (Nat.two_pow_pos b)
      _ = 2 ^ (M.log2 + 1 + b) := (Nat.pow_add _ _ _).symm
  have hexp := (Nat.pow_lt_pow_iff_right (by decide)).1 hpow
  omega

/-- The significand of a normal magnitude, with its leading bit. -/
def significand (frac n : Nat) : Nat := if frac ≤ n.log2 then n / 2 ^ (n.log2 - frac) else n * 2 ^ (frac - n.log2)

theorem significand_bounds {frac n : Nat} (hn : n ≠ 0) :
    2 ^ frac ≤ significand frac n ∧ significand frac n < 2 ^ (frac + 1) := by
  have hlo := Nat.log2_self_le hn
  have hhi := Nat.lt_log2_self (n := n)
  rw [significand]
  split
  next h =>
    rw [Nat.le_div_iff_mul_le (Nat.two_pow_pos _), Nat.div_lt_iff_lt_mul (Nat.two_pow_pos _), ← Nat.pow_add, ← Nat.pow_add,
      show frac + (n.log2 - frac) = n.log2 by omega, show frac + 1 + (n.log2 - frac) = n.log2 + 1 by omega]
    exact ⟨hlo, hhi⟩
  next h =>
    have hsplit : 2 ^ frac = 2 ^ n.log2 * 2 ^ (frac - n.log2) := by rw [← Nat.pow_add]; congr 1; omega
    rw [hsplit, Nat.pow_succ, hsplit]
    rw [Nat.pow_succ] at hhi
    have hpos := Nat.two_pow_pos (frac - n.log2)
    exact ⟨Nat.mul_le_mul_right _ hlo, by nlinarith⟩

theorem packMag_normal {fmt n : Nat} {q : Int} (hn : n ≠ 0) (hk : 1 - ((fmtDef fmt).bias : Int) ≤ q + n.log2) :
    packMag fmt n q = (q + n.log2 + (fmtDef fmt).bias).toNat * 2 ^ (fmtDef fmt).frac +
      (significand (fmtDef fmt).frac n - 2 ^ (fmtDef fmt).frac) := by
  simp only [packMag, if_neg hn, if_neg (Int.not_lt.2 hk)]
  rfl

theorem packMag_subnormal {fmt n : Nat} {q : Int} (hk : q + n.log2 < 1 - ((fmtDef fmt).bias : Int))
    (hq : 1 - ((fmtDef fmt).bias : Int) - (fmtDef fmt).frac ≤ q) : packMag fmt n q < 2 ^ (fmtDef fmt).frac := by
  by_cases hn : n = 0
  · simp only [packMag, hn, if_true]
    exact Nat.two_pow_pos _
  · simp only [packMag, if_neg hn, if_pos hk]
    generalize hd : (q - (1 - ((fmtDef fmt).bias : Int) - (fmtDef fmt).frac)).toNat = d
    calc n * 2 ^ d < 2 ^ (n.log2 + 1) * 2 ^ d := Nat.mul_lt_mul_of_pos_right (Nat.lt_log2_self (n := n)) (Nat.two_pow_pos d)
      _ = 2 ^ (n.log2 + 1 + d) := (Nat.pow_add _ _ _).symm
      _ ≤ 2 ^ (fmtDef fmt).frac := Nat.pow_le_pow_right (by decide) (by omega)

/-- A magnitude whose exponent is below `x` packs below the first magnitude of exponent `x`. -/
theorem packMag_lt {fmt n : Nat} {q : Int} {x : Nat} (hx : 1 ≤ x) (hk : q + n.log2 + (fmtDef fmt).bias < x)
    (hq : 1 - ((fmtDef fmt).bias : Int) - (fmtDef fmt).frac ≤ q) : packMag fmt n q < x * 2 ^ (fmtDef fmt).frac := by
  have hfirst : 2 ^ (fmtDef fmt).frac ≤ x * 2 ^ (fmtDef fmt).frac := Nat.le_mul_of_pos_left _ hx
  by_cases hsub : q + n.log2 < 1 - ((fmtDef fmt).bias : Int)
  · exact Nat.lt_of_lt_of_le (packMag_subnormal hsub hq) hfirst
  by_cases hn : n = 0
  · simp only [packMag, hn, if_true]
    exact Nat.lt_of_lt_of_le (Nat.two_pow_pos _) hfirst
  rw [packMag_normal hn (by omega)]
  obtain ⟨-, hhi⟩ := significand_bounds (frac := (fmtDef fmt).frac) hn
  generalize hw : (q + n.log2 + (fmtDef fmt).bias).toNat = w
  have hwx : w + 1 ≤ x := by omega
  calc w * 2 ^ (fmtDef fmt).frac + (significand (fmtDef fmt).frac n - 2 ^ (fmtDef fmt).frac)
      < w * 2 ^ (fmtDef fmt).frac + 2 ^ (fmtDef fmt).frac := by rw [Nat.pow_succ] at hhi; omega
    _ = (w + 1) * 2 ^ (fmtDef fmt).frac := by rw [Nat.add_mul, Nat.one_mul]
    _ ≤ x * 2 ^ (fmtDef fmt).frac := Nat.mul_le_mul_right _ hwx

/-! ## Rounding -/

/-- A rounded magnitude has at most one bit more than its format's significand, and then it is a power of two. -/
theorem roundMag_le (fmt mode r m : Nat) (e : Int) : (roundMag fmt mode r m e).1 ≤ 2 ^ ((fmtDef fmt).frac + 1) := by
  generalize hq : lastPlace fmt m e = q
  have hlast : e + m.log2 - (fmtDef fmt).frac ≤ q := by rw [← hq, lastPlace]; omega
  show roundUnits mode r m e (lastPlace fmt m e) ≤ _
  rw [hq, roundUnits]
  split
  next hle =>
    calc m * 2 ^ (e - q).toNat ≤ 2 ^ (m.log2 + 1) * 2 ^ (e - q).toNat := Nat.mul_le_mul_right _ (Nat.lt_log2_self (n := m)).le
      _ = 2 ^ (m.log2 + 1 + (e - q).toNat) := (Nat.pow_add _ _ _).symm
      _ ≤ 2 ^ ((fmtDef fmt).frac + 1) := Nat.pow_le_pow_right (by decide) (by omega)
  next hgt =>
    have hfloor : m / 2 ^ (q - e).toNat < 2 ^ ((fmtDef fmt).frac + 1) := by
      rw [Nat.div_lt_iff_lt_mul (Nat.two_pow_pos _), ← Nat.pow_add]
      exact Nat.lt_of_lt_of_le (Nat.lt_log2_self (n := m)) (Nat.pow_le_pow_right (by decide) (by omega))
    dsimp only
    split
    · exact hfloor.le
    · split
      · split <;> omega
      · exact hfloor.le
      · split <;> omega
      · exact hfloor

/-! ## Decoding -/

/-- A format with infinities reads a NaN where the exponent is all ones and the fraction is not zero (Table 8.1). -/
theorem decodeElem_eq_nan_iff {fmt : Nat} (hinf : (fmtDef fmt).hasInf = true) (w : Nat) : decodeElem fmt w = .nan ↔
    bits w ((fmtDef fmt).expBits + (fmtDef fmt).frac - 1) (fmtDef fmt).frac = 2 ^ (fmtDef fmt).expBits - 1 ∧
      w % 2 ^ (fmtDef fmt).frac ≠ 0 := by
  simp only [decodeElem, hinf, Bool.true_and, Bool.not_true, Bool.and_false, Bool.false_and, Bool.false_eq_true, if_false,
    beq_iff_eq]
  split
  next htop =>
    split
    next hf => simp [hf]
    next hf => simp [htop, hf]
  next htop =>
    simp only [htop, false_and, iff_false]
    split <;> simp

/-- A magnitude up to infinity's reads as no NaN. -/
theorem decodeElem_ne_nan {fmt v : Nat} (hfmt : fmt = 1 ∨ fmt = 3 ∨ fmt = 4) (hv : v ≤ infMag fmt) (neg : Bool) :
    decodeElem fmt (signBit fmt neg + v) ≠ .nan := by
  rw [Ne, decodeElem_eq_nan_iff (by rcases hfmt with rfl | rfl | rfl <;> rfl), bits, Nat.shiftRight_eq_div_pow]
  rcases hfmt with rfl | rfl | rfl <;> cases neg <;> simp [fmtDef, infMag, signBit] at hv ⊢ <;> omega

/-- The largest exponent of a format with infinities is the one below theirs. -/
theorem maxExponent {fmt : Nat} (hfmt : fmt = 1 ∨ fmt = 3 ∨ fmt = 4) :
    (fmtDef fmt).maxE + (fmtDef fmt).maxM.log2 + (fmtDef fmt).bias + 1 = ((2 ^ (fmtDef fmt).expBits - 1 : Nat) : Int) := by
  rcases hfmt with rfl | rfl | rfl <;> decide

/-- A representable magnitude that is not beyond the largest finite one packs up to infinity's bits. -/
theorem packMag_le_infMag {fmt n : Nat} {q : Int} (hfmt : fmt = 1 ∨ fmt = 3 ∨ fmt = 4)
    (hq : 1 - ((fmtDef fmt).bias : Int) - (fmtDef fmt).frac ≤ q) (h : beyond fmt n q = false) : packMag fmt n q ≤ infMag fmt := by
  by_cases hn : n = 0
  · simp [packMag, hn]
  · have hexp := exponent_le_of_not_beyond hn h
    have hmax := maxExponent hfmt
    exact (packMag_lt (x := 2 ^ (fmtDef fmt).expBits - 1) (by rcases hfmt with rfl | rfl | rfl <;> decide) (by omega) hq).le

theorem lastPlace_ge (fmt m : Nat) (e : Int) : 1 - ((fmtDef fmt).bias : Int) - (fmtDef fmt).frac ≤ lastPlace fmt m e := by
  rw [lastPlace]; omega

theorem significand_two_pow (frac : Nat) : significand frac (2 ^ (frac + 1)) = 2 ^ frac := by
  rw [significand, Nat.log2_two_pow, if_pos (by omega), Nat.pow_div (by omega) (by decide)]
  congr 1
  omega

/-- A magnitude within the format's range, rounded, packs up to infinity's bits. -/
theorem packMag_roundMag_le_infMag {fmt m : Nat} {e : Int} (hfmt : fmt = 1 ∨ fmt = 3 ∨ fmt = 4) (mode r : Nat) (hm : m ≠ 0)
    (h : beyond fmt m e = false) :
    packMag fmt (roundMag fmt mode r m e).1 (roundMag fmt mode r m e).2 ≤ infMag fmt := by
  have hexp := exponent_le_of_not_beyond hm h
  have hmax := maxExponent hfmt
  have hle := roundMag_le fmt mode r m e
  have hq := lastPlace_ge fmt m e
  have hbits : 1 < 2 ^ (fmtDef fmt).expBits - 1 := by rcases hfmt with rfl | rfl | rfl <;> decide
  have hlast : lastPlace fmt m e + (fmtDef fmt).frac + (fmtDef fmt).bias < ((2 ^ (fmtDef fmt).expBits - 1 : Nat) : Int) := by
    rw [lastPlace]; omega
  show packMag fmt (roundMag fmt mode r m e).1 (lastPlace fmt m e) ≤ _
  generalize (roundMag fmt mode r m e).1 = n at hle
  generalize lastPlace fmt m e = q at hq hlast
  by_cases hn : n = 0
  · simp [packMag, hn]
  rcases hle.lt_or_eq with hlt | rfl
  · have hlog : n.log2 < (fmtDef fmt).frac + 1 := (Nat.log2_lt hn).2 hlt
    exact (packMag_lt (by omega) (by omega) hq).le
  · rw [packMag_normal hn (by rw [Nat.log2_two_pow]; omega), significand_two_pow, Nat.sub_self, Nat.add_zero,
      Nat.log2_two_pow]
    exact Nat.mul_le_mul_right _ (by omega)

/-! ## F8A, which has no infinities -/

theorem decodeElem_f8a_ne_nan {v : Nat} (hv : v ≤ 126) (neg : Bool) : decodeElem 0 (signBit 0 neg + v) ≠ .nan := by
  have hmag : (signBit 0 neg + v) >>> 3 % 16 = 15 → (signBit 0 neg + v) % 8 ≠ 7 := by
    rw [Nat.shiftRight_eq_div_pow]
    cases neg <;> simp [fmtDef, signBit] <;> omega
  simp only [decodeElem, fmtDef, bits]
  simp only [Bool.false_and, Bool.false_eq_true, if_false, Bool.not_false, Bool.true_and, Bool.and_true, Bool.and_eq_true,
    beq_iff_eq]
  rw [if_neg (fun h => hmag h.1 h.2)]
  split <;> simp

theorem packMag_f8a_le {n : Nat} {q : Int} (hq : -9 ≤ q) (h : beyond 0 n q = false) : packMag 0 n q ≤ 126 := by
  by_cases hn : n = 0
  · simp [packMag, hn]
  have hexp : q + n.log2 ≤ 8 := exponent_le_of_not_beyond hn h
  rcases hexp.lt_or_eq with hlt | heq
  · exact (packMag_lt (fmt := 0) (x := 15) (by decide) (by show q + n.log2 + 7 < 15; omega) hq).le.trans (by decide)
  · have hsig : significand 3 n ≤ 14 := by
      simp only [beyond, magGt, fmtDef, decide_eq_false_iff_not, Nat.not_lt] at h
      rw [significand]
      split
      next hbig =>
        have hlo : min q 6 = q := by omega
        rw [hlo, Int.sub_self, Int.toNat_zero, Nat.pow_zero, Nat.mul_one, show (6 - q).toNat = n.log2 - 3 + 1 by omega,
          Nat.pow_succ] at h
        exact Nat.div_le_of_le_mul (by omega)
      next hsmall =>
        have hlo : min q 6 = 6 := by omega
        rw [hlo, show (q - 6).toNat = 2 - n.log2 by omega] at h
        rw [show 3 - n.log2 = 2 - n.log2 + 1 by omega, Nat.pow_succ, ← Nat.mul_assoc]
        simp at h
        omega
    rw [packMag_normal hn (by show 1 - 7 ≤ q + n.log2; omega), heq]
    show 15 * 8 + (significand 3 n - 8) ≤ 126
    omega

/-! ## Conversions and block elements -/

/-- A conversion of a number that is no NaN gives none. -/
theorem convert_ne_nan {fmt : Nat} (hfmt : fmt = 3 ∨ fmt = 4) (mode r : Nat) {x : Num} (hx : x ≠ .nan) :
    decodeElem fmt (convert fmt mode r x).1 ≠ .nan := by
  have hfmt' : fmt = 1 ∨ fmt = 3 ∨ fmt = 4 := .inr hfmt
  cases x with
  | nan => exact absurd rfl hx
  | inf n => exact decodeElem_ne_nan hfmt' (Nat.le_refl _) n
  | fin n m e ex =>
    by_cases hm : m = 0
    · simp only [convert, if_pos hm]
      exact decodeElem_ne_nan hfmt' (Nat.zero_le _) n
    by_cases hb : beyond fmt m e = true
    · simp only [convert, if_neg hm, if_pos hb]
      exact decodeElem_ne_nan hfmt' (by split <;> omega) n
    · simp only [convert, if_neg hm, if_neg hb]
      exact decodeElem_ne_nan hfmt' (packMag_roundMag_le_infMag hfmt' mode r hm (by simpa using hb)) n

theorem encodeElem_f8g_ne_nan (mode r : Nat) (x : Int) {v : Num} (hv : v ≠ .nan) :
    decodeElem 1 (encodeElem 1 mode r x v).1 ≠ .nan := by
  cases v with
  | nan => exact absurd rfl hv
  | inf n => exact decodeElem_ne_nan (.inl rfl) (Nat.le_refl _) n
  | fin n m e ex =>
    by_cases hm : m = 0
    · simp only [encodeElem, if_pos hm]
      exact decodeElem_ne_nan (.inl rfl) (Nat.zero_le _) n
    by_cases hb : beyond 1 (roundMag 1 mode r m (e - x)).1 (roundMag 1 mode r m (e - x)).2 = true
    · simp only [encodeElem, if_neg hm, if_pos hb]
      exact decodeElem_ne_nan (.inl rfl) (packMag_le_infMag (.inl rfl) (by decide) (by decide)) n
    · simp only [encodeElem, if_neg hm, if_neg hb]
      exact decodeElem_ne_nan (.inl rfl) (packMag_le_infMag (.inl rfl) (lastPlace_ge 1 m _) (Bool.eq_false_of_not_eq_true hb)) n

/-- An element of an F8A block that reads as NaN is the canonical one: an infinity becomes it too. -/
theorem encodeElem_f8a_nan (mode r : Nat) (x : Int) {v : Num}
    (h : decodeElem 0 (encodeElem 0 mode r x v).1 = .nan) : (encodeElem 0 mode r x v).1 = 0x7F := by
  cases v with
  | nan => rfl
  | inf n => rfl
  | fin n m e ex =>
    refine absurd h ?_
    by_cases hm : m = 0
    · simp only [encodeElem, if_pos hm]
      exact decodeElem_f8a_ne_nan (Nat.zero_le _) n
    by_cases hb : beyond 0 (roundMag 0 mode r m (e - x)).1 (roundMag 0 mode r m (e - x)).2 = true
    · simp only [encodeElem, if_neg hm, if_pos hb]
      exact decodeElem_f8a_ne_nan (packMag_f8a_le (by decide) (by decide)) n
    · simp only [encodeElem, if_neg hm, if_neg hb]
      exact decodeElem_f8a_ne_nan (packMag_f8a_le (lastPlace_ge 0 m _) (Bool.eq_false_of_not_eq_true hb)) n

/-! ## F32 operations -/

theorem f32IsNan_iff (w : F32) : f32IsNan w = true ↔ f32Num w = .nan := by
  rw [f32Num, decodeElem_eq_nan_iff rfl, f32IsNan, f32Special, Bool.and_eq_true, beq_iff_eq, bne_iff_ne]
  exact Iff.rfl

/-- The pattern of a number that is no NaN is none. -/
theorem toF32_ne_nan {x : Num} (hx : x ≠ .nan) : f32IsNan (toF32 x).1 = false := by
  have hpattern : ∀ (n : Bool) (v : Nat), v ≤ infMag 4 → f32IsNan (BitVec.ofNat 32 (signBit 4 n + v)) = false := by
    intro n v hv
    have hlt : signBit 4 n + v < 2 ^ 32 := by
      cases n <;> simp [infMag, signBit, fmtDef] at hv ⊢ <;> omega
    rw [← Bool.not_eq_true, f32IsNan_iff, f32Num, BitVec.toNat_ofNat, Nat.mod_eq_of_lt hlt]
    exact decodeElem_ne_nan (.inr (.inr rfl)) hv n
  cases x with
  | nan => exact absurd rfl hx
  | inf n => exact hpattern n _ (Nat.le_refl _)
  | fin n m e ex =>
    by_cases hm : m = 0
    · simp only [toF32, if_pos hm]
      exact hpattern n 0 (Nat.zero_le _)
    by_cases hb : beyond 4 (roundMag 4 0 0 m e).1 (roundMag 4 0 0 m e).2 = true
    · simp only [toF32, if_neg hm, if_pos hb]
      exact hpattern n _ (Nat.le_refl _)
    · simp only [toF32, if_neg hm, if_neg hb]
      exact hpattern n _ (packMag_le_infMag (.inr (.inr rfl)) (lastPlace_ge 4 m _) (Bool.eq_false_of_not_eq_true hb))

/-- A pattern that an operation gives and that is a NaN is the canonical one. -/
theorem toF32_canonical {x : Num} (h : f32IsNan (toF32 x).1 = true) : (toF32 x).1 = 0x7FC00000 := by
  by_cases hx : x = .nan
  · rw [hx]; rfl
  · simp [toF32_ne_nan hx] at h

theorem addNum_nan_left (x y : Num) (hx : x = .nan) : (addNum x y).1 = .nan := by rw [hx]; rfl
theorem addNum_nan_right (x y : Num) (hy : y = .nan) : (addNum x y).1 = .nan := by rw [hy]; cases x <;> rfl
theorem mulNum_nan_left (x y : Num) (hx : x = .nan) : (mulNum x y).1 = .nan := by rw [hx]; rfl
theorem mulNum_nan_right (x y : Num) (hy : y = .nan) : (mulNum x y).1 = .nan := by rw [hy]; cases x <;> rfl

/-- Whether a pattern is a NaN does not turn on its sign. -/
theorem f32IsNan_congr {x y : F32} (h : x.toNat % 2 ^ 31 = y.toNat % 2 ^ 31) : f32IsNan x = f32IsNan y := by
  have hexp : bits x.toNat 30 23 = bits y.toNat 30 23 := by
    simp only [bits, Nat.shiftRight_eq_div_pow]
    omega
  have hfrac : x.toNat % 8388608 = y.toNat % 8388608 := by omega
  rw [f32IsNan, f32IsNan, f32Special, f32Special, hexp, hfrac]

theorem f32IsNan_neg (x : F32) : f32IsNan (x ^^^ 0x80000000) = f32IsNan x := by
  refine f32IsNan_congr ?_
  rw [BitVec.toNat_xor, Nat.xor_mod_two_pow]
  exact Nat.xor_zero _

/-- Settles O11: what is no NaN is rounded to at most infinity's bits, and what is one becomes the canonical NaN. -/
theorem naNsAreCanonical : Obligations.NaNsAreCanonical := by
  unfold Obligations.NaNsAreCanonical
  refine ⟨fun fmt mode r x hfmt h => ?_, fun fmt mode r x v hfmt h => ?_, fun x y => ⟨toF32_canonical, toF32_canonical,
    toF32_canonical, fun hx => ?_⟩, fun x y z => ⟨toF32_canonical, fun h => ?_⟩⟩
  · by_cases hx : x = .nan
    · rw [hx]
      rcases hfmt with rfl | rfl <;> rfl
    · exact absurd h (convert_ne_nan hfmt mode r hx)
  · rcases hfmt with rfl | rfl
    · exact encodeElem_f8a_nan mode r x h
    · by_cases hv : v = .nan
      · rw [hv]; rfl
      · exact absurd h (encodeElem_f8g_ne_nan mode r x hv)
  · have hnum := (f32IsNan_iff x).1 hx
    have hneg := (f32IsNan_iff _).1 ((f32IsNan_neg x).trans hx)
    simp only [f32Add, f32Sub, f32Mul, addNum_nan_left _ _ hnum, addNum_nan_right _ _ hnum, addNum_nan_right _ _ hneg,
      mulNum_nan_left _ _ hnum, mulNum_nan_right _ _ hnum]
    decide
  · have hsum : (addNum (mulNum (f32Num x) (f32Num y)).1 (f32Num z)).1 = .nan := by
      rcases h with h | h | h
      · exact addNum_nan_left _ _ (mulNum_nan_left _ _ ((f32IsNan_iff x).1 h))
      · exact addNum_nan_left _ _ (mulNum_nan_right _ _ ((f32IsNan_iff y).1 h))
      · exact addNum_nan_right _ _ ((f32IsNan_iff z).1 h)
    simp only [f32Fma, hsum]
    rfl

end Sys2Proof.Machine
end

section

-- One declaration after another: elaborated side by side, they take more threads than the check allows.
set_option Elab.async false

/-! The registers that the carrying of frames counts in: cells, routing decisions and the frames that no peer can take. -/

namespace Sys2Proof.Machine

open Sys2Proof (Delivery Disc)

/-- The counters of the pools that cells and setts are taken from and returned to. -/
def poolCounters : List Reg :=
  [.poolEmptyFail, .poolQuotaFail, .poolBadPointer, .poolFreeNotAlloc, .poolFreeNotOwner, .poolUnderflow, .poolOverflow,
   .poolAllocOk, .poolFreeOk]

/-- A register word that neither events nor the pools count in. -/
def Reg.cellQuiet (r : Reg) (i : Nat) : Prop := r.quiet i ∧ ∀ q ∈ poolCounters, ∀ k, k < 5 → r.key i ≠ q.key k

theorem Reg.cellQuiet_of_lt {r : Reg} (hr : ∀ q ∈ eventRegs ++ poolCounters, r.ctorIdx ≠ q.ctorIdx) {i : Nat} (hi : i < 8192) :
    r.cellQuiet i :=
  ⟨Reg.quiet_of_lt (fun q hq => hr q (List.mem_append_left _ hq)) hi,
    fun q hq _ hk => Reg.key_ne (hr q (List.mem_append_right _ hq)) hi (by omega)⟩

/-! ## Cells -/

section

variable {r : Reg} {i : Nat} (hr : r.cellQuiet i)

include hr

theorem State.poolCount_reg (s : State) {q : Reg} (hq : q ∈ poolCounters) {k : Nat} (hk : k < 5) (n : Nat) :
    (s.bump q k n).reg r i = s.reg r i := State.reg_bump_ne s n (hr.2 q hq k hk)

theorem State.poolFail_reg (s : State) {k : Nat} (hk : k < 5) (m op q st a : Nat) :
    (s.poolFail m op k q st a).reg r i = s.reg r i := by
  delta State.poolFail
  extract_lets t
  rw [State.poolRefused_reg hr.1]
  unfold t
  split_ifs
  iterate 7 exact State.poolCount_reg hr s (by decide) hk 1
  rfl

theorem State.returnSett_reg (s : State) (a : Nat) {k : Nat} (hk : k < 5) : (s.returnSett a k).reg r i = s.reg r i :=
  State.poolCount_reg hr _ (by decide) hk 1

/-- A sett that is given back counts in its pool. -/
theorem State.free_reg (s : State) (m q a : Nat) : (s.free m q a).2.reg r i = s.reg r i := by
  rw [State.free]
  split
  · exact State.poolFail_reg hr s (by decide) _ _ _ _ _
  next k hk => exact State.poolFail_reg hr s (State.settAt_lt hk) _ _ _ _ _
  next k hk =>
    have hlt := State.settAt_lt hk
    split
    · split <;> exact State.poolFail_reg hr s hlt _ _ _ _ _
    · split
      · split
        · exact State.returnSett_reg hr s a hlt
        · rfl
      · split
        · exact State.poolFail_reg hr s hlt _ _ _ _ _
        · exact State.returnSett_reg hr s a hlt

theorem State.releaseCells_reg (s : State) (tile : Nat) (as : List Nat) : (s.releaseCells tile as).reg r i = s.reg r i :=
  foldl_leaves (p := fun u : State => u.reg r i) (fun u a => State.free_reg hr u _ _ a) as s

theorem State.releaseCopy_reg (s : State) (id : Nat) : (s.releaseCopy id).reg r i = s.reg r i := by
  rw [State.releaseCopy]
  split
  · rfl
  · split <;> exact State.releaseCells_reg hr _ _ _

theorem State.takeInternal_reg (s : State) (d : Delivery) : (s.takeInternal d).reg r i = s.reg r i := by
  rw [State.takeInternal]
  split
  · rfl
  · exact State.releaseCopy_reg hr _ _

theorem State.takeLocal_reg (s : State) (p op : Nat) (kind : Option Nat) : (s.takeLocal p op kind).reg r i = s.reg r i := by
  delta State.takeLocal
  extract_lets found
  clear_value found
  cases found with
  | none => rfl
  | some d => exact State.takeInternal_reg hr s d

theorem State.returnCells_reg (s : State) (tile cls : Nat) (as : List Nat) (shared : Bool) :
    (s.returnCells tile cls as shared).reg r i = s.reg r i :=
  foldl_leaves (p := fun u : State => u.reg r i) (fun u a => State.returnSett_reg hr u a (by decide)) as
    (s.uncharge tile cls as.length shared)

theorem State.takeCells_reg (s : State) (tile cls n count : Nat) : (s.takeCells tile cls n count).2.reg r i = s.reg r i := by
  rw [State.takeCells]
  split
  · rfl
  · split
    · exact State.poolFail_reg hr s (by decide) _ _ _ _ _
    · exact State.poolCount_reg hr _ (by decide) (by decide) _

/-- A frame that is stored counts in the pools alone. -/
theorem State.storeFrame_reg (s : State) (f : Frame) (port : Option Nat) (tile cls : Nat) (cells : List Nat × Bool)
    (marked : Bool) (copies : List Copy) : (s.storeFrame f port tile cls cells marked copies).reg r i = s.reg r i := by
  rw [State.storeFrame]
  split
  · exact State.returnCells_reg hr s _ _ _ _
  · refine (foldl_leaves (p := fun u : State => u.reg r i) (fun u c => ?_) copies _).trans ?_
    · exact State.reg_congr (State.keepsBut_regs (State.enqueue_keepsBut u _ _ _ _ _ c)) r i
    · exact State.reg_congr (State.keepsBut_regs (State.stzWatch_keepsBut s f port copies)) r i

theorem State.admitOwn_reg (s : State) (f : Frame) (copies : List Copy) (tile : Nat) :
    (s.admitOwn f copies tile).reg r i = s.reg r i := by
  have htake := State.takeCells_reg hr s tile f.hdr.cls (frameCells f.hdr) copies.length
  rw [State.admitOwn]
  split
  next cells u hu =>
    rw [hu] at htake
    exact (State.storeFrame_reg hr u _ _ _ _ _ _ _).trans htake
  next hu =>
    rw [hu] at htake
    exact htake

/-- A frame to the neighbour on one port. -/
theorem State.sendLinkLocal_reg (s : State) (p op : Nat) (payload : List Byte) :
    (s.sendLinkLocal p op payload).reg r i = s.reg r i := by
  rw [State.sendLinkLocal]
  split
  · rfl
  · exact State.admitOwn_reg hr s _ _ _

theorem State.sendDisc_reg (s : State) (p : Nat) (d : Disc) : (s.sendDisc p d).reg r i = s.reg r i :=
  State.sendLinkLocal_reg hr s.stamped p _ _

end

/-! ## Reports that the taking of a frame raises -/

theorem State.opFail_reports (s : State) (m op k r st a : Nat) : s.reportsOnly (s.opFail m op k r st a).2 :=
  s.poolFail_reports m op k r st a

theorem State.reports_of_flt {s t : State} (h : t.flt = s.flt) : s.reportsOnly t := ⟨[], by rw [h, List.append_nil]⟩

theorem State.free_reports (s : State) (m r a : Nat) : s.reportsOnly (s.free m r a).2 := by
  rw [State.free]
  split
  · exact s.opFail_reports _ _ _ _ _ _
  · exact s.opFail_reports _ _ _ _ _ _
  · split
    · split <;> exact s.opFail_reports _ _ _ _ _ _
    · split
      · split
        · exact State.reports_of_flt rfl
        · exact State.reports_of_flt rfl
      · split
        · exact s.opFail_reports _ _ _ _ _ _
        · exact State.reports_of_flt rfl

theorem State.releaseCells_reports (s : State) (tile : Nat) (as : List Nat) : s.reportsOnly (s.releaseCells tile as) :=
  State.reports_foldl (fun u a => u.free_reports _ _ a) s.reports_refl

theorem State.releaseCopy_reports (s : State) (id : Nat) : s.reportsOnly (s.releaseCopy id) := by
  rw [State.releaseCopy]
  split
  · exact s.reports_refl
  · split
    · exact State.reports_then (State.releaseCells_reports _ _ _) (State.reports_of_flt rfl)
    · exact State.reports_then (State.releaseCells_reports _ _ _) (State.reports_of_flt rfl)

theorem State.takeInternal_reports (s : State) (d : Delivery) : s.reportsOnly (s.takeInternal d) := by
  rw [State.takeInternal]
  split
  · exact s.reports_refl
  · exact State.reports_then (State.releaseCopy_reports _ _) (State.reports_of_flt rfl)

theorem State.takeLocal_reports (s : State) (p op : Nat) (kind : Option Nat) : s.reportsOnly (s.takeLocal p op kind) := by
  delta State.takeLocal
  extract_lets found
  clear_value found
  cases found with
  | none => exact s.reports_refl
  | some d => exact s.takeInternal_reports d

/-! ## Frames of internal endpoints -/

/-- The counters of routing decisions, and the mark of an acknowledgement of the stash unit. -/
def routeCounters : List Reg :=
  [.routeViaRedraw, .routeViaNone, .routeC7Detour, .routeHedgeDrop, .routeUnroutable, .stashMarked]

/-- A register word that the sending of a frame does not count in. -/
def Reg.sendQuiet (r : Reg) (i : Nat) : Prop :=
  r.cellQuiet i ∧ (∀ q ∈ routeCounters, r.key i ≠ q.key 0) ∧ ∀ p, r.key i ≠ Reg.portHdrDrop.key p

/-- A register whose number is below that of the dropped headers, whatever the port. -/
theorem Reg.sendQuiet_of_lt {r : Reg} (hr : ∀ q ∈ eventRegs ++ poolCounters ++ routeCounters, r.ctorIdx ≠ q.ctorIdx)
    (hlow : r.ctorIdx < Reg.portHdrDrop.ctorIdx) {i : Nat} (hi : i < 8192) : r.sendQuiet i :=
  ⟨Reg.cellQuiet_of_lt (fun q hq => hr q (List.mem_append_left _ hq)) hi,
    fun q hq => Reg.key_ne (hr q (List.mem_append_right _ hq)) hi (by decide),
    fun p => by unfold Reg.key; omega⟩

/-- Every count is one of a routing decision, or of a frame that a peer cannot take. -/
def routeOnly (cs : Counts) : Prop := ∀ c ∈ cs, (c.1 ∈ routeCounters ∧ c.2.1 = 0) ∨ c.1 = .portHdrDrop

theorem routeOnly_append {cs ds : Counts} (hc : routeOnly cs) (hd : routeOnly ds) : routeOnly (cs ++ ds) := fun c h =>
  (List.mem_append.1 h).elim (hc c) (hd c)

theorem routeOnly_nil : routeOnly [] := fun _ h => absurd h (List.not_mem_nil)

theorem routeOnly_singleton {q : Reg} (hq : q ∈ routeCounters) (n : Nat) : routeOnly [(q, 0, n)] := fun _ h =>
  .inl ⟨List.mem_singleton.1 h ▸ hq, by rw [List.mem_singleton.1 h]⟩

theorem routeOnly_ite {p : Prop} [Decidable p] {cs ds : Counts} (hc : routeOnly cs) (hd : routeOnly ds) :
    routeOnly (if p then cs else ds) := by split; exacts [hc, hd]

theorem routeCounts_routeOnly (n : Nat) (v d : Bool) : routeOnly (routeCounts n v d) :=
  routeOnly_append (routeOnly_append (routeOnly_ite routeOnly_nil (routeOnly_singleton (by decide) n))
    (routeOnly_ite (routeOnly_singleton (by decide) 1) routeOnly_nil))
    (routeOnly_ite (routeOnly_singleton (by decide) 1) routeOnly_nil)

theorem detourCounts_routeOnly (h : Hdr) (x : Option Copy × Nat) : routeOnly (detourCounts h x) :=
  routeOnly_append (routeCounts_routeOnly _ _ _) (routeOnly_ite routeOnly_nil (routeOnly_singleton (by decide) 1))

theorem State.fabricCopies_routeOnly (s : State) (pl : Plan) (h : Hdr) (g : GroupSt) (atHome : Bool)
    (arrived : Option (Nat × Nat)) : routeOnly (s.fabricCopies pl h g atHome arrived).2 := by
  simp only [State.fabricCopies]
  split
  · intro c hc
    obtain ⟨x, -, hx⟩ := List.mem_flatMap.1 hc
    exact detourCounts_routeOnly h x c hx
  · exact routeOnly_ite routeOnly_nil (routeOnly_singleton (by decide) _)

theorem State.mcCopies_routeOnly (s : State) (h : Hdr) (atHome : Bool) (arrived : Option (Nat × Nat)) :
    routeOnly (s.mcCopies h atHome arrived).2 := by
  rw [State.mcCopies]
  split
  · refine routeOnly_append (cs := [(_, 0, _), (_, 0, _)]) (routeOnly_append (cs := [_]) (ds := [_])
      (routeOnly_singleton (by decide) _) (routeOnly_singleton (by decide) _)) ?_
    split
    · exact s.fabricCopies_routeOnly _ _ _ _ _
    · exact routeOnly_nil
  · exact routeOnly_nil

theorem State.fitCopies_routeOnly (s : State) (h : Hdr) (p : Option Nat) (cs : List Copy) : routeOnly (s.fitCopies h p cs).2 :=
  fun c hc => by
    obtain ⟨x, -, hx⟩ := List.mem_map.1 hc
    exact .inr (by rw [← hx])

section

variable {r : Reg} {i : Nat} (hr : r.sendQuiet i)

include hr

theorem State.routeCount_reg (s : State) {q : Reg} (hq : q ∈ routeCounters) (n : Nat) : (s.bump q 0 n).reg r i = s.reg r i :=
  State.reg_bump_ne s n (hr.2.1 q hq)

theorem State.count_reg (s : State) {cs : Counts} (hc : routeOnly cs) : (s.count cs).reg r i = s.reg r i := by
  rw [State.count]
  refine List.foldlRecOn (motive := fun (u : State) => u.reg r i = s.reg r i) cs _ rfl fun u hu c hmem => ?_
  rw [← hu]
  rcases hc c hmem with ⟨hq, h0⟩ | hq
  · rw [h0]
    exact State.routeCount_reg hr u hq _
  · rw [hq]
    exact State.reg_bump_ne u _ (hr.2.2 _)

/-- A frame that an internal endpoint puts into the switch. -/
theorem State.inject_reg (s : State) (f : Frame) (at_ : Option Nat) : (s.inject f at_).2.reg r i = s.reg r i := by
  delta State.inject
  extract_lets tile
  split
  · rfl
  split
  · dsimp only
    have hcount := State.count_reg hr s (routeOnly_append (s.mcCopies_routeOnly f.hdr true none)
      (s.fitCopies_routeOnly f.hdr none (s.mcCopies f.hdr true none).1))
    split
    · exact hcount
    · exact (State.admitOwn_reg hr.1 _ _ _ _).trans hcount
  · split
    · exact State.admitOwn_reg hr.1 s _ _ _
    next c n v d hroute =>
      have hcount := State.count_reg hr s (routeCounts_routeOnly n v d)
      dsimp only
      split
      · exact (State.admitOwn_reg hr.1 _ _ _ _).trans hcount
      · exact (State.reg_bump_ne _ _ (hr.2.2 _)).trans hcount
    · exact State.routeCount_reg hr s (by decide) 1
    next n v d hroute =>
      exact (State.routeCount_reg hr _ (by decide) 1).trans (State.count_reg hr s (routeCounts_routeOnly n v d))

theorem State.sendAck_reg (s : State) (h : Hdr) (ep : Nat) (a : AckInfo) : (s.sendAck h ep a).reg r i = s.reg r i := by
  rw [State.sendAck]
  refine (State.inject_reg hr _ _ _).trans ?_
  split
  · exact State.routeCount_reg hr s (by decide) 1
  · rfl

theorem State.originate_reg (s : State) (f : Frame) (at_ : Option Nat) : (s.originate f at_).reg r i = s.reg r i := by
  have hin := State.inject_reg hr s f at_
  rw [State.originate]
  split
  · rw [State.ratedRefusal]
    split
    · exact hin
    · dsimp only
      split
      · exact hin
      · exact (State.sendAck_reg hr _ _ _ _).trans hin
  · exact hin

omit hr in
theorem State.note_reg (s : State) (o : Owner) (n : Note) : (s.note o n).reg r i = s.reg r i :=
  State.reg_congr (State.keepsBut_regs (s.note_frame o n)) r i

omit hr in
theorem State.setTx_reg (s : State) (t : TxFlow) : (s.setTx t).reg r i = s.reg r i := rfl

/-- An acked frame that is sent in its flow, or queued. -/
theorem State.send_reg (s : State) (f : Frame) (o : Owner) : (s.send f o).reg r i = s.reg r i := by
  delta State.send
  extract_lets k t h f' w u s1
  have hnotes : s1.reg r i = s.reg r i := by
    unfold s1
    split
    · exact foldl_leaves (p := fun u : State => u.reg r i) (fun u m => State.note_reg u _ _) _ s
    · rfl
  split_ifs
  · rfl
  · exact (State.note_reg _ _ _).trans (State.routeCount_reg hr s (by decide) 1)
  · exact (State.note_reg _ _ _).trans ((State.originate_reg hr _ _ _).trans hnotes)
  · exact (State.originate_reg hr _ _ _).trans hnotes
  · rfl

end

end Sys2Proof.Machine
end

section

-- One declaration after another: elaborated side by side, they take more threads than the check allows.
set_option Elab.async false

/-! Discovery: a HELLO judges a port, timers hold it, digests are compared (R109–R111, R118). -/

namespace Sys2Proof.Machine

open Sys2Proof (Instr Disc)

theorem State.route_congr {s u : State} (h : u.topo.ports = s.topo.ports) (p : Nat) : u.route p = s.route p := by
  rw [State.route, State.route, h]

theorem State.trunks_route {s u : State} (h : s.trunksOnly u) (p : Nat) : u.route p = s.route p :=
  State.route_congr (by rw [h]) p

/-! ## Nodes: what only ever marks them lost -/

/-- Nodes have only been marked lost. -/
def State.lostOnly (s t : State) : Prop :=
  ∀ n, (t.ls n).seq = (s.ls n).seq ∧ (t.ls n).missing = (s.ls n).missing ∧ (s.isLost n = true → t.isLost n = true)

theorem State.lostOnly_refl (s : State) : s.lostOnly s := fun _ => ⟨rfl, rfl, id⟩

theorem State.lostOnly_trans {z s t : State} (h : z.lostOnly s) (h' : s.lostOnly t) : z.lostOnly t := fun n =>
  ⟨(h' n).1.trans (h n).1, (h' n).2.1.trans (h n).2.1, fun hl => (h' n).2.2 ((h n).2.2 hl)⟩

theorem State.lostOnly_of_nodes {s t : State} (h : t.topo.nodes = s.topo.nodes) : s.lostOnly t := fun n => by
  rw [State.isLost, State.isLost, State.ls, State.ls, h]
  exact ⟨rfl, rfl, id⟩

theorem State.lostOnly_foldl {α : Type} {z s : State} {f : State → α → State} {l : List α}
    (h : ∀ (s : State) x, s.lostOnly (f s x)) (hs : z.lostOnly s) : z.lostOnly (l.foldl f s) :=
  List.foldlRecOn (motive := fun u : State => z.lostOnly u) l f hs fun u hu x _ => State.lostOnly_trans hu (h u x)

theorem State.ls_setLs (s : State) (n : Nat) (f : NodeLs → NodeLs) : (s.setLs n f).ls n = f (s.ls n) := by
  simp [State.ls, State.setLs, State.setTopo]

theorem State.ls_setLs_ne (s : State) {n m : Nat} (f : NodeLs → NodeLs) (h : m ≠ n) : (s.setLs n f).ls m = s.ls m := by
  simp [State.ls, State.setLs, State.setTopo, NMap.getD_upd_ne _ _ _ _ h]

/-- A change of an entry that keeps the missing trunks and the number heard, and loses no mark. -/
theorem State.setLs_lostOnly (s : State) (n : Nat) {f : NodeLs → NodeLs} (hseq : ∀ l, (f l).seq = l.seq)
    (hmiss : ∀ l, (f l).missing = l.missing) (hlost : ∀ l, l.lost = true → (f l).lost = true) : s.lostOnly (s.setLs n f) := by
  intro m
  by_cases h : m = n
  · subst h
    rw [State.isLost, State.isLost, State.ls_setLs]
    exact ⟨hseq _, hmiss _, hlost _⟩
  · rw [State.isLost, State.isLost, State.ls_setLs_ne _ _ h]
    exact ⟨rfl, rfl, id⟩

theorem State.markLost_lostOnly (s : State) (n : Nat) : s.lostOnly (s.markLost n) := by
  rw [State.markLost]
  split
  · exact s.lostOnly_refl
  · exact State.lostOnly_trans (s.setLs_lostOnly n (f := fun l => { l with lost := true, back := false }) (fun _ => rfl)
      (fun _ => rfl) (fun _ _ => rfl)) (State.lostOnly_of_nodes rfl)

theorem State.markLost_isLost {s : State} {n : Nat} (h : n ≠ s.me) : (s.markLost n).isLost n = true := by
  rw [State.markLost]
  split
  next hl => exact (Bool.or_eq_true _ _).mp (by simpa [h] using hl) |>.elim id id
  next =>
    show ((s.setLs n fun l => { l with lost := true, back := false }).ls n).lost = true
    rw [State.ls_setLs]

theorem State.lostCheck_lostOnly (s : State) (n t : Nat) : s.lostOnly (s.lostCheck n t) := by
  simp only [State.lostCheck]
  split
  · exact s.lostOnly_refl
  · refine State.lostOnly_foldl (fun u m => ?_) s.lostOnly_refl
    split
    · exact u.markLost_lostOnly m
    · exact u.lostOnly_refl

theorem State.event_lostOnly (s : State) (severity source code : Nat) (data : List Byte) (status master : Nat) :
    s.lostOnly (s.event severity source code data status master) :=
  State.lostOnly_of_nodes (congrArg TopoSt.nodes (State.event_topo s _ _ _ _ _ _))

theorem State.originateNotice_lostOnly (s : State) (t e : Nat) : s.lostOnly (s.originateNotice t e) :=
  State.lostOnly_of_nodes (s.originateNotice_nodes t e)

theorem State.trunkChanged_lostOnly (s : State) (t : Nat) (missing : Bool) : s.lostOnly (s.trunkChanged t missing) := by
  delta State.trunkChanged
  extract_lets s1 s2 s3
  have h1 : s.lostOnly s1 := State.lostOnly_of_nodes (s.setUnreported_nodes _)
  have h2 : s.lostOnly s2 := State.lostOnly_trans h1 (s1.event_lostOnly _ _ _ _ _ _)
  have h3 : s.lostOnly s3 := State.lostOnly_trans h2 (s2.originateNotice_lostOnly t _)
  split
  · exact State.lostOnly_trans h3 (State.lostCheck_lostOnly _ _ _)
  · exact h3

/-- The check of the own trunks only marks nodes lost. -/
theorem State.trunkCheck_lostOnly (s : State) : s.lostOnly s.trunkCheck := by
  delta State.trunkCheck
  extract_lets old now s1
  have h1 : s1.topo.nodes = s.topo.nodes := s.setOwnMissing_nodes now
  clear_value s1 now
  exact State.lostOnly_foldl (fun u t => u.trunkChanged_lostOnly t _) (State.lostOnly_of_nodes h1)

/-! ## Reports that a held port raises -/

theorem State.moveEntry_reports (s : State) (p tile cls : Nat) (drain : Bool) (e : Entry) :
    s.reportsOnly (s.moveEntry p tile cls drain e) := by
  delta State.moveEntry
  split
  · exact s.reports_refl
  · extract_lets h
    split
    · exact State.reports_of_flt rfl
    · split
      · exact State.reports_of_flt (State.keepsBut_flt (State.enqueue_keepsBut s _ _ _ _ _ _))
      · exact State.reports_then (State.releaseCopy_reports _ _) (State.reports_of_flt rfl)

theorem State.flushPort_reports (s : State) (p : Nat) (drain : Bool) : s.reportsOnly (s.flushPort p drain) := by
  delta State.flushPort
  extract_lets keys t
  have ht : s.reportsOnly t := State.reports_foldl (fun u tc => by
    dsimp only
    split
    · exact u.reports_refl
    · exact State.reports_foldl (fun v e => v.moveEntry_reports _ _ _ _ e) (State.reports_of_flt rfl)) s.reports_refl
  clear_value t
  exact State.reports_then (State.reports_of_flt rfl) ht

theorem State.holdPort_reports (s : State) (p k : Nat) : s.reportsOnly (s.holdPort p k) := by
  rw [State.holdPort]
  refine State.reports_then (State.reports_of_flt (State.keepsBut_flt (State.event_keepsBut _ _ _ _ _ _ _)))
    (State.reports_then (State.flushPort_reports _ _ _) (State.reports_of_flt ?_))
  exact State.keepsBut_flt (State.keepsBut_then (State.setRoute_keepsBut _ p _) (s.learnPeer_keepsBut p) rfl)

/-- The mode of the ports is no counter. -/
theorem portMode_cellQuiet : Reg.portMode.cellQuiet 0 := Reg.cellQuiet_of_lt (by decide) (by decide)

theorem State.moveEntry_portMode (s : State) (p tile cls : Nat) (drain : Bool) (e : Entry) :
    (s.moveEntry p tile cls drain e).reg .portMode = s.reg .portMode := by
  have hkey : Reg.portMode.key 0 ≠ Reg.portFlushDrop.key p := by
    have hlow : Reg.portMode.ctorIdx < Reg.portFlushDrop.ctorIdx := by decide
    unfold Reg.key
    omega
  delta State.moveEntry
  split
  · rfl
  · extract_lets h
    split
    · rfl
    · split
      · exact State.reg_congr (State.keepsBut_regs (State.enqueue_keepsBut s _ _ _ _ _ _)) _ 0
      · exact (State.releaseCopy_reg portMode_cellQuiet _ _).trans (State.reg_bump_ne s 1 hkey)

theorem State.flushPort_portMode (s : State) (p : Nat) (drain : Bool) :
    (s.flushPort p drain).reg .portMode = s.reg .portMode := by
  delta State.flushPort
  extract_lets keys t
  have ht : t.reg .portMode = s.reg .portMode := foldl_leaves (p := fun u : State => u.reg .portMode) (fun u tc => by
    dsimp only
    split
    · rfl
    · exact foldl_leaves (p := fun v : State => v.reg .portMode) (fun v e => v.moveEntry_portMode _ _ _ _ e) _ _) keys s
  clear_value t
  exact ht

theorem State.holdPort_portMode (s : State) (p k : Nat) : (s.holdPort p k).reg .portMode = s.reg .portMode := by
  rw [State.holdPort, State.event_reg portMode_cellQuiet.1, State.flushPort_portMode]
  exact State.reg_congr (State.keepsBut_regs (s.learnPeer_keepsBut p)) _ 0

theorem State.leaving_congr {s t : State} (hlink : t.link = s.link) (hmode : t.reg .portMode = s.reg .portMode) (p : Nat) :
    t.leaving p = s.leaving p := by
  simp only [State.leaving, State.lanesOf, State.nominal_congr hmode, hlink]

theorem State.headless_of_reports {s t : State} (h : s.reportsOnly t) : t.flt.headless = s.flt.headless := by
  obtain ⟨l, hl⟩ := h
  rw [hl]

/-! ## A port that is judged -/

/-- Of the route unit only the state of port `p` has changed, its peer and boot_epochs recorded, and not its HELLO. -/
def State.portOnly (p : Nat) (s t : State) : Prop :=
  (∀ q, q ≠ p → t.route q = s.route q) ∧ (t.route p).hello = (s.route p).hello ∧ t.topo.nodes = s.topo.nodes

theorem State.portOnly_refl (p : Nat) (s : State) : s.portOnly p s := ⟨fun _ _ => rfl, rfl, rfl⟩

theorem State.portOnly_trans {p : Nat} {z s t : State} (h : z.portOnly p s) (h' : s.portOnly p t) : z.portOnly p t :=
  ⟨fun q hq => (h'.1 q hq).trans (h.1 q hq), h'.2.1.trans h.2.1, h'.2.2.trans h.2.2⟩

theorem State.portOnly_of_topo {p : Nat} {s t : State} (h : t.topo = s.topo) : s.portOnly p t := by
  simp [State.portOnly, State.route, h]

theorem State.setRoute_portOnly (s : State) (p : Nat) {f : RouteSt → RouteSt} (h : (f (s.route p)).hello = (s.route p).hello) :
    s.portOnly p (s.setRoute p f) :=
  ⟨fun _ hq => s.route_setRoute_ne f hq, by rw [State.route_setRoute]; exact h, rfl⟩

theorem State.learnPeer_portOnly (s : State) (p : Nat) : s.portOnly p (s.learnPeer p) := by
  simp only [State.learnPeer]
  split <;> exact s.setRoute_portOnly p rfl

theorem State.learnPeer_epochs (s : State) (p : Nat) : (s.learnPeer p).topo.epochs = s.topo.epochs := by
  simp only [State.learnPeer]
  split <;> rfl

/-- A port that is held for a reason. -/
theorem State.holdPort_held (s : State) (p k : Nat) :
    s.portOnly p (s.holdPort p k) ∧ ((s.holdPort p k).route p).state = 3 ∧ ((s.holdPort p k).route p).reason = k := by
  have htopo : (s.holdPort p k).topo = ((s.learnPeer p).setRoute p fun r => { r with state := 3, reason := k }).topo := by
    rw [State.holdPort, State.event_topo, State.keepsBut_topo (State.flushPort_keepsBut _ _ _)]
  have hset := (s.learnPeer p).setRoute_portOnly p (f := fun r => { r with state := 3, reason := k }) rfl
  have hroute : (s.holdPort p k).route p = { (s.learnPeer p).route p with state := 3, reason := k } :=
    (State.route_congr (congrArg TopoSt.ports htopo) p).trans (State.route_setRoute _ _ _)
  refine ⟨State.portOnly_trans (State.portOnly_trans (s.learnPeer_portOnly p) hset) (State.portOnly_of_topo htopo), ?_, ?_⟩
  all_goals rw [hroute]

/-- A port that goes in service: the boot_epoch of its peer is recorded where none is. -/
theorem State.servePort_served {s : State} {p : Nat} {d : Disc} (h : (s.route p).hello = some d) :
    s.portOnly p (s.servePort p) ∧ ((s.servePort p).route p).state = 2 ∧ ((s.servePort p).route p).reason = 0 ∧
    ((∀ e, s.topo.epochs.get? d.node = some e → e = d.epoch) → (s.servePort p).topo.epochs.get? d.node = some d.epoch) := by
  delta State.servePort
  extract_lets t
  have ht : s.portOnly p t := State.portOnly_trans (s.learnPeer_portOnly p) (State.setRoute_portOnly _ p rfl)
  have hroute : t.route p = { (s.learnPeer p).route p with state := 2, reason := 0 } := State.route_setRoute _ _ _
  have hepochs : t.topo.epochs = s.topo.epochs := s.learnPeer_epochs p
  have hhello : (t.route p).hello = some d := ht.2.1.trans h
  clear_value t
  rw [hhello]
  dsimp only
  split
  next hsome =>
    refine ⟨ht, by rw [hroute], by rw [hroute], fun hep => ?_⟩
    obtain ⟨e, he⟩ := Option.isSome_iff_exists.1 hsome
    rw [he, hep e (by rw [← hepochs]; exact he)]
  next hnone =>
    have hset : (t.setTopo fun x => { x with epochs := x.epochs.set d.node d.epoch }).route p = t.route p := rfl
    exact ⟨State.portOnly_trans ht ⟨fun _ _ => rfl, rfl, rfl⟩, by rw [hset, hroute], by rw [hset, hroute],
      fun _ => NMap.get?_set _ _ _⟩

section

variable {s : State} {p : Nat} {d : Disc} {pl : Plan} (hport : (s.port p).state = 5) (hheadless : s.flt.headless = false)
  (hleaving : s.leaving p = false) (hrole : s.role p = 2) (hhello : (s.route p).hello = some d) (hplan : s.topo.plan = some pl)

include hport hheadless hleaving hrole

/-- A fabric port that is still to be judged is compared with its plan entry (Table 5.5). -/
theorem State.judgePort_fabric (hst : (s.route p).state = 1 ∨ (s.route p).state = 4) (hhello : (s.route p).hello = some d)
    (hplan : s.topo.plan = some pl) : s.judgePort p =
      if ((s.port p).peer.map CapSet.kind).getD 0 ≠ 0 then s.holdPort p 3
      else if d.node ≠ (s.portEntry p).peer ∨ (s.portEntry p).peerPort ≠ 0xFFFF ∧ d.port ≠ (s.portEntry p).peerPort then
        s.holdPort p 2
      else if d.planId ≠ pl.planId ∨ d.coord ≠ pl.coord d.node then s.holdPort p 4
      else if s.isLost d.node = true ∨ d.portState = 3 ∧ d.portReason = 5 then s.holdPort p 5
      else s.servePort p := by
  have hopen : ((s.port p).state != 5 || s.flt.headless || s.leaving p) = false := by simp [hport, hheadless, hleaving]
  have hjudge : ((s.route p).state = 1 || (s.route p).state = 4) = true := by simpa using hst
  simp only [State.judgePort, hopen, hrole, hjudge, hhello, State.judgeHello, hplan]
  simp [bne_iff_ne]

/-- A fabric port that is held is not judged. -/
theorem State.judgePort_held (hst : (s.route p).state = 3) : s.judgePort p = s := by
  have hopen : ((s.port p).state != 5 || s.flt.headless || s.leaving p) = false := by simp [hport, hheadless, hleaving]
  simp [State.judgePort, hopen, hrole, hst]

end

/-! ## A peer that was reset -/

theorem State.holdPorts_held (l : List Nat) (s : State) (k : Nat) {p : Nat} (hp : p ∈ l ∨
    ((s.route p).state = 3 ∧ (s.route p).reason = k)) :
    (((l.foldl (fun s q => s.holdPort q k) s).route p).state = 3 ∧
    ((l.foldl (fun s q => s.holdPort q k) s).route p).reason = k) := by
  induction l generalizing s with
  | nil => exact hp.resolve_left (List.not_mem_nil)
  | cons q l ih =>
    obtain ⟨hothers, hst, hre⟩ := s.holdPort_held q k
    rw [List.foldl_cons]
    refine ih (s.holdPort q k) ?_
    by_cases hq : p = q
    · subst hq
      exact .inr ⟨hst, hre⟩
    · rw [hothers.1 p hq]
      exact hp.imp_left fun h => (List.mem_cons.1 h).resolve_left hq

theorem State.holdPorts_kept (l : List Nat) (s : State) (k p : Nat) :
    ((l.foldl (fun s q => s.holdPort q k) s).route p).hello = (s.route p).hello ∧
    (p ∉ l → (l.foldl (fun s q => s.holdPort q k) s).route p = s.route p) ∧
    (l.foldl (fun s q => s.holdPort q k) s).topo.nodes = s.topo.nodes := by
  induction l generalizing s with
  | nil => exact ⟨rfl, fun _ => rfl, rfl⟩
  | cons q l ih =>
    obtain ⟨⟨hothers, hhello, hnodes⟩, -, -⟩ := s.holdPort_held q k
    obtain ⟨hrest, hleft, hn⟩ := ih (s.holdPort q k)
    rw [List.foldl_cons]
    refine ⟨hrest.trans ?_, fun hp => (hleft fun h => hp (List.mem_cons_of_mem _ h)).trans
      (hothers p fun h => hp (h ▸ List.mem_cons_self)), hn.trans hnodes⟩
    by_cases hq : p = q
    · rw [hq]; exact hhello
    · rw [hothers p hq]

/-- The ports that a reset peer's HELLO holds (R111). -/
def State.resetPorts (s : State) (n : Nat) : List Nat :=
  (List.range s.portCount).filter fun q =>
    (s.portEntry q).role == 2 && (s.portEntry q).peer == n && (s.port q).state == 5 &&
    !((s.route q).state == 3 && (s.route q).reason == 5)

theorem State.peerReset_eq (s : State) (n : Nat) :
    s.peerReset n = ((s.resetPorts n).foldl (fun s q => s.holdPort q 5) s).markLost n := rfl

theorem State.markLost_ports (s : State) (n : Nat) : (s.markLost n).topo.ports = s.topo.ports := by
  rw [s.markLost_trunks n]

/-- A peer that was reset: a port that leads to it is held for readmission, another keeps its state, and the node is lost. -/
theorem State.peerReset_left (s : State) (n : Nat) {p : Nat} :
    ((s.peerReset n).route p).hello = (s.route p).hello ∧
    ((s.portEntry p).peer ≠ n → (s.peerReset n).route p = s.route p) ∧
    (p ∈ s.resetPorts n → ((s.peerReset n).route p).state = 3 ∧ ((s.peerReset n).route p).reason = 5) ∧
    (n ≠ s.me → (s.peerReset n).isLost n = true) := by
  have hroute : (s.peerReset n).route p = ((s.resetPorts n).foldl (fun s q => s.holdPort q 5) s).route p :=
    State.route_congr (State.markLost_ports _ _) p
  obtain ⟨hhello, hleft, -⟩ := State.holdPorts_kept (s.resetPorts n) s 5 p
  rw [hroute]
  refine ⟨hhello, fun hpeer => hleft fun hmem => hpeer ?_, fun hmem => State.holdPorts_held _ s 5 (.inl hmem), fun hn => ?_⟩
  · have hsel := (List.mem_filter.1 hmem).2
    simp only [Bool.and_eq_true, beq_iff_eq] at hsel
    exact hsel.1.1.2
  · rw [State.peerReset_eq]
    refine State.markLost_isLost ?_
    rwa [State.me, (State.plans_foldl (fun u q => u.holdPort_plans q 5) s.plans_refl).1]

/-- What a reset peer's HELLO leaves of the plan, the links and the headless state. -/
theorem State.peerReset_kept (s : State) (n : Nat) : (s.peerReset n).topo.plan = s.topo.plan ∧
    (s.peerReset n).link = s.link ∧ (s.peerReset n).flt.headless = s.flt.headless ∧
    (s.peerReset n).reg .portMode = s.reg .portMode := by
  have hplan : s.plansKept (s.peerReset n) := by
    rw [State.peerReset_eq]
    exact State.plans_then (State.trunks_plans (State.markLost_trunks _ n))
      (State.plans_foldl (fun u q => u.holdPort_plans q 5) s.plans_refl)
  have hreports : s.reportsOnly (s.peerReset n) := by
    rw [State.peerReset_eq]
    exact State.reports_then (State.reports_of_flt (State.keepsBut_flt (State.markLost_keepsBut _ n)))
      (State.reports_foldl (fun u q => u.holdPort_reports q 5) s.reports_refl)
  have hmode : (s.peerReset n).reg .portMode = s.reg .portMode := by
    rw [State.peerReset_eq]
    exact (State.reg_congr (State.keepsBut_regs (State.markLost_keepsBut _ n)) _ 0).trans
      (foldl_leaves (p := fun u : State => u.reg .portMode) (fun u q => u.holdPort_portMode q 5) _ s)
  exact ⟨hplan.1, State.keepsBut_link (s.peerReset_keepsBut n), State.headless_of_reports hreports, hmode⟩

/-! ## A HELLO that is heard -/

/-- What Table 5.5 makes of a port by a HELLO `d`: `u` after it, `s` before it. -/
def State.helloLeaves (s : State) (p : Nat) (d : Disc) (pl : Plan) (u : State) : Prop :=
  (u.route p).hello = some d ∧
  (if (∃ e, s.topo.epochs.get? d.node = some e ∧ e ≠ d.epoch) ∧ d.node = (s.portEntry p).peer then
      (u.route p).state = 3 ∧ (u.route p).reason = 5 ∧ (d.node ≠ s.me → u.isLost d.node = true)
    else if ((s.port p).peer.map CapSet.kind).getD 0 ≠ 0 then (u.route p).state = 3 ∧ (u.route p).reason = 3
    else if d.node ≠ (s.portEntry p).peer ∨ (s.portEntry p).peerPort ≠ 0xFFFF ∧ d.port ≠ (s.portEntry p).peerPort then
      (u.route p).state = 3 ∧ (u.route p).reason = 2
    else if d.planId ≠ pl.planId ∨ d.coord ≠ pl.coord d.node then (u.route p).state = 3 ∧ (u.route p).reason = 4
    else if s.isLost d.node = true ∨ d.portState = 3 ∧ d.portReason = 5 then
      (u.route p).state = 3 ∧ (u.route p).reason = 5
    else (u.route p).state = 2 ∧ (u.route p).reason = 0 ∧ u.topo.epochs.get? d.node = some d.epoch) ∧
  ((∀ e, s.topo.epochs.get? d.node = some e → e = d.epoch) → ∀ q, q ≠ p → u.route q = s.route q)

/-- What only marks nodes lost leaves the judgement of the port. -/
theorem State.helloLeaves_then {s u v : State} {p : Nat} {d : Disc} {pl : Plan} (h : s.helloLeaves p d pl u)
    (hports : v.topo.ports = u.topo.ports) (hepochs : v.topo.epochs = u.topo.epochs) (hlost : u.lostOnly v) :
    s.helloLeaves p d pl v := by
  have hroute : ∀ q, v.route q = u.route q := State.route_congr hports
  obtain ⟨hhello, hjudged, hothers⟩ := h
  simp only [State.helloLeaves, hroute, hepochs]
  refine ⟨hhello, ?_, hothers⟩
  split
  next hreset =>
    rw [if_pos hreset] at hjudged
    exact ⟨hjudged.1, hjudged.2.1, fun hn => (hlost d.node).2.2 (hjudged.2.2 hn)⟩
  next hreset =>
    rw [if_neg hreset] at hjudged
    exact hjudged

/-- The judgement looks at the route unit and the links. -/
theorem State.helloLeaves_congr {s t u : State} {p : Nat} {d : Disc} {pl : Plan} (h : t.helloLeaves p d pl u)
    (htopo : t.topo = s.topo) (hlink : t.link = s.link) : s.helloLeaves p d pl u := by
  cases s
  cases t
  dsimp only at htopo hlink
  subst htopo hlink
  exact h

/-- The HELLO is recorded, and a port held for want of a reply is open again. -/
def State.helloTaken (s : State) (p : Nat) (d : Disc) (isReply : Bool) : State :=
  let s := s.setRoute p fun r => { r with hello := some d, replied := r.replied || isReply, peerState := d.portState }
  if isReply && (s.route p).state = 3 && (s.route p).reason = 6 then s.setRoute p fun r => { r with state := 1, reason := 0 } else s

section

variable {s : State} {p : Nat} {d : Disc} {pl : Plan} (isReply : Bool)

theorem State.helloTaken_taken (hst : (s.route p).state = 1 ∨ (s.route p).state = 4 ∨
      isReply = true ∧ (s.route p).state = 3 ∧ (s.route p).reason = 6) :
    ((s.helloTaken p d isReply).route p).hello = some d ∧
    (((s.helloTaken p d isReply).route p).state = 1 ∨ ((s.helloTaken p d isReply).route p).state = 4) ∧
    (∀ q, q ≠ p → (s.helloTaken p d isReply).route q = s.route q) := by
  simp only [State.helloTaken, State.route_setRoute]
  split
  next hheld =>
    exact ⟨by rw [State.route_setRoute, State.route_setRoute], .inl (by rw [State.route_setRoute]),
      fun q hq => by rw [State.route_setRoute_ne _ _ hq, State.route_setRoute_ne _ _ hq]⟩
  next hopen =>
    refine ⟨by rw [State.route_setRoute], ?_, fun q hq => State.route_setRoute_ne _ _ hq⟩
    rw [State.route_setRoute]
    rcases hst with h | h | ⟨hr, h3, h6⟩
    · exact .inl h
    · exact .inr h
    · simp [hr, h3, h6] at hopen

theorem State.helloTaken_kept : ∃ ports, s.helloTaken p d isReply = s.setTopo fun t => { t with ports := ports } := by
  simp only [State.helloTaken]
  split
  · exact ⟨_, rfl⟩
  · exact ⟨_, rfl⟩

end

section

variable {s : State} {p : Nat} {d : Disc} {pl : Plan} (hin : p < s.portCount) (hport : (s.port p).state = 5)
  (hheadless : s.flt.headless = false) (hleaving : s.leaving p = false) (hrole : s.role p = 2)
  (hplan : s.topo.plan = some pl) {isReply : Bool}
  (hst : (s.route p).state = 1 ∨ (s.route p).state = 4 ∨ isReply = true ∧ (s.route p).state = 3 ∧ (s.route p).reason = 6)

include hport hheadless hleaving hrole hplan hst

/-- A HELLO of a peer that was not reset judges the port. -/
theorem State.helloTaken_judged (hep : ∀ e, s.topo.epochs.get? d.node = some e → e = d.epoch) :
    s.helloLeaves p d pl ((s.helloTaken p d isReply).judgePort p) := by
  obtain ⟨hhello, hopen, hothers⟩ := State.helloTaken_taken (d := d) isReply hst
  obtain ⟨ports, hkept⟩ := State.helloTaken_kept (s := s) (p := p) (d := d) isReply
  rw [hkept] at hhello hopen hothers ⊢
  generalize ht : (s.setTopo fun t => { t with ports := ports }) = t at hhello hopen hothers
  have hjudge := State.judgePort_fabric (s := t) (p := p) (d := d) (pl := pl) (by rw [← ht]; exact hport)
    (by rw [← ht]; exact hheadless) (by rw [← ht]; exact hleaving) (by rw [← ht]; exact hrole) hopen hhello
    (by rw [← ht]; exact hplan)
  have hreset : ¬((∃ e, s.topo.epochs.get? d.node = some e ∧ e ≠ d.epoch) ∧ d.node = (s.portEntry p).peer) :=
    fun ⟨⟨e, he, hne⟩, _⟩ => hne (hep e he)
  have hheld : ∀ k, ((t.holdPort p k).route p).hello = some d ∧ ((t.holdPort p k).route p).state = 3 ∧
      ((t.holdPort p k).route p).reason = k ∧ ∀ q, q ≠ p → (t.holdPort p k).route q = s.route q := fun k =>
    let ⟨⟨ho, hh, _⟩, h3, hk⟩ := t.holdPort_held p k
    ⟨hh.trans hhello, h3, hk, fun q hq => (ho q hq).trans (hothers q hq)⟩
  obtain ⟨⟨ho, hh, -⟩, h2, h0, hepoch⟩ := State.servePort_served hhello
  rw [State.helloLeaves, if_neg hreset, hjudge]
  have hkind : t.port p = s.port p := by rw [← ht]; rfl
  have hentry : t.portEntry p = s.portEntry p := by rw [← ht]; rfl
  have hlost : t.isLost d.node = s.isLost d.node := by rw [← ht]; rfl
  rw [hkind, hentry, hlost]
  split_ifs
  · exact ⟨(hheld 3).1, ⟨(hheld 3).2.1, (hheld 3).2.2.1⟩, fun _ => (hheld 3).2.2.2⟩
  · exact ⟨(hheld 2).1, ⟨(hheld 2).2.1, (hheld 2).2.2.1⟩, fun _ => (hheld 2).2.2.2⟩
  · exact ⟨(hheld 4).1, ⟨(hheld 4).2.1, (hheld 4).2.2.1⟩, fun _ => (hheld 4).2.2.2⟩
  · exact ⟨(hheld 5).1, ⟨(hheld 5).2.1, (hheld 5).2.2.1⟩, fun _ => (hheld 5).2.2.2⟩
  · exact ⟨hh.trans hhello, ⟨h2, h0, hepoch (by rw [← ht]; exact hep)⟩, fun _ q hq => (ho q hq).trans (hothers q hq)⟩

include hin in
/-- A HELLO of a peer that was reset: its ports are held, and a port that does not lead to it is judged. -/
theorem State.helloReset_judged (hep : ∃ e, s.topo.epochs.get? d.node = some e ∧ e ≠ d.epoch) :
    s.helloLeaves p d pl (((s.helloTaken p d isReply).peerReset d.node).judgePort p) ∧
    (((s.helloTaken p d isReply).peerReset d.node).route p).state ≠ 2 := by
  obtain ⟨hhello, hopen, -⟩ := State.helloTaken_taken (d := d) isReply hst
  obtain ⟨ports, hkept⟩ := State.helloTaken_kept (s := s) (p := p) (d := d) isReply
  rw [hkept] at hhello hopen ⊢
  generalize ht : (s.setTopo fun t => { t with ports := ports }) = t at hhello hopen
  have hport' : t.port p = s.port p := by rw [← ht]; rfl
  have hentry : t.portEntry p = s.portEntry p := by rw [← ht]; rfl
  obtain ⟨hh, hleft, hheld, hlost⟩ := t.peerReset_left d.node (p := p)
  obtain ⟨hplan', hlink', hheadless', hmode'⟩ := t.peerReset_kept d.node
  have hu_port : (t.peerReset d.node).port p = s.port p := by rw [State.port, hlink', ← hport']; rfl
  have hu_entry : (t.peerReset d.node).portEntry p = s.portEntry p := by rw [State.portEntry, hplan', ← hentry]; rfl
  have hu_headless : (t.peerReset d.node).flt.headless = false := hheadless'.trans (by rw [← ht]; exact hheadless)
  have hu_leaving : (t.peerReset d.node).leaving p = false := by
    rw [State.leaving_congr hlink' hmode', ← ht]; exact hleaving
  have hu_role : (t.peerReset d.node).role p = 2 := by rw [State.role, hu_entry]; exact hrole
  have hothers : ¬ ∀ e, s.topo.epochs.get? d.node = some e → e = d.epoch := fun h => by
    obtain ⟨e, he, hne⟩ := hep
    exact hne (h e he)
  by_cases hpeer : d.node = (s.portEntry p).peer
  · have hmem : p ∈ t.resetPorts d.node := by
      have hne3 : (t.route p).state ≠ 3 := by omega
      have hcount : t.portCount = s.portCount := by rw [← ht]; rfl
      have hr : (s.portEntry p).role = 2 := hrole
      simp [State.resetPorts, hentry, hport', hport, hcount, hin, hr, hpeer, hne3]
    rw [State.judgePort_held (by rw [hu_port]; exact hport) hu_headless hu_leaving hu_role (hheld hmem).1]
    refine ⟨⟨hh.trans hhello, ?_, fun h => absurd h hothers⟩, by rw [(hheld hmem).1]; decide⟩
    rw [if_pos ⟨hep, hpeer⟩]
    exact ⟨(hheld hmem).1, (hheld hmem).2, fun hn => hlost (by rw [← ht]; exact hn)⟩
  · have hroute := hleft (by rw [hentry]; exact fun h => hpeer h.symm)
    have hjudge := State.judgePort_fabric (s := t.peerReset d.node) (p := p) (d := d) (pl := pl) (by rw [hu_port]; exact hport)
      hu_headless hu_leaving hu_role (by rw [hroute]; exact hopen) (hh.trans hhello)
      (hplan'.trans (by rw [← ht]; exact hplan))
    obtain ⟨⟨-, h3, -⟩, hs3, hr3⟩ := (t.peerReset d.node).holdPort_held p 3
    obtain ⟨⟨-, h2, -⟩, hs2, hr2⟩ := (t.peerReset d.node).holdPort_held p 2
    refine ⟨⟨?_, ?_, fun h => absurd h hothers⟩, by rw [hroute]; omega⟩
    · rw [hjudge, hu_port, hu_entry]
      split
      · exact h3.trans (hh.trans hhello)
      · rw [if_pos (.inl hpeer)]
        exact h2.trans (hh.trans hhello)
    · rw [if_neg fun h => hpeer h.2, hjudge, hu_port, hu_entry]
      by_cases hkind : ((s.port p).peer.map CapSet.kind).getD 0 ≠ 0
      · rw [if_pos hkind, if_pos hkind]
        exact ⟨hs3, hr3⟩
      · rw [if_neg hkind, if_neg hkind, if_pos (.inl hpeer), if_pos (.inl hpeer)]
        exact ⟨hs2, hr2⟩

include hin in
/-- A HELLO or HELLO_REPLY that is heard. -/
theorem State.helloHear_left : s.helloLeaves p d pl (s.helloHear p d isReply) := by
  have hjudged : ∃ u, s.helloLeaves p d pl u ∧
      s.helloHear p d isReply = if isReply then u.trunkCheck else u.trunkCheck.sendHello p 2 := by
    have hhear : s.helloHear p d isReply =
        let v := if (s.helloTaken p d isReply).epochChanged d then (s.helloTaken p d isReply).peerReset d.node
          else s.helloTaken p d isReply
        let w := if (v.route p).state = 2 && (v.role p = 2) then
            (if d.portState = 3 && d.portReason = 5 then v.holdPort p 5 else v) else v.judgePort p
        if isReply then w.trunkCheck else w.trunkCheck.sendHello p 2 := by
      rw [State.helloHear, hheadless]
      rfl
    obtain ⟨hhello, hopen, -⟩ := State.helloTaken_taken (d := d) isReply hst
    obtain ⟨ports, hkept⟩ := State.helloTaken_kept (s := s) (p := p) (d := d) isReply
    have hepochs : (s.helloTaken p d isReply).topo.epochs = s.topo.epochs := by rw [hkept]; rfl
    rw [hhear]
    by_cases hep : ∃ e, s.topo.epochs.get? d.node = some e ∧ e ≠ d.epoch
    · obtain ⟨hleaves, hne⟩ := State.helloReset_judged hin hport hheadless hleaving hrole hplan hst hep
      have hchanged : (s.helloTaken p d isReply).epochChanged d = true := by
        obtain ⟨e, he, hne⟩ := hep
        simp [State.epochChanged, hepochs, he, hne]
      exact ⟨_, hleaves, by simp [hchanged, hne]⟩
    · have hsame : ∀ e, s.topo.epochs.get? d.node = some e → e = d.epoch := fun e he => by
        by_contra hne
        exact hep ⟨e, he, hne⟩
      have hchanged : (s.helloTaken p d isReply).epochChanged d = false := by
        rw [State.epochChanged, hepochs]
        split
        next e he => simp [hsame e he]
        next => rfl
      have hne : ((s.helloTaken p d isReply).route p).state ≠ 2 := by omega
      exact ⟨_, State.helloTaken_judged hport hheadless hleaving hrole hplan hst hsame, by simp [hchanged, hne]⟩
  obtain ⟨u, hleaves, hu⟩ := hjudged
  have hcheck : s.helloLeaves p d pl u.trunkCheck :=
    State.helloLeaves_then hleaves u.trunkCheck_routes (by rw [u.trunkCheck_trunks]) u.trunkCheck_lostOnly
  rw [hu]
  split
  · exact hcheck
  · have htopo := State.keepsBut_topo (u.trunkCheck.sendHello_keepsBut p 2)
    exact State.helloLeaves_then hcheck (by rw [htopo]) (by rw [htopo]) (State.lostOnly_of_nodes (by rw [htopo]))

end

/-- The bring-up summary leaves ports and nodes. -/
theorem State.summaryCheck_left (s : State) : s.summaryCheck.topo.ports = s.topo.ports ∧
    s.summaryCheck.topo.epochs = s.topo.epochs ∧ s.summaryCheck.topo.nodes = s.topo.nodes := by
  rw [State.summaryCheck]
  split
  · rw [State.summary, State.event_topo]
    exact ⟨rfl, rfl, rfl⟩
  · exact ⟨rfl, rfl, rfl⟩

end Sys2Proof.Machine
end

section

-- One declaration after another: elaborated side by side, they take more threads than the check allows.
set_option Elab.async false

/-! Rows of discovery: HELLO, its timers, digests and notices (R109–R118, R127). -/

namespace Sys2Proof.Machine

open Sys2Proof (Instr Disc)

/-! ## Frames of a neighbour -/

/-- The row of a DISCOVERY frame on a port in ACTIVE. -/
theorem leads_of_linkLocal {s : State} {c : Instr} {p k : Nat} {f : State → State}
    (he : exec c s = onUnit (s.portOk p) (s.linkLocal p k f)) (hin : p < s.portCount) (hsafe : s.isSafe = false)
    (hport : (s.port p).state = 5) : Leads s c (f (s.takeLocal p Op.discovery (some k))) := by
  rw [Leads, he, onUnit, if_pos (by simpa [State.portOk] using hin), State.linkLocal, State.data, if_neg (by simp [hsafe]),
    State.inPort, if_pos hport]

section

variable (s : State) (p k : Nat)

/-- What the taking of a neighbour's frame leaves. -/
theorem State.takeLocal_topo : (s.takeLocal p Op.discovery (some k)).topo = s.topo :=
  State.keepsBut_topo (s.takeLocal_keepsBut p _ _)

theorem State.takeLocal_link : (s.takeLocal p Op.discovery (some k)).link = s.link :=
  State.keepsBut_link (s.takeLocal_keepsBut p _ _)

theorem State.takeLocal_portMode : (s.takeLocal p Op.discovery (some k)).reg .portMode = s.reg .portMode :=
  State.takeLocal_reg portMode_cellQuiet s p _ _

theorem State.takeLocal_portCount : (s.takeLocal p Op.discovery (some k)).portCount = s.portCount := by
  rw [State.portCount, State.nominal_congr (s.takeLocal_portMode p k)]
  rfl

theorem State.takeLocal_frame : s.keepsBut (.topo :: frameParts) (s.takeLocal p Op.discovery (some k)) :=
  State.keepsBut_mono (s.takeLocal_keepsBut p _ _) (by decide)

end

theorem State.role_congr {s t : State} (h : t.topo = s.topo) (p : Nat) : t.role p = s.role p := by
  rw [State.role, State.role, State.portEntry, State.portEntry, h]

/-- A HELLO or a HELLO_REPLY judges its port (Table 5.5). -/
theorem leads_of_hello {s : State} {p k : Nat} {d : Disc} {pl : Plan} {c : Instr} {isReply : Bool}
    (he : exec c s = onUnit (s.portOk p) (s.linkLocal p k fun s => (s.helloHear p d isReply).summaryCheck))
    (hin : p < s.portCount) (hsafe : s.isSafe = false) (hheadless : s.flt.headless = false) (hport : (s.port p).state = 5)
    (hplan : s.topo.plan = some pl) (hrole : s.role p = 2) (hleaving : s.leaving p = false)
    (hst : (s.route p).state = 1 ∨ (s.route p).state = 4 ∨ isReply = true ∧ (s.route p).state = 3 ∧ (s.route p).reason = 6) :
    ∃ u, Leads s c u ∧ s.helloLeaves p d pl u := by
  refine ⟨_, leads_of_linkLocal he hin hsafe hport, ?_⟩
  have htopo := s.takeLocal_topo p k
  have hlink := s.takeLocal_link p k
  have hmode := s.takeLocal_portMode p k
  have hcount := s.takeLocal_portCount p k
  have hreports := s.takeLocal_reports p Op.discovery (some k)
  generalize s.takeLocal p Op.discovery (some k) = t at htopo hlink hmode hcount hreports
  have hheard := State.helloHear_left (s := t) (d := d) (pl := pl) (by rwa [hcount]) (by rwa [State.port_congr hlink])
    ((State.headless_of_reports hreports).trans hheadless) (by rwa [State.leaving_congr hlink hmode])
    (by rwa [State.role_congr htopo]) (by rwa [htopo]) (by rwa [State.route_congr (congrArg TopoSt.ports htopo)])
  obtain ⟨hports, hepochs, hnodes⟩ := (t.helloHear p d isReply).summaryCheck_left
  exact State.helloLeaves_congr (State.helloLeaves_then hheard hports hepochs (State.lostOnly_of_nodes hnodes)) htopo hlink

/-! ## Timers -/

/-- A port without a HELLO_REPLY is held (Table 5.5). -/
theorem State.noReply_held {s : State} {p : Nat} (hrole : s.role p = 2)
    (hst : (s.route p).state = 1 ∨ (s.route p).state = 4) (hrep : (s.route p).replied = false) (hage : 16 ≤ (s.route p).helloAge)
    (hheadless : s.flt.headless = false) : ((s.noReply p).route p).state = 3 ∧ ((s.noReply p).route p).reason = 6 ∧
      ∀ q, q ≠ p → (s.noReply p).route q = s.route q := by
  have hdue : s.noReply p = (s.holdPort p 6).summaryCheck := by
    rw [State.noReply]
    exact if_pos (by simp [hrole, hst, hrep, hage, hheadless])
  obtain ⟨⟨hothers, -, -⟩, h3, h6⟩ := s.holdPort_held p 6
  have hroute : ∀ q, (s.holdPort p 6).summaryCheck.route q = (s.holdPort p 6).route q :=
    State.route_congr (s.holdPort p 6).summaryCheck_left.1
  simp only [hdue, hroute]
  exact ⟨h3, h6, hothers⟩

theorem State.missingPorts_route (l : List Nat) (s : State) (q : Nat) :
    (l.foldl (fun s p => s.setRoute p fun r => { r with state := 4 }) s).route q =
      if q ∈ l then { s.route q with state := 4 } else s.route q := by
  induction l generalizing s with
  | nil => simp
  | cons p l ih =>
    rw [List.foldl_cons, ih]
    by_cases hq : q = p
    · subst hq
      simp [State.route_setRoute]
    · simp [State.route_setRoute_ne _ _ hq, hq]

theorem State.reportMissing_trunks (s : State) : s.trunksOnly s.reportMissing :=
  State.trunks_foldl (fun u t => u.trunkChanged_trunks t true) s.trunks_refl

theorem State.summary_left (s : State) : s.summary.topo.ports = s.topo.ports ∧ s.summary.topo.pendingAge = s.topo.pendingAge := by
  rw [State.summary, State.event_topo]
  exact ⟨rfl, rfl⟩

/-- The pending limit: planned ports that are still PENDING are MISSING (R110). -/
theorem State.pendingExpired_left (s : State) : s.pendingExpired.topo.pendingAge = none ∧
    ∀ q, s.pendingExpired.route q =
      if q < s.portCount ∧ (s.portEntry q).role ≠ 0 ∧ (s.route q).state = 1 then { s.route q with state := 4 }
      else s.route q := by
  delta State.pendingExpired
  extract_lets ports t u
  have ht := State.missingPorts_route ports s
  have hu : (t.setTopo fun x => { x with pendingAge := none }).trunksOnly u :=
    State.trunks_then (State.reportMissing_trunks _) (State.trunkCheck_trunks _)
  have hleft : u.topo.pendingAge = none ∧ u.topo.ports = t.topo.ports := by
    rw [State.trunksOnly] at hu
    rw [hu]
    exact ⟨rfl, rfl⟩
  have hmem : ∀ q, q ∈ ports ↔ q < s.portCount ∧ (s.portEntry q).role ≠ 0 ∧ (s.route q).state = 1 := fun q => by
    simp [ports]
  have hroute : ∀ v : State, v.topo.ports = u.topo.ports → ∀ q, v.route q =
      if q < s.portCount ∧ (s.portEntry q).role ≠ 0 ∧ (s.route q).state = 1 then { s.route q with state := 4 }
      else s.route q := fun v hv q => by
    rw [State.route_congr (hv.trans hleft.2), ht]
    simp only [hmem]
  split
  · exact ⟨hleft.1, hroute u rfl⟩
  · obtain ⟨hports, hage⟩ := u.summary_left
    exact ⟨hage.trans hleft.1, hroute _ hports⟩

theorem State.sendDigests_topo (s : State) : s.sendDigests.topo = { s.topo with digestAge := 0 } := by
  delta State.sendDigests
  extract_lets t w
  have ht : t.topo = { s.topo with digestAge := 0 } := rfl
  clear_value t w
  rw [← ht]
  exact foldl_leaves (p := fun u : State => u.topo) (fun u p => State.keepsBut_topo (State.sendDisc_keepsBut u p _)) _ t

/-! ## Digests -/

/-- The digest is one of the link-state table. -/
theorem State.lsDigest_congr {s t : State} (h : t.topo = s.topo) : t.lsDigest = s.lsDigest := by
  cases s
  cases t
  dsimp only at h
  subst h
  rfl

/-- What a neighbour reports of a port: its routing state there. -/
theorem State.peerReports_left (s : State) (p : Nat) (d : Disc) :
    (s.setRoute p fun r => { r with peerState := d.portState }).trunksOnly (s.peerReports p d) :=
  State.trunkCheck_trunks _

theorem State.peerReports_route (s : State) (p : Nat) (d : Disc) :
    (s.peerReports p d).route p = { s.route p with peerState := d.portState } ∧
    ∀ q, q ≠ p → (s.peerReports p d).route q = s.route q := by
  have hroute := State.trunks_route (s.peerReports_left p d)
  exact ⟨by rw [hroute, State.route_setRoute], fun q hq => by rw [hroute, State.route_setRoute_ne _ _ hq]⟩

theorem State.peerReports_frame (s : State) (p : Nat) (d : Disc) : s.keepsBut (.topo :: frameParts) (s.peerReports p d) :=
  State.keepsBut_mono (s.peerReports_keepsBut p d) (by decide)

/-- A digest that agrees, or the first that does not. -/
theorem State.digestHear_counted {s : State} {p : Nat} {d : Disc} {n : Nat} (hn : n < 2)
    (h : (if d.digest = s.lsDigest then 0 else (s.route p).mismatch + 1) = n) :
    s.digestHear p d = s.setRoute p fun r => { r with mismatch := n } := by
  rw [State.digestHear, h]
  exact if_pos hn

/-- The latest notices of each origin. -/
def State.latestNotices (s : State) : List Notice :=
  s.topo.notices.filter fun m => !(s.topo.notices.any fun o => o.origin == m.origin && serialNewer 32 o.seq m.seq)

theorem State.mem_latestNotices (s : State) (m : Notice) : m ∈ s.latestNotices ↔ m ∈ s.topo.notices ∧
    ∀ o ∈ s.topo.notices, o.origin = m.origin → serialNewer 32 o.seq m.seq = false := by
  simp [State.latestNotices]

/-- The second difference in a row. -/
theorem State.digestHear_resent {s : State} {p : Nat} {d : Disc} (hne : d.digest ≠ s.lsDigest) (h : 1 ≤ (s.route p).mismatch) :
    s.digestHear p d = (s.setRoute p fun r => { r with mismatch := 0 }).setTopo fun t => { t with
      resend := t.resend.set p s.latestNotices } := by
  simp only [State.digestHear, if_neg hne, if_neg (show ¬ (s.route p).mismatch + 1 < 2 by omega)]
  rfl

/-! ## Notices -/

/-- A bit that was clear is set by adding it, and no other bit changes. -/
theorem testBit_add_clear {w t : Nat} (h : w.testBit t = false) (i : Nat) :
    (w + 2 ^ t).testBit i = (w.testBit i || decide (t = i)) := by
  induction t generalizing w i with
  | zero =>
    have heven : w % 2 = 0 := by simpa using h
    cases i with
    | zero => simp [Nat.testBit_zero]; omega
    | succ i =>
      rw [Nat.testBit_succ, Nat.testBit_succ, show (w + 2 ^ 0) / 2 = w / 2 by omega]
      simp
  | succ t ih =>
    cases i with
    | zero =>
      have hmod : (w + 2 ^ (t + 1)) % 2 = w % 2 := by omega
      simp [Nat.testBit_zero, hmod]
    | succ i =>
      rw [Nat.testBit_succ, Nat.testBit_succ, show (w + 2 ^ (t + 1)) / 2 = w / 2 + 2 ^ t by omega,
        ih (by rwa [← Nat.testBit_succ])]
      simp

/-- A bit that was set is cleared by taking it away, and no other bit changes. -/
theorem testBit_sub_set {w t : Nat} (h : w.testBit t = true) (i : Nat) :
    (w - 2 ^ t).testBit i = (w.testBit i && !decide (t = i)) := by
  have hle : 2 ^ t ≤ w := Nat.ge_two_pow_of_testBit h
  have hw : 2 ^ t + (w - 2 ^ t) = w := by omega
  have hclear : (w - 2 ^ t).testBit t = false := by
    have hflip := Nat.testBit_two_pow_add_eq (w - 2 ^ t) t
    rw [hw, h] at hflip
    simpa using hflip.symm
  have hadd := testBit_add_clear hclear i
  rw [Nat.add_comm, hw] at hadd
  rw [hadd]
  by_cases hi : t = i
  · subst hi; simp [hclear]
  · simp [hi]

/-- The entry of a notice's origin, as the notice leaves it. -/
def noticed (d : Disc) (l : NodeLs) : NodeLs :=
  { l with
      seq := some d.lsSeq, back := l.back && d.event != 0
      missing := if d.event = 0 then (if bit l.missing d.originTrunk then l.missing else l.missing + 2 ^ d.originTrunk)
                 else if d.event = 1 then (if bit l.missing d.originTrunk then l.missing - 2 ^ d.originTrunk
                                           else l.missing)
                 else l.missing }

/-- A notice sets or clears the bit of its trunk. -/
theorem bit_noticed (d : Disc) (l : NodeLs) (t : Nat) : bit (noticed d l).missing t =
    if t = d.originTrunk ∧ d.event < 2 then d.event == 0 else bit l.missing t := by
  simp only [noticed, bit]
  by_cases h0 : d.event = 0
  · rcases Bool.eq_false_or_eq_true (l.missing.testBit d.originTrunk) with hb | hb
    · by_cases ht : t = d.originTrunk <;> simp [h0, ht, hb]
    · by_cases ht : t = d.originTrunk
      · subst ht; simp [h0, hb, testBit_add_clear hb]
      · simp [h0, hb, testBit_add_clear hb, ht, Ne.symm ht]
  · by_cases h1 : d.event = 1
    · rcases Bool.eq_false_or_eq_true (l.missing.testBit d.originTrunk) with hb | hb
      · by_cases ht : t = d.originTrunk
        · subst ht; simp [h1, hb, testBit_sub_set hb]
        · simp [h1, hb, testBit_sub_set hb, ht, Ne.symm ht]
      · by_cases ht : t = d.originTrunk <;> simp [h1, ht, hb]
    · have h2 : ¬ d.event < 2 := by omega
      simp [h0, h1, h2]

/-- The node at the far end of a notice's trunk: readmitted, or not back. -/
def State.farNoticed (s : State) (d : Disc) : State :=
  if d.event = 2 then
    (match s.topo.plan.bind fun pl => pl.far d.originNode d.originTrunk with
      | some (m, _) => s.setLs m fun l => { l with lost := false, back := true }
      | none => s)
  else if d.event = 0 then
    (match s.topo.plan.bind fun pl => pl.far d.originNode d.originTrunk with
      | some (m, _) => s.setLs m fun l => { l with back := false }
      | none => s)
  else s

/-- The notice that a frame carries, as it is held. -/
def noticeOf (p : Nat) (d : Disc) : Notice :=
  { origin := d.originNode, trunk := d.originTrunk, event := d.event, seq := d.lsSeq, arrived := some p }

/-- A notice that is newer. -/
def State.newNotice (s : State) (d : Disc) : Prop :=
  d.originNode ≠ s.me ∧ ∀ q, (s.ls d.originNode).seq = some q → serialNewer 32 d.lsSeq q = true

/-- A notice that is not newer is dropped (R115). -/
theorem State.noticeHear_old {s : State} {d : Disc} (p : Nat)
    (h : d.originNode = s.me ∨ (∃ q, (s.ls d.originNode).seq = some q ∧ serialNewer 32 d.lsSeq q = false)) :
    s.noticeHear p d = s := by
  rw [State.noticeHear]
  refine if_pos ?_
  rcases h with h | ⟨q, hq, hold⟩
  · split <;> simp [h]
  · simp [hq, hold]

/-- A newer notice. -/
theorem State.noticeHear_new {s : State} {d : Disc} (p : Nat) (h : s.newNotice d) :
    s.noticeHear p d =
      let u := (((s.bump .routeLsNotices).setLs d.originNode (noticed d)).farNoticed d).holdNotice (noticeOf p d)
      if d.event = 0 then u.lostCheck d.originNode d.originTrunk else u := by
  rw [State.noticeHear]
  refine (if_neg ?_).trans rfl
  split
  next => simp [h.1]
  next q hq => simp [h.1, h.2 q hq]

/-- The origin of a newer notice and the far end of its trunk, as the notice leaves them. -/
theorem State.farNoticed_left (s : State) (d : Disc) :
    s.trunksOnly (s.farNoticed d) ∧ (s.farNoticed d).regs = s.regs ∧ s.keepsBut (.topo :: frameParts) (s.farNoticed d) ∧
    (∀ n, ((s.farNoticed d).ls n).seq = (s.ls n).seq ∧ ((s.farNoticed d).ls n).missing = (s.ls n).missing) ∧
    ∀ n, s.readmitted d = some n → ((s.farNoticed d).ls n).lost = false := by
  have hset : ∀ (m : Nat) (f : NodeLs → NodeLs), (∀ l, (f l).seq = l.seq) → (∀ l, (f l).missing = l.missing) →
      ∀ n, ((s.setLs m f).ls n).seq = (s.ls n).seq ∧ ((s.setLs m f).ls n).missing = (s.ls n).missing := fun m f hs hm n => by
    by_cases h : n = m
    · rw [h, State.ls_setLs]; exact ⟨hs _, hm _⟩
    · rw [State.ls_setLs_ne _ _ h]; exact ⟨rfl, rfl⟩
  rw [State.farNoticed, State.readmitted]
  by_cases h2 : d.event = 2
  · rw [if_pos h2, if_pos h2]
    split
    next m x hfar =>
      refine ⟨rfl, rfl, State.keepsBut_mono (State.setLs_keepsBut _ _ _) (by decide), hset m _ (fun _ => rfl) (fun _ => rfl),
        fun n hn => ?_⟩
      rw [hfar] at hn
      obtain rfl : m = n := Option.some.inj hn
      rw [State.ls_setLs]
    next hfar =>
      exact ⟨rfl, rfl, State.keepsBut_refl _ _, fun _ => ⟨rfl, rfl⟩, fun n hn => by rw [hfar] at hn; nomatch hn⟩
  · rw [if_neg h2, if_neg h2]
    split
    · split
      next m x hfar =>
        exact ⟨rfl, rfl, State.keepsBut_mono (State.setLs_keepsBut _ _ _) (by decide), hset m _ (fun _ => rfl) (fun _ => rfl),
          fun n hn => by nomatch hn⟩
      next => exact ⟨rfl, rfl, State.keepsBut_refl _ _, fun _ => ⟨rfl, rfl⟩, fun n hn => by nomatch hn⟩
    · exact ⟨rfl, rfl, State.keepsBut_refl _ _, fun _ => ⟨rfl, rfl⟩, fun n hn => by nomatch hn⟩

/-! ### The register of notices -/

theorem routeLsNotices_sendQuiet : Reg.routeLsNotices.sendQuiet 0 :=
  Reg.sendQuiet_of_lt (by decide) (by decide) (by decide)

theorem State.holdNotice_reg {r : Reg} {i : Nat} (hr : r.cellQuiet i) (s : State) (n : Notice) :
    (s.holdNotice n).reg r i = s.reg r i := by
  have hsend : ∀ (u : State) (t : Nat), (match (u.presentPorts t).head? with
      | some p => u.sendNotice n p
      | none => u).reg r i = u.reg r i := fun u t => by
    split
    · exact State.sendDisc_reg hr u _ _
    · rfl
  rw [State.holdNotice, State.floodNotice]
  exact foldl_leaves (p := fun u : State => u.reg r i) hsend _ _

theorem State.lostCheck_regs (s : State) (n t : Nat) : (s.lostCheck n t).regs = s.regs := by
  rw [State.lostCheck]
  split
  · rfl
  · refine foldl_leaves (p := fun u : State => u.regs) (fun u m => ?_) _ _
    split
    · rw [State.markLost]
      split <;> rfl
    · rfl

theorem State.setOwnMissing_reg {r : Reg} {i : Nat} (s : State) (w : Nat) :
    (s.setTopo fun x => { x with ownMissing := w }).reg r i = s.reg r i := rfl

theorem State.trunkCheck_reg {r : Reg} {i : Nat} (hr : r.cellQuiet i) (s : State) : s.trunkCheck.reg r i = s.reg r i := by
  delta State.trunkCheck
  extract_lets old now s0
  have h0 : s0.reg r i = s.reg r i := s.setOwnMissing_reg now
  clear_value s0 now
  refine (foldl_leaves (p := fun u : State => u.reg r i) (fun u t => ?_) _ _).trans h0
  delta State.trunkChanged
  extract_lets s1 s2 s3
  have h3 : s3.reg r i = u.reg r i :=
    (State.holdNotice_reg hr _ _).trans (State.event_reg (s := s1) hr.1 _ _ _ _ _ _)
  split
  · exact (State.reg_congr (State.lostCheck_regs s3 _ _) _ _).trans h3
  · exact h3

theorem State.sendGroup_reg {r : Reg} {i : Nat} (hr : r.sendQuiet i) (s : State) (kind : Nat) (g : GroupSt) (m : Nat) :
    (s.sendGroup kind g m).reg r i = s.reg r i := State.send_reg hr s _ _

theorem State.reinstallGroups_reg {r : Reg} {i : Nat} (hr : r.sendQuiet i) (s : State) (n : Nat) :
    (s.reinstallGroups n).reg r i = s.reg r i := by
  rw [State.reinstallGroups]
  split
  · rfl
  · exact foldl_leaves (p := fun u : State => u.reg r i) (fun u g =>
      foldl_leaves (p := fun u : State => u.reg r i) (fun v m => State.sendGroup_reg hr v 1 g m) _ u) _ s

/-! ### What a notice leaves -/

/-- A newer notice is counted, its origin updated, and the node it readmits is no longer lost (R115, R127). -/
theorem State.noticeHear_left {s : State} {d : Disc} (p : Nat) (h : s.newNotice d) :
    s.trunksOnly (s.noticeHear p d) ∧ (s.noticeHear p d).reg .routeLsNotices 0 = s.countedUp .routeLsNotices 0 ∧
    s.keepsBut (.topo :: frameParts) (s.noticeHear p d) ∧
    (∀ n, ((s.noticeHear p d).ls n).seq = (if n = d.originNode then noticed d (s.ls n) else s.ls n).seq ∧
      ((s.noticeHear p d).ls n).missing = (if n = d.originNode then noticed d (s.ls n) else s.ls n).missing) ∧
    ∀ n, s.readmitted d = some n → ((s.noticeHear p d).ls n).lost = false := by
  rw [State.noticeHear_new p h]
  have hv : ∀ n, (((s.bump .routeLsNotices).setLs d.originNode (noticed d)).ls n) =
      if n = d.originNode then noticed d (s.ls n) else s.ls n := fun n => by
    split
    next hn => rw [hn, State.ls_setLs]; rfl
    next hn => rw [State.ls_setLs_ne _ _ hn]; rfl
  have hvt : s.trunksOnly ((s.bump .routeLsNotices).setLs d.originNode (noticed d)) := rfl
  have hvr : ((s.bump .routeLsNotices).setLs d.originNode (noticed d)).reg .routeLsNotices 0 = s.countedUp .routeLsNotices 0 :=
    s.reg_bump _ _ _
  have hvk : s.keepsBut (.topo :: frameParts) ((s.bump .routeLsNotices).setLs d.originNode (noticed d)) :=
    State.keepsBut_trans (State.keepsBut_mono (State.bump_keepsBut s _ _ _) (by decide))
      (State.keepsBut_mono (State.setLs_keepsBut _ _ _) (by decide))
  have hback : ((s.bump .routeLsNotices).setLs d.originNode (noticed d)).readmitted d = s.readmitted d := rfl
  generalize (s.bump .routeLsNotices).setLs d.originNode (noticed d) = v at *
  extract_lets u
  obtain ⟨hft, hfr, hfk, hfl, hfb⟩ := v.farNoticed_left d
  have hnodes : u.topo.nodes = (v.farNoticed d).topo.nodes := by
    simp only [u]
    exact State.holdNotice_nodes _ _
  have hul : (v.farNoticed d).lostOnly u := State.lostOnly_of_nodes hnodes
  have hut : s.trunksOnly u := State.trunks_then (State.holdNotice_trunks _ _) (State.trunks_then hft hvt)
  have hur : u.reg .routeLsNotices 0 = s.countedUp .routeLsNotices 0 :=
    (State.holdNotice_reg routeLsNotices_sendQuiet.1 _ _).trans ((State.reg_congr hfr _ _).trans hvr)
  have huk : s.keepsBut (.topo :: frameParts) u :=
    State.keepsBut_trans (State.keepsBut_trans hvk hfk) (State.keepsBut_mono (State.holdNotice_keepsBut _ _) (by decide))
  have hub : ∀ n, s.readmitted d = some n → (u.ls n).lost = false := fun n hn => by
    rw [State.ls, hnodes]
    exact hfb n (hback.trans hn)
  have hls : ∀ w : State, u.lostOnly w → ∀ n, (w.ls n).seq = (if n = d.originNode then noticed d (s.ls n) else s.ls n).seq ∧
      (w.ls n).missing = (if n = d.originNode then noticed d (s.ls n) else s.ls n).missing := fun w hw n => by
    rw [← hv n]
    exact ⟨(hw n).1.trans ((hul n).1.trans (hfl n).1), (hw n).2.1.trans ((hul n).2.1.trans (hfl n).2)⟩
  clear_value u
  split
  next h0 =>
    refine ⟨State.trunks_then (State.lostCheck_trunks _ _ _) hut, (State.reg_congr (State.lostCheck_regs _ _ _) _ _).trans hur,
      State.keepsBut_trans huk (State.keepsBut_mono (State.lostCheck_keepsBut _ _ _) (by decide)),
      hls _ (State.lostCheck_lostOnly _ _ _), fun n hn => ?_⟩
    rw [State.readmitted, if_neg (by omega)] at hn
    nomatch hn
  next => exact ⟨hut, hur, huk, hls _ u.lostOnly_refl, hub⟩

/-- A LINK_STATE frame is heard: what the notice leaves of the groups, and what the neighbour reports of the port. -/
theorem State.linkState_left (s : State) (p : Nat) (d : Disc) :
    (s.noticeHear p d).topo = (s.linkState p d).topo ∧
    (s.linkState p d).reg .routeLsNotices 0 = (s.noticeHear p d).reg .routeLsNotices 0 ∧
    (s.noticeHear p d).keepsBut (.topo :: frameParts) (s.linkState p d) := by
  rw [State.linkState]
  split
  · split
    · have hgroups := (s.noticeHear p d).reinstallGroups_keepsBut ‹Nat›
      exact ⟨(State.keepsBut_topo hgroups).symm, State.reinstallGroups_reg routeLsNotices_sendQuiet _ _,
        State.keepsBut_mono hgroups (by decide)⟩
    · exact ⟨rfl, rfl, State.keepsBut_refl _ _⟩
  · exact ⟨rfl, rfl, State.keepsBut_refl _ _⟩

/-- What a neighbour reports of a port leaves nodes, but for marks, and the register of notices. -/
theorem State.peerReports_nodes (s : State) (p : Nat) (d : Disc) : s.lostOnly (s.peerReports p d) ∧
    (s.peerReports p d).reg .routeLsNotices 0 = s.reg .routeLsNotices 0 := by
  rw [State.peerReports]
  exact ⟨State.lostOnly_trans (State.lostOnly_of_nodes (by rfl)) (State.trunkCheck_lostOnly _),
    State.trunkCheck_reg routeLsNotices_sendQuiet.1 _⟩

theorem State.me_congr {s t : State} (h : t.topo = s.topo) : t.me = s.me := by rw [State.me, State.me, h]

/-- A notice is heard, and then what the neighbour reports of its port. -/
theorem State.linkState_heard {s t : State} (p : Nat) (d : Disc) (ht : s.keepsBut frameParts t)
    (htrunks : t.trunksOnly (t.noticeHear p d))
    (hkeep : t.keepsBut (.topo :: frameParts) (t.noticeHear p d)) :
    (((t.linkState p d).peerReports p d).reg .routeLsNotices 0 = (t.noticeHear p d).reg .routeLsNotices 0) ∧
    (∀ n, (((t.linkState p d).peerReports p d).ls n).seq = ((t.noticeHear p d).ls n).seq ∧
      (((t.linkState p d).peerReports p d).ls n).missing = ((t.noticeHear p d).ls n).missing) ∧
    ((t.linkState p d).peerReports p d).route p = { s.route p with peerState := d.portState } ∧
    (∀ q, q ≠ p → ((t.linkState p d).peerReports p d).route q = s.route q) ∧
    s.keepsBut (.topo :: frameParts) ((t.linkState p d).peerReports p d) := by
  obtain ⟨htopo, hlreg, hlkeep⟩ := t.linkState_left p d
  obtain ⟨hlost, hpreg⟩ := (t.linkState p d).peerReports_nodes p d
  obtain ⟨hown, hothers⟩ := (t.linkState p d).peerReports_route p d
  have hroute : ∀ q, (t.linkState p d).route q = s.route q := fun q =>
    (State.route_congr (congrArg TopoSt.ports htopo.symm) q).trans
      ((State.trunks_route htrunks q).trans (State.route_congr (congrArg TopoSt.ports (State.keepsBut_topo ht)) q))
  have hls : ∀ n, (t.linkState p d).ls n = (t.noticeHear p d).ls n := fun n => by rw [State.ls, State.ls, htopo]
  refine ⟨hpreg.trans hlreg, fun n => ?_, by rw [hown, hroute], fun q hq => by rw [hothers q hq, hroute], ?_⟩
  · rw [← hls n]
    exact ⟨(hlost n).1, (hlost n).2.1⟩
  · exact State.keepsBut_trans (State.keepsBut_mono ht (by decide)) (State.keepsBut_trans hkeep
      (State.keepsBut_trans hlkeep (State.peerReports_frame _ p d)))

/-- A digest that agrees, or the first that does not. -/
theorem leads_of_digestCounted {s : State} {p n : Nat} {d : Disc} (hin : p < s.portCount) (hsafe : s.isSafe = false)
    (hport : (s.port p).state = 5) (hn : n < 2) (h : (if d.digest = s.lsDigest then 0 else (s.route p).mismatch + 1) = n) :
    ∃ u, Leads s (.digest p d) u ∧ u.route p = { s.route p with mismatch := n, peerState := d.portState } ∧
      (∀ q, q ≠ p → u.route q = s.route q) ∧ s.keepsBut (.topo :: frameParts) u := by
  have htopo := s.takeLocal_topo p 4
  have hroute : ∀ q, (s.takeLocal p Op.discovery (some 4)).route q = s.route q :=
    State.route_congr (congrArg TopoSt.ports htopo)
  have hleads := leads_of_linkLocal (c := .digest p d) rfl hin hsafe hport
  rw [State.digestHear_counted hn (by rwa [State.lsDigest_congr htopo, hroute])] at hleads
  obtain ⟨hown, hothers⟩ := State.peerReports_route
    ((s.takeLocal p Op.discovery (some 4)).setRoute p fun r => { r with mismatch := n }) p d
  refine ⟨_, hleads, by rw [hown, State.route_setRoute, hroute], fun q hq => ?_, ?_⟩
  · rw [hothers q hq, State.route_setRoute_ne _ _ hq, hroute]
  · exact State.keepsBut_trans (s.takeLocal_frame p 4) (State.keepsBut_trans
      (State.keepsBut_mono (State.setRoute_keepsBut _ _ _) (by decide)) (State.peerReports_frame _ p d))

/-- The second difference in a row. -/
theorem leads_of_digestResent {s : State} {p : Nat} {d : Disc} (hin : p < s.portCount) (hsafe : s.isSafe = false)
    (hport : (s.port p).state = 5) (hne : d.digest ≠ s.lsDigest) (h : 1 ≤ (s.route p).mismatch) :
    ∃ u l, Leads s (.digest p d) u ∧ u.route p = { s.route p with mismatch := 0, peerState := d.portState } ∧
      u.topo.resend.get? p = some l ∧
      (∀ m : Notice, m ∈ l ↔ m ∈ s.topo.notices ∧
        ∀ o ∈ s.topo.notices, o.origin = m.origin → serialNewer 32 o.seq m.seq = false) ∧
      (∀ q, q ≠ p → u.route q = s.route q) ∧ s.keepsBut (.topo :: frameParts) u := by
  have htopo := s.takeLocal_topo p 4
  have hroute : ∀ q, (s.takeLocal p Op.discovery (some 4)).route q = s.route q :=
    State.route_congr (congrArg TopoSt.ports htopo)
  have hframe := s.takeLocal_frame p 4
  have hleads := leads_of_linkLocal (c := .digest p d) rfl hin hsafe hport
  generalize s.takeLocal p Op.discovery (some 4) = t at htopo hroute hframe hleads
  rw [State.digestHear_resent (by rwa [State.lsDigest_congr htopo]) (by rwa [hroute])] at hleads
  have hresent : ∀ r : State, r = (t.setRoute p fun r => { r with mismatch := 0 }) →
      (r.setTopo fun x => { x with resend := x.resend.set p t.latestNotices }).topo.resend.get? p = some t.latestNotices ∧
      (∀ q, (r.setTopo fun x => { x with resend := x.resend.set p t.latestNotices }).route q = r.route q) ∧
      r.keepsBut (.topo :: frameParts) (r.setTopo fun x => { x with resend := x.resend.set p t.latestNotices }) :=
    fun r _ => ⟨NMap.get?_set _ _ _, fun _ => rfl, State.keepsBut_mono (State.setTopo_keepsBut _ _) (by decide)⟩
  obtain ⟨hl, hr, hk⟩ := hresent _ rfl
  generalize ((t.setRoute p fun r => { r with mismatch := 0 }).setTopo fun x => { x with
    resend := x.resend.set p t.latestNotices }) = v at hleads hl hr hk
  obtain ⟨hown, hothers⟩ := v.peerReports_route p d
  refine ⟨_, t.latestNotices, hleads, by rw [hown, hr, State.route_setRoute, hroute], ?_, fun m => ?_, fun q hq => ?_, ?_⟩
  · rw [v.peerReports_left p d]
    exact hl
  · rw [t.mem_latestNotices, htopo]
  · rw [hothers q hq, hr, State.route_setRoute_ne _ _ hq, hroute]
  · exact State.keepsBut_trans hframe (State.keepsBut_trans (State.keepsBut_trans
      (State.keepsBut_mono (State.setRoute_keepsBut t _ _) (by decide)) hk) (v.peerReports_frame p d))

/-- Settles O28: a HELLO is judged by Table 5.5 whatever its sender's reset has held before, the timers and digests act on their
ports, and a notice is dropped or updates its origin's entry. -/
theorem discoveryAndNotices : Obligations.DiscoveryAndNotices := by
  refine ⟨fun s p d pl c hin hsafe hheadless hport hplan hrole hleaving hc => ?_, fun s p hin hsafe =>
    ⟨fun hport hrole hst hrep hage hheadless => ?_, fun pl n hplan hn hlim => ?_, fun htick hage => ?_, fun d hport =>
      ⟨fun hd => ?_, fun hd h0 => ?_, fun hd h1 => ?_⟩⟩, fun s p d hin hsafe hport => ⟨fun hold => ?_, fun hme hseq => ?_⟩⟩
  · rcases hc with ⟨rfl, hst⟩ | ⟨rfl, hst⟩
    · exact leads_of_hello (k := 1) (isReply := false) rfl hin hsafe hheadless hport hplan hrole hleaving (hst.imp_right .inl)
    · exact leads_of_hello (k := 2) (isReply := true) rfl hin hsafe hheadless hport hplan hrole hleaving (hst.imp_right (Or.imp_right fun h => ⟨rfl, h⟩))
  · refine ⟨s.noReply p, ?_, State.noReply_held hrole hst hrep hage hheadless⟩
    refine (congrArg (fun s => onUnit _ s) ?_).trans (onUnit_true (by simpa [State.portOk] using hin) _)
    rw [State.data, if_neg (by simp [hsafe]), State.inPort, if_pos hport]
  · exact ⟨s.pendingExpired, leads_of_if rfl (by simpa [State.pendingDue, hn, hplan] using hlim), s.pendingExpired_left⟩
  · refine ⟨s.sendDigests, ?_, s.sendDigests_topo⟩
    have hleads := leads_of_data (s := s) (k := .digestTimer)
      (f := fun s => if s.ticking && decide (256 ≤ s.topo.digestAge) then s.sendDigests else s) rfl hsafe
    rwa [if_pos (by simp [htick, hage])] at hleads
  · exact leads_of_digestCounted hin hsafe hport (by decide) (if_pos hd)
  · exact leads_of_digestCounted hin hsafe hport (by decide) ((if_neg hd).trans (by rw [h0]))
  · exact leads_of_digestResent hin hsafe hport hd h1
  · have htopo := s.takeLocal_topo p 3
    have hreg := State.takeLocal_reg routeLsNotices_sendQuiet.1 s p Op.discovery (some 3)
    have hleads := leads_of_linkLocal (c := .linkState p d) rfl hin hsafe hport
    have hkeep := State.keepsBut_mono (s.takeLocal_keepsBut p Op.discovery (some 3)) (ch' := frameParts) (by decide)
    generalize s.takeLocal p Op.discovery (some 3) = t at htopo hreg hleads hkeep
    have hls : ∀ n, t.ls n = s.ls n := fun n => by rw [State.ls, State.ls, htopo]
    have hear := State.noticeHear_old (s := t) p (by rw [State.me_congr htopo, hls]; exact hold)
    obtain ⟨hcount, hentries, hroute, hothers, hframe⟩ := State.linkState_heard p d hkeep (by rw [hear]; rfl)
      (by rw [hear]; exact State.keepsBut_refl _ _)
    rw [hear] at hcount hentries
    simp only [hls] at hentries
    exact ⟨_, hleads, hcount.trans hreg, hentries, hroute, hothers, hframe⟩
  · have htopo := s.takeLocal_topo p 3
    have hreg := State.takeLocal_reg routeLsNotices_sendQuiet.1 s p Op.discovery (some 3)
    have hleads := leads_of_linkLocal (c := .linkState p d) rfl hin hsafe hport
    have hkeep := State.keepsBut_mono (s.takeLocal_keepsBut p Op.discovery (some 3)) (ch' := frameParts) (by decide)
    generalize s.takeLocal p Op.discovery (some 3) = t at htopo hreg hleads hkeep
    have hls : ∀ n, t.ls n = s.ls n := fun n => by rw [State.ls, State.ls, htopo]
    obtain ⟨htrunks, hcounted, hheard, hentries, -⟩ := State.noticeHear_left (s := t) p (d := d)
      ⟨by rw [State.me_congr htopo]; exact hme, by rw [hls]; exact hseq⟩
    obtain ⟨hcount, hleft, hroute, hothers, hframe⟩ := State.linkState_heard p d hkeep htrunks hheard
    refine ⟨_, hleads, ?_, ?_, fun t => ?_, fun n hn => ?_, fun n hn => ?_, hroute, hothers, hframe⟩
    · rw [hcount, hcounted, State.countedUp, State.countedUp, hreg]
    · rw [(hleft _).1, (hentries _).1, if_pos rfl]
      rfl
    · rw [(hleft _).2, (hentries _).2, if_pos rfl, bit_noticed, hls]
    · rw [(hleft n).1, (hleft n).2, (hentries n).1, (hentries n).2, if_neg hn, hls]
      exact ⟨rfl, rfl⟩
    · obtain ⟨htaken, -, -⟩ := s.linkState_left p d
      obtain ⟨-, -, -, -, hback⟩ := State.noticeHear_left (s := s) p ⟨hme, hseq⟩
      rw [State.ls, ← htaken]
      exact hback n hn

end Sys2Proof.Machine
end

section

-- One declaration after another: elaborated side by side, they take more threads than the check allows.
set_option Elab.async false

/-! The rows of a frame in reception: its header (R85, R130) and its last unit (R131). -/

namespace Sys2Proof.Machine

open Sys2Proof (Instr Hdr Ext)

theorem State.portCount_le (s : State) : s.portCount ≤ 512 := by
  have h : 2 ≤ s.nominal := by rw [State.nominal]; split <;> decide
  calc s.portCount ≤ Config.lanes / 2 := Nat.div_le_div_left h (by decide)
    _ ≤ 512 := by decide

/-! ## The header -/

/-- A frame in reception is recorded, within its credit: nothing of links and stored frames has changed. -/
def State.recorded (p : Nat) (h : Hdr) (e : Option Ext) (s u : State) : Prop :=
  u.link = s.link ∧ u.sw.stored = s.sw.stored ∧
  ∃ f : RxFrame, u.sw.rx.get? p = some f ∧ f.hdr = h ∧ f.extn = e ∧ f.covered = true

theorem State.rx_setRxFrame (s : State) (p : Nat) (f : RxFrame) : (s.setRxFrame p f).sw.rx.get? p = some f :=
  NMap.get?_set _ _ _

/-- What only takes cells and draws leaves links and stored frames. -/
def State.taking (s u : State) : Prop := u.link = s.link ∧ u.sw.stored = s.sw.stored

theorem State.taking_refl (s : State) : s.taking s := ⟨rfl, rfl⟩

theorem State.taking_trans {z s t : State} (h : z.taking s) (h' : s.taking t) : z.taking t :=
  ⟨h'.1.trans h.1, h'.2.trans h.2⟩

theorem State.taking_record {s u : State} (h : s.taking u) {p : Nat} {hd : Hdr} {e : Option Ext} {f : RxFrame}
    (hh : f.hdr = hd) (he : f.extn = e) (hc : f.covered = true) : State.recorded p hd e s (u.setRxFrame p f) :=
  ⟨h.1, h.2, f, u.rx_setRxFrame p f, hh, he, hc⟩

theorem State.taking_discard {s u : State} (h : s.taking u) (p : Nat) (hd : Hdr) (e : Option Ext) (counts : Counts)
    (refusal : Option Nat) : State.recorded p hd e s (u.discard p hd e counts refusal) :=
  State.taking_record h rfl rfl rfl

theorem State.meter_taking (s : State) (p cls n colour : Nat) : s.taking (s.meter p cls n colour).2 := by
  simp only [State.meter]
  repeat' split
  all_goals exact ⟨rfl, rfl⟩

theorem State.takeCells_taking (s : State) (tile cls n count : Nat) : s.taking (s.takeCells tile cls n count).2 := by
  refine ⟨State.keepsBut_link (s.takeCells_keepsBut tile cls n count), ?_⟩
  rw [State.takeCells]
  split
  · rfl
  · split
    next => exact congrArg SwSt.stored (State.keepsBut_sw (s.poolFail_keepsBut _ _ _ _ _ _))
    next as _ =>
      have hgive := (s.charge tile cls n (!s.fitsMin tile cls n)).giveCells_keepsBut as count
      exact (congrArg SwSt.stored (State.keepsBut_sw hgive)).trans rfl

theorem State.profile_taking (s : State) (port cls colour q : Nat) : s.taking (s.profile port cls colour q).2.2 :=
  ⟨State.keepsBut_link (s.profile_keepsBut port cls colour q),
    congrArg SwSt.stored (State.keepsBut_sw (s.profile_keepsBut port cls colour q))⟩

theorem State.admitRx_recorded (s : State) (p : Nat) (h : Hdr) (e : Option Ext) (copies : List Copy) (counts : Counts) :
    State.recorded p h e s (s.admitRx p h e copies counts) := by
  delta State.admitRx
  extract_lets tile n outs worst
  split
  next colour v hv =>
    have htaking : s.taking v := by
      rw [← show (ite _ _ _ : Nat × State).2 = v from congrArg Prod.snd hv]
      split
      · exact s.meter_taking p h.cls n h.colour
      · exact s.taking_refl
    split
    next drops mark w hw =>
      have htaking' : s.taking w := by
        rw [← show (ite _ _ _ : Bool × Bool × State).2.2 = w from congrArg (fun x => x.2.2) hw]
        split
        · exact htaking
        · exact State.taking_trans htaking (v.profile_taking _ _ _ _)
      split
      · exact State.taking_discard htaking' p h e _ none
      · split
        · exact State.taking_record htaking' rfl rfl rfl
        · have hcells := State.taking_trans htaking' (w.takeCells_taking tile h.cls n copies.length)
          split
          next r x hx =>
            rw [hx] at hcells
            exact State.taking_discard hcells p h e _ none
          next cells x hx =>
            rw [hx] at hcells
            exact State.taking_record hcells rfl rfl rfl

theorem State.routeRx_recorded (s : State) (p : Nat) (h : Hdr) (e : Option Ext) (handoff : Bool) :
    State.recorded p h e s (s.routeRx p h e handoff) := by
  have hdiscard := fun counts refusal => State.taking_discard s.taking_refl p h e counts refusal
  have hadmit := s.admitRx_recorded p h e
  delta State.routeRx
  extract_lets first
  clear_value first
  split
  · exact hadmit _ _
  · split
    · exact hadmit _ _
    · split
      · exact hdiscard _ _
      · exact hdiscard _ _
      · exact hadmit _ _
      · split
        · exact hadmit _ _
        · exact hdiscard _ _

/-- A frame on a port that is out of service. -/
theorem State.checkRx_held {s : State} {p : Nat} {h : Hdr} (e : Option Ext) (handoff : Bool) (hst : (s.route p).state ≠ 2)
    (hd : h.opcode ≠ Op.discovery) (ht : h.opcode ≠ Op.tickAnnounce) :
    s.checkRx p h e handoff = s.discard p h e [(.routeHeldDrop, 0, 1)] none := by
  rw [State.checkRx]
  exact if_pos (by simp [hst, hd, ht])

theorem State.checkRx_recorded (s : State) (p : Nat) (h : Hdr) (e : Option Ext) (handoff : Bool) :
    State.recorded p h e s (s.checkRx p h e handoff) := by
  have hdiscard := fun counts refusal => State.taking_discard s.taking_refl p h e counts refusal
  delta State.checkRx
  extract_lets free hedged
  clear_value free
  split
  · exact hdiscard _ _
  · split
    · exact hdiscard _ _
    · exact hdiscard _ _
    · split
      · exact hdiscard _ _
      · split
        · exact hdiscard _ _
        · split
          · exact hdiscard _ _
          · exact s.routeRx_recorded p h e handoff

/-- The start of a frame: steps 1 to 10 of Table 6.1. -/
def State.frameStart (s : State) (p : Nat) (h : Hdr) (e : Option Ext) (handoff : Bool) : State :=
  if creditLeft ((s.port p).rxGranted.getD h.vc 0) ((s.port p).rxUsed.getD h.vc 0) < frameCredit h then
    s.discard p h e [(.portCreditViol, p, 1)] none false
  else
    let s := s.setPort p fun P => { P with rxUsed := P.rxUsed.modify h.vc fun u => (u + frameCredit h) % 2 ^ 24 }
    if !headerOk h then s.discard p h e [(.portHdrDrop, p, 1)] none else s.checkRx p h e handoff

section

variable {s : State} {p b : Nat} {h : Hdr} {e : Option Ext} (hsafe : s.isSafe = false)

include hsafe

/-- The row of a unit on a port. -/
theorem leads_of_header (hin : p < s.portCount) : Leads s (.frameHeaderReceived p b h e) (s.headerReceived p b h e (s.takesFrame p h)) := by
  rw [Leads]
  refine (congrArg (onUnit _) ?_).trans (onUnit_true (by simpa [State.portOk] using hin) _)
  rw [State.data, if_neg (by simp [hsafe])]

variable (hport : (s.port p).state = 5)

include hport

/-- A unit on an ACTIVE port, by its kind (R85). -/
theorem State.headerReceived_active (handoff : Bool) : s.headerReceived p b h e handoff =
    match unitKind b with
    | .idle | .control => s.setDiscarding p false
    | .reserved => (s.setDiscarding p false).bump .portFrameErr p
    | .error => if (s.port p).discarding then s else (s.setDiscarding p true).bump .portFrameErr p
    | .start => if (s.port p).discarding then s else s.frameStart p h e handoff := by
  rw [State.headerReceived, if_neg (by simp [hport, hsafe])]
  rfl

end

/-- A unit that ends a framing error. -/
theorem unitKind_quiet {b : Nat} (h : b ∈ [0x00, 0x58, 0x59, 0x5A, 0x5C, 0x5E]) : unitKind b = .idle ∨ unitKind b = .control := by
  revert b
  decide

theorem unitKind_reserved {b : Nat} (h : b ∈ [0x5B, 0x5D, 0x5F]) : unitKind b = .reserved := by
  revert b
  decide

theorem unitKind_start {b : Nat} (h : b ∈ [0x01, 0x11, 0x21, 0x31]) : unitKind b = .start := by
  revert b
  decide

/-- Any other unit is the start of a frame or an error. -/
theorem unitKind_other {b : Nat} (h : b ∉ [0x00, 0x58, 0x59, 0x5A, 0x5B, 0x5C, 0x5D, 0x5E, 0x5F]) :
    unitKind b = if [0x01, 0x11, 0x21, 0x31].contains b then .start else .error := by
  have hrange : ¬ (0x58 ≤ b ∧ b ≤ 0x5F) := fun hb => h (by simp; omega)
  have hzero : b ≠ 0 := fun hb => h (by simp [hb])
  have hcontrol : [0x58, 0x59, 0x5A, 0x5C, 0x5E].contains b = false := by
    simp only [List.contains_eq_mem, decide_eq_false_iff_not]
    simp only [List.mem_cons, List.not_mem_nil, or_false] at h ⊢
    omega
  rw [unitKind, if_neg hzero, hcontrol, if_neg Bool.false_ne_true, if_neg hrange]

/-- A start of a frame within its credit (R130). -/
theorem State.frameStart_covered {s : State} {p : Nat} {h : Hdr} (e : Option Ext) (handoff : Bool)
    (hcr : frameCredit h ≤ creditLeft ((s.port p).rxGranted.getD h.vc 0) ((s.port p).rxUsed.getD h.vc 0)) :
    s.frameStart p h e handoff =
      let t := s.setPort p fun P => { P with rxUsed := P.rxUsed.modify h.vc fun w => (w + frameCredit h) % 2 ^ 24 }
      if !headerOk h then t.discard p h e [(.portHdrDrop, p, 1)] none else t.checkRx p h e handoff :=
  if_neg (by omega)

/-- A start of a frame within its credit: the credit is used, and the frame recorded. -/
theorem State.frameStart_left {s : State} {p : Nat} {h : Hdr} (e : Option Ext) (handoff : Bool)
    (hcr : frameCredit h ≤ creditLeft ((s.port p).rxGranted.getD h.vc 0) ((s.port p).rxUsed.getD h.vc 0)) :
    (s.frameStart p h e handoff).port p =
        { s.port p with rxUsed := (s.port p).rxUsed.modify h.vc fun w => (w + frameCredit h) % 2 ^ 24 } ∧
    (∃ f : RxFrame, (s.frameStart p h e handoff).sw.rx.get? p = some f ∧ f.hdr = h ∧ f.extn = e ∧ f.covered = true) ∧
    (s.frameStart p h e handoff).sw.stored = s.sw.stored ∧
    (headerOk h = false → (s.frameStart p h e handoff).sw.rx.get? p = some
      { hdr := h, extn := e, verdict := .drop none, counts := [(Reg.portHdrDrop.ctorIdx, p, 1)] }) ∧
    (headerOk h = true → (s.route p).state ≠ 2 → h.opcode ≠ Op.discovery → h.opcode ≠ Op.tickAnnounce →
      (s.frameStart p h e handoff).sw.rx.get? p = some
      { hdr := h, extn := e, verdict := .drop none, counts := [(Reg.routeHeldDrop.ctorIdx, 0, 1)] }) := by
  rw [State.frameStart_covered e handoff hcr]
  extract_lets t
  have hport : t.port p =
      { s.port p with rxUsed := (s.port p).rxUsed.modify h.vc fun w => (w + frameCredit h) % 2 ^ 24 } := s.port_setPort p _
  have hstored : t.sw.stored = s.sw.stored := rfl
  have hroute : t.route p = s.route p := rfl
  clear_value t
  have hrecorded : State.recorded p h e t
      (if !headerOk h then t.discard p h e [(.portHdrDrop, p, 1)] none else t.checkRx p h e handoff) := by
    split
    · exact State.taking_discard t.taking_refl p h e _ none
    · exact t.checkRx_recorded p h e handoff
  obtain ⟨hlink, hst, hrx⟩ := hrecorded
  refine ⟨(State.port_congr hlink p).trans hport, hrx, hst.trans hstored, fun hbad => ?_, fun hok hheld hd ht => ?_⟩
  · rw [if_pos (by simp [hbad])]
    exact t.rx_setRxFrame p _
  · rw [if_neg (by simp [hok]), State.checkRx_held e handoff (by rwa [hroute]) hd ht]
    exact t.rx_setRxFrame p _

theorem State.setDiscarding_left (s : State) (p : Nat) (b : Bool) : (s.setDiscarding p b).port p = { s.port p with discarding := b } ∧
    (∀ q, q ≠ p → (s.setDiscarding p b).port q = s.port q) ∧ s.keepsBut [.link] (s.setDiscarding p b) :=
  ⟨s.port_setPort p _, fun _ hq => s.port_setPort_ne _ hq, s.setPort_keepsBut p _⟩

/-- A framing error is counted. -/
theorem State.setDiscarding_counted (s : State) (p : Nat) (b : Bool) :
    ((s.setDiscarding p b).bump .portFrameErr p).port p = { s.port p with discarding := b } ∧
    ((s.setDiscarding p b).bump .portFrameErr p).reg .portFrameErr p = s.countedUp .portFrameErr p ∧
    s.keepsBut [.link, .regs] ((s.setDiscarding p b).bump .portFrameErr p) :=
  ⟨s.port_setPort p _, State.reg_bump _ _ _ _,
    State.keepsBut_trans (State.keepsBut_mono (s.setPort_keepsBut p _) (by decide))
      (State.keepsBut_mono (State.bump_keepsBut (s.setDiscarding p b) _ _ _) (by decide))⟩

/-! ## Frames in reception are left by what sends, takes and releases -/

theorem State.rx_of_sw {s u : State} (h : u.sw = s.sw) : u.sw.rx = s.sw.rx := congrArg SwSt.rx h

theorem State.returnCells_rx (s : State) (tile cls : Nat) (as : List Nat) (shared : Bool) :
    (s.returnCells tile cls as shared).sw.rx = s.sw.rx :=
  foldl_leaves (p := fun u : State => u.sw.rx) (fun u a => State.rx_of_sw (State.keepsBut_sw (u.returnSett_keepsBut a 0))) as
    (s.uncharge tile cls as.length shared)

theorem State.dropRx_rx (s : State) (p : Nat) (f : RxFrame) : (s.dropRx p f).sw.rx = s.sw.rx := by
  rw [State.dropRx]
  split
  · rfl
  · exact s.returnCells_rx _ _ _ _

theorem State.count_rx (s : State) (cs : Counts) : (s.count cs).sw.rx = s.sw.rx :=
  State.rx_of_sw (State.keepsBut_sw (s.count_keepsBut cs))

theorem State.takeCells_rx (s : State) (tile cls n count : Nat) : (s.takeCells tile cls n count).2.sw.rx = s.sw.rx := by
  rw [State.takeCells]
  split
  · rfl
  · split
    next => exact State.rx_of_sw (State.keepsBut_sw (s.poolFail_keepsBut _ _ _ _ _ _))
    next as _ =>
      have hgive := (s.charge tile cls n (!s.fitsMin tile cls n)).giveCells_keepsBut as count
      exact (State.rx_of_sw (State.keepsBut_sw hgive)).trans rfl

theorem State.enqueue_rx (s : State) (id tile cls cells : Nat) (h : Hdr) (c : Copy) :
    (s.enqueue id tile cls cells h c).sw.rx = s.sw.rx := by
  rw [State.enqueue]
  split <;> rfl

theorem State.storeFrame_rx (s : State) (f : Frame) (port : Option Nat) (tile cls : Nat) (cells : List Nat × Bool) (marked : Bool)
    (copies : List Copy) : (s.storeFrame f port tile cls cells marked copies).sw.rx = s.sw.rx := by
  rw [State.storeFrame]
  split
  · exact s.returnCells_rx _ _ _ _
  · refine (foldl_leaves (p := fun u : State => u.sw.rx) (fun u c => u.enqueue_rx _ _ _ _ _ c) copies _).trans ?_
    have hsw := State.keepsBut_sw (s.stzWatch_keepsBut f port copies)
    have hrx : (s.stzWatch f port copies).sw.rx = s.sw.rx := congrArg SwSt.rx hsw
    exact hrx

theorem State.admitOwn_rx (s : State) (f : Frame) (copies : List Copy) (tile : Nat) :
    (s.admitOwn f copies tile).sw.rx = s.sw.rx := by
  have htake := s.takeCells_rx tile f.hdr.cls (frameCells f.hdr) copies.length
  rw [State.admitOwn]
  split
  next cells u hu =>
    rw [hu] at htake
    exact (u.storeFrame_rx _ _ _ _ _ _ _).trans htake
  next hu =>
    rw [hu] at htake
    exact htake

theorem State.inject_rx (s : State) (f : Frame) (at_ : Option Nat) : (s.inject f at_).2.sw.rx = s.sw.rx := by
  delta State.inject
  extract_lets tile
  clear_value tile
  split
  · rfl
  split
  · dsimp only
    split
    · exact s.count_rx _
    · exact (State.admitOwn_rx _ _ _ _).trans (s.count_rx _)
  · split
    · exact s.admitOwn_rx _ _ _
    · dsimp only
      split
      · exact (State.admitOwn_rx _ _ _ _).trans (s.count_rx _)
      · exact s.count_rx _
    · rfl
    · exact s.count_rx _

theorem State.sendAck_rx (s : State) (h : Hdr) (ep : Nat) (a : AckInfo) : (s.sendAck h ep a).sw.rx = s.sw.rx := by
  rw [State.sendAck]
  refine (State.inject_rx _ _ _).trans ?_
  split <;> rfl

theorem State.sendRefusal_rx (s : State) (h : Hdr) (st : Option Nat) : (s.sendRefusal h st).sw.rx = s.sw.rx := by
  delta State.sendRefusal
  split
  · rfl
  · split
    · rfl
    · split
      · delta State.ratedRefusal
        extract_lets k
        split
        · rfl
        · split
          · rfl
          · exact State.sendAck_rx _ _ _ _
      · exact s.sendAck_rx _ _ _

theorem State.releaseCells_rx (s : State) (tile : Nat) (as : List Nat) : (s.releaseCells tile as).sw.rx = s.sw.rx :=
  State.rx_of_sw (State.keepsBut_sw (s.releaseCells_keepsBut tile as))

theorem State.releaseCopy_rx (s : State) (id : Nat) : (s.releaseCopy id).sw.rx = s.sw.rx := by
  rw [State.releaseCopy]
  split
  · rfl
  · split
    · exact State.releaseCells_rx _ _ _
    · exact State.releaseCells_rx _ _ _

theorem State.moveEntry_rx (s : State) (p tile cls : Nat) (drain : Bool) (e : Entry) :
    (s.moveEntry p tile cls drain e).sw.rx = s.sw.rx := by
  delta State.moveEntry
  split
  · rfl
  · extract_lets h
    split
    · rfl
    · split
      · exact s.enqueue_rx _ _ _ _ _ _
      · exact State.releaseCopy_rx _ _

theorem State.flushPort_rx (s : State) (p : Nat) (drain : Bool) : (s.flushPort p drain).sw.rx = s.sw.rx := by
  delta State.flushPort
  extract_lets keys t
  have ht : t.sw.rx = s.sw.rx := by
    simp only [t]
    refine foldl_leaves (p := fun u : State => u.sw.rx) (fun u tc => ?_) keys s
    split
    · rfl
    · exact (foldl_leaves (p := fun v : State => v.sw.rx) (fun v e => v.moveEntry_rx p tc.1 tc.2 drain e) _ _).trans rfl
  clear_value t
  exact ht

/-! ## The last unit -/

/-- The frame in reception is over, and the credit that it took is granted again. -/
def State.frameTaken (s : State) (p : Nat) (f : RxFrame) : State :=
  let s := { s with sw := { s.sw with rx := s.sw.rx.erase p } }
  if f.covered then s.returnCredit p f.hdr.vc (frameCredit f.hdr) else s

/-- What becomes of a frame that has passed the hop's check (R131). -/
def State.frameJudged (s : State) (p : Nat) (f : RxFrame) (payload : List Byte) (e2e : Nat) : State :=
  match f.verdict with
  | .drop refusal => s.sendRefusal f.hdr refusal
  | .taken =>
    if e2eCrc f.hdr f.extn payload != e2e then
      ((s.dropRx p f).bump .portE2eCrcDrop p).report
        { cls := 5, master := switchMaster (s.tileOf p), access := 5, detail := p }
    else if f.copies.isEmpty then s
    else
      let s := s.storeFrame (f.frame payload) (some p) (s.tileOf p) f.hdr.cls (f.cells, f.shared) f.cong f.copies
      ((f.copies.filterMap Copy.port).filter fun o => !s.portOpen o).foldl (fun s o => s.flushPort o) s

theorem State.frameEnd_eq {s : State} {p : Nat} {f : RxFrame} (hf : s.sw.rx.get? p = some f) (payload : List Byte) (e2e : Nat)
    (hop : Option Nat) : s.frameEnd p payload e2e hop =
      if some (hopCrc f.hdr f.extn payload e2e) != hop || payload.length != f.hdr.units * 64 then
        ((s.frameTaken p f).dropRx p f).bump .portHopCrcDrop p
      else (((s.frameTaken p f).bump .portRxFrames p).commitCounts f).frameJudged p f payload e2e := by
  rw [State.frameEnd, hf]
  rfl

/-- A credit that is granted again. -/
theorem State.returnCredit_port (s : State) (p vc n : Nat) :
    (s.returnCredit p vc n).port p = { s.port p with
      rxGranted := (s.port p).rxGranted.modify vc fun g => (g + n) % 2 ^ 24 } ∧
    ∀ q, q ≠ p → (s.returnCredit p vc n).port q = s.port q := by
  rw [State.returnCredit]
  dsimp only
  exact ⟨by rw [State.port_emit, State.port_setPort], fun q hq => by rw [State.port_emit, State.port_setPort_ne _ _ hq]⟩

theorem State.frameTaken_left (s : State) (p : Nat) (f : RxFrame) :
    (s.frameTaken p f).sw = { s.sw with rx := s.sw.rx.erase p } ∧
    s.keepsBut [.sw, .link, .out] (s.frameTaken p f) ∧
    (f.covered = true → (s.frameTaken p f).port p = { s.port p with
      rxGranted := (s.port p).rxGranted.modify f.hdr.vc fun g => (g + frameCredit f.hdr) % 2 ^ 24 }) ∧
    (f.covered = false → (s.frameTaken p f).link = s.link) ∧
    ∀ q, ((s.frameTaken p f).port q).state = (s.port q).state := by
  delta State.frameTaken
  extract_lets _ t
  have ht : s.keepsBut [.sw, .link, .out] t := State.keepsBut_with_sw _ (State.keepsBut_refl _ _) (by decide)
  have hport : ∀ q, t.port q = s.port q := fun _ => rfl
  have hlink : t.link = s.link := rfl
  have hsw : t.sw = { s.sw with rx := s.sw.rx.erase p } := rfl
  clear_value t
  split
  next hc =>
    refine ⟨hsw, State.keepsBut_trans ht (State.keepsBut_mono (State.returnCredit_keepsBut _ _ _ _) (by decide)), fun _ => ?_,
      fun h => absurd hc (by simp [h]), fun q => ?_⟩
    · exact (t.returnCredit_port p f.hdr.vc (frameCredit f.hdr)).1.trans (by rw [hport])
    · obtain ⟨hown, hothers⟩ := t.returnCredit_port p f.hdr.vc (frameCredit f.hdr)
      by_cases hq : q = p
      · rw [hq, hown, hport]
      · rw [hothers q hq, hport]
  next hc => exact ⟨hsw, ht, fun h => absurd h hc, fun _ => hlink, fun q => by rw [hport]⟩

/-- A frame that is judged leaves links, and the other frames in reception. -/
theorem State.frameJudged_left (s : State) (p : Nat) (f : RxFrame) (payload : List Byte) (e2e : Nat) :
    (s.frameJudged p f payload e2e).link = s.link ∧ (s.frameJudged p f payload e2e).sw.rx = s.sw.rx := by
  delta State.frameJudged
  split
  · exact ⟨State.keepsBut_link (s.sendRefusal_keepsBut _ _), s.sendRefusal_rx _ _⟩
  · split
    · exact ⟨(State.keepsBut_link (s.dropRx_keepsBut p f)).trans rfl, s.dropRx_rx p f⟩
    · split
      · exact ⟨rfl, rfl⟩
      · extract_lets t
        have ht : t.link = s.link := State.keepsBut_link (s.storeFrame_keepsBut _ _ _ _ _ _ _)
        have hrx : t.sw.rx = s.sw.rx := s.storeFrame_rx _ _ _ _ _ _ _
        clear_value t
        exact ⟨(foldl_leaves (p := fun u : State => u.link) (fun u o => State.keepsBut_link (u.flushPort_keepsBut o false)) _ t).trans ht,
          (foldl_leaves (p := fun u : State => u.sw.rx) (fun u o => u.flushPort_rx o false) _ t).trans hrx⟩

theorem State.enqueue_stored (s : State) (id tile cls cells : Nat) (h : Hdr) (c : Copy) :
    (s.enqueue id tile cls cells h c).sw.stored = s.sw.stored ∧ (s.enqueue id tile cls cells h c).sw.nextId = s.sw.nextId := by
  rw [State.enqueue]
  split <;> exact ⟨rfl, rfl⟩

/-- A frame that is stored (R132). -/
theorem State.storeFrame_stored (s : State) (f : Frame) (port : Option Nat) (tile cls : Nat) (cells : List Nat × Bool)
    (marked : Bool) {copies : List Copy} (h : copies ≠ []) :
    (s.storeFrame f port tile cls cells marked copies).sw.stored.get? s.sw.nextId =
      some ⟨s.sw.nextId, tile, cls, cells.1, cells.2, copies.length, f, port, marked⟩ ∧
    (s.storeFrame f port tile cls cells marked copies).sw.nextId = s.sw.nextId + 1 := by
  have hsw := State.keepsBut_sw (s.stzWatch_keepsBut f port copies)
  rw [State.storeFrame, if_neg (by simpa using h)]
  dsimp only
  rw [foldl_leaves (p := fun u : State => u.sw.stored) (fun u c => (u.enqueue_stored _ _ _ _ _ c).1) copies _,
    foldl_leaves (p := fun u : State => u.sw.nextId) (fun u c => (u.enqueue_stored _ _ _ _ _ c).2) copies _]
  dsimp only
  rw [hsw]
  exact ⟨NMap.get?_set _ _ _, rfl⟩

theorem State.returnCells_stored (s : State) (tile cls : Nat) (as : List Nat) (shared : Bool) :
    (s.returnCells tile cls as shared).sw.stored = s.sw.stored :=
  foldl_leaves (p := fun u : State => u.sw.stored) (fun u a =>
    congrArg SwSt.stored (State.keepsBut_sw (u.returnSett_keepsBut a 0))) as (s.uncharge tile cls as.length shared)

theorem State.dropRx_left (s : State) (p : Nat) (f : RxFrame) : (s.dropRx p f).sw.stored = s.sw.stored ∧
    (s.dropRx p f).flt = s.flt ∧ (∀ {r : Reg} {i : Nat}, r.cellQuiet i → (s.dropRx p f).reg r i = s.reg r i) := by
  refine ⟨?_, State.keepsBut_flt (s.dropRx_keepsBut p f), fun hr => ?_⟩
  · rw [State.dropRx]
    split
    · rfl
    · exact s.returnCells_stored _ _ _ _
  · rw [State.dropRx]
    split
    · rfl
    · exact State.returnCells_reg hr s _ _ _ _

/-- The counters of ports that a frame's end counts in. -/
theorem portCounter_cellQuiet {r : Reg} {p : Nat} (hr : r ∈ [Reg.portRxFrames, .portHdrDrop, .portHopCrcDrop, .portE2eCrcDrop, .portMode])
    (hp : p ≤ 512) : r.cellQuiet p :=
  Reg.cellQuiet_of_lt (by revert r; decide) (by omega)

theorem State.tileOf_congr {s t : State} (h : t.reg .portMode = s.reg .portMode) (p : Nat) : t.tileOf p = s.tileOf p := by
  rw [State.tileOf, State.tileOf, State.nominal_congr h]

theorem State.commitCounts_none (s : State) {f : RxFrame} (h : f.counts = []) : s.commitCounts f = s := by
  rw [State.commitCounts, h]
  rfl

/-- A frame that has passed the hop's check is counted at its port. -/
theorem State.frameCounted_left (s : State) {p : Nat} (f : RxFrame) (hp : p ≤ 512) :
    ((s.frameTaken p f).bump .portRxFrames p).sw = { s.sw with rx := s.sw.rx.erase p } ∧
    ((s.frameTaken p f).bump .portRxFrames p).flt = s.flt ∧
    ((s.frameTaken p f).bump .portRxFrames p).reg .portRxFrames p = s.countedUp .portRxFrames p ∧
    (∀ r ∈ [Reg.portHdrDrop, .portE2eCrcDrop], ((s.frameTaken p f).bump .portRxFrames p).reg r p = s.reg r p) ∧
    ((s.frameTaken p f).bump .portRxFrames p).tileOf p = s.tileOf p ∧
    ∀ o, ((s.frameTaken p f).bump .portRxFrames p).portOpen o = s.portOpen o := by
  obtain ⟨hsw, hkeep, -, -, hstate⟩ := s.frameTaken_left p f
  have hregs := State.keepsBut_regs hkeep
  have htopo := State.keepsBut_topo hkeep
  have hflt := State.keepsBut_flt hkeep
  generalize s.frameTaken p f = t at *
  have hreg : ∀ {r : Reg} {i : Nat}, r.ctorIdx ≠ Reg.portRxFrames.ctorIdx → i ≤ 512 →
      (t.bump .portRxFrames p).reg r i = s.reg r i := fun hne hi =>
    (State.reg_bump_ne t 1 (Reg.key_ne hne (by omega) (by omega))).trans (State.reg_congr hregs _ _)
  refine ⟨hsw, hflt, ?_, fun r hr => hreg (by revert r; decide) hp, State.tileOf_congr (hreg (by decide) (by decide)) p,
    fun o => ?_⟩
  · rw [State.reg_bump, State.countedUp, State.countedUp, State.reg_congr hregs]
  · have hroute : t.route o = s.route o := State.route_congr (congrArg TopoSt.ports htopo) o
    show ((t.port o).state == 5 && (t.route o).state == 2) = _
    rw [hstate, hroute]
    rfl

/-- A frame that the hop's check loses (R56, R87). -/
theorem State.frameLost_left (s : State) {p : Nat} (f : RxFrame) (hp : p ≤ 512) :
    (((s.frameTaken p f).dropRx p f).bump .portHopCrcDrop p).reg .portHopCrcDrop p = s.countedUp .portHopCrcDrop p ∧
    (((s.frameTaken p f).dropRx p f).bump .portHopCrcDrop p).sw.stored = s.sw.stored := by
  obtain ⟨hsw, hkeep, -⟩ := s.frameTaken_left p f
  have hregs := State.keepsBut_regs hkeep
  obtain ⟨hstored, -, hreg⟩ := (s.frameTaken p f).dropRx_left p f
  refine ⟨?_, hstored.trans (by rw [hsw])⟩
  rw [State.reg_bump, State.countedUp, State.countedUp, hreg (portCounter_cellQuiet (by decide) hp), State.reg_congr hregs]

/-- A frame's last unit leaves no frame in reception, and grants its credit again (R131). -/
theorem State.frameEnd_left {s : State} {p : Nat} {f : RxFrame} (hf : s.sw.rx.get? p = some f) (payload : List Byte) (e2e : Nat)
    (hop : Option Nat) : (s.frameEnd p payload e2e hop).sw.rx.get? p = none ∧
    (s.frameEnd p payload e2e hop).link = (s.frameTaken p f).link := by
  obtain ⟨hsw, -⟩ := s.frameTaken_left p f
  have hnone : (s.frameTaken p f).sw.rx.get? p = none := by
    rw [hsw]
    exact NMap.get?_erase _ _
  rw [State.frameEnd_eq hf, ← hnone]
  split
  · have hlink := State.keepsBut_link ((s.frameTaken p f).dropRx_keepsBut p f)
    have hrx := (s.frameTaken p f).dropRx_rx p f
    exact ⟨congrArg (fun m => NMap.get? m p) hrx, hlink⟩
  · have hcommit := ((s.frameTaken p f).bump .portRxFrames p).commitCounts_keepsBut f
    have hclink := State.keepsBut_link hcommit
    have hcsw := State.keepsBut_sw hcommit
    obtain ⟨hlink, hrx⟩ := (((s.frameTaken p f).bump .portRxFrames p).commitCounts f).frameJudged_left p f payload e2e
    rw [hcsw] at hrx
    exact ⟨congrArg (fun m => NMap.get? m p) hrx, hlink.trans hclink⟩

section

variable {s : State} {p : Nat} {f : RxFrame} {payload : List Byte} {e2e : Nat} {hop : Option Nat}
  (hf : s.sw.rx.get? p = some f) (hp : p ≤ 512)

include hf hp

/-- A frame that the hop's check loses is counted, and nothing stored. -/
theorem State.frameEnd_lost (h : hop ≠ some (hopCrc f.hdr f.extn payload e2e) ∨ payload.length ≠ f.hdr.units * 64) :
    (s.frameEnd p payload e2e hop).reg .portHopCrcDrop p = s.countedUp .portHopCrcDrop p ∧
    (s.frameEnd p payload e2e hop).sw.stored = s.sw.stored := by
  obtain ⟨hreg, hstored⟩ := s.frameLost_left f hp
  rw [State.frameEnd_eq hf, if_pos (by simpa [bne_iff_ne] using h.imp_left Ne.symm)]
  exact ⟨hreg, hstored⟩

variable (hok : hop = some (hopCrc f.hdr f.extn payload e2e)) (hlen : payload.length = f.hdr.units * 64)

include hok hlen

/-- A drop that the header decided is counted with its own counter. -/
theorem State.frameEnd_dropped (hv : f.verdict = .drop none) (hc : f.counts = [(Reg.portHdrDrop.ctorIdx, p, 1)]) :
    (s.frameEnd p payload e2e hop).reg .portRxFrames p = s.countedUp .portRxFrames p ∧
    (s.frameEnd p payload e2e hop).reg .portHdrDrop p = s.countedUp .portHdrDrop p ∧
    (s.frameEnd p payload e2e hop).sw.stored = s.sw.stored := by
  obtain ⟨hsw, -, hrx, hregs, -⟩ := s.frameCounted_left f hp
  have hend : s.frameEnd p payload e2e hop = ((s.frameTaken p f).bump .portRxFrames p).bump .portHdrDrop p := by
    rw [State.frameEnd_eq hf, if_neg (by simp [hok, hlen]), State.frameJudged, hv, State.commitCounts, hc]
    rfl
  rw [hend]
  have hstored : ((s.frameTaken p f).bump .portRxFrames p).sw.stored = s.sw.stored := by rw [hsw]
  refine ⟨?_, ?_, hstored⟩
  · rw [State.reg_bump_ne _ _ (Reg.key_ne (by decide) (by omega) (by omega)), hrx]
  · rw [State.reg_bump, State.countedUp, hregs _ (by decide), State.countedUp]

/-- An end-to-end CRC that fails is counted, and a fault of class 5 (R131). -/
theorem State.frameEnd_corrupt (hv : f.verdict = .taken) (hc : f.counts = []) (hcrc : e2eCrc f.hdr f.extn payload ≠ e2e) :
    (s.frameEnd p payload e2e hop).reg .portRxFrames p = s.countedUp .portRxFrames p ∧
    (s.frameEnd p payload e2e hop).reg .portE2eCrcDrop p = s.countedUp .portE2eCrcDrop p ∧
    (s.frameEnd p payload e2e hop).sw.stored = s.sw.stored ∧
    (s.frameEnd p payload e2e hop).flt.todo = s.flt.todo ++
      [({ cls := 5, master := switchMaster (s.tileOf p), access := 5, detail := p }, false)] := by
  obtain ⟨hsw, hflt, hrx, hregs, htile, -⟩ := s.frameCounted_left f hp
  rw [State.frameEnd_eq hf, if_neg (by simp [hok, hlen]), State.commitCounts_none _ hc]
  generalize (s.frameTaken p f).bump .portRxFrames p = t at *
  obtain ⟨hstored, hdflt, hdreg⟩ := t.dropRx_left p f
  have hjudged : t.frameJudged p f payload e2e = ((t.dropRx p f).bump .portE2eCrcDrop p).report
      { cls := 5, master := switchMaster (t.tileOf p), access := 5, detail := p } := by
    rw [State.frameJudged, hv]
    exact if_pos (by simpa [bne_iff_ne] using hcrc)
  rw [hjudged, htile]
  refine ⟨?_, ?_, hstored.trans (by rw [hsw]), ?_⟩
  · exact (State.reg_bump_ne _ _ (Reg.key_ne (by decide) (by omega) (by omega))).trans
      ((hdreg (portCounter_cellQuiet (by decide) hp)).trans hrx)
  · exact (State.reg_bump _ _ _ _).trans (by
      rw [State.countedUp, State.countedUp, hdreg (portCounter_cellQuiet (by decide) hp), hregs _ (by decide)])
  · show (t.dropRx p f).flt.todo ++ _ = _
    rw [hdflt, hflt]

/-- A frame that passes is stored, once, with its copies (R131, R132). -/
theorem State.frameEnd_stored (hv : f.verdict = .taken) (hc : f.counts = []) (hcrc : e2eCrc f.hdr f.extn payload = e2e)
    (hcopies : f.copies ≠ []) (hopen : ∀ c ∈ f.copies, ∀ o, c.port = some o → s.portOpen o = true) :
    (s.frameEnd p payload e2e hop).reg .portRxFrames p = s.countedUp .portRxFrames p ∧
    (s.frameEnd p payload e2e hop).sw.stored.get? s.sw.nextId = some ⟨s.sw.nextId, s.tileOf p, f.hdr.cls, f.cells, f.shared,
      f.copies.length, f.frame payload, some p, f.cong⟩ ∧
    (s.frameEnd p payload e2e hop).sw.nextId = s.sw.nextId + 1 ∧ (s.frameEnd p payload e2e hop).flt = s.flt := by
  obtain ⟨hsw, hflt, hrx, -, htile, hports⟩ := s.frameCounted_left f hp
  rw [State.frameEnd_eq hf, if_neg (by simp [hok, hlen]), State.commitCounts_none _ hc]
  generalize (s.frameTaken p f).bump .portRxFrames p = t at *
  have hkeep := t.storeFrame_keepsBut (f.frame payload) (some p) (t.tileOf p) f.hdr.cls (f.cells, f.shared) f.cong f.copies
  obtain ⟨hstored, hnext⟩ := t.storeFrame_stored (f.frame payload) (some p) (t.tileOf p) f.hdr.cls (f.cells, f.shared) f.cong
    hcopies
  have hreg := State.storeFrame_reg (portCounter_cellQuiet (r := .portRxFrames) (by decide) hp) t (f.frame payload) (some p)
    (t.tileOf p) f.hdr.cls (f.cells, f.shared) f.cong f.copies
  have hjudged : t.frameJudged p f payload e2e =
      t.storeFrame (f.frame payload) (some p) (t.tileOf p) f.hdr.cls (f.cells, f.shared) f.cong f.copies := by
    rw [State.frameJudged, hv]
    dsimp only
    rw [if_neg (by simp [hcrc]), if_neg (by simpa using hcopies)]
    generalize t.storeFrame (f.frame payload) (some p) (t.tileOf p) f.hdr.cls (f.cells, f.shared) f.cong f.copies = v at hkeep ⊢
    have hnone : ((f.copies.filterMap Copy.port).filter fun o => !v.portOpen o) = [] := by
      refine List.filter_eq_nil_iff.2 fun o ho => ?_
      obtain ⟨c, hc, hco⟩ := List.mem_filterMap.1 ho
      have hvo : v.portOpen o = t.portOpen o := by
        rw [State.portOpen, State.portOpen, State.port_congr (State.keepsBut_link hkeep),
          State.route_congr (congrArg TopoSt.ports (State.keepsBut_topo hkeep))]
      simp [hvo, hports, hopen c hc o hco]
    rw [hnone]
    rfl
  rw [hjudged]
  have hid : t.sw.nextId = s.sw.nextId := by rw [hsw]
  rw [hid, htile] at hstored hnext
  rw [htile] at hreg hkeep ⊢
  exact ⟨hreg.trans hrx, hstored, hnext, (State.keepsBut_flt hkeep).trans hflt⟩

end

/-- Settles O29: the header of a unit on an ACTIVE port decides what becomes of its frame, and the frame's last unit commits it. -/
theorem framesAreChecked : Obligations.FramesAreChecked := by
  refine ⟨fun s p b h e hin hsafe hport => ?_, fun s p f payload e2e hop hin hsafe hf hpass => ?_⟩
  · have hleads := leads_of_header (b := b) (h := h) (e := e) hsafe hin
    rw [State.headerReceived_active hsafe hport] at hleads
    refine ⟨fun hb => ?_, fun hb => ?_, fun hb hd => ?_, fun hb hd => ?_, fun hb hd => ⟨fun hcr => ?_, fun hcr => ?_⟩⟩
    · refine ⟨s.setDiscarding p false, ?_, s.setDiscarding_left p false⟩
      rcases unitKind_quiet hb with hk | hk <;> rwa [hk] at hleads
    · rw [unitKind_reserved hb] at hleads
      exact ⟨_, hleads, s.setDiscarding_counted p false⟩
    · have hstart : [0x01, 0x11, 0x21, 0x31].contains b = false := by
        simp only [List.contains_eq_mem, decide_eq_false_iff_not]
        simp only [List.mem_cons, List.not_mem_nil, or_false] at hb ⊢
        omega
      rw [unitKind_other fun h => hb (List.mem_append_left [0x01, 0x11, 0x21, 0x31] h), hstart] at hleads
      refine ⟨_, ?_, s.setDiscarding_counted p true⟩
      simpa [hd] using hleads
    · rw [unitKind_other hb] at hleads
      cases hstart : [0x01, 0x11, 0x21, 0x31].contains b
      · rw [hstart] at hleads
        simpa [hd] using hleads
      · rw [hstart] at hleads
        simpa [hd] using hleads
    · rw [unitKind_start hb] at hleads
      refine ⟨s.discard p h e [(.portCreditViol, p, 1)] none false, ?_, s.rx_setRxFrame p _, s.discard_keepsBut _ _ _ _ _ _⟩
      have hviol : s.frameStart p h e (s.takesFrame p h) = s.discard p h e [(.portCreditViol, p, 1)] none false := if_pos hcr
      simpa [hd, hviol] using hleads
    · rw [unitKind_start hb] at hleads
      refine ⟨_, ?_, State.frameStart_left e (s.takesFrame p h) hcr⟩
      simpa [hd] using hleads
  · have hp : p ≤ 512 := by have := s.portCount_le; omega
    obtain ⟨-, -, hcredit, hnone, -⟩ := s.frameTaken_left p f
    obtain ⟨hrx, hlink⟩ := State.frameEnd_left hf payload e2e hop
    refine ⟨s.frameEnd p payload e2e hop, ?_, hrx, fun hc => (State.port_congr hlink p).trans (hcredit hc),
      fun hc => hlink.trans (hnone hc), State.frameEnd_lost hf hp, fun hok hlen =>
        ⟨State.frameEnd_dropped hf hp hok hlen, State.frameEnd_corrupt hf hp hok hlen, State.frameEnd_stored hf hp hok hlen⟩⟩
    refine (congrArg (onUnit _) ?_).trans (onUnit_true (by simpa [State.portOk] using hin) _)
    rw [State.data, if_neg (by simp [hsafe]), State.lastUnit, hf]
    dsimp only
    rw [if_neg (by simp [hpass])]

end Sys2Proof.Machine
end

section

-- One declaration after another: elaborated side by side, they take more threads than the check allows.
set_option Elab.async false

/-! What settling leaves of a module with little to settle: the first report that counts, and a register that nothing counts in
once the module is safe. -/

namespace Sys2Proof.Machine

open Sys2Proof (Instr Hdr)

/-! ## Operations that report no fault of a class -/

/-- Of the fault collection only the queue has grown, by no report of a class. -/
def State.otherReports (c : Nat) (s t : State) : Prop :=
  ∃ l : List (FaultRep × Bool), t.flt = { s.flt with todo := s.flt.todo ++ l } ∧ ∀ x ∈ l, x.1.cls ≠ c

section

variable {c : Nat}

theorem State.others_of_flt {s t : State} (hf : t.flt = s.flt) : State.otherReports c s t :=
  ⟨[], by rw [hf, List.append_nil], fun _ h => absurd h List.not_mem_nil⟩

theorem State.others_refl (s : State) : State.otherReports c s s := State.others_of_flt rfl

theorem State.others_trans {z s t : State} (h : State.otherReports c z s) (h' : State.otherReports c s t) :
    State.otherReports c z t := by
  obtain ⟨l, hl, hlc⟩ := h
  obtain ⟨l', hl', hlc'⟩ := h'
  exact ⟨l ++ l', by rw [hl', hl, List.append_assoc], fun x hx => (List.mem_append.1 hx).elim (hlc x) (hlc' x)⟩

theorem State.others_safe {s t : State} (h : State.otherReports c s t) : t.isSafe = s.isSafe := by
  obtain ⟨l, hl, -⟩ := h
  rw [State.isSafe, State.isSafe, hl]

variable (hc : c ≠ 13)

include hc

/-- A refused operation of a pool is a fault of class 13 (R165). -/
theorem State.poolRefused_others (s : State) (m op k r st a : Nat) : State.otherReports c s (s.poolRefused m op k r st a) := by
  delta State.poolRefused
  extract_lets t
  have ht : t.flt = s.flt := State.keepsBut_flt (s.event_keepsBut _ _ _ _ _ _)
  clear_value t
  split
  · refine ⟨[({ cls := 13, master := m, addr := a }, false)], ?_, fun x hx => ?_⟩
    · rw [← ht]
      rfl
    · rw [List.mem_singleton.1 hx]
      exact hc.symm
  · exact State.others_of_flt ht

theorem State.poolFail_others (s : State) (m op k r st a : Nat) : State.otherReports c s (s.poolFail m op k r st a) := by
  delta State.poolFail
  extract_lets t
  have ht : t.flt = s.flt := by
    simp only [t]
    repeat' split
    all_goals rfl
  clear_value t
  exact State.others_trans (State.others_of_flt ht) (State.poolRefused_others hc t _ _ _ _ _ _)

theorem State.free_others (s : State) (m r a : Nat) : State.otherReports c s (s.free m r a).2 := by
  have hfail := fun op k st => State.poolFail_others hc s m op k r st a
  rw [State.free]
  split
  · exact hfail _ _ _
  · exact hfail _ _ _
  · split
    · split <;> exact hfail _ _ _
    · split
      · split <;> exact State.others_of_flt rfl
      · split
        · exact hfail _ _ _
        · exact State.others_of_flt rfl

/-- A frame put into the switch may find its tile's pool without room. -/
theorem State.inject_others (s : State) (f : Frame) (at_ : Option Nat) : State.otherReports c s (s.inject f at_).2 := by
  have hcount : ∀ cs, State.otherReports c s (s.count cs) := fun cs =>
    State.others_of_flt (State.keepsBut_flt (s.count_keepsBut cs))
  have hown : ∀ (t : State) (copies : List Copy) (tile : Nat), State.otherReports c t (t.admitOwn f copies tile) :=
    fun t copies tile => by
    have htake : State.otherReports c t (t.takeCells tile f.hdr.cls (frameCells f.hdr) copies.length).2 := by
      rw [State.takeCells]
      split
      · exact t.others_refl
      · split
        · exact State.poolFail_others hc t _ _ _ _ _ _
        · exact State.others_of_flt rfl
    rw [State.admitOwn]
    split
    next cells u hu =>
      rw [hu] at htake
      exact State.others_trans htake (State.others_of_flt (State.keepsBut_flt (u.storeFrame_keepsBut _ _ _ _ _ _ _)))
    next hu =>
      rw [hu] at htake
      exact htake
  delta State.inject
  extract_lets tile
  clear_value tile
  split
  · exact s.others_refl
  split
  · dsimp only
    split
    · exact hcount _
    · exact State.others_trans (hcount _) (hown _ _ _)
  · split
    · exact hown _ _ _
    · dsimp only
      split
      · exact State.others_trans (hcount _) (hown _ _ _)
      · exact hcount _
    · exact State.others_of_flt rfl
    · exact hcount _

end

/-! ## Operations that a register is left by in the safe state -/

/-- What commands, blocks, runs, groups and the phases leave to settle. -/
def State.core (s : State) : List Ctx × NMap BlockSt × List (Nat × Nat × Nat) × NMap ProgSt × TopoSt × BootSt :=
  (s.host.ctxs, s.parm.blocks, s.parm.told, s.eng.progs, s.topo, s.boot)

/-- No report of a class, nothing new to settle; in the safe state a register word stays as it is. -/
def State.mild (c : Nat) (r : Reg) (i : Nat) (s t : State) : Prop :=
  State.otherReports c s t ∧ t.core = s.core ∧ (s.isSafe = true → t.reg r i = s.reg r i)

/-- The counters of what settles by itself: of routing decisions, of ended operations and of the stash. -/
def settleCounters : List Reg :=
  routeCounters ++ [.collStozilDone, .collHedgedMember, .collInstancesDone, .collTimeout, .collAborted, .collReplayed,
    .collMemberLost, .collNoBench, .collFallback, .stashGetSegments, .stashGetEnded, .stashDropped]

/-- A register word that is counted in by neither events and pools nor what settles by itself. -/
def Reg.restQuiet (r : Reg) (i : Nat) : Prop := r.cellQuiet i ∧ ∀ q ∈ settleCounters, r.key i ≠ q.key 0

section

variable {c : Nat} {r : Reg} {i : Nat}

theorem State.core_of_keeps {s t : State} {ch : List Part} (h : s.keepsBut ch t)
    (hc : Part.host ∉ ch ∧ Part.parm ∉ ch ∧ Part.eng ∉ ch ∧ Part.topo ∉ ch ∧ Part.boot ∉ ch) : t.core = s.core := by
  obtain ⟨hh, hp, he, ht, hb⟩ := hc
  rw [State.core, State.core, State.keepsBut_host h hh, State.keepsBut_parm h hp, State.keepsBut_eng h he, State.keepsBut_topo h ht,
    State.keepsBut_boot h hb]

theorem State.mild_of_parts {s t : State} (hf : t.flt = s.flt) (hc : t.core = s.core) (hr : t.regs = s.regs) :
    State.mild c r i s t := ⟨State.others_of_flt hf, hc, fun _ => State.reg_congr hr r i⟩

theorem State.mild_refl (s : State) : State.mild c r i s s := State.mild_of_parts rfl rfl rfl

theorem State.mild_trans {z s t : State} (h : State.mild c r i z s) (h' : State.mild c r i s t) : State.mild c r i z t := by
  obtain ⟨hrep, hcore, hreg⟩ := h
  obtain ⟨hrep', hcore', hreg'⟩ := h'
  exact ⟨State.others_trans hrep hrep', hcore'.trans hcore, fun hz => (hreg' ((State.others_safe hrep).trans hz)).trans (hreg hz)⟩

theorem State.mild_foldl {α : Type} {f : State → α → State} (h : ∀ (s : State) x, State.mild c r i s (f s x)) (l : List α)
    (s : State) : State.mild c r i s (l.foldl f s) :=
  List.foldlRecOn (motive := fun u : State => State.mild c r i s u) l f s.mild_refl fun u hu x _ => State.mild_trans hu (h u x)

theorem State.note_mild (s : State) (o : Owner) (n : Note) : State.mild c r i s (s.note o n) := by
  cases o <;> exact State.mild_of_parts rfl rfl rfl

theorem State.setTx_mild (s : State) (t : TxFlow) : State.mild c r i s (s.setTx t) := State.mild_of_parts rfl rfl rfl

variable (hc : c ≠ 13) (hr : r.restQuiet i)

include hr

theorem State.bump_mild (s : State) {q : Reg} (hq : q ∈ settleCounters) (n : Nat) : State.mild c r i s (s.bump q 0 n) :=
  ⟨State.others_refl s, rfl, fun _ => State.reg_bump_ne s n (hr.2 q hq)⟩

include hc

theorem State.free_mild (s : State) (m q a : Nat) : State.mild c r i s (s.free m q a).2 :=
  ⟨State.free_others hc s m q a, State.core_of_keeps (s.free_keepsBut m q a) (by decide), fun _ => State.free_reg hr.1 s m q a⟩

omit hr in
/-- Nothing enters the switch in the safe state. -/
theorem State.inject_mild (s : State) (f : Frame) (at_ : Option Nat) : State.mild c r i s (s.inject f at_).2 := by
  refine ⟨State.inject_others hc s f at_, State.core_of_keeps (s.inject_keepsBut f at_) (by decide), fun hs => ?_⟩
  rw [State.inject, if_pos hs]

theorem State.sendAck_mild (s : State) (h : Hdr) (ep : Nat) (a : AckInfo) : State.mild c r i s (s.sendAck h ep a) := by
  delta State.sendAck
  extract_lets mc src cong
  refine State.mild_trans ?_ (State.inject_mild hc _ _ _)
  split
  · exact State.bump_mild hr s (by decide) 1
  · exact s.mild_refl

theorem State.originate_mild (s : State) (f : Frame) (at_ : Option Nat) : State.mild c r i s (s.originate f at_) := by
  have hin : State.mild c r i s (s.inject f at_).2 := State.inject_mild hc s f at_
  rw [State.originate]
  split
  · rw [State.ratedRefusal]
    split
    · exact hin
    · dsimp only
      split
      · exact hin
      · exact State.mild_trans hin (State.mild_trans (State.mild_of_parts rfl rfl rfl) (State.sendAck_mild hc hr _ _ _ _))
  · exact hin

theorem State.sendPlain_mild (s : State) (f : Frame) : State.mild c r i s (s.sendPlain f) := by
  rw [State.sendPlain]
  split
  · exact State.bump_mild hr s (by decide) 1
  · exact State.originate_mild hc hr s _ _

/-- An acked frame that is sent in its flow, or queued. -/
theorem State.send_mild (s : State) (f : Frame) (o : Owner) : State.mild c r i s (s.send f o) := by
  delta State.send
  extract_lets k t h f' w u s1
  have hnotes : State.mild c r i s s1 := by
    unfold s1
    split
    · exact State.mild_foldl (fun u m => State.note_mild u _ _) _ s
    · exact s.mild_refl
  clear_value s1 f' w u
  split_ifs
  · exact s.setTx_mild _
  · exact State.mild_trans (State.bump_mild hr s (by decide) 1) (State.note_mild _ _ _)
  · exact State.mild_trans (State.mild_trans (State.mild_trans hnotes (s1.setTx_mild _)) (State.originate_mild hc hr _ _ _))
      (State.note_mild _ _ _)
  · exact State.mild_trans (State.mild_trans hnotes (s1.setTx_mild _)) (State.originate_mild hc hr _ _ _)
  · exact s.setTx_mild _

end

end Sys2Proof.Machine
end

section

-- One declaration after another: elaborated side by side, they take more threads than the check allows.
set_option Elab.async false

/-! What an operation's frames come to, where no command, block, run or group waits for it. -/

namespace Sys2Proof.Machine

open Sys2Proof (Instr Hdr)

/-- No command waits, and neither blocks, runs, groups nor lost nodes have anything to settle. -/
def State.idle (s : State) : Prop :=
  s.host.ctxs = [] ∧ s.parm.blocks = [] ∧ s.parm.told = [] ∧ s.eng.progs = [] ∧ s.topo.groups = [] ∧ s.topo.lostDue = [] ∧
  s.boot.phase ≠ Phase.linking

theorem State.idle_congr {s t : State} (h : t.core = s.core) (hs : s.idle) : t.idle := by
  simp only [State.core, Prod.mk.injEq] at h
  obtain ⟨hc, hb, ht, hp, htopo, hboot⟩ := h
  rw [State.idle, hc, hb, ht, hp, htopo, hboot]
  exact hs

section

variable {c : Nat} {r : Reg} {i : Nat}

theorem State.withdraw_mild (s : State) (p : Owner → Bool) : State.mild c r i s (s.withdraw p) :=
  State.mild_of_parts rfl rfl rfl

theorem State.workEnded_mild (s : State) (f job : Nat) (drained : Bool) : State.mild c r i s (s.workEnded f job drained) :=
  ⟨s.others_refl, rfl, fun _ => rfl⟩

theorem State.stamped_mild (s : State) : State.mild c r i s s.stamped := State.mild_of_parts rfl rfl rfl

theorem State.setColl_mild (s : State) (f : CollsSt → CollsSt) : State.mild c r i s (s.setColl f) :=
  State.mild_of_parts rfl rfl rfl

theorem State.setOp_mild (s : State) (ctx : Nat) (f : CollSt → CollSt) : State.mild c r i s (s.setOp ctx f) := by
  rw [State.setOp]
  split
  · exact s.setColl_mild _
  · exact s.mild_refl

theorem State.setInst_mild (s : State) (ctx : Nat) (f : InstSt → InstSt) : State.mild c r i s (s.setInst ctx f) :=
  s.setOp_mild ctx _

theorem State.dropBench_mild (s : State) (b : Nat × Nat) : State.mild c r i s (s.dropBench b) :=
  State.mild_of_parts rfl rfl rfl

theorem State.dropCtx_mild (s : State) (n : Nat) : State.mild c r i s (s.dropCtx n) := State.mild_of_parts rfl rfl rfl

theorem State.clearMem_mild (s : State) (a n : Nat) : State.mild c r i s (s.clearMem a n) := State.mild_of_parts rfl rfl rfl

theorem State.setStash_mild (s : State) (f : StashSt → StashSt) : State.mild c r i s (s.setStash f) :=
  State.mild_of_parts rfl rfl rfl

theorem State.setStz_mild (s : State) (f : StzSt → StzSt) : State.mild c r i s (s.setStz f) := State.mild_of_parts rfl rfl rfl

theorem State.setStzOp_mild (s : State) (n : Nat) (f : StzOp → StzOp) : State.mild c r i s (s.setStzOp n f) := by
  rw [State.setStzOp]
  split
  · exact s.mild_refl
  · exact s.setStz_mild _

theorem State.returnSpans_mild (s : State) (job : Nat) : State.mild c r i s (s.returnSpans job) := by
  rw [State.returnSpans]
  split
  · exact s.mild_refl
  · exact s.setStash_mild _

theorem State.freeEntry_mild (s : State) (e : StashEnt) : State.mild c r i s (s.freeEntry e) :=
  State.mild_trans (s.setStash_mild _) (State.returnSpans_mild _ _)

theorem State.stashSweep_mild (s : State) (job : Nat) : State.mild c r i s (s.stashSweep job) := by
  rw [State.stashSweep]
  split
  · split
    · exact State.mild_foldl (fun u e => u.freeEntry_mild e) _ s
    · exact s.mild_refl
  · exact s.mild_refl

variable (hc : c ≠ 13) (hr : r.restQuiet i)

include hr

/-! ## Gets of the stash -/

theorem State.getOver_mild (s : State) (g : StashGet) (ok : Bool) : State.mild c r i s (s.getOver g ok) := by
  delta State.getOver
  extract_lets t
  have ht : State.mild c r i s t := s.setStash_mild _
  clear_value t
  split
  · exact ht
  · refine State.mild_trans ht ?_
    extract_lets left after again
    clear_value left after again
    split
    · exact t.mild_refl
    · split
      · exact State.mild_trans (t.setStash_mild _) (State.stamped_mild _)
      · split
        · exact State.mild_trans (t.freeEntry_mild _) (State.bump_mild hr _ (by decide) 1)
        · exact t.setStash_mild _

theorem State.findHedged_mild (s : State) (job : Nat) (d : CollDesc) (x : InstSt) :
    State.mild c r i s (s.findHedged job d x).2 := by
  rw [State.findHedged]
  dsimp only
  split
  · exact s.mild_refl
  · exact State.bump_mild hr s (by decide) _

theorem State.countEnding_mild (s : State) (d : CollDesc) (st : Nat) : State.mild c r i s (s.countEnding d st) := by
  have hbump : ∀ {q : Reg}, q ∈ settleCounters → State.mild c r i s (s.bump q) := fun hq => State.bump_mild hr s hq 1
  rw [State.countEnding]
  repeat' split
  · exact hbump (by decide)
  · exact hbump (by decide)
  · exact hbump (by decide)
  · exact hbump (by decide)
  · exact State.mild_trans (hbump (by decide)) (State.bump_mild hr _ (by decide) 1)
  · exact hbump (by decide)
  · exact s.mild_refl

theorem State.markHedged_mild (s : State) (ctx m : Nat) : State.mild c r i s (s.markHedged ctx m) := by
  rw [State.markHedged]
  split
  · split
    · exact s.mild_refl
    · exact State.mild_trans (State.mild_trans (State.bump_mild hr s (by decide) 1) (State.setInst_mild _ _ _))
        (State.setOp_mild _ _ _)
  · exact s.mild_refl

theorem State.markClosing_mild (s : State) (ctx gen m : Nat) : State.mild c r i s (s.markClosing ctx gen m) := by
  rw [State.markClosing]
  split
  · exact s.mild_refl
  · split
    · exact s.mild_refl
    · exact State.mild_trans (State.bump_mild hr s (by decide) 1) (State.setOp_mild _ _ _)

include hc

theorem State.sendReply_mild (s : State) (g : StashGet) (st bytes : Nat) : State.mild c r i s (s.sendReply g st bytes) :=
  State.mild_trans (State.mild_trans s.stamped_mild (State.setStash_mild _ _)) (State.send_mild hc hr _ _ _)

theorem State.endGet_mild (s : State) (g : StashGet) (st : Nat) (reply : Bool) : State.mild c r i s (s.endGet g st reply) := by
  delta State.endGet
  extract_lets bytes s1 s2 s3
  have h1 : State.mild c r i s s1 := s.withdraw_mild _
  have h2 : State.mild c r i s s2 := by
    simp only [s2]
    split
    · exact State.mild_trans h1 (State.bump_mild hr s1 (by decide) 1)
    · exact h1
  have h3 : State.mild c r i s s3 := by
    simp only [s3]
    split
    · exact State.mild_trans h2 (State.sendReply_mild hc hr s2 _ _ _)
    · exact h2
  exact State.mild_trans h3 (State.getOver_mild hr s3 g false)

theorem State.replyCheck_mild (s : State) (id : Nat) : State.mild c r i s (s.replyCheck id) := by
  rw [State.replyCheck]
  split
  · exact s.mild_refl
  · dsimp only
    split
    · exact s.mild_refl
    · exact State.sendReply_mild hc hr s _ _ _

theorem State.stashNote_mild (s : State) (id : Nat) (reply : Bool) (n : Note) : State.mild c r i s (s.stashNote id reply n) := by
  have hsettled : ∀ g : StashGet, State.mild c r i s (
      let s := if reply then s else s.bump .stashGetSegments
      if g.left ≤ 1 then ((s.getOver g true).workEnded 2 g.job false).stashSweep g.job
      else (s.setStash fun x => { x with gets := x.gets.map fun y =>
        if y.id == id then { y with left := y.left - 1 } else y }).replyCheck id) := fun g => by
    extract_lets t
    have ht : State.mild c r i s t := by
      simp only [t]
      split
      · exact s.mild_refl
      · exact State.bump_mild hr s (by decide) 1
    clear_value t
    refine State.mild_trans ht ?_
    split
    · exact State.mild_trans (State.mild_trans (State.getOver_mild hr t g true) (State.workEnded_mild _ _ _ _))
        (State.stashSweep_mild _ _)
    · exact State.mild_trans (t.setStash_mild _) (State.replyCheck_mild hc hr _ _)
  have hended : ∀ g : StashGet, State.mild c r i s
      (((s.endGet g Status.hedged false).workEnded 2 g.job false).stashSweep g.job) := fun g =>
    State.mild_trans (State.mild_trans (State.endGet_mild hc hr s g _ _) (State.workEnded_mild _ _ _ _)) (State.stashSweep_mild _ _)
  rw [State.stashNote]
  split
  · exact s.mild_refl
  · split
    · exact hsettled _
    · exact hsettled _
    · exact hended _
    · exact hended _
    · exact s.mild_refl

/-! ## Collectives -/

theorem State.dropChunk_mild (s : State) (x : ChunkSt) : State.mild c r i s (s.dropChunk x) := by
  delta State.dropChunk
  extract_lets t
  have ht : State.mild c r i s t :=
    State.mild_trans (State.mild_foldl (fun u b => u.dropBench_mild b) _ s) (State.dropCtx_mild _ _)
  clear_value t
  split
  · exact ht
  · exact State.mild_trans ht (State.free_mild hc hr t _ _ _)

theorem State.completeSettled_mild (s : State) (ctx gen : Nat) : State.mild c r i s (s.completeSettled ctx gen) := by
  rw [State.completeSettled]
  split
  · exact s.mild_refl
  · split
    · exact s.mild_refl
    · dsimp only
      split
      · exact State.mild_trans (State.mild_foldl (fun u (x : SlotRec) => State.dropChunk_mild hc hr u x.c) _ s)
          (State.setOp_mild _ _ _)
      · exact s.setOp_mild _ _

theorem State.sendComplete_mild (s : State) (ctx gen job : Nat) (d : CollDesc) (x : InstSt) (st : Nat) (t : Stamp) (m : Nat) :
    State.mild c r i s (s.sendComplete ctx gen job d x st t m) := State.send_mild hc hr s _ _

theorem State.endInstance_mild (s : State) (ctx st : Nat) : State.mild c r i s (s.endInstance ctx st) := by
  rw [State.endInstance]
  split
  · exact s.mild_refl
  · split
    · exact s.mild_refl
    next x _ _ x' _ =>
      extract_lets t d s1 s2
      have h2 : State.mild c r i s s2 := State.mild_trans (State.mild_trans (State.mild_trans s.stamped_mild
        (State.bump_mild hr _ (by decide) 1)) (State.countEnding_mild hr _ d st)) (State.mild_of_parts rfl rfl rfl)
      clear_value s1 s2
      split
      next y s3 hy =>
        have h3 : State.mild c r i s s3 := by
          have hfound := State.findHedged_mild (c := c) hr s2 x.job d x'
          rw [hy] at hfound
          exact State.mild_trans h2 hfound
        extract_lets s4 s5 s6 s7
        have h4 : State.mild c r i s s4 := State.mild_trans h3 (s3.setOp_mild _ _)
        have h5 : State.mild c r i s s5 := by
          unfold s5
          split
          · exact State.mild_trans h4 (s4.setColl_mild _)
          · exact h4
        have h7 : State.mild c r i s s7 := State.mild_trans (State.mild_trans h5 (s5.workEnded_mild _ _ _))
          (State.mild_foldl (fun u m => State.sendComplete_mild hc hr u _ _ _ _ _ _ _ m) _ s6)
        clear_value s4 s5 s6 s7
        split
        · exact State.mild_trans h7 (State.completeSettled_mild hc hr _ _ _)
        · exact h7

theorem State.checkDone_mild (s : State) (ctx : Nat) : State.mild c r i s (s.checkDone ctx) := by
  rw [State.checkDone]
  split
  · exact s.mild_refl
  · split
    · exact s.mild_refl
    · extract_lets d done
      clear_value done
      split
      · exact State.endInstance_mild hc hr s _ _
      · exact s.mild_refl

theorem State.freeSlot_mild (s : State) (ctx k : Nat) : State.mild c r i s (s.freeSlot ctx k) := by
  rw [State.freeSlot]
  split
  · exact s.mild_refl
  · split
    · exact s.mild_refl
    · refine State.mild_trans (State.mild_trans ?_ (State.setInst_mild _ _ _)) (State.checkDone_mild hc hr _ _)
      exact State.mild_foldl (fun u b => u.clearMem_mild _ _) _ s

theorem State.resultSettled_mild (s : State) (ctx gen chunk : Nat) : State.mild c r i s (s.resultSettled ctx gen chunk) := by
  rw [State.resultSettled]
  split
  · exact s.mild_refl
  · split
    · exact s.mild_refl
    · split
      · exact s.mild_refl
      · dsimp only
        split
        · exact State.mild_trans (s.setInst_mild _ _) (State.freeSlot_mild hc hr _ _ _)
        · exact s.setInst_mild _ _

theorem State.collNote_mild (s : State) (ctx gen chunk : Nat) (n : Note) : State.mild c r i s (s.collNote ctx gen chunk n) := by
  have hsettled := fun u => State.resultSettled_mild hc hr u ctx gen chunk
  have hcomplete := fun u => State.completeSettled_mild hc hr u ctx gen
  delta State.collNote
  split
  · split
    · exact s.mild_refl
    · split
      · exact State.mild_trans (State.markClosing_mild hr s _ _ _) (hcomplete _)
      · exact hcomplete _
    · exact hcomplete _
  · split
    · exact s.mild_refl
    next x _ =>
      split
      · exact hsettled _
      · exact hsettled _
      · split
        · exact State.mild_trans (State.markHedged_mild hr s _ _) (hsettled _)
        · exact hsettled _
      next node ep st settled =>
        extract_lets m t
        have ht : State.mild c r i s t := by
          clear_value m
          unfold t
          cases m with
          | none => exact s.mild_refl
          | some m =>
            dsimp only
            split
            · exact State.markHedged_mild hr s _ _
            · exact s.mild_refl
        clear_value t
        split
        · exact State.mild_trans ht (hsettled _)
        · exact ht
      · split
        · exact State.endInstance_mild hc hr s _ _
        · exact s.mild_refl

theorem State.dropMerge_mild (s : State) (ctx gen chunk : Nat) : State.mild c r i s (s.dropMerge ctx gen chunk) := by
  rw [State.dropMerge]
  split
  · exact s.mild_refl
  · exact State.mild_trans (State.dropChunk_mild hc hr s _) (State.setOp_mild _ _ _)

theorem State.mergeNote_mild (s : State) (ctx gen chunk : Nat) (n : Note) : State.mild c r i s (s.mergeNote ctx gen chunk n) := by
  have habsorbed : ∀ m : MergeSt, State.mild c r i s (if m.unacked ≤ 1 then s.dropMerge ctx gen chunk
      else s.setMerge ctx gen chunk fun m => { m with unacked := m.unacked - 1 }) := fun m => by
    split
    · exact State.dropMerge_mild hc hr s _ _ _
    · exact s.setOp_mild _ _
  rw [State.mergeNote]
  split
  · exact s.mild_refl
  · split
    · exact habsorbed _
    · exact habsorbed _
    · exact State.mild_trans (s.withdraw_mild _) (State.dropMerge_mild hc hr _ _ _ _)

/-! ## Stozil operations and fences -/

theorem State.stzReturn_mild (s : State) (n : Nat) : State.mild c r i s (s.stzReturn n) := by
  rw [State.stzReturn]
  split
  · exact s.mild_refl
  next o _ =>
    extract_lets s1 s2
    have h1 : State.mild c r i s s1 := by
      unfold s1
      split
      · exact State.free_mild hc hr s _ _ _
      · exact s.mild_refl
    have h2 : State.mild c r i s s2 := by
      unfold s2
      split
      · exact State.mild_trans h1 (s1.dropCtx_mild _)
      · exact h1
    exact State.mild_trans h2 (s2.setStz_mild _)

theorem State.stzComplete_mild (s : State) (n : Nat) (o : StzOp) (t : Stamp) (st rank : Nat) :
    State.mild c r i s (s.stzComplete n o t st rank) := by
  delta State.stzComplete
  extract_lets st' p
  split
  · exact State.send_mild hc hr s _ _
  · exact s.mild_refl

theorem State.stzEnd_mild (s : State) (n st : Nat) : State.mild c r i s (s.stzEnd n st) := by
  rw [State.stzEnd]
  split
  · exact s.mild_refl
  next o _ =>
    split
    · exact s.mild_refl
    · extract_lets ranks t s1 s2 s3
      have h3 : State.mild c r i s s3 := State.mild_trans (State.mild_trans (State.mild_trans (State.mild_trans s.stamped_mild
        (State.withdraw_mild _ _)) (State.bump_mild hr _ (by decide) 1)) (State.workEnded_mild _ _ _ _))
        (State.setStzOp_mild _ _ _)
      clear_value s1 s2 s3
      split
      · exact State.mild_trans h3 (State.stzReturn_mild hc hr _ _)
      · exact State.mild_trans h3 (State.mild_foldl (fun u rank => State.stzComplete_mild hc hr u _ _ _ _ rank) _ s3)

theorem State.stzNote_mild (s : State) (n ch rank : Nat) (note : Note) : State.mild c r i s (s.stzNote n ch rank note) := by
  delta State.stzNote
  split
  · exact s.mild_refl
  next o _ =>
    extract_lets x missed hedged o' t
    have ht : State.mild c r i s t := s.setStzOp_mild _ _
    clear_value t o'
    split
    · split
      · exact State.mild_trans ht (State.stzEnd_mild hc hr _ _ _)
      · exact ht
    · exact s.setStzOp_mild _ _

theorem State.stzEndNote_mild (s : State) (n : Nat) : State.mild c r i s (s.stzEndNote n) := by
  rw [State.stzEndNote]
  split
  · exact s.mild_refl
  · split
    · exact State.stzReturn_mild hc hr s n
    · exact s.setStzOp_mild _ _

theorem State.fenceCheck_mild (s : State) : State.mild c r i s s.fenceCheck := by
  delta State.fenceCheck
  extract_lets ready _ t
  have ht : State.mild c r i s t := by
    unfold t
    split
    · exact s.mild_refl
    · exact State.mild_of_parts rfl rfl rfl
  clear_value t
  exact State.mild_trans ht (State.mild_foldl (fun u x => State.sendPlain_mild hc hr u _) ready t)

/-! ## What an idle module is told -/

theorem State.tell_mild {s : State} (hi : s.idle) (o : Owner) (n : Note) : State.mild c r i s (s.tell o n) := by
  obtain ⟨hctxs, hblocks, -, hprogs, hgroups, -⟩ := hi
  have hprog : ∀ k, s.prog? k = none := fun k => by rw [State.prog?, hprogs]; rfl
  have hrun : ∀ k st, s.endRun k st = s := fun k st => by rw [State.endRun, hprog]
  cases o with
  | none => exact s.mild_refl
  | coll ctx gen chunk => exact State.collNote_mild hc hr s _ _ _ n
  | merge ctx gen chunk => exact State.mergeNote_mild hc hr s _ _ _ n
  | group home id node =>
    have hnone : s.groupNote home id node n = s := by
      have hg : s.group? home id = none := by rw [State.group?, hgroups]; rfl
      simp only [State.groupNote, hg]
    rw [State.tell, hnone]
    exact s.mild_refl
  | push ctx v =>
    have hnone : s.pushNote ctx v n = s := by
      simp only [State.pushNote, hblocks, NMap.get?_nil]
    rw [State.tell, hnone]
    exact s.mild_refl
  | stash id g reply => exact State.stashNote_mild hc hr s _ _ n
  | run ctx =>
    have hsettled : s.outputSettled ctx = s := by
      rw [State.outputSettled, State.setRun, hprog]
      show State.advanceRun s ctx 8200 = s
      rw [State.advanceRun, hprog]
    have hsame : s.tell (.run ctx) n = s := by
      cases n with
      | acked => exact hsettled
      | absorbed => exact hsettled
      | refused st => exact hrun ctx st
      | lost m => exact hrun ctx Status.memberLost
      | memberRefused a b d e => rfl
    rw [hsame]
    exact s.mild_refl
  | stozil op chunk rank => exact State.stzNote_mild hc hr s _ _ _ n
  | stozilEnd op rank => exact State.stzEndNote_mild hc hr s _

end

end Sys2Proof.Machine
end

section

-- One declaration after another: elaborated side by side, they take more threads than the check allows.
set_option Elab.async false

/-! One round of settling in an idle module (the model's `State.settleRound`), and what its first report decides. -/

namespace Sys2Proof.Machine

open Sys2Proof (Instr Hdr)

/-- A round without its reports. -/
def State.settleRest (s : State) : State :=
  (s.passNotes.reviewBlocks.dropReleased.fenceCheck.serviceCheck.wakeAll).pump 64

theorem State.settleRound_eq (s : State) : s.settleRound = (s.reactAll 64).settleRest := rfl

section

variable {s : State} (hi : s.idle)

include hi

theorem State.finishKey_idle (k : WaitKey) (st : Nat) (values : List Byte) : s.finishKey k st values = s := by
  obtain ⟨hctxs, -⟩ := hi
  rw [State.finishKey, hctxs]
  rfl

theorem State.runOver_idle (ctx st : Nat) : s.runOver ctx st = s := by
  have hblocks := hi.2.1
  rw [State.runOver, State.finishKey_idle hi, State.blockRunEnded, hblocks]
  rfl

theorem State.setBlock_idle (ctx : Nat) (f : BlockSt → BlockSt) : s.setBlock ctx f = s := by
  obtain ⟨-, hblocks, -⟩ := hi
  rw [State.setBlock, hblocks, NMap.get?_nil]

theorem State.instanceEnded_idle (blocks : List (Nat × Nat)) (st : Nat) : s.instanceEnded blocks st = s := by
  rw [State.instanceEnded]
  exact List.foldlRecOn (motive := fun u : State => u = s) blocks _ rfl fun u hu x _ => by
    rw [hu]
    exact State.setBlock_idle hi _ _

theorem State.pump_idle (n : Nat) : s.pump n = s := by
  obtain ⟨hctxs, -⟩ := hi
  have hnone : s.nextStart = none := State.nextStart_none hctxs
  cases n with
  | zero => rfl
  | succ n => rw [State.pump, hnone]

theorem State.wakeAll_idle : s.wakeAll = s := by
  obtain ⟨hctxs, -⟩ := hi
  rw [State.wakeAll, hctxs]
  rfl

theorem State.serviceCheck_idle : s.serviceCheck = s := by
  obtain ⟨-, -, -, -, -, -, hphase⟩ := hi
  rw [State.serviceCheck, if_neg (by simp [hphase])]

theorem State.reviewBlocks_idle : s.reviewBlocks = s := by
  obtain ⟨-, hblocks, -⟩ := hi
  rw [State.reviewBlocks, hblocks]
  rfl

/-- No block takes a piece. -/
theorem State.offerPieces_idle : ∃ l, s.offerPieces = s.setParm fun x => { x with pieces := l } := by
  obtain ⟨-, hblocks, -⟩ := hi
  have hoffer : ∀ p, s.offerPiece p = (p, s) := fun p => by
    rw [State.offerPiece, hblocks, NMap.get?_nil]
    split <;> simp_all
  have hfold : ∀ (ps : List Piece) (acc : List Piece), (ps.foldl (fun (acc : List Piece × State) p =>
      if p.sett.isSome then (acc.1 ++ [p], acc.2)
      else
        let q := acc.2.offerPiece p
        (acc.1 ++ [q.1], q.2)) (acc, s)).2 = s := fun ps => by
    induction ps with
    | nil => exact fun _ => rfl
    | cons p ps ih =>
      intro acc
      rw [List.foldl_cons]
      split
      · exact ih _
      · simp only [hoffer]
        exact ih _
  rw [State.offerPieces]
  exact ⟨_, congrArg (fun u : State => u.setParm _) (hfold _ _)⟩

variable {c : Nat} {r : Reg} {i : Nat}

theorem State.handChunk_mild (x : Nat × Nat × Nat) : State.mild c r i s (s.handChunk x) := by
  rw [State.handChunk]
  split
  · exact s.mild_refl
  next op _ =>
    have hset : ∀ (u : State) l, State.mild c r i u (u.setParm fun p => { p with pieces := l }) := fun u l =>
      State.mild_of_parts rfl rfl rfl
    have htaken := hset s (s.parm.pieces ++ s.piecesOf x.1 x.2.1 op x.2.2)
    obtain ⟨l, hl⟩ := State.offerPieces_idle (State.idle_congr htaken.2.1 hi)
    exact State.mild_trans htaken (hl ▸ hset _ l)

end

section

variable {c : Nat} {r : Reg} {i : Nat}

/-- What is mild in an idle module, one after another. -/
theorem State.mild_foldl_idle {α : Type} {f : State → α → State} (h : ∀ (s : State) x, s.idle → State.mild c r i s (f s x))
    (l : List α) {s : State} (hs : s.idle) : State.mild c r i s (l.foldl f s) := by
  refine List.foldlRecOn (motive := fun u : State => State.mild c r i s u) l f s.mild_refl fun u hu x _ => ?_
  exact State.mild_trans hu (h u x (State.idle_congr hu.2.1 hs))

variable (hc : c ≠ 13) (hr : r.restQuiet i)

include hc hr

theorem State.passNotes_mild {s : State} (hi : s.idle) : State.mild c r i s s.passNotes := by
  delta State.passNotes
  extract_lets notes _ s1 s2 lost s3 runs s4 chunks s5 done s6 told
  have hidle : ∀ {u : State}, State.mild c r i s u → u.idle := fun hu => State.idle_congr hu.2.1 hi
  have h1 : State.mild c r i s s1 := State.mild_of_parts rfl rfl rfl
  have h2 : State.mild c r i s s2 := State.mild_trans h1
    (State.mild_foldl_idle (fun u x hu => State.tell_mild hc hr hu x.1 x.2) notes (hidle h1))
  clear_value s1 s2
  have hlost : s2.topo.lostDue = [] := (hidle h2).2.2.2.2.2.1
  have h3 : State.mild c r i s s3 := by
    have hsame : (s2.setTopo fun t => { t with lostDue := [] }) = s2 := by rw [← hlost]; rfl
    have hs3 : s3 = s2 := by
      unfold s3 lost
      rw [hlost, hsame]
      rfl
    rwa [hs3]
  clear_value s3
  have h4 : State.mild c r i s s4 := by
    have hset : State.mild c r i s (s3.setEng fun e => { e with ended := [] }) :=
      State.mild_trans h3 (State.mild_of_parts rfl rfl rfl)
    exact State.mild_trans hset (State.mild_foldl_idle (fun u x hu => by
      rw [State.runOver_idle hu]
      exact u.mild_refl) runs (hidle hset))
  clear_value s4
  have h5 : State.mild c r i s s5 := by
    have hset : State.mild c r i s (s4.setColl fun k => { k with finished := [] }) := State.mild_trans h4 (s4.setColl_mild _)
    exact State.mild_trans hset (State.mild_foldl_idle (fun u x hu => State.handChunk_mild hu x) chunks (hidle hset))
  clear_value s5
  have h6 : State.mild c r i s s6 := by
    have hset : State.mild c r i s (s5.setColl fun k => { k with ended := [] }) := State.mild_trans h5 (s5.setColl_mild _)
    exact State.mild_trans hset (State.mild_foldl_idle (fun u x hu => by
      rw [State.instanceEnded_idle hu]
      exact u.mild_refl) done (hidle hset))
  clear_value s6
  have htold : s6.parm.told = [] := (hidle h6).2.2.1
  have hsame : (s6.setParm fun p => { p with told := [] }) = s6 := by rw [← htold]; rfl
  have hlast : told.foldl (fun (s : State) x => s.finishKey (.block x.1 x.2.1) x.2.2) (s6.setParm fun p => { p with told := [] }) =
      s6 := by
    unfold told
    rw [htold, hsame]
    rfl
  rw [hlast]
  exact h6

theorem State.settleRest_mild {s : State} (hi : s.idle) : State.mild c r i s s.settleRest := by
  have hpass := State.passNotes_mild hc hr hi
  have hpi := State.idle_congr hpass.2.1 hi
  have hdrop : State.mild c r i s s.passNotes.dropReleased := State.mild_trans hpass
    (State.mild_foldl (fun u job => u.setStash_mild _) _ _)
  have hfence := State.mild_trans hdrop (State.fenceCheck_mild hc hr s.passNotes.dropReleased)
  have hfi := State.idle_congr hfence.2.1 hi
  rw [State.settleRest, State.reviewBlocks_idle hpi, State.serviceCheck_idle hfi, State.wakeAll_idle hfi, State.pump_idle hfi]
  exact hfence

end

/-! ## Reports -/

/-- The registers that a report counts in. -/
def faultCounters : List Reg := [.fltEvents, .fltLogSuppressed, .fltSafeEntries]

/-- A register word that is counted in neither by what settles by itself nor by reports. -/
def Reg.settleQuiet (r : Reg) (i : Nat) : Prop := r.restQuiet i ∧ ∀ q ∈ faultCounters, r.key i ≠ q.key 0

/-- What a report of a class leaves: a first capture that has overflowed where there was one, and at most the safe state. -/
def State.reacted (c : Nat) (r : Reg) (i : Nat) (s t : State) : Prop :=
  t.core = s.core ∧ t.reg r i = s.reg r i ∧ t.flt.todo = s.flt.todo ∧
  (t.flt.safe = s.flt.safe ∨ s.flt.safe = none ∧ t.flt.safe = some c) ∧
  ∃ k, t.flt.top = some k ∧ (s.flt.top ≠ none → k.overflow = true)

theorem Capture.again_elim {o : Option Capture} (ho : o ≠ none) (k : Capture) : (o.elim k Capture.again).overflow = true := by
  obtain ⟨k', rfl⟩ := Option.ne_none_iff_exists'.1 ho
  rfl

section

variable {r : Reg} {i : Nat} (hr : r.settleQuiet i)

include hr

theorem State.capture_reg (s : State) (rep : FaultRep) (injected safe : Bool) :
    (s.capture rep injected safe).reg r i = s.reg r i :=
  State.reg_bump_ne s.stamped 1 (hr.2 _ (by decide))

theorem State.logFault_reg (s : State) (rep : FaultRep) (injected : Bool) (level : Nat) :
    (s.logFault rep injected level).reg r i = s.reg r i := by
  unfold State.logFault
  dsimp only
  generalize (s.ticking && _) = soon
  split
  · rfl
  · split
    · exact State.reg_bump_ne s 1 (hr.2 _ (by decide))
    · exact State.event_reg hr.1.1.1 _ _ _ _ _ _

theorem State.latched_reg (s : State) (rep : FaultRep) (injected : Bool) :
    (s.latched rep injected).reg r i = s.reg r i := by
  rw [State.latched]
  split
  · exact (State.logFault_reg hr _ _ _ _).trans (State.capture_reg hr s _ _ _)
  · exact State.capture_reg hr s _ _ _

omit hr in
theorem State.latched_core (s : State) (rep : FaultRep) (injected : Bool) : (s.latched rep injected).core = s.core := by
  have hcap := fun b => State.core_of_keeps (s.capture_keepsBut rep injected b) (by decide)
  rw [State.latched]
  split
  · exact (State.core_of_keeps (State.logFault_keepsBut _ _ _ _) (by decide)).trans (hcap _)
  · exact hcap _

omit hr in
theorem State.enterSafe_idle {s : State} (hi : s.idle) (cls level : Nat) : s.enterSafe cls level =
    (s.setFlt fun f => { f with safe := some cls, safeLevel := level }).bump .fltSafeEntries := by
  obtain ⟨-, hblocks, -⟩ := hi
  rw [State.enterSafe, hblocks]
  rfl

theorem State.react_reacted {s : State} (hi : s.idle) (rep : FaultRep) (injected : Bool) :
    State.reacted rep.cls r i s (s.react rep injected) := by
  cases hs : s.isSafe with
  | true =>
    rw [State.react_safe hs]
    exact ⟨State.core_of_keeps (s.capture_keepsBut rep injected false) (by decide), State.capture_reg hr s _ _ _, rfl, .inl rfl, _,
      rfl, fun h => Capture.again_elim h _⟩
  | false =>
    have hnone : s.flt.safe = none := by simpa [State.isSafe] using hs
    obtain ⟨htodo, hsafe, htop⟩ : (s.latched rep injected).flt.todo = s.flt.todo ∧
        (s.latched rep injected).flt.safe = s.flt.safe ∧
        ∃ k, (s.latched rep injected).flt.top = some (s.flt.top.elim k Capture.again) := by
      rw [State.latched_flt]
      exact ⟨rfl, rfl, _, rfl⟩
    obtain ⟨k, htop⟩ := htop
    have hcore := s.latched_core rep injected
    have hreg := State.latched_reg hr s rep injected
    rw [State.react_unsafe hs]
    split
    · rw [State.enterSafe_idle (State.idle_congr hcore hi)]
      exact ⟨hcore, (State.reg_bump_ne _ 1 (hr.2 _ (by decide))).trans hreg, htodo, .inr ⟨hnone, rfl⟩, _,
        htop, fun h => Capture.again_elim h _⟩
    · exact ⟨hcore, hreg, htodo, .inl hsafe, _, htop, fun h => Capture.again_elim h _⟩

theorem State.reactQueued_reacted {s : State} (hi : s.idle) (rep : FaultRep) (injected : Bool) :
    State.reacted rep.cls r i s (s.reactQueued rep injected) := by
  have hinj : ∀ x o b, State.reacted rep.cls r i s ((s.injected x o).react rep b) := fun x o b =>
    State.react_reacted (s := s.injected x o) hr hi rep b
  rw [State.reactQueued]
  split
  · split
    · exact hinj _ _ _
    · exact hinj _ _ _
  · exact State.react_reacted hr hi _ _

end

/-! ## What the first report decides -/

/-- What settling leaves of a module in which a register word was `n`: safe with the word as it was, or not safe by a report of
the class, or with a capture that a second report found. -/
def State.tracked (c : Nat) (r : Reg) (i n : Nat) (t : State) : Prop :=
  (t.isSafe = true ∧ t.reg r i = n) ∨ (t.flt.safe ≠ some c ∧ ∀ x ∈ t.flt.todo, x.1.cls ≠ c) ∨
  (t.flt.safe = none ∧ t.flt.top ≠ none) ∨ ∃ k, t.flt.top = some k ∧ k.overflow = true

/-- A module that entered the safe state by its first report of the class is one that a register word has not changed in. -/
theorem State.tracked_reg {c n : Nat} {r : Reg} {i : Nat} {t : State} (h : State.tracked c r i n t) (hs : t.flt.safe = some c)
    {k : Capture} (hk : t.flt.top = some k) (ho : k.overflow = false) : t.reg r i = n := by
  obtain ⟨-, hreg⟩ | ⟨hne, -⟩ | ⟨hnone, -⟩ | ⟨k', hk', ho'⟩ := h
  · exact hreg
  · exact absurd hs hne
  · simp [hs] at hnone
  · rw [hk, Option.some.injEq] at hk'
    simp [hk', ho'] at ho

section

variable {c n : Nat} {r : Reg} {i : Nat}

/-- The next report leaves the module tracked. -/
theorem State.tracked_next {s t : State} {x : FaultRep × Bool} {xs : List (FaultRep × Bool)} (hx : s.flt.todo = x :: xs)
    (h : State.reacted x.1.cls r i (s.setFlt fun f => { f with todo := xs }) t) (hs : State.tracked c r i n s) :
    State.tracked c r i n t := by
  obtain ⟨-, hreg, htodo, hsafe, k, htop, hk⟩ := h
  obtain ⟨hs, hn⟩ | ⟨hne, hall⟩ | ⟨-, hseen⟩ | ⟨k', hk', -⟩ := hs
  · obtain hsafe | ⟨hnone, -⟩ := hsafe
    · exact .inl ⟨(congrArg Option.isSome hsafe).trans hs, hreg.trans hn⟩
    · have hnone : s.flt.safe = none := hnone
      simp [State.isSafe, hnone] at hs
  · refine .inr (.inl ⟨?_, fun y hy => hall y ?_⟩)
    · obtain hsafe | ⟨-, hsafe⟩ := hsafe
      · exact hsafe ▸ hne
      · rw [hsafe]
        exact fun hc => hall x (hx ▸ List.mem_cons_self) (Option.some.inj hc)
    · have htodo : t.flt.todo = xs := htodo
      rw [htodo] at hy
      exact hx ▸ List.mem_cons_of_mem _ hy
  · exact .inr (.inr (.inr ⟨k, htop, hk hseen⟩))
  · refine .inr (.inr (.inr ⟨k, htop, hk ?_⟩))
    show s.flt.top ≠ none
    simp [hk']

/-- The first report makes the module safe, or leaves its capture. -/
theorem State.tracked_first {s t : State} {c' : Nat} (h : State.reacted c' r i s t) (hn : s.reg r i = n) :
    State.tracked c r i n t := by
  obtain ⟨-, hreg, -, -, k, htop, -⟩ := h
  cases hs : t.flt.safe with
  | some _ => exact .inl ⟨by simp [State.isSafe, hs], hreg.trans hn⟩
  | none => exact .inr (.inr (.inl ⟨hs, by simp [htop]⟩))

/-- What settles by itself leaves the module tracked. -/
theorem State.tracked_mild {s t : State} (h : State.mild c r i s t) (hs : State.tracked c r i n s) : State.tracked c r i n t := by
  obtain ⟨hrep, -, hreg⟩ := h
  have hsafe := State.others_safe hrep
  obtain ⟨l, hflt, hl⟩ := hrep
  obtain ⟨hs, hn⟩ | ⟨hne, hall⟩ | ⟨hnone, hseen⟩ | hover := hs
  · exact .inl ⟨hsafe.trans hs, (hreg hs).trans hn⟩
  · refine .inr (.inl ?_)
    rw [hflt]
    exact ⟨hne, fun x hx => (List.mem_append.1 hx).elim (hall x) (hl x)⟩
  · refine .inr (.inr (.inl ?_))
    rw [hflt]
    exact ⟨hnone, hseen⟩
  · refine .inr (.inr (.inr ?_))
    rw [hflt]
    exact hover

variable (hr : r.settleQuiet i)

include hr

theorem State.reactAll_tracked (k : Nat) {s : State} (hi : s.idle) (hs : State.tracked c r i n s) :
    (s.reactAll k).idle ∧ State.tracked c r i n (s.reactAll k) := by
  induction k generalizing s with
  | zero => exact ⟨hi, hs⟩
  | succ k ih =>
    rw [State.reactAll]
    split
    · exact ⟨hi, hs⟩
    next x xs hx =>
      have hre := State.reactQueued_reacted hr (s := s.setFlt fun f => { f with todo := xs }) hi x.1 x.2
      exact ih (State.idle_congr hre.1 hi) (State.tracked_next hx hre hs)

/-- Whatever is reported, the reports leave a module in which a register word is `n` tracked. -/
theorem State.reactAll_first {s : State} (hi : s.idle) (hn : s.reg r i = n) (k : Nat) (hs : s.flt.todo ≠ []) :
    (s.reactAll (k + 1)).idle ∧ State.tracked c r i n (s.reactAll (k + 1)) := by
  rw [State.reactAll]
  split
  next hnil => exact absurd hnil hs
  next x xs hx =>
    have hre := State.reactQueued_reacted hr (s := s.setFlt fun f => { f with todo := xs }) hi x.1 x.2
    exact State.reactAll_tracked hr k (State.idle_congr hre.1 hi) (State.tracked_first hre hn)

variable (hc : c ≠ 13)

include hc

theorem State.rounds_tracked (k : Nat) {s : State} (hi : s.idle) (hs : State.tracked c r i n s) :
    State.tracked c r i n (s.rounds_ k) := by
  induction k generalizing s with
  | zero => exact hs
  | succ k ih =>
    obtain ⟨hri, hrt⟩ := State.reactAll_tracked hr 64 hi hs
    have hrest := State.settleRest_mild hc hr.1 hri
    rw [State.rounds_, State.settleRound_eq]
    split
    · exact State.tracked_mild hrest hrt
    · exact ih (State.idle_congr hrest.2.1 hri) (State.tracked_mild hrest hrt)

theorem State.settle_tracked {s : State} (hi : s.idle) (hn : s.reg r i = n) : State.tracked c r i n s.settle := by
  by_cases hnil : s.flt.todo = []
  · have hs : State.tracked c r i n s := by
      cases hsafe : s.flt.safe with
      | some _ => exact .inl ⟨by simp [State.isSafe, hsafe], hn⟩
      | none => exact .inr (.inl ⟨by simp [hsafe], by simp [hnil]⟩)
    rw [State.settle]
    split
    · exact hs
    · exact State.rounds_tracked hr hc 256 hi hs
  · obtain ⟨hri, hrt⟩ := State.reactAll_first (c := c) hr hi hn 63 hnil
    have hrest := State.settleRest_mild hc hr.1 hri
    have hcalm : ¬ s.calm = true := by simp [State.calm, hnil]
    rw [State.settle, if_neg hcalm, State.rounds_, State.settleRound_eq]
    split
    · exact State.tracked_mild hrest hrt
    · exact State.rounds_tracked hr hc 255 (State.idle_congr hrest.2.1 hri) (State.tracked_mild hrest hrt)

end

end Sys2Proof.Machine
end

section

-- One declaration after another: elaborated side by side, they take more threads than the check allows.
set_option Elab.async false

/-! A module whose plan is longer than any that loads: an acknowledgement that its fabric port cannot take is counted in a word
that is another register's. -/

namespace Sys2Proof.Machine

open Sys2Proof (Instr Hdr)

/-! ## The hash that picks a port -/

theorem crcStep_lt {c : Nat} (h : c < 2 ^ 32) : crcStep c < 2 ^ 32 := by
  rw [crcStep]
  split
  · exact Nat.xor_lt_two_pow (by omega) (by decide)
  · omega

theorem crcByte_lt {c : Nat} (h : c < 2 ^ 32) (b : Byte) : crcByte c b < 2 ^ 32 := by
  have hx : c ^^^ b.toNat < 2 ^ 32 := Nat.xor_lt_two_pow h (by have := b.isLt; omega)
  exact crcStep_lt (crcStep_lt (crcStep_lt (crcStep_lt (crcStep_lt (crcStep_lt (crcStep_lt (crcStep_lt hx)))))))

theorem crc32c_lt (bs : List Byte) : crc32c bs < 2 ^ 32 :=
  Nat.xor_lt_two_pow (List.foldlRecOn (motive := fun c : Nat => c < 2 ^ 32) bs crcByte (by decide) fun _ h b _ => crcByte_lt h b)
    (by decide)

theorem portHash_lt (seed : Nat) (h : Hdr) : portHash seed h < 2 ^ 32 := crc32c_lt _

/-! ## The module -/

/-- Two nodes in a row, this one and its neighbour, on a trunk whose one port comes after `n` unused ones. -/
def farPlan (n : Nat) : Plan where
  planId := 1
  shape := 0
  dims := 1
  wrap := 0
  maxHops := 1
  extent := [2, 1, 1]
  this := 0
  portMode := 0
  seed := 0
  pendingLimit := 0
  nodes := [⟨0, [0, 0, 0], 0⟩, ⟨1, [1, 0, 0], 0⟩]
  ports := List.replicate n {} ++ [{ role := 2, trunk := 0, peer := 1 }]
  record := []

/-- The port is in service, and its peer takes no payload. -/
structure State.farPort (n : Nat) (s : State) : Prop where
  topo : s.topo = { plan := some (farPlan n), ports := [(n, { state := 2, peerState := 2 })] }
  link : s.link = { ports := [(n, { state := 5, peer := some { maxPayload := 0 } })] }
  safe : s.isSafe = false

section

variable {n : Nat} {s : State} (hs : s.farPort n)

include hs

theorem State.farPort_plan : s.topo.plan = some (farPlan n) := by rw [hs.topo]

theorem State.farPort_me : s.me = 0 := by
  rw [State.me, State.farPort_plan hs]
  rfl

theorem State.farPort_trunkPorts : s.trunkPorts 0 = [n] := by
  have hlen : (farPlan n).ports.length = n + 1 := by simp [farPlan]
  have hlast : (farPlan n).ports.getD n {} = { role := 2, trunk := 0, peer := 1 } := by simp [farPlan]
  have hunused : ∀ p ∈ List.range n, ((farPlan n).ports.getD p {}).role = 0 := fun p hp => by
    have hp := List.mem_range.1 hp
    simp [farPlan, List.getElem?_append, hp]
  rw [State.trunkPorts, State.farPort_plan hs]
  dsimp only
  rw [hlen, List.range_succ, List.filter_append, List.filter_eq_nil_iff.2, List.nil_append, List.filter_cons_of_pos,
    List.filter_nil]
  · rw [hlast]
    rfl
  · intro p hp
    rw [hunused p hp]
    exact Bool.false_ne_true

theorem State.farPort_presentPorts : s.presentPorts 0 = [n] := by
  have hserving : s.serving n = true := by
    have hroute : s.route n = { state := 2, peerState := 2 } := by
      rw [State.route, hs.topo]
      simp [NMap.getD, NMap.get?]
    have hhedged : s.portHedged n = false := by
      rw [State.portHedged, hs.topo]
      rfl
    simp [State.serving, State.inService, hroute, hhedged]
  rw [State.presentPorts, State.farPort_trunkPorts hs]
  simp [hserving]

theorem State.farPort_pickPort (h : Hdr) : s.pickPort 0 h = some n := by
  have hzero : portHash s.topo.seed h * 1 / 2 ^ 32 = 0 := by
    rw [Nat.mul_one]
    exact Nat.div_eq_of_lt (portHash_lt _ _)
  rw [State.pickPort, State.farPort_presentPorts hs]
  simp only [List.length_singleton, hzero]
  rfl

theorem State.farPort_hop (h : Hdr) (via : Nat) (detour : Bool) : ∃ vc, s.hop (farPlan n) h 1 via 1 none detour =
    .out { port := some n, phase := 1, via := via, vc := vc } := by
  have hme := State.farPort_me hs
  have hnext : s.nextTrunk (farPlan n) 0 1 = some 0 := by
    simp [State.nextTrunk, Plan.coord, Plan.node?, farPlan, dirTrunk, Plan.wrapped, bit]
  have hfar : (farPlan n).far 0 0 = some (1, 1) := by
    simp [Plan.far, Plan.coord, Plan.node?, Plan.nodeAt, Plan.ext, farPlan, stepCoord]
  have hleg : s.leg (farPlan n) 64 0 1 = some [(0, 0)] := by
    simp [State.leg, hnext, hfar]
  have hown : s.reported 0 0 = false := by
    rw [State.reported, if_pos hme.symm, State.ownTrunkMissing, State.farPort_presentPorts hs]
    rfl
  have hother : s.reported 1 1 = false := by
    rw [State.reported, if_neg (by omega), State.ls, hs.topo]
    exact Nat.zero_testBit 1
  have hclear : s.wayClear (farPlan n) h 1 1 = true := by
    simp [State.wayClear, State.legClear, hme, hleg, State.trunkMissing, State.farPort_plan hs, hfar, hown, hother]
  refine ⟨s.vcFor (farPlan n) h 1 0 none detour, ?_⟩
  rw [State.hop, hme, hnext]
  dsimp only
  rw [hclear, State.farPort_pickPort hs]
  rfl

theorem State.farPort_route {h : Hdr} (hop : h.opcode = Op.ack) (hdst : h.dstNode = 1) (hcls : h.cls = 0) :
    ∃ c : Copy, s.routeOf h true none = (.out c, 0, false, false) ∧ c.port = some n := by
  have hme := State.farPort_me hs
  obtain ⟨vc, hhop⟩ := State.farPort_hop hs h 0xFFFF false
  have hvia : s.wantsVia h true = false := by simp [State.wantsVia, hop]
  refine ⟨{ port := some n, phase := 1, via := 0xFFFF, vc := vc }, ?_, rfl⟩
  rw [State.routeOf, if_neg (by omega), if_neg (by simp [hdst, hme]), State.farPort_plan hs]
  dsimp only
  rw [if_neg (by simp [hvia]), if_pos rfl, if_neg (by simp [hcls]), hdst, hhop]

/-- An acknowledgement for the neighbour is counted as dropped at the port, whatever register that word is of. -/
theorem State.farPort_sendAck {h : Hdr} (hsrc : h.srcNode = 1) (hcls : h.cls = 0) {ep : Nat}
    (hep : ep ≠ 0xFFF2 ∨ h.dstEp ≠ 0xFFF2) (a : AckInfo) :
    s.sendAck h ep a = s.bump .portHdrDrop n := by
  have hme := State.farPort_me hs
  have hpeer : ∀ (g : Hdr) (c : Copy), g.units = 1 → c.port = some n → s.payloadOk g c = false := fun g c hg hc => by
    have hport : s.port n = { state := 5, peer := some { maxPayload := 0 } } := by
      rw [State.port, hs.link]
      simp [NMap.getD, NMap.get?]
    rw [State.payloadOk, hc]
    simp [hport, hg]
  rw [State.sendAck]
  dsimp only
  rw [if_neg (by obtain hep | hep := hep <;> simp [hep]), State.inject, if_neg (by simp [hs.safe])]
  dsimp only
  have hmc : mcastOpcodes.contains Op.ack = false := by decide
  rw [if_neg (by exact hmc.trans_ne Bool.false_ne_true)]
  generalize hg : ({ ackHdr h _ _ with cong := _ } : Hdr) = g
  obtain ⟨c, hroute, hc⟩ := State.farPort_route hs (h := g) (by rw [← hg]; rfl) (by rw [← hg]; exact hsrc)
    (by rw [← hg]; exact hcls)
  rw [hroute]
  have hcount : s.count (routeCounts 0 false false) = s := rfl
  dsimp only
  rw [hcount, hpeer g c (by rw [← hg]; rfl) hc, hc]
  rfl

end

end Sys2Proof.Machine
end

section

-- One declaration after another: elaborated side by side, they take more threads than the check allows.
set_option Elab.async false

/-! The settling of one report in a module where nothing else waits. -/

namespace Sys2Proof.Machine

open Sys2Proof (Instr Hdr FaultRep)

/-- A register that is none of the counters of events, pools, settling and reports. -/
theorem Reg.settleQuiet_of_ne {r : Reg}
    (h : ∀ q ∈ eventRegs ++ poolCounters ++ settleCounters ++ faultCounters, r.ctorIdx ≠ q.ctorIdx) : r.settleQuiet 0 := by
  have hkey : ∀ q ∈ settleCounters ++ faultCounters, r.key 0 ≠ q.key 0 := fun q hq =>
    Reg.key_ne (h q (by simp only [List.mem_append] at hq ⊢; tauto)) (by decide) (by decide)
  exact ⟨⟨Reg.cellQuiet_of_lt (fun q hq => h q (by simp only [List.mem_append] at hq ⊢; tauto)) (by decide),
    fun q hq => hkey q (List.mem_append_left _ hq)⟩, fun q hq => hkey q (List.mem_append_right _ hq)⟩

/-- Nothing has ended, no note or fence waits, and no reservation's release is over. -/
structure State.still (s : State) : Prop where
  idle : s.idle
  notes : s.flow.notes = []
  fences : s.flow.fences = []
  runs : s.eng.ended = []
  chunks : s.coll.finished = []
  ended : s.coll.ended = []
  released : ∀ kv ∈ s.stash.res, s.stashDone kv.1 = false

/-- The parts that a report changes where nothing waits. -/
def reportParts : List Part := [.fresh, .regs, .flt, .mgt, .out]

theorem State.react_keepsIdle {s : State} (hi : s.idle) (rep : FaultRep) (injected : Bool) :
    s.keepsBut reportParts (s.react rep injected) := by
  have hcap : ∀ b, s.keepsBut reportParts (s.capture rep injected b) := fun b =>
    State.keepsBut_mono (s.capture_keepsBut rep injected b) (by decide)
  have hlatched : s.keepsBut reportParts (s.latched rep injected) := by
    rw [State.latched]
    split
    · exact State.keepsBut_trans (hcap _) (State.keepsBut_mono (State.logFault_keepsBut _ _ _ _) (by decide))
    · exact hcap _
  cases hs : s.isSafe with
  | true =>
    rw [State.react_safe hs]
    exact hcap _
  | false =>
    rw [State.react_unsafe hs]
    split
    · rw [State.enterSafe_idle (State.idle_congr (s.latched_core rep injected) hi)]
      refine State.keepsBut_trans hlatched (State.keepsBut_trans (State.keepsBut_mono (State.setFlt_keepsBut _ _) (by decide))
        (State.keepsBut_mono (State.bump_keepsBut _ _ _ _) (by decide)))
    · exact hlatched

theorem State.react_todo (s : State) (rep : FaultRep) (injected : Bool) : (s.react rep injected).flt.todo = s.flt.todo := by
  cases hs : s.isSafe with
  | true =>
    rw [State.react_safe hs]
    rfl
  | false =>
    rw [State.react_unsafe hs]
    split
    · rw [State.enterSafe_flt, State.latched_flt]
    · rw [State.latched_flt]

/-- What keeps the parts that settle keeps a module still. -/
theorem State.still_keeps {s t : State} (h : s.keepsBut reportParts t) (hs : s.still) : t.still where
  idle := State.idle_congr (State.core_of_keeps h (by decide)) hs.idle
  notes := by rw [State.keepsBut_flow h (by decide), hs.notes]
  fences := by rw [State.keepsBut_flow h (by decide), hs.fences]
  runs := by rw [State.keepsBut_eng h (by decide), hs.runs]
  chunks := by rw [State.keepsBut_coll h (by decide), hs.chunks]
  ended := by rw [State.keepsBut_coll h (by decide), hs.ended]
  released := by
    have hst := State.keepsBut_stash h (by decide)
    simp only [State.stashDone, State.stashEnts, hst]
    exact hs.released

section

variable {s : State} (hs : s.still)

include hs

theorem State.settleRest_still : s.settleRest = s := by
  have hi := hs.idle
  obtain ⟨-, -, htold, -, -, hlost, -⟩ := hs.idle
  have hpass : s.passNotes = s := by
    have hflow : ({ s with flow := { s.flow with notes := [] } } : State) = s := by rw [← hs.notes]
    have htopo : (s.setTopo fun t => { t with lostDue := [] }) = s := by rw [← hlost]; rfl
    have heng : (s.setEng fun e => { e with ended := [] }) = s := by rw [← hs.runs]; rfl
    have hfinished : (s.setColl fun c => { c with finished := [] }) = s := by rw [← hs.chunks]; rfl
    have hcoll : (s.setColl fun c => { c with ended := [] }) = s := by rw [← hs.ended]; rfl
    have hparm : (s.setParm fun p => { p with told := [] }) = s := by rw [← htold]; rfl
    simp only [State.passNotes, hs.notes, hflow, hlost, htopo, hs.runs, heng, hs.chunks, hfinished, hs.ended, hcoll, htold, hparm,
      List.foldl_nil]
  have hdrop : s.dropReleased = s := by
    have hnone : s.stash.res.keys.filter s.stashDone = [] := by
      refine List.filter_eq_nil_iff.2 fun k hk => ?_
      obtain ⟨kv, hkv, rfl⟩ := List.mem_map.1 hk
      simp [hs.released kv hkv]
    rw [State.dropReleased, hnone]
    rfl
  have hfence : s.fenceCheck = s := by simp [State.fenceCheck, hs.fences]
  rw [State.settleRest, hpass, State.reviewBlocks_idle hi, hdrop, hfence, State.serviceCheck_idle hi, State.wakeAll_idle hi,
    State.pump_idle hi]

theorem State.quiet_still (htodo : s.flt.todo = []) : s.quiet = true := by
  obtain ⟨hctxs, -, htold, -, -, hlost, -⟩ := hs.idle
  simp [State.quiet, htodo, hs.notes, hlost, hs.runs, hs.chunks, hs.ended, htold, hctxs, State.nextStart_none hctxs]

/-- The one report of a module that is otherwise still is reacted to, and nothing else happens. -/
theorem State.settle_one {rep : FaultRep} (htodo : s.flt.todo = [(rep, false)]) (hinj : s.flt.injection = none) :
    s.settle = (s.setFlt fun f => { f with todo := [] }).react rep false := by
  have hstill : (s.setFlt fun f => { f with todo := [] }).still :=
    State.still_keeps (State.keepsBut_mono (State.setFlt_keepsBut _ _) (by decide)) hs
  generalize hu : (s.setFlt fun f => { f with todo := [] }) = u at hstill
  have htstill := State.still_keeps (State.react_keepsIdle hstill.idle rep false) hstill
  have hempty : (u.react rep false).flt.todo = [] := by
    rw [State.react_todo, ← hu]
    rfl
  have hqueued : u.reactQueued rep false = u.react rep false := by
    have hnone : u.injectionFor rep.cls rep.master = none := by
      rw [← hu, State.injectionFor]
      simp [hinj]
    rw [State.reactQueued, hnone]
  have hall : s.reactAll 64 = u.react rep false := by
    rw [State.reactAll, htodo]
    dsimp only
    rw [hu, hqueued, State.reactAll, hempty]
  have hcalm : ¬ s.calm = true := by simp [State.calm, htodo]
  rw [State.settle, if_neg hcalm, State.rounds_, State.settleRound_eq, hall, State.settleRest_still htstill,
    State.quiet_still htstill hempty]
  exact if_pos rfl

/-- The one report of a module that is otherwise still: it makes the module safe, with its capture the first. -/
theorem State.settle_report {rep : FaultRep} (htodo : s.flt.todo = [(rep, false)]) (hsafe : s.flt.safe = none)
    (htop : s.flt.top = none) (hinj : s.flt.injection = none) (hlevel : 3 ≤ s.repLevel rep) {r : Reg} {i : Nat}
    (hr : r.settleQuiet i) : s.settle.flt.safe = some rep.cls ∧ (∃ k, s.settle.flt.top = some k ∧ k.overflow = false) ∧
      s.settle.reg r i = s.reg r i := by
  rw [State.settle_one hs htodo hinj]
  generalize hu : (s.setFlt fun f => { f with todo := [] }) = u
  have hui : u.idle := hu ▸ hs.idle
  have hreg : u.reg r i = s.reg r i := hu ▸ rfl
  have hunsafe : u.isSafe = false := by
    rw [← hu, State.isSafe]
    simp [hsafe]
  have hulevel : 3 ≤ u.repLevel rep := hu ▸ hlevel
  obtain ⟨-, hsame, -⟩ := State.react_reacted hr hui rep false
  refine ⟨?_, ?_, hsame.trans hreg⟩
  · rw [State.react_unsafe hunsafe, if_pos hulevel, State.enterSafe_flt]
  · obtain ⟨-, b, hk⟩ := u.react_latched rep false
    refine ⟨_, hk, ?_⟩
    rw [← hu]
    simp [htop, captureOf]

end

end Sys2Proof.Machine
end

section

-- One declaration after another: elaborated side by side, they take more threads than the check allows.
set_option Elab.async false

/-! The module of the refutations: a report waits, and the acknowledgement of a new frame is counted in the register of which a
statement says that it counts once. -/

namespace Sys2Proof.Machine

open Sys2Proof (Instr Hdr Frame Delivery)

/-- The port whose counter of dropped headers is the word of a register. -/
def Reg.twinPort (r : Reg) : Nat := r.key 0 - Reg.portHdrDrop.key 0

/-- The class-8 report that makes the module safe once a frame has been taken. -/
def farReport : Sys2Proof.FaultRep := { cls := 8 }

/-- Right after reset, but for the far port that is the twin of a register and a report of class 8 that waits. -/
def State.far (r : Reg) : State := { State.reset with
  topo := { plan := some (farPlan r.twinPort), ports := [(r.twinPort, { state := 2, peerState := 2 })] }
  link := { ports := [(r.twinPort, { state := 5, peer := some { maxPayload := 0 } })] }
  flt := { todo := [(farReport, false)] } }

/-- The far module with its collectives and its stash; receivers may have settled frames. -/
structure State.twin (r : Reg) (s : State) : Prop where
  far : s.farPort r.twinPort
  flt : s.flt = (State.far r).flt
  core : s.core = (State.far r).core
  notes : s.flow.notes = []
  fences : s.flow.fences = []
  runs : s.eng.ended = []
  chunks : s.coll.finished = []
  ended : s.coll.ended = []
  released : ∀ kv ∈ s.stash.res, s.stashDone kv.1 = false

/-- A register of which a twin can be counted. -/
def Reg.twinned (r : Reg) : Prop := Reg.portHdrDrop.ctorIdx ≤ r.ctorIdx ∧ r.settleQuiet 0 ∧ r.ctorIdx ≠ Reg.fltSeverity0.ctorIdx ∧
  1 < r.counterWidth ∧ r.resetWord 0 = 0

theorem Reg.portHdrDrop_twinPort {r : Reg} (hr : r.twinned) : Reg.portHdrDrop.key r.twinPort = r.key 0 := by
  obtain ⟨hle, -⟩ := hr
  unfold Reg.twinPort Reg.key
  omega

/-- A counter raised under the key of another register. -/
theorem State.reg_bump_twin (s : State) {q r : Reg} {i j : Nat} (h : q.key i = r.key j) :
    (s.bump q i).reg r j = s.countedUp q i := by
  rw [State.bump, State.reg, State.setReg, ← h, NMap.get?_set]
  rfl

section

variable {r : Reg} (hr : r.twinned) {s : State} (hregs : s.regs = [])

include hr hregs

/-- A register that is counted once under each of its keys reads two. -/
theorem State.reg_twin_two : ((s.bump .portHdrDrop r.twinPort).bump r).reg r 0 = 2 ∧
    ((s.bump r).bump .portHdrDrop r.twinPort).reg r 0 = 2 := by
  have hkey := Reg.portHdrDrop_twinPort hr
  obtain ⟨-, -, -, hwidth, hreset⟩ := hr
  have hnone : ∀ q i, s.reg q i = q.resetWord i := fun q i => by
    rw [State.reg, hregs]
    rfl
  have hdrop : Reg.portHdrDrop.resetWord r.twinPort = 0 := rfl
  have hdropWidth : 4 ≤ 2 ^ Reg.portHdrDrop.counterWidth := by decide
  have hpow : 4 ≤ 2 ^ r.counterWidth := Nat.pow_le_pow_right (n := 2) (by decide) hwidth
  constructor
  · rw [State.reg_bump, State.countedUp, State.reg_bump_twin s hkey, State.countedUp, hnone, hdrop]
    omega
  · rw [State.reg_bump_twin _ hkey, State.countedUp, State.reg_bump_twin s hkey.symm, State.countedUp, hnone, hreset]
    omega

/-- The levels of the classes stay as they were reset. -/
theorem State.faultLevel_twin : 3 ≤ ((s.bump .portHdrDrop r.twinPort).bump r).faultLevel 8 ∧
    3 ≤ ((s.bump r).bump .portHdrDrop r.twinPort).faultLevel 8 := by
  have hkey := Reg.portHdrDrop_twinPort hr
  obtain ⟨-, -, hne, -⟩ := hr
  have hown : Reg.fltSeverity0.key 0 ≠ r.key 0 := Reg.key_ne (Ne.symm hne) (by decide) (by decide)
  have htwin : Reg.fltSeverity0.key 0 ≠ Reg.portHdrDrop.key r.twinPort := by rwa [hkey]
  have hreset : s.reg .fltSeverity0 0 = levelWord (defaultLevels.take 21) := State.reg_congr (s := State.reset) hregs _ _
  have hlevel : 3 ≤ bits (levelWord (defaultLevels.take 21)) 26 24 := by simp [levelWord, defaultLevels, bits]
  have hsame : ∀ t : State, t.reg .fltSeverity0 0 = s.reg .fltSeverity0 0 → 3 ≤ t.faultLevel 8 := fun t ht => by
    rw [State.faultLevel, if_pos (by decide), State.cfg, ht, hreset]
    exact hlevel
  exact ⟨hsame _ ((State.reg_bump_ne _ 1 hown).trans (State.reg_bump_ne _ 1 htwin)),
    hsame _ ((State.reg_bump_ne _ 1 htwin).trans (State.reg_bump_ne _ 1 hown))⟩

end

section

variable {r : Reg} {s : State} (hs : s.twin r)

include hs

theorem State.twin_still : s.still where
  idle := State.idle_congr hs.core ⟨rfl, rfl, rfl, rfl, rfl, rfl, show State.reset.boot.phase ≠ Phase.linking by decide⟩
  notes := hs.notes
  fences := hs.fences
  runs := hs.runs
  chunks := hs.chunks
  ended := hs.ended
  released := hs.released

/-- A receiver that has settled frames leaves the module as the twin asks. -/
theorem State.twin_setRx (f : RxFlow) : (s.setRx f).twin r :=
  { hs with far := ⟨hs.far.topo, hs.far.link, hs.far.safe⟩ }

theorem State.twin_bump (q : Reg) (i n : Nat) : (s.bump q i n).twin r :=
  { hs with far := ⟨hs.far.topo, hs.far.link, hs.far.safe⟩ }

/-- No state that keeps what frames keep settles as one does in which the register reads otherwise. -/
theorem State.twin_settle_ne {u : State} (hr : r.twinned) (hlevel : 3 ≤ s.faultLevel 8) (hu : u.core = s.core)
    (hne : u.reg r 0 ≠ s.reg r 0) : s.settle ≠ u.settle := by
  intro heq
  obtain ⟨-, hquiet, -⟩ := hr
  have hstill := State.twin_still hs
  have hflt := hs.flt
  obtain ⟨hsafe, ⟨k, hk, ho⟩, hreg⟩ := State.settle_report hstill (rep := farReport) (by rw [hflt]; rfl) (by rw [hflt]; rfl)
    (by rw [hflt]; rfl) (by rw [hflt]; rfl) (by rw [State.repLevel]; exact hlevel) hquiet
  have htracked := State.settle_tracked (c := 8) hquiet (by decide) (State.idle_congr hu hstill.idle) rfl
  rw [← heq] at htracked
  exact hne ((State.tracked_reg htracked hsafe hk ho).symm.trans hreg)

/-- A frame that is counted with its acknowledgement is counted twice: the statement that it is counted once fails. -/
theorem State.twin_not_once (hr : r.twinned) (hregs : s.regs = []) {k : Instr} {w : State} (hw : Leads s k w) {t : State}
    (ht : t.twin r) (htregs : t.regs = [])
    (hform : w = (t.bump .portHdrDrop r.twinPort).bump r ∨ w = (t.bump r).bump .portHdrDrop r.twinPort)
    {u : State} (hu : Leads s k u) (honce : u.reg r 0 = s.countedUp r 0) : u.core ≠ s.core := by
  intro hcore
  obtain ⟨-, -, -, -, hreset⟩ := id hr
  have hone : s.countedUp r 0 ≤ 1 := by
    have hzero : s.reg r 0 = 0 := by
      rw [State.reg, hregs]
      exact hreset
    rw [State.countedUp, hzero]
    omega
  obtain ⟨hpair, hpair'⟩ := State.reg_twin_two hr htregs
  obtain ⟨hlevel, hlevel'⟩ := State.faultLevel_twin hr htregs
  have hsettle : w.settle = u.settle := by
    rw [Leads] at hw hu
    simpa using hw.symm.trans hu
  have hcore' : u.core = t.core := hcore.trans (hs.core.trans ht.core.symm)
  obtain rfl | rfl := hform
  · exact State.twin_settle_ne (State.twin_bump (State.twin_bump ht _ _ 1) _ _ 1) hr hlevel hcore' (by omega) hsettle
  · exact State.twin_settle_ne (State.twin_bump (State.twin_bump ht _ _ 1) _ _ 1) hr hlevel' hcore' (by omega) hsettle

end

/-! ## First frames -/

theorem State.takeInternal_none {s : State} (hin : s.sw.internal = []) (d : Delivery) : s.takeInternal d = s := by
  rw [State.takeInternal, State.internalEntry, hin]
  rfl

/-- The first frame of a flow reaches its endpoint, and was not settled before. -/
theorem State.newFrame_first {s : State} (hin : s.sw.internal = []) (hrx : s.flow.rx = []) (hsafe : s.isSafe = false) {f : Frame}
    (hseq : f.hdr.seq = 0) (o : Option Nat) : s.newFrame ⟨f, o⟩ = true := by
  have hflow : (s.rxFlow (flowOf f.hdr)).arrive 0 = { key := flowOf f.hdr } := by
    rw [State.rxFlow, hrx]
    simp [RxFlow.arrive]
  have hseen : s.duplicate f.hdr = false := by
    rw [State.duplicate, hseq, hflow]
    simp [RxFlow.seen]
  have hfresh : s.refusedBefore f.hdr = none := by
    rw [State.refusedBefore, hseq, hflow]
    exact ite_self none
  have hdeliver : s.deliverable ⟨f, o⟩ = true := by
    rw [State.deliverable, State.internalEntry, hin]
    rfl
  have hreach : s.reaches ⟨f, o⟩ = true := by
    rw [State.reaches, State.takeInternal_none hin]
    simp [hsafe, hdeliver, hfresh]
  simp [State.newFrame, hreach, hseen]

/-- A committed frame of the neighbour is counted as dropped at the far port, whatever register that word is of. -/
theorem State.commitFrame_twin {r : Reg} {s : State} (hs : s.twin r) {h : Hdr} (hsrc : h.srcNode = 1) (hcls : h.cls = 0) {ep : Nat}
    (hep : ep ≠ 0xFFF2 ∨ h.dstEp ≠ 0xFFF2) : ∃ g, s.commitFrame h ep = (s.setRx g).bump .portHdrDrop r.twinPort :=
  ⟨_, State.farPort_sendAck (State.twin_setRx hs _).far hsrc hcls hep _⟩

theorem State.far_twin (r : Reg) : (State.far r).twin r where
  far := ⟨rfl, rfl, rfl⟩
  flt := rfl
  core := rfl
  notes := rfl
  fences := rfl
  runs := rfl
  chunks := rfl
  ended := rfl
  released := fun _ h => absurd h List.not_mem_nil

end Sys2Proof.Machine
end

section

-- One declaration after another: elaborated side by side, they take more threads than the check allows.
set_option Elab.async false

/-! The release of a version that no block has (R271). -/

namespace Sys2Proof.Machine

open Sys2Proof (Instr Hdr Frame Delivery)

theorem paramReleaseUnheld_twinned : Reg.paramReleaseUnheld.twinned :=
  ⟨by decide, Reg.settleQuiet_of_ne (by decide), by decide, by decide, rfl⟩

/-- A release that the neighbour sends. -/
def farRelease : Frame :=
  { hdr := { opcode := Op.versionRelease, srcNode := 1, srcEp := 0xFFF1, dstEp := 0xFFF1, last := true }, payload := zeros 64 }

/-- Refutes O36: the statement is about every state, and in one whose plan lists 606,209 ports the module drops the acknowledgement
of a release at the last of them, which counts in the very word of PARAM_RELEASE_UNHELD: a release with no block to match counts
there twice. -/
theorem not_weightsAreServed : ¬ Obligations.WeightsAreServed := by
  unfold Obligations.WeightsAreServed
  intro h
  have htwin := State.far_twin .paramReleaseUnheld
  have hn : (State.far .paramReleaseUnheld).newFrame ⟨farRelease, none⟩ = true := State.newFrame_first rfl rfl rfl rfl none
  obtain ⟨-, -, hrelease, -⟩ := h _ farRelease none hn
  obtain ⟨u, hu, honce, hkeeps⟩ := hrelease fun _ _ hb => absurd hb List.not_mem_nil
  obtain ⟨hleads, hdup⟩ := leads_of_newFrame (k := .versionRelease ⟨farRelease, none⟩)
    (f := (State.versionRelease · farRelease)) rfl hn
  rw [State.takeInternal_none rfl] at hleads hdup
  obtain ⟨g, hg⟩ := State.commitFrame_twin htwin (h := farRelease.hdr) rfl rfl (ep := 0xFFF1) (.inl (by decide))
  refine State.twin_not_once htwin paramReleaseUnheld_twinned rfl hleads (State.twin_setRx htwin g) rfl (.inl ?_) hu honce
    (State.core_of_keeps hkeeps (by decide))
  rw [State.versionRelease]
  dsimp only
  rw [if_neg (by simpa using hdup), hg]
  rfl

end Sys2Proof.Machine
end

section

-- One declaration after another: elaborated side by side, they take more threads than the check allows.
set_option Elab.async false

/-! Duplicates of contributions and of gather data at the root (R227, R233). -/

namespace Sys2Proof.Machine

open Sys2Proof (Instr Hdr Frame Delivery)

theorem collDupDrop_twinned : Reg.collDupDrop.twinned :=
  ⟨by decide, Reg.settleQuiet_of_ne (by decide), by decide, by decide, rfl⟩

/-- A reduction of one chunk, of which this module is the root. -/
def farReduction : CollDesc := { kind := 1, fmt := 3, elements := 32, ranks := [0] }

/-- The run of the reduction serves a later chunk in its one slot. -/
def farInstance : InstSt := { gen := 0, slots := [{ c := { chunk := 1, ctx := 0 } }] }

/-- An operation of a descriptor with that run. -/
def farOp (d : CollDesc) : CollSt := { job := 0, desc := d, next := 0, inst := some farInstance }

/-- The far module as the root of the reduction. -/
def State.farRoot : State := { State.far .collDupDrop with
  coll := { ops := [(0, farOp farReduction)] } }

theorem State.farRoot_twin : State.farRoot.twin .collDupDrop :=
  { State.far_twin .collDupDrop with far := ⟨rfl, rfl, rfl⟩ }

/-- The neighbour's contribution to the first chunk. -/
def farContribution : Frame :=
  { hdr := { opcode := Op.redContrib, ext := true, srcNode := 1, dstEp := 0xFFF1, last := true }
    extn := some { member := 0, format := 3 }, payload := zeros 64 }

theorem farContribution_arrives : ∃ a, farReduction.arrival farContribution = some a := by
  have hfits : ¬(farReduction.chunks ≤ 0 ∨ farReduction.segs 0 farReduction.fmt ≤ 0 ∨ farReduction.members ≤ 0 ∨
      (3 : Nat) ≠ farReduction.fmt ∨ (zeros 64).length ≠ segBytes farReduction.fmt (farReduction.segLen 0 farReduction.fmt 0)) := by
    decide
  rw [CollDesc.arrival]
  exact ⟨_, (if_pos rfl).trans (if_neg hfits)⟩

theorem State.farRoot_me : State.farRoot.me = 0 := State.farPort_me State.farRoot_twin.far

/-- A new contribution of the neighbour is judged at the root. -/
theorem leads_of_rootReduction {s : State} {f : Frame} {o : Option Nat} (hn : s.newFrame ⟨f, o⟩ = true) (hin : s.sw.internal = [])
    {c : CollSt} {i : InstSt} (hruns : s.runs f c i) : Leads s (.redContrib ⟨f, o⟩) (s.rootReduction f) := by
  obtain ⟨hop, -, -, hroot⟩ := hruns
  rw [State.newFrame, Bool.and_eq_true] at hn
  obtain ⟨hsafe, hreceive⟩ := State.receive_reaches (d := ⟨f, o⟩) hn.1 fun s =>
    match s.coll.ops.get? (f.hdr.opId % 1048576) with
    | some c =>
      if c.desc.root != s.me && f.hdr.dstNode == c.desc.root then
        s.transitReduction ⟨f, o⟩ c ((o.map s.role) == some 1)
      else s.rootReduction f
    | none => s.rootReduction f
  have hreduction : s.reduction ⟨f, o⟩ = s.rootReduction f := by
    refine hreceive.trans ?_
    rw [State.takeInternal_none hin, hop]
    exact if_neg (by simp [hroot])
  have hexec : exec (.redContrib ⟨f, o⟩) s = .next (s.data fun s => s.reduction ⟨f, o⟩) := rfl
  rw [Leads, hexec, State.data, if_neg (by simp [hsafe]), hreduction]

/-- A frame of what runs is admitted. -/
theorem State.admitGen_runs {s : State} {f : Frame} {c : CollSt} {i : InstSt} (h : s.runs f c i) :
    s.admitGen f.hdr = (none, s) := by
  obtain ⟨hop, hinst, hgen, hroot⟩ := h
  rw [State.admitGen]
  dsimp only
  rw [hop]
  dsimp only
  rw [if_neg (by simp [hroot]), if_neg (by simp [hinst]), if_pos (by simp [hinst, hgen])]

/-- A contribution to a chunk that its slot no longer serves is a duplicate (R230). -/
theorem State.rootSum_earlier {s : State} {f : Frame} {c : CollSt} {i : InstSt} (h : s.runs f c i) (hred : c.desc.reduces = true)
    {a : Arrival} (ha : c.desc.arrival f = some a) (hopen : c.committed.contains (f.hdr.position / 256) = false) {x : SlotRec}
    (hx : i.slots[f.hdr.position / 256 % c.desc.slots]? = some x) (hlt : f.hdr.position / 256 < x.c.chunk) :
    s.rootSum f = (s.bump .collDupDrop).commitAbsorbed f.hdr 0xFFF1 := by
  obtain ⟨hop, hinst, -, -⟩ := h
  rw [State.rootSum]
  dsimp only
  rw [hop, Option.bind_some, hinst, Option.map_some]
  dsimp only
  rw [if_pos hred, ha]
  dsimp only
  rw [if_neg (by rw [hopen]; exact Bool.false_ne_true), hx]
  dsimp only
  rw [if_neg (by omega), if_pos hlt]

theorem State.commitAbsorbed_twin {r : Reg} {s : State} (hs : s.twin r) {h : Hdr} (hsrc : h.srcNode = 1) (hcls : h.cls = 0)
    {ep : Nat} (hep : ep ≠ 0xFFF2 ∨ h.dstEp ≠ 0xFFF2) : ∃ g, s.commitAbsorbed h ep = (s.setRx g).bump .portHdrDrop r.twinPort :=
  ⟨_, State.farPort_sendAck (State.twin_setRx hs _).far hsrc hcls hep _⟩

/-- Refutes O34: the statement is about every state, and in one whose plan lists 417,793 ports the module drops the
acknowledgement of a duplicate at the last of them, which counts in the very word of COLL_DUP_DROP: the duplicate counts there
twice. -/
theorem not_contributionsAndBenches : ¬ Obligations.ContributionsAndBenches := by
  unfold Obligations.ContributionsAndBenches
  rintro ⟨h, -⟩
  obtain ⟨a, ha⟩ := farContribution_arrives
  have htwin := State.farRoot_twin
  have hn : State.farRoot.newFrame ⟨farContribution, none⟩ = true := State.newFrame_first rfl rfl rfl rfl none
  have hruns : State.farRoot.runs farContribution (farOp farReduction) farInstance :=
    ⟨rfl, rfl, rfl, State.farRoot_me.symm⟩
  have hslot : farInstance.slots[farContribution.hdr.position / 256 % farReduction.slots]? =
      some { c := { chunk := 1, ctx := 0 } } := by decide
  have hcommitted : (List.contains ([] : List Nat) (farContribution.hdr.position / 256)) = false := rfl
  obtain ⟨-, hdup, -⟩ := h State.farRoot farContribution none (.redContrib ⟨farContribution, none⟩) _ farInstance a _ (.inl rfl) hn
    hruns rfl ha hcommitted hslot
  obtain ⟨u, hu, honce, hkeeps⟩ := hdup (.inl (by decide))
  obtain ⟨g, hg⟩ := State.commitAbsorbed_twin (State.twin_bump htwin .collDupDrop 0 1) (h := farContribution.hdr) rfl rfl
    (ep := 0xFFF1) (.inl (by decide))
  have hnew : State.farRoot.duplicate farContribution.hdr = false := by
    rw [State.newFrame, Bool.and_eq_true, Bool.not_eq_true'] at hn
    exact hn.2
  have hsum : State.farRoot.rootReduction farContribution =
      ((State.farRoot.setRx g).bump .collDupDrop).bump .portHdrDrop Reg.collDupDrop.twinPort := by
    rw [State.rootReduction, if_neg (by simp [hnew]), State.admitGen_runs hruns]
    dsimp only
    rw [State.rootSum_earlier hruns rfl ha hcommitted hslot (by decide), hg]
    rfl
  exact State.twin_not_once htwin collDupDrop_twinned rfl (leads_of_rootReduction hn rfl hruns) (State.twin_setRx htwin g) rfl
    (.inr hsum) hu honce (State.core_of_keeps hkeeps (by decide))

end Sys2Proof.Machine
end

section

-- One declaration after another: elaborated side by side, they take more threads than the check allows.
set_option Elab.async false

/-! Duplicates of gather data at the root (R227). -/

namespace Sys2Proof.Machine

open Sys2Proof (Instr Hdr Frame Delivery)

/-- A segment of a chunk that its slot no longer serves is a duplicate (R227). -/
theorem State.rootData_earlier {s : State} {f : Frame} {c : CollSt} {i : InstSt} (h : s.runs f c i) {m : Nat}
    (hm : s.senderMember c.job c.desc f.hdr = some m) (hkind : c.desc.kind = 6) (howner : c.desc.special = m)
    (hchunk : f.hdr.position / 256 < c.desc.chunks) (hseg : f.hdr.position % 256 < c.desc.segs (f.hdr.position / 256) c.desc.fmt)
    (hlen : f.payload.length =
      segBytes c.desc.fmt (c.desc.segLen (f.hdr.position / 256) c.desc.fmt (f.hdr.position % 256))) {x : SlotRec}
    (hx : i.slots[f.hdr.position / 256 % c.desc.slots]? = some x) (hlt : f.hdr.position / 256 < x.c.chunk) :
    s.rootData f = (s.bump .collDupDrop).commitFrame f.hdr 0xFFF1 := by
  obtain ⟨hop, hinst, -, -⟩ := h
  rw [State.rootData]
  dsimp only
  rw [hop, Option.bind_some, hinst, Option.map_some]
  dsimp only
  rw [hm]
  dsimp only
  have hfits : ¬((!decide (c.desc.kind = 5 ∨ c.desc.kind = 6)) = true ∨ c.desc.chunks ≤ f.hdr.position / 256 ∨
      c.desc.segs (f.hdr.position / 256) c.desc.fmt ≤ f.hdr.position % 256 ∨
      m ≠ (if c.desc.kind = 5 then c.desc.shardOwner (f.hdr.position / 256) else c.desc.special) ∨
      f.payload.length ≠
        segBytes c.desc.fmt (c.desc.segLen (f.hdr.position / 256) c.desc.fmt (f.hdr.position % 256))) := by
    simp [hkind, howner, hlen, hchunk, hseg]
  rw [if_neg (by omega), if_neg hfits, hx]
  dsimp only
  rw [if_neg (by omega), if_pos (by simp [hlt])]

/-- A gather of one chunk by the neighbour, of which this module is the root. -/
def farGather : CollDesc := { kind := 6, fmt := 3, elements := 32, ranks := [0], special := 0 }

/-- The far module as the root of the gather. -/
def State.farGatherRoot : State := { State.far .collDupDrop with
  host := { State.reset.host with jobs := [(0, { table := [(1, 0)] })] }
  coll := { ops := [(0, farOp farGather)] } }

theorem State.farGatherRoot_twin : State.farGatherRoot.twin .collDupDrop :=
  { State.far_twin .collDupDrop with far := ⟨rfl, rfl, rfl⟩, core := rfl }

/-- The neighbour's segment of the first chunk. -/
def farSegment : Frame :=
  { hdr := { opcode := Op.collData, srcNode := 1, dstEp := 0xFFF1, last := true }, payload := zeros 64 }

/-- Refutes O35: the statement is about every state, and in one whose plan lists 417,793 ports the module drops the
acknowledgement of a duplicate at the last of them, which counts in the very word of COLL_DUP_DROP: the duplicate counts there
twice. -/
theorem not_gatherDataAndEndings : ¬ Obligations.GatherDataAndEndings := by
  unfold Obligations.GatherDataAndEndings
  rintro ⟨h, -⟩
  have htwin := State.farGatherRoot_twin
  have hn : State.farGatherRoot.newFrame ⟨farSegment, none⟩ = true := State.newFrame_first rfl rfl rfl rfl none
  have hruns : State.farGatherRoot.runs farSegment (farOp farGather) farInstance :=
    ⟨rfl, rfl, rfl, (State.farPort_me htwin.far).symm⟩
  have hmember : State.farGatherRoot.senderMember 0 farGather farSegment.hdr = some 0 := by decide
  have hslot : farInstance.slots[farSegment.hdr.position / 256 % farGather.slots]? = some { c := { chunk := 1, ctx := 0 } } := by
    decide
  have hchunk : farSegment.hdr.position / 256 < farGather.chunks := by decide
  have hseg : farSegment.hdr.position % 256 < farGather.segs (farSegment.hdr.position / 256) farGather.fmt := by decide
  have hlen : farSegment.payload.length =
      segBytes farGather.fmt (farGather.segLen (farSegment.hdr.position / 256) farGather.fmt (farSegment.hdr.position % 256)) := by
    decide
  obtain ⟨hdata, -⟩ := h State.farGatherRoot farSegment none _ farInstance 0 hn hruns hmember
  obtain ⟨-, hdup, -⟩ := hdata _ (.inr rfl) rfl hchunk hseg hlen hslot
  obtain ⟨u, hu, honce, hkeeps⟩ := hdup (.inl (by decide))
  obtain ⟨g, hg⟩ := State.commitFrame_twin (State.twin_bump htwin .collDupDrop 0 1) (h := farSegment.hdr) rfl rfl
    (ep := 0xFFF1) (.inl (by decide))
  obtain ⟨hleads, hnew⟩ := leads_of_newFrame (k := .collData ⟨farSegment, none⟩) (f := (State.rootGather · farSegment)) rfl hn
  rw [State.takeInternal_none rfl] at hleads hnew
  have hsum : State.farGatherRoot.rootGather farSegment =
      ((State.farGatherRoot.setRx g).bump .collDupDrop).bump .portHdrDrop Reg.collDupDrop.twinPort := by
    rw [State.rootGather, if_neg (by simpa using hnew), State.admitGen_runs hruns]
    dsimp only
    rw [State.rootData_earlier hruns hmember rfl rfl hchunk hseg hlen hslot (by decide), hg]
    rfl
  exact State.twin_not_once htwin collDupDrop_twinned rfl hleads (State.twin_setRx htwin g) rfl (.inr hsum) hu honce
    (State.core_of_keeps hkeeps (by decide))

end Sys2Proof.Machine
end

section

-- One declaration after another: elaborated side by side, they take more threads than the check allows.
set_option Elab.async false

/-! A put for which the stash has no room (R286). -/

namespace Sys2Proof.Machine

open Sys2Proof (Instr Hdr Frame Delivery)

theorem stashFullCount_twinned : Reg.stashFullCount.twinned :=
  ⟨by decide, Reg.settleQuiet_of_ne (by decide), by decide, by decide, rfl⟩

/-- A put that nothing refuses, of a new entry for which there is no room, is refused and counted. -/
theorem State.stashPut_full {s : State} {f : Frame} {r : StashRes} (hnew : s.duplicate f.hdr = false)
    (href : s.stashRefusal f.hdr = none) (hr : s.stash.res.get? f.hdr.job = some r) (hon : s.disabled 2 f.hdr.job = false)
    (hput : s.putRefusal f.hdr r f.payload = none) (hent : s.stashEnt f.hdr.job f.hdr.srcRank (getLE f.payload 0 8) = none)
    (hroom : s.stashRoom f.hdr.job r (ceilDiv (getLE f.payload 8 4) r.extent) = none) :
    s.stashPut f = ((s.setRes f.hdr.job { r with full := min (r.full + 1) (2 ^ 32 - 1) }).bump .stashFullCount).refuseFrame f.hdr
      0xFFF2 Status.stashFull := by
  rw [State.stashPut]
  dsimp only
  rw [if_neg (by simp [hnew]), href, hr]
  dsimp only
  rw [if_neg (by simp [hon]), hput]
  dsimp only
  rw [hent]
  dsimp only
  rw [hroom]

theorem State.refuseFrame_twin {r : Reg} {s : State} (hs : s.twin r) {h : Hdr} (hsrc : h.srcNode = 1) (hcls : h.cls = 0) {ep : Nat}
    (hep : ep ≠ 0xFFF2 ∨ h.dstEp ≠ 0xFFF2) (st : Nat) : ∃ g, s.refuseFrame h ep st = (s.setRx g).bump .portHdrDrop r.twinPort :=
  ⟨_, State.farPort_sendAck (State.twin_setRx hs _).far hsrc hcls hep _⟩

/-- A reservation that may hold no entry. -/
def farReservation : StashRes := { reserved := 0, limit := 0, maxEntries := 0, extentLog2 := 12, opId := 0 }

/-- The far module with the reservation of job 0. -/
def State.farStash : State := { State.far .stashFullCount with stash := { res := [(0, farReservation)] } }

theorem State.farStash_twin : State.farStash.twin .stashFullCount :=
  { State.far_twin .stashFullCount with
    far := ⟨rfl, rfl, rfl⟩
    released := fun kv h => by
      rw [List.mem_singleton.1 h]
      rfl }

/-- The same once a put has been refused for want of room. -/
def State.farStashFull : State := State.farStash.setRes 0 { farReservation with full := 1 }

theorem State.farStashFull_twin : State.farStashFull.twin .stashFullCount :=
  { State.farStash_twin with
    far := ⟨rfl, rfl, rfl⟩
    released := fun kv h => by
      rw [List.mem_singleton.1 h]
      rfl }

/-- The neighbour's put of a first segment, of an entry of 64 bytes. -/
def farPut : Frame :=
  { hdr := { opcode := Op.stashPut, srcNode := 1, dstEp := 0xFFF1, last := true }
    payload := zeros 8 ++ [64] ++ zeros 119 }

theorem State.farPut_accepted : State.farStash.putRefusal farPut.hdr farReservation farPut.payload = none := by
  have hbytes : getLE farPut.payload 8 4 = 64 := by decide
  have hseg : getLE farPut.payload 12 4 = 0 := by decide
  have hlen : farPut.payload.length = 128 := by simp [farPut, zeros]
  have hent : ∀ tag, State.farStash.stashEnt farPut.hdr.job farPut.hdr.srcRank tag = none := fun _ => rfl
  rw [State.putRefusal, hbytes, hseg, hlen, hent]
  decide

/-- Refutes O38: the statement is about every state, and in one whose plan lists 679,937 ports the module drops the
acknowledgement of a refused put at the last of them, which counts in the very word of STASH_FULL_COUNT: a put without room counts
there twice. -/
theorem not_stashFrames : ¬ Obligations.StashFrames := by
  unfold Obligations.StashFrames
  rintro ⟨h, -⟩
  have htwin := State.farStash_twin
  have hn : State.farStash.newFrame ⟨farPut, none⟩ = true := State.newFrame_first rfl rfl rfl rfl none
  have href : State.farStash.stashRefusal farPut.hdr = none := by decide
  have hroom : State.farStash.stashRoom farPut.hdr.job farReservation (ceilDiv (getLE farPut.payload 8 4) farReservation.extent) =
      none := by
    rw [State.stashRoom]
    exact if_pos (Nat.zero_le _)
  obtain ⟨hframes, -⟩ := h State.farStash farPut none farReservation _ _ rfl rfl rfl
  obtain ⟨-, hgood⟩ := hframes hn
  obtain ⟨-, -, hfull⟩ := hgood href (fun _ => rfl) State.farPut_accepted
  obtain ⟨u, hu, -, honce, hkeeps⟩ := hfull rfl hroom
  obtain ⟨hleads, hnew⟩ := leads_of_newFrame (k := .stashPut ⟨farPut, none⟩) (f := (State.stashPut · farPut)) rfl hn
  rw [State.takeInternal_none rfl] at hleads hnew
  obtain ⟨g, hg⟩ := State.refuseFrame_twin (State.twin_bump State.farStashFull_twin .stashFullCount 0 1) (h := farPut.hdr) rfl rfl
    (ep := 0xFFF2) (.inr (by decide)) Status.stashFull
  have hsum : State.farStash.stashPut farPut =
      ((State.farStashFull.setRx g).bump .stashFullCount).bump .portHdrDrop Reg.stashFullCount.twinPort :=
    (State.stashPut_full hnew href rfl rfl State.farPut_accepted rfl hroom).trans hg
  exact State.twin_not_once htwin stashFullCount_twinned rfl hleads (State.twin_setRx State.farStashFull_twin g) rfl (.inr hsum)
    hu honce (State.core_of_keeps hkeeps (by decide))

end Sys2Proof.Machine
end
